-- ==== Sys2Proof/Word.lean ====
section
/-! DEFINITION. The word types of the module: the widths the manual names. -/

namespace Sys2Proof

/-- One byte (R7: the byte at the lowest address holds bits [7:0]). -/
abbrev Byte := BitVec 8

/-- A 16-bit field. -/
abbrev W16 := BitVec 16

/-- A 32-bit field, and an FP32 value by its bits (R106). -/
abbrev W32 := BitVec 32

/-- A 64-bit register or scalar (R80). -/
abbrev W64 := BitVec 64

/-- A core-instruction word (R77). -/
abbrev W128 := BitVec 128

/-- The linear number of a compute core, 16*y + x (R3). -/
abbrev CoreNo := Fin 128

/-- A partition number, 0 to 7 (R362). -/
abbrev PartNo := Fin 8

/-- A memory-side die, M0 to M3 (R3). -/
abbrev MDie := Fin 4

/-- A compute die, C0 to C7 (R3). -/
abbrev CDie := Fin 8

/-- A Haros port, P0 to P31 (R3). -/
abbrev PortNo := Fin 32

end Sys2Proof
end

