-- ==== Sys2Proof/Args.lean ====
section
/-! DEFINITION. The operand types of the commands: register names, address forms, sources of command blocks,
requesters and reported readings. -/

namespace Sys2Proof

/-- A scalar register s0 to s31 (R80). -/
abbrev SReg := Fin 32

/-- A vector register v0 to v255 (R58). -/
abbrev VReg := Fin 256

/-- R93: the second vector source: a register, or the broadcast of ss[31:0] (mod[10] = 1). -/
inductive VSrc where
  | reg (v : VReg)
  | bcast (s : SReg)
  deriving DecidableEq, Repr

/-- R87: a descriptor address: `desc`, or sa[21:0] + desc when mod[10] = 1. -/
structure DescArg where
  base : Option SReg
  desc : BitVec 22
  deriving DecidableEq, Repr

/-- R93: a store address of VLD or VST: `addr`, or ss + addr when mod[11] = 1. -/
structure StAddr where
  base : Option SReg
  addr : BitVec 22
  deriving DecidableEq, Repr

/-- R95: a memory address of LOAD or STORE: sa + imm in the device-virtual space, or in the context window whose id
is sc[15:0]. -/
structure MemArg where
  sa : SReg
  imm : W32
  ctx : Option SReg
  deriving DecidableEq, Repr

/-- Where a command block of an engine comes from: a work order the module has taken (its number among the started
orders), or a submit register of a partition naming a block in its device-virtual space (R257, R267, R299). -/
inductive CmdSrc where
  | order (k : Nat)
  | submit (p : PartNo) (addr : W64)
  deriving DecidableEq, Repr

/-- R335, R351: how a folio control message of another module comes: the port, and the dst and dst_part of its header. -/
structure FolioVia where
  port : PortNo
  dst : W32
  part : Byte
  deriving DecidableEq, Repr

/-- R334, R351: what a folio control message holds besides its own fields: the folio's global id, and how it comes from another
module. -/
structure SpanMsg where
  globalId : W64
  via : Option FolioVia
  deriving DecidableEq, Repr

/-- R246, R456: a sealed folio has been applied: its slot, and the granules whose journal records were found poisoned. -/
structure Applied where
  id : BitVec 14
  lost : List Nat
  deriving DecidableEq, Repr

/-- R220, R309: a flash program: of the i-th migration under way, or of the i-th page of the write-back areas. -/
inductive ProgSrc where
  | move (i : Nat)
  | writeback (i : Nat)
  deriving DecidableEq, Repr

/-- R278: a charge that waits on a spill: the i-th waiting order, or the i-th waiting move. -/
inductive SpillWaiter where
  | order (i : Nat)
  | move (i : Nat)
  deriving DecidableEq, Repr

/-- R104: the privilege modes of a rubric core. -/
inductive RvMode where
  | m | hs | vs | vu | u
  deriving DecidableEq, Repr

/-- Access sizes of a rubric core: 1, 2, 4 or 8 bytes. -/
inductive RvSize where
  | b | h | w | d
  deriving DecidableEq, Repr

/-- Who reads a register: a function of the host (0 the PF, 1 to 8 a VF), or a rubric core. -/
inductive Requester where
  | host (fn : BitVec 4)
  | hart (k : Fin 24)
  deriving DecidableEq, Repr

/-- R411: the path a WMP request arrived on, which fixes its domain: UDP on the side-band, MCTP over I3C (`secured`:
inside an SPDM session), MCTP over PCI Express, a mailbox channel, the relay of a partition's runtime. -/
inductive WmpPath where
  | udp (addr : W128) (port : W16) (secured : Bool)
  | i3c (eid : Byte) (secured : Bool)
  | pcie (eid : Byte)
  | mailbox (ch : Fin 2)
  | relay (p : PartNo)
  deriving DecidableEq, Repr

/-- R476: the paths of the SPDM responder: a management requester, or a Haros port's control lane. -/
inductive SpdmPath where
  | i3c (eid : Byte)
  | udp (addr : W128) (port : W16)
  | pcie (eid : Byte)
  | doe
  | link (p : PortNo)
  | endToEnd (peer : W32)
  deriving DecidableEq, Repr

/-- R425, R476: the bus of an MCTP endpoint: I3C, PCI Express. -/
inductive MctpBus where
  | i3c | pcie
  deriving DecidableEq, Repr

/-- R425: an MCTP control message the module answers: endpoint discovery, assignment of the endpoint identifier, the query of the
identifier, the supported message types. -/
inductive MctpCmd where
  | discover
  | setEid (eid : Byte)
  | getEid
  | types
  deriving DecidableEq, Repr

/-- R506: the path of a firmware-update agent (`secured`: inside an SPDM session). -/
inductive PldmPath where
  | i3c (eid : Byte) (secured : Bool)
  | pcie (eid : Byte)
  deriving DecidableEq, Repr

/-- R486: a counter: counter k of core n, or of die d (0 to 3 memory-side, 4 and 5 I/O). -/
inductive CounterId where
  | core (n : CoreNo) (k : Fin 8)
  | die (d : Fin 6) (k : Fin 16)
  deriving DecidableEq, Repr

/-- R320, R322: flits of DATA as the decoder of a port hands them over, 256 B each: `at_` is the place of the first among the
five flits of its pair of codewords, `symErrs` the symbol errors found in each codeword from that pair on. -/
structure FlitBurst where
  flits : List (List Byte)
  at_ : Fin 5
  symErrs : List Nat
  deriving DecidableEq, Repr

/-- R342: a TIME flit as a port receives it, with the sixteenths of a tick at its arrival. -/
structure TimeMsg where
  flit : List Byte
  frac : BitVec 4
  deriving DecidableEq, Repr

/-- R440: a unit of the power policy: a core, a compute die, the HBM stacks of a die share. -/
inductive PUnit where
  | core (n : CoreNo)
  | die (c : CDie)
  | hbm (c : CDie)
  deriving DecidableEq, Repr

/-- R444: the highest readings of a 1 ms report, in degrees: compute dies, memory-side dies, I/O dies, HBM stacks, coolant
inlet and outlet. -/
structure TempReport where
  cMax : Byte
  mMax : Byte
  xMax : Byte
  hbmMax : Byte
  inlet : Byte
  outlet : Byte
  deriving DecidableEq, Repr

/-- R498, R499: what the tests of a bring-up find: cores that fail their self-test, compute dies that fail, the die shares of
flash channels that fail their scan, a memory-side or I/O die lost or no PLL lock, PCI Express trained. -/
structure BringupOutcome where
  badCores : BitVec 128
  badDies : BitVec 8
  badFlash : BitVec 8
  fatal : Bool
  pcieUp : Bool
  deriving DecidableEq, Repr

/-- R467, R458: an on-package link: a mesh link, named by the router its receiver lies at, an edge port of a compute die, a segment
of the perimeter ring (16 + k, clockwise from X0). -/
inductive PathLink where
  | mesh (router : CoreNo)
  | edge (c : CDie)
  | segment (k : Fin 16)
  deriving DecidableEq, Repr

/-- R462: a unit whose SRAM counts its errors: a compute core, a rubric core. -/
inductive SramUnit where
  | core (n : CoreNo)
  | hart (k : Fin 24)
  deriving DecidableEq, Repr

/-- R462: the errors of a unit's SRAM, uncorrectable and correctable. -/
structure SramErrors where
  unit : SramUnit
  lost : Nat
  fixed : Nat
  deriving DecidableEq, Repr

/-- R454: what a scrub read finds: nothing; an error corrected, with the bits; an uncorrectable error, with the symbols in error. -/
inductive ScrubFound where
  | clean
  | corrected (nbits : Nat)
  | lost (symbols : Nat)
  deriving DecidableEq, Repr

/-- Registers of a core block (R70 to R74, R80, R84, R103, R240). -/
inductive CoreReg where
  | ctrl | status | pc | startPc | id | group | rngSeed | rngState | rotBase | rotCtrl | wdog | progSrc | progCtrl
  | arg (i : Fin 3)
  | faultCode | faultPc | faultTile | faultNeed | faultHave | event | eventCtrl | folio
  deriving DecidableEq, Repr

/-- Registers of a multicast set (R198). -/
inductive McastReg where
  | members | ctrl | win | len | status
  deriving DecidableEq, Repr

/-- Registers of a partition control block (R227, R257, R267, R299). -/
inductive PartReg where
  | ptRoot | ruleBase | ruleCtrl | ruleTail | ruleCur | ruleStatus | folioSubmit | folioStatus | inkSubmit | inkStatus
  | codexSubmit | codexStatus
  deriving DecidableEq, Repr

/-- Registers of a die share (R209, R216). -/
inductive ShareReg where
  | key
  | ftBase (tier : Fin 3)
  deriving DecidableEq, Repr

/-- Registers of a port block (R330). -/
inductive PortReg where
  | ctrl | status | peer | arb | err
  deriving DecidableEq, Repr

/-- Registers of a ring (R190). -/
inductive RingReg where
  | ctrl | epoch | member | succ | pred | sqBase | sqTail | land | status
  deriving DecidableEq, Repr

/-- Registers of an Ethernet queue pair (R346). -/
inductive EthReg where
  | ctrl | txBase | rxBase | ptr | filter
  deriving DecidableEq, Repr

/-- GLB_ and PWR_ registers. -/
inductive GlbReg where
  | dieMap | clkStatus | time | timeStatus | folioEpoch | bar2Base | irqCfg | errStatus | pwrStatus | pwrTemp | pwrHint
  deriving DecidableEq, Repr

/-- Registers of a submission queue (R394). -/
inductive SqReg where
  | base | cfg | tail | head
  deriving DecidableEq, Repr

/-- Registers of a completion queue (R395). -/
inductive CqReg where
  | base | cfg | head | status
  deriving DecidableEq, Repr

/-- Registers of a dictionary-mailbox channel (R426): the request as 131 words of 8 B; the response is read only. -/
inductive MbxReg where
  | ctrl | status | irq
  | req (w : Fin 131)
  deriving DecidableEq, Repr

/-- Registers of a core's counter block (R486). -/
inductive PmcCoreReg where
  | cycle | status
  | cnt (k : Fin 8)
  | sel (k : Fin 8)
  deriving DecidableEq, Repr

/-- Registers of a die's counter block (R486). -/
inductive PmcDieReg where
  | base | limit | status | approx
  | cnt (k : Fin 16)
  | sel (k : Fin 16)
  deriving DecidableEq, Repr

/-- Registers of the global counter block (R491 to R493). -/
inductive PmcReg where
  | ctrl | snapAddr | seq | freezeTime
  deriving DecidableEq, Repr

/-- Words of an MSI-X table entry (R407): message address, message data, vector control. -/
inductive MsixReg where
  | addr | data | ctrl
  deriving DecidableEq, Repr

/-- Every register of the module (R7, R8, R102, R391). Dies 4 and 5 of `pmcDie` are the I/O dies. -/
inductive RegId where
  | core (n : CoreNo) (r : CoreReg)
  | mcast (m : MDie) (set : Fin 16) (r : McastReg)
  | part (m : MDie) (p : PartNo) (r : PartReg)
  | share (c : CDie) (r : ShareReg)
  | ctxBase (m : MDie)
  | codexBase (m : MDie)
  | port (p : PortNo) (r : PortReg)
  | ring (n : Fin 16) (r : RingReg)
  | portMap (l : Fin 30)
  | timeState
  | timeRoot
  | eth (x : Fin 2) (q : Fin 64) (r : EthReg)
  | glb (r : GlbReg)
  | sq (q : Fin 1024) (r : SqReg)
  | cq (c : Fin 1024) (r : CqReg)
  | pwBar2 (p : PartNo)
  | pwEvent (p : PartNo)
  | sqAlias (p : PartNo) (q : Fin 1024)
  | cqAlias (p : PartNo) (c : Fin 1024)
  | slotRelease (p : PartNo) (slot : Fin 4096)
  | msix (fn : Fin 9) (v : Fin 2048) (r : MsixReg)
  | pba (fn : Fin 9) (w : Fin 32)
  | vfEnable (f : Fin 8)
  | mbx (ch : Fin 2) (r : MbxReg)
  | pmcCore (n : CoreNo) (r : PmcCoreReg)
  | pmcDie (d : Fin 6) (r : PmcDieReg)
  | pmc (r : PmcReg)
  deriving DecidableEq, Repr

end Sys2Proof
end

