-- ==== Sys2Proof/Syntax.lean ====
section
/-! DEFINITION. The commands of the block: one constructor per row of the opcode table. -/

namespace Sys2Proof

/-- A command. Each constructor's comment is its row of the opcode table. -/
inductive Instr where
  /-- NOP (R82): Control instruction that does nothing. -/
  | nop (n : CoreNo)
  /-- END (R84): Waits as at a phase end, posts the end event with ended set, and enters IDLE. -/
  | end_ (n : CoreNo)
  /-- LI (R82): Loads the 64-bit immediate into a scalar register. -/
  | li (n : CoreNo) (sd : SReg) (imm : W64)
  /-- ADD (R82): Adds two scalars modulo 2^64. -/
  | add (n : CoreNo) (sd : SReg) (sa : SReg) (sb : SReg)
  /-- ADDI (R82): Adds the signed immediate to a scalar. -/
  | addi (n : CoreNo) (sd : SReg) (sa : SReg) (imm : W64)
  /-- SUB (R82): Subtracts two scalars. -/
  | sub (n : CoreNo) (sd : SReg) (sa : SReg) (sb : SReg)
  /-- AND (R82): Bitwise AND of two scalars. -/
  | and_ (n : CoreNo) (sd : SReg) (sa : SReg) (sb : SReg)
  /-- OR (R82): Bitwise OR of two scalars. -/
  | or_ (n : CoreNo) (sd : SReg) (sa : SReg) (sb : SReg)
  /-- XOR (R82): Bitwise XOR of two scalars. -/
  | xor_ (n : CoreNo) (sd : SReg) (sa : SReg) (sb : SReg)
  /-- SHL (R82): Shifts a scalar left by imm[5:0]. -/
  | shl (n : CoreNo) (sd : SReg) (sa : SReg) (sh : BitVec 6)
  /-- SHR (R82): Shifts a scalar right, logical, by imm[5:0]. -/
  | shr (n : CoreNo) (sd : SReg) (sa : SReg) (sh : BitVec 6)
  /-- MUL (R82): Writes the low 64 bits of a scalar product. -/
  | mul (n : CoreNo) (sd : SReg) (sa : SReg) (sb : SReg)
  /-- BEQ (R82): Branches when two scalars are equal. -/
  | beq (n : CoreNo) (sa : SReg) (sb : SReg) (target : BitVec 11)
  /-- BNE (R82): Branches when two scalars differ. -/
  | bne (n : CoreNo) (sa : SReg) (sb : SReg) (target : BitVec 11)
  /-- BLT (R82): Branches when the first scalar is less, signed. -/
  | blt (n : CoreNo) (sa : SReg) (sb : SReg) (target : BitVec 11)
  /-- BGE (R82): Branches when the first scalar is greater or equal, signed. -/
  | bge (n : CoreNo) (sa : SReg) (sb : SReg) (target : BitVec 11)
  /-- JMP (R82): Branches unconditionally. -/
  | jmp (n : CoreNo) (target : BitVec 11)
  /-- LDS (R82): Loads 64 bits from the operand store into a scalar, carrying poison. -/
  | lds (n : CoreNo) (sd : SReg) (sa : SReg) (imm : W64)
  /-- STS (R82): Stores a scalar into the operand store, carrying poison. -/
  | sts (n : CoreNo) (sa : SReg) (sb : SReg) (imm : W64)
  /-- RDTIME (R82): Reads global time into a scalar. -/
  | rdtime (n : CoreNo) (sd : SReg)
  /-- RDID (R82): Reads CORE_ID into a scalar. -/
  | rdid (n : CoreNo) (sd : SReg)
  /-- BKPT (R82): Completes the current phase and enters HALTED. -/
  | bkpt (n : CoreNo)
  /-- SEED (R118): Loads the stochastic-rounding state from a scalar. -/
  | seed (n : CoreNo) (sa : SReg)
  /-- SIGNAL (R84): Waits as at a phase end, then posts an event and value, optionally interrupting a rubric core. -/
  | signal (n : CoreNo) (sa : SReg) (event : W16)
  /-- BARRIER (R85): Sends an arrival for (id, parity) to the home core and waits for release. -/
  | barrier (n : CoreNo) (id : BitVec 4) (home : CoreNo) (count : Byte)
  /-- BARRIER_ARRIVAL (R86): Home core counts an arrival, faults a wrong count, and multicasts the release when the count is reached. -/
  | barrierArrival (n : CoreNo) (i : Nat)
  /-- BARRIER_RELEASE (R85): A waiting core receives the barrier release and continues. -/
  | barrierRelease (n : CoreNo) (i : Nat)
  /-- WAITIN (R83): Waits until the inbound queue holds the given amount of a stream. -/
  | waitin (n : CoreNo) (tag : Byte) (src : CoreNo) (count : Byte)
  /-- FENCE (R83): Ends the current phase; the next instruction follows the phase turn. -/
  | fence (n : CoreNo)
  /-- MMA (R89): Runs a matrix descriptor with its checks, prologue, K steps and epilogue. -/
  | mma (n : CoreNo) (d : DescArg)
  /-- EPI (R87): Runs only a descriptor's epilogue on its slots. -/
  | epi (n : CoreNo) (d : DescArg)
  /-- ZERO (R87): Zeroes the named accumulator slots and clears their poison. -/
  | zero (n : CoreNo) (slots : Byte)
  /-- CHAIN (R151): Runs 2 to 4 matrix descriptors back to back in one compute phase. -/
  | chain (n : CoreNo) (d : DescArg)
  /-- ATTN_FWD (R158): Runs forward attention of one query tile over a block list. -/
  | attnFwd (n : CoreNo) (d : DescArg)
  /-- ATTN_DEC (R158): Runs decode attention and writes a partial record. -/
  | attnDec (n : CoreNo) (d : DescArg)
  /-- ATTN_BWD (R174): Runs attention backward for one key block over a list of query tiles. -/
  | attnBwd (n : CoreNo) (d : DescArg)
  /-- ATTN_MERGE (R181): Folds partial records in list order and normalises or writes a merged partial. -/
  | attnMerge (n : CoreNo) (d : DescArg)
  /-- CSTEP_PUT (R378): Sends one collective message into a peer's landing area. -/
  | cstepPut (n : CoreNo) (d : DescArg)
  /-- CSTEP_TAKE (R379): Copies landed collective data of each source into the store once ready. -/
  | cstepTake (n : CoreNo) (d : DescArg)
  /-- CCOUNT (R380): Exchanges element counts and writes receive counts and offsets. -/
  | ccount (n : CoreNo) (d : DescArg)
  /-- COLL_WAIT_POLL (R379): Every 256 FCLK a waiting TAKE or CCOUNT polls its ready or count entries. -/
  | collWaitPoll (n : CoreNo)
  /-- COLL_DEADLINE (R379): A TAKE or CCOUNT reaches its deadline with a source not ready and faults the core. -/
  | collDeadline (n : CoreNo)
  /-- VADD (R93): Vector add. -/
  | vadd (n : CoreNo) (vd : VReg) (va : VReg) (vb : VSrc)
  /-- VSUB (R93): Vector subtract. -/
  | vsub (n : CoreNo) (vd : VReg) (va : VReg) (vb : VSrc)
  /-- VMUL (R93): Vector multiply. -/
  | vmul (n : CoreNo) (vd : VReg) (va : VReg) (vb : VSrc)
  /-- VFMA (R93): Vector fused multiply-add with one rounding. -/
  | vfma (n : CoreNo) (vd : VReg) (va : VReg) (vb : VSrc) (vc : VReg)
  /-- VMAX (R119): Vector maximum with canonical NaN rules. -/
  | vmax (n : CoreNo) (vd : VReg) (va : VReg) (vb : VSrc)
  /-- VMIN (R119): Vector minimum with canonical NaN rules. -/
  | vmin (n : CoreNo) (vd : VReg) (va : VReg) (vb : VSrc)
  /-- VABS (R93): Vector absolute value. -/
  | vabs (n : CoreNo) (vd : VReg) (va : VReg)
  /-- VNEG (R93): Vector negation. -/
  | vneg (n : CoreNo) (vd : VReg) (va : VReg)
  /-- VCMPGT (R93): Vector greater-than comparison giving 1.0 or 0.0. -/
  | vcmpgt (n : CoreNo) (vd : VReg) (va : VReg) (vb : VSrc)
  /-- VSEL (R93): Vector select by a third register. -/
  | vsel (n : CoreNo) (vd : VReg) (va : VReg) (vb : VSrc) (vc : VReg)
  /-- VREDSUM (R93): Sums lanes by the fixed pairwise tree into lane 0. -/
  | vredsum (n : CoreNo) (vd : VReg) (va : VReg)
  /-- VREDMAX (R93): Maximum of lanes by the fixed pairwise tree into lane 0. -/
  | vredmax (n : CoreNo) (vd : VReg) (va : VReg)
  /-- VLD (R93): Loads 256 elements from the store, widened exactly to FP32. -/
  | vld (n : CoreNo) (vd : VReg) (addr : StAddr) (fmt : Byte)
  /-- VST (R93): Stores 256 lanes rounded to a format by the chosen mode. -/
  | vst (n : CoreNo) (va : VReg) (addr : StAddr) (fmt : Byte) (rnd : BitVec 2)
  /-- VLDB (R93): Loads a blotter row region into a vector register. -/
  | vldb (n : CoreNo) (vd : VReg) (brow : BitVec 7) (breg : BitVec 2)
  /-- VSTB (R93): Stores a vector register into a blotter row region. -/
  | vstb (n : CoreNo) (va : VReg) (brow : BitVec 7) (breg : BitVec 2)
  /-- VCVT (R93): Rounds lanes to a format and widens them back to FP32. -/
  | vcvt (n : CoreNo) (vd : VReg) (va : VReg) (fmt : Byte) (rnd : BitVec 2)
  /-- VEXPO (R119): Gives the unbiased exponent of each lane as FP32. -/
  | vexpo (n : CoreNo) (vd : VReg) (va : VReg)
  /-- VLDEXP (R119): Multiplies lanes by a power of two. -/
  | vldexp (n : CoreNo) (vd : VReg) (va : VReg) (vb : VSrc)
  /-- VMOVS (R93): Broadcasts a scalar as FP32 to every lane. -/
  | vmovs (n : CoreNo) (vd : VReg) (ss : SReg)
  /-- VEXT (R93): Moves lane 0 into a scalar. -/
  | vext (n : CoreNo) (ss : SReg) (va : VReg)
  /-- EXP2 (R122): Special-function exp2 on a vector register. -/
  | exp2 (n : CoreNo) (vd : VReg) (va : VReg)
  /-- LOG2 (R126): Special-function log2 on a vector register. -/
  | log2 (n : CoreNo) (vd : VReg) (va : VReg)
  /-- EXP2B (R124): Shifted, scaled exp2 in place over blotter rows. -/
  | exp2b (n : CoreNo) (vm : VReg) (rowFirst : BitVec 7) (rowCount : Byte) (region : BitVec 2) (k : W32)
  /-- LOAD (R95): Transfers bytes from memory into the operand store. -/
  | load (n : CoreNo) (m : MemArg) (st : BitVec 22) (len : BitVec 21)
  /-- STORE (R95): Transfers bytes from the operand store to memory. -/
  | store (n : CoreNo) (m : MemArg) (st : BitVec 22) (len : BitVec 21)
  /-- LOAD2D (R98): Runs a two-dimensional load transfer descriptor. -/
  | load2d (n : CoreNo) (st : BitVec 22)
  /-- STORE2D (R98): Runs a two-dimensional store transfer descriptor. -/
  | store2d (n : CoreNo) (st : BitVec 22)
  /-- SEND (R97): Pushes store bytes into the inbound queues of a rectangle of cores. -/
  | send (n : CoreNo) (st : BitVec 22) (len : BitVec 21) (tag : Byte) (dst : CoreNo) (dst2 : CoreNo)
  /-- RECV (R97): Moves bytes of one stream from the inbound queue into the store, waiting as needed. -/
  | recv (n : CoreNo) (st : BitVec 22) (len : BitVec 21) (tag : Byte) (src : CoreNo)
  /-- STREAM_LD (R95): Loads ids from the store into the stream queue. -/
  | streamLd (n : CoreNo) (st : BitVec 22) (len : BitVec 21) (wide : Bool)
  /-- GATHER (R99): Gathers elements named by queued ids into the store. -/
  | gather (n : CoreNo) (st : BitVec 22)
  /-- SCATTER (R99): Scatters store elements to memory at queued ids. -/
  | scatter (n : CoreNo) (st : BitVec 22)
  /-- ROTPRE (R59): Preloads angle-table lines into the rotary cache. -/
  | rotpre (n : CoreNo) (sa : SReg) (imm : W32) (len : BitVec 21)
  /-- WAITFLAG (R96): Waits until a memory word meets a condition against a scalar. -/
  | waitflag (n : CoreNo) (sa : SReg) (sb : SReg) (imm : W32) (ge : Bool)
  /-- WAITFLAG_POLL (R96): Every 256 FCLK a waiting WAITFLAG reads its word and ends when the condition holds. -/
  | waitflagPoll (n : CoreNo)
  /-- SETFLAG (R96): Writes a 64-bit flag after every earlier store and send completes. -/
  | setflag (n : CoreNo) (sa : SReg) (sb : SReg) (imm : W32)
  /-- INBOUND_DATA_ARRIVAL (R62): Data pushed by another core lands in the inbound queue, releasing a waiting RECV or WAITIN. -/
  | inboundDataArrival (n : CoreNo) (i : Nat)
  /-- TRANSFER_ACK (R61): A memory-side die acknowledges a store, completing it. -/
  | transferAck (n : CoreNo)
  /-- ROTARY_FILL_ARRIVAL (R59): A missed rotary line arrives, with any poison mark, and the operand path resumes. -/
  | rotaryFillArrival (n : CoreNo) (i : Nat)
  /-- PHASE_END (R65): A phase's last work completes and the 12 CCLK phase turn begins. -/
  | phaseEnd (n : CoreNo)
  /-- PHASE_TURN_END (R65): The phase turn ends and the next phase begins. -/
  | phaseTurnEnd (n : CoreNo)
  /-- GROUP_TOKEN_GRANT (R66): The group token passes to the next requester, which enters its transfer phase. -/
  | groupTokenGrant (n : CoreNo)
  /-- CORE_HANG (R76): The core watchdog expires without a retired instruction and the core faults. -/
  | coreHang (n : CoreNo)
  /-- CORE_START (R71): Loads CORE_PC from CORE_START_PC, sets scalars and enters RUNNING. -/
  | coreStart (n : CoreNo) (priv : BitVec 2)
  /-- CORE_HALT (R71): Requests a halt at the end of the current instruction and phase. -/
  | coreHalt (n : CoreNo)
  /-- HALT_COMPLETE (R71): The current instruction and phase end and the core enters HALTED. -/
  | haltComplete (n : CoreNo)
  /-- CORE_RESUME (R71): Continues a halted core at CORE_PC. -/
  | coreResume (n : CoreNo)
  /-- SOFT_RESET (R72): Stops the sequencer and begins the soft reset. -/
  | softReset (n : CoreNo)
  /-- SOFT_RESET_COMPLETE (R72): After outstanding requests end, queues are discarded, stores zeroed and the core enters IDLE. -/
  | softResetComplete (n : CoreNo)
  /-- ROT_INVALIDATE (R60): Invalidates every rotary-cache line, at the next phase boundary if running. -/
  | rotInvalidate (n : CoreNo)
  /-- PROG_LOAD (R103): Starts loading program-buffer words through the transfer engine. -/
  | progLoad (n : CoreNo) (v : W32)
  /-- PROG_LOAD_COMPLETE (R103): The program load ends, marking poisoned words or setting err on a fault. -/
  | progLoadComplete (n : CoreNo)
  /-- CORE_EVENT_CTRL_WRITE (R103): Writes event control, clearing bits and refusing an out-of-partition target. -/
  | coreEventCtrlWrite (n : CoreNo) (v : W32)
  /-- CORE_RNG_SEED_WRITE (R118): Loads the stochastic-rounding generator state, dropped while RUNNING. -/
  | coreRngSeedWrite (n : CoreNo) (v : W64)
  /-- CORE_FOLIO_WRITE (R240): Binds the core's stores to a folio and reads to a snapshot, dropped while RUNNING. -/
  | coreFolioWrite (n : CoreNo) (v : W64)
  /-- REGISTER_WRITE (R8): A write to a register with no row of its own, by its access codes. -/
  | registerWrite (r : RegId) (v : W64)
  /-- GLB_TIME_LO_READ (R43): A read of the low half of GLB_TIME latches the high half for the requester. -/
  | glbTimeLoRead (who : Requester)
  /-- CORE_CUT (R462): A core that crossed its error threshold is cut out at its next phase boundary. -/
  | coreCut (e : SramErrors)
  /-- HX_CCMD (R104): Writes a CORE_CTRL command to every core of a mask, through the pacing governor for starts. -/
  | hxCcmd (k : Fin 24) (mode : RvMode) (rs1 : W64) (rs2 : W64)
  /-- HX_WAITEV (R104): Waits in low power for a routed core event or a global-time limit. -/
  | hxWaitev (k : Fin 24) (mode : RvMode) (rs1 : W64)
  /-- HX_WAITEV_WAKE (R104): A routed core event or the time limit ends a waiting HX.WAITEV. -/
  | hxWaitevWake (k : Fin 24)
  /-- HX_PTEST (R104): Tests whether a granule is poisoned. -/
  | hxPtest (k : Fin 24) (mode : RvMode) (rs1 : W64)
  /-- HX_FSET (R104): Binds or unbinds a hart's stores to a folio and loads to a snapshot. -/
  | hxFset (k : Fin 24) (mode : RvMode) (rs1 : W64)
  /-- RUBRIC_LOAD (R105): A rubric-core load, faulting on poisoned granules. -/
  | rubricLoad (k : Fin 24) (mode : RvMode) (addr : W64) (size : RvSize)
  /-- RUBRIC_STORE (R105): A rubric-core store, joining a bound folio or faulting if it is closed. -/
  | rubricStore (k : Fin 24) (mode : RvMode) (addr : W64) (size : RvSize) (v : W64)
  /-- RUBRIC_FETCH (R105): A rubric-core instruction fetch, faulting on poison. -/
  | rubricFetch (k : Fin 24) (mode : RvMode) (addr : W64)
  /-- TIME_PLL_LOCK (R40): The time PLL locks and global time starts counting. -/
  | timePllLock
  /-- HOLDOVER_ENTRY (R42): No valid time message for 10 ms; synced cleared, holdover and sync_lost set. -/
  | holdoverEntry
  /-- SYNC_REQ_SEND (R342): Every 2^17 ticks the module sends SYNC_REQ on its parent port. -/
  | syncReqSend
  /-- SYNC_REQ (R342): A received SYNC_REQ is stamped and answered with SYNC_RESP. -/
  | syncReq (p : PortNo) (f : TimeMsg)
  /-- SYNC_RESP (R342): A received SYNC_RESP gives delay and offset, corrected by forward step or slew. -/
  | syncResp (p : PortNo) (f : TimeMsg)
  /-- ANNOUNCE_SEND (R343): Every 2^20 ticks ANNOUNCE is sent on every UP Haros port. -/
  | announceSend
  /-- ANNOUNCE (R343): A received announcement updates the root choice and parent port. -/
  | announce (p : PortNo) (f : TimeMsg)
  /-- ANNOUNCE_EXPIRY (R343): An announcement older than 10 ms is forgotten and the root reselected. -/
  | announceExpiry (p : PortNo)
  /-- ROOT_STEP (R442): A root step begins with a second PLL locking at the target multiplier. -/
  | rootStep (up : Bool)
  /-- ROOT_STEP_LOCK (R442): The second PLL has locked and all five clocks change on one edge. -/
  | rootStepLock
  /-- BAR2_READ (R393): A host read through BAR2, translated and checked. -/
  | bar2Read (fn : BitVec 4) (off : W64) (len : Nat)
  /-- BAR2_WRITE (R393): A host write through BAR2, waiting on intent and carrying poison. -/
  | bar2Write (fn : BitVec 4) (off : W64) (data : List Byte) (poisoned : Bool)
  /-- RULING_POLL (R229): Every 256 FCLK the ruling home reads the current-layer word and starts entries within lookahead. -/
  | rulingPoll (p : PartNo)
  /-- RULING_DEADLINE (R230): An entry's deadline passes: fallback status written, or DEADLINE_MISS recorded. -/
  | rulingDeadline (p : PartNo) (i : Nat)
  /-- MIGRATION (R220): One page moves to a new frame inside a local folio. -/
  | migration (i : Nat)
  /-- FLASH_PROGRAM_FAIL (R220): A flash program fails; another frame is tried up to 3 times, then the folio scrapes. -/
  | flashProgramFail (src : ProgSrc)
  /-- FRAME_RETURN (R217): A RETIRING frame whose conditions all hold returns to its free list or retires. -/
  | frameReturn (f : W32)
  /-- FOLIO_OPEN (R257): Opens a local folio or a spanning part in a free slot. -/
  | folioOpen (src : CmdSrc)
  /-- FOLIO_EXTEND (R257): Moves an open folio's deadline later. -/
  | folioExtend (src : CmdSrc)
  /-- FOLIO_SEAL (R246): Seals a local folio or marks a spanning part complete, starting the commit at the coordinator. -/
  | folioSeal (src : CmdSrc)
  /-- FOLIO_APPLY_COMPLETE (R246): Journaled granules are applied, intents released and the result record written. -/
  | folioApplyComplete (a : Applied)
  /-- SUBTREE_DECREMENT (R242): After a seal the references of a replaced subtree are decremented in the background. -/
  | subtreeDecrement
  /-- FOLIO_SCRAPE (R248): Scrapes a folio, discarding its journal and frames. -/
  | folioScrape (src : CmdSrc)
  /-- FOLIO_INSPECT (R257): Writes the result record of an open folio without changing it. -/
  | folioInspect (src : CmdSrc)
  /-- SNAP_OPEN (R255): Opens a snapshot at an epoch. -/
  | snapOpen (src : CmdSrc)
  /-- SNAP_CLOSE (R256): Closes a snapshot and releases unneeded pre-images. -/
  | snapClose (src : CmdSrc)
  /-- FOLIO_RESOLVE (R253): Resolves an IN_DOUBT part with the decision the runtime learned. -/
  | folioResolve (src : CmdSrc)
  /-- FOLIO_WRITE (R240): A bound write joins a folio, taking intent or refused. -/
  | folioWrite (p : PartNo) (handle : W64) (addr : W64) (data : List Byte) (poisoned : Bool)
  /-- PREPARE (R251): A member receives PREPARE and votes when its part is complete, doomed or absent. -/
  | prepare (m : SpanMsg) (index : Nat)
  /-- VOTE (R252): The coordinator receives a vote and decides once all are in. -/
  | vote (m : SpanMsg) (member : Nat) (yes : Bool) (code : W16) (time : W64)
  /-- DECISION (R252): A member receives SEAL or SCRAPE, acts on its part and acknowledges. -/
  | decision (m : SpanMsg) (index : Nat) (sealed : Bool) (code : W16) (noIndex : Nat)
  /-- DECISION_ACK (R252): The coordinator receives an acknowledgement and acts on its own part when all are in. -/
  | decisionAck (m : SpanMsg) (member : Nat)
  /-- SPAN_DEADLINE (R252): A spanning folio's deadline passes: members vote NO and the coordinator decides SCRAPE. -/
  | spanDeadline (id : BitVec 14)
  /-- COORD_ACK_TIMEOUT (R252): 10 ms after the decision the coordinator acts on its own part. -/
  | coordAckTimeout (id : BitVec 14)
  /-- IN_DOUBT_QUERY (R253): 100 µs after the deadline a PREPARED part queries the coordinator and members. -/
  | inDoubtQuery (id : BitVec 14)
  /-- DECISION_QUERY (R253): A member answers a query for a decision it knows. -/
  | decisionQuery (m : SpanMsg) (index : Nat) (asker : Nat)
  /-- FOLIO_IN_DOUBT (R253): 10 ms after the deadline with no answer, the part enters IN_DOUBT. -/
  | folioInDoubt (id : BitVec 14)
  /-- CACHE_CREATE (R262): Creates a sequence context with its descriptor and layer map. -/
  | cacheCreate (src : CmdSrc)
  /-- CACHE_RELEASE (R275): Releases a context in one folio. -/
  | cacheRelease (src : CmdSrc)
  /-- CACHE_APPEND (R269): Quantises and appends tokens into pages of every stream of the layers. -/
  | cacheAppend (src : CmdSrc)
  /-- SPILL_BATCH_END (R278): A spill batch ends; the waiting charge retries or is refused. -/
  | spillBatchEnd (p : PartNo) (tier : Fin 2)
  /-- SPILL_WAIT_TIMEOUT (R278): 10 ms after the last batch without fitting, the waiting charge is refused. -/
  | spillWaitTimeout (w : SpillWaiter)
  /-- CACHE_SHARE (R272): Maps source pages into a target context with copy-on-write. -/
  | cacheShare (src : CmdSrc)
  /-- CACHE_MASS (R282): Advances mass_tick and adds decayed attention mass to pages. -/
  | cacheMass (src : CmdSrc)
  /-- CACHE_REBASE (R284): Adds a position delta to the notes of named pages. -/
  | cacheRebase (src : CmdSrc)
  /-- CODEX_CREATE_INDEX (R291): Creates an index from a template. -/
  | codexCreateIndex (src : CmdSrc)
  /-- CODEX_DROP_INDEX (R310): Sets an index DROPPING. -/
  | codexDropIndex (src : CmdSrc)
  /-- CODEX_INSERT (R306): Inserts items with glyphs, neighbour lists and reverse links. -/
  | codexInsert (src : CmdSrc)
  /-- CODEX_DELETE (R307): Tombstones listed items and flags nodes for repair. -/
  | codexDelete (src : CmdSrc)
  /-- CODEX_QUERY (R302): Starts a walk of a subgraph by Hamming distance on a home engine. -/
  | codexQuery (src : CmdSrc)
  /-- WALK_ROUND_RETURN (R302): Every read of a batch has returned; the batch is merged and the next issued. -/
  | walkRoundReturn (w : Nat)
  /-- RERANK_COMPLETE (R305): Allowed items are scored exactly and the result and recall pages written. -/
  | rerankComplete (w : Nat)
  /-- QUERY_DEADLINE (R314): A query's deadline passes before ready and it falls back or is marked late. -/
  | queryDeadline (w : Nat)
  /-- CODEX_DROP_SUBGRAPH (R310): Marks a subgraph dropping in one folio. -/
  | codexDropSubgraph (src : CmdSrc)
  /-- SUBGRAPH_SPLICE (R310): Once no walk remains, a dropped subgraph's groups are spliced onto the free list. -/
  | subgraphSplice (x : W16) (g : W32)
  /-- INDEX_FREE (R310): A dropping index's last walk ends and it becomes FREE. -/
  | indexFree (x : W16)
  /-- NODE_REPAIR (R307): A margin engine repairs a repair_pending node in a local folio. -/
  | nodeRepair (i : Nat)
  /-- REPAIR_RETRY (R307): 1 ms after a conflicting repair it is retried. -/
  | repairRetry (i : Nat)
  /-- SETTLE_SWEEP (R297): A background sweep sets settled flags on old epoch fields. -/
  | settleSweep (x : W16) (node : W32)
  /-- WRITEBACK_PROGRAM (R309): A buffered node or record page is programmed to flash by age or fill. -/
  | writebackProgram (i : Nat)
  /-- RING_ENABLE (R190): A ring enters RUNNING with slots granted and credits sent. -/
  | ringEnable (r : Fin 16)
  /-- RING_DISABLE (R190): A stopped ring enters DISABLED. -/
  | ringDisable (r : Fin 16)
  /-- RING_STOP (R194): A ring enters STOPPING, abandons the current entry and discards FILLING slots. -/
  | ringStop (r : Fin 16)
  /-- RING_STOPPED (R194): The chunks in flight complete and the ring enters STOPPED. -/
  | ringStopped (r : Fin 16)
  /-- RING_EPOCH_WRITE (R203): A new epoch restarts landing numbers and discards credits. -/
  | ringEpochWrite (r : Fin 16) (v : W32)
  /-- RING_SQ_TAIL_WRITE (R192): New send-list entries become available and sending proceeds. -/
  | ringSqTailWrite (r : Fin 16) (v : Byte)
  /-- QUIRE_HEADER_ARRIVAL (R195): A quire header is checked and the quire accepted or dropped. -/
  | quireHeaderArrival (p : PortNo) (body : List Byte)
  /-- QUIRE_CHUNK_ARRIVAL (R188): A verified quire chunk lands in its slot and may be forwarded. -/
  | quireChunkArrival (p : PortNo) (body : List Byte)
  /-- LANDING_CREDIT (R193): A credit from the successor grants a slot and lets chunks be sent. -/
  | landingCredit (r : Fin 16) (epoch : W32) (slot : Nat) (j : W32)
  /-- RELEASE_POLL (R193): Every 256 FCLK the unit polls release words and frees released slots. -/
  | releasePoll (r : Fin 16)
  /-- RING_BROKEN (R204): A successor or predecessor port is lost; the ring enters BROKEN and folios scrape. -/
  | ringBroken (r : Fin 16)
  /-- MULTICAST_READ (R199): A member read in an armed window is fetched, served from the buffer, or detaches. -/
  | multicastRead (m : MDie) (set : Fin 16) (member : Fin 32) (addr : W64) (lines : Nat)
  /-- DETACH_WAIT_EXPIRY (R199): The leader's hold reaches detach_wait and the slowest members are detached. -/
  | detachWaitExpiry (m : MDie) (set : Fin 16)
  /-- DATA_GROUP (R326): A received DATA group is accepted in order or discarded with a NAK. -/
  | dataGroup (p : PortNo) (g : FlitBurst)
  /-- LCTL (R327): A received LCTL flit updates acknowledgements and credits and may trigger a replay. -/
  | lctl (p : PortNo) (flit : List Byte)
  /-- REPLAY_TIMEOUT (R325): No acknowledgement progress for 20 µs; replay from the oldest group, or DOWN after 8. -/
  | replayTimeout (p : PortNo)
  /-- NAK_REPEAT (R326): Every 2 µs a waiting receiver repeats its NAK. -/
  | nakRepeat (p : PortNo)
  /-- LCTL_SEND (R327): An LCTL flit is sent after 16 groups, a change, or every 1 µs. -/
  | lctlSend (p : PortNo)
  /-- GROUP_SEND (R329): At a group boundary the transmitter chooses and sends the next flit or group. -/
  | groupSend (p : PortNo)
  /-- HELLO (R331): A received HELLO is checked for version and identity. -/
  | hello (p : PortNo) (flit : List Byte)
  /-- HELLO_SEND (R331): HELLO is sent every 1 µs in handshake and every 1 ms later. -/
  | helloSend (p : PortNo)
  /-- LIGHT_DETECT (R330): Light on all four lanes starts TRAINING. -/
  | lightDetect (p : PortNo)
  /-- TRAINING_COMPLETE (R330): Codeword lock and deskew are done and the port enters HANDSHAKE. -/
  | trainingComplete (p : PortNo)
  /-- TRAINING_TIMEOUT (R330): Training exceeds 50 ms and the port returns to DOWN. -/
  | trainingTimeout (p : PortNo)
  /-- TRAINING_RETRY (R330): 100 ms after a failed training, training is tried again. -/
  | trainingRetry (p : PortNo)
  /-- HANDSHAKE_TIMEOUT (R330): No HELLO within 1 ms and the port goes DOWN. -/
  | handshakeTimeout (p : PortNo)
  /-- KEYING_COMPLETE (R477): Link keys of phase 0 are held at both ends and the port enters UP. -/
  | keyingComplete (p : PortNo)
  /-- KEYING_TIMEOUT (R330): Keying exceeds 1 s; LINK_AUTH and QUARANTINE. -/
  | keyingTimeout (p : PortNo)
  /-- PORT_LOSS (R321): Signal, alignment or codeword-rate loss takes the port out of UP within 10 µs. -/
  | portLoss (p : PortNo)
  /-- PORT_ENABLE (R330): FAB_PORT_CTRL.enable brings the link up or disables it. -/
  | portEnable (p : PortNo) (v : W32)
  /-- PORT_RETRAIN (R340): Takes the link DOWN and trains again. -/
  | portRetrain (p : PortNo)
  /-- PORT_CLEAR_ERRORS (R330): clr_err clears FAB_PORT_ERR. -/
  | portClearErrors (p : PortNo)
  /-- CHUNK_RECEIVE (R337): A received chunk is verified and delivered or reported bad. -/
  | chunkReceive (p : PortNo) (body : List Byte)
  /-- CHUNK_REPORT (R337): A good or bad chunk report reaches the sender, which resends or completes the message. -/
  | chunkReport (p : PortNo) (id : W32) (chunk : Nat) (good : Bool)
  /-- DEPART_MESSAGE (R447): A peer's depart notice arrives and the port leaves UP. -/
  | departMessage (p : PortNo)
  /-- ETH_LINK_UP (R345): An Ethernet port's 800GBASE-DR4 link comes up. -/
  | ethLinkUp (p : PortNo)
  /-- ETH_FRAME_RECEIVE (R346): A received frame is steered to queue pairs and written with a timestamp. -/
  | ethFrameReceive (p : PortNo) (frame : List Byte)
  /-- ETH_TX_POST (R346): Posting transmit descriptors starts frame transmission. -/
  | ethTxPost (p : PortNo) (qp : Fin 64) (tail : W16)
  /-- ETH_FRAME_SENT (R348): A frame is transmitted, stomped if poisoned, and its descriptor marked done. -/
  | ethFrameSent (p : PortNo) (qp : Fin 64)
  /-- ETH_RX_POST (R346): Posting receive descriptors gives buffers to the port. -/
  | ethRxPost (p : PortNo) (qp : Fin 64) (tail : W16)
  /-- PORT_CLASSIFY (R357): A port is classified against the wiring plan within 1 ms of a change. -/
  | portClassify (p : PortNo)
  /-- PARTITION_FORM (R364): Forms a partition: check, core reset, HBM zeroing, key install. -/
  | partitionForm (p : PartNo)
  /-- FORM_BIND (R364): Zeroing and reset end and the partition is bound IDLE. -/
  | formBind (p : PartNo) (drbgOk : Bool)
  /-- PARTITION_REFORM (R365): Changes a formed partition's mask, poisoning entries of departing shares. -/
  | partitionReform (p : PartNo)
  /-- PARTITION_DISSOLVE (R365): Dissolves an idle, empty partition. -/
  | partitionDissolve (p : PartNo)
  /-- DIE_OUT (R367): A compute die leaves service and its partition drains with a proposal. -/
  | dieOut (c : CDie)
  /-- CLEAR_CUTS (R366): Clears the cut map for self-test at the next bring-up. -/
  | clearCuts
  /-- COLL_MESSAGE (R375): A collective data message is checked, landed and its ready entry written. -/
  | collMessage (p : PortNo) (body : List Byte)
  /-- COUNT_MESSAGE (R375): A collective count message writes its count entry. -/
  | countMessage (p : PortNo) (body : List Byte)
  /-- SQ_DOORBELL (R394): An SQ tail write makes entries available, or is ignored with DOORBELL. -/
  | sqDoorbell (q : Fin 1024) (v : W32)
  /-- SQ_DISABLE (R394): Disabling an SQ stops fetches; idle sets when fetched orders end. -/
  | sqDisable (q : Fin 1024)
  /-- CQ_DOORBELL (R395): A CQ head write frees entries, resuming held completions. -/
  | cqDoorbell (c : Fin 1024) (v : W32)
  /-- ORDER_FETCH (R400): A fetched work order is checked, claims its slot and starts. -/
  | orderFetch
  /-- WORK_ORDER_NOP (R399): A NOP work order completes. -/
  | workOrderNop (k : Nat)
  /-- MEMORY_MAP (R402): Allocates, charges, optionally zeroes and maps frames. -/
  | memoryMap (k : Nat)
  /-- MEMORY_UNMAP (R402): Removes present entries with reference deltas of -1. -/
  | memoryUnmap (k : Nat)
  /-- MEMORY_MIGRATE (R402): Migrates each page to a target tier and shares. -/
  | memoryMigrate (k : Nat)
  /-- MEMORY_PIN (R402): Sets frames' pinned bits in a folio. -/
  | memoryPin (k : Nat)
  /-- MEMORY_UNPIN (R402): Clears frames' pinned bits in a folio. -/
  | memoryUnpin (k : Nat)
  /-- MEMORY_ALIAS (R402): Makes source pages shared-immutable and maps them into the target. -/
  | memoryAlias (k : Nat)
  /-- COPY (R403): Moves bytes between host memory and partition memory by DMA. -/
  | copy (k : Nat)
  /-- RUNTIME (R404): Places a message in the partition runtime's mailbox. -/
  | runtime (k : Nat)
  /-- RUNTIME_REPLY (R404): The runtime posts a reply, completing the RUNTIME order. -/
  | runtimeReply (p : PartNo) (i : Nat) (code : W16) (info : W32) (payload : List Byte)
  /-- PARTITION_RUN (R502): An idle partition with valid roots enters RUNNING. -/
  | partitionRun (k : Nat)
  /-- PARTITION_DRAIN (R503): A running partition enters DRAINING. -/
  | partitionDrain (k : Nat)
  /-- DRAIN_COMPLETE (R503): A draining partition meets every condition and enters IDLE. -/
  | drainComplete (p : PartNo)
  /-- DRAIN_TIMEOUT (R503): quiesce_timeout after entry, the module forces the drain. -/
  | drainTimeout (p : PartNo)
  /-- PARTITION_RESET (R504): Resets a partition's cores, rings and folios and restarts its firmware. -/
  | partitionReset (k : Nat)
  /-- SLOT_RELEASE (R406): A release write with a matching gen makes a READY slot RELEASED. -/
  | slotRelease (p : PartNo) (slot : Fin 4096) (v : W32)
  /-- CQ_COALESCE_TIMER (R407): coal_time passes since the first unsignalled entry and the vector is raised. -/
  | cqCoalesceTimer (c : Fin 1024)
  /-- VF_FLR (R408): A VF function-level reset disables its queues and empties its slots. -/
  | vfFlr (f : Fin 8)
  /-- PF_FLR (R408): A PF function-level reset disables every queue and empties every slot. -/
  | pfFlr
  /-- HOT_RESET (R408): A PCI Express hot reset acts as the PF reset. -/
  | hotReset
  /-- SURPRISE_LINK_DOWN (R408): The PCI Express link drops and the host interface resets. -/
  | surpriseLinkDown
  /-- WMP_READ (R420): Returns up to 1,024 B of a dictionary value. -/
  | wmpRead (path : WmpPath) (req : List Byte)
  /-- WMP_WRITE (R420): Writes a dictionary value whole or in staged pieces. -/
  | wmpWrite (path : WmpPath) (req : List Byte)
  /-- WMP_NEXT (R420): Returns the next accessible entry's address and type. -/
  | wmpNext (path : WmpPath) (req : List Byte)
  /-- MAILBOX_GO (R426): Serves the WMP request in a mailbox channel. -/
  | mailboxGo (ch : Fin 2)
  /-- STORE_COMMIT_COMPLETE (R418): A store bank is written and read back; pending writes answer OK or PERSIST_FAIL. -/
  | storeCommitComplete (good : Bool)
  /-- STAGING_TIMEOUT (R422): 1 s after a session's last piece its staging ends. -/
  | stagingTimeout (i : Nat)
  /-- WARDEN_WATCHDOG (R415): The warden watchdog expires and the warden restarts. -/
  | wardenWatchdog
  /-- WARDEN_RESTART (R415): The warden is running again and records its restart. -/
  | wardenRestart (newOk : Bool) (oldOk : Bool)
  /-- PLCA_FALLBACK (R424): No PLCA cycle within 200 ms; the port falls back to CSMA/CD. -/
  | plcaFallback
  /-- SETDASA (R425): Assigns the I3C dynamic address from the static address. -/
  | setdasa (at_ : BitVec 7) (addr : BitVec 7)
  /-- ENTDAA (R425): Takes part in I3C dynamic address assignment. -/
  | entdaa (addr : BitVec 7)
  /-- MCTP_CONTROL (R425): Answers MCTP control messages for discovery, endpoint ID and types. -/
  | mctpControl (bus : MctpBus) (cmd : MctpCmd)
  /-- RESTORE_DEFAULTS (R429): Every RWP entry takes its default in one commit. -/
  | restoreDefaults (v : Byte)
  /-- STATE_REQUEST_BRINGUP (R498): Starts bring-up of the main domain. -/
  | stateRequestBringup
  /-- BRINGUP_COMPLETE (R498): Runtime firmware is running and the module enters READY. -/
  | bringupComplete (r : BringupOutcome)
  /-- BOARD_MEMORY_INIT (R500): Background initialisation of board memory makes frames allocatable. -/
  | boardMemoryInit (c : CDie) (f : W32)
  /-- STATE_REQUEST_STANDBY (R501): Enters module standby, scraping, dissolving and powering off the main domain. -/
  | stateRequestStandby
  /-- STATE_REQUEST_QUIESCING (R447): Starts the orderly quiesce. -/
  | stateRequestQuiescing
  /-- STATE_REQUEST_READY (R497): Cancels a quiesce before its depart notice. -/
  | stateRequestReady
  /-- QUIESCE_DONE (R447): Partitions are IDLE or the timeout passed; depart notices sent and ramp down begins. -/
  | quiesceDone
  /-- SAFE_REMOVE (R447): The main domain is off and the module enters SAFE_REMOVE. -/
  | safeRemove
  /-- ROOT_PLL_LOSS (R465): Root PLL lock lost for 100 µs takes the module to FAULTED. -/
  | rootPllLoss
  /-- PATH_ERROR (R467): An on-package link exhausts its replays. -/
  | pathError (link : PathLink) (flits : W32)
  /-- SCRUB_READ (R454): A patrol read corrects and writes back, or marks poison. -/
  | scrubRead (addr : W64) (found : ScrubFound)
  /-- GOVERNOR_TICK (R435): Every 1 µs the governor measures power, moves G and sets ballast. -/
  | governorTick (pIn : W16) (demand : W16)
  /-- START_ADMIT (R436): A held start, wake or step fits under G + band and is admitted. -/
  | startAdmit
  /-- SLEW_HOLD (R436): A start held over 10 ms is recorded. -/
  | slewHold
  /-- INPUT_FAULT (R434): Input below 44 V for 1 ms steps the root down and gates issue. -/
  | inputFault
  /-- INPUT_RECOVERED (R434): Input at or above 46 V for 100 ms ends the undervoltage response. -/
  | inputRecovered
  /-- INPUT_OVERVOLTAGE (R434): Input above 62 V for 10 µs opens the hot-swap stage. -/
  | inputOvervoltage
  /-- POWER_LIMIT_CHECK (R443): The 10 ms mean above the limit steps the root down or gates issue. -/
  | powerLimitCheck (mean : W16)
  /-- GATING_RELEASE (R443): After 1 s below 90% of the limit, gating is removed and the root steps up. -/
  | gatingRelease
  /-- TEMPERATURE_REPORT (R444): A 1 ms temperature reading triggers throttle, recovery or critical shutdown. -/
  | temperatureReport (t : TempReport)
  /-- POWER_STATE_ENTRY (R440): A unit meeting its condition enters the deepest state fitting before its next event. -/
  | powerStateEntry (u : PUnit)
  /-- POWER_STATE_WAKE (R440): A planned wake begins one wake plus guard before the event. -/
  | powerStateWake (u : PUnit)
  /-- EARLY_WAKE (R440): An event ends a wait before the planned wake and the unit wakes at once. -/
  | earlyWake (u : PUnit)
  /-- PRECHARGE_CONTACT (R446): Pre-charge pins touch and soft start begins. -/
  | prechargeContact
  /-- SOFT_START_DONE (R446): Capacitance is charged and the standby domain powers up. -/
  | softStartDone
  /-- STANDBY_RAILS_GOOD (R472): Standby rails are good and the boot ROM verifies the warden. -/
  | standbyRailsGood
  /-- WARDEN_READY (R446): The warden answers and the module enters STANDBY. -/
  | wardenReady (newOk : Bool) (oldOk : Bool)
  /-- ATTENTION_BUTTON (R447): A debounced press starts, or cancels, a delayed quiesce. -/
  | attentionButton
  /-- BUTTON_DELAY_EXPIRY (R447): button_delay after a press, QUIESCING is entered. -/
  | buttonDelayExpiry
  /-- PRESENCE_CLOSE (R512): PRSNT# closes; the slot is latched and a waiting bring-up may proceed. -/
  | presenceClose (pins : BitVec 4)
  /-- SURPRISE_REMOVAL (R448): PRSNT# opens or input falls below 40 V with the main domain powered. -/
  | surpriseRemoval (lowInput : Bool)
  /-- GET_VERSION (R476): SPDM GET_VERSION request. -/
  | getVersion (path : SpdmPath)
  /-- GET_CAPABILITIES (R476): SPDM GET_CAPABILITIES request. -/
  | getCapabilities (path : SpdmPath)
  /-- NEGOTIATE_ALGORITHMS (R476): SPDM NEGOTIATE_ALGORITHMS request. -/
  | negotiateAlgorithms (path : SpdmPath) (ok : Bool)
  /-- GET_DIGESTS (R476): SPDM GET_DIGESTS request. -/
  | getDigests (path : SpdmPath)
  /-- GET_CERTIFICATE (R474): SPDM GET_CERTIFICATE request for DeviceID or alias chains. -/
  | getCertificate (path : SpdmPath) (slot : Nat)
  /-- CHALLENGE (R476): SPDM CHALLENGE request signed with the alias key. -/
  | challenge (path : SpdmPath) (slot : Nat)
  /-- GET_MEASUREMENTS (R475): SPDM GET_MEASUREMENTS request. -/
  | getMeasurements (path : SpdmPath) (index : Byte)
  /-- KEY_EXCHANGE (R476): SPDM KEY_EXCHANGE request. -/
  | keyExchange (path : SpdmPath)
  /-- FINISH (R476): SPDM FINISH request completing a session. -/
  | finish (path : SpdmPath) (id : Nat) (ok : Bool)
  /-- KEY_UPDATE (R478): SPDM KEY_UPDATE request for new keys. -/
  | keyUpdate (path : SpdmPath) (id : Nat)
  /-- HEARTBEAT (R476): SPDM HEARTBEAT request. -/
  | heartbeat (path : SpdmPath) (id : Nat)
  /-- END_SESSION (R476): SPDM END_SESSION request. -/
  | endSession (path : SpdmPath) (id : Nat)
  /-- CHUNK_SEND (R476): SPDM CHUNK_SEND request. -/
  | chunkSend (path : SpdmPath) (data : List Byte) (last : Bool)
  /-- CHUNK_GET (R476): SPDM CHUNK_GET request. -/
  | chunkGet (path : SpdmPath) (len : Nat)
  /-- SESSION_LOST (R476): Three heartbeat periods without traffic end a session. -/
  | sessionLost (path : SpdmPath) (id : Nat)
  /-- DEBUG_NONCE_READ (R483): A read of debug_nonce draws a new value. -/
  | debugNonceRead
  /-- DEBUG_TOKEN_WRITE (R483): A debug token is verified and takes effect at the next bring-up. -/
  | debugTokenWrite (token : List Byte)
  /-- LIFECYCLE_END (R482): Moves the life cycle to END. -/
  | lifecycleEnd (v : Byte)
  /-- COMMIT_SVN (R473): Raises minimum security versions to the running images. -/
  | commitSvn (v : Byte)
  /-- REVOKE_SLOT (R484): Revokes a key slot. -/
  | revokeSlot (i : Byte)
  /-- RESTART_WARDEN (R508): Restarts the warden to take a pending warden image. -/
  | restartWarden (v : Byte)
  /-- QUERY_DEVICE_IDENTIFIERS (R506): PLDM QueryDeviceIdentifiers. -/
  | queryDeviceIdentifiers (path : PldmPath)
  /-- GET_FIRMWARE_PARAMETERS (R506): PLDM GetFirmwareParameters. -/
  | getFirmwareParameters (path : PldmPath)
  /-- REQUEST_UPDATE (R506): PLDM RequestUpdate enters update mode. -/
  | requestUpdate (path : PldmPath)
  /-- PASS_COMPONENT_TABLE (R506): PLDM PassComponentTable. -/
  | passComponentTable (path : PldmPath) (comp : Nat) (last : Bool)
  /-- UPDATE_COMPONENT (R506): PLDM UpdateComponent starts a component download. -/
  | updateComponent (path : PldmPath) (comp : Nat) (size : W32)
  /-- REQUEST_FIRMWARE_DATA (R506): PLDM RequestFirmwareData moves image data to scratch. -/
  | requestFirmwareData (path : PldmPath) (data : List Byte)
  /-- TRANSFER_COMPLETE (R506): PLDM TransferComplete ends a download. -/
  | transferComplete (path : PldmPath)
  /-- VERIFY_COMPLETE (R507): PLDM VerifyComplete after the image is verified. -/
  | verifyComplete (path : PldmPath)
  /-- APPLY_COMPLETE (R507): PLDM ApplyComplete after copying bank A to B and writing bank A. -/
  | applyComplete (path : PldmPath)
  /-- ACTIVATE_FIRMWARE (R508): PLDM ActivateFirmware marks applied images pending. -/
  | activateFirmware (path : PldmPath)
  /-- GET_STATUS (R506): PLDM GetStatus. -/
  | getStatus (path : PldmPath)
  /-- CANCEL_UPDATE_COMPONENT (R506): PLDM CancelUpdateComponent. -/
  | cancelUpdateComponent (path : PldmPath)
  /-- CANCEL_UPDATE (R506): PLDM CancelUpdate. -/
  | cancelUpdate (path : PldmPath)
  /-- PMC_FREEZE (R491): Freezes every counter of the module. -/
  | pmcFreeze
  /-- PMC_UNFREEZE (R491): Restarts every counter. -/
  | pmcUnfreeze
  /-- PMC_SNAPSHOT (R493): Freezes the counters and writes the snapshot record to memory. -/
  | pmcSnapshot
  /-- PMC_COUNTER_WRITE (R492): A write to a counter stands over a same-cycle increment and clears sat. -/
  | pmcCounterWrite (c : CounterId) (v : W64)
  /-- INPUT_RESTORED (R434): After an overvoltage cut-off the input returns to the operating range and the module powers on from OFF. -/
  | inputRestored
  /-- PRECHARGE_BREAK (R512): With the main domain off, extraction breaks the pre-charge pins, the standby domain goes off and the module enters OFF. -/
  | prechargeBreak
  /-- CONVENTIONAL_RESET (R390): PERST# asserts a PCI Express conventional reset of the endpoint. -/
  | conventionalReset
  /-- INDICATOR_COMMAND (R514): PWR_IND# or ATT_IND# from the downstream port changes and the front indicators follow it. -/
  | indicatorCommand (pwr : Bool) (att : Bool)
  /-- LOSS_OF_MEMORY_SIDE_DIE (R465): A memory-side die or an I/O die is lost and the module enters FAULTED. -/
  | lossOfMemorySideDie (die : Byte)
  /-- DECISION_ANSWER_EXPIRY (R253): 10 ms after a spanning folio's deadline a member stops keeping and answering its decision. -/
  | decisionAnswerExpiry (globalId : W64) (index : Nat)
  deriving DecidableEq, Repr

end Sys2Proof
end

