-- ==== Sys2Proof/Decode.lean ====
section
/-! DEFINITION. Decoding a word of the opcode table. The table gives no row any bits, so no word spells a command. The words of
core instructions in a program buffer are decoded in Machine/Fetch.lean (R77 to R95). -/

namespace Sys2Proof

/-- The command that a word spells by the table's bits: the table gives its rows none. -/
def decodeTableWord (_nbits _w : Nat) : Option Instr := none

end Sys2Proof
end

