-- ==== Sys2Proof/Config.lean ====
section
/-! DEFINITION. What a unit or an implementation fixes and the manual does not state: identity values, and the free
values. Each is a constant without a body that any claim must hold for, whatever it is (log 1, log 9). -/

namespace Sys2Proof

/-- The n-th free byte drawn (log 1): the draw counter of the state says which n. -/
opaque Config.freeByte : Nat → Byte

/-- The n-th free 32-bit word drawn (log 1). -/
opaque Config.freeW32 : Nat → W32

/-- The n-th free 64-bit word drawn (log 1). -/
opaque Config.freeW64 : Nat → W64

/-- The n-th free natural number drawn (log 1). -/
opaque Config.freeNat : Nat → Nat

/-- VLDEXP of a value by an operand that is not integer-valued (log 10). -/
opaque Config.ldexpFree : W32 → W32 → W32

/-- The n-th value of the random generator of the warden (R479, R483): 256 bits. -/
opaque Config.random : Nat → BitVec 256

/-- R465: a 64 B granule, by its number, holds firmware code that the rubric cores of every partition share (log 177). -/
opaque Config.sharedCode : Nat → Bool

/-- Harowen's vendor identifier (0x1018.01). -/
opaque Config.vendor : W32

/-- The unit's hardware revision as text (0x1009.00). -/
opaque Config.hwRevision : List Byte

/-- The unit's revision code (0x1018.03). -/
opaque Config.revision : W32

/-- The unit's serial (0x1018.04). -/
opaque Config.serial : W64

/-- The unit's unique identifier (0x1018.05). -/
opaque Config.uuid : W128

/-- The unit's date of manufacture (0x1018.06). -/
opaque Config.mfgDate : W32

/-- The text of a firmware build (0x100A.00). -/
opaque Config.buildText : W32 → List Byte

/-- The digest of Harowen's root certificate (0x8020.01, bytes [47:0]). -/
opaque Config.rootDigest : BitVec 384

/-- SHA-384 of a byte string (R470). -/
opaque Config.sha384 : List Byte → BitVec 384

/-- The digest of the image of a component that the boot flash holds as manufactured (log 8). -/
opaque Config.factoryDigest : Nat → BitVec 384

/-- The measurement of the OTP configuration: revocations, minimum versions, life-cycle state (R475, index 7). -/
opaque Config.otpDigest : BitVec 4 → List W32 → BitVec 2 → BitVec 384

/-- The measurement of the debug state (R475, index 8). -/
opaque Config.debugDigest : Byte → BitVec 384

/-- The measurement of the RWP entries of the range 0x8000 to 0x8FFF (R475, index 9). -/
opaque Config.entriesDigest : List (Nat × Nat) → BitVec 384

/-- The digest of guest firmware that a runtime extends a measurement with, at the n-th free value drawn (R475). -/
opaque Config.guestDigest : Nat → BitVec 384

/-- The digest of a key slot in the OTP (R469). -/
opaque Config.keyDigest : Nat → BitVec 384

/-- Whether the ECDSA P-384 signature of a header verifies (R470, R471). -/
opaque Config.ecdsaOk : List Byte → Bool

/-- Whether the ML-DSA-87 signature of a header verifies (R470, R471). -/
opaque Config.mldsaOk : List Byte → Bool

/-- The boot ROM's measurement (R475, index 1). -/
opaque Config.romDigest : BitVec 384

/-- The flags byte of a beacon last seen on a port: the manual gives its layout for plan entries (R356, R361). -/
opaque Config.seenFlags : W64 → Byte → Byte → Byte

/-- The certificate chain of the DeviceID key, slot 0 (R474). -/
opaque Config.deviceChain : List Byte

/-- The certificate chain of the alias key, slot 1: of the warden's measurement, the OTP configuration and the debug state (R474,
R483). -/
opaque Config.aliasChain : BitVec 384 → BitVec 384 → BitVec 384 → List Byte

/-- AES with a 256-bit key on a block (R333, R481): the block's first byte is its most significant. -/
opaque Config.aes256 : BitVec 256 → BitVec 128 → BitVec 128

/-- The 36 B block of a link direction (R477), of the n-th key derivation; the flag is false for the direction from the lower
serial. -/
opaque Config.linkBlock : Nat → Bool → BitVec 288

/-- The key of messages from a member to a member (R481): addresses and partitions of both, and the key generation of their
session. -/
opaque Config.wireKey : W32 → Nat → W32 → Nat → Nat → BitVec 256

/-- R238, R244: the handle of the folio of a migration that holds intent on a frame; it stands in no slot (log 148). -/
opaque Config.engineHandle : Nat → W64

/-- R20: of the training sequence that the context of a CREATE block belongs to, if it belongs to one, its tokens T and its
ring's members N. No field of the block holds them, and the manual does not say how the module knows them (log 164). -/
opaque Config.trainingCut : List Byte → Option (Nat × Nat)

/-- The certificate chain of the unit's RMA key (R482). -/
opaque Config.rmaChain : List Byte

end Sys2Proof
end

