-- ==== Sys2Proof/Machine/Cells.lean ====
section
/-! DEFINITION. Sparse storage: a list of (key, value) pairs with keys strictly rising and no value
equal to what an unlisted key reads as. Memory, the stores of a core, the poison marks of granules and the
tables of slots and queues are all held so, and equal contents are equal data. -/

namespace Sys2Proof.Machine

/-- A sparse table from numbers to `α`. -/
abbrev Tab (α : Type) := List (Nat × α)

/-- What key `a` reads as; `d` is the unlisted value. -/
def Tab.get {α : Type} (d : α) : Tab α → Nat → α
  | [], _ => d
  | (k, v) :: r, a => if a = k then v else Tab.get d r a

/-- Writes one key, keeping the canonical form: writing the unlisted value removes the entry. -/
def Tab.set {α : Type} [DecidableEq α] (d : α) : Tab α → Nat → α → Tab α
  | [], a, v => if v = d then [] else [(a, v)]
  | (k, x) :: r, a, v =>
    if a < k then (if v = d then (k, x) :: r else (a, v) :: (k, x) :: r)
    else if a = k then (if v = d then r else (a, v) :: r)
    else (k, x) :: Tab.set d r a v

/-- The canonical form: keys strictly rising, and no listed value is the unlisted value. -/
def Tab.wf {α : Type} [DecidableEq α] (d : α) (m : Tab α) : Bool :=
  decide (m.Pairwise (fun p q => p.1 < q.1)) && m.all (fun p => decide (p.2 ≠ d))

/-- Keeps only the entries a test holds for. -/
def Tab.keep {α : Type} (p : Nat → α → Bool) (m : Tab α) : Tab α := m.filter (fun e => p e.1 e.2)

/-- Changes every listed value, keeping the canonical form. -/
def Tab.mapVals {α : Type} [DecidableEq α] (d : α) (f : α → α) (m : Tab α) : Tab α :=
  (m.map (fun e => (e.1, f e.2))).filter (fun e => decide (e.2 ≠ d))

/-- Sparse words of width `w`; an unlisted key reads as 0. `Cells 8` is a list of `Host.Cell`. -/
abbrev Cells (w : Nat) := Tab (BitVec w)

/-- The canonical form of sparse words. -/
def Cells.wf {w : Nat} (m : Cells w) : Bool := Tab.wf 0 m

/-- What key `a` reads as. -/
def Cells.get {w : Nat} (m : Cells w) (a : Nat) : BitVec w := Tab.get 0 m a

/-- Writes one key; writing 0 removes the entry. -/
def Cells.set {w : Nat} (m : Cells w) (a : Nat) (v : BitVec w) : Cells w := Tab.set 0 m a v

/-- The entries with keys in [a, a + n), their keys counted from `a`. -/
def Cells.slice {w : Nat} (m : Cells w) (a n : Nat) : Cells w :=
  (m.filter (fun p => decide (a ≤ p.1) && decide (p.1 < a + n))).map (fun p => (p.1 - a, p.2))

/-- Replaces the keys [a, a + n) by the slice `sl` (keys from 0), at once. -/
def Cells.splice {w : Nat} (m : Cells w) (a n : Nat) (sl : Cells w) : Cells w :=
  m.filter (fun p => decide (p.1 < a)) ++
    (sl.filter (fun p => decide (p.1 < n))).map (fun p => (p.1 + a, p.2)) ++
    m.filter (fun p => decide (a + n ≤ p.1))

/-- Clears the keys [a, a + n). -/
def Cells.clearRange {w : Nat} (m : Cells w) (a n : Nat) : Cells w :=
  m.filter (fun p => !(decide (a ≤ p.1) && decide (p.1 < a + n)))

/-- Writes consecutive keys from `a`. -/
def Cells.setList {w : Nat} (m : Cells w) : Nat → List (BitVec w) → Cells w
  | _, [] => m
  | a, v :: vs => Cells.setList (m.set a v) (a + 1) vs

/-- Reads `n` consecutive keys from `a`. -/
def Cells.getList {w : Nat} (m : Cells w) (a n : Nat) : List (BitVec w) :=
  (List.range n).map (fun i => m.get (a + i))

/-- Sets every key [a, a + n) to `v`. -/
def Cells.fill {w : Nat} (m : Cells w) (a n : Nat) (v : BitVec w) : Cells w :=
  if v = 0 then m.clearRange a n else m.splice a n ((List.range n).map (fun i => (i, v)))

/-- Every key [a, a + n) takes the value `f` gives it. -/
def Cells.fillWith {w : Nat} (m : Cells w) (a n : Nat) (f : Nat → BitVec w) : Cells w :=
  m.splice a n (((List.range n).map (fun i => (i, f (a + i)))).filter (fun e => decide (e.2 ≠ 0)))

/-- Some key of [a, a + n) holds a nonzero value. -/
def Cells.anyIn {w : Nat} (m : Cells w) (a n : Nat) : Bool :=
  m.any (fun p => decide (a ≤ p.1) && decide (p.1 < a + n))

/-- The little-endian number of the `n` bytes from `a` (R7). -/
def Cells.getLE (m : Cells 8) (a : Nat) : Nat → Nat
  | 0 => 0
  | n + 1 => (m.get a).toNat + 256 * Cells.getLE m (a + 1) n

/-- Writes `v` as `n` little-endian bytes from `a` (R7). -/
def Cells.setLE (m : Cells 8) (a : Nat) : Nat → Nat → Cells 8
  | 0, _ => m
  | n + 1, v => Cells.setLE (m.set a (BitVec.ofNat 8 v)) (a + 1) n (v / 256)

/-- `n` little-endian bytes of `v`, the lowest first (R7). -/
def leBytes : Nat → Nat → List Byte
  | 0, _ => []
  | n + 1, v => BitVec.ofNat 8 v :: leBytes n (v / 256)

/-- The number that little-endian bytes spell (R7). -/
def ofLeBytes : List Byte → Nat
  | [] => 0
  | b :: r => b.toNat + 256 * ofLeBytes r

/-- The little-endian field of `n` bytes at byte `a` of a block (bytes beyond its end are 0). -/
def leField (bs : List Byte) (a n : Nat) : Nat := ofLeBytes ((bs.drop a).take n)

/-- Bits [lo + n - 1 : lo] of a number (R7). -/
def bits (v lo n : Nat) : Nat := (v >>> lo) % 2 ^ n

/-- Bit `i` of a number. -/
def bitOf (v i : Nat) : Bool := v.testBit i

/-- A flag as bit `i` of a number. -/
def flagAt (b : Bool) (i : Nat) : Nat := if b then 2 ^ i else 0

/-- Rounds `n` up to a multiple of `m`. -/
def alignUp (n m : Nat) : Nat := (n + m - 1) / m * m

/-- Ceiling of `n / m`. -/
def ceilDiv (n m : Nat) : Nat := (n + m - 1) / m

/-- The two's-complement value of the low `n` bits of `v`. -/
def signedOf (n v : Nat) : Int :=
  if v % 2 ^ n < 2 ^ (n - 1) then ((v % 2 ^ n : Nat) : Int) else ((v % 2 ^ n : Nat) : Int) - 2 ^ n

/-- The sum of a list of numbers. -/
def sumNat (l : List Nat) : Nat := l.foldl (· + ·) 0

end Sys2Proof.Machine
end

