-- ==== Sys2Proof/Machine/StateMod.lean ====
section
/-! DEFINITION. The state of the module as a whole: identity, die map, clocks and global time (R1, R36 to R43),
partitions (R362 to R368, R502), the error log (R457 to R468), power (R432 to R450), module state and bring-up
(R496 to R509), the connector (R510 to R514). -/

namespace Sys2Proof.Machine

/-- R1: the two variants. -/
inductive Variant where
  | f64 | f32
  deriving DecidableEq, Repr

/-- R496: the module states. -/
inductive ModState where
  | off | standby | bringup | ready | active | quiescing | safeRemove | faulted
  deriving DecidableEq, Repr

/-- R502: a partition's state; `unformed` reads 0xFF. -/
inductive PartMode where
  | unformed | idle | running | draining | resetting
  deriving DecidableEq, Repr

/-- One partition (R364 to R368, R480, R502 to R504). `forming` is the mask under formation or re-formation (R364), `keyInstalled`
whether its memory-encryption key is in force. -/
structure Part where
  dies : BitVec 8
  maskNext : BitVec 8
  mode : PartMode
  proposal : BitVec 8
  formResult : W16
  poisonedEntries : W32
  forming : Option (BitVec 8)
  keyInstalled : Bool
  deriving DecidableEq, Repr

/-- R38, R40 to R43, R442: clocks and global time. -/
structure ClockState where
  rootStep : BitVec 2
  rootLock : Bool
  timeLock : Bool
  stepBusy : Bool
  stepTarget : BitVec 2
  stepCount : Byte
  time : W64
  synced : Bool
  holdover : Bool
  syncLost : Bool
  offsetNs : Byte
  rateAdj : W16
  forwardUsed : Bool
  deriving DecidableEq, Repr

/-- GLB_DIE_MAP (R36). -/
structure DieMap where
  c : BitVec 8
  m : BitVec 4
  x : BitVec 2
  changed : Bool
  deriving DecidableEq, Repr

/-- A fault record (R457). `detail` is its 40 bytes. -/
structure FaultRec where
  time : W64
  seq : W32
  code : W16
  die : Byte
  partition : Byte
  unit : W16
  level : BitVec 3
  persisted : Bool
  suppressed : W16
  detail : List Byte
  deriving DecidableEq, Repr

/-- R460: a unit's records in the current second of global time and the records dropped since its last one. -/
structure UnitRate where
  second : Nat
  count : Nat
  dropped : Nat
  deriving DecidableEq, Repr

/-- The error log (R461, R468): a ring of 1,024 records by seq mod 1,024, whether each was read, the persisted ring
of 64, the rate of each unit (key die * 65536 + unit). -/
structure LogState where
  newest : W32
  faultCause : W16
  wrapped : Bool
  suppressedFlag : Bool
  records : W32
  suppressed : W32
  ring : Tab (Option FaultRec)
  read : Cells 1
  persisted : Tab (Option FaultRec)
  persistedNext : Nat
  rates : Tab UnitRate
  lastSlewHold : Option Nat
  lastSlewBreach : Option Nat
  deriving DecidableEq, Repr

/-- R447: how far an orderly removal has come. -/
inductive QuiesceStep where
  | none | quiesce | departed
  deriving DecidableEq, Repr

/-- R436, R442: an action held by the governor: a core's start, a root step upward. -/
inductive HeldAction where
  | start (n : CoreNo) (priv : BitVec 2)
  | rootUp
  deriving DecidableEq, Repr

/-- R439: the power state of a unit. -/
inductive PState where
  | run | c1 | c2 | c3 | selfRefresh
  deriving DecidableEq, Repr

/-- A unit asleep (R440): its state and the global time at which its planned wake begins. -/
structure Asleep where
  unit : PUnit
  state : PState
  wakeAt : Option W64
  deriving DecidableEq, Repr

/-- PWR_ registers and the governor (R434 to R449). `demand` is the estimated demand in units of 0.1 W; `levelFrac` the
thousandths of a watt of G above `level`; `samples` the inputs measured in the last 100 µs; `ballastOn` the cores that run
ballast; `breach` while a fall exceeds it. The root step is held down by R442's own steps (`wantBase`), the power limit and
the temperature, and issue is gated by the latter two and by an input fault. -/
structure PowerState where
  pIn : W16
  vIn : BitVec 12
  level : W16
  ballast : BitVec 11
  gateLimit : Bool
  gateThermal : Bool
  throttle : Bool
  slewEvent : Bool
  cMax : Byte
  mMax : Byte
  xMax : Byte
  hbmMax : Byte
  inlet : Byte
  outlet : Byte
  throttleEvent : Bool
  inletOver : Bool
  hint : W64
  inputFault : Bool
  held : List HeldAction
  asleep : List Asleep
  slewBreaches : Nat
  earlyWakes : Nat
  fastFalls : Nat
  demand : Nat
  msAbove : Nat
  msBelow : Nat
  governor : Bool
  levelFrac : Nat
  samples : List W16
  ballastOn : BitVec 128
  breach : Bool
  wantBase : BitVec 2
  wantLimit : BitVec 2
  wantThermal : BitVec 2
  deriving DecidableEq, Repr

/-- R446 to R448, R510 to R514: the connector, the hot-swap stage and the front indicators. -/
structure PlugState where
  precharge : Bool
  softStart : Bool
  standbyRails : Bool
  wardenUp : Bool
  presence : Bool
  slotPins : BitVec 4
  slot : Option (BitVec 4)
  mainOn : Bool
  waitingBringup : Bool
  buttonPending : Bool
  buttonHeld : Bool
  pwrInd : Bool
  attInd : Bool
  ledPower : Bool
  ledBlink : Bool
  ledAttention : Bool
  ledBlue : Bool
  overvoltage : Bool
  transmittersOff : Bool
  deriving DecidableEq, Repr

/-- R498 to R509: module state, bring-up and firmware images. Components 0x01 to 0x05 are keys 1 to 5. -/
structure Image where
  build : W32
  security : W32
  slot : Byte
  valid : Bool
  digest : BitVec 384
  deriving DecidableEq, Repr

/-- R462: the SRAM errors that a core counted in its fixed windows of global time: the number of the window of 24 h and the
uncorrectable errors in it, the number of the window of 1 h and the correctable errors in it. -/
structure SramCount where
  dayNo : Nat
  lost : Nat
  hourNo : Nat
  fixed : Nat
  deriving DecidableEq, Repr

/-- Module state and bring-up. `sram` is keyed by unit number (R458: a compute core's linear number, 0x100 + n of Kn). -/
structure ModuleState where
  state : ModState
  bringupResult : W16
  bringupStart : W64
  bringupTime : W32
  bringupCount : W32
  boardInit : Byte
  quiesce : QuiesceStep
  drainStart : Tab (Option W64)
  cutMap : BitVec 128
  dieOut : BitVec 8
  clearCuts : Bool
  sram : Tab SramCount
  deriving DecidableEq, Repr

/-- A partition that was never formed. -/
def Part.reset : Part := ⟨0, 0, .unformed, 0, 0, 0, none, false⟩

/-- Clocks at reset (GLB_CLK_STATUS, GLB_TIME, GLB_TIME_STATUS). -/
def ClockState.reset : ClockState :=
  { rootStep := 0, rootLock := false, timeLock := false, stepBusy := false, stepTarget := 0,
    stepCount := 0, time := 0, synced := false, holdover := false, syncLost := false,
    offsetNs := 0, rateAdj := 0, forwardUsed := false }

/-- GLB_DIE_MAP at reset. -/
def DieMap.reset : DieMap := ⟨0, 0, 0, false⟩

/-- The error log at power-on from OFF (newest_seq reads all ones before the first record). -/
def LogState.reset : LogState :=
  { newest := 0xFFFFFFFF, faultCause := 0, wrapped := false, suppressedFlag := false, records := 0,
    suppressed := 0, ring := [], read := [], persisted := [], persistedNext := 0, rates := [],
    lastSlewHold := none, lastSlewBreach := none }

/-- The PWR_ registers at reset. -/
def PowerState.reset : PowerState :=
  { pIn := 0, vIn := 0, level := 0, ballast := 0, gateLimit := false, gateThermal := false, throttle := false, slewEvent := false,
    cMax := 0, mMax := 0, xMax := 0, hbmMax := 0, inlet := 0, outlet := 0, throttleEvent := false,
    inletOver := false, hint := 0, inputFault := false, held := [], asleep := [], slewBreaches := 0,
    earlyWakes := 0, fastFalls := 0, demand := 0, msAbove := 0, msBelow := 0, governor := false,
    levelFrac := 0, samples := [], ballastOn := 0, breach := false, wantBase := 0, wantLimit := 0, wantThermal := 0 }

/-- Nothing plugged in (OFF). -/
def PlugState.reset : PlugState :=
  { precharge := false, softStart := false, standbyRails := false, wardenUp := false, presence := false,
    slotPins := 0, slot := none, mainOn := false, waitingBringup := false, buttonPending := false,
    buttonHeld := false, pwrInd := false, attInd := false, ledPower := false, ledBlink := false,
    ledAttention := false, ledBlue := false, overvoltage := false, transmittersOff := false }

/-- The module in OFF. -/
def ModuleState.reset : ModuleState :=
  { state := .off, bringupResult := 0, bringupStart := 0, bringupTime := 0, bringupCount := 0, boardInit := 0,
    quiesce := .none, drainStart := [], cutMap := 0, dieOut := 0, clearCuts := false, sram := [] }

end Sys2Proof.Machine
end

