-- ==== Sys2Proof/Machine/DictTable.lean ====
section
/-! DEFINITION. The object dictionary's entries as the chapters' tables give them (R11, R12, R416, R430). -/

namespace Sys2Proof.Machine

/-- R416: the types of an entry's value. -/
inductive DType where
  | bool | u8 | u16 | u32 | u64 | i32 | f32 | str | octets (n : Nat)
  deriving DecidableEq, Repr

/-- R11: what one domain may do with an entry. -/
inductive Acc where
  | dash | ro | rw | wo | rwp | cmd
  deriving DecidableEq, Repr

/-- R11, R411: the four domains. -/
inductive Domain where
  | hostAdmin | hostUser | sideBand | firmware
  deriving DecidableEq, Repr

/-- R11: the access codes of an entry, in the manual's order. -/
structure AccSet where
  ha : Acc
  hu : Acc
  sb : Acc
  fw : Acc
  deriving DecidableEq, Repr

/-- One entry: type, access, default, and the range of a value written (as a little-endian number). -/
structure DictRow where
  ty : DType
  acc : AccSet
  dflt : Nat
  lo : Nat
  hi : Nat
  deriving DecidableEq, Repr

/-- R416: the code of a type. -/
def DType.code : DType → Nat
  | .bool => 1 | .u8 => 2 | .u16 => 3 | .u32 => 4 | .u64 => 5 | .i32 => 6 | .f32 => 7 | .str => 8 | .octets _ => 9

/-- R416: the length of a value; none for STR, whose length is free up to 255. -/
def DType.size : DType → Option Nat
  | .bool => some 1 | .u8 => some 1 | .u16 => some 2 | .u32 => some 4 | .u64 => some 8 | .i32 => some 4
  | .f32 => some 4 | .str => none | .octets n => some n

/-- The largest number a type holds. -/
def DType.max (t : DType) : Nat :=
  match t with
  | .bool => 1
  | _ => match t.size with
    | some n => 256 ^ n - 1
    | none => 256 ^ 255

/-- R11: the code of a domain. -/
def AccSet.of (a : AccSet) : Domain → Acc
  | .hostAdmin => a.ha
  | .hostUser => a.hu
  | .sideBand => a.sb
  | .firmware => a.fw

def accRO : AccSet := ⟨.ro, .ro, .ro, .ro⟩
def accROx : AccSet := ⟨.ro, .dash, .ro, .ro⟩
def accROy : AccSet := ⟨.ro, .dash, .ro, .dash⟩
def accWOy : AccSet := ⟨.wo, .dash, .wo, .dash⟩
def accRWP : AccSet := ⟨.rwp, .ro, .rwp, .rw⟩
def accRWPx : AccSet := ⟨.rwp, .dash, .rwp, .rw⟩
def accRW : AccSet := ⟨.rw, .ro, .rw, .rw⟩
def accCMD : AccSet := ⟨.cmd, .dash, .cmd, .cmd⟩
def accCMDy : AccSet := ⟨.cmd, .dash, .cmd, .dash⟩

/-- An entry whose value may be any of its type. -/
def rowAny (t : DType) (a : AccSet) (d : Nat) : DictRow := ⟨t, a, d, 0, t.max⟩

/-- A stretch of entries: `spanI` indexes from `idx` and, in each, the subindexes `sub` to `sub + spanS - 1`. -/
structure DictEnt where
  idx : Nat
  spanI : Nat
  sub : Nat
  spanS : Nat
  row : DictRow
  deriving DecidableEq, Repr

/-- Identity, module state and power (R429, R449). -/
def dictEnts1 : List DictEnt :=
  [ ⟨0x1008, 1, 0, 1, rowAny .str accRO 0⟩,
    ⟨0x1009, 1, 0, 1, rowAny .str accRO 0⟩,
    ⟨0x100A, 1, 0, 1, rowAny .str accRO 0⟩,
    ⟨0x1018, 1, 1, 3, rowAny .u32 accRO 0⟩,
    ⟨0x1018, 1, 4, 1, rowAny .u64 accRO 0⟩,
    ⟨0x1018, 1, 5, 1, rowAny (.octets 16) accRO 0⟩,
    ⟨0x1018, 1, 6, 1, rowAny .u32 accRO 0⟩,
    ⟨0x1F00, 1, 0, 1, rowAny .u8 accRO 1⟩,
    ⟨0x1F01, 1, 0, 1, ⟨.u8, accCMD, 0, 0x5A, 0x5A⟩⟩,
    ⟨0x1F02, 1, 0, 1, rowAny .u32 accROx 0⟩,
    ⟨0x1F03, 1, 0, 1, rowAny .u32 accROx 0⟩,
    ⟨0x2000, 1, 0, 1, rowAny .u8 accRO 1⟩,
    ⟨0x2001, 1, 0, 1, rowAny .u8 accCMD 0⟩,
    ⟨0x2100, 1, 1, 1, ⟨.u16, accRWP, 4000, 1500, 4000⟩⟩,
    ⟨0x2100, 1, 2, 1, rowAny .bool accRWPx 0⟩,
    ⟨0x2100, 1, 3, 1, ⟨.u32, accRWP, 10000, 100, 600000⟩⟩,
    ⟨0x2100, 1, 4, 1, ⟨.u16, accRWP, 5000, 0, 30000⟩⟩,
    ⟨0x2101, 1, 1, 1, ⟨.u16, accRWP, 400, 50, 400⟩⟩,
    ⟨0x2101, 1, 2, 1, ⟨.u16, accRWP, 200, 0, 200⟩⟩,
    ⟨0x2110, 1, 1, 1, ⟨.u8, accRWP, 4, 1, 4⟩⟩,
    ⟨0x2110, 1, 2, 1, ⟨.u8, accRWP, 10, 1, 50⟩⟩,
    ⟨0x2110, 1, 3, 1, ⟨.u32, accRWP, 2000, 100, 1000000⟩⟩,
    ⟨0x2120, 1, 1, 1, ⟨.u8, accRWP, 95, 80, 95⟩⟩,
    ⟨0x2120, 1, 2, 1, rowAny .u8 accRO 105⟩,
    ⟨0x2120, 1, 3, 1, rowAny .u8 accRO 40⟩,
    ⟨0x2F00, 1, 1, 1, rowAny (.octets 18) accRWPx 0⟩,
    ⟨0x2F00, 1, 2, 1, rowAny .u8 accRWPx 0⟩,
    ⟨0x2F00, 1, 3, 1, rowAny .u32 accROx 0⟩ ]

/-- Ports, wiring, discovery (R349, R368). -/
def dictEnts2 : List DictEnt :=
  [ ⟨0x3001, 1, 1, 2, rowAny .u8 accRO 1⟩,
    ⟨0x3010, 1, 1, 1, ⟨.u16, accRWP, 0, 0, 4095⟩⟩,
    ⟨0x3010, 1, 2, 1, rowAny .u8 accRWP 0⟩,
    ⟨0x3010, 1, 3, 1, rowAny .u8 accRO 0⟩,
    ⟨0x3010, 1, 4, 1, ⟨.u8, accRWP, 16, 8, 16⟩⟩,
    ⟨0x3010, 1, 5, 1, rowAny .u32 accRO 0⟩,
    ⟨0x3100, 1, 1, 30, rowAny (.octets 12) accRW 0⟩,
    ⟨0x3110, 1, 0, 1, ⟨.u8, accRWP, 0, 0, 1⟩⟩,
    ⟨0x3120, 1, 1, 31, rowAny .u32 accRO 0⟩,
    ⟨0x3121, 1, 1, 30, rowAny (.octets 12) accRO 0⟩,
    ⟨0x3130, 1, 0, 1, rowAny .u8 accRWP 128⟩,
    ⟨0x3140, 1, 0, 1, rowAny .bool accRWP 1⟩ ]

/-- Tiers, cache, folios, partitions, codex (R237, R288, R260, R368, R392, R317). -/
def dictEnts3 : List DictEnt :=
  [ ⟨0x4000, 1, 1, 1, rowAny .u32 accRO 14745600⟩,
    ⟨0x4000, 1, 2, 1, rowAny .u32 accRO 0⟩,
    ⟨0x4100, 8, 1, 1, rowAny .u32 accRWP 0xFFFFFFFF⟩,
    ⟨0x4100, 8, 2, 1, rowAny .u32 accRWP 0⟩,
    ⟨0x4100, 8, 3, 1, rowAny .u32 accRWP 0xFFFFFFFF⟩,
    ⟨0x4100, 8, 4, 1, rowAny .u32 accRWP 0⟩,
    ⟨0x4100, 8, 5, 1, rowAny .u32 accRWP 0xFFFFFFFF⟩,
    ⟨0x4100, 8, 6, 1, rowAny .u32 accRWP 0⟩,
    ⟨0x4100, 8, 7, 7, rowAny .u32 accRO 0⟩,
    ⟨0x4200, 8, 1, 2, rowAny .bool accRWP 0⟩,
    ⟨0x4200, 8, 3, 1, rowAny .u16 accRWP 64⟩,
    ⟨0x4200, 8, 4, 2, rowAny .bool accRWP 0⟩,
    ⟨0x4200, 8, 6, 1, ⟨.u32, accRWP, 256, 1, 65536⟩⟩,
    ⟨0x4200, 8, 7, 1, rowAny .u32 accRWP 8192⟩,
    ⟨0x4300, 8, 1, 1, rowAny .u16 accRWP 2048⟩,
    ⟨0x4300, 8, 2, 1, rowAny .u32 accRWP 4096⟩,
    ⟨0x4300, 8, 3, 1, rowAny .u32 accRWP 1024⟩,
    ⟨0x4300, 8, 4, 1, ⟨.u16, accRWP, 128, 0, 1024⟩⟩,
    ⟨0x5010, 1, 1, 1, rowAny (.octets 16) accRO 0⟩,
    ⟨0x5010, 1, 2, 1, rowAny .u8 accRO 0⟩,
    ⟨0x5010, 1, 3, 1, rowAny .u8 accCMDy 0⟩,
    ⟨0x5100, 8, 1, 1, rowAny .u8 accRW 0⟩,
    ⟨0x5100, 8, 2, 1, rowAny .u8 accRO 0xFF⟩,
    ⟨0x5100, 8, 3, 1, ⟨.u8, accCMD, 0, 1, 2⟩⟩,
    ⟨0x5100, 8, 4, 1, rowAny .u8 accRO 0⟩,
    ⟨0x5100, 8, 5, 1, rowAny .u16 accRO 0⟩,
    ⟨0x5100, 8, 6, 1, rowAny .u32 accRO 0⟩,
    ⟨0x5200, 1, 1, 8, rowAny .u8 accRWP 0xFF⟩,
    ⟨0x6100, 8, 1, 1, rowAny .u8 accRWP 0xFF⟩,
    ⟨0x6100, 8, 2, 1, ⟨.u16, accRWP, 64, 1, 65535⟩⟩,
    ⟨0x6100, 8, 3, 1, rowAny .u32 accRWP 16384⟩,
    ⟨0x6100, 8, 4, 1, rowAny .u16 accRWP 1000⟩,
    ⟨0x6100, 8, 5, 1, rowAny .bool accRWP 1⟩ ]

/-- Errors, security, counters, firmware (R468, R484, R494, R509). -/
def dictEnts4 : List DictEnt :=
  [ ⟨0x7000, 1, 1, 1, rowAny .u32 accROx 0xFFFFFFFF⟩,
    ⟨0x7000, 1, 2, 2, rowAny .u32 accROx 0⟩,
    ⟨0x7010, 1, 1, 1, ⟨.u16, accRWPx, 4, 1, 1000⟩⟩,
    ⟨0x7010, 1, 2, 1, ⟨.u32, accRWPx, 1024, 16, 1000000⟩⟩,
    ⟨0x7010, 1, 3, 1, ⟨.u8, accRWPx, 2, 1, 16⟩⟩,
    ⟨0x7010, 1, 4, 1, ⟨.u16, accRWPx, 96, 16, 200⟩⟩,
    ⟨0x7010, 1, 5, 2, ⟨.u16, accRWPx, 24, 1, 720⟩⟩,
    ⟨0x7010, 1, 7, 1, ⟨.u16, accRWPx, 168, 24, 2160⟩⟩,
    ⟨0x7020, 1, 1, 64, rowAny (.octets 64) accROx 0⟩,
    ⟨0x7030, 1, 1, 4, rowAny (.octets 16384) accROx 0⟩,
    ⟨0x7400, 1024, 0, 1, rowAny (.octets 64) accROx 0⟩,
    ⟨0x8000, 1, 1, 2, rowAny .u8 accRO 0⟩,
    ⟨0x8000, 1, 3, 1, rowAny (.octets 32) accROy 0⟩,
    ⟨0x8000, 1, 4, 1, rowAny (.octets 8240) accWOy 0⟩,
    ⟨0x8000, 1, 5, 1, ⟨.u8, accCMDy, 0, 0xA5, 0xA5⟩⟩,
    ⟨0x8010, 1, 1, 5, rowAny .u32 accRO 0⟩,
    ⟨0x8010, 1, 6, 1, ⟨.u8, accCMDy, 0, 1, 1⟩⟩,
    ⟨0x8011, 1, 1, 4, rowAny .u8 accRO 0⟩,
    ⟨0x8011, 1, 5, 1, ⟨.u8, accCMDy, 0, 0, 3⟩⟩,
    ⟨0x8020, 1, 1, 1, rowAny (.octets 192) accRWP Config.rootDigest.toNat⟩,
    ⟨0x8020, 1, 2, 2, rowAny .bool accRWP 1⟩,
    ⟨0x9000, 1, 0, 1, rowAny .u8 accRWP 0⟩,
    ⟨0xA000, 1, 1, 5, rowAny .u32 accRO 0⟩,
    ⟨0xA000, 1, 6, 5, rowAny .u8 accRO 0⟩,
    ⟨0xA001, 1, 1, 10, rowAny .u32 accRO 0⟩,
    ⟨0xA010, 1, 1, 1, rowAny .u16 accROx 0⟩,
    ⟨0xA010, 1, 2, 2, rowAny .u32 accROx 0⟩,
    ⟨0xA010, 1, 4, 1, rowAny .u8 accRO 0⟩,
    ⟨0xA020, 1, 1, 1, rowAny .u8 accROx 0⟩,
    ⟨0xA020, 1, 2, 1, ⟨.u8, accCMDy, 0, 0x5A, 0x5A⟩⟩ ]

/-- Every entry. -/
def dictEnts : List DictEnt := dictEnts1 ++ dictEnts2 ++ dictEnts3 ++ dictEnts4

/-- Does a stretch hold the entry? -/
def DictEnt.holds (e : DictEnt) (idx sub : Nat) : Bool :=
  decide (e.idx ≤ idx) && decide (idx < e.idx + e.spanI) && decide (e.sub ≤ sub) && decide (sub < e.sub + e.spanS)

/-- An index is a REC when its first entry is not subindex 0x00 (R12, R416). -/
def dictIsRec (idx : Nat) : Bool :=
  dictEnts.any (fun e => decide (e.idx ≤ idx) && decide (idx < e.idx + e.spanI) && decide (e.sub ≠ 0))

/-- R430: the index is assigned. -/
def dictHasIndex (idx : Nat) : Bool :=
  dictEnts.any (fun e => decide (e.idx ≤ idx) && decide (idx < e.idx + e.spanI))

/-- R12: the highest subindex of a REC. -/
def dictHighest (idx : Nat) : Nat :=
  dictEnts.foldl (fun m e => if e.idx ≤ idx ∧ idx < e.idx + e.spanI then max m (e.sub + e.spanS - 1) else m) 0

/-- R12: subindex 0x00 of a REC may be read in every domain that may access the entry. -/
def dictRecAcc (idx : Nat) : AccSet :=
  let es := dictEnts.filter (fun e => decide (e.idx ≤ idx) && decide (idx < e.idx + e.spanI))
  let f (d : Domain) : Acc := if es.any (fun e => decide (e.row.acc.of d ≠ .dash)) then .ro else .dash
  ⟨f .hostAdmin, f .hostUser, f .sideBand, f .firmware⟩

/-- The entry at an index and subindex. -/
def dictRow (idx sub : Nat) : Option DictRow :=
  if sub = 0 ∧ dictIsRec idx then some (rowAny .u8 (dictRecAcc idx) (dictHighest idx))
  else (dictEnts.find? (fun e => e.holds idx sub)).map (fun e => e.row)

/-- R413: a standby entry: any code RWP, the range 0x1000 to 0x1FFF, 0x2000, 0x2001, 0x2F00. -/
def dictStandby (idx : Nat) (r : DictRow) : Bool :=
  decide (r.acc.ha = .rwp) || decide (r.acc.hu = .rwp) || decide (r.acc.sb = .rwp) || decide (r.acc.fw = .rwp) ||
    (decide (0x1000 ≤ idx) && decide (idx ≤ 0x1FFF)) || decide (idx = 0x2000) || decide (idx = 0x2001) ||
    decide (idx = 0x2F00)

/-- The entry is persisted in the dictionary store (R418). -/
def dictPersisted (r : DictRow) : Bool := decide (r.acc.ha = .rwp)

/-- The key of an entry in the tables of stored values. -/
def dictKey (idx sub : Nat) : Nat := idx * 256 + sub

end Sys2Proof.Machine
end

