-- ==== Sys2Proof/Machine/StateCore.lean ====
section
/-! DEFINITION. The state of one compute core (R50 to R105) and of one rubric core (R104, R105). -/

namespace Sys2Proof.Machine

/-- R70: the core states. -/
inductive CoreMode where
  | off | idle | running | halted | faulted | cut
  deriving DecidableEq, Repr

/-- R64, R65: the phase a core is in (CORE_STATUS.phase). -/
inductive Phase where
  | none | compute | transfer | turn
  deriving DecidableEq, Repr

/-- What a running core's current instruction waits for. The instruction has not retired, and CORE_PC still
names it. -/
inductive CoreWait where
  /-- R85: arrived at barrier `id` of the home core under the parity, waiting for its release. -/
  | barrier (home : CoreNo) (id : Nat) (parity : Bool)
  /-- R83: WAITIN of `units` 64 B units of the stream (src, tag). -/
  | waitin (src : CoreNo) (tag units : Nat)
  /-- R97: RECV of the stream (src, tag) into the store at `st`; `left` units still to move. -/
  | recv (src : CoreNo) (tag st left : Nat)
  /-- R96: WAITFLAG on the word at device-virtual `addr`; `ge` is the condition, `value` the scalar. -/
  | flag (addr : Nat) (ge : Bool) (value : W64)
  /-- R379: a CSTEP TAKE whose descriptor bytes are held; `seen` are the sources found ready, in list order. -/
  | take (desc : List Byte) (seen : List Nat)
  /-- R380: a CCOUNT whose descriptor bytes are held; the members whose counts have come. -/
  | ccount (desc : List Byte) (seen : List Nat)
  deriving DecidableEq, Repr

/-- A rotary line: its device-virtual line address, its 64 bytes and its poison mark (R59). -/
structure RotLine where
  addr : Nat
  data : BitVec 512
  poison : Bool
  deriving DecidableEq, Repr

/-- A stream-queue entry (R62): an id and whether it came from a poisoned granule. -/
structure StreamId where
  id : W64
  poison : Bool
  deriving DecidableEq, Repr

/-- An inbound-queue unit (R62, R97): one 64 B granule of the stream (src, tag). -/
structure InUnit where
  src : CoreNo
  tag : Nat
  data : BitVec 512
  poison : Bool
  deriving DecidableEq, Repr

/-- An outstanding store of a core (R61): `held` while it waits on write intent (R221, R244). -/
structure OutStore where
  held : Bool
  deriving DecidableEq, Repr

/-- R85, R86: the home core's count for one (id, parity): the count the first arrival named and who arrived. -/
structure Barrier where
  id : Nat
  parity : Bool
  count : Nat
  arrived : List CoreNo
  deriving DecidableEq, Repr

/-- The fault registers of a core (R74). -/
structure CoreFault where
  code : W16
  resource : BitVec 3
  multi : Bool
  valid : Bool
  pc : W64
  tile : W32
  need : W32
  have_ : W32
  deriving DecidableEq, Repr

/-- The control registers of a core's register block (R73, R80, R84, R103, R240). -/
structure CoreRegs where
  pc : W64
  startPc : W16
  wdogEn : Bool
  wdogTimeout : BitVec 24
  partition : BitVec 3
  partValid : Bool
  groupLog2 : BitVec 2
  rngSeed : W64
  rngState : W64
  rotBase : W64
  progSrc : W64
  progFirst : BitVec 11
  progCount : BitVec 12
  progErr : Bool
  arg0 : W64
  arg1 : W64
  arg2 : W64
  folio : W64
  deriving DecidableEq, Repr

/-- The event registers of a core (R84). -/
structure CoreEventRegs where
  value : BitVec 48
  event : W16
  count : W16
  pending : Bool
  ended : Bool
  irqEn : Bool
  target : BitVec 5
  valuePoison : Bool
  deriving DecidableEq, Repr

/-- The program load in progress (R103): the words still to be written, and whether it fails. -/
structure ProgLoad where
  first : Nat
  count : Nat
  src : Nat
  deriving DecidableEq, Repr

/-- The status bits of a core that are not its state, phase or queue (CORE_STATUS). -/
structure CoreFlags where
  tokenWait : Bool
  rotStall : Bool
  cmdDrop : Bool
  wrDrop : Bool
  poisonSeen : Bool
  invalBusy : Bool
  haltReq : Bool
  cutReq : Bool
  ending : Bool
  deriving DecidableEq, Repr

/-- R68, R69: the stores of a core, each with a poison mark per 64 B granule. Vector register v, lane l is key
256*v + l; slot s, row r, column c is key (128*s + r)*256 + c; blotter row r, column c is key 1024*r + c. -/
structure CoreStores where
  prog : Cells 128
  progBad : Cells 1
  store : Cells 8
  storePoison : Cells 1
  acc : Cells 32
  accPoison : Cells 1
  blot : Cells 32
  blotPoison : Cells 1
  vec : Cells 32
  vecPoison : Cells 1
  deriving DecidableEq, Repr

/-- R486: one programmable counter and its select register. -/
structure Counter where
  value : BitVec 48
  sel : W64
  sat : Bool
  deriving DecidableEq, Repr

/-- R68: an uncorrectable error in an SRAM of a core that the core has not met yet: a word of the program buffer, a 64 B
granule of a store by its number, or the rotary line of an address. -/
inductive SramErr where
  | prog (i : Nat)
  | store (g : Nat)
  | acc (g : Nat)
  | blot (g : Nat)
  | vec (g : Nat)
  | rot (addr : Nat)
  deriving DecidableEq, Repr

/-- One compute core. -/
structure Core where
  mode : CoreMode
  phase : Phase
  nextPhase : Phase
  flags : CoreFlags
  regs : CoreRegs
  ev : CoreEventRegs
  fault : CoreFault
  sregs : Cells 64
  spoison : Cells 1
  mem : CoreStores
  latent : List SramErr
  rot : Tab (List RotLine)
  rotFills : List Nat
  rotHeld : List RotLine
  streamq : List StreamId
  inbound : List InUnit
  outStores : List OutStore
  wait : Option CoreWait
  parity : Cells 1
  barriers : List Barrier
  load : Option ProgLoad
  softReset : Bool
  cycles : W64
  priv : BitVec 2
  counters : Tab Counter
  deriving DecidableEq, Repr

/-- CORE_FAULT_ registers at reset: all 0. -/
def CoreFault.reset : CoreFault := ⟨0, 0, false, false, 0, 0, 0, 0⟩

/-- The register block at reset (R73 and the register tables). -/
def CoreRegs.reset : CoreRegs :=
  { pc := 0, startPc := 0, wdogEn := false, wdogTimeout := 0, partition := 0, partValid := false,
    groupLog2 := 0, rngSeed := 1, rngState := 1, rotBase := 0, progSrc := 0, progFirst := 0,
    progCount := 0, progErr := false, arg0 := 0, arg1 := 0, arg2 := 0, folio := 0 }

/-- The event registers at reset. -/
def CoreEventRegs.reset : CoreEventRegs := ⟨0, 0, 0, false, false, false, 0, false⟩

/-- The status bits at reset. -/
def CoreFlags.reset : CoreFlags :=
  ⟨false, false, false, false, false, false, false, false, false⟩

/-- The stores at reset: every unlisted key is 0 and unpoisoned (log 5). -/
def CoreStores.reset : CoreStores := ⟨[], [], [], [], [], [], [], [], [], []⟩

/-- A core counter that was never programmed (priv_mask resets to 0b111). -/
def Counter.reset : Counter := ⟨0, 0xE00, false⟩

/-- A core at reset (CORE_STATUS.state resets to IDLE). -/
def Core.reset : Core :=
  { mode := .idle, phase := .none, nextPhase := .none, flags := CoreFlags.reset, regs := CoreRegs.reset,
    ev := CoreEventRegs.reset, fault := CoreFault.reset, sregs := [], spoison := [], mem := CoreStores.reset, latent := [],
    rot := [], rotFills := [], rotHeld := [], streamq := [], inbound := [], outStores := [], wait := none,
    parity := [], barriers := [], load := none, softReset := false, cycles := 0, priv := 0, counters := [] }

/-- A rubric-core exception (R104, R105): its cause and trap value. -/
structure Trap where
  cause : Nat
  value : W64
  deriving DecidableEq, Repr

/-- One rubric core K0 to K23, as far as the manual gives its state (R84, R104, R105). `rd` is the result of its
last HX instruction or load. -/
structure Rubric where
  offline : Bool
  storeBind : W64
  loadBind : W64
  waitLimit : Option W64
  irq : Bool
  trap : Option Trap
  rd : W64
  deriving DecidableEq, Repr

/-- A rubric core at reset: nothing bound, nothing waiting. -/
def Rubric.reset : Rubric := ⟨false, 0, 0, none, false, none, 0⟩

end Sys2Proof.Machine
end

