-- ==== Sys2Proof/Machine/StateHost.lean ====
section
/-! DEFINITION. The state of the host interface (R390 to R410): windows, queues, orders, result slots, interrupts,
and the host's own memory as far as the block reads and writes it. -/

namespace Sys2Proof.Machine

/-- A submission queue's registers (R394). -/
structure SQ where
  base : W64
  enable : Bool
  sizeLog2 : BitVec 4
  function : BitVec 4
  partition : BitVec 3
  cq : BitVec 10
  prio : BitVec 2
  tail : BitVec 12
  head : BitVec 12
  err : Bool
  deriving DecidableEq, Repr

/-- A finished order's completion entry (R396), before its phase bit and sq_head are known. -/
structure Completion where
  tag : W64
  sq : BitVec 16
  code : W16
  slot : W16
  gen : W16
  reqScope : Byte
  reqMask : Byte
  info : W32
  irq : Bool
  deriving DecidableEq, Repr

/-- A completion queue's registers (R395), the completions held while it is full, the entries written since its last
interrupt. -/
structure CQ where
  base : W64
  enable : Bool
  sizeLog2 : BitVec 5
  function : BitVec 4
  vector : BitVec 11
  irqEn : Bool
  coalCount : Byte
  coalTime : Byte
  head : BitVec 16
  tail : BitVec 16
  phase : Bool
  headErr : Bool
  held : List Completion
  unsignalled : Nat
  deriving DecidableEq, Repr

/-- R405: the states of a result slot. -/
inductive SlotState where
  | empty | pending | ready | released
  deriving DecidableEq, Repr

/-- A result slot (R405): its header fields and payload. -/
structure Slot where
  state : SlotState
  gen : W16
  code : W16
  cls : Byte
  op : Byte
  tag : W64
  sq : W16
  info : W32
  doneTime : W64
  reqScope : Byte
  reqMask : Byte
  payload : List Byte
  deriving DecidableEq, Repr

/-- An order the module has taken (R397, R400): its queue, function and partition, its class and block, its slot with
the generation given, and whether it has started. `silent` marks an order whose completion a host reset discards
(R408). -/
structure Order where
  id : Nat
  sq : Nat
  function : Nat
  part : PartNo
  cls : Byte
  op : Byte
  block : List Byte
  slot : W16
  gen : W16
  tag : W64
  irq : Bool
  fence : Bool
  started : Bool
  silent : Bool
  deriving DecidableEq, Repr

/-- Registers of one partition window (R391, R393). -/
structure PartWindow where
  bar2 : W64
  evVector : BitVec 6
  evEnable : Bool
  evPending : Bool
  deriving DecidableEq, Repr

/-- GLB_IRQ_CFG (R407). -/
structure IrqCfg where
  faultVec : BitVec 11
  faultEn : Bool
  stateVec : BitVec 11
  stateEn : Bool
  faultPending : Bool
  statePending : Bool
  deriving DecidableEq, Repr

/-- The host interface. Function 0 is the PF, 1 to 8 are VFs; an MSI-X vector is key 4096*function + vector.
`waiting` is since when a queue with
work has not been served (R397); `msixUnmasked` lists the vectors that software has unmasked, `msixMsg` their messages (address, then data from bit 64); `hostMem` is the host's memory. -/
structure HostState where
  linkUp : Bool
  bar2Base : BitVec 12
  irq : IrqCfg
  windows : Vector PartWindow 8
  sqs : Tab SQ
  cqs : Tab CQ
  orders : List Order
  nextOrder : Nat
  lastSq : Tab Nat
  lastPart : Nat
  waiting : Tab (Option W64)
  slots : Tab Slot
  mailboxes : Tab (List (Nat × List Byte))
  vfEnabled : BitVec 8
  msixUnmasked : Cells 1
  msixPending : Cells 1
  msixMsg : Cells 96
  timeLatch : Tab (Option W32)
  aliasDrops : Nat
  releaseIgnored : Nat
  hostMem : Cells 8
  hostPoison : Cells 1
  hostBad : Cells 1
  deriving DecidableEq, Repr

/-- SQ registers at reset (R394). -/
def SQ.reset : SQ := ⟨0, false, 4, 0, 0, 0, 1, 0, 0, false⟩

/-- CQ registers at reset (R395). -/
def CQ.reset : CQ := ⟨0, false, 4, 0, 0, false, 0, 0, 0, 0, true, false, [], 0⟩

/-- A slot that was never claimed (R405, R406). -/
def Slot.reset : Slot := ⟨.empty, 0, 0, 0, 0, 0, 0, 0, 0, 0, 0, []⟩

/-- A partition window at reset. -/
def PartWindow.reset : PartWindow := ⟨0, 0, false, false⟩

/-- GLB_IRQ_CFG at reset. -/
def IrqCfg.reset : IrqCfg := ⟨0, false, 0, false, false, false⟩

/-- The host interface at reset: nothing enabled, every vector masked (log 12). -/
def HostState.reset : HostState :=
  { linkUp := false, bar2Base := 0, irq := IrqCfg.reset, windows := Vector.replicate 8 PartWindow.reset,
    sqs := [], cqs := [], orders := [], nextOrder := 0, lastSq := [], lastPart := 7, waiting := [], slots := [],
    mailboxes := [], vfEnabled := 0, msixUnmasked := [], msixPending := [], msixMsg := [], timeLatch := [],
    aliasDrops := 0, releaseIgnored := 0, hostMem := [], hostPoison := [], hostBad := [] }

end Sys2Proof.Machine
end

