-- ==== Sys2Proof/Machine/StateLink.lean ====
section
/-! DEFINITION. The state of the Haros ports from link to messages (R318 to R344), the Ethernet queue pairs (R346), the
wiring and port map (R355 to R361), the quire rings (R190 to R205) and what collectives keep (R375). -/

namespace Sys2Proof.Machine

/-- R330: the link states. -/
inductive PortMode where
  | disabled | down | training | handshake | keying | up | quarantine | ethUp
  deriving DecidableEq, Repr

/-- R331: what a HELLO says. -/
structure Beacon where
  major : Byte
  minor : Byte
  encReq : Bool
  build : W32
  serial : W64
  slot : Byte
  port : Byte
  deriving DecidableEq, Repr

/-- R325: a group kept for replay: its number, its lane, its flits exactly as they were sent. -/
structure TxGroup where
  gseq : BitVec 12
  lane : Fin 4
  flits : List (List Byte)
  deriving DecidableEq, Repr

/-- R329: an unsequenced flit that waits for a group boundary: for a SYNC_RESP the body of its request, the time of the request's
arrival and the sixteenths of it (R342). -/
inductive DueFlit where
  | lctl
  | hello
  | syncReq
  | syncResp (req : List Byte) (t2 : W64) (frac : BitVec 4)
  | announce
  deriving DecidableEq, Repr

/-- R357: the results of the wiring comparison. -/
inductive WireClass where
  | noPlan | match_ | absent | unexpected | mismatch | swap | peerSwap | unused
  deriving DecidableEq, Repr

/-- R343: an announcement held of a port. -/
structure Announcement where
  priority : Byte
  serial : W64
  hops : Byte
  time : W64
  deriving DecidableEq, Repr

/-- A physical port. Link layer: `replay` are the groups not yet acknowledged, oldest first, `resend` how many of the
newest of them are still to be sent again, `tries` how often the oldest has been replayed without progress; `queue` the
lane data that waits on each lane, `sent` and `credit` the counts of R328, `deficit` and `turn` the round robin of R329, `due` the
unsequenced flits that wait for a boundary, `line` the 257-bit blocks not yet in a codeword (R320), `phaseGroups` the groups sent
under the key phase; `txBlock` and `rxBlock` the key blocks in force (R477), `txSpare` and `rxSpare` those installed for the next
phase, `rxPhase` and `rxGroups` the key phase received and the groups accepted under it (R333); `rxNext`, `rxAny`, `wantNak`,
`freed`, `accepted` the receiver of R326 and R327; `rx` the lane data not yet parsed, `rxFlits` the bytes of it that are left of
each flit (R328); the uctr counters of R333; `badTypes` the flits of other types discarded (R323), `badNaks` the NAKs outside the
window (R325); `ringTurn` the ring from which the turn on the port goes on (R192). Wiring: the class, the partner of a swap, whether
the port is held. `retrying` marks a port that waits for TRAINING_RETRY; `paused` the time to which each priority of an Ethernet
port is paused (R345). -/
structure Port where
  enable : Bool
  encReq : Bool
  loopback : Bool
  mode : PortMode
  retrying : Bool
  encOn : Bool
  keyPhase : Bool
  rekeyDue : Bool
  downEvent : Bool
  authFail : Bool
  verMismatch : Bool
  replayEvent : Bool
  minor : Byte
  peer : Option Beacon
  arb : BitVec 12
  fecCorr : W32
  fecUncorr : W16
  replays : W16
  txNext : BitVec 12
  replay : List TxGroup
  resend : Nat
  tries : Nat
  queue : Vector (List Byte) 4
  sent : Vector W32 4
  credit : Vector W32 4
  deficit : Vector Nat 4
  turn : Fin 4
  phaseGroups : Nat
  due : List DueFlit
  line : List Nat
  txBlock : BitVec 288
  txSpare : Option (BitVec 288)
  rxBlock : BitVec 288
  rxSpare : Option (BitVec 288)
  rxPhase : Bool
  rxGroups : Nat
  badTypes : Nat
  badNaks : Nat
  uctrTx : W64
  uctrRx : Option W64
  rxNext : BitVec 12
  rxAny : Bool
  wantNak : Bool
  freed : Vector W32 4
  accepted : Nat
  rx : Vector (List Byte) 4
  rxFlits : Vector (List Nat) 4
  ringTurn : Nat
  wire : WireClass
  partner : Option PortNo
  held : Bool
  heard : Option Announcement
  lastResendNote : Option W64
  paused : Vector W64 8
  deriving DecidableEq, Repr

/-- R342 to R344: the time exchange: the parent port, the root followed, the request in flight, how many of the last offsets
stood within bound in a row; `newParent` until the first offset of a parent, `closing` while an offset above 1 ms is slewed. -/
structure TimeState where
  isRoot : Bool
  parent : Option PortNo
  hops : Byte
  rootPriority : Byte
  rootSerial : W64
  split : Bool
  tseq : W16
  request : Option W16
  good : Nat
  newParent : Bool
  closing : Bool
  lastValid : W64
  deriving DecidableEq, Repr

/-- R346: a queue pair of an Ethernet port. -/
structure EthQp where
  enable : Bool
  part : BitVec 3
  acceptMc : Bool
  ringLog2 : BitVec 5
  txBase : W64
  rxBase : W64
  txTail : W16
  txHead : W16
  rxTail : W16
  rxHead : W16
  mac : BitVec 48
  vlan : BitVec 12
  deriving DecidableEq, Repr

/-- FAB_RING_STATUS.state (R190). -/
inductive RingMode where
  | disabled | running | stopping | stopped | broken
  deriving DecidableEq, Repr

/-- R193: the states of a landing slot. -/
inductive LandMode where
  | free | filling | ready
  deriving DecidableEq, Repr

/-- R338: a chunk of a landing: its place in the slot, the check and origin it came with. -/
structure LandChunk where
  at_ : Nat
  check : W32
  origin : W32
  deriving DecidableEq, Repr

/-- R193: a landing slot: the number it is granted for, the quires landed in full, its chunks and the headers of its
quires with their dest_chunk. -/
structure LandSlot where
  mode : LandMode
  seq : W32
  quires : Nat
  chunks : List LandChunk
  headers : List (Nat × List Byte)
  poisoned : Bool
  deriving DecidableEq, Repr

/-- R191, R192: the send entry at work: the entry, its header as it is sent, the next chunk, its message. -/
structure RingSend where
  entry : List Byte
  header : List Byte
  next : Nat
  msg : Option W32
  deriving DecidableEq, Repr

/-- A ring (R190). `landTimes` are the global times of the last landing of each slot and of the one before it (R440). -/
structure Ring where
  enable : Bool
  mode : RingMode
  folded : Bool
  slotsLog2 : BitVec 2
  mcastArm : Bool
  part : BitVec 3
  epoch : W32
  index : BitVec 12
  nMinus1 : BitVec 12
  succ : W32
  pred : W32
  sqBase : W64
  sqTail : Byte
  land : W64
  sqHead : Byte
  epochDrop : Bool
  headerDrop : Bool
  linkLost : Bool
  landed : W32
  credits : List (Nat × W32)
  slots : List LandSlot
  landTimes : Tab (Nat × Nat)
  cur : Option RingSend
  deriving DecidableEq, Repr

/-- Who sent a message (R191, R378, R380). -/
inductive TxOwner where
  | ring (n : Fin 16) (entry : List Byte)
  | core (n : CoreNo) (pc : W64)
  | none
  deriving DecidableEq, Repr

/-- Where a message's bytes are read, when sent and when sent again (R337, R191). -/
inductive TxSrc where
  | ctx (p : PartNo) (ctx : Nat) (offsets : List Nat)
  | slot (n : Fin 16) (at_ : Nat)
  | buffer (p : PartNo) (addr : Nat)
  | store (n : CoreNo) (addr : Nat)
  | memory (n : CoreNo) (p : PartNo) (addr : Nat)
  | zeros
  | relay
  deriving DecidableEq, Repr

/-- A chunk of a message sent: reported good, and how often it has been sent again. -/
structure TxChunk where
  good : Bool
  tries : Nat
  deriving DecidableEq, Repr

/-- A message under way at its sender (R335 to R340): `total` its chunks, `chunks` those sent so far. -/
structure TxMsg where
  id : W32
  owner : TxOwner
  mtype : Nat
  lane : Fin 4
  ports : List PortNo
  header : List Byte
  bytes : Nat
  prefixed : Bool
  gathered : Bool
  src : TxSrc
  total : Nat
  chunks : List TxChunk
  tries : Nat
  deriving DecidableEq, Repr

/-- What becomes of a message at its receiver. -/
inductive RxTarget where
  | ring (n : Fin 16) (slot : Nat) (seq : W32) (dest : Nat)
  | relay (n : Fin 16) (ports : List PortNo)
  | land (p : PartNo) (x : Nat) (data ready : Nat) (cseq : W64)
  | count (p : PartNo) (x : Nat) (entry : Nat) (cseq : W64) (n : W32)
  | dropped
  | other
  deriving DecidableEq, Repr

/-- A message under way at its receiver: its sender and number, whether it is gathered data (R338), its partitions, how many
chunks and bytes, the chunks landed, those found bad so far. -/
structure RxMsg where
  src : W32
  id : W32
  mtype : Nat
  gathered : Bool
  srcPart : Nat
  dstPart : Nat
  total : Nat
  bytes : Nat
  got : List Nat
  bad : List Nat
  target : RxTarget
  deriving DecidableEq, Repr

/-- R199: a leader's read that is held: its member, the address and lines still to read, since when. -/
structure McastHold where
  member : Fin 32
  addr : Nat
  lines : Nat
  since : W64
  deriving DecidableEq, Repr

/-- R198, R199: a multicast set: its registers, and while it is armed the window, who is still attached, each member's
count of lines, the addresses of the lines fetched (the last 4,096 are in the buffer), and the reads held that would lead too far. -/
structure McastSet where
  members : W32
  enable : Bool
  detachWait : Byte
  window : Option (Nat × Nat)
  attached : W32
  counts : Vector Nat 32
  lines : List Nat
  lead : Nat
  held : List McastHold
  deriving DecidableEq, Repr

/-- R338: a chunk of gathered data that a collective message landed: its partition, address and bytes, the check and origin it came
with. -/
structure CollChunk where
  part : PartNo
  addr : Nat
  len : Nat
  check : W32
  origin : W32
  deriving DecidableEq, Repr

/-- Ports, rings and messages of the module. `map` is FAB_PORT_MAP; `address` the fabric address in force; `stale` the
(partition, group, epoch) whose drops were recorded (R375); `gathered` the landed chunks of gathered data (R338). -/
structure LinkState where
  ports : Vector Port 32
  map : Vector (Fin 32) 32
  address : W32
  boardSize : Nat
  time : TimeState
  rings : Vector Ring 16
  tx : List TxMsg
  rx : List RxMsg
  nextMsg : W32
  stale : List (PartNo × Nat × W32)
  gathered : List CollChunk
  eth : Tab EthQp
  mcast : Tab McastSet
  deriving DecidableEq, Repr

/-- A port at reset: enabled, encryption requested, DOWN (FAB_PORT_CTRL, FAB_PORT_STATUS, FAB_PORT_ARB). -/
def Port.reset : Port :=
  { enable := true, encReq := true, loopback := false, mode := .down, retrying := false, encOn := false, keyPhase := false,
    rekeyDue := false, downEvent := false, authFail := false, verMismatch := false, replayEvent := false, minor := 0,
    peer := none, arb := 0x144, fecCorr := 0, fecUncorr := 0, replays := 0, txNext := 0, replay := [], resend := 0, tries := 0,
    queue := Vector.replicate 4 [], sent := Vector.replicate 4 0, credit := Vector.replicate 4 0,
    deficit := Vector.replicate 4 0, turn := 1, phaseGroups := 0, due := [], line := [], txBlock := 0, txSpare := none,
    rxBlock := 0, rxSpare := none, rxPhase := false, rxGroups := 0, badTypes := 0, badNaks := 0, uctrTx := 0, uctrRx := none,
    rxNext := 0, rxAny := false, wantNak := false, freed := Vector.replicate 4 0, accepted := 0, rx := Vector.replicate 4 [],
    rxFlits := Vector.replicate 4 [], ringTurn := 0, wire := .noPlan, partner := none, held := false, heard := none,
    lastResendNote := none, paused := Vector.replicate 8 0 }

/-- Time at reset (FAB_TIME_STATE, FAB_TIME_ROOT). -/
def TimeState.reset : TimeState := ⟨false, none, 0xFF, 0xFF, 0, false, 0, none, 0, true, false, 0⟩

/-- A queue pair at reset. -/
def EthQp.reset : EthQp := ⟨false, 0, false, 8, 0, 0, 0, 0, 0, 0, 0, 0⟩

/-- A ring at reset (R190). -/
def Ring.reset : Ring :=
  { enable := false, mode := .disabled, folded := false, slotsLog2 := 1, mcastArm := false, part := 0, epoch := 0, index := 0,
    nMinus1 := 0, succ := 0, pred := 0, sqBase := 0, sqTail := 0, land := 0,
    sqHead := 0, epochDrop := false, headerDrop := false, linkLost := false, landed := 0, credits := [], slots := [],
    landTimes := [], cur := none }

/-- A multicast set at reset (detach_wait resets to 0x14). -/
def McastSet.reset : McastSet := ⟨0, false, 0x14, none, 0, Vector.replicate 32 0, [], 0, []⟩

/-- Ports, rings and messages at reset. -/
def LinkState.reset : LinkState :=
  { ports := Vector.replicate 32 Port.reset, map := Vector.ofFn id, address := 0, boardSize := 16, time := TimeState.reset,
    rings := Vector.replicate 16 Ring.reset, tx := [], rx := [], nextMsg := 0, stale := [], gathered := [], eth := [], mcast := [] }

end Sys2Proof.Machine
end

