-- ==== Sys2Proof/Machine/StateMem.lean ====
section
/-! DEFINITION. The state of unified memory, its frames, the translation registers, migrations and the ruling
(R208 to R237), and of folios and snapshots (R238 to R260). -/

namespace Sys2Proof.Machine

/-- The frames of one share and tier that are free (R210): the frames never yet given out begin at offset `fresh`
of the share, and the returned frames stand in order behind them. -/
structure FreeList where
  fresh : Nat
  returned : List Nat
  deriving DecidableEq, Repr

/-- Where a page lies: a partition's device-virtual space or a context window (R47, R48). -/
inductive Space where
  | dv
  | ctx (id : Nat)
  deriving DecidableEq, Repr

/-- A page by its partition, space and page number (address >> 16). -/
structure PageRef where
  part : PartNo
  space : Space
  page : Nat
  deriving DecidableEq, Repr

/-- Who asked for a move (R219, R220): a ruling entry (its list index), a spill of a tier (R278), the refresh of a worn
flash frame or the relocation of one whose program failed (R455, R309). -/
inductive MigOwner where
  | ruling (part : PartNo) (idx : Nat)
  | spill (part : PartNo) (tier : Nat)
  | refresh
  deriving DecidableEq, Repr

/-- R229: pages that wait for a migration engine: `left` pages from page number `page` on, `group` of them moved together
(a cache page of two translation pages), their target and deadline; `waited` when the charge has waited on a spill. -/
structure Move where
  part : PartNo
  space : Space
  page : Nat
  left : Nat
  group : Nat
  tier : Nat
  owner : MigOwner
  deadline : Option W64
  waited : Bool
  deriving DecidableEq, Repr

/-- A migration in progress (R220): steps 1 and 2 are done: its target frames (beside the frames they replace, and equal to
them where the page becomes codex items, R279) are
allocated and write intent on the pages is held. -/
structure Migration where
  part : PartNo
  space : Space
  page : Nat
  frames : List (Nat × Nat)
  tier : Nat
  tries : Nat
  owner : MigOwner
  deriving DecidableEq, Repr

/-- R278: a spill batch under way: the moves not yet ended, and the spills and evictions sealed. -/
structure SpillBatch where
  part : PartNo
  tier : Nat
  left : Nat
  sealed : Nat
  deriving DecidableEq, Repr

/-- An order that waits: its engine class and op, its block, its order or none, and the spill it waits for (none: board
memory, R500). -/
structure WaitOrd where
  part : PartNo
  cls : Nat
  op : Nat
  block : List Byte
  order : Option Nat
  tier : Option Nat
  deriving DecidableEq, Repr

/-- R309: a flash page with buffered granules in the write-back area, since when. -/
structure WbPage where
  part : PartNo
  frame : Nat
  grans : List Nat
  since : W64
  deriving DecidableEq, Repr

/-- R302: a candidate of a walk: its distance and local number, the glyph and attribute its entry holds. -/
structure Cand where
  dist : Nat
  n : Nat
  expanded : Bool
  glyph : BitVec 256
  attr : W64
  deriving DecidableEq, Repr

/-- R301: how far a query has come: it waits for a slot, walks, or is re-ranked. -/
inductive WalkPhase where
  | waiting | walking | rerank
  deriving DecidableEq, Repr

/-- R302: the lists and counts of a walk. -/
structure WalkSt where
  queue : List Cand
  allowed : List Cand
  seen : Cells 1
  batch : List Nat
  beam : Nat
  widened : Bool
  expansions : Nat
  reads : Nat
  poisoned : Nat
  deriving DecidableEq, Repr

/-- A query (R301 to R305, R314): its block and order, its home engine, epoch and glyph. -/
structure Walk where
  part : PartNo
  block : List Byte
  order : Option Nat
  phase : WalkPhase
  home : Nat
  epoch : W32
  glyph : BitVec 256
  st : WalkSt
  late : Bool
  deriving DecidableEq, Repr

/-- R307: a node flagged for repair; `retryAt` is set by a repair that met a conflict. -/
structure Repair where
  index : Nat
  n : Nat
  retryAt : Option W64
  deriving DecidableEq, Repr

/-- Who made a plain write that waits on write intent (R221, R244). -/
inductive Writer where
  | core (n : CoreNo)
  | hart (k : Fin 24)
  | bar2
  | engine (n : Nat)
  | copy (order : Nat)
  deriving DecidableEq, Repr

/-- A plain write that waits until the holder of the intent seals or scrapes; it is then performed at the page's
home as it stands at that moment. `frame` is the home it was translated to. -/
structure HeldWrite where
  who : Writer
  frame : Nat
  off : Nat
  data : List Byte
  poison : Bool
  deriving DecidableEq, Repr

/-- The registers of one partition control block of the memory-side dies (R227, R257, R278, R299). -/
structure PartRegs where
  ruleBase : W64
  ruleEnable : Bool
  ruleLook : BitVec 3
  ruleTail : W16
  ruleCur : W64
  ruleMiss : Bool
  ruleFallback : Bool
  ruleErr : Bool
  snapClosed : Bool
  folioErr : Bool
  inkOrdDrop : Bool
  inkErr : Bool
  codexOrdDrop : Bool
  codexErr : Bool
  codexLate : Bool
  deriving DecidableEq, Repr

/-- R228, R229: a ruling entry that has been started: its list index, layer and deadline, whether its fallback stands, where
its status word lies, its object (space, first page, pages), its pages not yet at their target, and whether its deadline was
found missed (R230). -/
structure RuleEntry where
  idx : Nat
  layer : W32
  deadline : W64
  hasFallback : Bool
  statusAddr : Nat
  space : Space
  page : Nat
  pages : Nat
  left : Nat
  missed : Bool
  deriving DecidableEq, Repr

/-- The ruling of one partition as its home executes it (R229, R230): the entries started and not finished, and those whose
pages are resident for a consumer to come (R281). -/
structure Ruling where
  started : List RuleEntry
  resident : List RuleEntry
  next : W16
  lastLayer : Option W32
  missed : List W32
  refused : List W32
  deriving DecidableEq, Repr

/-- Unified memory and its management. `flashOut` are the shares whose flash failed its scan (R499). `lastBatch` is what the last spill batch of a partition and tier (key 4*p + tier)
sealed and when it ended; `lmaps` the layer maps the module copied at CREATE (R262). -/
structure MemState where
  cells : Cells 8
  poison : Cells 1
  latent : Cells 1
  frames : Cells 32
  retireAt : Tab (Option W32)
  frameEvents : Cells 16
  free : Tab FreeList
  lastShare : Tab (Option (Fin 8))
  shareKey : Tab (BitVec 6)
  ftBase : Tab W64
  ptRoot : Tab W64
  ctxBase : Tab W64
  codexBase : Tab W64
  boardInit : Tab (Option Nat)
  moves : List Move
  migrations : List Migration
  batches : List SpillBatch
  lastBatch : Tab (Option (Nat × W64))
  waits : List WaitOrd
  indexFullSaid : BitVec 8
  lmaps : Tab (List (W32 × W16))
  wb : List WbPage
  walks : List Walk
  repairs : List Repair
  held : List HeldWrite
  subtrees : List (Nat × Nat × W32)
  partRegs : Vector PartRegs 8
  rulings : Vector Ruling 8
  retireList : Tab (List Nat)
  flashOut : BitVec 8
  deriving DecidableEq, Repr

/-- R213, R255: an entry of a core's TLB: its tag (with the snapshot of a core bound to one), and where the level-3 entry it keeps
lies. -/
structure TlbEntry where
  part : PartNo
  space : Nat
  ctx : Nat
  page : Nat
  snap : Option Nat
  entryUa : Nat
  deriving DecidableEq, Repr

/-- R213: the translation caches: the TLBs by 64·core + set, the walker caches by 2,048·die + set (the entries they keep, by their
addresses), each set most recently used first. -/
structure Xlate where
  tlbs : Tab (List TlbEntry)
  walkers : Tab (List Nat)
  deriving DecidableEq, Repr

/-- R214: an entry that changes is invalidated in every TLB and walker cache. -/
def Xlate.forget (x : Xlate) (ua n : Nat) : Xlate :=
  let keep (a : Nat) : Bool := decide (a + 8 ≤ ua) || decide (ua + n ≤ a)
  ⟨Tab.mapVals [] (fun l => l.filter (fun e => keep e.entryUa)) x.tlbs, Tab.mapVals [] (fun l => l.filter keep) x.walkers⟩

/-- The translation caches at reset: no entry (DESIGN CHOICE, log 170). -/
def Xlate.reset : Xlate := ⟨[], []⟩

/-- R239: the state of a folio or of a spanning folio's part. `sealed` is OPEN after the SEAL was accepted and its
seal point passed, until step 6 of R246. -/
inductive FolioMode where
  | free | opened | doomed | complete | prepared | inDoubt | sealed
  deriving DecidableEq, Repr

/-- A journaled granule (R241): its unified granule number, the bytes written (`mask` says which of the 64), whether a
whole-granule write is among them, and the poison written. The other bytes are the home's. -/
structure JGran where
  gran : Nat
  data : BitVec 512
  mask : BitVec 64
  whole : Bool
  poison : Bool
  deriving DecidableEq, Repr

/-- R250: one member of a spanning folio: module fabric address and partition. -/
structure Member where
  module : W32
  part : Byte
  deriving DecidableEq, Repr

/-- R251, R252: a vote received by the coordinator. -/
structure Vote where
  member : Nat
  yes : Bool
  code : W16
  time : W64
  deriving DecidableEq, Repr

/-- A change of the reference count of a frame, made at the seal (R242, R273). -/
structure RefDelta where
  frame : Nat
  up : Bool
  deriving DecidableEq, Repr

/-- The spanning side of a part (R250 to R253). At the coordinator: the votes, the decision with its cause, its NO voter
and its time, and the acknowledgements. At a member: PREPARE has come, it has voted, the deadline came before COMPLETE,
it has asked for the decision. -/
structure Span where
  globalId : W64
  members : List Member
  myIndex : Nat
  votes : List Vote
  decision : Option Bool
  decisionCode : W16
  noIndex : Nat
  decidedAt : W64
  acks : List Nat
  prepareSeen : Bool
  voted : Bool
  late : Bool
  queried : Bool
  deriving DecidableEq, Repr

/-- One folio (R238): a slot, or the folio an order of an engine runs in. `pins` are its changes of pinned bits (R402),
`moved` the pages it gives a new home (source and target frame), `subtrees` the tables it replaces with their level
(R242), `waiters` the commands that end with it: their order, if they are orders, and their result address,
`stamps` the U32 fields that take the epoch of its seal (R306, R307), `timeStamps` the U64 fields that take its time (R262),
`releasing` the contexts it releases (R275). -/
structure Folio where
  gen : W16
  mode : FolioMode
  part : PartNo
  tolerant : Bool
  deadline : W64
  resultAddr : W64
  journal : List JGran
  pages : List Nat
  frames : List Nat
  deltas : List RefDelta
  pins : List (Nat × Bool)
  moved : List (Nat × Nat)
  subtrees : List (Nat × Nat)
  poisoned : Nat
  firstBad : Nat
  cause : W16
  contested : W64
  holder : W64
  sealEpoch : W32
  sealTime : W64
  waiters : List (Option Nat × W64)
  stamps : List Nat
  timeStamps : List Nat
  releasing : List Nat
  repairs : List Repair
  span : Option Span
  deriving DecidableEq, Repr

/-- A decision that a member of this module keeps (R253). -/
structure Kept where
  globalId : W64
  index : Nat
  sealed : Bool
  code : W16
  noIndex : Nat
  deadline : W64
  deriving DecidableEq, Repr

/-- R251: a part of a spanning folio that was scraped before its vote, and the code of its NO. -/
structure ScrapedPart where
  globalId : W64
  index : Nat
  code : W16
  deadline : W64
  deriving DecidableEq, Repr

/-- An open snapshot (R255). -/
structure Snap where
  part : PartNo
  epoch : W32
  deriving DecidableEq, Repr

/-- A pre-image kept in a version area (R256): the epoch of the seal that overwrote the granule. -/
structure PreImage where
  part : PartNo
  epoch : W32
  gran : Nat
  data : BitVec 512
  poison : Bool
  deriving DecidableEq, Repr

/-- Folios and snapshots of the module. -/
structure FolioState where
  slots : Tab Folio
  epoch : W32
  snaps : Tab (Option Snap)
  preimages : List PreImage
  kept : List Kept
  scrapedParts : List ScrapedPart
  deriving DecidableEq, Repr

/-- A slot that was never opened. -/
def Folio.reset : Folio :=
  { gen := 0, mode := .free, part := 0, tolerant := false, deadline := 0, resultAddr := 0, journal := [],
    pages := [], frames := [], deltas := [], pins := [], moved := [],
    subtrees := [], poisoned := 0, firstBad := 0, cause := 0, contested := 0, holder := 0,
    sealEpoch := 0, sealTime := 0, waiters := [], stamps := [], timeStamps := [], releasing := [], repairs := [], span := none }

/-- The partition control block at reset (lookahead resets to 0b010). -/
def PartRegs.reset : PartRegs :=
  ⟨0, false, 2, 0, 0, false, false, false, false, false, false, false, false, false, false⟩

/-- A ruling that has started nothing. -/
def Ruling.reset : Ruling := ⟨[], [], 0, none, [], []⟩

/-- Memory at reset: nothing listed; every byte reads as 0 and no granule is poisoned (log 3, log 4). -/
def MemState.reset : MemState :=
  { cells := [], poison := [], latent := [], frames := [], retireAt := [], frameEvents := [], free := [],
    lastShare := [], shareKey := [], ftBase := [], ptRoot := [], ctxBase := [], codexBase := [],
    boardInit := [], moves := [], migrations := [], batches := [], lastBatch := [], waits := [], indexFullSaid := 0,
    lmaps := [], wb := [], walks := [], repairs := [], held := [], subtrees := [], partRegs := Vector.replicate 8 PartRegs.reset,
    rulings := Vector.replicate 8 Ruling.reset, retireList := [], flashOut := 0 }

/-- Folios at reset: every slot FREE with gen 0, epoch 0, no snapshot. -/
def FolioState.reset : FolioState := ⟨[], 0, [], [], [], []⟩

end Sys2Proof.Machine
end

