-- ==== Sys2Proof/Machine/StateOut.lean ====
section
/-! DEFINITION. What the block has sent to the outside: the messages, interrupts and notifications its commands cause,
in order (log 6). No rule reads them back. -/

namespace Sys2Proof.Machine

/-- A message on the control lane between members of a spanning folio (R251 to R253). -/
inductive FolioMsg where
  | prepare
  | vote (yes : Bool) (code : W16) (time : W64)
  | decision (sealed : Bool) (code : W16) (noIndex : Nat)
  | ack
  | query
  deriving DecidableEq, Repr

/-- R476: why the SPDM responder answers a request with an error. -/
inductive SpdmErr where
  | unexpectedRequest | invalidRequest | sessionLimit
  deriving DecidableEq, Repr

/-- R476: an SPDM response. -/
inductive SpdmReply where
  | version
  | capabilities
  | algorithms
  | digests (slots : List (BitVec 384))
  | certificate (slot : Nat) (chain : List Byte)
  | challengeAuth (slot : Nat) (measured : List (Nat × BitVec 384))
  | measurements (count : Nat) (blocks : List (Nat × BitVec 384))
  | keyExchange (id : Nat)
  | finish (id : Nat)
  | keyUpdateAck (id keyGen : Nat)
  | heartbeatAck (id : Nat)
  | endSessionAck (id : Nat)
  | chunkSendAck
  | chunkResponse (data : List Byte) (last : Bool)
  | error (e : SpdmErr)
  deriving DecidableEq, Repr

/-- R506: how a PLDM command completes. -/
inductive PldmCode where
  | success | alreadyInUpdateMode | notInUpdateMode | invalidState | invalidData | verifyFailed | incomplete | unsecured
  deriving DecidableEq, Repr

/-- R506: a PLDM response, or the module's own request to the agent. -/
inductive PldmReply where
  | done (c : PldmCode)
  | identifiers (vendor : W32) (uuid : W128)
  | parameters (running pending : List (Nat × W32))
  | request (component offset length : Nat)
  | status (state : Byte)
  deriving DecidableEq, Repr

/-- One thing sent. -/
inductive Out where
  /-- R407: an MSI-X interrupt message of a function. -/
  | msix (fn vector : Nat)
  /-- R428: a notification to the UDP target (0) or the MCTP target (1). -/
  | notify (target : Nat) (secured : Bool) (seq : W16) (index : Nat) (sub : Nat) (value : List Byte)
  /-- R461: a fault record given to the rubric cores of its partition. -/
  | rubricRecord (p : PartNo) (record : List Byte)
  /-- R250 to R253: from the member of index `src` to the member of index `dst` of a spanning folio, at the address its
  list gives (none where the sender holds no list). -/
  | folio (globalId : W64) (dst src : Nat) (dest : Option Member) (msg : FolioMsg)
  /-- R240: a code in an engine's own completion, which no order of this block is. -/
  | engineCode (p : PartNo) (code : W16)
  /-- R43: the value a register read returned to its requester. -/
  | readData (who : Requester) (v : W64)
  /-- R393: the data of a completed BAR2 read; `poisoned` is the poisoned TLP. -/
  | bar2Data (data : List Byte) (poisoned : Bool)
  /-- R393: a BAR2 read completed with Unsupported Request status. -/
  | bar2Unsupported
  /-- R322 to R325: flits on the wire, back to back, as a port sends them: a DATA group, or one flit of another type. -/
  | flits (p : PortNo) (fs : List (List Byte))
  /-- R320: a codeword on the four lanes, in ten-bit symbols. -/
  | codeword (p : PortNo) (lanes : List (List Nat))
  /-- R337: a chunk reported to its sender. -/
  | chunkReport (p : PortNo) (dst id : W32) (chunk : Nat) (good : Bool)
  /-- R193: a landing credit to a ring's predecessor. -/
  | credit (ring : Fin 16) (ports : List PortNo) (epoch : W32) (slot : Nat) (seq : W32)
  /-- R447, R465, R501: a depart notice. -/
  | depart (p : PortNo)
  /-- R346, R348: an Ethernet frame, its FCS inverted when `stomped`. -/
  | ethFrame (p : PortNo) (frame : List Byte) (stomped : Bool)
  /-- R447: the PCI Express attention-button event to the downstream port. -/
  | attentionEvent
  /-- R419: a WMP response to the session of a path. -/
  | wmp (path : WmpPath) (msg : List Byte)
  /-- R421: the WMP status of a command that is a dictionary write. -/
  | status (v : Nat)
  /-- R483: the value a read of *debug_nonce* returned. -/
  | nonce (v : BitVec 256)
  /-- R426: the interrupt of mailbox channel 1 to a rubric core. -/
  | rubricIrq (k : Fin 24)
  /-- R476: an SPDM response. -/
  | spdm (path : SpdmPath) (r : SpdmReply)
  /-- R506: a PLDM message. -/
  | pldm (path : PldmPath) (r : PldmReply)
  /-- R425: an answer to an MCTP control message: the endpoint identifier, and the types listed. -/
  | mctp (bus : MctpBus) (eid : Byte) (types : List Byte)
  deriving DecidableEq, Repr

end Sys2Proof.Machine
end

