-- ==== Sys2Proof/Machine/StateWarden.lean ====
section
/-! DEFINITION. The state of the warden: the dictionary service and its side-band ports (R411 to R431), security and
firmware images (R469 to R485, R506 to R508), and the performance counters (R486 to R495). -/

namespace Sys2Proof.Machine

/-- R420: the pieces of a WRITE that a session has staged. -/
structure Staging where
  path : WmpPath
  index : Nat
  sub : Nat
  ty : Nat
  total : Nat
  bytes : List Byte
  time : Nat
  deriving DecidableEq, Repr

/-- R423: a response the warden keeps for a session. -/
structure KeptResp where
  path : WmpPath
  seq : Nat
  resp : List Byte
  time : Nat
  deriving DecidableEq, Repr

/-- R418: a write that waits for the commit it joined: where its answer goes (none: discarded), its seq, the entry and the
value, or a restore of every default. -/
structure CommitWrite where
  path : Option WmpPath
  seq : Nat
  index : Nat
  sub : Nat
  value : Nat
  restore : Bool
  deriving DecidableEq, Repr

/-- R426: one channel of the dictionary mailbox. -/
structure Mailbox where
  req : Cells 8
  rsp : List Byte
  busy : Bool
  done : Bool
  err : Bool
  goDrop : Bool
  vector : BitVec 11
  irqEn : Bool
  deriving DecidableEq, Repr

/-- The dictionary service, its store and the side-band ports. `store` is the image of the current bank and `older` that of the
other, `oldGood` while no commit into it was cut off; `quiet` marks a restart asked for, which writes no record (R508). -/
structure WardenState where
  up : Bool
  recovery : Bool
  staging : List Staging
  kept : List KeptResp
  commitNow : List CommitWrite
  commitNext : List CommitWrite
  store : Tab (Option Nat)
  older : Tab (Option Nat)
  oldGood : Bool
  quiet : Bool
  wmpErrors : W32
  storeCommits : W32
  notifyDropped : W32
  notifySeq : W16
  notifyRate : Tab UnitRate
  mailboxes : Vector Mailbox 2
  plcaFallback : Bool
  plcaFallbacks : Nat
  i3cAddr : Option (BitVec 7)
  mctpEid : Tab (Option Byte)
  deriving DecidableEq, Repr

/-- R476: how far an SPDM requester's connection has come: version, capabilities, algorithms. -/
structure SpdmConn where
  path : SpdmPath
  stage : Nat
  chunk : List Byte
  reply : List Byte
  deriving DecidableEq, Repr

/-- R476 to R481: an SPDM session: its path, its number, whether FINISH has come, its key generation and the global
time of its last traffic. -/
structure SpdmSession where
  path : SpdmPath
  id : Nat
  finished : Bool
  keyGen : Nat
  time : Nat
  deriving DecidableEq, Repr

/-- R506 to R508: the firmware update in progress. `scratch` is the image received. -/
structure UpdateState where
  state : Byte
  agent : Option PldmPath
  table : List Nat
  component : Nat
  scratch : List Byte
  size : Nat
  applied : List Nat
  pending : List Nat
  deriving DecidableEq, Repr

/-- Security and firmware images: the OTP (R469), debug (R483), measurements (R475), the SPDM responder (R476), the
boot-flash banks (key 2*component + bank) and the running images (key component). -/
structure SecState where
  lifecycle : BitVec 2
  revoked : BitVec 4
  svnMin : Vector W32 5
  debugScope : Byte
  debugNext : Byte
  rmaNext : Bool
  nonce : BitVec 256
  measure : Tab (BitVec 384)
  conns : List SpdmConn
  sessions : List SpdmSession
  images : Tab Image
  running : Tab Image
  bank : Tab Nat
  update : UpdateState
  wireEnc : Bool
  deriving DecidableEq, Repr

/-- R486: the counters of a memory-side or I/O die. -/
structure DieCounters where
  counters : Tab Counter
  base : W64
  limit : W64
  approx : W64
  deriving DecidableEq, Repr

/-- R491 to R493: the global block. Dies 0 to 3 are the memory-side dies, 4 and 5 the I/O dies. -/
structure PmcState where
  frozen : Bool
  resume : Bool
  snapErr : Bool
  cmdDrop : Bool
  snapAddr : W64
  snapSeq : W32
  freezeTime : W64
  dies : Vector DieCounters 6
  deriving DecidableEq, Repr

/-- A mailbox channel at reset. -/
def Mailbox.reset : Mailbox := ⟨[], [], false, false, false, false, 0, false⟩

/-- The warden before it has started. -/
def WardenState.reset : WardenState :=
  { up := false, recovery := false, staging := [], kept := [], commitNow := [], commitNext := [], store := [],
    older := [], oldGood := true, quiet := false, wmpErrors := 0, storeCommits := 0, notifyDropped := 0, notifySeq := 0,
    notifyRate := [], mailboxes := Vector.replicate 2 Mailbox.reset, plcaFallback := false, plcaFallbacks := 0,
    i3cAddr := none, mctpEid := [] }

/-- No update in progress (update_state 0). -/
def UpdateState.reset : UpdateState := ⟨0, none, [], 0, [], 0, [], []⟩

/-- No image. -/
def Image.absent : Image := ⟨0, 0, 0, false, 0⟩

/-- The boot flash as manufactured: both banks of the five components hold an image that passes R471 (log 8). -/
def factoryImages : Tab Image := (List.range 10).map (fun i => (i + 2, ⟨1, 0, 0, true, Config.factoryDigest ((i + 2) / 2)⟩))

/-- Security at reset. The OTP of a unit is not the manual's: life-cycle DEV, nothing revoked, every minimum version
0 (log 7); the boot flash is as manufactured (log 8). -/
def SecState.reset : SecState :=
  { lifecycle := 0, revoked := 0, svnMin := Vector.replicate 5 0, debugScope := 0, debugNext := 0,
    rmaNext := false, nonce := 0, measure := [], conns := [], sessions := [], images := factoryImages, running := [],
    bank := [], update := UpdateState.reset, wireEnc := true }

/-- The counters of a die at reset. -/
def DieCounters.reset : DieCounters := ⟨[], 0, 0, 0⟩

/-- The global counter block at reset (resume resets to 1). -/
def PmcState.reset : PmcState :=
  { frozen := false, resume := true, snapErr := false, cmdDrop := false, snapAddr := 0, snapSeq := 0,
    freezeTime := 0, dies := Vector.replicate 6 DieCounters.reset }

end Sys2Proof.Machine
end

