-- ==== Sys2Proof/Machine/State.lean ====
section
/-! DEFINITION. The state of the whole block, its faults and refusals, and the state right after reset. -/

namespace Sys2Proof.Machine

/-- Data on the package mesh (R62, R97): one SEND to one core, its 64 B units not yet in the inbound queue. -/
structure MeshSend where
  src : CoreNo
  dst : CoreNo
  tag : Nat
  data : List (BitVec 512 × Bool)
  deriving DecidableEq, Repr

/-- A barrier message on the mesh (R85): an arrival on its way to the home core. -/
structure MeshArrival where
  src : CoreNo
  home : CoreNo
  id : Nat
  parity : Bool
  count : Nat
  deriving DecidableEq, Repr

/-- A barrier release on its way to one core (R85). -/
structure MeshRelease where
  dst : CoreNo
  home : CoreNo
  id : Nat
  parity : Bool
  deriving DecidableEq, Repr

/-- What is on the package mesh, and the group tokens: the holder and the last holder of a group, keyed by its lowest
core (R66). -/
structure MeshState where
  sends : List MeshSend
  arrivals : List MeshArrival
  releases : List MeshRelease
  holder : Tab (Option CoreNo)
  lastHolder : Tab (Option CoreNo)
  deriving DecidableEq, Repr

/-- The block. `pending` is the queue of commands that wait, first in, first out. `draws` counts the free values drawn
so far (log 1); `out` is what has been sent to the outside (log 6). -/
structure State where
  pending : List Instr
  draws : Nat
  variant : Variant
  cores : Vector Core 128
  rubric : Vector Rubric 24
  mesh : MeshState
  mem : MemState
  xlate : Xlate
  fol : FolioState
  host : HostState
  clock : ClockState
  dieMap : DieMap
  parts : Vector Part 8
  log : LogState
  power : PowerState
  plug : PlugState
  modu : ModuleState
  link : LinkState
  dict : Tab (Option Nat)
  ward : WardenState
  sec : SecState
  pmc : PmcState
  out : List Out
  deriving DecidableEq, Repr

/-- The ways a step can stop with a fault. The manual's own faults are effects on the state (a core enters FAULTED,
an order completes with a code), so no meaning stops with one. -/
inductive Fault where
  /-- No command raises it. Safe: a stop allows no behaviour. -/
  | none
  deriving DecidableEq, Repr

/-- The ways a step can be refused. -/
inductive Refusal where
  /-- A command the model gives no meaning; raised by its arm of `exec` alone. Safe: nothing is claimed of it. -/
  | notModelled (mnemonic : String)
  deriving DecidableEq, Repr

/-- The mesh at reset: nothing in flight, no token held. -/
def MeshState.reset : MeshState := ⟨[], [], [], [], []⟩

/-- The block at reset: power-on from OFF, every register at its reset value (R505), an empty queue of commands. -/
def State.reset : State :=
  { pending := [], draws := 0, variant := .f64, cores := Vector.replicate 128 Core.reset,
    rubric := Vector.replicate 24 Rubric.reset, mesh := MeshState.reset, mem := MemState.reset, xlate := Xlate.reset,
    fol := FolioState.reset, host := HostState.reset, clock := ClockState.reset, dieMap := DieMap.reset,
    parts := Vector.replicate 8 Part.reset, log := LogState.reset, power := PowerState.reset,
    plug := PlugState.reset, modu := ModuleState.reset, link := LinkState.reset, dict := [], ward := WardenState.reset, sec := SecState.reset,
    pmc := PmcState.reset, out := [] }

end Sys2Proof.Machine
end

