-- ==== Sys2Proof/Machine/Ops.lean ====
section
/-! DEFINITION. Named operations over the state: accessors, dictionary values, counters, interrupts, notifications and
fault records. -/

namespace Sys2Proof.Machine

/-! Accessors -/

/-- The core of number `n`. -/
def State.core (s : State) (n : CoreNo) : Core := s.cores[n.val]

/-- Replaces a core. -/
def State.setCore (s : State) (n : CoreNo) (c : Core) : State := { s with cores := s.cores.set n.val c }

/-- Changes a core. -/
def State.modCore (s : State) (n : CoreNo) (f : Core → Core) : State := s.setCore n (f (s.core n))

/-- The rubric core Kn. -/
def State.rub (s : State) (k : Fin 24) : Rubric := s.rubric[k.val]

/-- Replaces a rubric core. -/
def State.setRub (s : State) (k : Fin 24) (r : Rubric) : State := { s with rubric := s.rubric.set k.val r }

/-- The partition of number `p`. -/
def State.part (s : State) (p : PartNo) : Part := s.parts[p.val]

/-- Replaces a partition. -/
def State.setPart (s : State) (p : PartNo) (x : Part) : State := { s with parts := s.parts.set p.val x }

/-- Changes a partition. -/
def State.modPart (s : State) (p : PartNo) (f : Part → Part) : State := s.setPart p (f (s.part p))

/-- Changes the memory system. -/
def State.modMem (s : State) (f : MemState → MemState) : State := { s with mem := f s.mem }

/-- Changes the host interface. -/
def State.modHost (s : State) (f : HostState → HostState) : State := { s with host := f s.host }

/-- The registers of a partition control block. -/
def State.preg (s : State) (p : PartNo) : PartRegs := s.mem.partRegs[p.val]

/-- Changes the registers of a partition control block. -/
def State.modPreg (s : State) (p : PartNo) (f : PartRegs → PartRegs) : State :=
  { s with mem := { s.mem with partRegs := s.mem.partRegs.set p.val (f (s.preg p)) } }

/-- The ruling of a partition. -/
def State.ruling (s : State) (p : PartNo) : Ruling := s.mem.rulings[p.val]

/-- Changes the ruling of a partition. -/
def State.modRuling (s : State) (p : PartNo) (f : Ruling → Ruling) : State :=
  { s with mem := { s.mem with rulings := s.mem.rulings.set p.val (f (s.ruling p)) } }

/-- Appends one thing sent to the outside (log 6). -/
def State.emit (s : State) (o : Out) : State := { s with out := s.out ++ [o] }

/-- Puts work on the state only when a condition holds. -/
def State.onlyIf (s : State) (c : Bool) (f : State → State) : State := if c then f s else s

/-- A partition number from any number (only the low three bits of a field name one). -/
def partOf (n : Nat) : PartNo := ⟨n % 8, Nat.mod_lt _ (by decide)⟩

/-- A core number from any number. -/
def coreOf (n : Nat) : CoreNo := ⟨n % 128, Nat.mod_lt _ (by decide)⟩

/-- A compute-die number from any number. -/
def cdieOf (n : Nat) : CDie := ⟨n % 8, Nat.mod_lt _ (by decide)⟩

/-- A port number from any number. -/
def portOf (n : Nat) : PortNo := ⟨n % 32, Nat.mod_lt _ (by decide)⟩

/-- All partitions. -/
def allParts : List PartNo := (List.range 8).map partOf

/-- All cores, in linear order. -/
def allCores : List CoreNo := (List.range 128).map coreOf

/-- R3: the compute die of a core. Cores are numbered 16*y + x; die c holds columns and rows of a 4 by 4 block: c mod 4
is its column block and c / 4 its row block. -/
def dieOfCore (n : CoreNo) : CDie := cdieOf (n.val % 16 / 4 + 4 * (n.val / 16 / 4))

/-- The cores of a compute die. -/
def coresOfDie (c : CDie) : List CoreNo := allCores.filter (fun n => decide (dieOfCore n = c))

/-- The partition that owns a compute die (R362), if any. -/
def State.partOfDie (s : State) (c : CDie) : Option PartNo :=
  allParts.find? (fun p => decide ((s.part p).mode ≠ .unformed) && (s.part p).dies.getLsbD c.val)

/-- The partition that owns a core's die. -/
def State.partOfCore (s : State) (n : CoreNo) : Option PartNo := s.partOfDie (dieOfCore n)

/-- R2, R3: the compute die of a rubric core. -/
def dieOfHart (k : Fin 24) : CDie := cdieOf (k.val / 3)

/-- The partition of a rubric core. -/
def State.hartPart (s : State) (k : Fin 24) : Option PartNo := s.partOfDie (dieOfHart k)

/-- Changes a rubric core. -/
def State.modRub (s : State) (k : Fin 24) (f : Rubric → Rubric) : State := s.setRub k (f (s.rub k))

/-- R3: the memory-side die that serves a compute die's share. -/
def mdieOf (c : CDie) : MDie := ⟨c.val / 2 % 4, Nat.mod_lt _ (by decide)⟩

/-- The lowest compute die of a partition. -/
def lowestDie (m : BitVec 8) : Option CDie := ((List.range 8).map cdieOf).find? (fun c => m.getLsbD c.val)

/-- A mask's members, ascending. -/
def maskDies (m : BitVec 8) : List CDie := ((List.range 8).map cdieOf).filter (fun c => m.getLsbD c.val)

/-- The compute dies of a partition, ascending. -/
def State.diesOf (s : State) (p : PartNo) : List CDie := maskDies (s.part p).dies

/-- The cores of a partition, ascending. -/
def State.coresOf (s : State) (p : PartNo) : List CoreNo :=
  allCores.filter (fun n => decide (s.partOfCore n = some p))

/-! Free values -/

/-- Draws one free value: the counter of draws advances (log 1). -/
def State.draw (s : State) : State := { s with draws := s.draws + 1 }

/-- A quotient whose rounding the manual does not give: exact where it is exact, else one of its two neighbours (a free value,
log 1). -/
def State.roundFree (s : State) (num : Int) (den : Nat) : Int :=
  if num % (den : Int) = 0 then num / (den : Int) else num / (den : Int) + (Config.freeNat s.draws % 2 : Nat)

/-! Ballast (R437) -/

/-- R437: ballast of one core at the current root step. -/
def ballastPer (step : BitVec 2) : Nat :=
  match step.toNat with
  | 0 => 140
  | 1 => 107
  | _ => 79

/-- R437: the cores that run ballast, and PWR_STATUS.ballast in watts. -/
def State.setBallast (s : State) (m : BitVec 128) : State :=
  let count := ((List.range 128).filter (fun i => m.getLsbD i)).length
  let w := s.roundFree (count * ballastPer s.clock.rootStep : Nat) 10
  { s.draw with power := { s.power with ballastOn := m, ballast := BitVec.ofInt 11 w } }

/-- R437: the ballast of a core stops when its program begins a compute phase. -/
def State.dropBallast (s : State) (n : CoreNo) : State :=
  if s.power.ballastOn.getLsbD n.val then s.setBallast (s.power.ballastOn &&& ~~~(BitVec.ofNat 128 (2 ^ n.val))) else s

/-! Dictionary values -/

/-- The stored value of an entry, or its default (R417). -/
def State.dictVal (s : State) (idx sub : Nat) : Nat :=
  match Tab.get none s.dict (dictKey idx sub) with
  | some v => v
  | none => match dictRow idx sub with
    | some r => r.dflt
    | none => 0

/-- Stores the value of an entry. -/
def State.setDict (s : State) (idx sub v : Nat) : State :=
  { s with dict := Tab.set none s.dict (dictKey idx sub) (some v) }

/-! Time -/

/-- Ticks of global time in one microsecond (R40: 1.200 GHz). -/
def usTicks : Nat := 1200

/-- Ticks of global time in one millisecond. -/
def msTicks : Nat := 1200000

/-- Ticks of global time in one second. -/
def secTicks : Nat := 1200000000

/-- Global time now. -/
def State.now (s : State) : Nat := s.clock.time.toNat

/-! Performance counters (R486 to R495) -/

/-- Adds to a 48-bit counter, saturating (R486). -/
def Counter.add (c : Counter) (n : Nat) : Counter :=
  if c.sat then c
  else if c.value.toNat + n ≥ 2 ^ 48 then { c with value := BitVec.allOnes 48, sat := true }
  else { c with value := c.value + BitVec.ofNat 48 n }

/-- The select register of a counter that was never programmed: priv_mask 0b111 and, on a die, every mask and port. -/
def selReset (die : Bool) : Nat := if die then 0x7E0FFE00 else 0xE00

/-- R488: the select of a core counter takes the event. -/
def coreSelects (sel : Nat) (priv ev : Nat) : Bool :=
  decide (bits sel 0 8 = ev) && bitOf sel 8 && bitOf (bits sel 9 3) priv && decide (ev ≠ 0)

/-- R488, R495: an event of a core, with its increment. -/
def State.countCore (s : State) (n : CoreNo) (ev inc : Nat) : State :=
  if s.pmc.frozen then s
  else s.modCore n (fun c =>
    let cs := c.counters.map (fun e => if coreSelects e.2.sel.toNat c.priv.toNat ev then (e.1, e.2.add inc) else e)
    { c with counters := cs })

/-- R488, R489: an event at a memory-side die: its privilege, master, class, partition and unified address. -/
structure DieEvent where
  ev : Nat
  inc : Nat
  priv : Nat
  master : Nat
  cls : Nat
  part : Option PartNo
  addr : Option Nat
  port : Option Nat
  deriving DecidableEq, Repr

/-- R488: the select of a die counter takes the event. -/
def DieCounters.selects (d : DieCounters) (sel : Nat) (e : DieEvent) : Bool :=
  decide (bits sel 0 8 = e.ev) && bitOf sel 8 && decide (e.ev ≠ 0) && bitOf (bits sel 9 3) e.priv &&
  bitOf (bits sel 12 4) e.master && bitOf (bits sel 16 4) e.cls &&
  (!bitOf sel 20 || match e.addr with
    | some a => decide (d.base.toNat / 65536 ≤ a / 65536) && decide (a / 65536 ≤ d.limit.toNat / 65536)
    | none => true) &&
  (!bitOf sel 24 || match e.part with
    | some p => decide (p.val = bits sel 21 3)
    | none => true) &&
  (match e.port with
    | some p => decide (bits sel 25 6 = 0x3F) || decide (bits sel 25 6 = p)
    | none => true)

/-- Counts an event at die `d` (0 to 3 memory-side, 4 and 5 I/O). -/
def State.countDie (s : State) (d : Nat) (e : DieEvent) : State :=
  if s.pmc.frozen then s
  else match s.pmc.dies[d]? with
    | none => s
    | some x =>
      let cs := x.counters.map (fun c => if x.selects c.2.sel.toNat e then (c.1, c.2.add e.inc) else c)
      { s with pmc := { s.pmc with dies := s.pmc.dies.setIfInBounds d { x with counters := cs } } }

/-- R495: the internal count of class B approximate paths at a memory-side die, never frozen. -/
def State.countApprox (s : State) (m : Nat) : State :=
  match s.pmc.dies[m]? with
  | none => s
  | some x => { s with pmc := { s.pmc with dies := s.pmc.dies.setIfInBounds m { x with approx := x.approx + 1 } } }

/-! Interrupts (R407) -/

/-- R407: raises MSI-X vector `v` of function `fn`; a masked vector sets its pending bit instead. -/
def State.raiseVector (s : State) (fn v : Nat) : State :=
  let k := 4096 * fn + v
  if s.host.msixUnmasked.get k = 1 then s.emit (.msix fn v)
  else s.modHost (fun h => { h with msixPending := h.msixPending.set k 1 })

/-- R392: the VF bound to a partition and enabled, 1 to 8. -/
def State.vfOf (s : State) (p : PartNo) : Option Nat :=
  ((List.range 8).find? (fun i => s.host.vfEnabled.getLsbD i && decide (s.dictVal 0x5200 (i + 1) = p.val))).map (· + 1)

/-- R407: a partition event: the pending bit of HQ_PW_EVENT, and its vector on the partition's VF. -/
def State.partitionEvent (s : State) (p : PartNo) : State :=
  let w := s.host.windows[p.val]
  let s1 := s.modHost (fun h => { h with windows := h.windows.set p.val { w with evPending := true } })
  if w.evEnable then
    match s.vfOf p with
    | some f => s1.raiseVector f w.evVector.toNat
    | none => s1
  else s1

/-! Notifications (R428) -/

/-- The time and count of a target's notifications in the current second. -/
def UnitRate.none : UnitRate := ⟨0, 0, 0⟩

/-- R476: a secured session is open with the notification target (0 UDP, 1 MCTP). -/
def State.targetSecured (s : State) (t : Nat) : Bool :=
  s.sec.sessions.any (fun x => x.finished && match x.path with
    | .udp a p => decide (t = 0) && decide (s.dictVal 0x2F00 1 = a.toNat + p.toNat * 2 ^ 128)
    | .i3c e => decide (t = 1) && decide (s.dictVal 0x2F00 2 = e.toNat)
    | .pcie e => decide (t = 1) && decide (s.dictVal 0x2F00 2 = e.toNat)
    | _ => false)

/-- R428: sends to one target, within 100 per second; beyond it the notification is counted and not sent. -/
def State.notifyTarget (s : State) (t idx sub : Nat) (v : List Byte) : State :=
  if s.dictVal 0x2F00 (t + 1) = 0 then s
  else
    let sec := s.now / secTicks
    let r0 := Tab.get UnitRate.none s.ward.notifyRate t
    let r := if r0.second = sec then r0 else ⟨sec, 0, 0⟩
    if r.count ≥ 100 then
      { s with ward := { s.ward with notifyDropped := s.ward.notifyDropped + 1 } }
    else
      ({ s with ward := { s.ward with notifyRate := Tab.set UnitRate.none s.ward.notifyRate t { r with count := r.count + 1 } } }).emit
        (.notify t (s.targetSecured t) s.ward.notifySeq idx sub v)

/-- R428: a notification to each target that is set; seq advances by 1 for it. -/
def State.notify (s : State) (idx sub : Nat) (v : List Byte) : State :=
  let s1 := (s.notifyTarget 0 idx sub v).notifyTarget 1 idx sub v
  { s1 with ward := { s1.ward with notifySeq := s1.ward.notifySeq + 1 } }

/-! Fault records (R457 to R461) -/

/-- The level of a record (R457, R464). -/
inductive Level where
  | corrected | operation | core | die | partition | module
  deriving DecidableEq, Repr

/-- R457: the number of a level. -/
def Level.num : Level → Nat
  | .corrected => 0 | .operation => 1 | .core => 2 | .die => 3 | .partition => 4 | .module => 5

/-- What a unit reports: a record but for its time, number and rate fields. -/
structure Report where
  code : Nat
  die : Nat
  part : Nat
  unit : Nat
  level : Level
  detail : List Byte
  deriving DecidableEq, Repr

/-- R457: U64 items of detail in the order named. -/
def u64s (l : List Nat) : List Byte := l.flatMap (leBytes 8)

/-- R457: the 64 bytes of a record. -/
def FaultRec.bytes (r : FaultRec) : List Byte :=
  leBytes 8 r.time.toNat ++ leBytes 4 r.seq.toNat ++ leBytes 2 r.code.toNat ++ [r.die, r.partition] ++
  leBytes 2 r.unit.toNat ++ [BitVec.ofNat 8 (r.level.toNat + flagAt r.persisted 3), 0] ++
  leBytes 2 r.suppressed.toNat ++ [0, 0] ++ (r.detail ++ List.replicate 40 0).take 40

/-- R460, R461: the partition whose event a record raises: the one it names, or the owner of its compute die. -/
def State.recordPart (s : State) (r : Report) : Option PartNo :=
  if r.part < 8 then some (partOf r.part)
  else if r.die < 8 then s.partOfDie (cdieOf r.die)
  else none

/-- R457, R461: writes a record into the log, with `dropped` records of its unit lost before it. -/
def State.logRecord (s : State) (r : Report) (dropped : Nat) : State :=
  let seq := s.log.newest + 1
  let pers := decide (3 ≤ r.level.num)
  let rec0 : FaultRec :=
    { time := s.clock.time, seq := seq, code := BitVec.ofNat 16 r.code, die := BitVec.ofNat 8 r.die,
      partition := BitVec.ofNat 8 r.part, unit := BitVec.ofNat 16 r.unit, level := BitVec.ofNat 3 r.level.num,
      persisted := pers, suppressed := BitVec.ofNat 16 (min 65535 dropped), detail := r.detail }
  let k := seq.toNat % 1024
  let unread := (Tab.get none s.log.ring k).isSome && decide (s.log.read.get k = 0)
  let lg := { s.log with
    newest := seq, records := s.log.records + 1, wrapped := s.log.wrapped || unread,
    ring := Tab.set none s.log.ring k (some rec0), read := s.log.read.set k 0,
    persisted := if pers then Tab.set none s.log.persisted (s.log.persistedNext % 64) (some rec0) else s.log.persisted,
    persistedNext := if pers then s.log.persistedNext + 1 else s.log.persistedNext }
  let s1 := { s with log := lg }
  let s2 := s1.notify 0x7000 0 rec0.bytes
  let s3 := s2.modHost (fun h => { h with irq := { h.irq with faultPending := true } })
  let s4 := if s.host.irq.faultEn then s3.raiseVector 0 s.host.irq.faultVec.toNat else s3
  match s.recordPart r with
  | some p => (s4.emit (.rubricRecord p rec0.bytes)).partitionEvent p
  | none => s4

/-- R460: a unit's record, within 1,000 per second of global time; a record that takes its unit out of service (level
2 or higher) is never dropped. -/
def State.report (s : State) (r : Report) : State :=
  let key := r.die * 65536 + r.unit
  let sec := s.now / secTicks
  let u0 := Tab.get UnitRate.none s.log.rates key
  let u := if u0.second = sec then u0 else { u0 with second := sec, count := 0 }
  if u.count ≥ 1000 ∧ r.level.num < 2 then
    { s with log := { s.log with suppressed := s.log.suppressed + 1, suppressedFlag := true,
                                 rates := Tab.set UnitRate.none s.log.rates key { u with dropped := u.dropped + 1 } } }
  else
    let s1 := { s with log := { s.log with
      rates := Tab.set UnitRate.none s.log.rates key { u with count := u.count + 1, dropped := 0 } } }
    s1.logRecord r u.dropped

/-- R458: unit codes. -/
def unitCore (n : CoreNo) : Nat := n.val
def unitRubric (k : Fin 24) : Nat := 0x0100 + k.val
def unitMigration (m : Nat) : Nat := 0x0500 + m % 16
def unitInkwell : Nat := 0x0600
def unitRerank : Nat := 0x0601
def unitSlice : Nat := 0x0602
def unitPort (p : PortNo) : Nat := 0x0700 + p.val
def unitRing : Nat := 0x0A00
def unitCollective : Nat := 0x0A01
def unitTransport : Nat := 0x0A02
def unitEndpoint : Nat := 0x0B00
def unitQueue : Nat := 0x0B01
def unitGovernor : Nat := 0x0C00
def unitThermal : Nat := 0x0C01
def unitHotSwap : Nat := 0x0C02
def unitWarden : Nat := 0x0D00
def unitStore : Nat := 0x0D01

/-- The partition byte of a record. -/
def partByte (p : Option PartNo) : Nat := match p with | some q => q.val | none => 0xFF

/-- The die number of X0 and X1 in a record (R457). -/
def dieX0 : Nat := 12
def dieX1 : Nat := 13

/-- The die number of a memory-side die in a record (R457). -/
def dieM (m : MDie) : Nat := 8 + m.val

/-- A record of the module as a whole. -/
def moduleReport (code : Nat) (lvl : Level) (detail : List Byte) : Report := ⟨code, 0xFF, 0xFF, unitWarden, lvl, detail⟩

/-! Ports (R318, R351, R355) -/

/-- A physical port. -/
def State.port (s : State) (p : PortNo) : Port := s.link.ports[p.val]

/-- R318: the die of a port, as a counter die (R486) and as a record's die. -/
def portCounterDie (p : PortNo) : Nat := if p.val < 16 then 4 else 5

/-- R495: counts an event of a port. -/
def State.countPort (s : State) (p : PortNo) (ev inc lane : Nat) : State :=
  s.countDie (portCounterDie p) ⟨ev, inc, 0, 3, lane, none, none, some p.val⟩

/-- R355: the physical port of a logical one. -/
def State.physOf (s : State) (l : Nat) : PortNo := if h : l < 32 then s.link.map[l] else portOf l

/-- R335, R351: the fabric address of the module. -/
def State.address (s : State) : W32 := s.link.address

/-- R351: a Haros message's dst is this module's address, and its dst_part names a partition formed here. -/
def State.addressed (s : State) (dst : W32) (part : Nat) : Bool :=
  decide (dst = s.address) && decide (part < 8) && decide ((s.part (partOf part)).mode ≠ .unformed)

end Sys2Proof.Machine
end

