-- ==== Sys2Proof/Machine/MemOps.lean ====
section
/-! DEFINITION. Unified memory: granules and poison (R234, R235), frames, free lists and quotas (R210, R216, R217, R223
to R226), and translation (R47, R48, R211, R215). -/

namespace Sys2Proof.Machine

/-! Ranges (R44, R208) -/

/-- Frames of one share of a tier (R44, R216); 0 for tier 3. -/
def shareFrames (v : Variant) (tier : Nat) : Nat :=
  match tier with
  | 0 => 0x240000
  | 1 => 0x400000
  | 2 => match v with
    | .f64 => 0x8000000
    | .f32 => 0x4000000
  | _ => 0

/-- Frames between the bases of two neighbouring shares of a tier. -/
def shareStep (tier : Nat) : Nat :=
  match tier with
  | 0 => 0x240000
  | 1 => 0x400000
  | 2 => 0x8000000
  | _ => 1

/-- First frame of a tier (R44). -/
def tierBase (tier : Nat) : Nat :=
  match tier with
  | 0 => 0
  | 1 => 0x2000000
  | _ => 0x40000000

/-- The tier in whose range a frame lies (R211), implemented or not; none outside every range. -/
def tierOfFrame (f : Nat) : Option Nat :=
  if f < 0x1200000 then some 0
  else if 0x2000000 ≤ f ∧ f < 0x4000000 then some 1
  else if 0x40000000 ≤ f ∧ f < 0x80000000 then some 2
  else none

/-- The compute die whose share holds the frame (R44). -/
def dieOfFrame (f : Nat) : CDie :=
  match tierOfFrame f with
  | some t => cdieOf ((f - tierBase t) / shareStep t)
  | none => 0

/-- The frame's place within its share. -/
def frameIndex (f : Nat) : Nat :=
  match tierOfFrame f with
  | some t => (f - tierBase t) % shareStep t
  | none => 0

/-- The first frame of a share. -/
def shareBase (tier : Nat) (c : CDie) : Nat := tierBase tier + c.val * shareStep tier

/-- R44, R45: the frame is implemented. -/
def State.implemented (s : State) (f : Nat) : Bool :=
  match tierOfFrame f with
  | some t => decide (frameIndex f < shareFrames s.variant t)
  | none => false

/-- R209, R458: the die and unit that hold a unified address: the stack, package or channel of the exclusive-or fold. -/
def State.unitOf (s : State) (a : Nat) : Nat × Nat :=
  let f := a / 65536
  let c := dieOfFrame f
  let key := (Tab.get 0 s.mem.shareKey c.val).toNat
  let m := 8 + c.val / 2
  match tierOfFrame f with
  | some 0 =>
    let x := [12, 16, 20, 24, 28, 32].foldl (fun x i => x ^^^ bits a i 2) (bits key 0 2)
    (m, 0x0200 + 4 * c.val + x)
  | some 1 =>
    let x := [10, 14, 18, 22].foldl (fun x i => x ^^^ bits a i 1) (bits key 2 1)
    (m, 0x0300 + 2 * c.val + x)
  | some _ =>
    let x := [12, 17, 22].foldl (fun x i => x ^^^ bits a i 3) (bits key 3 3)
    (m, 0x0400 + 8 * c.val + x)
  | none => (0xFF, 0x0200)

/-! Granules (R234, R235) -/

/-- A granule as read: its 64 bytes and its poison. -/
structure Gran where
  data : BitVec 512
  poison : Bool
  deriving DecidableEq, Repr

/-- Byte `i` of a granule. -/
def granByte (d : BitVec 512) (i : Nat) : Byte := d.extractLsb' (8 * i) 8

/-- The 64 bytes of a granule. -/
def granBytes (d : BitVec 512) : List Byte := (List.range 64).map (granByte d)

/-- A granule from its bytes. -/
def granOf (bs : List Byte) : BitVec 512 := BitVec.ofNat 512 (ofLeBytes bs)

/-- A granule with bytes from `off` replaced. -/
def patchGran (d : BitVec 512) (off : Nat) (bs : List Byte) : BitVec 512 :=
  granOf ((granBytes d).take off ++ bs ++ (granBytes d).drop (off + bs.length))

/-- A granule at its home. A granule with an uncorrectable error not yet found reads as poisoned (R235). -/
def State.homeGran (s : State) (g : Nat) : Gran :=
  ⟨BitVec.ofNat 512 (s.mem.cells.getLE (64 * g) 64),
   decide (s.mem.poison.get g = 1) || decide (s.mem.latent.get g = 1)⟩

/-- R199: the set is not armed: its window, counts and buffer are gone. -/
def McastSet.disarmed (x : McastSet) : McastSet :=
  { x with window := none, counts := Vector.replicate 32 0, lines := [], lead := 0, held := [] }

/-- R200: a write into an armed window disarms its set. -/
def State.disarmAt (s : State) (ua : Nat) : State :=
  if s.link.mcast.any (fun e => e.2.window.isSome) then
    let one (x : McastSet) : McastSet := match x.window with
      | some w => if w.1 ≤ ua ∧ ua < w.1 + 65536 * w.2 then x.disarmed else x
      | none => x
    { s with link := { s.link with mcast := Tab.mapVals McastSet.reset one s.link.mcast } }
  else s

/-- R214: the translation caches let go what lies in a range that is written. -/
def State.forget (s : State) (ua n : Nat) : State := { s with xlate := s.xlate.forget ua n }

/-- Writes a whole granule at its home with a mark (R235: a write of all 64 bytes sets the mark anew). -/
def State.setHomeGran (s : State) (g : Nat) (x : Gran) : State :=
  ((s.disarmAt (64 * g)).forget (64 * g) 64).modMem (fun m =>
    { m with cells := m.cells.setLE (64 * g) 64 x.data.toNat,
             poison := m.poison.set g (BitVec.ofBool x.poison), latent := m.latent.set g 0 })

/-- Poisons a granule at its home. -/
def State.poisonGran (s : State) (g : Nat) : State :=
  s.modMem (fun m => { m with poison := m.poison.set g 1, latent := m.latent.set g 0 })

/-- Clears a whole frame to zeros with no mark (R402 zero, R364, R498), a write as R200 says. -/
def State.zeroFrame (s : State) (f : Nat) : State :=
  ((s.disarmAt (65536 * f)).forget (65536 * f) 65536).modMem (fun m =>
    { m with cells := m.cells.clearRange (65536 * f) 65536,
             poison := m.poison.clearRange (1024 * f) 1024, latent := m.latent.clearRange (1024 * f) 1024 })

/-- Copies a frame's bytes and marks to another frame (R220, R235), a write as R200 says. -/
def State.copyFrame (s : State) (src dst : Nat) : State :=
  let bad := Cells.slice (s.mem.poison ++ s.mem.latent) (1024 * src) 1024
  ((s.disarmAt (65536 * dst)).forget (65536 * dst) 65536).modMem (fun m =>
    { m with cells := m.cells.splice (65536 * dst) 65536 (m.cells.slice (65536 * src) 65536),
             poison := (bad.foldl (fun ps e => Cells.set ps (1024 * dst + e.1) 1) (m.poison.clearRange (1024 * dst) 1024)),
             latent := m.latent.clearRange (1024 * dst) 1024 })

/-- Which bytes a reader sees (R241, R255): the homes, an open folio of its own, a snapshot. -/
inductive View where
  | plain
  | own (journal : List JGran)
  | snap (sid : Nat)
  deriving DecidableEq, Repr

/-- R254: `a` comes after `b` in serial order within reach. -/
def serialAfter (a b : W32) : Bool := decide (0 < (a - b).toNat) && decide ((a - b).toNat < 2 ^ 30)

/-- The folio in a slot. -/
def State.slot (s : State) (id : Nat) : Folio := Tab.get Folio.reset s.fol.slots id

/-- Replaces a folio slot. -/
def State.setSlot (s : State) (id : Nat) (f : Folio) : State :=
  { s with fol := { s.fol with slots := Tab.set Folio.reset s.fol.slots id f } }

/-- The journaled granule of a journal. -/
def journalFind (j : List JGran) (g : Nat) : Option JGran := j.find? (fun x => decide (x.gran = g))

/-- R241, R235: a folio's own bytes merged over the home, and the mark the granule then has. -/
def JGran.over (j : JGran) (h : Gran) : Gran :=
  ⟨granOf ((List.range 64).map (fun i => if j.mask.getLsbD i then granByte j.data i else granByte h.data i)),
   j.poison || (!j.whole && h.poison)⟩

/-- R255: the pre-image of a granule as of epoch `e`: the one kept by the first seal after `e`. -/
def State.preAsOf (s : State) (p : PartNo) (e : W32) (g : Nat) : Option PreImage :=
  (s.fol.preimages.filter (fun x => decide (x.part = p) && decide (x.gran = g) && serialAfter x.epoch e)).foldl
    (fun best x => match best with
      | none => some x
      | some b => if serialAfter b.epoch x.epoch then some x else some b) none

/-- A granule as a reader sees it (R241, R247, R255). -/
def State.gran (s : State) (v : View) (g : Nat) : Gran :=
  match v with
  | .plain => s.homeGran g
  | .own l => match journalFind l g with
    | some j => j.over (s.homeGran g)
    | none => s.homeGran g
  | .snap sid => match Tab.get none s.fol.snaps sid with
    | none => s.homeGran g
    | some sn => match s.preAsOf sn.part sn.epoch g with
      | some x => ⟨x.data, x.poison⟩
      | none => s.homeGran g

/-- The granules of a stretch of unified addresses. -/
def gransOf (ua n : Nat) : List Nat := if n = 0 then [] else (List.range ((ua + n - 1) / 64 - ua / 64 + 1)).map (· + ua / 64)

/-- The bytes at a unified address as a reader sees them, and whether any of their granules is poisoned. -/
def State.readUa (s : State) (v : View) (ua n : Nat) : List Byte × Bool :=
  let gs := (gransOf ua n).map (s.gran v)
  (((gs.flatMap (fun x => granBytes x.data)).drop (ua % 64)).take n, gs.any (fun x => x.poison))

/-- The little-endian number at a unified address. -/
def State.readLe (s : State) (v : View) (ua n : Nat) : Nat × Bool :=
  let r := s.readUa v ua n
  (ofLeBytes r.1, r.2)

/-- R459: the detail of UNCORRECTABLE and CORRECTED_LIMIT. -/
def memDetail (addr tier finder events nbits : Nat) : List Byte :=
  leBytes 8 addr ++ leBytes 1 tier ++ leBytes 1 finder ++ leBytes 2 events ++ leBytes 2 nbits

/-- R463: the detail of FRAME_RETIRED. -/
def retiredDetail (f listed : Nat) (full : Bool) : List Byte :=
  leBytes 8 (65536 * f) ++ [if full then 0xFF else BitVec.ofNat 8 ((tierOfFrame f).getD 0)] ++ leBytes 2 listed

/-- R217, R463: places a frame on its memory-side die's retire list; none when the list is full. -/
def State.listRetire (s : State) (f : Nat) : State :=
  let m := (mdieOf (dieOfFrame f)).val
  let l := Tab.get [] s.mem.retireList m
  if f ∈ l then s
  else if l.length < 4096 then s.modMem (fun x => { x with retireList := Tab.set [] x.retireList m (l ++ [f]) })
  else s.report ⟨0x020D, 8 + m, 0xFF, unitMigration (4 * m), .operation, retiredDetail f 4096 true⟩

/-- R235, R452: a read that finds an uncorrectable error writes the mark back and reports it once. `finder` is that of
R459; the symbols in error of an HBM granule are a free number (log 1). -/
def State.touchGran (s : State) (finder : Nat) (p : Option PartNo) (g : Nat) : State :=
  if s.mem.latent.get g = 0 then s
  else
    let f := g / 1024
    let ev := s.mem.frameEvents.get f
    let ev1 := if ev = 0xFFFF then ev else ev + 1
    let u := s.unitOf (64 * g)
    let hbm := decide (tierOfFrame f = some 0)
    let s0 := if hbm then s.draw else s
    let s1 := (s0.poisonGran g).modMem (fun m => { m with frameEvents := m.frameEvents.set f ev1 })
    let s2 := s1.report ⟨0x0202, u.1, partByte p, u.2, .operation,
      memDetail (64 * g) ((tierOfFrame f).getD 0) finder ev1.toNat (if hbm then Config.freeNat s.draws else 0)⟩
    let s3 := s2.countDie (u.1 - 8) ⟨0x1C, 1, 0, 2, 3, p, some (64 * g), none⟩
    if (tierOfFrame f).getD 2 < 2 ∧ s.dictVal 0x7010 3 ≤ ev1.toNat then s3.listRetire f else s3

/-- Touches the granules of a read (R235). -/
def State.touch (s : State) (finder : Nat) (p : Option PartNo) (ua n : Nat) : State :=
  if s.mem.latent.isEmpty then s else (gransOf ua n).foldl (fun t g => t.touchGran finder p g) s

/-- Touches a whole frame (R235). -/
def State.touchFrame (s : State) (finder : Nat) (p : Option PartNo) (f : Nat) : State := s.touch finder p (65536 * f) 65536

/-! Frames (R216, R217) -/

/-- R216: a frame-table entry's fields; `state` is 0 FREE, 1 ALLOCATED, 2 RETIRING, 3 RETIRED. -/
structure FrameEnt where
  refs : Nat
  state : Nat
  part : PartNo
  classB : Bool
  pinned : Bool
  table : Bool
  weight : Bool
  deriving DecidableEq, Repr

/-- R216: the fields of a frame-table entry. -/
def FrameEnt.ofWord (w : W32) : FrameEnt :=
  let n := w.toNat
  ⟨bits n 0 16, bits n 16 2, partOf (bits n 18 3), bitOf n 21, bitOf n 22, bitOf n 23, bitOf n 24⟩

/-- R216: a frame-table entry from its fields. -/
def FrameEnt.word (e : FrameEnt) : W32 :=
  BitVec.ofNat 32 (e.refs % 65536 + e.state % 4 * 2 ^ 16 + e.part.val * 2 ^ 18 + flagAt e.classB 21 + flagAt e.pinned 22 +
    flagAt e.table 23 + flagAt e.weight 24)

/-- R499: the frame is flash of a share whose scan failed: RETIRED for this power cycle. -/
def State.scanFailed (s : State) (f : Nat) : Bool := decide (tierOfFrame f = some 2) && s.mem.flashOut.getLsbD (dieOfFrame f).val

/-- The frame-table entry of a frame. -/
def State.frame (s : State) (f : Nat) : FrameEnt :=
  let e := FrameEnt.ofWord (s.mem.frames.get f)
  if s.scanFailed f then { e with state := 3 } else e

/-- The key of a share's tier in tables: 8*tier + die. -/
def shareKeyOf (tier : Nat) (c : CDie) : Nat := 8 * tier + c.val

/-- R216: where the frame's entry lies in memory, when its share's MSD_FT_BASE is set. -/
def State.ftAddr (s : State) (f : Nat) : Option Nat :=
  match tierOfFrame f with
  | none => none
  | some t =>
    let b := (Tab.get 0 s.mem.ftBase (shareKeyOf t (dieOfFrame f))).toNat
    if b = 0 then none else some (b + 4 * frameIndex f)

/-- Writes a frame-table entry, and its image at MSD_FT_BASE (R216). -/
def State.setFrame (s : State) (f : Nat) (e : FrameEnt) : State :=
  let s1 := s.modMem (fun m => { m with frames := m.frames.set f e.word })
  match s1.ftAddr f with
  | none => s1
  | some a =>
    let g := s1.homeGran (a / 64)
    s1.modMem (fun m => { m with cells := m.cells.setLE a 4 e.word.toNat, poison := m.poison.set (a / 64) (BitVec.ofBool g.poison) })

/-- R216: writes the entries of a share's frame table into memory from `b` on; `n` is the table's length in bytes. -/
def State.tableImage (s : State) (tier : Nat) (c : CDie) (b n : Nat) (m : Cells 8) : Cells 8 :=
  (s.mem.frames.filter (fun e => decide (tierOfFrame e.1 = some tier) && decide (dieOfFrame e.1 = c) && decide (4 * frameIndex e.1 < n))).foldl
    (fun m e => m.setLE (b + 4 * frameIndex e.1) 4 e.2.toNat) (m.clearRange b n)

/-- R216: a share's frame table is written whole where MSD_FT_BASE says. -/
def State.imageTable (s : State) (tier : Nat) (c : CDie) : State :=
  let b := (Tab.get 0 s.mem.ftBase (shareKeyOf tier c)).toNat
  if b = 0 then s
  else
    let n := 4 * shareFrames s.variant tier
    s.modMem (fun m => { m with cells := s.tableImage tier c b n m.cells, poison := m.poison.clearRange (b / 64) (n / 64),
                                latent := m.latent.clearRange (b / 64) (n / 64) })

/-- R456: the frame's entry lies in a poisoned granule of its frame table. -/
def State.frameBad (s : State) (f : Nat) : Bool :=
  match s.ftAddr f with
  | none => false
  | some a => (s.homeGran (a / 64)).poison

/-- R212, R261, R291: the frame holds page tables, a frame table, the context table or the index table. -/
def State.isTable (s : State) (f : Nat) : Bool :=
  (s.frame f).table ||
  s.mem.ftBase.any (fun e => let b := e.2.toNat / 65536
                             decide (b ≤ f) && decide (f < b + 4 * shareFrames s.variant (e.1 / 8) / 65536)) ||
  s.mem.ctxBase.any (fun e => bitOf e.2.toNat 0 && decide (e.2.toNat / 65536 ≤ f) && decide (f < e.2.toNat / 65536 + 128)) ||
  s.mem.codexBase.any (fun e => bitOf e.2.toNat 0 && decide (f = e.2.toNat / 65536))

/-- The frames a test holds for, among those with an entry. -/
def State.countFrames (s : State) (q : Nat → FrameEnt → Bool) : Nat :=
  (s.mem.frames.filter (fun e => q e.1 (FrameEnt.ofWord e.2))).length

/-- R224: pages charged to a partition in a tier and class. R259: the journal and version areas of a formed partition are
class P frames of HBM charged to it. -/
def State.usage (s : State) (p : PartNo) (tier : Nat) (b : Bool) : Nat :=
  s.countFrames (fun f e => decide (e.part = p) && (decide (e.state = 1) || decide (e.state = 2)) &&
    decide ((e.classB && !e.table) = b) && decide (tierOfFrame f = some tier)) +
  (if b ∨ (s.part p).mode = .unformed then 0
   else if tier = 0 then s.dictVal (0x4300 + p.val) 2 + s.dictVal (0x4300 + p.val) 3
   else if tier = 1 then s.dictVal (0x6100 + p.val) 3
   else 0)

/-- R223: frames of a partition's shares in state RETIRED. -/
def State.retired (s : State) (p : PartNo) (tier : Option Nat) : Nat :=
  s.countFrames (fun f e => decide (e.state = 3) && (s.part p).dies.getLsbD (dieOfFrame f).val &&
    (match tier with
    | some t => decide (tierOfFrame f = some t)
    | none => true) && !s.scanFailed f) +
  (if tier = some 0 ∨ tier = some 1 then 0
   else ((s.diesOf p).filter (fun c => s.mem.flashOut.getLsbD c.val)).length * shareFrames s.variant 2)

/-- R223: the capacity of a tier for a partition. -/
def State.capacity (s : State) (p : PartNo) (tier : Nat) : Nat :=
  (s.diesOf p).length * shareFrames s.variant tier - s.retired p (some tier)

/-- R223: the effective quota from both written values and the capacity; an all-ones quota is what the other leaves. -/
def effQuota (cap qp qb : Nat) (b : Bool) : Int :=
  let all := 0xFFFFFFFF
  if b then (if qb = all then (cap : Int) - qp else qb) else (if qp = all then (cap : Int) - qb else qp)

/-- R223: the quota in force. -/
def State.quota (s : State) (p : PartNo) (tier : Nat) (b : Bool) : Int :=
  effQuota (s.capacity p tier) (s.dictVal (0x4100 + p.val) (1 + 2 * tier)) (s.dictVal (0x4100 + p.val) (2 + 2 * tier)) b

/-- R226: weight frames ALLOCATED or RETIRING. -/
def State.weightUsage (s : State) : Nat :=
  s.countFrames (fun _ e => e.weight && (decide (e.state = 1) || decide (e.state = 2)))

/-- R210: the free list of a share. -/
def State.freeList (s : State) (tier : Nat) (c : CDie) : FreeList := Tab.get ⟨0, []⟩ s.mem.free (shareKeyOf tier c)

/-- The first frame at or after place `i` of a share that was never given out and is not RETIRED (R463). -/
def State.nextFresh (s : State) (tier : Nat) (c : CDie) (i : Nat) : Option Nat :=
  ((List.range ((s.mem.frames.filter (fun e => decide ((FrameEnt.ofWord e.2).state = 3))).length + 1)).map (· + i)).find?
    (fun j => decide (j < shareFrames s.variant tier) && decide ((s.frame (shareBase tier c + j)).state ≠ 3))

/-- R210: the frame at the head of a share's free list and the list without it. -/
def State.headFree (s : State) (tier : Nat) (c : CDie) : Option (Nat × FreeList) :=
  let l := s.freeList tier c
  if tier = 2 ∧ s.mem.flashOut.getLsbD c.val then none
  else match s.nextFresh tier c l.fresh with
  | some j => some (shareBase tier c + j, { l with fresh := j + 1 })
  | none => match l.returned with
    | f :: r => some (f, ⟨shareFrames s.variant tier, r⟩)
    | [] => none

/-- R500: the frame is allocatable: its granules have valid check bits. Only board memory waits. -/
def State.initialised (s : State) (f : Nat) : Bool :=
  match tierOfFrame f with
  | some 1 => match Tab.get none s.mem.boardInit (dieOfFrame f).val with
    | some n => decide (frameIndex f < n)
    | none => false
  | _ => true

/-- R210: the shares of a partition in the order a request takes them: ascending, after the share that supplied its
previous frame of the tier, wrapping; those the mask allows (0: all). -/
def State.shareOrder (s : State) (p : PartNo) (tier mask : Nat) : List CDie :=
  let ds := (s.diesOf p).filter (fun c => decide (mask = 0) || bitOf mask c.val)
  match Tab.get none s.mem.lastShare (4 * p.val + tier) with
  | none => ds
  | some l => ds.filter (fun c => decide (l < c)) ++ ds.filter (fun c => decide (c ≤ l))

/-- R210: the next frame for a partition. -/
def State.pickFrame (s : State) (p : PartNo) (tier mask : Nat) : Option (CDie × Nat × FreeList) :=
  (s.shareOrder p tier mask).findSome? (fun c => (s.headFree tier c).map (fun x => (c, x.1, x.2)))

/-- R220 step 1, R216: takes the next frame, ALLOCATED and charged. -/
def State.allocOne (s : State) (p : PartNo) (tier mask : Nat) (b tbl wt : Bool) : Option (Nat × State) :=
  match s.pickFrame p tier mask with
  | none => none
  | some (c, f, l) =>
    let s1 := s.modMem (fun m =>
      { m with free := Tab.set ⟨0, []⟩ m.free (shareKeyOf tier c) l,
               lastShare := Tab.set none m.lastShare (4 * p.val + tier) (some c),
               retireAt := Tab.set none m.retireAt f none })
    some (f, s1.setFrame f ⟨0, 1, p, b && !tbl, false, tbl, wt⟩)

/-- Takes `n` frames, or none when the shares cannot supply them. -/
def State.allocN (s : State) (p : PartNo) (tier mask : Nat) (b tbl wt : Bool) : Nat → Option (List Nat × State)
  | 0 => some ([], s)
  | n + 1 => match s.allocOne p tier mask b tbl wt with
    | none => none
    | some (f, s1) => match State.allocN s1 p tier mask b tbl wt n with
      | none => none
      | some (fs, s2) => some (f :: fs, s2)

/-- R225: `n` more pages fit under the quota of the partition's tier and class. -/
def State.fits (s : State) (p : PartNo) (tier : Nat) (b : Bool) (n : Nat) : Bool :=
  decide (((s.usage p tier b + n : Nat) : Int) ≤ s.quota p tier b)

/-- R217, R248: a frame goes back to the tail of its share's free list, FREE. -/
def State.freeFrame (s : State) (f : Nat) : State :=
  match tierOfFrame f with
  | none => s
  | some t =>
    let k := shareKeyOf t (dieOfFrame f)
    let s1 := s.setFrame f ⟨0, 0, 0, false, false, false, false⟩
    s1.modMem (fun m =>
      let l := Tab.get ⟨0, []⟩ m.free k
      { m with free := Tab.set ⟨0, []⟩ m.free k { l with returned := l.returned ++ [f] },
               retireAt := Tab.set none m.retireAt f none })

/-- R463: a frame becomes RETIRED, with its record. -/
def State.retireFrame (s : State) (f : Nat) : State :=
  let m := (mdieOf (dieOfFrame f)).val
  let e := s.frame f
  let s1 := s.setFrame f { e with refs := 0, state := 3, table := false, weight := false, pinned := false }
  let s2 := s1.modMem (fun x => { x with retireAt := Tab.set none x.retireAt f none })
  s2.report ⟨0x020D, 8 + m, partByte (some e.part), unitMigration (4 * m), .operation,
    retiredDetail f (Tab.get [] s.mem.retireList m).length false⟩

/-- R216: moves the reference count of a frame; at 0 the frame enters RETIRING at the epoch (R217). -/
def State.refFrame (s : State) (f : Nat) (up : Bool) : State :=
  let e := s.frame f
  if up then s.setFrame f { e with refs := min 65535 (e.refs + 1) }
  else
    let r := e.refs - 1
    if r = 0 ∧ e.state = 1 then
      (s.setFrame f { e with refs := 0, state := 2 }).modMem
        (fun m => { m with retireAt := Tab.set none m.retireAt f (some s.fol.epoch) })
    else s.setFrame f { e with refs := r }

/-! Translation (R47, R48, R211, R215) -/

/-- R215: a translation or access failure, and the table granule found poisoned, if any (R456). -/
structure PFault where
  address : Nat
  ctx : Nat
  space : Nat
  reason : Nat
  access : Nat
  level : Nat
  entry : Nat
  master : Nat
  tableBad : Option Nat
  deriving DecidableEq, Repr

/-- R215: the 40 bytes of detail. -/
def PFault.detail (f : PFault) : List Byte :=
  leBytes 8 f.address ++ leBytes 2 f.ctx ++ leBytes 1 f.space ++ leBytes 1 f.reason ++ leBytes 1 f.access ++
    leBytes 1 f.level ++ leBytes 8 f.entry ++ leBytes 2 f.master ++ List.replicate 16 0

/-- A translated access: the unified address, its level-3 entry and where that entry lies. -/
structure Trans where
  ua : Nat
  entry : Nat
  entryUa : Nat
  deriving DecidableEq, Repr

/-- Who asks for a translation, and how. `space` is 0 device-virtual or 1 context (`ctx`); `md` is the memory-side die
that walks. -/
structure WalkReq where
  part : PartNo
  space : Nat
  ctx : Nat
  addr : Nat
  access : Nat
  master : Nat
  view : View
  md : MDie
  deriving DecidableEq, Repr

/-- R215: master values. -/
def masterCore (n : CoreNo) : Nat := n.val
def masterMig (m : MDie) : Nat := 0x8000 + 4 * m.val
def masterInk (m : MDie) : Nat := 0x8010 + m.val
def masterRerank (m : MDie) : Nat := 0x8014 + m.val
def masterRing : Nat := 0x8020
def masterColl (x : Nat) : Nat := 0x8021 + x
def masterTransport (x : Nat) : Nat := 0x8023 + x
def masterDma : Nat := 0x8028
def masterSnap : Nat := 0x8030
def masterBar2 : Nat := 0xC000

/-- R46: the master may reach flash: a migration engine or a margin engine. -/
def reachesFlash (m : Nat) : Bool :=
  (decide (0x8000 ≤ m) && decide (m < 0x8010)) || (decide (0x8040 ≤ m) && decide (m < 0x8080))

/-- R215: the master is an inkwell. -/
def isInkwell (m : Nat) : Bool := decide (0x8010 ≤ m) && decide (m < 0x8014)

/-- A fault of a request. -/
def WalkReq.fault (q : WalkReq) (reason level entry : Nat) : PFault :=
  ⟨q.addr, if q.space = 1 then q.ctx else 0, q.space, reason, q.access, level, entry, q.master, none⟩

/-- R261: the context's descriptor, when MSD_CTX_BASE.valid = 1. -/
def State.ctxAddr (s : State) (md : MDie) (c : Nat) : Option Nat :=
  let b := (Tab.get 0 s.mem.ctxBase md.val).toNat
  if bitOf b 0 then some (b / 65536 * 65536 + 128 * c) else none

/-- R261, R262: a context LIVE in a partition has descriptor kind 0x41, state 1 and that owner. -/
def State.ctxLive (s : State) (md : MDie) (v : View) (p : PartNo) (c : Nat) : Bool :=
  match s.ctxAddr md c with
  | none => false
  | some a =>
    let d := (s.readUa v a 5).1
    decide (leField d 0 1 = 0x41) && decide (leField d 2 1 = 1) && decide (leField d 4 1 = p.val)

/-- R47, R48: the root table of a request's space: the partition's MSD_PT_ROOT, or the context descriptor's root. -/
def State.walkRoot (s : State) (q : WalkReq) : Except PFault Nat :=
  if q.space = 1 then
    match s.ctxAddr q.md q.ctx with
    | none => .error (q.fault 1 0 0)
    | some a =>
      if (s.readUa q.view a 32).2 then .error { q.fault 8 0 0 with tableBad := some a }
      else if s.ctxLive q.md q.view q.part q.ctx then .ok (s.readLe q.view (a + 16) 8).1
      else .error (q.fault 1 0 0)
  else
    let r := (Tab.get 0 s.mem.ptRoot (8 * q.md.val + q.part.val)).toNat
    if bitOf r 0 then .ok (r / 32768 * 32768 % 2 ^ 48) else .error (q.fault 1 0 0)

/-- R211: an entry of level 1 or 2: 0 absent, 1 malformed, 2 names the next table. -/
def tableEntryKind (e : Nat) : Nat :=
  if !bitOf e 0 then 0
  else if bits e 1 6 ≠ 0 ∨ bits e 8 8 ≠ 0 ∨ bits e 48 16 ≠ 0 ∨ (tierOfFrame (bits e 16 32)).getD 2 ≥ 2 then 1
  else 2

/-- R211: the table that an entry of level 1 or 2 names. -/
def nextTable (e : Nat) : Nat := bits e 16 32 * 65536 + bits e 7 1 * 32768

/-- One level of the walk. -/
def State.walkLevel (s : State) (q : WalkReq) (table idx level : Nat) : Except PFault Nat :=
  let a := table + 8 * idx
  let r := s.readLe q.view a 8
  if r.2 then .error { q.fault 8 level r.1 with tableBad := some a }
  else match tableEntryKind r.1 with
    | 0 => .error (q.fault 1 level r.1)
    | 1 => .error (q.fault 8 level r.1)
    | _ => .ok (nextTable r.1)

/-- R47, R48: where the level-3 entry of an address lies. -/
def State.walkTo (s : State) (q : WalkReq) : Except PFault Nat :=
  match s.walkRoot q with
  | .error e => .error e
  | .ok root => match s.walkLevel q root (bits q.addr 40 12) 1 with
    | .error e => .error e
    | .ok t2 => match s.walkLevel q t2 (bits q.addr 28 12) 2 with
      | .error e => .error e
      | .ok t3 => .ok (t3 + 8 * bits q.addr 16 12)

/-- R47, R48, R213: the entries that a walk reads, one for each level. -/
def State.walkPath (s : State) (q : WalkReq) : List Nat :=
  match s.walkRoot q with
  | .error _ => []
  | .ok root => (root + 8 * bits q.addr 40 12) :: match s.walkLevel q root (bits q.addr 40 12) 1 with
    | .error _ => []
    | .ok t2 => (t2 + 8 * bits q.addr 28 12) :: match s.walkLevel q t2 (bits q.addr 28 12) 2 with
      | .error _ => []
      | .ok t3 => [t3 + 8 * bits q.addr 16 12]

/-- R211: a forbidden level-3 entry. -/
def leafMalformed (e : Nat) : Bool :=
  decide (bits e 7 9 ≠ 0) || decide (bits e 48 16 ≠ 0) || (bitOf e 2 && bitOf e 1) || (bitOf e 3 && (bitOf e 1 || bitOf e 2))

/-- R215: the reason an access through a present level-3 entry fails, if it does (the order of the checks: log 13). -/
def State.leafReason (s : State) (q : WalkReq) (e : Nat) : Option Nat :=
  let tier := bits e 5 2
  let f := bits e 16 32
  if leafMalformed e then some 8
  else if !s.implemented f then some 4
  else if tier = 3 ∨ tierOfFrame f ≠ some tier then some 6
  else if tier = 2 ∧ !reachesFlash q.master ∧ q.access ≠ 3 then some 5
  else if q.access = 1 then
    if bitOf e 4 then some 7
    else if s.isTable f then some 10
    else if bitOf e 1 then none
    else if bitOf e 2 then (if isInkwell q.master then none else some 3)
    else some 2
  else none

/-- R215: the whole translation of one address. -/
def State.translate (s : State) (q : WalkReq) : Except PFault Trans :=
  if (if q.space = 1 then 2 ^ 44 else 2 ^ 52) ≤ q.addr then .error (q.fault 9 0 0)
  else match s.walkTo q with
    | .error e => .error e
    | .ok a =>
      let r := s.readLe q.view a 8
      if r.2 then .error { q.fault 8 3 r.1 with tableBad := some a }
      else if !bitOf r.1 0 then .error (q.fault 1 3 r.1)
      else match s.leafReason q r.1 with
        | some x => .error (q.fault x 3 r.1)
        | none => .ok ⟨bits r.1 16 32 * 65536 + q.addr % 65536, r.1, a⟩

/-- R456: the record of a poisoned table granule, which names its frame. -/
def State.tablePoison (s : State) (p : Option PartNo) (ua : Nat) : State :=
  let u := s.unitOf ua
  s.report ⟨0x020C, u.1, partByte p, u.2, .operation, u64s [ua / 65536]⟩

/-- What a failed translation records by itself (R456). -/
def State.pfRecord (s : State) (p : PartNo) (f : PFault) : State :=
  match f.tableBad with
  | some a => s.tablePoison (some p) a
  | none => s

/-- R45, R46, R212, R215: checks of an access by unified address; reason 11 is BAR2's. -/
def State.checkUa (s : State) (ua access master : Nat) : Option PFault :=
  let f := ua / 65536
  let bad (r : Nat) : Option PFault := some ⟨ua, 0, 2, r, access, 0, 0, master, none⟩
  if !s.implemented f then bad 4
  else if tierOfFrame f = some 2 ∧ !reachesFlash master then bad 5
  else if access = 1 ∧ s.isTable f then bad 10
  else if master = masterBar2 ∧ ((s.frame f).state = 0 ∨ (s.frame f).state = 3) then bad 11
  else none

/-- A granule read through a page whose entry has poison = 1 is poisoned without an access (R235). -/
def State.granAt (s : State) (v : View) (t : Trans) (g : Nat) : Gran :=
  let x := s.gran v g
  ⟨x.data, x.poison || bitOf t.entry 4⟩

/-- The pages an access of `n` bytes at `addr` covers, as (address, length) pieces that cross no page. -/
def pagePieces (addr n : Nat) : List (Nat × Nat) :=
  if n = 0 then []
  else (List.range ((addr + n - 1) / 65536 - addr / 65536 + 1)).map (fun i =>
    let a := if i = 0 then addr else (addr / 65536 + i) * 65536
    let e := min (addr + n) ((addr / 65536 + i + 1) * 65536)
    (a, e - a))

/-- The first failure among the pages of an access, or the translations of all its pieces in order. -/
def State.translateAll (s : State) (q : WalkReq) : List (Nat × Nat) → Except PFault (List (Trans × Nat))
  | [] => .ok []
  | (a, n) :: r => match s.translate { q with addr := a } with
    | .error e => .error e
    | .ok t => match State.translateAll s q r with
      | .error e => .error e
      | .ok ts => .ok ((t, n) :: ts)

/-- The bytes of a stretch through its translations, and whether any granule of it is poisoned. -/
def State.readTrans (s : State) (v : View) (ts : List (Trans × Nat)) : List Byte × Bool :=
  let rs := ts.map (fun x => let r := s.readUa v x.1.ua x.2
                             (r.1, r.2 || bitOf x.1.entry 4))
  (rs.flatMap (·.1), rs.any (·.2))

/-- Reads `n` bytes of a space: the bytes and whether any granule is poisoned, or the failure. -/
def State.readVa (s : State) (q : WalkReq) (n : Nat) : Except PFault (List Byte × Bool) :=
  match s.translateAll q (pagePieces q.addr n) with
  | .error e => .error e
  | .ok ts => .ok (s.readTrans q.view ts)

/-- R227: the ruling home of a partition: the memory-side die of its lowest compute die. -/
def State.home (s : State) (p : PartNo) : MDie :=
  match lowestDie (s.part p).dies with
  | some c => mdieOf c
  | none => 0

end Sys2Proof.Machine
end

