-- ==== Sys2Proof/Machine/Mcast.lean ====
section
/-! DEFINITION. The multicast sets of a memory-side die (R198, R199): their reads, served by the buffer, held, or detached. -/

namespace Sys2Proof.Machine

/-- A set of a memory-side die. -/
def State.mcastSet (s : State) (m : MDie) (set : Nat) : McastSet := Tab.get McastSet.reset s.link.mcast (16 * m.val + set)

/-- Replaces a set. -/
def State.setMcast (s : State) (m : MDie) (set : Nat) (x : McastSet) : State :=
  { s with link := { s.link with mcast := Tab.set McastSet.reset s.link.mcast (16 * m.val + set) x } }

/-- The memory-side dies. -/
def allMDies : List MDie := [0, 1, 2, 3]

/-- R198: the core of a member bit. -/
def mcastCore (m : MDie) (bit : Nat) : CoreNo :=
  ((coresOfDie (cdieOf (2 * m.val + bit / 16)))[bit % 16]?).getD 0

/-- R198: the member bit of a core at the memory-side die that serves it. -/
def mcastBit (n : CoreNo) : Fin 32 :=
  ⟨16 * ((dieOfCore n).val % 2) + (coresOfDie (dieOfCore n)).idxOf n % 16, by have := Nat.mod_lt (dieOfCore n).val (show 0 < 2 by decide); omega⟩

/-- R199: the smallest count of the attached members. -/
def McastSet.slowest (x : McastSet) : Nat :=
  ((List.finRange 32).filter (fun i => x.attached.getLsbD i.val)).foldl (fun a i => min a (x.counts[i.val])) x.lead

/-- R199: adds one line to a member's count. -/
def McastSet.advance (x : McastSet) (i : Fin 32) : McastSet := { x with counts := x.counts.set i.val (x.counts[i.val] + 1) }

/-- R199: what becomes of one line of a member's read. -/
inductive McastAct where
  | fetched | buffered | detached | ordinary | hold
  deriving DecidableEq, Repr

/-- R199: a line at `a` read by member `i`: 4,096 lines are 256 KiB. -/
def McastSet.read (x : McastSet) (i : Fin 32) (a : Nat) : McastSet × McastAct :=
  if !x.attached.getLsbD i.val then (x, .ordinary)
  else
    let c := x.counts[i.val]
    if c = x.lead then
      if x.slowest + 4096 < x.lead + 1 then (x, .hold)
      else ({ x.advance i with lines := x.lines ++ [a], lead := x.lead + 1 }, .fetched)
    else if x.lines[c]? = some a then (x.advance i, .buffered)
    else ({ x with attached := x.attached &&& ~~~(BitVec.ofNat 32 (2 ^ i.val)) }, .detached)

/-- R199: a read of a member waits, and its later reads wait behind it. -/
def McastSet.waits (x : McastSet) (i : Fin 32) : Bool := x.held.any (fun h => decide (h.member = i))

/-- R199, R495: reads `n` lines from `a` on, until one is held; `back` tells whether what is held comes first of those held. -/
def State.mcastRead (s : State) (m : MDie) (set : Nat) (i : Fin 32) (a : Nat) (back : Bool) : Nat → State
  | 0 => s
  | n + 1 =>
    let x := s.mcastSet m set
    match x.read i a with
    | (y, .hold) =>
      let h : McastHold := ⟨i, a, n + 1, s.clock.time⟩
      s.setMcast m set { y with held := if back then h :: y.held else y.held ++ [h] }
    | (y, act) =>
      let s1 := s.setMcast m set y
      let s2 := match act with
        | .buffered => s1.countDie m.val ⟨0x09, 1, 0, 0, 0, s.partOfCore (mcastCore m i.val), some a, none⟩
        | .detached => s1.countDie m.val ⟨0x08, 1, 0, 0, 0, s.partOfCore (mcastCore m i.val), some a, none⟩
        | _ => s1
      State.mcastRead s2 m set i (a + 64) back n

/-- R199: the first held read that may proceed: the first of its member, no longer too far ahead. -/
def McastSet.ready (x : McastSet) : Option Nat :=
  (List.range x.held.length).find? (fun k => match x.held[k]? with
    | some h => !(x.held.take k).any (fun g => decide (g.member = h.member)) && decide ((x.read h.member h.addr).2 ≠ .hold)
    | none => false)

/-- R199: held reads proceed once they may; `n` bounds their number. -/
def State.mcastResume (s : State) (m : MDie) (set : Nat) : Nat → State
  | 0 => s
  | n + 1 =>
    let x := s.mcastSet m set
    match x.ready with
    | none => s
    | some k => match x.held[k]? with
      | none => s
      | some h => State.mcastResume ((s.setMcast m set { x with held := x.held.eraseIdx k }).mcastRead m set h.member h.addr true h.lines) m set n

/-- R199: the lines of the reads held. -/
def McastSet.heldLines (x : McastSet) : Nat := sumNat (x.held.map (fun h => h.lines))

/-- R199: a member core reads `lines` lines from `a` on in an armed window. -/
def State.mcastLoad (s : State) (m : MDie) (set : Nat) (i : Fin 32) (a lines : Nat) : State :=
  let x := s.mcastSet m set
  let t := if x.waits i then s.setMcast m set { x with held := x.held ++ [⟨i, a, lines, s.clock.time⟩] }
    else s.mcastRead m set i a false lines
  t.mcastResume m set ((t.mcastSet m set).heldLines + 1)

/-- R199: the lines of a range that lie inside a window: the first and their number. -/
def windowLines (w : Nat × Nat) (ua n : Nat) : Nat × Nat :=
  let lo := max (ua / 64 * 64) w.1
  let hi := min (alignUp (ua + n) 64) (w.1 + 65536 * w.2)
  (lo, (hi - lo) / 64)

/-- R198, R199: a core's read of a range of memory passes the armed sets of its memory-side die. -/
def State.mcastTouch (s : State) (n : CoreNo) (ua k : Nat) : State :=
  let m := mdieOf (dieOfCore n)
  (List.range 16).foldl (fun t set =>
    let x := t.mcastSet m set
    match x.window with
    | none => t
    | some w =>
      let l := windowLines w ua k
      if l.2 = 0 ∨ !x.attached.getLsbD (mcastBit n).val then t else t.mcastLoad m set (mcastBit n) l.1 l.2) s

end Sys2Proof.Machine
end

