-- ==== Sys2Proof/Machine/Tlb.lean ====
section
/-! DEFINITION. The way of a core's request to memory: the translation caches of the cores and of the memory-side dies (R213), what a
request looks up in them, and what its misses count (R495); the perimeter ring (R33, R34). The caches never change what a translation
gives, since every change of an entry invalidates it (R214). -/

namespace Sys2Proof.Machine

/-- R213: the set of a TLB that a page goes to, and that of a walker cache that an entry goes to (DESIGN CHOICE, log 170: the low
bits). -/
def tlbSet (n : CoreNo) (page : Nat) : Nat := 64 * n.val + page % 64
def walkerSet (m : MDie) (a : Nat) : Nat := 2048 * m.val + a / 8 % 2048

/-- R213: a look-up of a set of `ways` ways, least recently used first out: the set after it, and whether it hit. -/
def lookWays {α : Type} [DecidableEq α] (ways : Nat) (x : α) (l : List α) : List α × Bool :=
  if x ∈ l then (x :: l.erase x, true) else ((x :: l).take ways, false)

/-- R213: a walk looks up its entries in the walker cache: the state after it, and how many missed. -/
def State.walkerLook (s : State) (m : MDie) (as : List Nat) : State × Nat :=
  as.foldl (fun a e =>
    let r := lookWays 16 e (Tab.get [] a.1.xlate.walkers (walkerSet m e))
    ({ a.1 with xlate := { a.1.xlate with walkers := Tab.set [] a.1.xlate.walkers (walkerSet m e) r.1 } }, if r.2 then a.2 else a.2 + 1)) (s, 0)

/-- R213: the tag of a translated request. -/
def tlbEntry (q : WalkReq) (t : Trans) : TlbEntry :=
  ⟨q.part, q.space, if q.space = 1 then q.ctx else 0, q.addr / 65536, match q.view with
    | .snap i => some i
    | _ => none, t.entryUa⟩

/-- R213, R495: a request of a core passes its TLB; a miss walks. -/
def State.tlbLook (s : State) (n : CoreNo) (q : WalkReq) (t : Trans) : State :=
  let e := tlbEntry q t
  let r := lookWays 8 e (Tab.get [] s.xlate.tlbs (tlbSet n (q.addr / 65536)))
  let s1 : State := { s with xlate := { s.xlate with tlbs := Tab.set [] s.xlate.tlbs (tlbSet n (q.addr / 65536)) r.1 } }
  if r.2 then s1
  else
    let w := s1.walkerLook q.md (s.walkPath q)
    (w.1.countCore n 0x17 1).countDie q.md.val ⟨0x07, w.2, 0, 0, 0, some q.part, none, none⟩

/-- R213: the pages of a core's access, in order. -/
def State.tlbLooks (s : State) (n : CoreNo) (q : WalkReq) (ps : List (Nat × Nat)) (ts : List (Trans × Nat)) : State :=
  (ps.zip ts).foldl (fun a x => a.tlbLook n { q with addr := x.1.1 } x.2.1) s

/-! The perimeter ring (R32 to R34) -/

/-- R32: a memory-side die's place on the perimeter ring, clockwise from X0: X0, M0, M1, X1, M3, M2. -/
def ringPlace (m : MDie) : Nat := [1, 2, 5, 4].getD m.val 0

/-- R34: a request between two places goes clockwise: the shorter way round, or by bit 12 of its address between places opposite. -/
def clockwise (a b ua : Nat) : Bool :=
  let d := (b + 6 - a) % 6
  if d = 3 then !bitOf ua 12 else decide (d < 3)

/-- R34: the places that a request passes from `a` to `b`, both with it. -/
def ringPath (a b ua : Nat) : List Nat :=
  if clockwise a b ua then (List.range ((b + 6 - a) % 6 + 1)).map (fun i => (a + i) % 6)
  else (List.range ((a + 6 - b) % 6 + 1)).map (fun i => (a + 6 - i) % 6)

/-- R34, R495: data of `n` bytes passes a path: each memory-side die that sends it on counts it (DESIGN CHOICE, log 171). -/
def State.ringMove (s : State) (p : PartNo) (path : List Nat) (ua n : Nat) : State :=
  path.dropLast.foldl (fun t x => match ([0, 1, 2, 3] : List MDie).find? (fun m => decide (ringPlace m = x)) with
    | some m => t.countDie m.val ⟨0x22, ceilDiv n 64, 0, 0, 0, some p, some ua, none⟩
    | none => t) s

/-- R33, R34: a core's access of `k` bytes at `ua` in stretches of 4 KiB: what it writes goes the way of its request, what it reads
comes back the reverse way. -/
def State.coreRing (s : State) (n : CoreNo) (p : PartNo) (write : Bool) (ua k : Nat) : State :=
  let a := ringPlace (mdieOf (dieOfCore n))
  let b := ringPlace (mdieOf (dieOfFrame (ua / 65536)))
  if a = b ∨ k = 0 then s
  else (List.range ((ua + k - 1) / 4096 - ua / 4096 + 1)).foldl (fun t i =>
    let lo := max ua (4096 * (ua / 4096 + i))
    let hi := min (ua + k) (4096 * (ua / 4096 + i + 1))
    t.ringMove p (if write then ringPath a b lo else (ringPath a b lo).reverse) lo (hi - lo)) s

/-- R33, R34, R199, R213: the way of a core's read. -/
def State.readPath (s : State) (n : CoreNo) (q : WalkReq) (ps : List (Nat × Nat)) (ts : List (Trans × Nat)) : State :=
  ts.foldl (fun t x => (t.mcastTouch n x.1.ua x.2).coreRing n q.part false x.1.ua x.2) (s.tlbLooks n q ps ts)

/-- R33, R34, R213: the way of a core's write of one page. -/
def State.writePath (s : State) (n : CoreNo) (q : WalkReq) (t : Trans) (k : Nat) : State :=
  (s.tlbLook n q t).coreRing n q.part true t.ua k

end Sys2Proof.Machine
end

