-- ==== Sys2Proof/Machine/FolioOps.lean ====
section
/-! DEFINITION. Folios: joining writes, intent and conflicts, sealing and scraping (R238 to R249), plain stores (R221),
snapshots (R254 to R256). -/

namespace Sys2Proof.Machine

/-- Bytes to write within one granule, and whether they are poisoned. -/
structure Piece where
  ua : Nat
  bytes : List Byte
  poison : Bool
  deriving DecidableEq, Repr

/-- Cuts a stretch into pieces that cross no granule; `bad i` is the poison of source granule `i` of the stretch. -/
def piecesOf (ua : Nat) (bs : List Byte) (bad : Nat → Bool) : List Piece :=
  (gransOf ua bs.length).map (fun g =>
    let lo := max ua (64 * g)
    let hi := min (ua + bs.length) (64 * g + 64)
    ⟨lo, (bs.drop (lo - ua)).take (hi - lo), bad (g - ua / 64)⟩)

/-- R235: writes a piece at its home: a whole granule sets the mark anew, a part keeps it. -/
def State.writeHome (s : State) (p : Piece) : State :=
  let g := p.ua / 64
  let h := s.homeGran g
  if p.bytes.length = 64 then s.setHomeGran g ⟨granOf p.bytes, p.poison⟩
  else
    let s1 := s.touchGran 0 none g
    s1.setHomeGran g ⟨patchGran h.data (p.ua % 64) p.bytes, h.poison || p.poison⟩

/-- Writes pieces at their homes. -/
def State.writeHomes (s : State) (ps : List Piece) : State := ps.foldl State.writeHome s

/-! Slots and handles -/

/-- R238: the handle of a folio in slot `id`. -/
def handleOf (id : Nat) (gen : W16) (p : PartNo) : W64 :=
  BitVec.ofNat 64 (id % 16384 + gen.toNat * 2 ^ 16 + p.val * 2 ^ 32 + 2 ^ 63)

/-- The slot a handle names. -/
def handleSlot (h : W64) : Nat := bits h.toNat 0 14

/-- R238, R239: the handle names a folio of the partition in use: slot, generation, partition and valid bit agree. -/
def State.named (s : State) (p : PartNo) (h : W64) : Bool :=
  let f := s.slot (handleSlot h)
  decide (f.mode ≠ .free) && decide (f.part = p) && decide (h = handleOf (handleSlot h) f.gen p)

/-- The slots in use. -/
def State.liveSlots (s : State) : List (Nat × Folio) := s.fol.slots.filter (fun e => decide (e.2.mode ≠ .free))

/-- R257: folios of a partition open or in doubt. -/
def State.openCount (s : State) (p : PartNo) : Nat := (s.liveSlots.filter (fun e => decide (e.2.part = p))).length

/-- A folio at work: the state, the folio, and its slot if it has one. -/
structure FX where
  s : State
  f : Folio
  id : Option Nat
  deriving DecidableEq, Repr

/-- R244: the handle that holds intent on a page's home frame against a folio. A migration's folio stands in no slot: its handle
is a free value (log 148). -/
def FX.holder (x : FX) (frame : Nat) : Option W64 :=
  match x.s.liveSlots.find? (fun e => decide (some e.1 ≠ x.id) && decide (frame ∈ e.2.pages)) with
  | some e => some (handleOf e.1 e.2.gen e.2.part)
  | none => if x.s.mem.migrations.any (fun m => m.frames.any (fun f => decide (f.1 = frame))) then some (Config.engineHandle frame) else none

/-- R244: some folio or migration holds intent on the frame. -/
def State.underIntent (s : State) (frame : Nat) : Bool :=
  s.liveSlots.any (fun e => decide (frame ∈ e.2.pages)) || s.mem.migrations.any (fun m => m.frames.any (fun f => decide (f.1 = frame)))

/-- R243, R258: the pages a folio has touched: those of its intents and those it has journaled bytes of. -/
def Folio.touched (f : Folio) : List Nat := (f.pages ++ f.journal.map (fun (j : JGran) => j.gran / 1024)).dedup

/-- R243, R273: a folio's footprint: 64 B a granule, 64 B a page, 8 B a reference delta. -/
def Folio.footprint (f : Folio) : Nat := 64 * f.journal.length + 64 * f.touched.length + 8 * f.deltas.length

/-- R243: the limit of a folio: 16 MiB, within the free space of the partition's journal area. -/
def FX.limit (x : FX) : Nat :=
  let used := sumNat ((x.s.liveSlots.filter (fun e => decide (e.2.part = x.f.part) && decide (some e.1 ≠ x.id))).map
    (fun e => e.2.footprint))
  min (16 * 2 ^ 20) (x.s.dictVal (0x4300 + x.f.part.val) 2 * 65536 - used)

/-- Dooms an open folio (R243, R244). -/
def FX.doom (x : FX) (cause : W16) (page : Nat) (holder : W64) : FX :=
  if x.f.mode = .opened then
    let s1 := if cause = 0x0301 then
        x.s.countDie (x.s.home x.f.part).val ⟨0x20, 1, 1, 2, 2, some x.f.part, some page, none⟩
      else x.s
    { x with s := s1,
             f := { x.f with mode := .doomed, cause := cause, contested := BitVec.ofNat 64 page, holder := holder } }
  else x

/-- The pages of pieces on which the folio holds no intent yet and which it did not allocate. -/
def FX.newPages (x : FX) (ps : List Piece) : List Nat :=
  ((ps.map (fun p => p.ua / 65536)).filter (fun f => decide (f ∉ x.f.pages) && decide (f ∉ x.f.frames))).dedup

/-- The pages of pieces that the folio has not touched and did not allocate. -/
def FX.newTouched (x : FX) (ps : List Piece) : List Nat := (x.newPages ps).filter (fun f => decide (f ∉ x.f.touched))

/-- The granules of pieces that the folio has not journaled. -/
def FX.newGrans (x : FX) (ps : List Piece) : List Nat :=
  ((ps.map (fun p => p.ua / 64)).filter
    (fun g => (journalFind x.f.journal g).isNone && decide (g / 1024 ∉ x.f.frames))).dedup

/-- R241: adds a piece to a journal. -/
def journalPut (j : List JGran) (p : Piece) : List JGran :=
  let g := p.ua / 64
  let off := p.ua % 64
  let n := p.bytes.length
  let m : BitVec 64 := BitVec.ofNat 64 ((2 ^ n - 1) * 2 ^ off)
  match journalFind j g with
  | none => j ++ [⟨g, patchGran 0 off p.bytes, m, decide (n = 64), p.poison⟩]
  | some _ => j.map (fun e => if e.gran = g then
      ⟨g, patchGran e.data off p.bytes, e.mask ||| m, e.whole || decide (n = 64),
       if n = 64 then p.poison else e.poison || p.poison⟩ else e)

/-- R241, R242: a piece joins the folio: into its journal, or straight to a frame allocated inside it. -/
def FX.put (x : FX) (p : Piece) : FX :=
  if p.ua / 65536 ∈ x.f.frames then { x with s := x.s.writeHome p }
  else { x with f := { x.f with journal := journalPut x.f.journal p } }

/-- R240 to R245: a write joins an OPEN folio. Intent held by another dooms it (FOLIO_CONFLICT); a footprint beyond the
limit dooms it (FOLIO_FOOTPRINT); a write to a DOOMED folio is dropped. `intent` is false for the entries that a migration
changes (R221). -/
def FX.write (x : FX) (intent : Bool) (ps : List Piece) : FX :=
  if x.f.mode ≠ .opened then x
  else
    let np := x.newPages ps
    match (if intent then np.findSome? (fun f => (x.holder f).map (fun h => (f, h))) else none) with
    | some (f, h) => x.doom 0x0301 (65536 * f) h
    | none =>
      if x.limit < x.f.footprint + 64 * (x.newGrans ps).length + 64 * (x.newTouched ps).length then x.doom 0x0302 0 0
      else
        let x1 := if intent then { x with f := { x.f with pages := x.f.pages ++ np } } else x
        ps.foldl FX.put x1

/-- R221, R402: takes intent on a page without a write (`keep` false: only the check). -/
def FX.intent (x : FX) (frame : Nat) (keep : Bool) : FX :=
  if x.f.mode ≠ .opened ∨ frame ∈ x.f.pages then x
  else match x.holder frame with
    | some h => x.doom 0x0301 (65536 * frame) h
    | none =>
      if !keep then x
      else if x.limit < x.f.footprint + (if frame ∈ x.f.touched then 0 else 64) then x.doom 0x0302 0 0
      else { x with f := { x.f with pages := x.f.pages ++ [frame] } }

/-- R242, R273: a reference delta of the folio. -/
def FX.delta (x : FX) (frame : Nat) (up : Bool) : FX :=
  if x.f.mode ≠ .opened then x
  else if x.limit < x.f.footprint + 8 then x.doom 0x0302 0 0
  else { x with f := { x.f with deltas := x.f.deltas ++ [⟨frame, up⟩] } }

/-- R242: a frame allocated inside the folio. -/
def FX.addFrame (x : FX) (frame : Nat) : FX := { x with f := { x.f with frames := x.f.frames ++ [frame] } }

/-- R212, R244: writes a 64-bit table entry inside a folio, taking intent on the table's page. -/
def FX.entry (x : FX) (ua e : Nat) : FX := x.write true [⟨ua, leBytes 8 e, false⟩]

/-- R221: writes a table entry that a migration, a spill or an eviction changes, without intent on the table's page. -/
def FX.entryFree (x : FX) (ua e : Nat) : FX := x.write false [⟨ua, leBytes 8 e, false⟩]

/-- R273: the +1 deltas that a folio holds for a frame. -/
def Folio.plusDeltas (f : Folio) (frame : Nat) : Nat := (f.deltas.filter (fun d => decide (d.frame = frame) && d.up)).length

/-- R216, R273: the +1 deltas that this folio and the other open ones hold for a frame. -/
def FX.plusDeltas (x : FX) (frame : Nat) : Nat :=
  x.f.plusDeltas frame + sumNat ((x.s.liveSlots.filter (fun e => decide (some e.1 ≠ x.id))).map (fun e => e.2.plusDeltas frame))

/-! Poison at seal time (R249) -/

/-- R249: the pages of poisoned journaled granules and of poisoned frames allocated inside. -/
def FX.badPages (x : FX) : List Nat :=
  (x.f.journal.filter (fun j => (j.over (x.s.homeGran j.gran)).poison)).map (fun j => j.gran / 1024) ++
  x.f.frames.filter (fun f => x.s.mem.poison.anyIn (1024 * f) 1024 || x.s.mem.latent.anyIn (1024 * f) 1024)

/-- R249: counts the folio's poisoned granules and its first poisoned page. -/
def FX.judge (x : FX) : FX :=
  let b := x.badPages
  { x with f := { x.f with poisoned := b.length, firstBad := match b with
    | [] => 0
    | f :: r => 65536 * r.foldl min f } }

/-! Snapshots (R254 to R256) -/

/-- R254: an epoch is within reach of the current one. -/
def State.inReach (s : State) (e : W32) : Bool := decide ((s.fol.epoch - e).toNat < 2 ^ 30)

/-- The open snapshots of a partition. -/
def State.snapsOf (s : State) (p : PartNo) : List (Nat × Snap) :=
  s.fol.snaps.filterMap (fun e => match e.2 with
    | some sn => if sn.part = p then some (e.1, sn) else none
    | none => none)

/-- R256: the oldest open snapshot of a partition. -/
def State.oldestSnap (s : State) (p : PartNo) : Option (Nat × Snap) :=
  (s.snapsOf p).foldl (fun b e => match b with
    | none => some e
    | some x => if serialAfter x.2.epoch e.2.epoch then some e else some x) none

/-- R256: the floor epoch of a partition. -/
def State.floor (s : State) (p : PartNo) : W32 :=
  match s.oldestSnap p with
  | some e => e.2.epoch
  | none => s.fol.epoch

/-- R256: drops the pre-images that no open snapshot needs. -/
def State.prune (s : State) (p : PartNo) : State :=
  let keep (x : PreImage) : Bool := decide (x.part ≠ p) || (s.snapsOf p).any (fun e => serialAfter x.epoch e.2.epoch)
  { s with fol := { s.fol with preimages := s.fol.preimages.filter keep } }

/-- Closes a snapshot; `old` marks an OLD_SNAPSHOT closing (MSD_FOLIO_STATUS.snap_closed). -/
def State.closeSnap (s : State) (sid : Nat) (old : Bool) : State :=
  match Tab.get none s.fol.snaps sid with
  | none => s
  | some sn =>
    let s1 := { s with fol := { s.fol with snaps := Tab.set none s.fol.snaps sid none } }
    let s2 := if old then s1.modPreg sn.part (fun r => { r with snapClosed := true }) else s1
    s2.prune sn.part

/-- R256: keeps one pre-image for the seal of epoch `e`; a version area that would overflow closes the oldest snapshots
(at most as many as are open). -/
def State.keepPre (s : State) (p : PartNo) (e : W32) (g : Nat) : Nat → State
  | 0 => s
  | n + 1 =>
    match s.oldestSnap p with
    | none => s
    | some o =>
      if s.dictVal (0x4300 + p.val) 3 * 65536 <
          64 * (s.fol.preimages.filter (fun x => decide (x.part = p))).length + 64 then
        State.keepPre (s.closeSnap o.1 true) p e g n
      else
        let h := s.homeGran g
        { s with fol := { s.fol with preimages := s.fol.preimages ++ [⟨p, e, g, h.data, h.poison⟩] } }

/-- R254: closes the snapshots that are out of reach. -/
def State.closeOld (s : State) : State :=
  (s.fol.snaps.filter (fun e => match e.2 with
    | some sn => !s.inReach sn.epoch
    | none => false)).foldl (fun t e => t.closeSnap e.1 true) s

/-! Sealing and scraping (R246, R248) -/

/-- R242, R273: the net reference changes of a folio, each frame once. -/
def netDeltas (ds : List RefDelta) : List (Nat × Int) :=
  ((ds.map (fun d => d.frame)).dedup).map (fun f =>
    (f, ((ds.filter (fun d => decide (d.frame = f))).map (fun d => if d.up then (1 : Int) else -1)).foldl (· + ·) 0))

/-- Applies a net change of a frame's references. -/
def State.refBy (s : State) (f : Nat) : Nat → Bool → State
  | 0, _ => s
  | n + 1, up => State.refBy (s.refFrame f up) f n up

/-- R309: a write to flash waits in the write-back area until its page is programmed. -/
def State.buffer (s : State) (p : PartNo) (g : Nat) : State :=
  let f := g / 1024
  if tierOfFrame f ≠ some 2 then s
  else if s.mem.wb.any (fun w => decide (w.frame = f)) then
    s.modMem (fun m => { m with wb := m.wb.map (fun w =>
      if w.frame = f ∧ g ∉ w.grans then { w with grans := w.grans ++ [g] } else w) })
  else
    let w : WbPage := ⟨p, f, [g], s.clock.time⟩
    s.modMem (fun m => { m with wb := m.wb ++ [w] })

/-- R246 steps 3 to 5: the seal point. Pre-images are kept, every journaled granule is applied to its home, the epoch
advances by 1, the fields that hold the epoch or the time of the seal take it, references and pinned bits change, replaced subtrees are left to be decremented (R242), nodes flagged for
repair are left to be repaired (R307), and snapshots that fall out of reach are closed (R254). -/
def FX.sealPoint (x0 : FX) : FX :=
  let e := x0.s.fol.epoch + 1
  let x1 := x0.f.stamps.foldl (fun y a => y.put ⟨a, leBytes 4 e.toNat, false⟩) x0
  let x := x0.f.timeStamps.foldl (fun y a => y.put ⟨a, leBytes 8 x0.s.now, false⟩) x1
  let s1 := x.f.journal.foldl (fun s j => s.keepPre x.f.part e j.gran ((s.snapsOf x.f.part).length + 1)) x.s
  let s2 := x.f.journal.foldl (fun s j => (s.setHomeGran j.gran (j.over (s.homeGran j.gran))).buffer x.f.part j.gran) s1
  let s3 := { s2 with fol := { s2.fol with epoch := e } }
  let s4 := (netDeltas x.f.deltas).foldl (fun s d => s.refBy d.1 d.2.natAbs (decide (0 < d.2))) s3
  let s5 := x.f.pins.foldl (fun s d => s.setFrame d.1 { s.frame d.1 with pinned := d.2 }) s4
  let s6 := s5.modMem (fun m => { m with subtrees := m.subtrees ++ x.f.subtrees.map (fun t => (t.1, t.2, e)),
                                         repairs := m.repairs ++ x.f.repairs })
  let s7 := s6.closeOld
  let s8 := s7.countDie (x.s.home x.f.part).val ⟨0x1E, 1, 1, 2, 2, some x.f.part, none, none⟩
  { x with s := s8, f := { x.f with mode := .sealed, sealEpoch := e, sealTime := x.s.clock.time } }

/-- R221, R244: a held write is performed at the home as it stands now, and its core's store is no longer held. -/
def State.performHeld (s : State) (moved : List (Nat × Nat)) (w : HeldWrite) : State :=
  let f := match moved.find? (fun m => decide (m.1 = w.frame)) with
    | some m => m.2
    | none => w.frame
  let s1 := s.writeHomes (piecesOf (65536 * f + w.off) w.data (fun _ => w.poison))
  match w.who with
  | .core n =>
    let c := s1.core n
    let i := c.outStores.findIdx (fun o => o.held)
    s1.setCore n { c with outStores := c.outStores.set i ⟨false⟩ }
  | _ => s1

/-- R246 step 6, R248: releases intents on pages: the writes that waited on them proceed. -/
def State.release (s : State) (pages : List Nat) (moved : List (Nat × Nat)) : State :=
  let go := s.mem.held.filter (fun w => decide (w.frame ∈ pages))
  let s1 := s.modMem (fun m => { m with held := m.held.filter (fun w => decide (w.frame ∉ pages)) })
  go.foldl (fun t w => t.performHeld moved w) s1

/-- R248: a scrape discards the journal and returns the frames allocated inside to FREE (one RETIRED stays so); a context
it was releasing is LIVE again. -/
def FX.scrapeBody (x : FX) (cause : W16) : FX :=
  let s0 := x.f.frames.foldl (fun s f => if (s.frame f).state = 3 then s else s.freeFrame f) x.s
  let s1 := x.f.releasing.foldl (fun s a => s.modMem (fun m => { m with cells := m.cells.set (a + 2) 1 })) s0
  let s2 := s1.countDie (x.s.home x.f.part).val ⟨0x1F, 1, 1, 2, 2, some x.f.part, none, none⟩
  { x with s := s2, f := { x.f with cause := cause, sealTime := x.s.clock.time } }

/-- R258: the result record. -/
structure FolioRecord where
  code : Nat
  state : Nat
  outcome : Nat
  handle : Nat
  epoch : Nat
  granules : Nat
  pages : Nat
  poisoned : Nat
  page : Nat
  other : Nat
  time : Nat
  deriving DecidableEq, Repr

/-- R258: the 64 bytes of a result record. -/
def FolioRecord.bytes (r : FolioRecord) : List Byte :=
  leBytes 2 r.code ++ leBytes 1 r.state ++ leBytes 1 r.outcome ++ leBytes 8 r.handle ++ leBytes 4 r.epoch ++
  leBytes 4 r.granules ++ leBytes 4 r.pages ++ leBytes 4 r.poisoned ++ leBytes 8 r.page ++ leBytes 8 r.other ++
  leBytes 8 r.time ++ List.replicate 12 0

/-- R239: the number of a folio state; a sealing folio still reads OPEN (R246). -/
def FolioMode.num : FolioMode → Nat
  | .free => 0 | .opened => 1 | .doomed => 2 | .complete => 3 | .prepared => 4 | .inDoubt => 5 | .sealed => 1

/-- R258: the record of a folio in slot `id`. -/
def Folio.record (f : Folio) (id code outcome : Nat) (other : Option Nat) (time : Nat) : FolioRecord :=
  { code := code, state := if outcome = 0 then f.mode.num else 0, outcome := outcome,
    handle := (handleOf id f.gen f.part).toNat, epoch := if outcome = 1 then f.sealEpoch.toNat else 0,
    granules := f.journal.length, pages := f.touched.length, poisoned := f.poisoned,
    page := if code = 0x0301 then f.contested.toNat else f.firstBad,
    other := match other with
      | some o => o
      | none => if code = 0x0301 then f.holder.toNat else 0,
    time := time }

/-! Plain stores -/

/-- R221, R244: a plain store of pieces by `who`: a piece to a page under intent waits; the others are performed. -/
def State.plainWrite (s : State) (who : Writer) (ps : List Piece) : State :=
  ps.foldl (fun t p =>
    if t.underIntent (p.ua / 65536) then
      t.modMem (fun m => { m with held := m.held ++ [⟨who, p.ua / 65536, p.ua % 65536, p.bytes, p.poison⟩] })
    else t.writeHome p) s

/-- Some piece of a store waits on intent. -/
def State.storeWaits (s : State) (ps : List Piece) : Bool := ps.any (fun p => s.underIntent (p.ua / 65536))

/-- The pieces of a store through translations. `bad i` is the poison of source granule `i` (64 B from the start). -/
def transPieces (ts : List (Trans × Nat)) (bs : List Byte) (bad : Nat → Bool) : List Piece :=
  (ts.foldl (fun (acc : List Piece × Nat) x =>
    (acc.1 ++ piecesOf x.1.ua ((bs.drop acc.2).take x.2) (fun i => bad (acc.2 / 64 + i)), acc.2 + x.2)) ([], 0)).1

/-! Engine accesses in a partition's device-virtual space -/

/-- The request of an engine of a partition's ruling home. -/
def State.engineReq (s : State) (p : PartNo) (addr access master : Nat) : WalkReq :=
  ⟨p, 0, 0, addr, access, master, .plain, s.home p⟩

/-- The record of an engine's translation failure (R215). -/
def State.reportPF (s : State) (p : PartNo) (die unit : Nat) (lvl : Level) (f : PFault) : State :=
  (s.pfRecord p f).report ⟨0x0201, die, p.val, unit, lvl, f.detail⟩

/-- R235: a read of a space by an engine touches the granules it reaches. -/
def State.touchVa (s : State) (finder : Nat) (q : WalkReq) (n : Nat) : State :=
  if s.mem.latent.isEmpty then s
  else match s.translateAll q (pagePieces q.addr n) with
    | .error _ => s
    | .ok ts => ts.foldl (fun t x => t.touch finder (some q.part) x.1.ua x.2) s

/-- An engine reads its partition's device-virtual space. -/
def State.dvRead (s : State) (p : PartNo) (master addr n : Nat) : Except PFault (List Byte × Bool) :=
  s.readVa (s.engineReq p addr 0 master) n

/-- An engine writes a record to its partition's device-virtual space (a plain store); a failure is recorded. -/
def State.dvWrite (s : State) (p : PartNo) (master addr : Nat) (bs : List Byte) : State :=
  match s.translateAll (s.engineReq p addr 1 master) (pagePieces addr bs.length) with
  | .error e => s.reportPF p (dieM (s.home p)) (unitMigration (4 * (s.home p).val)) .operation e
  | .ok ts => s.plainWrite (.engine master) (transPieces ts bs (fun _ => false))

/-! Whole folios -/

/-- The folio an order of an engine runs in (R220, R267, R402): open, of a partition, in no slot. -/
def FX.fresh (s : State) (p : PartNo) (tolerant : Bool) : FX :=
  ⟨s, { Folio.reset with mode := .opened, part := p, tolerant := tolerant }, none⟩

/-- The folio of a slot at work. -/
def FX.ofSlot (s : State) (id : Nat) : FX := ⟨s, s.slot id, some id⟩

/-- Puts a folio at work back into its slot. -/
def FX.back (x : FX) : State :=
  match x.id with
  | some id => x.s.setSlot id x.f
  | none => x.s

/-- Ends the folio of an engine's order: judged (unless `judge` is false), sealed or scraped, intents released, at once.
The code is 0 on a seal. -/
def FX.finish (x : FX) (judge : Bool) : State × W16 × W32 :=
  if x.f.mode = .doomed then
    let y := x.scrapeBody x.f.cause
    (y.s.release y.f.pages [], x.f.cause, 0)
  else
    let x1 := if judge then x.judge else x
    if judge ∧ x1.f.poisoned ≠ 0 ∧ !x1.f.tolerant then
      let y := x1.scrapeBody 0x0303
      (y.s.release y.f.pages [], 0x0303, 0)
    else
      let y := x1.sealPoint
      (y.s.release y.f.pages y.f.moved, 0, y.f.sealEpoch)

/-- Scrapes the folio of an engine's order with a code, leaving nothing changed (R248). -/
def FX.abandon (x : FX) (code : W16) : State × W16 × W32 :=
  let y := x.scrapeBody code
  (y.s.release y.f.pages [], code, 0)

end Sys2Proof.Machine
end

