-- ==== Sys2Proof/Machine/Fp.lean ====
section
/-! DEFINITION. Number formats, rounding and FP32 arithmetic, to the bit (R106 to R119). Values are
decoded to exact signed dyadic numbers, computed exactly, and rounded once. -/

namespace Sys2Proof.Machine

/-- What a format has beyond its finite values (R106, last two columns). -/
inductive Specials where
  | ieee      -- infinity at the all-ones exponent, NaN above it
  | nanOnly   -- E4M3: only S.1111.111 is NaN
  | none      -- every code is finite
  deriving DecidableEq, Repr

/-- A floating format: exponent bits, significand bits, bias, specials (R106). -/
structure FloatFmt where
  ebits : Nat
  mbits : Nat
  bias : Nat
  specials : Specials
  deriving DecidableEq, Repr

/-- An element format (R88, R106). -/
inductive ElemFmt where
  | e4m3 | e5m2 | e2m3 | e3m2 | e2m1 | bf16 | fp16 | int8 | fp32
  deriving DecidableEq, Repr

/-- R88, R106: the element format of a code; MX codes (0x81 to 0x85) name the element format of 0x01 to 0x05. -/
def ElemFmt.ofCode (c : Nat) : Option ElemFmt :=
  match c with
  | 0x01 => some .e4m3 | 0x02 => some .e5m2 | 0x03 => some .e2m3 | 0x04 => some .e3m2
  | 0x05 => some .e2m1 | 0x06 => some .bf16 | 0x07 => some .fp16 | 0x08 => some .int8
  | 0x09 => some .fp32
  | 0x81 => some .e4m3 | 0x82 => some .e5m2 | 0x83 => some .e2m3 | 0x84 => some .e3m2
  | 0x85 => some .e2m1
  | _ => none

/-- R109: the code names an MX operand. -/
def fmtIsMx (c : Nat) : Bool := decide (0x81 ≤ c) && decide (c ≤ 0x85)

/-- Bits of one element (R88, R108). -/
def ElemFmt.width : ElemFmt → Nat
  | .e4m3 => 8 | .e5m2 => 8 | .e2m3 => 6 | .e3m2 => 6 | .e2m1 => 4
  | .bf16 => 16 | .fp16 => 16 | .int8 => 8 | .fp32 => 32

/-- R106: the parameters of a floating format (INT8 has none; its row is not used). -/
def ElemFmt.params : ElemFmt → FloatFmt
  | .e4m3 => ⟨4, 3, 7, .nanOnly⟩
  | .e5m2 => ⟨5, 2, 15, .ieee⟩
  | .e2m3 => ⟨2, 3, 1, .none⟩
  | .e3m2 => ⟨3, 2, 3, .none⟩
  | .e2m1 => ⟨2, 1, 1, .none⟩
  | .bf16 => ⟨8, 7, 127, .ieee⟩
  | .fp16 => ⟨5, 10, 15, .ieee⟩
  | .int8 => ⟨8, 23, 127, .ieee⟩
  | .fp32 => ⟨8, 23, 127, .ieee⟩

/-- R110: the exponent of the largest finite value, emax. -/
def ElemFmt.emax : ElemFmt → Int
  | .e4m3 => 8 | .e5m2 => 15 | .e2m3 => 2 | .e3m2 => 4 | .e2m1 => 2
  | .bf16 => 127 | .fp16 => 15 | .int8 => 6 | .fp32 => 127

/-- A decoded value: NaN, a signed infinity, or the exact number (-1)^neg * m * 2^e. -/
inductive Val where
  | nan
  | inf (neg : Bool)
  | fin (neg : Bool) (m : Nat) (e : Int)
  deriving DecidableEq, Repr

/-- The largest finite magnitude's code. -/
def FloatFmt.maxCode (f : FloatFmt) : Nat :=
  match f.specials with
  | .ieee => (2 ^ f.ebits - 1) * 2 ^ f.mbits - 1
  | .nanOnly => 2 ^ (f.ebits + f.mbits) - 2
  | .none => 2 ^ (f.ebits + f.mbits) - 1

/-- The exponent of the smallest subnormal. -/
def FloatFmt.qmin (f : FloatFmt) : Int := 1 - (f.bias : Int) - (f.mbits : Int)

/-- R106: the value of a code of a floating format. -/
def FloatFmt.decode (f : FloatFmt) (c : Nat) : Val :=
  let mag := c % 2 ^ (f.ebits + f.mbits)
  let neg := c.testBit (f.ebits + f.mbits)
  let ex := mag / 2 ^ f.mbits
  let fr := mag % 2 ^ f.mbits
  if mag > f.maxCode then
    match f.specials with
    | .ieee => if fr = 0 then .inf neg else .nan
    | _ => .nan
  else if ex = 0 then .fin neg fr f.qmin
  else .fin neg (fr + 2 ^ f.mbits) (f.qmin + (ex : Int) - 1)

/-- R106: the value of an element code. -/
def ElemFmt.decode (f : ElemFmt) (c : Nat) : Val :=
  match f with
  | .int8 => let v := signedOf 8 c; .fin (decide (v < 0)) v.natAbs 0
  | f => f.params.decode c

/-- The value of an FP32 word. -/
def valOf (x : W32) : Val := ElemFmt.decode .fp32 x.toNat

/-- Rounding mode on output (R116), the stochastic one with its u = state[63:40] (R117). -/
inductive Rnd where
  | rne
  | rtz
  | sr (u : Nat)
  deriving DecidableEq, Repr

/-- `m * 2^e` in units of 2^q, rounded to an integer by the mode: the quotient's floor, its tie rule, or
floor (q + u) (R116, R117). -/
def roundUnits (r : Rnd) (m : Nat) (e q : Int) : Nat :=
  if q ≤ e then m * 2 ^ (e - q).toNat
  else
    let s := (q - e).toNat
    let fl := m / 2 ^ s
    let rem := m % 2 ^ s
    match r with
    | .rtz => fl
    | .rne =>
      if 2 * rem > 2 ^ s then fl + 1
      else if 2 * rem = 2 ^ s then fl + fl % 2
      else fl
    | .sr u => if rem * 2 ^ 24 + u * 2 ^ s ≥ 2 ^ (s + 24) then fl + 1 else fl

/-- The unbiased exponent of `m * 2^e`, m nonzero. -/
def expoOf (m : Nat) (e : Int) : Int := (Nat.log2 m : Int) + e

/-- Rounds a nonzero magnitude to the format's grid and gives its magnitude code before any overflow rule. -/
def FloatFmt.roundCode (f : FloatFmt) (r : Rnd) (m : Nat) (e : Int) : Nat :=
  if m = 0 then 0
  else
    let q := max (expoOf m e - (f.mbits : Int)) f.qmin
    roundUnits r m e q + (q - f.qmin).toNat * 2 ^ f.mbits

/-- The sign bit of a format. -/
def FloatFmt.signBit (f : FloatFmt) (neg : Bool) : Nat := if neg then 2 ^ (f.ebits + f.mbits) else 0

/-- R107: the positive canonical NaN of the format. -/
def ElemFmt.canonNan : ElemFmt → Nat
  | .fp32 => 0x7FC00000 | .bf16 => 0x7FC0 | .fp16 => 0x7E00
  | .e5m2 => 0x7F | .e4m3 => 0x7F
  | .e2m3 => 0x1F | .e3m2 => 0x1F | .e2m1 => 0x7 | .int8 => 0

/-- `m * 2^e > n * 2^g`, exactly. -/
def dyadGt (m : Nat) (e : Int) (n : Nat) (g : Int) : Bool :=
  if g ≤ e then decide (n < m * 2 ^ (e - g).toNat) else decide (n * 2 ^ (g - e).toNat < m)

/-- The magnitude exceeds the largest finite value of the format. -/
def FloatFmt.exceeds (f : FloatFmt) (m : Nat) (e : Int) : Bool :=
  match f.decode f.maxCode with
  | .fin _ n g => dyadGt m e n g
  | _ => false

/-- R116: rounds an exact value to an element format; the answer is the code and whether the conversion
is counted as a saturation. -/
def ElemFmt.encode (f : ElemFmt) (r : Rnd) (v : Val) : Nat × Bool :=
  match f with
  | .int8 =>
    match v with
    | .nan => (0, true)
    | .inf neg => (if neg then 0x80 else 0x7F, true)
    | .fin neg m e =>
      let n := roundUnits r m e 0
      let big := if neg then dyadGt m e 128 0 else dyadGt m e 127 0
      let c := if neg then (256 - min n 128) % 256 else min n 127
      (c, big)
  | f =>
    let p := f.params
    match v with
    | .nan =>
      match p.specials with
      | .none => (f.canonNan, true)
      | _ => (f.canonNan, false)
    | .inf neg =>
      match p.specials with
      | .ieee => (p.signBit neg + p.maxCode + 1, false)
      | _ => (p.signBit neg + p.maxCode, true)
    | .fin neg m e =>
      let c := p.roundCode r m e
      match p.specials with
      | .ieee =>
        let c' := if c > p.maxCode then
            (match r with | .rtz => p.maxCode | _ => p.maxCode + 1) else c
        (p.signBit neg + c', false)
      | _ => (p.signBit neg + min c p.maxCode, p.exceeds m e)

/-- R110, R136, R145: the code of a conversion that saturates: a finite value stays at the largest finite magnitude of the
format where R116 alone would make it infinite. -/
def ElemFmt.satCode (f : ElemFmt) (v : Val) (c : Nat) : Nat :=
  match f, v with
  | .int8, _ => c
  | f, .fin neg _ _ => min c (f.params.signBit neg + f.params.maxCode)
  | _, _ => c

/-- R136, R145: a value rounded to a format by nearest even, saturating; whether the conversion is counted (R116). -/
def ElemFmt.encodeSat (f : ElemFmt) (v : Val) : Nat × Bool :=
  (f.satCode v (f.encode .rne v).1, (f.encode .rne v).2)

/-- R119: a value rounded once to FP32, nearest even; NaN is canonical (R107). -/
def toF32 (v : Val) : W32 := BitVec.ofNat 32 (ElemFmt.encode .fp32 .rne v).1

/-- The exact signed integer of a finite value in units of 2^q, for q at most its exponent. -/
def unitsAt (neg : Bool) (m : Nat) (e q : Int) : Int :=
  let n : Int := ((m * 2 ^ (e - q).toNat : Nat) : Int)
  if neg then -n else n

/-- The exact sum of two values, IEEE zero signs in round to nearest (R119), opposite infinities NaN (R113). -/
def Val.add (a b : Val) : Val :=
  match a, b with
  | .nan, _ => .nan
  | _, .nan => .nan
  | .inf x, .inf y => if x = y then .inf x else .nan
  | .inf x, .fin .. => .inf x
  | .fin .., .inf y => .inf y
  | .fin na ma ea, .fin nb mb eb =>
    if ma = 0 ∧ mb = 0 then .fin (na && nb) 0 ea
    else
      let q := min ea eb
      let s := unitsAt na ma ea q + unitsAt nb mb eb q
      .fin (decide (s < 0)) s.natAbs q

/-- The exact product of two values (R111, R113). -/
def Val.mul (a b : Val) : Val :=
  match a, b with
  | .nan, _ => .nan
  | _, .nan => .nan
  | .inf x, .inf y => .inf (x != y)
  | .inf x, .fin y m _ => if m = 0 then .nan else .inf (x != y)
  | .fin x m _, .inf y => if m = 0 then .nan else .inf (x != y)
  | .fin x m e, .fin y n g => .fin (x != y) (m * n) (e + g)

/-- The value with its sign reversed. -/
def Val.neg : Val → Val
  | .nan => .nan
  | .inf x => .inf (!x)
  | .fin x m e => .fin (!x) m e

/-- The magnitude of a value. -/
def Val.abs : Val → Val
  | .nan => .nan
  | .inf _ => .inf false
  | .fin _ m e => .fin false m e

/-- The value times 2^k, exactly. -/
def Val.scale (v : Val) (k : Int) : Val :=
  match v with
  | .fin x m e => .fin x m (e + k)
  | v => v

/-- The value is NaN. -/
def Val.isNan : Val → Bool
  | .nan => true
  | _ => false

/-- The value is a zero of either sign. -/
def Val.isZero : Val → Bool
  | .fin _ 0 _ => true
  | _ => false

/-- The value is NaN or infinite. -/
def Val.isSpecial : Val → Bool
  | .fin .. => false
  | _ => true

/-- The sign bit of a value (false for NaN, which is positive canonical). -/
def Val.sign : Val → Bool
  | .nan => false
  | .inf x => x
  | .fin x _ _ => x

/-- `a < b` as numbers; false if either is NaN. -/
def Val.lt (a b : Val) : Bool :=
  match a, b with
  | .nan, _ => false
  | _, .nan => false
  | .inf x, .inf y => x && !y
  | .inf x, .fin .. => x
  | .fin .., .inf y => !y
  | .fin na ma ea, .fin nb mb eb =>
    let q := min ea eb
    decide (unitsAt na ma ea q < unitsAt nb mb eb q)

/-- FP32 addition (R119). -/
def f32Add (a b : W32) : W32 := toF32 ((valOf a).add (valOf b))
/-- FP32 subtraction (R119). -/
def f32Sub (a b : W32) : W32 := toF32 ((valOf a).add (valOf b).neg)
/-- FP32 multiplication (R119). -/
def f32Mul (a b : W32) : W32 := toF32 ((valOf a).mul (valOf b))
/-- FP32 fused multiply-add, a*b + c with one rounding (R119). -/
def f32Fma (a b c : W32) : W32 := toF32 (((valOf a).mul (valOf b)).add (valOf c))
/-- FP32 negation; a NaN result is canonical (R107). -/
def f32Neg (a : W32) : W32 := toF32 (valOf a).neg
/-- FP32 magnitude; a NaN result is canonical (R107). -/
def f32Abs (a : W32) : W32 := toF32 (valOf a).abs

/-- R119: maximum; NaN if either input is NaN, and +0 above -0. -/
def f32Max (a b : W32) : W32 :=
  let x := valOf a
  let y := valOf b
  if x.isNan || y.isNan then toF32 .nan
  else if x.lt y then b
  else if y.lt x then a
  else if x.sign then b else a

/-- R119: minimum; NaN if either input is NaN, and -0 below +0. -/
def f32Min (a b : W32) : W32 :=
  let x := valOf a
  let y := valOf b
  if x.isNan || y.isNan then toF32 .nan
  else if x.lt y then a
  else if y.lt x then b
  else if x.sign then a else b

/-- FP32 +0. -/
def f32Zero : W32 := 0
/-- FP32 1.0. -/
def f32One : W32 := 0x3F800000
/-- FP32 minus infinity. -/
def f32NegInf : W32 := 0xFF800000
/-- FP32 plus infinity. -/
def f32PosInf : W32 := 0x7F800000
/-- R107: the canonical FP32 NaN. -/
def f32Nan : W32 := 0x7FC00000

/-- R93: comparison giving 1.0 or 0.0; a comparison with NaN is not greater. -/
def f32CmpGt (a b : W32) : W32 := if (valOf b).lt (valOf a) then f32One else f32Zero

/-- R119: VEXPO as an integer: the true exponent, -150 for a zero, 128 for an infinity or NaN. -/
def expoInt (a : W32) : Int :=
  match valOf a with
  | .fin _ m e => if m = 0 then -150 else expoOf m e
  | _ => 128

/-- An integer as an exact value. -/
def Val.ofInt (i : Int) : Val := .fin (decide (i < 0)) i.natAbs 0

/-- R119: VEXPO gives the exponent as FP32. -/
def f32Expo (a : W32) : W32 := toF32 (Val.ofInt (expoInt a))

/-- R119: a value times 2^k, rounded once to nearest even. -/
def f32Ldexp (a : W32) (k : Int) : W32 := toF32 ((valOf a).scale k)

/-- The integer a finite FP32 value holds, rounded toward zero. -/
def f32ToInt (a : W32) : Int :=
  match valOf a with
  | .fin neg m e =>
    let n : Int := ((roundUnits .rtz m e 0 : Nat) : Int)
    if neg then -n else n
  | _ => 0

/-- The FP32 rounding to nearest of n / d, for the constants of R128 and 1/n of R132. -/
def f32OfRat (neg : Bool) (n d : Nat) : W32 :=
  -- 64 extra quotient bits with a sticky bit make the one rounding exact for every n, d below 2^32
  let k := 64 + Nat.log2 d
  let q := (n * 2 ^ k) / d
  let st := if (n * 2 ^ k) % d = 0 then 0 else 1
  toF32 (.fin neg (2 * q + st) (-(k : Int) - 1))

/-- R117: one advance of the stochastic-rounding generator. -/
def xorshift (s : W64) : W64 :=
  let s := s ^^^ (s <<< 13)
  let s := s ^^^ (s >>> 7)
  s ^^^ (s <<< 17)

/-- R118: a seed of 0 loads the golden-ratio constant. -/
def loadSeed (seed : W64) : W64 := if seed = 0 then 0x9E3779B97F4A7C15 else seed

/-- The rounding a field selects (R88, R93): 0 nearest even, 1 toward zero, 2 stochastic. -/
inductive RndMode where
  | rne | rtz | sr
  deriving DecidableEq, Repr

/-- R116 to R118: converts one value to a format in a mode, advancing the generator once exactly when the
mode is stochastic and the format is not FP32. Answers the code, whether it is counted, and the state. -/
def convertVal (f : ElemFmt) (r : RndMode) (st : W64) (v : Val) : Nat × Bool × W64 :=
  match f with
  | .fp32 => ((ElemFmt.encode .fp32 .rne v).1, false, st)
  | f =>
    match r with
    | .rne => let p := f.encode .rne v; (p.1, p.2, st)
    | .rtz => let p := f.encode .rtz v; (p.1, p.2, st)
    | .sr =>
      let st' := xorshift st
      let p := f.encode (.sr (st'.toNat / 2 ^ 40)) v
      (p.1, p.2, st')

/-- Converts one FP32 word (R116). A conversion to FP32 is the identity. -/
def convertF32 (f : ElemFmt) (r : RndMode) (st : W64) (x : W32) : Nat × Bool × W64 :=
  match f with
  | .fp32 => (x.toNat, false, st)
  | f => convertVal f r st (valOf x)

/-- Converts a run of FP32 words in order (R118); the count is of saturations. -/
def convertList (f : ElemFmt) (r : RndMode) : W64 → List W32 → List Nat × Nat × W64
  | st, [] => ([], 0, st)
  | st, x :: xs =>
    let (c, k, st') := convertF32 f r st x
    let (cs, n, st'') := convertList f r st' xs
    (c :: cs, (if k then 1 else 0) + n, st'')

/-- An element code widened exactly to FP32 (R93). -/
def widen (f : ElemFmt) (c : Nat) : W32 :=
  match f with
  | .fp32 => BitVec.ofNat 32 c
  | f => toF32 (f.decode c)

/-! ### Packed layouts (R108) -/

/-- Bytes of `n` packed elements. -/
def ElemFmt.bytesFor (f : ElemFmt) (n : Nat) : Nat := ceilDiv (n * f.width) 8

/-- The bytes that hold element `i` of packed elements. -/
def ElemFmt.spanOf (f : ElemFmt) (i : Nat) : Nat := (i * f.width + f.width - 1) / 8 - i * f.width / 8 + 1

/-- Element `i` of packed elements that start at byte `a` (R108: little-endian bit order within the run). -/
def getElem (m : Cells 8) (f : ElemFmt) (a i : Nat) : Nat :=
  let lo := i * f.width
  let b0 := lo / 8
  let b1 := (lo + f.width - 1) / 8
  bits (m.getLE (a + b0) (b1 - b0 + 1)) (lo % 8) f.width

/-- Packs element codes into bytes, the lowest element in the lowest bits (R108). -/
def packElems (f : ElemFmt) (cs : List Nat) : List Byte :=
  leBytes (f.bytesFor cs.length)
    ((cs.foldr (fun c acc => acc * 2 ^ f.width + c % 2 ^ f.width) 0))

/-! ### Microscaling blocks (R109, R110) -/

/-- R109: the value of an element under its E8M0 scale byte. -/
def mxValue (f : ElemFmt) (scale c : Nat) : Val :=
  if scale = 0xFF then .nan else (f.decode c).scale ((scale : Int) - 127)

/-- The larger magnitude of a list of finite values, as (m, e); (0, 0) when all are zero. -/
def maxMag : List Val → Nat × Int
  | [] => (0, 0)
  | v :: vs =>
    let (m, e) := maxMag vs
    match v with
    | .fin _ n g => if n ≠ 0 ∧ (m = 0 ∨ dyadGt n g m e) then (n, g) else (m, e)
    | _ => (m, e)

/-- R110, R118: converts values in order under a scale of 2^k, saturating, and advances the generator. -/
def convertScaled (f : ElemFmt) (r : RndMode) (k : Int) : W64 → List Val → List Nat × Nat × W64
  | st, [] => ([], 0, st)
  | st, v :: vs =>
    let (c, s, st') := convertVal f r st (v.scale k)
    let (cs, n, st'') := convertScaled f r k st' vs
    (f.satCode v c :: cs, (if s then 1 else 0) + n, st'')

/-- The generator after `n` advances. -/
def advance : Nat → W64 → W64
  | 0, s => s
  | n + 1, s => advance n (xorshift s)

/-- R110: one MX block: scale byte, element codes, saturations, generator. A block written as zeros still
advances the generator once an element in the stochastic mode (R118: elements whose value is exact, NaN or
infinite included); the infinities and NaNs of a block of scale 0xFF are not counted as conversions (log 161, DESIGN
CHOICE). -/
def mxBlock (f : ElemFmt) (r : RndMode) (st : W64) (vs : List Val) : Nat × List Nat × Nat × W64 :=
  let st0 := match r with | .sr => advance vs.length st | _ => st
  if vs.any Val.isSpecial then (0xFF, vs.map (fun _ => 0), 0, st0)
  else
    let (m, e) := maxMag vs
    if m = 0 then (0x00, vs.map (fun _ => 0), 0, st0)
    else
      let x := expoOf m e - f.emax
      let sb := (max 0 (min 254 (x + 127))).toNat
      let (cs, n, st') := convertScaled f r (127 - (sb : Int)) st vs
      (sb, cs, n, st')

end Sys2Proof.Machine
end

