-- ==== Sys2Proof/Machine/SfuTables.lean ====
section
/-! DEFINITION. The coefficient tables of exp2 and log2 (R121, R126). Each entry is the real value the
rule names, times its power of two, rounded to the nearest integer; the numbers were computed from
those formulas with 80 decimal digits. -/

namespace Sys2Proof.Machine

/-- R121: 2^(i/256) in 1.31, entries 0 to 31. -/
def exp2C0Part0 : List Nat :=
  [0x80000000, 0x8058D7D3, 0x80B1ED50, 0x810B40A2, 0x8164D1F4, 0x81BEA171, 0x8218AF43, 0x8272FB98,
   0x82CD8699, 0x83285072, 0x8383594F, 0x83DEA15C, 0x843A28C4, 0x8495EFB3, 0x84F1F656, 0x854E3CD9,
   0x85AAC368, 0x86078A2F, 0x8664915C, 0x86C1D91A, 0x871F6197, 0x877D2AFF, 0x87DB3580, 0x88398147,
   0x88980E81, 0x88F6DD5B, 0x8955EE03, 0x89B540A8, 0x8A14D575, 0x8A74AC9A, 0x8AD4C645, 0x8B3522A4]

/-- R121: 2^(i/256) in 1.31, entries 32 to 63. -/
def exp2C0Part1 : List Nat :=
  [0x8B95C1E4, 0x8BF6A435, 0x8C57C9C4, 0x8CB932C2, 0x8D1ADF5B, 0x8D7CCFC1, 0x8DDF0420, 0x8E417CA9,
   0x8EA4398B, 0x8F073AF6, 0x8F6A8118, 0x8FCE0C22, 0x9031DC43, 0x9095F1AC, 0x90FA4C8C, 0x915EED14,
   0x91C3D374, 0x9228FFDC, 0x928E727E, 0x92F42B89, 0x935A2B2F, 0x93C071A1, 0x9426FF10, 0x948DD3AD,
   0x94F4EFA9, 0x955C5337, 0x95C3FE87, 0x962BF1CC, 0x96942D37, 0x96FCB0FB, 0x97657D4A, 0x97CE9256]

/-- R121: 2^(i/256) in 1.31, entries 64 to 95. -/
def exp2C0Part2 : List Nat :=
  [0x9837F052, 0x98A1976F, 0x990B87E2, 0x9975C1DD, 0x99E04593, 0x9A4B1337, 0x9AB62AFD, 0x9B218D17,
   0x9B8D39BA, 0x9BF93119, 0x9C657368, 0x9CD200DC, 0x9D3ED9A7, 0x9DABFDFF, 0x9E196E19, 0x9E872A27,
   0x9EF53261, 0x9F6386F9, 0x9FD22825, 0xA041161B, 0xA0B05110, 0xA11FD938, 0xA18FAECB, 0xA1FFD1FC,
   0xA2704303, 0xA2E10215, 0xA3520F69, 0xA3C36B34, 0xA43515AE, 0xA4A70F0D, 0xA5195787, 0xA58BEF53]

/-- R121: 2^(i/256) in 1.31, entries 96 to 127. -/
def exp2C0Part3 : List Nat :=
  [0xA5FED6AA, 0xA6720DC1, 0xA6E594D0, 0xA7596C0F, 0xA7CD93B5, 0xA8420BFA, 0xA8B6D516, 0xA92BEF42,
   0xA9A15AB5, 0xAA1717A8, 0xAA8D2653, 0xAB0386EF, 0xAB7A39B6, 0xABF13EDF, 0xAC6896A5, 0xACE04140,
   0xAD583EEA, 0xADD08FDD, 0xAE493453, 0xAEC22C85, 0xAF3B78AD, 0xAFB51907, 0xB02F0DCC, 0xB0A95736,
   0xB123F582, 0xB19EE8E9, 0xB21A31A6, 0xB295CFF6, 0xB311C413, 0xB38E0E38, 0xB40AAEA2, 0xB487A58D]

/-- R121: 2^(i/256) in 1.31, entries 128 to 159. -/
def exp2C0Part4 : List Nat :=
  [0xB504F334, 0xB58297D4, 0xB60093A8, 0xB67EE6EF, 0xB6FD91E3, 0xB77C94C3, 0xB7FBEFCB, 0xB87BA338,
   0xB8FBAF47, 0xB97C1437, 0xB9FCD245, 0xBA7DE9AF, 0xBAFF5AB2, 0xBB81258D, 0xBC034A7F, 0xBC85C9C5,
   0xBD08A39F, 0xBD8BD84C, 0xBE0F680A, 0xBE935318, 0xBF1799B6, 0xBF9C3C25, 0xC0213AA2, 0xC0A6956F,
   0xC12C4CCA, 0xC1B260F6, 0xC238D231, 0xC2BFA0BD, 0xC346CCDA, 0xC3CE56CA, 0xC4563ECC, 0xC4DE8524]

/-- R121: 2^(i/256) in 1.31, entries 160 to 191. -/
def exp2C0Part5 : List Nat :=
  [0xC5672A11, 0xC5F02DD7, 0xC67990B6, 0xC70352F0, 0xC78D74C9, 0xC817F681, 0xC8A2D85D, 0xC92E1A9D,
   0xC9B9BD86, 0xCA45C15B, 0xCAD2265E, 0xCB5EECD4, 0xCBEC14FF, 0xCC799F24, 0xCD078B86, 0xCD95DA6B,
   0xCE248C15, 0xCEB3A0CA, 0xCF4318CF, 0xCFD2F468, 0xD06333DB, 0xD0F3D76C, 0xD184DF62, 0xD2164C02,
   0xD2A81D92, 0xD33A5458, 0xD3CCF09A, 0xD45FF29E, 0xD4F35AAC, 0xD587290A, 0xD61B5DFF, 0xD6AFF9D2]

/-- R121: 2^(i/256) in 1.31, entries 192 to 223. -/
def exp2C0Part6 : List Nat :=
  [0xD744FCCB, 0xD7DA6731, 0xD870394C, 0xD9067365, 0xD99D15C2, 0xDA3420AE, 0xDACB946F, 0xDB637150,
   0xDBFBB798, 0xDC946791, 0xDD2D8185, 0xDDC705BD, 0xDE60F482, 0xDEFB4E20, 0xDF9612DF, 0xE031430A,
   0xE0CCDEEC, 0xE168E6D0, 0xE2055B00, 0xE2A23BC8, 0xE33F8973, 0xE3DD444C, 0xE47B6CA0, 0xE51A02BB,
   0xE5B906E7, 0xE6587973, 0xE6F85AAB, 0xE798AADB, 0xE8396A50, 0xE8DA9958, 0xE97C3840, 0xEA1E4756]

/-- R121: 2^(i/256) in 1.31, entries 224 to 255. -/
def exp2C0Part7 : List Nat :=
  [0xEAC0C6E8, 0xEB63B743, 0xEC0718B6, 0xECAAEB90, 0xED4F301F, 0xEDF3E6B2, 0xEE990F98, 0xEF3EAB21,
   0xEFE4B99C, 0xF08B3B59, 0xF13230A8, 0xF1D999D9, 0xF281773C, 0xF329C923, 0xF3D28FDE, 0xF47BCBBE,
   0xF5257D15, 0xF5CFA434, 0xF67A416C, 0xF7255511, 0xF7D0DF73, 0xF87CE0E6, 0xF92959BB, 0xF9D64A47,
   0xFA83B2DB, 0xFB3193CC, 0xFBDFED6D, 0xFC8EC011, 0xFD3E0C0D, 0xFDEDD1B5, 0xFE9E115C, 0xFF4ECB59]

/-- R121: 2^(i/256) in 1.31. -/
def exp2C0 (i : Nat) : Nat :=
  (exp2C0Part0 ++ exp2C0Part1 ++ exp2C0Part2 ++ exp2C0Part3 ++ exp2C0Part4 ++ exp2C0Part5 ++ exp2C0Part6 ++ exp2C0Part7).getD i 0

/-- R121: ln 2 * 2^(i/256) in 1.31, entries 0 to 31. -/
def exp2C1Part0 : List Nat :=
  [0x58B90BFC, 0x58F6A0CD, 0x5934605C, 0x59724AC8, 0x59B0602C, 0x59EEA0A8, 0x5A2D0C5A, 0x5A6BA35F,
   0x5AAA65D5, 0x5AE953DA, 0x5B286D8D, 0x5B67B30D, 0x5BA72477, 0x5BE6C1E9, 0x5C268B84, 0x5C668164,
   0x5CA6A3AA, 0x5CE6F273, 0x5D276DDE, 0x5D68160B, 0x5DA8EB19, 0x5DE9ED27, 0x5E2B1C54, 0x5E6C78BF,
   0x5EAE0287, 0x5EEFB9CD, 0x5F319EB0, 0x5F73B14F, 0x5FB5F1CB, 0x5FF86042, 0x603AFCD6, 0x607DC7A5]

/-- R121: ln 2 * 2^(i/256) in 1.31, entries 32 to 63. -/
def exp2C1Part1 : List Nat :=
  [0x60C0C0D1, 0x6103E878, 0x61473EBC, 0x618AC3BD, 0x61CE779C, 0x62125A78, 0x62566C72, 0x629AADAC,
   0x62DF1E46, 0x6323BE60, 0x63688E1C, 0x63AD8D9B, 0x63F2BCFF, 0x64381C67, 0x647DABF6, 0x64C36BCD,
   0x65095C0D, 0x654F7CD8, 0x6595CE50, 0x65DC5097, 0x662303CF, 0x6669E818, 0x66B0FD96, 0x66F8446B,
   0x673FBCB9, 0x678766A2, 0x67CF4248, 0x68174FCF, 0x685F8F58, 0x68A80107, 0x68F0A4FF, 0x69397B61]

/-- R121: ln 2 * 2^(i/256) in 1.31, entries 64 to 95. -/
def exp2C1Part2 : List Nat :=
  [0x69828452, 0x69CBBFF4, 0x6A152E6A, 0x6A5ECFD8, 0x6AA8A462, 0x6AF2AC2A, 0x6B3CE754, 0x6B875604,
   0x6BD1F85D, 0x6C1CCE84, 0x6C67D89D, 0x6CB316CB, 0x6CFE8932, 0x6D4A2FF8, 0x6D960B3F, 0x6DE21B2E,
   0x6E2E5FE7, 0x6E7AD990, 0x6EC7884E, 0x6F146C46, 0x6F61859B, 0x6FAED474, 0x6FFC58F6, 0x704A1346,
   0x70980388, 0x70E629E4, 0x7134867D, 0x7183197A, 0x71D1E301, 0x7220E337, 0x72701A42, 0x72BF8849]

/-- R121: ln 2 * 2^(i/256) in 1.31, entries 96 to 127. -/
def exp2C1Part3 : List Nat :=
  [0x730F2D72, 0x735F09E2, 0x73AF1DC0, 0x73FF6933, 0x744FEC62, 0x74A0A772, 0x74F19A8B, 0x7542C5D4,
   0x75942973, 0x75E5C590, 0x76379A52, 0x7689A7E0, 0x76DBEE62, 0x772E6DFF, 0x778126DF, 0x77D4192A,
   0x78274507, 0x787AAA9E, 0x78CE4A18, 0x7922239C, 0x79763754, 0x79CA8566, 0x7A1F0DFD, 0x7A73D140,
   0x7AC8CF58, 0x7B1E086E, 0x7B737CAB, 0x7BC92C38, 0x7C1F173E, 0x7C753DE7, 0x7CCBA05B, 0x7D223EC5]

/-- R121: ln 2 * 2^(i/256) in 1.31, entries 128 to 159. -/
def exp2C1Part4 : List Nat :=
  [0x7D79194E, 0x7DD0301F, 0x7E278363, 0x7E7F1344, 0x7ED6DFEB, 0x7F2EE983, 0x7F873036, 0x7FDFB42E,
   0x80387596, 0x80917499, 0x80EAB161, 0x81442C1A, 0x819DE4ED, 0x81F7DC08, 0x82521193, 0x82AC85BC,
   0x830738AD, 0x83622A92, 0x83BD5B96, 0x8418CBE6, 0x84747BAE, 0x84D06B19, 0x852C9A53, 0x85890989,
   0x85E5B8E8, 0x8642A89C, 0x869FD8D1, 0x86FD49B4, 0x875AFB72, 0x87B8EE39, 0x88172235, 0x88759794]

/-- R121: ln 2 * 2^(i/256) in 1.31, entries 160 to 191. -/
def exp2C1Part5 : List Nat :=
  [0x88D44E82, 0x8933472E, 0x899281C5, 0x89F1FE75, 0x8A51BD6C, 0x8AB1BED7, 0x8B1202E5, 0x8B7289C5,
   0x8BD353A3, 0x8C3460B0, 0x8C95B119, 0x8CF7450E, 0x8D591CBD, 0x8DBB3855, 0x8E1D9806, 0x8E803BFE,
   0x8EE3246E, 0x8F465184, 0x8FA9C370, 0x900D7A62, 0x9071768A, 0x90D5B818, 0x913A3F3C, 0x919F0C27,
   0x92041F08, 0x92697811, 0x92CF1772, 0x9334FD5C, 0x939B29FF, 0x94019D8E, 0x94685839, 0x94CF5A31]

/-- R121: ln 2 * 2^(i/256) in 1.31, entries 192 to 223. -/
def exp2C1Part6 : List Nat :=
  [0x9536A3A8, 0x959E34D0, 0x96060DDB, 0x966E2EFA, 0x96D6985F, 0x973F4A3D, 0x97A844C5, 0x9811882B,
   0x987B14A0, 0x98E4EA58, 0x994F0986, 0x99B9725C, 0x9A24250D, 0x9A8F21CD, 0x9AFA68CF, 0x9B65FA47,
   0x9BD1D669, 0x9C3DFD67, 0x9CAA6F77, 0x9D172CCC, 0x9D84359A, 0x9DF18A17, 0x9E5F2A75, 0x9ECD16EB,
   0x9F3B4FAD, 0x9FA9D4F0, 0xA018A6E8, 0xA087C5CC, 0xA0F731D1, 0xA166EB2B, 0xA1D6F212, 0xA24746BA]

/-- R121: ln 2 * 2^(i/256) in 1.31, entries 224 to 255. -/
def exp2C1Part7 : List Nat :=
  [0xA2B7E959, 0xA328DA27, 0xA39A1958, 0xA40BA724, 0xA47D83C1, 0xA4EFAF65, 0xA5622A48, 0xA5D4F4A0,
   0xA6480EA5, 0xA6BB788E, 0xA72F3293, 0xA7A33CEA, 0xA81797CC, 0xA88C4371, 0xA9014011, 0xA9768DE3,
   0xA9EC2D21, 0xAA621E03, 0xAAD860C1, 0xAB4EF594, 0xABC5DCB6, 0xAC3D165F, 0xACB4A2C8, 0xAD2C822C,
   0xADA4B4C4, 0xAE1D3AC9, 0xAE961475, 0xAF0F4203, 0xAF88C3AC, 0xB00299AB, 0xB07CC43B, 0xB0F74397]

/-- R121: ln 2 * 2^(i/256) in 1.31. -/
def exp2C1 (i : Nat) : Nat :=
  (exp2C1Part0 ++ exp2C1Part1 ++ exp2C1Part2 ++ exp2C1Part3 ++ exp2C1Part4 ++ exp2C1Part5 ++ exp2C1Part6 ++ exp2C1Part7).getD i 0

/-- R121: (ln 2)^2/2 * 2^(i/256) in 0.32, entries 0 to 31. -/
def exp2C2Part0 : List Nat :=
  [0x3D7F7BFF, 0x3DAA2B56, 0x3DD4F84D, 0x3DFFE2F9, 0x3E2AEB6F, 0x3E5611C3, 0x3E81560B, 0x3EACB85A,
   0x3ED838C6, 0x3F03D764, 0x3F2F9448, 0x3F5B6F88, 0x3F876939, 0x3FB3816F, 0x3FDFB841, 0x400C0DC3,
   0x4038820A, 0x4065152C, 0x4091C73E, 0x40BE9856, 0x40EB888A, 0x411897EE, 0x4145C699, 0x417314A1,
   0x41A0821A, 0x41CE0F1B, 0x41FBBBBA, 0x4229880D, 0x42577429, 0x42858025, 0x42B3AC17, 0x42E1F815]

/-- R121: (ln 2)^2/2 * 2^(i/256) in 0.32, entries 32 to 63. -/
def exp2C2Part1 : List Nat :=
  [0x43106435, 0x433EF08E, 0x436D9D36, 0x439C6A43, 0x43CB57CC, 0x43FA65E8, 0x442994AC, 0x4458E431,
   0x4488548B, 0x44B7E5D3, 0x44E79820, 0x45176B87, 0x45476020, 0x45777602, 0x45A7AD44, 0x45D805FE,
   0x46088046, 0x46391C33, 0x4669D9DE, 0x469AB95E, 0x46CBBACA, 0x46FCDE39, 0x472E23C3, 0x475F8B81,
   0x47911588, 0x47C2C1F3, 0x47F490D8, 0x4826824E, 0x48589670, 0x488ACD53, 0x48BD2711, 0x48EFA3C1]

/-- R121: (ln 2)^2/2 * 2^(i/256) in 0.32, entries 64 to 95. -/
def exp2C2Part2 : List Nat :=
  [0x4922437C, 0x4955065B, 0x4987EC75, 0x49BAF5E3, 0x49EE22BD, 0x4A21731D, 0x4A54E71A, 0x4A887ECE,
   0x4ABC3A51, 0x4AF019BD, 0x4B241D29, 0x4B5844B0, 0x4B8C9069, 0x4BC1006F, 0x4BF594DA, 0x4C2A4DC4,
   0x4C5F2B46, 0x4C942D7A, 0x4CC95478, 0x4CFEA05B, 0x4D34113C, 0x4D69A734, 0x4D9F625E, 0x4DD542D3,
   0x4E0B48AD, 0x4E417407, 0x4E77C4FA, 0x4EAE3B9F, 0x4EE4D813, 0x4F1B9A6E, 0x4F5282CA, 0x4F899144]

/-- R121: (ln 2)^2/2 * 2^(i/256) in 0.32, entries 96 to 127. -/
def exp2C2Part3 : List Nat :=
  [0x4FC0C5F3, 0x4FF820F5, 0x502FA262, 0x50674A56, 0x509F18EB, 0x50D70E3C, 0x510F2A64, 0x51476D7E,
   0x517FD7A5, 0x51B868F4, 0x51F12187, 0x522A0178, 0x526308E3, 0x529C37E3, 0x52D58E94, 0x530F0D11,
   0x5348B376, 0x538281DF, 0x53BC7867, 0x53F6972A, 0x5430DE45, 0x546B4DD2, 0x54A5E5EF, 0x54E0A6B7,
   0x551B9047, 0x5556A2BB, 0x5591DE2F, 0x55CD42BF, 0x5608D089, 0x564487A9, 0x5680683C, 0x56BC725D]

/-- R121: (ln 2)^2/2 * 2^(i/256) in 0.32, entries 128 to 159. -/
def exp2C2Part4 : List Nat :=
  [0x56F8A62B, 0x573503C3, 0x57718B40, 0x57AE3CC0, 0x57EB1861, 0x58281E40, 0x58654E79, 0x58A2A92B,
   0x58E02E72, 0x591DDE6D, 0x595BB939, 0x5999BEF4, 0x59D7EFBB, 0x5A164BAC, 0x5A54D2E6, 0x5A938586,
   0x5AD263AB, 0x5B116D73, 0x5B50A2FB, 0x5B900463, 0x5BCF91C9, 0x5C0F4B4B, 0x5C4F3108, 0x5C8F431F,
   0x5CCF81AE, 0x5D0FECD5, 0x5D5084B2, 0x5D914964, 0x5DD23B0A, 0x5E1359C5, 0x5E54A5B2, 0x5E961EF1]

/-- R121: (ln 2)^2/2 * 2^(i/256) in 0.32, entries 160 to 191. -/
def exp2C2Part5 : List Nat :=
  [0x5ED7C5A2, 0x5F1999E5, 0x5F5B9BD8, 0x5F9DCB9C, 0x5FE02951, 0x6022B516, 0x60656F0B, 0x60A85751,
   0x60EB6E07, 0x612EB34D, 0x61722745, 0x61B5CA0E, 0x61F99BC9, 0x623D9C97, 0x6281CC98, 0x62C62BED,
   0x630ABAB7, 0x634F7916, 0x6394672D, 0x63D9851B, 0x641ED302, 0x64645104, 0x64A9FF42, 0x64EFDDDC,
   0x6535ECF6, 0x657C2CB0, 0x65C29D2D, 0x66093E8D, 0x665010F4, 0x66971483, 0x66DE495B, 0x6725AFA1]

/-- R121: (ln 2)^2/2 * 2^(i/256) in 0.32, entries 192 to 223. -/
def exp2C2Part6 : List Nat :=
  [0x676D4775, 0x67B510FA, 0x67FD0C52, 0x684539A1, 0x688D9909, 0x68D62AAC, 0x691EEEAE, 0x6967E531,
   0x69B10E59, 0x69FA6A48, 0x6A43F922, 0x6A8DBB0B, 0x6AD7B025, 0x6B21D894, 0x6B6C347D, 0x6BB6C401,
   0x6C018746, 0x6C4C7E70, 0x6C97A9A2, 0x6CE30900, 0x6D2E9CAF, 0x6D7A64D3, 0x6DC66190, 0x6E12930B,
   0x6E5EF969, 0x6EAB94CD, 0x6EF8655E, 0x6F456B40, 0x6F92A698, 0x6FE0178A, 0x702DBE3D, 0x707B9AD5]

/-- R121: (ln 2)^2/2 * 2^(i/256) in 0.32, entries 224 to 255. -/
def exp2C2Part7 : List Nat :=
  [0x70C9AD79, 0x7117F64D, 0x71667576, 0x71B52B1C, 0x72041763, 0x72533A72, 0x72A2946E, 0x72F2257E,
   0x7341EDC8, 0x7391ED72, 0x73E224A3, 0x74329381, 0x74833A33, 0x74D418DF, 0x75252FAD, 0x75767EC3,
   0x75C80649, 0x7619C665, 0x766BBF3F, 0x76BDF0FF, 0x77105BCB, 0x7762FFCC, 0x77B5DD28, 0x7808F409,
   0x785C4496, 0x78AFCEF6, 0x79039352, 0x795791D3, 0x79ABCAA0, 0x7A003DE3, 0x7A54EBC2, 0x7AA9D469]

/-- R121: (ln 2)^2/2 * 2^(i/256) in 0.32. -/
def exp2C2 (i : Nat) : Nat :=
  (exp2C2Part0 ++ exp2C2Part1 ++ exp2C2Part2 ++ exp2C2Part3 ++ exp2C2Part4 ++ exp2C2Part5 ++ exp2C2Part6 ++ exp2C2Part7).getD i 0

/-- R126: log2 (1 + j/256) in 0.32, entries 0 to 31. -/
def log2D0Part0 : List Nat :=
  [0x00000000, 0x01709C47, 0x02DFCA17, 0x044D8C46, 0x05B9E5A1, 0x0724D8EF, 0x088E68EB, 0x09F6984A,
   0x0B5D69BB, 0x0CC2DFE2, 0x0E26FD5D, 0x0F89C4C2, 0x10EB38A0, 0x124B5B7E, 0x13AA2FDD, 0x1507B836,
   0x1663F6FB, 0x17BEEE97, 0x1918A16E, 0x1A7111DF, 0x1BC84241, 0x1D1E34E3, 0x1E72EC11, 0x1FC66A0F,
   0x2118B11A, 0x2269C369, 0x23B9A32F, 0x25085296, 0x2655D3C5, 0x27A228DB, 0x28ED53F3, 0x2A375721]

/-- R126: log2 (1 + j/256) in 0.32, entries 32 to 63. -/
def log2D0Part1 : List Nat :=
  [0x2B803474, 0x2CC7EDF6, 0x2E0E85AA, 0x2F53FD90, 0x309857A0, 0x31DB95D0, 0x331DBA0F, 0x345EC646,
   0x359EBC5B, 0x36DD9E2F, 0x381B6D9C, 0x39582C79, 0x3A93DC98, 0x3BCE7FC7, 0x3D0817CF, 0x3E40A672,
   0x3F782D72, 0x40AEAE89, 0x41E42B6F, 0x4318A5D5, 0x444C1F6B, 0x457E99DB, 0x46B016CA, 0x47E097DB,
   0x49101EAC, 0x4A3EACD7, 0x4B6C43F1, 0x4C98E58E, 0x4DC4933B, 0x4EEF4E83, 0x501918EC, 0x5141F3FB]

/-- R126: log2 (1 + j/256) in 0.32, entries 64 to 95. -/
def log2D0Part2 : List Nat :=
  [0x5269E12F, 0x5390E204, 0x54B6F7F1, 0x55DC246D, 0x570068E8, 0x5823C6D1, 0x59463F92, 0x5A67D492,
   0x5B888736, 0x5CA858DF, 0x5DC74AEA, 0x5EE55EB1, 0x6002958C, 0x611EF0CF, 0x623A71CC, 0x635519CF,
   0x646EEA24, 0x6587E415, 0x66A008E4, 0x67B759D6, 0x68CDD82A, 0x69E3851C, 0x6AF861E6, 0x6C0C6FC0,
   0x6D1FAFDD, 0x6E322370, 0x6F43CBA8, 0x7054A9B1, 0x7164BEB5, 0x72740BDB, 0x73829249, 0x74905320]

/-- R126: log2 (1 + j/256) in 0.32, entries 96 to 127. -/
def log2D0Part3 : List Nat :=
  [0x759D4F81, 0x76A98888, 0x77B4FF51, 0x78BFB4F4, 0x79C9AA88, 0x7AD2E11F, 0x7BDB59CD, 0x7CE3159F,
   0x7DEA15A3, 0x7EF05AE4, 0x7FF5E66A, 0x80FAB93C, 0x81FED45D, 0x830238D0, 0x8404E794, 0x8506E1A8,
   0x86082807, 0x8708BBAA, 0x88089D8B, 0x8907CE9D, 0x8A064FD5, 0x8B042225, 0x8C01467C, 0x8CFDBDC8,
   0x8DF988F5, 0x8EF4A8ED, 0x8FEF1E98, 0x90E8EADE, 0x91E20EA1, 0x92DA8AC6, 0x93D2602C, 0x94C98FB4]

/-- R126: log2 (1 + j/256) in 0.32, entries 128 to 159. -/
def log2D0Part4 : List Nat :=
  [0x95C01A3A, 0x96B6009B, 0x97AB43AF, 0x989FE451, 0x9993E356, 0x9A874193, 0x9B79FFDB, 0x9C6C1F01,
   0x9D5D9FD5, 0x9E4E8325, 0x9F3EC9BD, 0xA02E746A, 0xA11D83F5, 0xA20BF926, 0xA2F9D4C5, 0xA3E71797,
   0xA4D3C25E, 0xA5BFD5DF, 0xA6AB52DA, 0xA7963A0D, 0xA8808C38, 0xA96A4A17, 0xAA537465, 0xAB3C0BDC,
   0xAC241135, 0xAD0B8526, 0xADF26866, 0xAED8BBA8, 0xAFBE7FA1, 0xB0A3B502, 0xB1885C7B, 0xB26C76BC]

/-- R126: log2 (1 + j/256) in 0.32, entries 160 to 191. -/
def log2D0Part5 : List Nat :=
  [0xB3500472, 0xB433064B, 0xB5157CF3, 0xB5F76913, 0xB6D8CB54, 0xB7B9A45E, 0xB899F4D9, 0xB979BD69,
   0xBA58FEB2, 0xBB37B959, 0xBC15EDFF, 0xBCF39D45, 0xBDD0C7CA, 0xBEAD6E2D, 0xBF89910C, 0xC0653103,
   0xC1404EAE, 0xC21AEAA6, 0xC2F50586, 0xC3CE9FE4, 0xC4A7BA58, 0xC5805579, 0xC65871DA, 0xC7301011,
   0xC80730B0, 0xC8DDD449, 0xC9B3FB6D, 0xCA89A6AC, 0xCB5ED695, 0xCC338BB7, 0xCD07C69E, 0xCDDB87D6]

/-- R126: log2 (1 + j/256) in 0.32, entries 192 to 223. -/
def log2D0Part6 : List Nat :=
  [0xCEAECFEB, 0xCF819F66, 0xD053F6D2, 0xD125D6B7, 0xD1F73F9C, 0xD2C83209, 0xD398AE81, 0xD468B58C,
   0xD53847AC, 0xD6076565, 0xD6D60F39, 0xD7A445A9, 0xD8720936, 0xD93F5A60, 0xDA0C39A5, 0xDAD8A784,
   0xDBA4A47B, 0xDC703104, 0xDD3B4D9D, 0xDE05FAC0, 0xDED038E6, 0xDF9A088A, 0xE0636A24, 0xE12C5E2B,
   0xE1F4E517, 0xE2BCFF5E, 0xE384AD75, 0xE44BEFD0, 0xE512C6E5, 0xE5D93326, 0xE69F3506, 0xE764CCF7]

/-- R126: log2 (1 + j/256) in 0.32, entries 224 to 255. -/
def log2D0Part7 : List Nat :=
  [0xE829FB69, 0xE8EEC0CE, 0xE9B31D94, 0xEA77122B, 0xEB3A9F02, 0xEBFDC485, 0xECC08322, 0xED82DB45,
   0xEE44CD5A, 0xEF0659CC, 0xEFC78104, 0xF088436D, 0xF148A170, 0xF2089B75, 0xF2C831E4, 0xF3876524,
   0xF446359B, 0xF504A3AF, 0xF5C2AFC6, 0xF6805A44, 0xF73DA38E, 0xF7FA8C05, 0xF8B7140F, 0xF9733C0C,
   0xFA2F045E, 0xFAEA6D67, 0xFBA57787, 0xFC60231E, 0xFD1A708C, 0xFDD4602E, 0xFE8DF264, 0xFF47278B]

/-- R126: log2 (1 + j/256) in 0.32. -/
def log2D0 (i : Nat) : Nat :=
  (log2D0Part0 ++ log2D0Part1 ++ log2D0Part2 ++ log2D0Part3 ++ log2D0Part4 ++ log2D0Part5 ++ log2D0Part6 ++ log2D0Part7).getD i 0

/-- R126: 1/((1 + j/256) ln 2) in 1.31, entries 0 to 31. -/
def log2D1Part0 : List Nat :=
  [0xB8AA3B29, 0xB7F248E0, 0xB73BC3A2, 0xB686A734, 0xB5D2EF6C, 0xB5209830, 0xB46F9D79, 0xB3BFFB4A,
   0xB311ADBC, 0xB264B0F1, 0xB1B9011E, 0xB10E9A86, 0xB0657978, 0xAFBD9A53, 0xAF16F984, 0xAE719385,
   0xADCD64DC, 0xAD2A6A1D, 0xAC889FEB, 0xABE802F1, 0xAB488FEB, 0xAAAA439D, 0xAA0D1ADB, 0xA9711280,
   0xA8D62776, 0xA83C56B2, 0xA7A39D32, 0xA70BF801, 0xA6756434, 0xA5DFDEE9, 0xA54B654B, 0xA4B7F48C]

/-- R126: 1/((1 + j/256) ln 2) in 1.31, entries 32 to 63. -/
def log2D1Part1 : List Nat :=
  [0xA42589EC, 0xA39422B1, 0xA303BC2C, 0xA27453B7, 0xA1E5E6B8, 0xA1587299, 0xA0CBF4D2, 0xA0406AE1,
   0x9FB5D24D, 0x9F2C28A7, 0x9EA36B85, 0x9E1B988A, 0x9D94AD5D, 0x9D0EA7B0, 0x9C898539, 0x9C0543BA,
   0x9B81E0FA, 0x9AFF5AC9, 0x9A7DAEFC, 0x99FCDB72, 0x997CDE0E, 0x98FDB4BE, 0x987F5D73, 0x9801D627,
   0x97851CDA, 0x97092F92, 0x968E0C5C, 0x9613B14D, 0x959A1C7C, 0x95214C0B, 0x94A93E1E, 0x9431F0E2]

/-- R126: 1/((1 + j/256) ln 2) in 1.31, entries 64 to 95. -/
def log2D1Part2 : List Nat :=
  [0x93BB6287, 0x93459146, 0x92D07B5C, 0x925C1F0A, 0x91E87A99, 0x91758C56, 0x91035295, 0x9091CBAD,
   0x9020F5FB, 0x8FB0CFE2, 0x8F4157C9, 0x8ED28C1D, 0x8E646B4E, 0x8DF6F3D3, 0x8D8A2426, 0x8D1DFAC6,
   0x8CB27638, 0x8C479503, 0x8BDD55B5, 0x8B73B6DF, 0x8B0AB716, 0x8AA254F4, 0x8A3A8F17, 0x89D36422,
   0x896CD2BA, 0x8906D989, 0x88A1773E, 0x883CAA8A, 0x87D87224, 0x8774CCC6, 0x8711B92B, 0x86AF3617]

/-- R126: 1/((1 + j/256) ln 2) in 1.31, entries 96 to 127. -/
def log2D1Part3 : List Nat :=
  [0x864D424D, 0x85EBDC95, 0x858B03BC, 0x852AB690, 0x84CAF3E4, 0x846BBA8F, 0x840D0969, 0x83AEDF50,
   0x83513B23, 0x82F41BC5, 0x8297801D, 0x823B6714, 0x81DFCF96, 0x8184B893, 0x812A20FD, 0x80D007C9,
   0x80766BF0, 0x801D4C6D, 0x7FC4A83E, 0x7F6C7E63, 0x7F14CDE0, 0x7EBD95BB, 0x7E66D4FD, 0x7E108AB1,
   0x7DBAB5E6, 0x7D6555AB, 0x7D106915, 0x7CBBEF39, 0x7C67E72F, 0x7C145011, 0x7BC128FD, 0x7B6E7112]

/-- R126: 1/((1 + j/256) ln 2) in 1.31, entries 128 to 159. -/
def log2D1Part4 : List Nat :=
  [0x7B1C2771, 0x7ACA4B3F, 0x7A78DBA1, 0x7A27D7C1, 0x79D73EC9, 0x79870FE7, 0x79374A48, 0x78E7ED1E,
   0x7898F79E, 0x784A68FB, 0x77FC406E, 0x77AE7D30, 0x77611E7D, 0x77142392, 0x76C78BAF, 0x767B5614,
   0x762F8206, 0x75E40EC9, 0x7598FBA5, 0x754E47E2, 0x7503F2CC, 0x74B9FBAD, 0x747061D6, 0x74272495,
   0x73DE433D, 0x7395BD21, 0x734D9195, 0x7305BFF2, 0x72BE478F, 0x727727C5, 0x72305FF2, 0x71E9EF72]

/-- R126: 1/((1 + j/256) ln 2) in 1.31, entries 160 to 191. -/
def log2D1Part5 : List Nat :=
  [0x71A3D5A3, 0x715E11E7, 0x7118A39F, 0x70D38A2E, 0x708EC4FA, 0x704A5368, 0x700634E0, 0x6FC268CC,
   0x6F7EEE97, 0x6F3BC5AB, 0x6EF8ED78, 0x6EB6656B, 0x6E742CF5, 0x6E324387, 0x6DF0A894, 0x6DAF5B91,
   0x6D6E5BF3, 0x6D2DA930, 0x6CED42C0, 0x6CAD281D, 0x6C6D58C1, 0x6C2DD429, 0x6BEE99D0, 0x6BAFA935,
   0x6B7101D7, 0x6B32A337, 0x6AF48CD6, 0x6AB6BE37, 0x6A7936DE, 0x6A3BF650, 0x69FEFC13, 0x69C247AE]

/-- R126: 1/((1 + j/256) ln 2) in 1.31, entries 192 to 223. -/
def log2D1Part6 : List Nat :=
  [0x6985D8AA, 0x6949AE8F, 0x690DC8E9, 0x68D22742, 0x6896C927, 0x685BAE26, 0x6820D5CD, 0x67E63FAB,
   0x67ABEB52, 0x6771D851, 0x6738063D, 0x66FE74A8, 0x66C52327, 0x668C114E, 0x66533EB4, 0x661AAAF1,
   0x65E2559B, 0x65AA3E4D, 0x6572649F, 0x653AC82D, 0x65036891, 0x64CC4569, 0x64955E51, 0x645EB2E8,
   0x642842CD, 0x63F20D9E, 0x63BC12FD, 0x6386528C, 0x6350CBEB, 0x631B7EBF, 0x62E66AAA, 0x62B18F51]

/-- R126: 1/((1 + j/256) ln 2) in 1.31, entries 224 to 255. -/
def log2D1Part7 : List Nat :=
  [0x627CEC5A, 0x6248816B, 0x62144E29, 0x61E0523D, 0x61AC8D4F, 0x6178FF08, 0x6145A711, 0x61128514,
   0x60DF98BE, 0x60ACE1B8, 0x607A5FB1, 0x60481255, 0x6015F952, 0x5FE41456, 0x5FB26310, 0x5F80E531,
   0x5F4F9A68, 0x5F1E8267, 0x5EED9CDF, 0x5EBCE982, 0x5E8C6805, 0x5E5C1819, 0x5E2BF974, 0x5DFC0BCA,
   0x5DCC4ED0, 0x5D9CC23D, 0x5D6D65C6, 0x5D3E3924, 0x5D0F3C0D, 0x5CE06E3A, 0x5CB1CF64, 0x5C835F44]

/-- R126: 1/((1 + j/256) ln 2) in 1.31. -/
def log2D1 (i : Nat) : Nat :=
  (log2D1Part0 ++ log2D1Part1 ++ log2D1Part2 ++ log2D1Part3 ++ log2D1Part4 ++ log2D1Part5 ++ log2D1Part6 ++ log2D1Part7).getD i 0

/-- R126: 1/(2 (1 + j/256)^2 ln 2) in 0.32, entries 0 to 31. -/
def log2D2Part0 : List Nat :=
  [0xB8AA3B29, 0xB73B0DD3, 0xB5D0235B, 0xB4696AF3, 0xB306D41B, 0xB1A84EA7, 0xB04DCAB8, 0xAEF738BD,
   0xADA48970, 0xAC55ADD4, 0xAB0A9736, 0xA9C33727, 0xA87F7F7E, 0xA73F6255, 0xA602D208, 0xA4C9C133,
   0xA39422B1, 0xA261E99A, 0xA1330944, 0xA007753E, 0x9EDF2151, 0x9DBA017E, 0x9C9809FF, 0x9B792F41,
   0x9A5D65E8, 0x9944A2CC, 0x982EDAF5, 0x971C039F, 0x960C1236, 0x94FEFC54, 0x93F4B7C2, 0x92ED3A78]

/-- R126: 1/(2 (1 + j/256)^2 ln 2) in 0.32, entries 32 to 63. -/
def log2D2Part1 : List Nat :=
  [0x91E87A99, 0x90E66E74, 0x8FE70C82, 0x8EEA4B68, 0x8DF021F2, 0x8CF88713, 0x8C0371EA, 0x8B10D9B6,
   0x8A20B5E2, 0x8932FDFA, 0x8847A9AF, 0x875EB0D6, 0x86780B68, 0x8593B17D, 0x84B19B51, 0x83D1C140,
   0x82F41BC5, 0x8218A37E, 0x813F5123, 0x80681D8E, 0x7F9301B6, 0x7EBFF6AC, 0x7DEEF5A3, 0x7D1FF7E5,
   0x7C52F6DA, 0x7B87EC05, 0x7ABED102, 0x79F79F88, 0x79325168, 0x786EE08A, 0x77AD46F0, 0x76ED7EB4]

/-- R126: 1/(2 (1 + j/256)^2 ln 2) in 0.32, entries 64 to 95. -/
def log2D2Part2 : List Nat :=
  [0x762F8206, 0x75734B2F, 0x74B8D48F, 0x7400189A, 0x734911DB, 0x7293BAF3, 0x71E00E97, 0x712E0793,
   0x707DA0C4, 0x6FCED51D, 0x6F219FA4, 0x6E75FB72, 0x6DCBE3B5, 0x6D2353A9, 0x6C7C46A1, 0x6BD6B7FF,
   0x6B32A337, 0x6A9003CF, 0x69EED55D, 0x694F1389, 0x68B0BA0B, 0x6813C4A8, 0x67782F3A, 0x66DDF5A6,
   0x664513E3, 0x65AD85F6, 0x651747F2, 0x648255FA, 0x63EEAC3E, 0x635C46FC, 0x62CB2280, 0x623B3B24]

/-- R126: 1/(2 (1 + j/256)^2 ln 2) in 0.32, entries 96 to 127. -/
def log2D2Part3 : List Nat :=
  [0x61AC8D4F, 0x611F1574, 0x6092D014, 0x6007B9BC, 0x5F7DCF06, 0x5EF50C97, 0x5E6D6F22, 0x5DE6F363,
   0x5D619624, 0x5CDD543A, 0x5C5A2A83, 0x5BD815EB, 0x5B571367, 0x5AD71FF7, 0x5A5838A6, 0x59DA5A88,
   0x595D82BD, 0x58E1AE6E, 0x5866DACE, 0x57ED0519, 0x57742A95, 0x56FC4891, 0x56855C66, 0x560F6375,
   0x559A5B2A, 0x552640F7, 0x54B31258, 0x5440CCD1, 0x53CF6DEF, 0x535EF347, 0x52EF5A77, 0x5280A122]

/-- R126: 1/(2 (1 + j/256)^2 ln 2) in 0.32, entries 128 to 159. -/
def log2D2Part4 : List Nat :=
  [0x5212C4F6, 0x51A5C3A7, 0x51399AF2, 0x50CE489A, 0x5063CA6B, 0x4FFA1E35, 0x4F9141D3, 0x4F293326,
   0x4EC1F013, 0x4E5B768B, 0x4DF5C481, 0x4D90D7F1, 0x4D2CAEDC, 0x4CC9474D, 0x4C669F50, 0x4C04B4FC,
   0x4BA3866A, 0x4B4311BD, 0x4AE3551B, 0x4A844EB2, 0x4A25FCB4, 0x49C85D59, 0x496B6EDF, 0x490F2F8B,
   0x48B39DA4, 0x4858B779, 0x47FE7B5F, 0x47A4E7AC, 0x474BFAC1, 0x46F3B2FF, 0x469C0ECF, 0x46450C9D]

/-- R126: 1/(2 (1 + j/256)^2 ln 2) in 0.32, entries 160 to 191. -/
def log2D2Part5 : List Nat :=
  [0x45EEAADB, 0x4598E7FF, 0x4543C286, 0x44EF38EE, 0x449B49BD, 0x4447F37A, 0x43F534B4, 0x43A30BFB,
   0x435177E7, 0x43007711, 0x42B00818, 0x4260299E, 0x4210DA4B, 0x41C218C8, 0x4173E3C5, 0x412639F4,
   0x40D91A0B, 0x408C82C5, 0x404072E0, 0x3FF4E91D, 0x3FA9E443, 0x3F5F6318, 0x3F15646B, 0x3ECBE70B,
   0x3E82E9CC, 0x3E3A6B84, 0x3DF26B0E, 0x3DAAE747, 0x3D63DF0F, 0x3D1D514B, 0x3CD73CE3, 0x3C91A0BF]

/-- R126: 1/(2 (1 + j/256)^2 ln 2) in 0.32, entries 192 to 223. -/
def log2D2Part6 : List Nat :=
  [0x3C4C7BCF, 0x3C07CD01, 0x3BC3934A, 0x3B7FCDA1, 0x3B3C7AFD, 0x3AF99A5D, 0x3AB72ABE, 0x3A752B23,
   0x3A339A91, 0x39F2780E, 0x39B1C2A6, 0x39717965, 0x39319B5A, 0x38F22799, 0x38B31D34, 0x38747B44,
   0x383640E3, 0x37F86D2C, 0x37BAFF3E, 0x377DF63A, 0x37415144, 0x37050F82, 0x36C9301B, 0x368DB23A,
   0x3652950B, 0x3617D7BE, 0x35DD7984, 0x35A3798F, 0x3569D715, 0x3530914E, 0x34F7A774, 0x34BF18C1]

/-- R126: 1/(2 (1 + j/256)^2 ln 2) in 0.32, entries 224 to 255. -/
def log2D2Part7 : List Nat :=
  [0x3486E474, 0x344F09CD, 0x3417880D, 0x33E05E78, 0x33A98C54, 0x337310E8, 0x333CEB7E, 0x33071B60,
   0x32D19FDD, 0x329C7843, 0x3267A3E3, 0x32332210, 0x31FEF21E, 0x31CB1363, 0x31978537, 0x316446F3,
   0x313157F4, 0x30FEB794, 0x30CC6534, 0x309A6033, 0x3068A7F2, 0x30373BD6, 0x30061B42, 0x2FD5459E,
   0x2FA4BA51, 0x2F7478C5, 0x2F448064, 0x2F14D09B, 0x2EE568D8, 0x2EB6488A, 0x2E876F21, 0x2E58DC10]

/-- R126: 1/(2 (1 + j/256)^2 ln 2) in 0.32. -/
def log2D2 (i : Nat) : Nat :=
  (log2D2Part0 ++ log2D2Part1 ++ log2D2Part2 ++ log2D2Part3 ++ log2D2Part4 ++ log2D2Part5 ++ log2D2Part6 ++ log2D2Part7).getD i 0

end Sys2Proof.Machine
end

