-- ==== Sys2Proof/Machine/Sfu.lean ====
section
/-! DEFINITION. The special-function unit's exp2 and log2 (R120 to R127), the functions composed from them
(R128), the RMS statistics (R129 to R132) and the rotation (R135, R136), all to the bit. -/

namespace Sys2Proof.Machine

/-- R122: the polynomial of exp2 over table entry `i` and the 40-bit remainder `tt`. -/
def exp2Poly (i tt : Nat) : Nat :=
  exp2C0 i + (exp2C1 i * tt) / 2 ^ 40 + (((exp2C2 i * tt) / 2 ^ 40) * tt) / 2 ^ 41

/-- R120, R122: exp2 of an FP32 word. -/
def f32Exp2 (x : W32) : W32 :=
  match valOf x with
  | .nan => f32Nan
  | .inf true => f32Zero
  | .inf false => f32PosInf
  | .fin neg m e =>
    let d : Nat := 2 ^ (-e).toNat
    let xx : Int := (if neg then -((m : Nat) : Int) else ((m : Nat) : Int)) * 2 ^ e.toNat
    if 128 * (d : Int) ≤ xx then f32PosInf
    else if xx < -150 * (d : Int) then f32Zero
    else
      let n := xx / (d : Int)
      let f := (xx % (d : Int)).toNat
      if f = 0 ∧ -149 ≤ n then toF32 (.fin false 1 n)
      else
        let i := 256 * f / d
        let tt := (256 * f % d) * 2 ^ 32 / d
        toF32 (.fin false (exp2Poly i tt) (n - 31))

/-- R126: the fraction of log2 over table entry `j` and the 40-bit remainder `uu`. -/
def log2Frac (j uu : Nat) : Nat :=
  log2D0 j + (log2D1 j * uu) / 2 ^ 39 - (((log2D2 j * uu) / 2 ^ 40) * uu) / 2 ^ 40

/-- R125, R126: log2 of an FP32 word. -/
def f32Log2 (x : W32) : W32 :=
  match valOf x with
  | .nan => f32Nan
  | .inf true => f32Nan
  | .inf false => f32PosInf
  | .fin neg m e =>
    if m = 0 then f32NegInf
    else if neg then f32Nan
    else
      let ex := expoOf m e
      -- the 23 fraction bits of m * 2^-ex, the leading one removed
      let fr := (m * 2 ^ (23 - Nat.log2 m)) % 2 ^ 23
      if fr = 0 then toF32 (Val.ofInt ex)
      else
        let dd : Int := ((log2Frac (fr / 2 ^ 15) ((fr % 2 ^ 15) * 2 ^ 17) : Nat) : Int)
        let s : Int := ex * 2 ^ 32 + dd
        toF32 (.fin (decide (s < 0)) s.natAbs (-32))

/-- R124: log2 e rounded to FP32. -/
def constL : W32 := 0x3FB8AA3B
/-- R128: ln 2 rounded to FP32. -/
def constN : W32 := 0x3F317218

/-- R124: one element of EXP2B: exp2 of the shifted, scaled score. -/
def f32Exp2Shift (s vm k : W32) : W32 := f32Exp2 (f32Mul (f32Sub s vm) k)

/-- The word with the sign `neg` and the magnitude of `x`; NaN stays canonical. -/
def withSign (neg : Bool) (x : W32) : W32 :=
  match valOf x with
  | .nan => f32Nan
  | _ => if neg then f32Neg (f32Abs x) else f32Abs x

/-- R128: e^x. -/
def f32ExpE (x : W32) : W32 := f32Exp2 (f32Mul x constL)

/-- R128: ln x. -/
def f32Ln (x : W32) : W32 := f32Mul (f32Log2 x) constN

/-- R128: the reciprocal sequence before its special inputs. -/
def recipCore (b : W32) : W32 :=
  let v3 := f32Abs b
  let r := f32Exp2 (f32Neg (f32Log2 v3))
  let e := f32Fma (f32Neg v3) r f32One
  f32Fma r e r

/-- R128: 1/b; a zero gives an infinity and an infinity a zero, of the sign of b. -/
def f32Recip (b : W32) : W32 :=
  match valOf b with
  | .nan => f32Nan
  | .inf neg => if neg then 0x80000000 else 0
  | .fin neg m _ =>
    if m = 0 then (if neg then f32NegInf else f32PosInf)
    else withSign neg (recipCore b)

/-- R128: a/b, its special inputs as IEEE division. -/
def f32Div (a b : W32) : W32 :=
  let sg := (valOf a).sign != (valOf b).sign
  match valOf a, valOf b with
  | .nan, _ => f32Nan
  | _, .nan => f32Nan
  | .inf _, .inf _ => f32Nan
  | .inf _, _ => if sg then f32NegInf else f32PosInf
  | _, .inf _ => if sg then 0x80000000 else 0
  | .fin _ m _, .fin _ n _ =>
    if n = 0 then (if m = 0 then f32Nan else if sg then f32NegInf else f32PosInf)
    else if m = 0 then (if sg then 0x80000000 else 0)
    else
      let r := f32Recip b
      let q := f32Mul a r
      f32Fma r (f32Fma (f32Neg b) q a) q

/-- R128: the reciprocal square root before its special inputs. -/
def rsqrtCore (x : W32) : W32 :=
  let h := f32Mul 0x3F000000 x
  let r := f32Exp2 (f32Mul 0xBF000000 (f32Log2 x))
  let rr := f32Mul r r
  f32Fma r (f32Fma (f32Neg h) rr 0x3F000000) r

/-- R128: 1/sqrt x. -/
def f32Rsqrt (x : W32) : W32 :=
  match valOf x with
  | .nan => f32Nan
  | .inf neg => if neg then f32Nan else 0
  | .fin neg m _ =>
    if m = 0 then (if neg then f32NegInf else f32PosInf)
    else if neg then f32Nan
    else rsqrtCore x

/-- R128: sigmoid x = 1 / (1 + e^-x). -/
def f32Sigmoid (x : W32) : W32 := f32Recip (f32Add f32One (f32ExpE (f32Neg x)))

/-- R128: SiLU. -/
def f32Silu (x : W32) : W32 := f32Mul x (f32Sigmoid x)

/-- R128: GELU in its tanh form. -/
def f32Gelu (x : W32) : W32 :=
  let c1 := f32OfRat false 44715 1000000
  let c2 := f32OfRat false 15957691 10000000
  let xx := f32Mul x x
  let xc := f32Mul xx x
  let w := f32Fma c1 xc x
  let z := f32Mul c2 w
  f32Mul x (f32Sigmoid z)

/-- R128: softplus. -/
def f32Softplus (x : W32) : W32 :=
  if (valOf 0x41800000).lt (valOf x) then x
  else if (valOf x).lt (valOf 0xC1800000) then f32ExpE x
  else
    let a := f32Mul (f32Neg (f32Abs x)) constL
    let t := f32Log2 (f32Add f32One (f32Exp2 a))
    f32Fma constN t (f32Max x 0)

/-- R128: tanh. |z| > 9.02 gives 1 of the sign of z. -/
def f32Tanh (z : W32) : W32 :=
  let a := f32Abs z
  if (valOf z).isNan then f32Nan
  else if (valOf (f32OfRat false 902 100)).lt (valOf a) then
    (if (valOf z).sign then 0xBF800000 else f32One)
  else if (valOf a).lt (valOf 0x3D800000) then
    let c3 := f32OfRat true 1 3
    let c5 := f32OfRat false 2 15
    let zz := f32Mul z z
    let p := f32Fma c5 zz c3
    let zc := f32Mul z zz
    f32Fma zc p z
  else
    let e := f32ExpE (f32Mul 0xC0000000 a)
    withSign (valOf z).sign (f32Div (f32Sub f32One e) (f32Add f32One e))

/-! ### The fixed pairwise tree (R93) and the RMS statistics (R129 to R132) -/

/-- One level of the pairwise tree: neighbours combine. -/
def pairUp (f : W32 → W32 → W32) : List W32 → List W32
  | a :: b :: r => f a b :: pairUp f r
  | l => l

/-- The pairwise tree over 2^n lanes (R93). -/
def treeFold (f : W32 → W32 → W32) : Nat → List W32 → W32
  | 0, l => l.headD 0
  | n + 1, l => treeFold f n (pairUp f l)

/-- R129: a row statistic (s, e). -/
structure RowStat where
  s : W32
  e : Int
  deriving DecidableEq, Repr

/-- R130 (1 to 3): the partial of one tile row, its values given up to n_extent. A tile row of zeros has the
largest VEXPO -150 (R119), which every other partial outranks in R131. -/
def statOfTile (xs : List W32) : RowStat :=
  if xs.any (fun x => (valOf x).isNan) then ⟨f32Nan, 128⟩
  else if xs.any (fun x => (valOf x).isSpecial) then ⟨f32PosInf, 128⟩
  else
    let et := xs.foldl (fun m x => max m (expoInt x)) (-150)
    let sq := xs.map (fun x => let y := (valOf x).scale (-et); toF32 (y.mul y))
    ⟨treeFold f32Add 8 (sq ++ List.replicate (256 - sq.length) f32Zero), et⟩

/-- R131: two partials combine; the sum is rounded once. An infinity or a NaN carries to the sum with e = 128
(R129). -/
def RowStat.merge (p q : RowStat) : RowStat :=
  let e := max p.e q.e
  ⟨toF32 (((valOf p.s).scale (2 * (p.e - e))).add ((valOf q.s).scale (2 * (q.e - e)))), e⟩

/-- R130 (4): the stack of partials, newest first, each with the number of tiles it covers; the two newest merge
while they cover equal numbers. -/
def pushPartial {α : Type} (f : α → α → α) : Nat → List (Nat × α) → List (Nat × α)
  | fuel + 1, (n, a) :: (m, b) :: r =>
    if n = m then pushPartial f fuel ((n + m, f b a) :: r) else (n, a) :: (m, b) :: r
  | _, st => st

/-- R130 (4): after the last tile the remaining partials merge from newest to oldest. -/
def closePartials {α : Type} (f : α → α → α) : List (Nat × α) → Option α
  | [] => none
  | (_, a) :: r => some (r.foldl (fun acc p => f p.2 acc) a)

/-- R130 (4): the partials of a row in ascending tile order, merged pairwise; none for no partial. -/
def mergePartials {α : Type} (f : α → α → α) (ts : List α) : Option α :=
  closePartials f (ts.foldl (fun st t => pushPartial f 64 ((1, t) :: st)) [])

/-- R129: a row of zeros is written (+0, 0). -/
def RowStat.settle (p : RowStat) : RowStat := if p.e = -150 then ⟨f32Zero, 0⟩ else p

/-- R129: the 8-byte record of a statistic. -/
def RowStat.toBytes (p : RowStat) : List Byte :=
  leBytes 4 p.s.toNat ++ leBytes 2 ((p.e % 65536).toNat) ++ [0, 0]

/-- R129: the record read back. -/
def RowStat.read (m : Cells 8) (a : Nat) : RowStat :=
  ⟨BitVec.ofNat 32 (m.getLE a 4), signedOf 16 (m.getLE (a + 4) 2)⟩

/-- R132: the factor g and the power-of-two step h of the deferred row scale. -/
def deferredFactor (st : RowStat) (eps nInv : W32) : W32 × Int :=
  if 2 * st.e + 2 ≤ expoInt eps - 25 then (f32Rsqrt eps, 0)
  else
    let mu := f32Mul st.s nInv
    let ep := f32Ldexp eps (-2 * st.e)
    (f32Rsqrt (f32Add mu ep), -st.e)

/-- R132 (3): one accumulator element under the factor. -/
def deferredApply (gh : W32 × Int) (a : W32) : W32 := f32Ldexp (f32Mul a gh.1) gh.2

/-! ### Rotation (R135, R136) -/

/-- R135: one complex product in its fixed order. -/
def cMul (z w : W32 × W32) : W32 × W32 :=
  (f32Fma z.1 w.1 (f32Neg (f32Mul z.2 w.2)), f32Fma z.1 w.2 (f32Mul z.2 w.1))

/-- R135: the composed rotation of a position from its four table entries. -/
def composeRot (w0 w1 w2 w3 : W32 × W32) : W32 × W32 := cMul (cMul (cMul w3 w2) w1) w0

/-- R135: digit `l` of a 48-bit position. -/
def rotDigit (p l : Nat) : Nat := (p / 2 ^ (12 * l)) % 4096

/-- R134: the byte offset of the entry of frequency f, level l, index j. -/
def rotOffset (f l j : Nat) : Nat := ((4 * f + l) * 4096 + j) * 8

/-- R136: one rotated pair in FP32: one rounded product and one VFMA each. -/
def rotPair (w : W32 × W32) (xa xb : W32) : W32 × W32 :=
  (f32Fma xa w.1 (f32Neg (f32Mul xb w.2)), f32Fma xa w.2 (f32Mul xb w.1))

end Sys2Proof.Machine
end

