-- ==== Sys2Proof/Machine/CoreOps.lean ====
section
/-! DEFINITION. Operations of a compute core: stores and poison marks (R54, R69), scalar registers (R80), issue and phases
(R64 to R67, R79), core faults (R74), events (R84). -/

namespace Sys2Proof.Machine

/-! Sparse slices -/

/-- The nonzero entries of a list, keyed from 0. -/
def sparseFrom {w : Nat} : Nat → List (BitVec w) → Cells w
  | _, [] => []
  | i, v :: r => if v = 0 then sparseFrom (i + 1) r else (i, v) :: sparseFrom (i + 1) r

/-- Writes a list of consecutive values at once. -/
def Cells.put {w : Nat} (m : Cells w) (a : Nat) (vs : List (BitVec w)) : Cells w := m.splice a vs.length (sparseFrom 0 vs)

/-- Marks as 0 or 1. -/
def markBits (bs : List Bool) : List (BitVec 1) := bs.map BitVec.ofBool

/-! Scalar registers (R80) -/

/-- R80: a scalar register; s0 reads as 0. -/
def Core.sget (c : Core) (r : SReg) : W64 := if r = 0 then 0 else c.sregs.get r.val

/-- R80: a scalar register's poison bit; s0 has none. -/
def Core.sbad (c : Core) (r : SReg) : Bool := decide (r ≠ 0) && decide (c.spoison.get r.val = 1)

/-- R80: writes a scalar register with its poison bit; a write to s0 is discarded. -/
def Core.sset (c : Core) (r : SReg) (v : W64) (bad : Bool) : Core :=
  if r = 0 then c else { c with sregs := c.sregs.set r.val v, spoison := c.spoison.set r.val (BitVec.ofBool bad) }

/-! The operand store (R54) -/

/-- Bytes of the operand store. -/
def storeSize : Nat := 0x300000

/-- Bytes from a store address. -/
def Core.stRead (c : Core) (a n : Nat) : List Byte := (List.range n).map (fun i => c.mem.store.get (a + i))

/-- The little-endian number at a store address. -/
def Core.stLe (c : Core) (a n : Nat) : Nat := c.mem.store.getLE a n

/-- Some granule of a stretch of the operand store is poisoned. -/
def Core.stBad (c : Core) (a n : Nat) : Bool := decide (n ≠ 0) && c.mem.storePoison.anyIn (a / 64) ((a + n - 1) / 64 - a / 64 + 1)

/-- The poison mark of the granule of a store address. -/
def Core.granBad (c : Core) (a : Nat) : Bool := decide (c.mem.storePoison.get (a / 64) = 1)

/-- Writes bytes to the operand store. -/
def Core.stBytes (c : Core) (a : Nat) (bs : List Byte) : Core := { c with mem := { c.mem with store := c.mem.store.put a bs } }

/-- Sets the mark of the granule of a store address. -/
def Core.stMark (c : Core) (a : Nat) (bad : Bool) : Core :=
  { c with mem := { c.mem with storePoison := c.mem.storePoison.set (a / 64) (BitVec.ofBool bad) } }

/-- Writes bytes to the operand store: a granule written whole takes the new mark, one written in part keeps a mark it
has and takes a new one. `bad i` is the poison of the i-th granule touched. -/
def Core.stWrite (c : Core) (a : Nat) (bs : List Byte) (bad : Nat → Bool) : Core :=
  (gransOf a bs.length).foldl (fun c g =>
    let whole := decide (a ≤ 64 * g) && decide (64 * g + 64 ≤ a + bs.length)
    let b := bad (g - a / 64)
    c.stMark (64 * g) (b || (!whole && c.granBad (64 * g)))) (c.stBytes a bs)

/-- Sets CORE_STATUS.poison_seen. -/
def Core.seen (c : Core) (b : Bool) : Core := if b then { c with flags := { c.flags with poisonSeen := true } } else c

/-- R69: writes a result to the operand store whose every granule is poisoned or clean. -/
def Core.stWriteAll (c : Core) (a : Nat) (bs : List Byte) (bad : Bool) : Core := (c.stWrite a bs (fun _ => bad)).seen bad

/-! Vector registers, accumulator and blotter: keys of StateCore; one mark for 16 elements -/

/-- The 256 lanes of a vector register. -/
def Core.vget (c : Core) (v : VReg) : List W32 := c.mem.vec.getList (256 * v.val) 256

/-- The marks of a vector register's 16 lane groups. -/
def Core.vbad (c : Core) (v : VReg) : List Bool := (c.mem.vecPoison.getList (16 * v.val) 16).map (fun b => decide (b = 1))

/-- Writes a vector register with the marks of its lane groups. -/
def Core.vset (c : Core) (v : VReg) (xs : List W32) (bad : List Bool) : Core :=
  { c with mem := { c.mem with vec := c.mem.vec.put (256 * v.val) xs, vecPoison := c.mem.vecPoison.put (16 * v.val) (markBits bad) } }

/-- The key of blotter row `r`, region `g`: 256 columns. -/
def blotKey (r g : Nat) : Nat := 1024 * r + 256 * g

/-- A blotter row of one region. -/
def Core.bget (c : Core) (r g : Nat) : List W32 := c.mem.blot.getList (blotKey r g) 256

/-- The marks of a blotter row of one region. -/
def Core.bbad (c : Core) (r g : Nat) : List Bool := (c.mem.blotPoison.getList (blotKey r g / 16) 16).map (fun b => decide (b = 1))

/-- Writes a blotter row of one region. -/
def Core.bset (c : Core) (r g : Nat) (xs : List W32) (bad : List Bool) : Core :=
  { c with mem := { c.mem with blot := c.mem.blot.put (blotKey r g) xs,
                               blotPoison := c.mem.blotPoison.put (blotKey r g / 16) (markBits bad) } }

/-- The key of row `r` of accumulator slot `k`. -/
def accKey (k r : Nat) : Nat := (128 * k + r) * 256

/-- A row of an accumulator slot. -/
def Core.aget (c : Core) (k r : Nat) : List W32 := c.mem.acc.getList (accKey k r) 256

/-- The marks of a row of an accumulator slot. -/
def Core.abad (c : Core) (k r : Nat) : List Bool := (c.mem.accPoison.getList (accKey k r / 16) 16).map (fun b => decide (b = 1))

/-- Writes a row of an accumulator slot. -/
def Core.aset (c : Core) (k r : Nat) (xs : List W32) (bad : List Bool) : Core :=
  { c with mem := { c.mem with acc := c.mem.acc.put (accKey k r) xs,
                               accPoison := c.mem.accPoison.put (accKey k r / 16) (markBits bad) } }

/-! Groups and the group token (R66, R67) -/

/-- R66: the aligned run of `g` cores that holds core `n`. -/
def groupRun (n : CoreNo) (g : Nat) : List CoreNo := (List.range g).map (fun i => coreOf (n.val / g * g + i))

/-- R66: the members of the aligned 4-core run agree on size_log2. -/
def State.groupAgrees (s : State) (n : CoreNo) : Bool :=
  (groupRun n 4).all (fun m => decide ((s.core m).regs.groupLog2 = (s.core n).regs.groupLog2))

/-- R66: the group size a core acts with. -/
def State.groupSize (s : State) (n : CoreNo) : Nat := if s.groupAgrees n then 2 ^ (s.core n).regs.groupLog2.toNat else 1

/-- The key of a core's group: its lowest core. -/
def State.groupKey (s : State) (n : CoreNo) : Nat := n.val / s.groupSize n * s.groupSize n

/-- R66: the core holds a group token. -/
def State.holdsToken (s : State) (n : CoreNo) : Bool := s.mesh.holder.any (fun e => decide (e.2 = some n))

/-- R66: no member of the core's group, as the group is now, holds a token. -/
def State.tokenFree (s : State) (n : CoreNo) : Bool := (groupRun n (s.groupSize n)).all (fun m => !s.holdsToken m)

/-- R66, R67: the core passes the token on, under whichever group it took it. -/
def State.dropToken (s : State) (n : CoreNo) : State :=
  if s.holdsToken n then
    { s with mesh := { s.mesh with holder := s.mesh.holder.filter (fun e => decide (e.2 ≠ some n)),
                                   lastHolder := Tab.set none s.mesh.lastHolder (s.groupKey n) (some n) } }
  else s

/-- R67: a core that begins a wait inside a transfer phase releases the token. -/
def State.beginWait (s : State) (n : CoreNo) (w : CoreWait) : State :=
  let s1 := s.modCore n (fun c => { c with wait := some w })
  if (s.core n).phase = .transfer then s1.dropToken n else s1

/-- R67: a wait ends: inside a transfer phase under g > 1 the core requests the token again. -/
def State.endWait (s : State) (n : CoreNo) : State :=
  let again := decide ((s.core n).phase = .transfer) && decide (1 < s.groupSize n) && !s.holdsToken n
  s.modCore n (fun c => { c with wait := none, flags := { c.flags with tokenWait := again } })

/-! A core that is cut out (R462) -/

/-- R366, R464: the fault record of a core that is cut out (DEDUCED, log 42): UNCORRECTABLE of its SRAM, at a store address that is
free (log 1). -/
def State.cutRecord (s : State) (n : CoreNo) : State :=
  s.draw.report ⟨0x0202, (dieOfCore n).val, partByte (s.partOfCore n), unitCore n, .core, memDetail (Config.freeNat s.draws) 0xFE 0 0 0⟩

/-- R198, R366: multicast sets detach a core that is cut out. -/
def State.detachCore (s : State) (n : CoreNo) : State :=
  let c := dieOfCore n
  let bit : W32 := BitVec.ofNat 32 (2 ^ (16 * (c.val % 2) + (coresOfDie c).idxOf n))
  let one (e : Nat × McastSet) : Nat × McastSet :=
    if e.1 / 16 = c.val / 2 then (e.1, { e.2 with attached := e.2.attached &&& ~~~bit }) else e
  { s with link := { s.link with mcast := (s.link.mcast.map one).filter (fun e => decide (e.2 ≠ McastSet.reset)) } }

/-- R462, R366: a core is cut out: CUT, detached from its multicast sets, its bit set in the core cut map, its record written. -/
def State.cutCore (s : State) (n : CoreNo) : State :=
  let s1 := ((s.detachCore n).dropToken n).modCore n (fun c => { c with
    mode := .cut, phase := .none, nextPhase := .none, wait := none, rotFills := [], rotHeld := [], inbound := [],
    flags := { c.flags with cutReq := false, ending := false, haltReq := false, tokenWait := false, rotStall := false } })
  ({ s1 with modu := { s1.modu with cutMap := s1.modu.cutMap ||| BitVec.ofNat 128 (2 ^ n.val) } } : State).cutRecord n

/-- R462: a cut that waits for the phase boundary takes effect there. -/
def State.atBoundary (s : State) (n : CoreNo) : State := if (s.core n).flags.cutReq then s.cutCore n else s

/-- R462: a cut takes effect at the next phase boundary of a RUNNING core, at once when it is FAULTED, IDLE or otherwise outside a
phase. -/
def State.takeCut (s : State) (n : CoreNo) : State :=
  let c := s.core n
  if c.mode = .cut ∨ c.mode = .off then s
  else if c.mode = .running then s.modCore n (fun c => { c with flags := { c.flags with cutReq := true } })
  else s.cutCore n

/-- R462: errors counted with those of the windows, which start at multiples of their length from global time 0. -/
def SramCount.add (x : SramCount) (now lost fixed : Nat) : SramCount :=
  let day := now / (24 * 3600 * secTicks)
  let hour := now / (3600 * secTicks)
  ⟨day, (if x.dayNo = day then x.lost else 0) + lost, hour, (if x.hourNo = hour then x.fixed else 0) + fixed⟩

/-- R462: the SRAM errors counted by a unit, by its unit number. -/
def State.sramOf (s : State) (unit : Nat) : SramCount := Tab.get ⟨0, 0, 0, 0⟩ s.modu.sram unit

/-- R462: a unit counts errors of its SRAM. -/
def State.countSram (s : State) (unit lost fixed : Nat) : State :=
  { s with modu := { s.modu with sram := Tab.set ⟨0, 0, 0, 0⟩ s.modu.sram unit ((s.sramOf unit).add s.clock.time.toNat lost fixed) } }

/-- R462: the errors that a unit counted within a window reach core_ue_limit or core_ce_limit. -/
def State.sramLimit (s : State) (unit : Nat) : Bool :=
  decide (s.dictVal 0x7010 1 ≤ (s.sramOf unit).lost) || decide (s.dictVal 0x7010 2 ≤ (s.sramOf unit).fixed)

/-- R462, R495: a core counts errors of its SRAM, and is cut out when a limit is reached. -/
def State.coreSram (s : State) (n : CoreNo) (lost fixed : Nat) : State :=
  let s1 := (s.countSram (unitCore n) lost fixed).countCore n 0x19 fixed
  if s1.sramLimit (unitCore n) then s1.takeCut n else s1

/-! Faults (R74, R75) -/

/-- R74: what a core fault records. `detail` replaces the record's detail (PAGE_FAULT: R215). -/
structure CoreErr where
  code : Nat
  resource : Nat
  multi : Bool
  tile : Nat
  need : Nat
  have_ : Nat
  detail : Option (List Byte)
  deriving DecidableEq, Repr

/-- A core fault with no resource. -/
def coreErr (code : Nat) : CoreErr := ⟨code, 0, false, 0, 0, 0, none⟩

/-- R101: the fault of a misaligned run-time address. -/
def errMisaligned : CoreErr := coreErr 0x010C

/-- R69: the fault of a poisoned branch operand, address or descriptor. -/
def errPoison : CoreErr := coreErr 0x0108

/-- R77: the fault of an illegal word. -/
def errBadInstr : CoreErr := coreErr 0x0107

/-- R98: the fault of a rejected transfer or stream descriptor. -/
def errBadOrder : CoreErr := coreErr 0x0503

/-- R88, R89: the fault of a rejected matrix or chain descriptor: resource 6, a*b against 8. -/
def errShape (need have_ : Nat) : CoreErr := ⟨0x0105, 6, false, 0, need, have_, none⟩

/-- R81: an address or length beyond the operand store: resource 2, in 64 B lines. -/
def errStore (last : Nat) : CoreErr := ⟨0x0102, 2, false, 0, ceilDiv last 64, storeSize / 64, none⟩

/-- R100: a translation failure of a transfer. -/
def errPage (f : PFault) : CoreErr := ⟨0x0201, 0, false, 0, 0, 0, some f.detail⟩

/-- R60: a pending rotary invalidate takes effect at a phase boundary. -/
def Core.applyInval (c : Core) : Core :=
  if c.flags.invalBusy then { c with rot := [], flags := { c.flags with invalBusy := false } } else c

/-- R74: the record of a core fault at an instruction. -/
def State.coreRecord (s : State) (n : CoreNo) (pc : W64) (e : CoreErr) : Report :=
  let d := match e.detail with
    | some d => d
    | none => u64s [pc.toNat, e.tile, e.need, e.have_]
  ⟨e.code, (dieOfCore n).val, partByte (s.partOfCore n), unitCore n, .core, d⟩

/-- R74: a core fault of the instruction at `pc`: the core stops issuing, its fault registers are written, it enters FAULTED
and reports; a cut that waits takes effect (R462). The stores keep their contents. R75, R70: a core in FAULTED, CUT or OFF
records nothing in its registers; the error is reported alone. -/
def State.coreFaultAt (s : State) (n : CoreNo) (pc : W64) (e : CoreErr) : State :=
  let c := s.core n
  if c.mode = .faulted ∨ c.mode = .cut ∨ c.mode = .off then s.report (s.coreRecord n pc e)
  else
    let fr : CoreFault := ⟨BitVec.ofNat 16 e.code, BitVec.ofNat 3 e.resource, e.multi, true, pc,
      BitVec.ofNat 32 e.tile, BitVec.ofNat 32 e.need, BitVec.ofNat 32 e.have_⟩
    let s1 := s.dropToken n
    let s2 := s1.modCore n (fun c => { c.applyInval with
      mode := .faulted, phase := .none, nextPhase := .none, wait := none, rotFills := [], rotHeld := [], fault := fr,
      flags := { c.applyInval.flags with tokenWait := false, rotStall := false, haltReq := false, ending := false } })
    (s2.report (s.coreRecord n pc e)).atBoundary n

/-- R74: a core fault of the instruction at CORE_PC. -/
def State.coreFault (s : State) (n : CoreNo) (e : CoreErr) : State := s.coreFaultAt n (s.core n).regs.pc e

/-! Issue (R64, R65, R79) -/

/-- R78: the phase an instruction belongs to. -/
inductive InstrClass where
  | current | compute | transfer
  deriving DecidableEq, Repr

/-- The core can issue its next instruction: it runs, waits for nothing, and no phase end, turn or halt is pending. -/
def Core.canIssue (c : Core) : Bool :=
  decide (c.mode = .running) && decide (c.wait = none) && decide (c.phase ≠ .turn) && !c.flags.ending &&
    !c.flags.haltReq && !c.flags.tokenWait && !c.softReset && !c.flags.rotStall

/-- The index of the next instruction (R79). -/
def Core.pcIndex (c : Core) : Nat := c.regs.pc.toNat / 16

/-- A phase is asked to end, and what follows it (R65). -/
def State.endPhase (s : State) (n : CoreNo) (next : Phase) : State :=
  s.modCore n (fun c => { c with nextPhase := next, flags := { c.flags with ending := true } })

/-- Sets the phase of a core. -/
def State.setPhase (s : State) (n : CoreNo) (p : Phase) : State := s.modCore n (fun c => { c with phase := p })

/-- R64 to R66: brings the core into the phase of an instruction and runs `body` there; otherwise the current phase is
asked to end, or the group's token is requested, and the instruction issues later. -/
def State.inPhase (s : State) (n : CoreNo) (k : InstrClass) (body : State → State) : State :=
  match k, (s.core n).phase with
  | .current, _ => body s
  | .compute, .compute => body s
  | .compute, .transfer => s.endPhase n .compute
  | .compute, _ => body ((s.dropBallast n).setPhase n .compute)
  | .transfer, .transfer => body s
  | .transfer, .compute => s.endPhase n .transfer
  | .transfer, _ =>
    if s.groupSize n = 1 ∨ s.holdsToken n then body (s.setPhase n .transfer)
    else s.modCore n (fun c => { c with flags := { c.flags with tokenWait := true } })

/-- R79, R68: issues an instruction of core `n`: past index 2,047 the core faults with BAD_INSTR and CORE_FAULT_PC 0x8000;
a marked word faults with PROGRAM_POISON; otherwise `body` is its effect. -/
def State.issue (s : State) (n : CoreNo) (k : InstrClass) (body : State → State) : State :=
  let c := s.core n
  if !c.canIssue then s
  else if 2048 ≤ c.pcIndex then
    (s.modCore n (fun c => { c with regs := { c.regs with pc := 0x8000 } })).coreFault n errBadInstr
  else if c.mem.progBad.get c.pcIndex = 1 then s.coreFault n (coreErr 0x010A)
  else s.inPhase n k body

/-- An instruction retires: CORE_PC names the next one (R79), and the retirement is counted (R495, 0x1C). -/
def State.retire (s : State) (n : CoreNo) : State :=
  (s.modCore n (fun c => { c with regs := { c.regs with pc := c.regs.pc + 16 } })).countCore n 0x1C 1

/-- Ends an instruction whose effect is computed on the core alone: it retires with the new core, or it faults. -/
def State.finishCore (s : State) (n : CoreNo) (r : Except CoreErr Core) : State :=
  match r with
  | .ok c => (s.setCore n c).retire n
  | .error e => s.coreFault n e

/-- R61, R65, R378: every earlier store, send and message of the core is complete. -/
def State.xferDone (s : State) (n : CoreNo) : Bool :=
  decide ((s.core n).outStores = []) && !s.mesh.sends.any (fun m => decide (m.src = n)) &&
    !s.link.tx.any (fun m => match m.owner with
      | .core k _ => decide (k = n)
      | _ => false)

/-! Events (R84) -/

/-- R84 steps 3 and 4: sets pending (END also ended) and raises the local interrupt of the target. -/
def State.postEvent (s : State) (n : CoreNo) (ended : Bool) : State :=
  let s1 := s.modCore n (fun c => { c with ev := { c.ev with pending := true, ended := c.ev.ended || ended } })
  let e := (s.core n).ev
  if e.irqEn then
    if h : e.target.toNat < 24 then
      s1.setRub ⟨e.target.toNat, h⟩ { s1.rub ⟨e.target.toNat, h⟩ with irq := true }
    else s1
  else s1

/-- R85, R97: both cores lie in the rectangle of one formed partition. -/
def State.sameRect (s : State) (a b : CoreNo) : Bool :=
  match s.partOfCore a with
  | none => false
  | some p => decide (s.partOfCore b = some p)

/-- R238, R240: the handle of the folio named in CORE_FOLIO, whatever fvalid is. -/
def Core.folioHandle (c : Core) (p : PartNo) : W64 :=
  let f := c.regs.folio.toNat
  handleOf (bits f 0 14) (BitVec.ofNat 16 (bits f 16 16)) p

/-- R240: CORE_FOLIO.fvalid: the core's stores join a folio. -/
def Core.bound (c : Core) : Bool := bitOf c.regs.folio.toNat 14

/-- R240, R255: CORE_FOLIO.svalid: the core's reads go through a snapshot. -/
def Core.snapBound (c : Core) : Bool := bitOf c.regs.folio.toNat 42

/-- R255: the snapshot id of CORE_FOLIO. -/
def Core.snapId (c : Core) : Nat := bits c.regs.folio.toNat 32 10

/-- The partition of a core (CORE_ID.partition). -/
def Core.part (c : Core) : PartNo := partOf c.regs.partition.toNat

/-- R241, R255: what a core's reads see: its snapshot, else its own open folio, else the homes. -/
def State.coreView (s : State) (n : CoreNo) : View :=
  let c := s.core n
  if c.snapBound then .snap c.snapId
  else if c.bound && s.named c.part (c.folioHandle c.part) then .own (s.slot (handleSlot (c.folioHandle c.part))).journal
  else .plain

/-- R254: the core's snapshot has been closed, so its next read fails with OLD_SNAPSHOT. -/
def State.snapGone (s : State) (n : CoreNo) : Bool :=
  let c := s.core n
  c.snapBound && match Tab.get none s.fol.snaps c.snapId with
    | some sn => decide (sn.part ≠ c.part)
    | none => true

/-- R215: a core's request in its partition's device-virtual space (0) or a context window (1). -/
def State.coreReq (s : State) (n : CoreNo) (space ctx addr access : Nat) : WalkReq :=
  ⟨(s.core n).part, space, ctx, addr, access, masterCore n, s.coreView n, mdieOf (dieOfCore n)⟩

end Sys2Proof.Machine
end

