-- ==== Sys2Proof/Machine/Control.lean ====
section
/-! DEFINITION. The control and synchronisation classes of a compute core (R82 to R86). -/

namespace Sys2Proof.Machine

/-- R82: an operation of two scalars: the result goes to sd, poisoned when a source is (R80). -/
def aluBody (n : CoreNo) (sd sa sb : SReg) (f : W64 → W64 → W64) (s : State) : State :=
  let c := s.core n
  s.finishCore n (.ok (c.sset sd (f (c.sget sa) (c.sget sb)) (c.sbad sa || c.sbad sb)))

/-- R82: a branch: a poisoned operand faults the core before the branch (R80). -/
def branchBody (n : CoreNo) (sa sb : SReg) (target : BitVec 11) (taken : W64 → W64 → Bool) (s : State) : State :=
  let c := s.core n
  if c.sbad sa || c.sbad sb then s.coreFault n errPoison
  else if taken (c.sget sa) (c.sget sb) then
    (s.modCore n (fun c => { c with regs := { c.regs with pc := BitVec.ofNat 64 (16 * target.toNat) } })).countCore n 0x1C 1
  else s.retire n

/-- R82, R81: the store address of LDS and STS: sa + imm with bits [2:0] ignored. -/
def Core.wordAddr (c : Core) (sa : SReg) (imm : W64) : Nat := (c.sget sa + imm).toNat / 8 * 8

/-- R82: an LDS: a poisoned base faults (R80), an address beyond the store faults (R81); the register takes the granule's
poison. -/
def Core.lds (c : Core) (sd sa : SReg) (imm : W64) : Except CoreErr Core :=
  let a := c.wordAddr sa imm
  if c.sbad sa then .error errPoison
  else if storeSize < a + 8 then .error (errStore (a + 8))
  else .ok ((c.sset sd (BitVec.ofNat 64 (c.stLe a 8)) (c.granBad a)).seen (c.granBad a))

/-- R82: an STS; a poisoned register poisons the granule it writes (R80). -/
def Core.sts (c : Core) (sa sb : SReg) (imm : W64) : Except CoreErr Core :=
  let a := c.wordAddr sa imm
  if c.sbad sa then .error errPoison
  else if storeSize < a + 8 then .error (errStore (a + 8))
  else .ok ((c.stWrite a (leBytes 8 (c.sget sb).toNat) (fun _ => c.sbad sb)).seen (c.sbad sb))

/-- CORE_ID of a core: its number, die, local index, partition. -/
def State.coreId (s : State) (n : CoreNo) : Nat :=
  let c := s.core n
  n.val + (dieOfCore n).val * 2 ^ 7 + (n.val % 4 + 4 * (n.val / 16 % 4)) * 2 ^ 10 + c.regs.partition.toNat * 2 ^ 16 +
    flagAt c.regs.partValid 19

/-- NOP (R82). -/
def execNop (n : CoreNo) (s : State) : Host.Outcome State Fault Refusal := .next (s.issue n .current (fun s => s.retire n))

/-- END (R82, R84): waits as at a phase end for its stores (R65), posts the end event, enters IDLE. -/
def execEnd (n : CoreNo) (s : State) : Host.Outcome State Fault Refusal :=
  .next (s.issue n .current (fun s =>
    if !s.xferDone n then s
    else
      let s1 := (s.dropToken n).retire n
      ((s1.modCore n (fun c => { c.applyInval with mode := .idle, phase := .none, nextPhase := .none })).postEvent n true).atBoundary n))

/-- LI (R82). -/
def execLi (n : CoreNo) (sd : SReg) (imm : W64) (s : State) : Host.Outcome State Fault Refusal :=
  .next (s.issue n .current (fun s => s.finishCore n (.ok ((s.core n).sset sd imm false))))

/-- ADD (R82). -/
def execAdd (n : CoreNo) (sd sa sb : SReg) (s : State) : Host.Outcome State Fault Refusal :=
  .next (s.issue n .current (aluBody n sd sa sb (· + ·)))

/-- ADDI (R82). -/
def execAddi (n : CoreNo) (sd sa : SReg) (imm : W64) (s : State) : Host.Outcome State Fault Refusal :=
  .next (s.issue n .current (aluBody n sd sa sa (fun a _ => a + imm)))

/-- SUB (R82). -/
def execSub (n : CoreNo) (sd sa sb : SReg) (s : State) : Host.Outcome State Fault Refusal :=
  .next (s.issue n .current (aluBody n sd sa sb (· - ·)))

/-- AND (R82). -/
def execAnd (n : CoreNo) (sd sa sb : SReg) (s : State) : Host.Outcome State Fault Refusal :=
  .next (s.issue n .current (aluBody n sd sa sb (· &&& ·)))

/-- OR (R82). -/
def execOr (n : CoreNo) (sd sa sb : SReg) (s : State) : Host.Outcome State Fault Refusal :=
  .next (s.issue n .current (aluBody n sd sa sb (· ||| ·)))

/-- XOR (R82). -/
def execXor (n : CoreNo) (sd sa sb : SReg) (s : State) : Host.Outcome State Fault Refusal :=
  .next (s.issue n .current (aluBody n sd sa sb (· ^^^ ·)))

/-- SHL (R82): by imm[5:0]. -/
def execShl (n : CoreNo) (sd sa : SReg) (sh : BitVec 6) (s : State) : Host.Outcome State Fault Refusal :=
  .next (s.issue n .current (aluBody n sd sa sa (fun a _ => a <<< sh.toNat)))

/-- SHR (R82): logical, by imm[5:0]. -/
def execShr (n : CoreNo) (sd sa : SReg) (sh : BitVec 6) (s : State) : Host.Outcome State Fault Refusal :=
  .next (s.issue n .current (aluBody n sd sa sa (fun a _ => a >>> sh.toNat)))

/-- MUL (R82): the low 64 bits. -/
def execMul (n : CoreNo) (sd sa sb : SReg) (s : State) : Host.Outcome State Fault Refusal :=
  .next (s.issue n .current (aluBody n sd sa sb (· * ·)))

/-- BEQ (R82). -/
def execBeq (n : CoreNo) (sa sb : SReg) (target : BitVec 11) (s : State) : Host.Outcome State Fault Refusal :=
  .next (s.issue n .current (branchBody n sa sb target (fun a b => decide (a = b))))

/-- BNE (R82). -/
def execBne (n : CoreNo) (sa sb : SReg) (target : BitVec 11) (s : State) : Host.Outcome State Fault Refusal :=
  .next (s.issue n .current (branchBody n sa sb target (fun a b => decide (a ≠ b))))

/-- BLT (R82): signed. -/
def execBlt (n : CoreNo) (sa sb : SReg) (target : BitVec 11) (s : State) : Host.Outcome State Fault Refusal :=
  .next (s.issue n .current (branchBody n sa sb target (fun a b => a.slt b)))

/-- BGE (R82): signed. -/
def execBge (n : CoreNo) (sa sb : SReg) (target : BitVec 11) (s : State) : Host.Outcome State Fault Refusal :=
  .next (s.issue n .current (branchBody n sa sb target (fun a b => b.sle a)))

/-- JMP (R82). -/
def execJmp (n : CoreNo) (target : BitVec 11) (s : State) : Host.Outcome State Fault Refusal :=
  .next (s.issue n .current (branchBody n 0 0 target (fun _ _ => true)))

/-- LDS (R82). -/
def execLds (n : CoreNo) (sd sa : SReg) (imm : W64) (s : State) : Host.Outcome State Fault Refusal :=
  .next (s.issue n .current (fun s => s.finishCore n ((s.core n).lds sd sa imm)))

/-- STS (R82). -/
def execSts (n : CoreNo) (sa sb : SReg) (imm : W64) (s : State) : Host.Outcome State Fault Refusal :=
  .next (s.issue n .current (fun s => s.finishCore n ((s.core n).sts sa sb imm)))

/-- RDTIME (R82). -/
def execRdtime (n : CoreNo) (sd : SReg) (s : State) : Host.Outcome State Fault Refusal :=
  .next (s.issue n .current (fun s => s.finishCore n (.ok ((s.core n).sset sd s.clock.time false))))

/-- RDID (R82): CORE_ID, zero-extended. -/
def execRdid (n : CoreNo) (sd : SReg) (s : State) : Host.Outcome State Fault Refusal :=
  .next (s.issue n .current (fun s => s.finishCore n (.ok ((s.core n).sset sd (BitVec.ofNat 64 (s.coreId n)) false))))

/-- BKPT (R82): the current phase completes, then the core enters HALTED as if a halt had been requested (HALT_COMPLETE);
CORE_PC names the next instruction. -/
def execBkpt (n : CoreNo) (s : State) : Host.Outcome State Fault Refusal :=
  .next (s.issue n .current (fun s =>
    (s.retire n).modCore n (fun c => { c with flags := { c.flags with haltReq := true } })))

/-- SEED (R82): loads the stochastic-rounding state; 0 loads the constant. -/
def execSeed (n : CoreNo) (sa : SReg) (s : State) : Host.Outcome State Fault Refusal :=
  .next (s.issue n .current (fun s =>
    let c := s.core n
    s.finishCore n (.ok { c with regs := { c.regs with rngState := loadSeed (c.sget sa) } })))

/-- SIGNAL (R83, R84): waits as at a phase end, then posts the event and its value. -/
def execSignal (n : CoreNo) (sa : SReg) (event : W16) (s : State) : Host.Outcome State Fault Refusal :=
  .next (s.issue n .current (fun s =>
    let c := s.core n
    if !s.xferDone n then s
    else
      let ev := { c.ev with value := (c.sget sa).setWidth 48, event := event, count := c.ev.count + 1,
                            valuePoison := c.sbad sa }
      ((s.setCore n { c with ev := ev }).retire n).postEvent n false))

/-- BARRIER (R83, R85): a count of 0 or 1, or above 128, is no participant count (BAD_INSTR). A home or a core outside the
partition's rectangle faults with PART_SHAPE and sends nothing. Otherwise the arrival is sent with the core's parity,
which flips, and the core waits for the release. -/
def execBarrier (n : CoreNo) (id : BitVec 4) (home : CoreNo) (count : Byte) (s : State) : Host.Outcome State Fault Refusal :=
  .next (s.issue n .current (fun s =>
    let par := decide ((s.core n).parity.get id.toNat = 1)
    if count.toNat < 2 ∨ 128 < count.toNat then s.coreFault n errBadInstr
    else if !s.sameRect n home then s.coreFault n (coreErr 0x0405)
    else
      let s1 := s.modCore n (fun c => { c with parity := c.parity.set id.toNat (BitVec.ofBool (!par)) })
      let a : MeshArrival := ⟨n, home, id.toNat, par, count.toNat⟩
      let s2 := { s1 with mesh := { s1.mesh with arrivals := s1.mesh.arrivals ++ [a] } }
      s2.beginWait n (.barrier home id.toNat par)))

/-- The i-th element for which a test holds, and the list without it. -/
def takeNth {α : Type} (p : α → Bool) : Nat → List α → Option (α × List α)
  | _, [] => none
  | i, x :: r =>
    if p x then
      match i with
      | 0 => some (x, r)
      | j + 1 => (takeNth p j r).map (fun y => (y.1, x :: y.2))
    else (takeNth p i r).map (fun y => (y.1, x :: y.2))

/-- R85, R86: an arrival is counted at the home core. The first arrival of an (id, parity) sets the count; one that names
another count faults the arriving core with BARRIER_COUNT and is not counted; the last one releases every core that
arrived and resets the count. -/
def State.countArrival (s : State) (a : MeshArrival) : State :=
  let h := s.core a.home
  let isB (b : Barrier) : Bool := decide (b.id = a.id) && decide (b.parity = a.parity)
  let b := (h.barriers.find? isB).getD ⟨a.id, a.parity, a.count, []⟩
  if b.count ≠ a.count then s.coreFault a.src (coreErr 0x010D)
  else
    let b1 := { b with arrived := b.arrived ++ [a.src] }
    let rest := h.barriers.filter (fun x => !isB x)
    if b1.arrived.length = b.count then
      let s1 := s.setCore a.home { h with barriers := rest }
      let rs := b1.arrived.map (fun d => (⟨d, a.home, a.id, a.parity⟩ : MeshRelease))
      { s1 with mesh := { s1.mesh with releases := s1.mesh.releases ++ rs } }
    else s.setCore a.home { h with barriers := rest ++ [b1] }

/-- BARRIER_ARRIVAL (R85): the i-th arrival on its way to home core `n` reaches it. -/
def execBarrierArrival (n : CoreNo) (i : Nat) (s : State) : Host.Outcome State Fault Refusal :=
  .next (match takeNth (fun a : MeshArrival => decide (a.home = n)) i s.mesh.arrivals with
    | none => s
    | some (a, r) => ({ s with mesh := { s.mesh with arrivals := r } }).countArrival a)

/-- BARRIER_RELEASE (R85): the i-th release on its way to core `n` reaches it; a core waiting for it goes on. -/
def execBarrierRelease (n : CoreNo) (i : Nat) (s : State) : Host.Outcome State Fault Refusal :=
  .next (match takeNth (fun a : MeshRelease => decide (a.dst = n)) i s.mesh.releases with
    | none => s
    | some (a, r) =>
      let s1 := { s with mesh := { s.mesh with releases := r } }
      if (s1.core n).mode = .running ∧ (s1.core n).wait = some (.barrier a.home a.id a.parity) then (s1.retire n).endWait n
      else s1)

/-- 64 B units of a stream in the inbound queue (R62, R97). -/
def Core.inUnits (c : Core) (src : CoreNo) (tag : Nat) : Nat :=
  (c.inbound.filter (fun u => decide (u.src = src) && decide (u.tag = tag))).length

/-- WAITIN (R83): waits until the inbound queue holds count units of the stream; a count of 0, outside the field's range, is
no legal word (BAD_INSTR: log 158, DESIGN CHOICE). -/
def execWaitin (n : CoreNo) (tag : Byte) (src : CoreNo) (count : Byte) (s : State) : Host.Outcome State Fault Refusal :=
  .next (s.issue n .current (fun s =>
    if count = 0 then s.coreFault n errBadInstr
    else if count.toNat ≤ (s.core n).inUnits src tag.toNat then s.retire n
    else s.beginWait n (.waitin src tag.toNat count.toNat)))

/-- FENCE (R83): ends the current phase; the next instruction starts after the phase turn. -/
def execFence (n : CoreNo) (s : State) : Host.Outcome State Fault Refusal :=
  .next (s.issue n .current (fun s =>
    if (s.core n).phase = .none then s.retire n else (s.retire n).endPhase n .none))

end Sys2Proof.Machine
end

