-- ==== Sys2Proof/Machine/HostOps.lean ====
section
/-! DEFINITION. Operations of the host interface: host memory, completion queues and interrupts (R395, R396, R407), result
slots (R405, R406), orders under way (R397, R399, R400). -/

namespace Sys2Proof.Machine

/-! Host memory -/

/-- Bytes of host memory. -/
def State.hostRead (s : State) (a n : Nat) : List Byte := s.host.hostMem.getList a n

/-- Some granule of a stretch of host memory has a mark. -/
def hostMarked (m : Cells 1) (a n : Nat) : Bool := decide (n ≠ 0) && m.anyIn (a / 64) ((a + n - 1) / 64 - a / 64 + 1)

/-- R236: writes bytes to host memory; a granule written whole takes the poison of its TLP. -/
def State.hostWrite (s : State) (a : Nat) (bs : List Byte) (bad : Nat → Bool) : State :=
  let gs := (gransOf a bs.length).filter (fun g => decide (a ≤ 64 * g) && decide (64 * g + 64 ≤ a + bs.length))
  let ps := gs.foldl (fun m g => Cells.set m g (BitVec.ofBool (bad (g - a / 64)))) s.host.hostPoison
  s.modHost (fun h => { h with hostMem := (bs.zipIdx).foldl (fun m b => Cells.set m (a + b.2) b.1) h.hostMem, hostPoison := ps })

/-! Completion queues (R395, R396, R407) -/

/-- A submission queue. -/
def State.sq (s : State) (q : Nat) : SQ := Tab.get SQ.reset s.host.sqs q

/-- Replaces a submission queue. -/
def State.setSq (s : State) (q : Nat) (x : SQ) : State := s.modHost (fun h => { h with sqs := Tab.set SQ.reset h.sqs q x })

/-- A completion queue. -/
def State.cq (s : State) (c : Nat) : CQ := Tab.get CQ.reset s.host.cqs c

/-- Replaces a completion queue. -/
def State.setCq (s : State) (c : Nat) (x : CQ) : State := s.modHost (fun h => { h with cqs := Tab.set CQ.reset h.cqs c x })

/-- Entries of a submission queue. -/
def SQ.size (q : SQ) : Nat := 2 ^ q.sizeLog2.toNat

/-- Entries of a completion queue. -/
def CQ.size (c : CQ) : Nat := 2 ^ c.sizeLog2.toNat

/-- R395: the next write would reach the head. -/
def CQ.ringFull (c : CQ) : Bool := decide ((c.tail.toNat + 1) % c.size = c.head.toNat)

/-- R395: completions are held: the ring is full, completions wait already, or the queue is not in use (log 14). -/
def CQ.full (c : CQ) : Bool := c.ringFull || decide (c.held ≠ []) || !c.enable

/-- R396: the 32 bytes of a completion entry. -/
def Completion.bytes (x : Completion) (sqHead : Nat) (phase : Bool) : List Byte :=
  leBytes 8 x.tag.toNat ++ leBytes 2 x.sq.toNat ++ leBytes 2 sqHead ++ leBytes 2 x.code.toNat ++ leBytes 2 x.slot.toNat ++
    leBytes 2 x.gen.toNat ++ [x.reqScope, x.reqMask] ++ leBytes 4 x.info.toNat ++ List.replicate 7 0 ++ [if phase then 1 else 0]

/-- R407: raises a completion queue's vector; nothing of it is unsignalled any more. -/
def State.fireCq (s : State) (c : Nat) : State :=
  let q := s.cq c
  (s.setCq c { q with unsignalled := 0 }).raiseVector q.function.toNat q.vector.toNat

/-- R395, R396, R407: writes one entry at the tail and signals it. A coal_time of 0 holds nothing. -/
def State.writeCq (s : State) (c : Nat) (x : Completion) : State :=
  let q := s.cq c
  let t := (q.tail.toNat + 1) % q.size
  let s1 := s.hostWrite (q.base.toNat + 32 * q.tail.toNat) (x.bytes (s.sq x.sq.toNat).head.toNat q.phase) (fun _ => false)
  let s2 := s1.setCq c { q with tail := BitVec.ofNat 16 t, phase := if t = 0 then !q.phase else q.phase,
                                unsignalled := q.unsignalled + 1 }
  if q.irqEn ∧ (x.irq ∨ q.coalTime = 0 ∨ max 1 q.coalCount.toNat ≤ q.unsignalled + 1) then s2.fireCq c else s2

/-- R395: a completion is written, or held while the queue is full. -/
def State.postCq (s : State) (c : Nat) (x : Completion) : State :=
  let q := s.cq c
  if q.full then s.setCq c { q with held := q.held ++ [x] } else s.writeCq c x

/-- R395: held completions go out as the head makes room (at most as many as are held). -/
def State.flushCq (s : State) (c : Nat) : Nat → State
  | 0 => s
  | n + 1 =>
    let q := s.cq c
    match q.held with
    | [] => s
    | x :: r => if q.enable ∧ !q.ringFull then State.flushCq ((s.setCq c { q with held := r }).writeCq c x) c n else s

/-! Result slots (R405, R406) -/

/-- The key of a slot. -/
def slotKey (p : PartNo) (i : Nat) : Nat := 4096 * p.val + i

/-- A result slot. -/
def State.rslot (s : State) (p : PartNo) (i : Nat) : Slot := Tab.get Slot.reset s.host.slots (slotKey p i)

/-- Replaces a result slot. -/
def State.setRslot (s : State) (p : PartNo) (i : Nat) (x : Slot) : State :=
  s.modHost (fun h => { h with slots := Tab.set Slot.reset h.slots (slotKey p i) x })

/-- R406: the next generation, never 0. -/
def nextGen (g : W16) : W16 := if g = 0xFFFF then 1 else g + 1

/-- R406: an order claims its slot. -/
def State.claimSlot (s : State) (p : PartNo) (i : Nat) (cls op : Byte) (tag : W64) (sq : Nat) : State :=
  let x := s.rslot p i
  s.setRslot p i { Slot.reset with state := .pending, gen := nextGen x.gen, cls := cls, op := op, tag := tag, sq := BitVec.ofNat 16 sq }

/-! Orders under way -/

/-- R401: the state values of a mask. -/
def stateMask (l : List Nat) : Byte := BitVec.ofNat 8 (sumNat (l.map (fun i => 2 ^ i)))

/-- What an order ends with: its code, information, slot payload, the state it required (R396), and the detail of its fault
record. -/
structure Done where
  code : W16
  info : W32
  payload : List Byte
  scope : Byte
  mask : Byte
  detail : List Byte
  deriving DecidableEq, Repr

/-- An order that ends with a code and nothing else. -/
def Done.of (code : Nat) : Done := ⟨BitVec.ofNat 16 code, 0, [], 0, 0, []⟩

/-- R399, R401: STATE_REJECT naming a scope and its allowed states. -/
def Done.reject (scope : Nat) (mask : Byte) : Done := ⟨0x0501, 0, [], BitVec.ofNat 8 scope, mask, []⟩

/-- R464 level 1: an order that ends with a code writes one record of the queue front end (DEDUCED, log 20); a RUNTIME
order's code is the runtime's own. -/
def State.recordOrder (s : State) (p : PartNo) (cls : Byte) (tag : W64) (d : Done) : State :=
  if d.code = 0 ∨ cls = 7 then s
  else s.report ⟨d.code.toNat, dieX1, if (s.part p).mode = .unformed then 0xFF else p.val, unitQueue, .operation,
    if d.detail = [] then u64s [tag.toNat] else d.detail⟩

/-- R396, R405: an order ends: its slot becomes READY, then its completion goes to its queue's completion queue. A host
reset may have silenced it (R408), or made its slot EMPTY: that slot stays as it is (DEDUCED, log 185). -/
def State.endOrder (s : State) (o : Order) (d : Done) : State :=
  let s0 := s.modHost (fun h => { h with orders := h.orders.filter (fun x => decide (x.id ≠ o.id)) })
  if o.silent then s0
  else
    let s1 := s0.recordOrder o.part o.cls o.tag d
    let i := o.slot.toNat
    let s2 := if i = 0xFFFF then s1
      else
        let x := s1.rslot o.part i
        if x.state ≠ .pending ∨ x.gen ≠ o.gen then s1
        else s1.setRslot o.part i { x with
          state := .ready, code := d.code, info := d.info, doneTime := s.clock.time, reqScope := d.scope, reqMask := d.mask,
          payload := d.payload.take 1984 }
    s2.postCq (s2.sq o.sq).cq.toNat ⟨o.tag, BitVec.ofNat 16 o.sq, d.code, o.slot, o.gen, d.scope, d.mask, d.info, o.irq⟩

/-- The order of a number among those taken. -/
def State.orderById (s : State) (id : Nat) : Option Order := s.host.orders.find? (fun o => decide (o.id = id))

/-- R397, R400: the k-th order taken, when it is one of the class and op that its engine can begin now: not begun yet, and
after every earlier order of its queue to the same engine. -/
def State.readyOrder (s : State) (k : Nat) (cls op : Byte) : Option Order :=
  match s.host.orders[k]? with
  | none => none
  | some o =>
    if o.cls = cls ∧ o.op = op ∧ !o.started ∧
        !(s.host.orders.take k).any (fun e => decide (e.sq = o.sq) && decide (e.cls = o.cls) && !e.started) then some o
    else none

/-- Marks an order as begun by its engine. -/
def State.beginOrder (s : State) (id : Nat) : State :=
  s.modHost (fun h => { h with orders := h.orders.map (fun o => if o.id = id then { o with started := true } else o) })

/-- Where an engine's command comes from, once its block is read: an order, or the block at an address that a submit
register named (R257, R267, R299). -/
inductive JobSrc where
  | order (o : Order)
  | submit (addr : Nat)
  deriving DecidableEq, Repr

/-- The block of an engine's command at work. -/
structure Job where
  part : PartNo
  block : List Byte
  src : JobSrc
  deriving DecidableEq, Repr

/-- Ends a command: an order completes; a command of a submit register has no completion. -/
def State.endJob (s : State) (j : Job) (d : Done) : State :=
  match j.src with
  | .order o => s.endOrder o d
  | .submit _ => s

/-- Byte fields of a block. -/
def Job.fld (j : Job) (a n : Nat) : Nat := leField j.block a n

/-- The bytes of a block from `a` are all zero. -/
def zeroFrom (b : List Byte) (a n : Nat) : Bool := (b.drop a).take n |>.all (fun x => decide (x = 0))

/-- R524: what a submit register yields: its block, or the failure's cause (1 translation, 2 poison). -/
def State.submitBlock (s : State) (p : PartNo) (addr n : Nat) : Except Nat (List Byte) :=
  match s.dvRead p (masterMig (s.home p)) addr n with
  | .error _ => .error 1
  | .ok (b, bad) => if bad then .error 2 else .ok b

/-- R524: a submitted block that cannot be read whole: cmd_err, and one BAD_ORDER record whose detail holds the address of
the block and the cause. -/
def State.submitFail (s : State) (p : PartNo) (addr cause : Nat) (err : PartRegs → PartRegs) : State :=
  (s.modPreg p err).report ⟨0x0503, dieM (s.home p), p.val, unitMigration (4 * (s.home p).val), .operation,
    u64s [addr, cause]⟩

/-- R9, R257: a submitted block that is read whole and rejected for its form has no side effect but cmd_err and one
BAD_ORDER record. The manual does not say where the code of a submitted block appears: the model takes the record of R524,
with cause 0, and writes no result record (DESIGN CHOICE, log 163). -/
def State.submitReject (s : State) (p : PartNo) (addr : Nat) (err : PartRegs → PartRegs) : State := s.submitFail p addr 0 err

/-- R9, R257: a command rejected with BAD_ORDER after its block was taken: an order completes with the code. -/
def State.rejectJob (s : State) (j : Job) (err : PartRegs → PartRegs) : State :=
  match j.src with
  | .order _ => (s.modPreg j.part err).endJob j (Done.of 0x0503)
  | .submit a => s.submitReject j.part a err

/-- Takes up the command of an engine: an order of the class and op that its engine can begin (R397, R400), or a block
named by a submit register. A submitted block that is malformed is rejected (R9); one that holds another op is not taken. -/
def State.takeJob (s : State) (src : CmdSrc) (cls op n : Nat) (ok : List Byte → Bool) (err : PartRegs → PartRegs) :
    State × Option Job :=
  match src with
  | .order k => match s.readyOrder k (BitVec.ofNat 8 cls) (BitVec.ofNat 8 op) with
    | none => (s, none)
    | some o => (s.beginOrder o.id, some ⟨o.part, o.block, .order { o with started := true }⟩)
  | .submit p a =>
    let addr := a.toNat % 2 ^ 52 / 64 * 64
    match s.submitBlock p addr n with
    | .error c => (s.submitFail p addr c err, none)
    | .ok b =>
      if !ok b then (s.submitReject p addr err, none)
      else if leField b 2 1 ≠ op then (s, none)
      else (s, some ⟨p, b, .submit addr⟩)

/-- The order a command is, if it is one. -/
def Job.orderId (j : Job) : Option Nat :=
  match j.src with
  | .order o => some o.id
  | .submit _ => none

/-- Ends a command with a result record: at its result address, when it is not 0, and as its slot's payload. -/
def State.endRecord (s : State) (j : Job) (addr : Nat) (d : Done) : State :=
  let s1 := if addr = 0 then s else s.dvWrite j.part (masterMig (s.home j.part)) addr d.payload
  s1.endJob j d

end Sys2Proof.Machine
end

