-- ==== Sys2Proof/Machine/FolioEnd.lean ====
section
/-! DEFINITION. How a folio of a slot ends (R246, R248, R258), and the messages and decisions of a spanning folio
(R250 to R253). -/

namespace Sys2Proof.Machine

/-- R258: a record goes to each command that waits for the folio's end, at its result address and as its completion; when
none waits, to the address its OPEN gave. -/
def State.tellWaiters (s : State) (f : Folio) (r : FolioRecord) : State :=
  let wr (t : State) (a : Nat) : State := if a = 0 then t else t.dvWrite f.part (masterMig (t.home f.part)) a r.bytes
  if f.waiters.isEmpty then wr s f.resultAddr.toNat
  else f.waiters.foldl (fun t w =>
    let t1 := wr t w.2.toNat
    match w.1 with
    | none => t1
    | some id => match t1.orderById id with
      | none => t1
      | some o => t1.endOrder o { Done.of r.code with payload := r.bytes }) s

/-- R246 step 6: releases a folio of a slot that has sealed or scraped: its intents, the stores that waited on them, the result
record, the slot FREE. -/
def State.endSlot (s : State) (id code outcome : Nat) (other : Option Nat) : State :=
  let f := s.slot id
  let s1 := (s.setSlot id { f with pages := [] }).release f.pages (if outcome = 1 then f.moved else [])
  (s1.tellWaiters f (f.record id code outcome other f.sealTime.toNat)).setSlot id { Folio.reset with gen := f.gen }

/-- R248, R258: scrapes the folio of a slot with a cause, its poisoned granules counted for the record. -/
def State.scrapeSlot (s : State) (id : Nat) (cause : W16) (other : Option Nat) : State :=
  let x := (FX.ofSlot s id).judge.scrapeBody cause
  x.back.endSlot id cause.toNat 2 other

/-- R246 steps 2 to 5: the seal point of the folio in a slot; it ends when everything is applied. -/
def State.sealSlot (s : State) (id : Nat) : State := (FX.ofSlot s id).sealPoint.back

/-- Changes the spanning side of the part in a slot. -/
def State.modSpan (s : State) (id : Nat) (g : Span → Span) : State :=
  let f := s.slot id
  s.setSlot id { f with span := f.span.map g }

/-- The part of a spanning folio that a member of this module holds. -/
def State.partSlot (s : State) (gid : W64) (index : Nat) : Option (Nat × Folio) :=
  s.liveSlots.find? (fun e => match e.2.span with
    | some sp => decide (sp.globalId = gid) && decide (sp.myIndex = index)
    | none => false)

/-- R352 to R354: the ports toward a fabric address: those wired to its slot on the board, or the switch planes. -/
def State.portsToward (s : State) (a : W32) : List PortNo :=
  let i := s.address.toNat % 16
  let t := a.toNat % 16
  if a.toNat / 16 ≠ s.address.toNat / 16 then (List.range 15).map (fun k => s.physOf (15 + k))
  else ((List.range 15).filter (fun p =>
    if s.link.boardSize = 8 then (if p < 7 then decide ((i + p + 1) % 8 = t) else decide (p < 14) && decide ((i + p - 6) % 8 = t))
    else decide ((i + p + 1) % 16 = t))).map s.physOf

/-- R358: every UP port toward an address is held. -/
def State.heldToward (s : State) (a : W32) : Bool :=
  let ps := (s.portsToward a).filter (fun p => decide ((s.port p).mode = .up))
  !ps.isEmpty && ps.all (fun p => (s.port p).held)

/-- Sends a message from one member of a part to another; folio control completes with PORT_HELD where the way to the other
module is held (R358). -/
def State.tellMember (s : State) (sp : Span) (dst : Nat) (m : FolioMsg) : State :=
  match sp.members[dst]?, sp.members[sp.myIndex]? with
  | some x, some me =>
    if x.module ≠ s.address ∧ s.heldToward x.module then s.emit (.engineCode (partOf me.part.toNat) 0x040C)
    else s.emit (.folio sp.globalId dst sp.myIndex (some x) m)
  | x, _ => s.emit (.folio sp.globalId dst sp.myIndex x m)

/-- R351: a folio control message: one of another module that is not for this module and a partition formed here is discarded
and counted. -/
def State.hear (s : State) (via : Option FolioVia) (act : State → State) : State :=
  match via with
  | none => act s
  | some v => if s.addressed v.dst v.part.toNat then act s else s.countPort v.port 0x11 1 0

/-- R251: keeps the code of a part scraped before its vote. -/
def State.keepScraped (s : State) (sp : Span) (code : W16) (deadline : W64) : State :=
  let e : ScrapedPart := ⟨sp.globalId, sp.myIndex, code, deadline⟩
  { s with fol := { s.fol with scrapedParts := s.fol.scrapedParts ++ [e] } }

/-- R253: keeps a decision that a member has learned. -/
def State.keepDecision (s : State) (k : Kept) : State := { s with fol := { s.fol with kept := s.fol.kept ++ [k] } }

/-- R252: the coordinator's decision, for the part in a slot: kept, and sent to every other member. -/
def State.decideSpan (s : State) (id : Nat) (sealed : Bool) (code : W16) (noIndex : Nat) : State :=
  let f := s.slot id
  match f.span with
  | none => s
  | some sp =>
    let s1 := s.modSpan id (fun x => { x with decision := some sealed, decisionCode := code, noIndex := noIndex,
                                              decidedAt := s.clock.time })
    let s2 := s1.keepDecision ⟨sp.globalId, sp.myIndex, sealed, code, noIndex, f.deadline⟩
    (List.range (sp.members.length - 1)).foldl (fun t i => t.tellMember sp (i + 1) (.decision sealed code noIndex)) s2

/-- R252: the coordinator acts on its own part. -/
def State.coordAct (s : State) (id : Nat) : State :=
  let f := s.slot id
  match f.span with
  | none => s
  | some sp => match sp.decision with
    | none => s
    | some sealed =>
      if f.mode = .sealed then s
      else if sealed then s.sealSlot id
      else s.scrapeSlot id sp.decisionCode (some sp.noIndex)

/-- R252: every other member has acknowledged. -/
def Span.allAcked (sp : Span) : Bool := (List.range sp.members.length).all (fun i => decide (i = 0) || decide (i ∈ sp.acks))

/-- R252: the decision once every vote is in: SEAL when all are YES at or before the deadline; else SCRAPE, with
FOLIO_DEADLINE when the deadline has passed, or the cause of the lowest NO. -/
def State.tally (s : State) (id : Nat) : State :=
  let f := s.slot id
  match f.span with
  | none => s
  | some sp =>
    if sp.decision.isSome ∨ !(List.range sp.members.length).all (fun i => sp.votes.any (fun v => decide (v.member = i))) then s
    else
      let late := decide (f.deadline < s.clock.time) || sp.votes.any (fun v => decide (f.deadline < v.time))
      let s1 := if late then s.decideSpan id false 0x0305 0
        else match (List.range sp.members.length).findSome? (fun i => sp.votes.find? (fun v => decide (v.member = i) && !v.yes)) with
          | some v => s.decideSpan id false v.code v.member
          | none => s.decideSpan id true 0 0
      if sp.members.length ≤ 1 then s1.coordAct id else s1

/-- R251: the part in a slot votes: to the coordinator, or among its own votes. A member votes once. -/
def State.castVote (s : State) (id : Nat) (yes : Bool) (code : W16) : State :=
  let f := s.slot id
  match f.span with
  | none => s
  | some sp =>
    if sp.voted then s
    else
      let s1 := s.modSpan id (fun x => { x with voted := true })
      if sp.myIndex = 0 then
        let v : Vote := ⟨0, yes, code, s.clock.time⟩
        (s1.modSpan id (fun x => { x with votes := x.votes ++ [v] })).tally id
      else s1.tellMember sp 0 (.vote yes code s.clock.time)

/-- R251 steps 1, 2 and 4: a part that PREPARE has reached answers when it can: DOOMED at once with its cause; COMPLETE by
the judgment of R249, or NO when the deadline came first; open still, NO once the deadline has passed. -/
def State.answerPart (s : State) (id : Nat) : State :=
  let f := s.slot id
  match f.span with
  | none => s
  | some sp =>
    if sp.voted then s
    else match f.mode with
      | .doomed => s.castVote id false f.cause
      | .opened => if sp.late ∨ f.deadline < s.clock.time then s.castVote id false 0x0305 else s
      | .complete =>
        if sp.late then s.castVote id false 0x0305
        else
          let x := (FX.ofSlot s id).judge
          if x.f.poisoned ≠ 0 ∧ !f.tolerant then x.back.castVote id false 0x0303
          else ({ x with f := { x.f with mode := .prepared } }).back.castVote id true 0
      | _ => s

/-- R251 step 1: a part that is DOOMED after PREPARE has reached it votes NO at once. -/
def State.answerDoomed (s : State) (id : Nat) : State :=
  let f := s.slot id
  match f.span with
  | none => s
  | some sp => if f.mode = .doomed ∧ sp.prepareSeen then s.answerPart id else s

/-- A folio at work goes back into its slot, and answers for its part if the work has doomed it (R251). -/
def FX.done (x : FX) : State :=
  match x.id with
  | none => x.back
  | some id => x.back.answerDoomed id

/-- R258: what a part scraped on its own account writes as `other`: its index, as the NO voter, unless a conflict doomed it. -/
def Folio.ownOther (f : Folio) (sp : Span) (code : W16) : Option Nat :=
  if code = 0x0301 ∧ f.cause = 0x0301 then none else some sp.myIndex

/-- R248, R250, R251: scrapes the folio in a slot on its own module's account. A spanning part votes NO with the code; at
the coordinator the whole folio scrapes, with FOLIO_DEADLINE once the deadline has passed (R252). -/
def State.scrapePart (s : State) (id : Nat) (code : W16) : State :=
  let f := s.slot id
  match f.span with
  | none => s.scrapeSlot id code none
  | some sp =>
    if sp.myIndex = 0 then
      let s1 := if sp.decision.isSome then s else s.decideSpan id false (if f.deadline < s.clock.time then 0x0305 else code) 0
      s1.scrapeSlot id code (f.ownOther sp code)
    else
      let s1 := if sp.prepareSeen then s.castVote id false code else s
      (s1.keepScraped sp code f.deadline).scrapeSlot id code (f.ownOther sp code)

/-- R258: scrapes every folio of a partition that is open, doomed or complete with FOLIO_ABORTED (R465, R501, R503, R504);
a PREPARED or IN_DOUBT part stays. -/
def State.abortFolios (s : State) (p : PartNo) : State :=
  (s.liveSlots.filter (fun e => decide (e.2.part = p) &&
    (decide (e.2.mode = .opened) || decide (e.2.mode = .doomed) || decide (e.2.mode = .complete)))).foldl
    (fun t e => t.scrapePart e.1 0x0309) s

/-- R252, R253: a member follows a decision on its part: a SEAL passes its seal point, a SCRAPE scrapes at once and is
acknowledged. -/
def State.followDecision (s : State) (id : Nat) (sealed : Bool) (code : W16) (noIndex : Nat) : State :=
  let f := s.slot id
  match f.span with
  | none => s
  | some sp =>
    let s1 := s.keepDecision ⟨sp.globalId, sp.myIndex, sealed, code, noIndex, f.deadline⟩
    let s2 := s1.modSpan id (fun x => { x with decision := some sealed, decisionCode := code, noIndex := noIndex })
    if sealed then s2.sealSlot id else (s2.scrapeSlot id code (some noIndex)).tellMember sp 0 .ack

end Sys2Proof.Machine
end

