-- ==== Sys2Proof/Machine/Transfer.lean ====
section
/-! DEFINITION. The transfer and stream class of a compute core (R95 to R100, R240, R59, R96). -/

namespace Sys2Proof.Machine

/-! Rotary cache (R59) -/

/-- R59: the set of a line. -/
def rotSet (line : Nat) : Nat := line / 64 % 256

/-- The cached line, if present. -/
def Core.rotFind (c : Core) (line : Nat) : Option RotLine :=
  (Tab.get [] c.rot (rotSet line)).find? (fun l => decide (l.addr = line))

/-- R59: inserts or renews a line as the most recently used of its set of 16. -/
def Core.rotUse (c : Core) (l : RotLine) : Core :=
  let ls := (Tab.get [] c.rot (rotSet l.addr)).filter (fun x => decide (x.addr ≠ l.addr))
  { c with rot := Tab.set [] c.rot (rotSet l.addr) ((l :: ls).take 16) }

/-! Memory accesses of a core -/

/-- One stretch of a transfer: its memory address, its store address, its bytes. -/
structure Run where
  mem : Nat
  st : Nat
  n : Nat
  deriving DecidableEq, Repr

/-- The granules of translated pieces, in order. -/
def State.transGrans (s : State) (v : View) (ts : List (Trans × Nat)) : List Gran :=
  ts.flatMap (fun x => (gransOf x.1.ua x.2).map (s.granAt v x.1))

/-- R235: the demand reads of a core find uncorrectable errors. -/
def State.touchTrans (s : State) (finder : Nat) (p : Option PartNo) (ts : List (Trans × Nat)) : State :=
  ts.foldl (fun t x => t.touch finder p x.1.ua x.2) s

/-- R100: the store bytes of a failed transfer are undefined: free values (log 1). -/
def State.undefStore (s : State) (n : CoreNo) (r : Run) : State :=
  if storeSize < r.st + r.n then s
  else
    let d := s.draws
    ({ s with draws := d + r.n }).modCore n (fun c => c.stBytes r.st ((List.range r.n).map (fun i => Config.freeByte (d + i))))

/-- R61, R95, R199, R235: loads one stretch: the granules and their marks land in the store. -/
def State.loadRun (s : State) (n : CoreNo) (space ctx : Nat) (r : Run) : Except (State × CoreErr) State :=
  if storeSize < r.st + r.n then .error (s, errStore (r.st + r.n))
  else
    let q := s.coreReq n space ctx r.mem 0
    match s.translateAll q (pagePieces r.mem r.n) with
    | .error e => .error (s.pfRecord q.part e, errPage e)
    | .ok ts =>
      let s1 := (s.readPath n q (pagePieces r.mem r.n) ts).touchTrans 0 (some q.part) ts
      let gs := s1.transGrans q.view ts
      let bad := gs.map (fun g => g.poison)
      let k := (bad.filter id).length
      .ok ((s1.modCore n (fun c =>
        (c.stWrite r.st (gs.flatMap (fun g => granBytes g.data)) (fun i => bad.getD i false)).seen (bad.any id))).countCore n 0x1A k)

/-- Loads stretches in order; a translation failure leaves every store byte of the instruction undefined (R100). -/
def State.loadRuns (s : State) (n : CoreNo) (space ctx : Nat) (all : List Run) : List Run → State × Option CoreErr
  | [] => (s, none)
  | r :: rest => match s.loadRun n space ctx r with
    | .ok s1 => State.loadRuns s1 n space ctx all rest
    | .error (s1, e) => (if e.code = 0x0201 then all.foldl (fun t r => t.undefStore n r) s1 else s1, some e)

/-- R240, R255: how a core's stores go: to its folio's slot, straight to memory, or refused. -/
inductive StoreWay where
  | plain
  | slot (id : Nat)
  | refused
  deriving DecidableEq, Repr

/-- R240, R255: the way of a core's next store. -/
def State.storeWay (s : State) (n : CoreNo) : StoreWay :=
  let c := s.core n
  if c.bound then
    let h := c.folioHandle c.part
    if s.named c.part h ∧ ((s.slot (handleSlot h)).mode = .opened ∨ (s.slot (handleSlot h)).mode = .doomed) then
      .slot (handleSlot h)
    else .refused
  else if c.snapBound then .refused
  else .plain

/-- R61: a store is outstanding until TRANSFER_ACK; `held` while it waits on intent (R221). -/
def State.outStore (s : State) (n : CoreNo) (held : Bool) : State :=
  s.modCore n (fun c => { c with outStores := c.outStores ++ [⟨held⟩] })

/-- R61, R221, R240: performs a store of pieces by a core. -/
def State.coreStore (s : State) (n : CoreNo) (ps : List Piece) : Except CoreErr State :=
  match s.storeWay n with
  | .refused => .error (coreErr 0x0306)
  | .slot id => .ok (((FX.ofSlot s id).write true ps).done.outStore n false)
  | .plain => .ok ((s.plainWrite (.core n) ps).outStore n (s.storeWaits ps))

/-- R61, R95: stores one stretch: the bytes and marks of the store go out. -/
def State.storeRun (s : State) (n : CoreNo) (space ctx : Nat) (r : Run) : Except (State × CoreErr) State :=
  if storeSize < r.st + r.n then .error (s, errStore (r.st + r.n))
  else
    let c := s.core n
    let bs := c.stRead r.st r.n
    let bad (i : Nat) : Bool := c.granBad (r.st + 64 * i)
    let q := s.coreReq n space ctx r.mem 1
    -- R100: pages before a failing one stay written
    let step (acc : State × Option CoreErr × Nat) (x : Nat × Nat) : State × Option CoreErr × Nat :=
      match acc.2.1 with
      | some _ => acc
      | none =>
        let s0 := acc.1
        match s0.translate { q with addr := x.1 } with
        | .error e => (s0.pfRecord q.part e, some (errPage e), acc.2.2)
        | .ok t =>
          let ps := transPieces [(t, x.2)] ((bs.drop acc.2.2).take x.2) (fun i => bad (acc.2.2 / 64 + i))
          match (s0.writePath n { q with addr := x.1 } t x.2).coreStore n ps with
          | .error e => (s0, some e, acc.2.2)
          | .ok s1 => (s1, none, acc.2.2 + x.2)
    let res := (pagePieces r.mem r.n).foldl step (s, none, 0)
    match res.2.1 with
    | some e => .error (res.1, e)
    | none => .ok (res.1.modCore n (fun c => c.seen (c.stBad r.st r.n)))

/-- Stores stretches in order. -/
def State.storeRuns (s : State) (n : CoreNo) (space ctx : Nat) : List Run → State × Option CoreErr
  | [] => (s, none)
  | r :: rest => match s.storeRun n space ctx r with
    | .ok s1 => State.storeRuns s1 n space ctx rest
    | .error (s1, e) => (s1, some e)

/-- Ends a transfer of `bytes`: it retires (event 0x1B counts its bytes), or the core faults. -/
def State.endXfer (s : State) (n : CoreNo) (bytes : Nat) (r : State × Option CoreErr) : State :=
  match r.2 with
  | some e => r.1.coreFault n e
  | none => (r.1.countCore n 0x1B (bytes / 64)).retire n

/-- R95: a legal length: a multiple of 64 from 64 B to 1 MiB; others are reserved (BAD_INSTR). -/
def lenOk (len : BitVec 21) : Bool :=
  decide (len ≠ 0) && decide (len.toNat % 64 = 0) && decide (len.toNat ≤ 2 ^ 20)

/-- R95: the memory address sa + imm, modulo 2^64. -/
def Core.memAddr (c : Core) (sa : SReg) (imm : W32) : Nat := (c.sget sa + imm.signExtend 64).toNat

/-- R95: the space and context of LOAD and STORE. -/
def Core.memSpace (c : Core) (m : MemArg) : Nat × Nat :=
  match m.ctx with
  | none => (0, 0)
  | some sc => (1, (c.sget sc).toNat % 65536)

/-- R80, R95: what stops LOAD or STORE before any effect. -/
def Core.xferErr (c : Core) (m : MemArg) (st : BitVec 22) (len : BitVec 21) : Option CoreErr :=
  if !lenOk len then some errBadInstr
  else if c.sbad m.sa || (match m.ctx with | some sc => c.sbad sc | none => false) then some errPoison
  else if c.memAddr m.sa m.imm % 64 ≠ 0 ∨ st.toNat % 64 ≠ 0 then some errMisaligned
  else none

/-- R254: a read under a snapshot that has been closed fails with OLD_SNAPSHOT. -/
def State.readErr (s : State) (n : CoreNo) : Option CoreErr := if s.snapGone n then some (coreErr 0x0304) else none

/-- LOAD (R95). -/
def execLoad (n : CoreNo) (m : MemArg) (st : BitVec 22) (len : BitVec 21) (s : State) : Host.Outcome State Fault Refusal :=
  .next (s.issue n .transfer (fun s =>
    let c := s.core n
    match (c.xferErr m st len).orElse (fun _ => s.readErr n) with
    | some e => s.coreFault n e
    | none =>
      let r : Run := ⟨c.memAddr m.sa m.imm, st.toNat, len.toNat⟩
      s.endXfer n len.toNat (s.loadRuns n (c.memSpace m).1 (c.memSpace m).2 [r] [r])))

/-- STORE (R95, R240). -/
def execStore (n : CoreNo) (m : MemArg) (st : BitVec 22) (len : BitVec 21) (s : State) : Host.Outcome State Fault Refusal :=
  .next (s.issue n .transfer (fun s =>
    let c := s.core n
    match c.xferErr m st len with
    | some e => s.coreFault n e
    | none =>
      s.endXfer n len.toNat (s.storeRuns n (c.memSpace m).1 (c.memSpace m).2 [⟨c.memAddr m.sa m.imm, st.toNat, len.toNat⟩])))

/-! Transfer and stream descriptors (R98) -/

/-- R98: the fields of a transfer descriptor (`num` rows) or a stream descriptor (`num` ids). -/
structure XferDesc where
  space : Nat
  ctx : Nat
  base : Nat
  num : Nat
  size : Nat
  stride : Nat
  st : Nat
  stStride : Nat
  deriving DecidableEq, Repr

/-- R98, R47: decodes a descriptor of a kind and direction; none when it is rejected. -/
def xferDesc (b : List Byte) (kind dir maxNum maxSize : Nat) : Option XferDesc :=
  let d : XferDesc := ⟨leField b 3 1, leField b 4 2, leField b 8 8, leField b 16 4, leField b 20 4, leField b 24 8,
    leField b 32 4, leField b 36 4⟩
  if leField b 0 1 = kind ∧ leField b 1 1 = 1 ∧ leField b 2 1 = dir ∧ d.space ≤ 1 ∧ leField b 6 2 = 0 ∧ d.base % 64 = 0 ∧
      (d.space = 1 ∨ d.base < 2 ^ 52) ∧ 1 ≤ d.num ∧ d.num ≤ maxNum ∧ 64 ≤ d.size ∧ d.size ≤ maxSize ∧ d.size % 64 = 0 ∧
      d.stride % 64 = 0 ∧ d.stStride % 64 = 0 ∧ (b.drop 40).all (fun x => decide (x = 0)) then some d
  else none

/-- R69, R95, R98: reads the 64 B descriptor at a store address. -/
def Core.readXfer (c : Core) (st kind dir maxNum maxSize : Nat) : Except CoreErr XferDesc :=
  if st % 64 ≠ 0 then .error errMisaligned
  else if storeSize < st + 64 then .error (errStore (st + 64))
  else if c.stBad st 64 then .error errPoison
  else match xferDesc (c.stRead st 64) kind dir maxNum maxSize with
    | none => .error errBadOrder
    | some d => .ok d

/-- R98: row i of a transfer lies at mem_addr + i*mem_stride, modulo 2^64. -/
def XferDesc.runs (d : XferDesc) : List Run :=
  (List.range d.num).map (fun i => ⟨(d.base + i * d.stride) % 2 ^ 64, d.st + i * d.stStride, d.size⟩)

/-- R98: element i of a stream lies at mem_base + id_i*id_stride, modulo 2^64. -/
def XferDesc.elems (d : XferDesc) (ids : List Nat) : List Run :=
  (ids.zipIdx).map (fun x => ⟨(d.base + x.1 * d.stride) % 2 ^ 64, d.st + x.2 * d.stStride, d.size⟩)

/-- LOAD2D (R95, R98). -/
def execLoad2d (n : CoreNo) (st : BitVec 22) (s : State) : Host.Outcome State Fault Refusal :=
  .next (s.issue n .transfer (fun s =>
    match (s.core n).readXfer st.toNat 3 0 65536 (2 ^ 20) with
    | .error e => s.coreFault n e
    | .ok d => match s.readErr n with
      | some e => s.coreFault n e
      | none => s.endXfer n (d.num * d.size) (s.loadRuns n d.space d.ctx d.runs d.runs)))

/-- STORE2D (R95, R98, R240). -/
def execStore2d (n : CoreNo) (st : BitVec 22) (s : State) : Host.Outcome State Fault Refusal :=
  .next (s.issue n .transfer (fun s =>
    match (s.core n).readXfer st.toNat 3 1 65536 (2 ^ 20) with
    | .error e => s.coreFault n e
    | .ok d => s.endXfer n (d.num * d.size) (s.storeRuns n d.space d.ctx d.runs)))

/-! Send and receive (R97) -/

/-- R95: the cores of the rectangle with two corners, ascending. -/
def rectCores (a b : CoreNo) : List CoreNo :=
  let x0 := min (a.val % 16) (b.val % 16)
  let x1 := max (a.val % 16) (b.val % 16)
  let y0 := min (a.val / 16) (b.val / 16)
  let y1 := max (a.val / 16) (b.val / 16)
  allCores.filter (fun c => decide (x0 ≤ c.val % 16) && decide (c.val % 16 ≤ x1) && decide (y0 ≤ c.val / 16) && decide (c.val / 16 ≤ y1))

/-- R97: the core takes pushed data: it is not OFF, not CUT and not in soft reset. -/
def Core.accepts (c : Core) : Bool := decide (c.mode ≠ .off) && decide (c.mode ≠ .cut) && !c.softReset

/-- The 64 B units of a stretch of the store, with their marks. -/
def Core.units (c : Core) (st n : Nat) : List (BitVec 512 × Bool) :=
  (List.range (n / 64)).map (fun i => (granOf (c.stRead (st + 64 * i) 64), c.granBad (st + 64 * i)))

/-- R97: puts the data of a SEND on the mesh for each core in ascending linear order; the first that is down ends it with
DEST_DOWN (log 159, DESIGN CHOICE). -/
def State.sendTo (s : State) (src : CoreNo) (tag : Nat) (us : List (BitVec 512 × Bool)) : List CoreNo → State × Option CoreErr
  | [] => (s, none)
  | d :: r =>
    if (s.core d).accepts then
      State.sendTo { s with mesh := { s.mesh with sends := s.mesh.sends ++ [⟨src, d, tag, us⟩] } } src tag us r
    else (s, some (coreErr 0x010B))

/-- SEND (R95, R97): a rectangle that leaves the partition's faults with PART_SHAPE and sends nothing. -/
def execSend (n : CoreNo) (st : BitVec 22) (len : BitVec 21) (tag : Byte) (dst dst2 : CoreNo) (s : State) :
    Host.Outcome State Fault Refusal :=
  .next (s.issue n .transfer (fun s =>
    let c := s.core n
    let rect := rectCores dst dst2
    if !lenOk len then s.coreFault n errBadInstr
    else if st.toNat % 64 ≠ 0 then s.coreFault n errMisaligned
    else if storeSize < st.toNat + len.toNat then s.coreFault n (errStore (st.toNat + len.toNat))
    else if rect.any (fun d => !s.sameRect n d) then s.coreFault n (coreErr 0x0405)
    else
      let us := c.units st.toNat len.toNat
      s.endXfer n len.toNat ((s.modCore n (fun c => c.seen (us.any (·.2)))).sendTo n tag.toNat us rect)))

/-- R97: moves up to `k` units of a stream from the inbound queue to the store; answers the core, the next store address
and the units still to come. -/
def Core.takeUnits (c : Core) (src : CoreNo) (tag : Nat) : Nat → Nat → Core × Nat × Nat
  | st, 0 => (c, st, 0)
  | st, k + 1 =>
    match takeNth (fun u : InUnit => decide (u.src = src) && decide (u.tag = tag)) 0 c.inbound with
    | none => (c, st, k + 1)
    | some (u, r) =>
      Core.takeUnits ((({ c with inbound := r }).stWrite st (granBytes u.data) (fun _ => u.poison)).seen u.poison) src tag (st + 64) k

/-- RECV (R95, R97): takes its stream's units from the inbound queue, waiting for those still to come. -/
def execRecv (n : CoreNo) (st : BitVec 22) (len : BitVec 21) (tag : Byte) (src : CoreNo) (s : State) :
    Host.Outcome State Fault Refusal :=
  .next (s.issue n .transfer (fun s =>
    if !lenOk len then s.coreFault n errBadInstr
    else if st.toNat % 64 ≠ 0 then s.coreFault n errMisaligned
    else if storeSize < st.toNat + len.toNat then s.coreFault n (errStore (st.toNat + len.toNat))
    else
      let r := (s.core n).takeUnits src tag.toNat st.toNat (len.toNat / 64)
      if r.2.2 = 0 then s.endXfer n len.toNat (s.setCore n r.1, none)
      else (s.setCore n r.1).beginWait n (.recv src tag.toNat r.2.1 r.2.2)))

/-! Streams (R62, R99) -/

/-- The ids of a stretch of the store: U32 or U64, each with its granule's mark. -/
def Core.streamIds (c : Core) (st n : Nat) (wide : Bool) : List StreamId :=
  let w := if wide then 8 else 4
  (List.range (n / w)).map (fun i => ⟨BitVec.ofNat 64 (c.stLe (st + w * i) w), c.granBad (st + w * i)⟩)

/-- STREAM.LD (R62, R95). -/
def execStreamLd (n : CoreNo) (st : BitVec 22) (len : BitVec 21) (wide : Bool) (s : State) : Host.Outcome State Fault Refusal :=
  .next (s.issue n .transfer (fun s =>
    let c := s.core n
    let ids := c.streamIds st.toNat len.toNat wide
    if !lenOk len then s.coreFault n errBadInstr
    else if storeSize < st.toNat + len.toNat then s.coreFault n (errStore (st.toNat + len.toNat))
    else if 4096 < c.streamq.length + ids.length then
      s.coreFault n ⟨0x0106, 4, false, 0, ids.length, 4096 - c.streamq.length, none⟩
    else s.endXfer n len.toNat (s.setCore n ({ c with streamq := c.streamq ++ ids }.seen (c.stBad st.toNat len.toNat)), none)))

/-- R98, R99: the descriptor of a GATHER or SCATTER and its ids from the head of the stream queue. -/
def Core.readStream (c : Core) (st dir : Nat) : Except CoreErr (XferDesc × List Nat) :=
  match c.readXfer st 4 dir 4096 4096 with
  | .error e => .error e
  | .ok d =>
    if c.streamq.length < d.num then .error ⟨0x0106, 4, false, 0, d.num, c.streamq.length, none⟩
    else if (c.streamq.take d.num).any (fun x => x.poison) then .error errPoison
    else .ok (d, (c.streamq.take d.num).map (fun x => x.id.toNat))

/-- The core without the ids a stream has taken. -/
def Core.dropIds (c : Core) (k : Nat) : Core := { c with streamq := c.streamq.drop k }

/-- GATHER (R95, R98, R99). -/
def execGather (n : CoreNo) (st : BitVec 22) (s : State) : Host.Outcome State Fault Refusal :=
  .next (s.issue n .transfer (fun s =>
    match (s.core n).readStream st.toNat 0 with
    | .error e => s.coreFault n e
    | .ok (d, ids) => match s.readErr n with
      | some e => s.coreFault n e
      | none =>
        let s1 := s.modCore n (fun c => c.dropIds d.num)
        s1.endXfer n (d.num * d.size) (s1.loadRuns n d.space d.ctx (d.elems ids) (d.elems ids))))

/-- SCATTER (R95, R98, R99): a later element in queue order is left. -/
def execScatter (n : CoreNo) (st : BitVec 22) (s : State) : Host.Outcome State Fault Refusal :=
  .next (s.issue n .transfer (fun s =>
    match (s.core n).readStream st.toNat 1 with
    | .error e => s.coreFault n e
    | .ok (d, ids) =>
      let s1 := s.modCore n (fun c => c.dropIds d.num)
      s1.endXfer n (d.num * d.size) (s1.storeRuns n d.space d.ctx (d.elems ids))))

/-! Rotary preload and flags -/

/-- Reads the rotary line at a device-virtual line address (R59). -/
def State.readRotLine (s : State) (n : CoreNo) (line : Nat) : Except PFault (State × RotLine) :=
  let q := s.coreReq n 0 0 line 0
  match s.translate q with
  | .error e => .error e
  | .ok t =>
    let s1 := (s.readPath n q [(line, 64)] [(t, 64)]).touch 0 (some q.part) t.ua 64
    let g := s1.granAt q.view t (t.ua / 64)
    .ok (s1, ⟨line, g.data, g.poison⟩)

/-- Fills lines into the rotary cache in order (R59). -/
def State.rotFillAll (s : State) (n : CoreNo) : List Nat → State × Option CoreErr
  | [] => (s, none)
  | l :: r => match s.readRotLine n l with
    | .error e => (s.pfRecord (s.core n).part e, some (errPage e))
    | .ok (s1, x) => State.rotFillAll (s1.modCore n (fun c => (c.rotUse x).seen x.poison)) n r

/-- The 64 B lines of a stretch. -/
def linesOf (a n : Nat) : List Nat := (gransOf a n).map (64 * ·)

/-- ROTPRE (R59, R95). -/
def execRotpre (n : CoreNo) (sa : SReg) (imm : W32) (len : BitVec 21) (s : State) : Host.Outcome State Fault Refusal :=
  .next (s.issue n .transfer (fun s =>
    let c := s.core n
    let a := (c.regs.rotBase + c.sget sa + imm.signExtend 64).toNat
    if !lenOk len then s.coreFault n errBadInstr
    else if c.sbad sa then s.coreFault n errPoison
    else match s.readErr n with
      | some e => s.coreFault n e
      | none => s.endXfer n len.toNat (s.rotFillAll n (linesOf a len.toNat))))

/-- R96: the flag word of a WAITFLAG meets its condition (`ge`: unsigned greater or equal; else equal). -/
def flagMet (ge : Bool) (w v : Nat) : Bool := if ge then decide (v ≤ w) else decide (w = v)

/-- R96, R100: one poll of a flag word: a failure faults the core, and so does a poisoned word, with POISON_BRANCH (log 157,
DESIGN CHOICE); a condition met retires the WAITFLAG; otherwise it waits on. -/
def State.pollFlag (s : State) (n : CoreNo) (addr : Nat) (ge : Bool) (value : W64) : State :=
  match s.readErr n with
  | some e => s.coreFault n e
  | none =>
    let q := s.coreReq n 0 0 addr 0
    match s.translate q with
    | .error e => (s.pfRecord q.part e).coreFault n (errPage e)
    | .ok t =>
      let s1 := (s.readPath n q [(addr, 8)] [(t, 8)]).touch 0 (some q.part) t.ua 8
      let r := s1.readLe q.view t.ua 8
      if r.2 || bitOf t.entry 4 then s1.coreFault n errPoison
      else if flagMet ge r.1 value.toNat then (s1.retire n).endWait n
      else if (s1.core n).wait = some (.flag addr ge value) then s1
      else s1.beginWait n (.flag addr ge value)

/-- WAITFLAG (R95, R96): polls at once; while the condition is not met the core waits (WAITFLAG_POLL). -/
def execWaitflag (n : CoreNo) (sa sb : SReg) (imm : W32) (ge : Bool) (s : State) : Host.Outcome State Fault Refusal :=
  .next (s.issue n .transfer (fun s =>
    let c := s.core n
    let a := c.memAddr sa imm
    if c.sbad sa || c.sbad sb then s.coreFault n errPoison
    else if a % 8 ≠ 0 then s.coreFault n errMisaligned
    else s.pollFlag n a ge (c.sget sb)))

/-- WAITFLAG_POLL (R96): the poll of a waiting WAITFLAG, every 256 FCLK. -/
def execWaitflagPoll (n : CoreNo) (s : State) : Host.Outcome State Fault Refusal :=
  .next (match (s.core n).mode, (s.core n).wait with
    | .running, some (.flag a ge v) => s.pollFlag n a ge v
    | _, _ => s)

/-- SETFLAG (R95, R96): performed only after every earlier store and send is complete; until then it waits unissued. A
poisoned value poisons the granule (R80). -/
def execSetflag (n : CoreNo) (sa sb : SReg) (imm : W32) (s : State) : Host.Outcome State Fault Refusal :=
  .next (s.issue n .transfer (fun s =>
    let c := s.core n
    let a := c.memAddr sa imm
    if c.sbad sa then s.coreFault n errPoison
    else if a % 8 ≠ 0 then s.coreFault n errMisaligned
    else if !s.xferDone n then s
    else
      let q := s.coreReq n 0 0 a 1
      match s.translate q with
      | .error e => (s.pfRecord q.part e).coreFault n (errPage e)
      | .ok t => match (s.writePath n q t 8).coreStore n [⟨t.ua, leBytes 8 (c.sget sb).toNat, c.sbad sb⟩] with
        | .error e => s.coreFault n e
        | .ok s1 => s1.endXfer n 64 (s1, none)))

end Sys2Proof.Machine
end

