-- ==== Sys2Proof/Machine/MatrixOps.lean ====
section
/-! DEFINITION. Matrix descriptors: their fields, the checks of a tile, array work, prologue, epilogue and statistic
records (R87 to R91, R106 to R154, R385). -/

namespace Sys2Proof.Machine

/-! Rotary entries (R59, R134, R135) -/

/-- The line of an address in the rotary cache or among the lines held for the stalled instruction. -/
def Core.rotLine (c : Core) (line : Nat) : Option RotLine :=
  (c.rotFind line).orElse (fun _ => c.rotHeld.find? (fun l => decide (l.addr = line)))

/-- R134: the device-virtual address of the entry of frequency f and level l for a position. -/
def Core.rotAddr (c : Core) (f l pos : Nat) : Nat := (c.regs.rotBase.toNat + rotOffset f l (rotDigit pos l)) % 2 ^ 64

/-- The cosine and sine of an entry and its poison. -/
def Core.rotEntry (c : Core) (f l pos : Nat) : (W32 × W32) × Bool :=
  let a := c.rotAddr f l pos
  match c.rotLine (a / 64 * 64) with
  | some x => ((x.data.extractLsb' (8 * (a % 64)) 32, x.data.extractLsb' (8 * (a % 64) + 32) 32), x.poison)
  | none => ((f32One, f32Zero), false)

/-- R135: the composed rotation of frequency f at a position, and whether one of its lines is poisoned. -/
def Core.rotOf (c : Core) (f pos : Nat) : (W32 × W32) × Bool :=
  let w0 := c.rotEntry f 0 pos
  let w1 := c.rotEntry f 1 pos
  let w2 := c.rotEntry f 2 pos
  let w3 := c.rotEntry f 3 pos
  (composeRot w0.1 w1.1 w2.1 w3.1, w0.2 || w1.2 || w2.2 || w3.2)

/-- The rotary lines that the positions of a list need over `half` frequencies. -/
def Core.rotLines (c : Core) (half : Nat) (ps : List Nat) : List Nat :=
  (ps.flatMap (fun p => (List.range half).flatMap (fun f => (List.range 4).map (fun l => c.rotAddr f l p / 64 * 64)))).dedup

/-- R59: runs an instruction that reads rotary lines: lines that are missing are asked for, at most 32 at a time, and the
operand path stalls; with all present the instruction runs and the lines are the most recently used. -/
def State.withRot (s : State) (n : CoreNo) (lines : List Nat) (body : State → State) : State :=
  let c := s.core n
  let miss := (lines.filter (fun l => (c.rotLine l).isNone)).take 32
  if miss ≠ [] then
    (s.modCore n (fun c => { c with rotFills := miss, flags := { c.flags with rotStall := true } })).countCore n 0x0B miss.length
  else
    (body s).modCore n (fun c =>
      let used := lines.foldl (fun (x : Core) l => match x.rotLine l with
        | some y => x.rotUse y
        | none => x) c
      { used with rotHeld := [] })

/-- R136: one rotated pair: one rounded product and one VFMA each, in FP32. -/
def rotPairV (w : W32 × W32) (xa xb : Val) : Val × Val :=
  let c := valOf w.1
  let s := valOf w.2
  (valOf (toF32 ((xa.mul c).add (valOf (toF32 (xb.mul s))).neg)), valOf (toF32 ((xa.mul s).add (valOf (toF32 (xb.mul c))))))

/-! Descriptors -/

/-- R90: an entry of the epilogue list. -/
structure EpiEntry where
  op : Nat
  flags : Nat
  param : Nat
  addr : Nat
  rsv : Nat
  deriving DecidableEq, Repr

/-- R89, R385: a matrix descriptor, its addresses as it runs. `rsvOk` gathers the reserved fields, `own` is where the descriptor
lies, `linked` says that A is the output of the chain's step before (R151). -/
structure MatDesc where
  kind : Nat
  version : Nat
  fmtA : Nat
  fmtB : Nat
  fmtOut : Nat
  rnd : Nat
  order : Nat
  accInit : Bool
  epiEn : Bool
  toBlotter : Bool
  seedLoad : Bool
  a : Nat
  b : Nat
  live : Nat
  slotBase : Nat
  prologue : Nat
  epiCount : Nat
  mExt : Nat
  nExt : Nat
  k : Nat
  kExt : Nat
  aAddr : Nat
  bAddr : Nat
  outAddr : Nat
  aStride : Nat
  bStride : Nat
  outStride : Nat
  rsAddr : Nat
  csAddr : Nat
  mxaAddr : Nat
  mxbAddr : Nat
  rotPos : Nat
  rotStep : Nat
  epiAddr : Nat
  seed : W64
  gmFlags : Nat
  gmIn : Nat
  gmOut : Nat
  rsvOk : Bool
  own : Nat
  epi : List EpiEntry
  linked : Bool
  deriving DecidableEq, Repr

/-- All bytes are 0. -/
def zeroBytes (bs : List Byte) : Bool := bs.all (fun x => decide (x = 0))

/-- R89, R385: the fields of a descriptor's 128 bytes; R9: whether its reserved bytes are 0. -/
def MatDesc.ofBytes (b : List Byte) : MatDesc :=
  let ctrl := leField b 5 1
  let v := leField b 1 1
  let blot := bitOf ctrl 6
  { kind := leField b 0 1, version := v, fmtA := leField b 2 1, fmtB := leField b 3 1, fmtOut := leField b 4 1,
    rnd := bits ctrl 0 2, order := bits ctrl 2 2, accInit := bitOf ctrl 4, epiEn := bitOf ctrl 5, toBlotter := blot,
    seedLoad := bitOf ctrl 7, a := leField b 6 1, b := leField b 7 1, live := leField b 8 1, slotBase := leField b 9 1,
    prologue := leField b 10 1, epiCount := leField b 11 1, mExt := leField b 12 2, nExt := leField b 14 2,
    k := leField b 16 2, kExt := leField b 18 2, aAddr := leField b 20 4, bAddr := leField b 24 4, outAddr := leField b 28 4,
    aStride := leField b 32 2, bStride := leField b 34 2, outStride := leField b 36 2, rsAddr := leField b 40 4,
    csAddr := leField b 44 4, mxaAddr := leField b 48 4, mxbAddr := leField b 52 4, rotPos := leField b 56 6,
    rotStep := leField b 62 2, epiAddr := leField b 64 4, seed := BitVec.ofNat 64 (leField b 72 8),
    gmFlags := leField b 80 1, gmIn := leField b 84 4, gmOut := leField b 88 4,
    rsvOk := zeroBytes ((b.drop 38).take 2) && zeroBytes ((b.drop 68).take 4) && zeroBytes (b.drop 96) &&
      decide (leField b 10 1 < 8) && decide (leField b 20 4 < 2 ^ 22) && decide (leField b 24 4 < 2 ^ 22) &&
      (!blot || decide (leField b 28 4 < 4)) &&
      (if v = 2 then decide (leField b 80 1 < 4) && zeroBytes ((b.drop 81).take 3) && zeroBytes ((b.drop 92).take 4) &&
          (!bitOf (leField b 80 1) 1 || decide (leField b 88 4 = 0))
        else zeroBytes ((b.drop 80).take 16)),
    own := 0, epi := [], linked := false }

/-- R90: an epilogue entry from its 8 bytes. -/
def EpiEntry.ofBytes (b : List Byte) : EpiEntry :=
  ⟨leField b 0 1, leField b 1 1, leField b 2 2, leField b 4 4 % 2 ^ 22, leField b 1 1 / 2 + leField b 4 4 / 2 ^ 22⟩

/-- R142: the epilogue list reaches beyond the operand store. -/
def MatDesc.epiOver (d : MatDesc) : Bool :=
  decide (d.epiCount ≠ 0 ∧ d.epiCount ≤ 16 ∧ d.epiAddr % 8 = 0 ∧ storeSize < d.epiAddr + 8 * d.epiCount)

/-- R90, R69: the epilogue list of a descriptor; a poisoned granule of it, or of the parameter block of a deferred row
scale, faults. A list that is not legal where it stands is left empty for the checks of tile 0 (R142). -/
def Core.readEpi (c : Core) (d : MatDesc) : Except CoreErr MatDesc :=
  let n := 8 * d.epiCount
  if d.epiCount = 0 ∨ 16 < d.epiCount ∨ d.epiAddr % 8 ≠ 0 ∨ d.epiOver then .ok d
  else if c.stBad d.epiAddr n then .error errPoison
  else
    let l := (List.range d.epiCount).map (fun i => EpiEntry.ofBytes (c.stRead (d.epiAddr + 8 * i) 8))
    if l.any (fun e => decide (e.op = 10) && decide (e.addr % 16 = 0) && decide (e.addr + 16 ≤ storeSize) && c.stBad e.addr 16) then
      .error errPoison
    else .ok { d with epi := l }

/-- R69, R89: reads a matrix descriptor and its epilogue list. -/
def Core.readMat (c : Core) (a : Nat) : Except CoreErr MatDesc :=
  if storeSize < a + 128 then .error (errStore (a + 128))
  else if c.stBad a 128 then .error errPoison
  else c.readEpi { MatDesc.ofBytes (c.stRead a 128) with own := a }

/-- R87: the descriptor address of an instruction: aligned to 64 B as given and as formed; a poisoned base faults. -/
def Core.descAddr (c : Core) (d : DescArg) : Except CoreErr Nat :=
  match d.base with
  | none => if d.desc.toNat % 64 = 0 then .ok d.desc.toNat else .error errMisaligned
  | some r =>
    let a := (c.sget r).toNat % 2 ^ 22 + d.desc.toNat
    if c.sbad r then .error errPoison
    else if d.desc.toNat % 64 ≠ 0 ∨ a % 64 ≠ 0 then .error errMisaligned
    else .ok a

/-- R147: the list holds a gate multiply. -/
def MatDesc.gate (d : MatDesc) : Bool := d.epi.any (fun e => decide (e.op = 4))

/-- R147: the output width. -/
def MatDesc.nOut (d : MatDesc) : Nat := if d.gate then 128 * d.b else 256 * d.b

/-- R88: a code that names an array operand. -/
def fmtIsArray (c : Nat) : Bool := (ElemFmt.ofCode c).isSome && decide (c ≠ 9)

/-- The element format of a code (BF16 for a code that names none; such descriptors are rejected). -/
def fmtOf (c : Nat) : ElemFmt := (ElemFmt.ofCode c).getD .bf16

/-- R51: the K step of a format's row. -/
def kStep (c : Nat) : Nat :=
  match fmtOf c with
  | .e2m3 => 128
  | .e3m2 => 128
  | .e2m1 => 128
  | .bf16 => 32
  | .fp16 => 32
  | _ => 64

/-- R51: the K step of a descriptor: that of the slower row. -/
def MatDesc.kStep (d : MatDesc) : Nat := min (Sys2Proof.Machine.kStep d.fmtA) (Sys2Proof.Machine.kStep d.fmtB)

/-- R138: the K-outer orders. -/
def MatDesc.kOuter (d : MatDesc) : Bool := decide (2 ≤ d.order)

/-- R139: the live tiles a descriptor needs are all of them. -/
def MatDesc.needAll (d : MatDesc) : Bool := d.kOuter || !d.epiEn || !d.accInit || d.gate

/-- R138: the tiles in loop order. -/
def MatDesc.tiles (d : MatDesc) : List (Nat × Nat) :=
  if d.order % 2 = 0 then (List.range d.a).flatMap (fun i => (List.range d.b).map (fun j => (i, j)))
  else (List.range d.b).flatMap (fun j => (List.range d.a).map (fun i => (i, j)))

/-- R138: the index of a tile. -/
def MatDesc.index (d : MatDesc) (i j : Nat) : Nat := if d.order % 2 = 0 then i * d.b + j else j * d.a + i

/-- R139: the slot of a tile. -/
def MatDesc.slot (d : MatDesc) (i j : Nat) : Nat :=
  if d.live = d.a * d.b then d.slotBase + i * d.b + j else d.slotBase + d.index i j % d.live

/-- R141, R147: an operand-B row, or accumulator column, inside n_extent. -/
def MatDesc.colOk (d : MatDesc) (x : Nat) : Bool :=
  if d.gate then decide (x % (128 * d.b) < d.nExt) else decide (x < d.nExt)

/-! Checks (R74, R137 to R153) -/

/-- R152: the parameter block of a deferred row scale: the statistic's address, n and epsilon; none out of range. -/
def Core.drsBlock (c : Core) (a : Nat) : Option (Nat × Nat × W32) :=
  let b := c.stRead a 16
  let n := leField b 4 4
  let e := leField b 8 4
  if a % 16 = 0 ∧ leField b 0 4 < 2 ^ 22 ∧ 1 ≤ n ∧ n ≤ 2 ^ 24 ∧ 0x00800000 ≤ e ∧ e < 0x7F800000 ∧ leField b 12 4 = 0 then
    some (leField b 0 4, n, BitVec.ofNat 32 e)
  else none

/-- R90, R147, R150, R152: an entry whose param or address is outside its list. -/
def Core.epiBad (c : Core) (d : MatDesc) (e : EpiEntry) : Bool :=
  match e.op with
  | 2 => decide (e.param < 1) || decide (4 < e.param)
  | 4 => decide (d.b % 2 ≠ 0) || decide (e.param ≠ d.b / 2) || decide (d.live ≠ d.a * d.b) || decide (128 * d.b < d.nExt)
  | 5 => decide (9 < e.param) || decide (e.param = 0)
  | 9 => !fmtIsMx e.param || decide (e.param ≠ d.fmtOut)
  | 10 => decide (e.param ≠ 0) || decide (e.addr % 16 ≠ 0) || (decide (e.addr + 16 ≤ storeSize) && (c.drsBlock e.addr).isNone)
  | _ => decide (e.param ≠ 0)

/-- How often an op stands in the list. -/
def MatDesc.opCount (d : MatDesc) (o : Nat) : Nat := (d.epi.filter (fun e => decide (e.op = o))).length

/-- R146: the order rules of a list: repeats, no change of w after a statistic, quantise last; flags[0] set on an op other than
scale is rejected (log 155, DESIGN CHOICE). -/
def MatDesc.listBad (d : MatDesc) : Bool :=
  d.epi.any (fun e => decide (e.op = 0) || decide (10 < e.op) || decide (e.rsv ≠ 0) || (decide (e.op ≠ 3) && decide (e.flags ≠ 0)) ||
    decide ((if e.op = 1 ∨ e.op = 3 ∨ e.op = 5 then 2 else 1) < d.opCount e.op)) ||
  (List.range d.epi.length).any (fun i =>
    let o := (d.epi.map (fun e => e.op)).getD i 0
    (decide (o = 9) && decide (i + 1 ≠ d.epi.length)) ||
    ((decide (o ≤ 5) || decide (o = 10)) && (d.epi.take i).any (fun e => decide (6 ≤ e.op) && decide (e.op ≤ 8))))

/-- The 64 B lines of a packed row of n elements. -/
def rowLines (code n : Nat) : Nat := ceilDiv ((fmtOf code).bytesFor n) 64

/-- R88, R89, R137, R139, R145 to R147, R150, R152, R385: the rules of TILE_SHAPE other than a*b. -/
def Core.shapeBad (c : Core) (d : MatDesc) : Bool :=
  decide (d.kind ≠ 1) || decide (d.version < 1) || decide (2 < d.version) || !d.rsvOk || decide (d.rnd = 3) ||
  !fmtIsArray d.fmtA || !fmtIsArray d.fmtB || (ElemFmt.ofCode d.fmtOut).isNone || (decide (d.fmtA = 8) != decide (d.fmtB = 8)) ||
  decide (d.a = 0) || decide (8 < d.a) || decide (d.b = 0) || decide (8 < d.b) ||
  decide (d.k = 0) || decide (d.k % d.kStep ≠ 0) || decide (8192 < d.k) ||
  decide (d.mExt = 0) || decide (128 * d.a < d.mExt) || decide (d.nExt = 0) || decide (256 * d.b < d.nExt) ||
  decide (d.kExt = 0) || decide (d.k < d.kExt) ||
  decide (d.aStride < rowLines d.fmtA d.k) || decide (d.bStride < rowLines d.fmtB d.k) ||
  decide (16 < d.epiCount) || (decide (d.epiCount ≠ 0) && decide (d.epiAddr % 8 ≠ 0)) ||
  (bitOf d.prologue 2 && decide (d.k ≠ 64 ∧ d.k ≠ 128 ∧ d.k ≠ 256)) ||
  (fmtIsMx d.fmtOut && decide (d.opCount 9 = 0) && !d.epiOver) || decide (d.outStride < rowLines d.fmtOut d.nOut) ||
  (if d.toBlotter then !d.accInit || d.epiEn else decide (d.live = 0) || decide (d.a * d.b < d.live)) ||
  d.listBad || d.epi.any (c.epiBad d)

/-- The end of a run of valid rows of a tile. -/
def MatDesc.rowEnd (d : MatDesc) (i : Nat) : Nat := min (128 * i + 128) d.mExt

/-- The valid accumulator columns of tile column j. -/
def MatDesc.cols (d : MatDesc) (j : Nat) : List Nat := (List.range 256).filter (fun x => d.colOk (256 * j + x))

/-- R142: one past the highest store byte that an epilogue entry's operand needs for a tile: rows below r1, columns below
`oc`. -/
def Core.epiEnd (c : Core) (d : MatDesc) (r1 oc : Nat) (e : EpiEntry) : Nat :=
  match e.op with
  | 1 => e.addr + 4 * oc
  | 3 => if bitOf e.flags 0 then e.addr + 4 * r1 else e.addr + 4 * oc
  | 5 => e.addr + 64 * d.outStride * (r1 - 1) + (fmtOf e.param).bytesFor oc
  | 6 => e.addr + 8 * r1
  | 7 => e.addr + 4 * r1
  | 8 => e.addr + 8 * r1
  | 9 => e.addr + (r1 - 1) * (d.nOut / 32) + ceilDiv oc 32
  | 10 => max (e.addr + 16) (match c.drsBlock e.addr with
    | some p => p.1 + 8 * r1
    | none => 0)
  | _ => 0

/-- R142: one past the highest store byte that tile (i, j) reads or writes; `work` is array work, `epi` the epilogue. -/
def Core.tileEnd (c : Core) (d : MatDesc) (work epi : Bool) (i j : Nat) : Nat :=
  let r1 := d.rowEnd i
  let cs := d.cols j
  let b1 := 256 * j + cs.foldl max 0
  if r1 ≤ 128 * i ∨ cs = [] then 0
  else
    let kb (code : Nat) : Nat := (fmtOf code).bytesFor d.kExt
    let w :=
      [d.aAddr + 64 * d.aStride * (r1 - 1) + kb d.fmtA, d.bAddr + 64 * d.bStride * b1 + kb d.fmtB] ++
      (if fmtIsMx d.fmtA then [d.mxaAddr + (r1 - 1) * (d.k / 32) + ceilDiv d.kExt 32] else []) ++
      (if fmtIsMx d.fmtB then [d.mxbAddr + b1 * (d.k / 32) + ceilDiv d.kExt 32] else []) ++
      (if bitOf d.prologue 0 then [d.rsAddr + 4 * r1] else []) ++ (if bitOf d.prologue 1 then [d.csAddr + 4 * d.kExt] else [])
    let oc := min (256 * j + 256) d.nExt
    let e :=
      if (d.gate && decide (d.b / 2 ≤ j)) || decide (oc ≤ 256 * j) then []
      else (d.outAddr + 64 * d.outStride * (r1 - 1) + (fmtOf d.fmtOut).bytesFor oc) :: d.epi.map (c.epiEnd d r1 oc)
    ((if work then w else []) ++ (if epi then e else [])).foldl max 0

/-- R153: FUSE_ORDER of a plain descriptor: its deferred row scale is not first. -/
def MatDesc.fuseBad (d : MatDesc) (step : Nat) : Option (Nat × Nat) :=
  if d.opCount 10 ≠ 0 ∧ (d.epi.map (fun e => e.op)).headD 0 ≠ 10 then some (step, 0xFFFFFFFF) else none

/-- A resource fault at a tile. -/
def tileErr (code resource tile need have_ : Nat) : CoreErr := ⟨code, resource, false, tile, need, have_, none⟩

/-- R74: the first failing check is recorded; multi when a later one of the list fails at the same tile. -/
def firstErr (l : List CoreErr) : Option CoreErr :=
  match l with
  | [] => none
  | e :: r => some { e with multi := r.any (fun x => decide (x.code ≠ e.code)) }

/-- R74, R142: the checks that fail before tile q, in order. `work` is false for EPI; `pre` are chain failures of tile 0. -/
def Core.tileFails (c : Core) (d : MatDesc) (work : Bool) (pre : List CoreErr) (i j : Nat) : List CoreErr :=
  let q := d.index i j
  let ab := d.a * d.b
  let blot := d.toBlotter && work
  let region := d.outAddr % 4
  let end_ := max (c.tileEnd d work (d.epiEn || !work) i j) (if q = 0 ∧ d.epiOver then d.epiAddr + 8 * d.epiCount else 0)
  (if q = 0 then
      (if 8 < ab then [tileErr 0x0105 6 0 ab 8] else if c.shapeBad d then [tileErr 0x0105 6 0 0 0] else []) ++ pre ++
      (match d.fuseBad 0 with
        | some f => if pre.any (fun e => decide (e.code = 0x0104)) then [] else [tileErr 0x0104 5 0 f.1 f.2]
        | none => [])
    else []) ++
  (if storeSize < end_ then [tileErr 0x0102 2 q (ceilDiv end_ 64) (storeSize / 64)] else []) ++
  (if blot then []
    else if q = 0 ∧ 8 < d.slotBase + d.live then [tileErr 0x0101 1 0 (d.slotBase + d.live) 8]
    else if d.needAll ∧ d.live < ab ∧ q = d.live then [tileErr 0x0101 1 q ab d.live] else []) ++
  (if blot ∧ q = 0 ∧ (d.a ≠ 1 ∨ 4 < region + d.b) then [tileErr 0x0103 3 0 (256 * ab) (256 * (4 - region))] else []) ++
  (if d.version = 2 ∧ q = 0 ∧ c.streamq = [] then [tileErr 0x0106 4 0 1 0] else [])

/-! Array work -/

/-- An operand row of kExt elements with its MX scales; and whether a granule of it is poisoned. -/
def Core.operandRow (c : Core) (code addr mx kExt : Nat) : List Val × List Nat × Bool :=
  let f := fmtOf code
  let es := (List.range kExt).map (getElem c.mem.store f addr)
  let bad := c.stBad addr (f.bytesFor kExt)
  if fmtIsMx code then
    let sc := (List.range (ceilDiv kExt 32)).map (fun i => (c.mem.store.get (mx + i)).toNat)
    ((es.zipIdx).map (fun x => mxValue f (sc.getD (x.2 / 32) 0) x.1), sc, bad || c.stBad mx (ceilDiv kExt 32))
  else (es.map f.decode, [], bad)

/-- R145: a prologue result rounded back to A's element format within its block scale; whether it saturated. -/
def backTo (code : Nat) (scale : Option Nat) (v : Val) : Val × Bool :=
  let f := fmtOf code
  match scale with
  | none => let p := f.encodeSat v; (f.decode p.1, p.2)
  | some 0xFF => (.nan, false)
  | some sb => let p := f.encodeSat (v.scale (127 - (sb : Int))); (mxValue f sb p.1, p.2)

/-- R145: the prologue's scales on an element: each multiplication rounds once to FP32. -/
def scaleBy (on : Bool) (x : W32) (v : Val) : Val := if on then valOf (toF32 (v.mul (valOf x))) else v

/-- R136: rotates a row of k elements, pair by pair. -/
def Core.rotateRow (c : Core) (k pos : Nat) (vs : List Val) : List Val × Bool :=
  let z : Val := .fin false 0 0
  let h := k / 2
  let ws := (List.range h).map (fun f => (c.rotOf f pos, vs.getD f z, vs.getD (f + h) z))
  let ps := ws.map (fun w => rotPairV w.1.1 w.2.1 w.2.2)
  (ps.map (·.1) ++ ps.map (·.2), ws.any (fun w => w.1.2))

/-- R145: row r of operand A as it enters the array: values, poison, saturations. -/
def Core.rowA (c : Core) (d : MatDesc) (r : Nat) : List Val × Bool × Nat :=
  let x := c.operandRow d.fmtA (d.aAddr + 64 * d.aStride * r) (d.mxaAddr + r * (d.k / 32)) d.kExt
  if d.prologue % 8 = 0 then (x.1, x.2.2, 0)
  else
    let rs := bitOf d.prologue 0
    let cs := bitOf d.prologue 1
    let rsv := BitVec.ofNat 32 (c.stLe (d.rsAddr + 4 * r) 4)
    let v1 := x.1.map (scaleBy rs rsv)
    let v2 := (v1.zipIdx).map (fun p => scaleBy cs (BitVec.ofNat 32 (c.stLe (d.csAddr + 4 * p.2) 4)) p.1)
    let v3 := if bitOf d.prologue 2 then c.rotateRow d.k ((d.rotPos + r * d.rotStep) % 2 ^ 48) v2 else (v2, false)
    let out := ((v3.1.take d.kExt).zipIdx).map (fun p => backTo d.fmtA (if fmtIsMx d.fmtA then x.2.1[p.2 / 32]? else none) p.1)
    (out.map (·.1),
     x.2.2 || (rs && c.stBad (d.rsAddr + 4 * r) 4) || (cs && c.stBad d.csAddr (4 * d.kExt)) || v3.2,
     (out.filter (·.2)).length)

/-- Row r of operand B. -/
def Core.rowB (c : Core) (d : MatDesc) (r : Nat) : List Val × Bool :=
  let x := c.operandRow d.fmtB (d.bAddr + 64 * d.bStride * r) (d.mxbAddr + r * (d.k / 32)) d.kExt
  (x.1, x.2.2)

/-- R111, R113: the exact sum of a group's products, rounded once; an exact zero is +0. -/
def groupSum (ps : List (Val × Val)) : W32 :=
  let v := ps.foldl (fun a p => a.add (p.1.mul p.2)) (.fin false 0 0)
  if v.isZero then f32Zero else toF32 v

/-- Cuts a list into runs of 64 (`fuel` bounds their number). -/
def chunks64 {α : Type} : Nat → List α → List (List α)
  | 0, _ => []
  | _ + 1, [] => []
  | f + 1, l => l.take 64 :: chunks64 f (l.drop 64)

/-- R111, R112, R141: an output element accumulates its groups in ascending K order; groups wholly beyond k_extent, of a
descriptor of `k`, add exact zeros. -/
def accumulate (k : Nat) (init : W32) (a b : List Val) : W32 :=
  let r := (chunks64 128 (a.zip b)).foldl (fun acc g => f32Add acc (groupSum g)) init
  if ceilDiv a.length 64 < ceilDiv k 64 then f32Add r f32Zero else r

/-- R141, R113: an output element one of whose rows is padding: zeros times the elements of the other row. -/
def accumulatePad (init : W32) (other : List Val) : W32 :=
  if other.any Val.isSpecial then f32Nan else f32Add init f32Zero

/-- A core at work in a descriptor, the free values drawn and the conversions counted (R116). -/
structure MatRun where
  core : Core
  draws : Nat
  sat : Nat
  deriving DecidableEq, Repr

/-- All marks of a row. -/
def allMarks (b : Bool) : List Bool := List.replicate 16 b

/-- R111, R112, R139, R141: the K steps of tile (i, j) into its slot; padding supplies exact zeros; a poisoned operand poisons
the tile whole (R69). -/
def MatRun.tileAcc (x : MatRun) (d : MatDesc) (i j : Nat) : MatRun :=
  let c := x.core
  let k := d.slot i j
  let bs := (List.range 256).map (fun col => if d.colOk (256 * j + col) then some (c.rowB d (256 * j + col)) else none)
  let rows := (List.range 128).map (fun r => if 128 * i + r < d.mExt then some (c.rowA d (128 * i + r)) else none)
  let bad := rows.any (fun r => match r with | some y => y.2.1 | none => false) ||
    bs.any (fun b => match b with | some y => y.2 | none => false)
  let sat := sumNat (rows.map (fun r => match r with | some y => y.2.2 | none => 0))
  let c1 := (rows.zipIdx).foldl (fun (c2 : Core) p =>
    let old := if d.accInit then List.replicate 256 f32Zero else c.aget k p.2
    let new := (old.zip bs).map (fun o => match p.1, o.2 with
      | some ra, some rb => accumulate d.k o.1 ra.1 rb.1
      | some ra, none => accumulatePad o.1 ra.1
      | none, some rb => accumulatePad o.1 rb.1
      | none, none => f32Add o.1 f32Zero)
    let marks := if bad then allMarks true else if d.accInit then allMarks false else c.abad k p.2
    c2.aset k p.2 new marks) c
  { x with core := c1.seen bad, sat := x.sat + sat }

/-- R89, R139, R141: the K steps of tile (0, j) into blotter region `region + j`; elements beyond the extents are not
written. -/
def MatRun.tileBlot (x : MatRun) (d : MatDesc) (j : Nat) : MatRun :=
  let c := x.core
  let g := d.outAddr % 4 + j
  let bs := (List.range 256).map (fun col => if d.colOk (256 * j + col) then some (c.rowB d (256 * j + col)) else none)
  let rows := (List.range d.mExt).map (c.rowA d)
  let bad := rows.any (fun y => y.2.1) || bs.any (fun b => match b with | some y => y.2 | none => false)
  let cols := (d.cols j).length
  let c1 := (rows.zipIdx).foldl (fun (c2 : Core) p =>
    let new := ((c.bget p.2 g).zip bs).map (fun o => match o.2 with
      | some rb => accumulate d.k f32Zero p.1.1 rb.1
      | none => o.1)
    let marks := ((c.bbad p.2 g).zipIdx).map (fun m => bad || (m.1 && decide (cols < 16 * m.2 + 16)))
    c2.bset p.2 g new marks) c
  let c2 := if bad then (List.range (128 - d.mExt)).foldl (fun (c3 : Core) r =>
    c3.bset (d.mExt + r) g (c3.bget (d.mExt + r) g) (allMarks true)) c1 else c1
  { x with core := c2.seen bad, sat := x.sat + sumNat (rows.map (fun y => y.2.2)) }

/-! Epilogue (R146 to R152) -/

/-- R128, R90: an activation. -/
def activation (p : Nat) (x : W32) : W32 :=
  match p with
  | 1 => f32Silu x
  | 2 => f32Gelu x
  | 3 => f32Sigmoid x
  | _ => f32Softplus x

/-- An FP32 vector of the store. -/
def Core.vec32 (c : Core) (a n : Nat) : List W32 := (List.range n).map (fun i => BitVec.ofNat 32 (c.stLe (a + 4 * i) 4))

/-- R148, R152: the factor of a deferred row scale for row r; an empty record gives NaN. -/
def Core.drsFactor (c : Core) (a r : Nat) : W32 × Int :=
  match c.drsBlock a with
  | none => (f32Nan, 0)
  | some (st, n, eps) =>
    let rec_ := RowStat.read c.mem.store (st + 8 * r)
    if rec_.e = -32768 then (f32Nan, 0) else deferredFactor rec_ eps (f32OfRat false 1 n)

/-- An element value with its poison. -/
abbrev Elem := W32 × Bool

/-- R146: one epilogue operation on the values of a row: row r, output columns from oc0. `part` is the partner tile's row. -/
def Core.epiOp (c : Core) (d : MatDesc) (r oc0 : Nat) (part : List Elem) (e : EpiEntry) (ws : List Elem) : List Elem :=
  let n := ws.length
  let byCol (f : W32 → W32 → W32) : List Elem :=
    ((ws.zip (c.vec32 (e.addr + 4 * oc0) n)).zipIdx).map (fun p => (f p.1.1.1 p.1.2, p.1.1.2 || c.stBad (e.addr + 4 * (oc0 + p.2)) 4))
  match e.op with
  | 1 => byCol f32Add
  | 2 => ws.map (fun w => (activation e.param w.1, w.2))
  | 3 =>
    if bitOf e.flags 0 then
      let x := BitVec.ofNat 32 (c.stLe (e.addr + 4 * r) 4)
      ws.map (fun w => (f32Mul w.1 x, w.2 || c.stBad (e.addr + 4 * r) 4))
    else byCol f32Mul
  | 4 => (ws.zip part).map (fun p => (f32Mul p.1.1 p.2.1, p.1.2 || p.2.2))
  | 5 =>
    let f := fmtOf e.param
    let row := e.addr + 64 * d.outStride * r
    (ws.zipIdx).map (fun p =>
      (f32Add p.1.1 (widen f (getElem c.mem.store f row (oc0 + p.2))),
       p.1.2 || c.stBad (row + (oc0 + p.2) * f.width / 8) (f.spanOf (oc0 + p.2))))
  | 10 =>
    let gh := c.drsFactor e.addr r
    let bad := match c.drsBlock e.addr with
      | some p => c.stBad (p.1 + 8 * r) 8
      | none => false
    ws.map (fun w => (deferredApply gh w.1, w.2 || bad))
  | _ => ws

/-- The rounding of a descriptor (R89). -/
def rndOf (n : Nat) : RndMode := if n = 0 then .rne else if n = 1 then .rtz else .sr

/-- R108, R141: packed elements over the bytes that hold them; elements that are not written keep their bits. -/
def Core.packAt (c : Core) (f : ElemFmt) (a : Nat) (cs : List Nat) : List Byte :=
  let n := f.bytesFor cs.length
  let old := c.stLe a n
  let w := cs.length * f.width
  leBytes n (old / 2 ^ w * 2 ^ w + cs.foldr (fun x acc => acc * 2 ^ f.width + x % 2 ^ f.width) 0)

/-- R69: writes packed elements with the poison of each: every granule that holds a byte of a poisoned element. -/
def Core.putElems (c : Core) (f : ElemFmt) (a : Nat) (cs : List Nat) (bad : List Bool) : Core :=
  let bs := c.packAt f a cs
  (c.stWrite a bs (fun g => (bad.zipIdx).any (fun p =>
    let lo := a + p.2 * f.width / 8
    p.1 && decide (lo / 64 - a / 64 ≤ g) && decide (g ≤ (lo + f.spanOf p.2 - 1) / 64 - a / 64)))).seen (bad.any id)

/-- The values a row wrote, for its statistics: row, tile column, values, poison. -/
structure Written where
  row : Nat
  tile : Nat
  vals : List W32
  bad : Bool
  deriving DecidableEq, Repr

/-- One MX block of a row (R110, R150): its scale byte, codes, written values, saturations and generator. -/
def mxRow (f : ElemFmt) (r : RndMode) : Nat → W64 → List W32 → List Nat × List Nat × List W32 × Nat × W64
  | 0, st, _ => ([], [], [], 0, st)
  | _ + 1, st, [] => ([], [], [], 0, st)
  | fuel + 1, st, ws =>
    let b := mxBlock f r st ((ws.take 32).map valOf)
    let t := mxRow f r fuel b.2.2.2 (ws.drop 32)
    (b.1 :: t.1, b.2.1 ++ t.2.1, b.2.1.map (fun x => toF32 (mxValue f b.1 x)) ++ t.2.2.1, b.2.2.1 + t.2.2.2.1, t.2.2.2.2)

/-- R116, R118, R146, R150: converts and writes one row of a tile. -/
def MatRun.writeRow (x : MatRun) (d : MatDesc) (r oc0 : Nat) (ws : List Elem) : MatRun × List W32 :=
  let c := x.core
  let f := fmtOf d.fmtOut
  let a := d.outAddr + 64 * d.outStride * r + oc0 * f.width / 8
  if fmtIsMx d.fmtOut then
    let m := mxRow f (rndOf d.rnd) 8 c.regs.rngState (ws.map (·.1))
    let sa := (match d.epi.find? (fun e => decide (e.op = 9)) with | some e => e.addr | none => 0) + r * (d.nOut / 32) + oc0 / 32
    let c1 := { c with regs := { c.regs with rngState := m.2.2.2.2 } }
    let c2 := c1.stWrite sa (m.1.map (fun b => BitVec.ofNat 8 b)) (fun g =>
      (ws.zipIdx).any (fun p => p.1.2 && decide ((sa + p.2 / 32) / 64 - sa / 64 = g)))
    ({ x with core := c2.putElems f a m.2.1 (ws.map (·.2)), sat := x.sat + m.2.2.2.1 }, m.2.2.1)
  else
    let m := convertList f (rndOf d.rnd) c.regs.rngState (ws.map (·.1))
    let c1 := { c with regs := { c.regs with rngState := m.2.2 } }
    ({ x with core := c1.putElems f a m.1 (ws.map (·.2)), sat := x.sat + m.2.1 }, m.1.map (widen f))

/-- The elements of accumulator slot k, row r, with their marks. -/
def Core.accElems (c : Core) (k r n : Nat) : List Elem :=
  (((c.aget k r).take n).zipIdx).map (fun p => (p.1, (c.abad k r).getD (p.2 / 16) false))

/-- R146, R147: the epilogue of tile (i, j), rows ascending. -/
def MatRun.epilogue (x : MatRun) (d : MatDesc) (i j : Nat) : MatRun × List Written :=
  let n := min 256 (d.nExt - 256 * j)
  (List.range (d.rowEnd i - 128 * i)).foldl (fun (acc : MatRun × List Written) r0 =>
    let c := acc.1.core
    let r := 128 * i + r0
    let k := d.slot i j
    let part := c.accElems (k + d.b / 2) r0 n
    let ws := d.epi.foldl (fun w e => c.epiOp d r (256 * j) part e w) (c.accElems k r0 n)
    let y := acc.1.writeRow d r (256 * j) ws
    (y.1, acc.2 ++ [⟨r, j, y.2, ws.any (·.2)⟩])) (x, [])

/-! Statistic records (R129 to R131, R148) -/

/-- R148: a partial of op 0x08: row maximum and the sum of exp2. -/
def expPartial (xs : List W32) : W32 × W32 :=
  let m := treeFold f32Max 8 (xs ++ List.replicate (256 - xs.length) f32NegInf)
  (m, treeFold f32Add 8 (xs.map (fun x => f32Exp2 (f32Sub x m)) ++ List.replicate (256 - xs.length) f32Zero))

/-- R148: two records of op 0x08 combine. -/
def expMerge (p q : W32 × W32) : W32 × W32 :=
  let m := f32Max p.1 q.1
  if m = f32NegInf then (f32NegInf, f32Zero)
  else (m, f32Add (f32Mul p.2 (f32Exp2 (f32Sub p.1 m))) (f32Mul q.2 (f32Exp2 (f32Sub q.1 m))))

/-- R148: the new record of a row: its partials merged (R130) and combined with the older record; empty ones are
overwritten. -/
def Core.newRecord (c : Core) (op a : Nat) (ps : List (List W32)) : List Byte :=
  match op with
  | 6 =>
    let old := RowStat.read c.mem.store a
    match mergePartials RowStat.merge (ps.map statOfTile) with
    | none => []
    | some p => (if old.e = -32768 then p else old.merge p).settle.toBytes
  | 7 =>
    let old := BitVec.ofNat 32 (c.stLe a 4)
    match mergePartials f32Max (ps.map (fun xs => treeFold f32Max 8 (xs ++ List.replicate (256 - xs.length) f32NegInf))) with
    | none => []
    | some p => leBytes 4 (f32Max old p).toNat
  | _ =>
    let old := (BitVec.ofNat 32 (c.stLe a 4), BitVec.ofNat 32 (c.stLe (a + 4) 4))
    match mergePartials expMerge (ps.map expPartial) with
    | none => []
    | some p => let m := expMerge old p; leBytes 4 m.1.toNat ++ leBytes 4 m.2.toNat

/-- The size of a statistic record. -/
def recSize (op : Nat) : Nat := if op = 7 then 4 else 8

/-- R148, R69: writes the statistic records of a descriptor, with their poison. -/
def Core.putRecords (c : Core) (d : MatDesc) (ws : List Written) : Core :=
  (d.epi.filter (fun e => decide (6 ≤ e.op) && decide (e.op ≤ 8))).foldl (fun (c1 : Core) e =>
    (List.range d.mExt).foldl (fun (c2 : Core) r =>
      let rows := ws.filter (fun w => decide (w.row = r))
      let ps := (List.range d.b).flatMap (fun j => (rows.filter (fun w => decide (w.tile = j))).map (fun w => w.vals))
      let a := e.addr + recSize e.op * r
      if ps = [] then c2
      else
        let bad := rows.any (fun w => w.bad) || c2.stBad a (recSize e.op)
        (c2.stWrite a (c2.newRecord e.op a ps) (fun _ => bad)).seen bad) c1) c

/-! Running a descriptor (R138, R139, R143) -/

/-- Writes free values over store bytes (log 1), those inside the store. -/
def MatRun.freeBytes (x : MatRun) (a n : Nat) : MatRun :=
  if storeSize < a + n then x
  else { x with core := x.core.stBytes a ((List.range n).map (fun i => Config.freeByte (x.draws + i))), draws := x.draws + n }

/-- Writes free values over an accumulator slot (log 1). -/
def MatRun.freeSlot (x : MatRun) (k : Nat) : MatRun :=
  if 8 ≤ k then x
  else
    (List.range 128).foldl (fun (y : MatRun) r =>
      { y with core := y.core.aset k r ((List.range 256).map (fun i => Config.freeW32 (y.draws + i))) (y.core.abad k r),
               draws := y.draws + 256 }) x

/-- Writes free values over a region of the blotter, the rows below `m` and the columns of `cols` (log 1). -/
def MatRun.freeRegion (x : MatRun) (g m : Nat) (cols : List Nat) : MatRun :=
  if 4 ≤ g then x
  else
    (List.range (min m 128)).foldl (fun (y : MatRun) r =>
      { y with core := y.core.bset r g (((y.core.bget r g).zipIdx).map (fun p =>
                 if p.2 ∈ cols then Config.freeW32 (y.draws + p.2) else p.1)) (y.core.bbad r g),
               draws := y.draws + 256 }) x

/-- R143: after a fault the outputs of unfinished tiles are undefined: their slots (those that no finished tile holds) or
blotter regions, their output and scale bytes, and the statistic records. -/
def MatRun.undefine (x : MatRun) (d : MatDesc) (epi : Bool) (left : List (Nat × Nat)) : MatRun :=
  let kept := (d.tiles.filter (fun t => decide (t ∉ left))).map (fun t => d.slot t.1 t.2)
  let x1 :=
    if d.toBlotter then left.foldl (fun y t => y.freeRegion (d.outAddr % 4 + t.2) d.mExt (d.cols t.2)) x
    else left.foldl (fun y t => if d.slot t.1 t.2 ∈ kept then y else y.freeSlot (d.slot t.1 t.2)) x
  if !epi then x1
  else
    let x2 := left.foldl (fun y t =>
      if d.gate && decide (d.b / 2 ≤ t.2) then y
      else
        let n := min 256 (d.nExt - 256 * t.2)
        let f := fmtOf d.fmtOut
        (List.range (d.rowEnd t.1 - 128 * t.1)).foldl (fun (z : MatRun) r =>
          let z1 := z.freeBytes (d.outAddr + 64 * d.outStride * (128 * t.1 + r) + 256 * t.2 * f.width / 8) (f.bytesFor n)
          match d.epi.find? (fun e => decide (e.op = 9)) with
          | some e => z1.freeBytes (e.addr + (128 * t.1 + r) * (d.nOut / 32) + 8 * t.2) (ceilDiv n 32)
          | none => z1) y) x1
    (d.epi.filter (fun e => decide (6 ≤ e.op) && decide (e.op ≤ 8))).foldl (fun y e => y.freeBytes e.addr (recSize e.op * d.mExt)) x2

/-- Writes free values over runs of store bytes. -/
def MatRun.freeRuns (x : MatRun) (rs : List (Nat × Nat)) : MatRun := rs.foldl (fun y p => y.freeBytes p.1 p.2) x

/-- The bytes that two runs have in common. -/
def meetRuns (p q : Nat × Nat) : List (Nat × Nat) :=
  let lo := max p.1 q.1
  let hi := min (p.1 + p.2) (q.1 + q.2)
  if lo < hi then [(lo, hi - lo)] else []

/-- The run that holds every run of a group. -/
def hullRun (g : List (Nat × Nat)) : Nat × Nat :=
  let lo := g.foldl (fun a p => min a p.1) ((g.headD (0, 0)).1)
  (lo, g.foldl (fun a p => max a (p.1 + p.2)) 0 - lo)

/-- The bytes of the groups written that a group read holds too. -/
def overlapRuns (ws rs : List (List (Nat × Nat))) : List (Nat × Nat) :=
  ws.flatMap (fun w => rs.flatMap (fun r =>
    if meetRuns (hullRun w) (hullRun r) = [] then [] else w.flatMap (fun p => r.flatMap (meetRuns p))))

/-- R89, R145: the store regions that the array work of a descriptor reads. -/
def MatDesc.operandRuns (d : MatDesc) : List (List (Nat × Nat)) :=
  let rows := List.range d.mExt
  let bs := (List.range (256 * d.b)).filter d.colOk
  let kb (code : Nat) : Nat := (fmtOf code).bytesFor d.kExt
  [rows.map (fun r => (d.aAddr + 64 * d.aStride * r, kb d.fmtA)), bs.map (fun r => (d.bAddr + 64 * d.bStride * r, kb d.fmtB))] ++
  (if fmtIsMx d.fmtA then [rows.map (fun r => (d.mxaAddr + r * (d.k / 32), ceilDiv d.kExt 32))] else []) ++
  (if fmtIsMx d.fmtB then [bs.map (fun r => (d.mxbAddr + r * (d.k / 32), ceilDiv d.kExt 32))] else []) ++
  (if bitOf d.prologue 0 then [[(d.rsAddr, 4 * d.mExt)]] else []) ++ (if bitOf d.prologue 1 then [[(d.csAddr, 4 * d.kExt)]] else [])

/-- R146, R148, R152: the store regions that an epilogue entry reads; for a statistic, its records. -/
def Core.entryRuns (c : Core) (d : MatDesc) (e : EpiEntry) : List (List (Nat × Nat)) :=
  match e.op with
  | 1 => [[(e.addr, 4 * d.nExt)]]
  | 3 => [[(e.addr, if bitOf e.flags 0 then 4 * d.mExt else 4 * d.nExt)]]
  | 5 => [(List.range d.mExt).map (fun r => (e.addr + 64 * d.outStride * r, (fmtOf e.param).bytesFor d.nExt))]
  | 6 => [[(e.addr, 8 * d.mExt)]]
  | 7 => [[(e.addr, 4 * d.mExt)]]
  | 8 => [[(e.addr, 8 * d.mExt)]]
  | 10 => [(e.addr, 16)] :: (match c.drsBlock e.addr with
    | some p => [[(p.1, 8 * d.mExt)]]
    | none => [])
  | _ => []

/-- R146: the bytes that a descriptor both writes and reads, an in-place residual and the records of a statistic apart. -/
def Core.matOverlap (c : Core) (d : MatDesc) (work epi : Bool) : List (Nat × Nat) :=
  if !epi then []
  else
    let es := d.epi.zipIdx
    let rows := List.range d.mExt
    let own := [[(d.own, 128)], [(d.epiAddr, 8 * d.epiCount)]] ++ (if work then d.operandRuns else [])
    let reads (skip : EpiEntry × Nat → Bool) := own ++ (es.filter (fun p => !skip p)).flatMap (fun p => c.entryRuns d p.1)
    let out := rows.map (fun r => (d.outAddr + 64 * d.outStride * r, (fmtOf d.fmtOut).bytesFor d.nExt))
    overlapRuns [out] (reads (fun p => decide (p.1.op = 5) && decide (p.1.addr = d.outAddr) && decide (p.1.param = d.fmtOut))) ++
    es.flatMap (fun p =>
      if p.1.op = 9 then overlapRuns [rows.map (fun r => (p.1.addr + r * (d.nOut / 32), ceilDiv d.nExt 32))] (reads (fun _ => false))
      else if 6 ≤ p.1.op ∧ p.1.op ≤ 8 then overlapRuns (c.entryRuns d p.1) (reads (fun q => decide (q.2 = p.2)))
      else [])

/-- R147: the tiles whose epilogue runs, among finished ones, in the order they become ready. -/
def MatDesc.epiTiles (d : MatDesc) (done : List (Nat × Nat)) : List (Nat × Nat) :=
  if d.gate then
    let h := d.b / 2
    (List.range done.length).filterMap (fun q => match done[q]? with
      | none => none
      | some (i, j) =>
        let g := (i, j % h)
        let u := (i, j % h + h)
        if g ∈ done.take (q + 1) ∧ u ∈ done.take (q + 1) then some g else none)
  else done

/-- Runs the array work and, in the K-inner orders, the epilogue of each finished tile as it comes. -/
def MatRun.runTiles (x : MatRun) (d : MatDesc) (work epi : Bool) (ts : List (Nat × Nat)) : MatRun × List Written :=
  let one (y : MatRun) (t : Nat × Nat) : MatRun :=
    if !work then y else if d.toBlotter then y.tileBlot d t.2 else y.tileAcc d t.1 t.2
  let fin (acc : MatRun × List Written) (t : Nat × Nat) : MatRun × List Written :=
    let e := acc.1.epilogue d t.1 t.2
    (e.1, acc.2 ++ e.2)
  if !epi then (ts.foldl one x, [])
  else if d.kOuter || d.gate then (d.epiTiles ts).foldl fin (ts.foldl one x, [])
  else ts.foldl (fun acc t => fin (one acc.1 t, acc.2) t) (x, [])

/-- R118, R89: a seed of the descriptor; it is loaded whether or not the descriptor rounds anything (log 162, DESIGN
CHOICE). -/
def MatRun.seed (x : MatRun) (d : MatDesc) : MatRun :=
  if d.seedLoad then { x with core := { x.core with regs := { x.core.regs with rngState := loadSeed d.seed } } } else x

/-- R385: a version 0x02 descriptor with the id at the head of the stream queue: its addresses as it runs. -/
def Core.gathered (c : Core) (d : MatDesc) : MatDesc :=
  if d.version = 2 then
    let id := match c.streamq with
      | x :: _ => x.id.toNat
      | [] => 0
    { d with aAddr := if bitOf d.gmFlags 0 then d.aAddr else d.aAddr + id * d.gmIn,
             bAddr := if bitOf d.gmFlags 0 then d.bAddr + id * d.gmIn else d.bAddr,
             outAddr := if d.toBlotter then d.outAddr else d.outAddr + id * d.gmOut }
  else d

/-- R385, R69: the id a version 0x02 descriptor would pop is poisoned. -/
def Core.gatherBad (c : Core) (d : MatDesc) : Bool :=
  decide (d.version = 2) && match c.streamq with
    | x :: _ => x.poison
    | [] => false

/-- R74, R138 to R153: runs a descriptor: its checks tile by tile, array work (unless EPI), epilogues, records. On a fault
at tile q the tiles before it that started their last K step are finished, the rest is undefined (R143). Bytes both written and
read are undefined (R146). -/
def MatRun.exec (x : MatRun) (d0 : MatDesc) (work : Bool) (pre : List CoreErr) : MatRun × Option CoreErr :=
  let c := x.core
  let d := c.gathered d0
  let epi := d.epiEn || !work
  let ts := d.tiles
  if c.gatherBad d then (x, some errPoison)
  else match firstErr (c.tileFails d work pre 0 0) with
    | some e => if e.code = 0x0105 ∨ e.code = 0x0104 then (x, some e) else (x.undefine d epi ts, some e)
    | none =>
      let x1 := x.seed d
      let x2 := if d.version = 2 then { x1 with core := x1.core.dropIds 1 } else x1
      match (ts.drop 1).findSome? (fun t => (firstErr (c.tileFails d work pre t.1 t.2)).map (fun e => (e, d.index t.1 t.2))) with
      | none =>
        let r := x2.runTiles d work epi ts
        (({ r.1 with core := if epi then r.1.core.putRecords d r.2 else r.1.core } : MatRun).freeRuns (c.matOverlap d work epi), none)
      | some (e, q) =>
        let done := if work ∧ d.kOuter ∧ d.kStep < d.k then [] else ts.take q
        let r := x2.runTiles d work epi done
        let left := ts.filter (fun t => decide (t ∉ done) || (epi && d.gate && decide ((t.1, t.2 % (d.b / 2)) ∉ d.epiTiles done)))
        ((r.1.undefine d epi left).freeRuns (c.matOverlap d work epi), some e)

/-- The positions whose rotation a descriptor needs (R135). -/
def MatDesc.rotPositions (d : MatDesc) : List Nat :=
  if bitOf d.prologue 2 then (List.range d.mExt).map (fun r => (d.rotPos + r * d.rotStep) % 2 ^ 48) else []

/-- The rotary lines a descriptor that passes the checks of tile 0 reads. -/
def Core.matLines (c : Core) (d : MatDesc) : List Nat :=
  if c.tileFails (c.gathered d) true [] 0 0 = [] then c.rotLines (d.k / 2) d.rotPositions else []

/-- Multiply-accumulates of a descriptor, all and padded (R141, R495). -/
def MatDesc.macs (d : MatDesc) : Nat × Nat :=
  let t := 128 * d.a * (256 * d.b) * d.k
  (t, t - d.mExt * (if d.gate then 2 * d.nExt else d.nExt) * d.kExt)

end Sys2Proof.Machine
end

