-- ==== Sys2Proof/Machine/Matrix.lean ====
section
/-! DEFINITION. The matrix and fusion-chain classes of a compute core (R87 to R91, R137 to R154). -/

namespace Sys2Proof.Machine

/-- Ends a matrix instruction: the core as it left it, the free values drawn, the conversions counted (R495 0x0D); it
retires or faults. -/
def State.finishMat (s : State) (n : CoreNo) (r : MatRun × Option CoreErr) : State :=
  let s1 := ({ s with draws := r.1.draws }.setCore n r.1.core).countCore n 0x0D r.1.sat
  match r.2 with
  | some e => s1.coreFault n e
  | none => s1.retire n

/-- The core at work. -/
def State.matRun (s : State) (n : CoreNo) : MatRun := ⟨s.core n, s.draws, 0⟩

/-- MMA (R87, R89). -/
def execMma (n : CoreNo) (d : DescArg) (s : State) : Host.Outcome State Fault Refusal :=
  .next (s.issue n .compute (fun s =>
    let c := s.core n
    match c.descAddr d with
    | .error e => s.coreFault n e
    | .ok a => match c.readMat a with
      | .error e => s.coreFault n e
      | .ok m => s.withRot n (c.matLines m) (fun s =>
        let r := (s.matRun n).exec m true []
        let s1 := s.finishMat n r
        if r.2.isSome then s1 else (s1.countCore n 0x07 m.macs.1).countCore n 0x08 m.macs.2)))

/-- EPI (R87, R149): only the epilogue of the descriptor's tiles. -/
def execEpi (n : CoreNo) (d : DescArg) (s : State) : Host.Outcome State Fault Refusal :=
  .next (s.issue n .compute (fun s =>
    let c := s.core n
    match c.descAddr d with
    | .error e => s.coreFault n e
    | .ok a => match c.readMat a with
      | .error e => s.coreFault n e
      | .ok m => s.finishMat n ((s.matRun n).exec m false [])))

/-- ZERO (R87): the named accumulator slots are zeroed and their poison cleared. -/
def execZero (n : CoreNo) (slots : Byte) (s : State) : Host.Outcome State Fault Refusal :=
  .next (s.issue n .compute (fun s =>
    let c := s.core n
    let ks := (List.range 8).filter (fun k => slots.getLsbD k)
    s.finishCore n (.ok { c with mem := { c.mem with
      acc := ks.foldl (fun m k => Cells.clearRange m (32768 * k) 32768) c.mem.acc,
      accPoison := ks.foldl (fun m k => Cells.clearRange m (2048 * k) 2048) c.mem.accPoison } })))

/-! Chains (R91, R151, R153) -/

/-- A step of a chain: its descriptor's address, a_from and stat_step. -/
structure ChainStep where
  addr : Nat
  aFrom : Nat
  stat : Nat
  deriving DecidableEq, Repr

/-- R91: the steps of a chain descriptor; none when it is malformed. -/
def chainSteps (b : List Byte) : Option (List ChainStep) :=
  let n := leField b 2 1
  let l := (List.range n).map (fun j => (⟨leField b (8 + 8 * j) 4, leField b (12 + 8 * j) 1, leField b (13 + 8 * j) 1⟩ : ChainStep))
  if leField b 0 1 = 2 ∧ leField b 1 1 = 1 ∧ 2 ≤ n ∧ n ≤ 4 ∧ zeroBytes ((b.drop 3).take 5) ∧ zeroBytes (b.drop (8 + 8 * n)) ∧
      (List.range n).all (fun j => zeroBytes ((b.drop (14 + 8 * j)).take 2)) ∧
      l.all (fun t => decide (t.addr % 64 = 0) && decide (t.aFrom ≤ 1)) then
    some l
  else none

/-- Reads the descriptors of a chain's steps; any poison faults before a step runs (R69). -/
def Core.readSteps (c : Core) : List ChainStep → Except CoreErr (List (ChainStep × MatDesc))
  | [] => .ok []
  | t :: r => match c.readMat t.addr with
    | .error e => .error e
    | .ok d => match Core.readSteps c r with
      | .error e => .error e
      | .ok l => .ok ((t, d) :: l)

/-- R151: A of a step with a_from = 1 is the output of the step before. -/
def linkSteps : Option MatDesc → List (ChainStep × MatDesc) → List (ChainStep × MatDesc)
  | _, [] => []
  | prev, (t, d) :: r =>
    let d1 := match prev with
      | some p => if t.aFrom = 1 then { d with fmtA := p.fmtOut, aAddr := p.outAddr, aStride := p.outStride, linked := true } else d
      | none => d
    (t, d1) :: linkSteps (some d1) r

/-- R151: a chain that is not legal. -/
def chainBad : Option MatDesc → List (ChainStep × MatDesc) → Bool
  | _, [] => false
  | prev, (t, d) :: r =>
    (decide (t.aFrom = 1) && match prev with
      | none => true
      | some p => !fmtIsArray p.fmtOut || decide (d.a ≠ p.a) || decide (d.mExt ≠ p.mExt) || decide (d.k ≠ p.nOut) ||
          decide (d.kExt ≠ p.nExt)) || chainBad (some d) r

/-- R153: the first breach of the rules of the deferred row scale, in step order: (need, have). -/
def chainFuse (l : List (ChainStep × MatDesc)) : Option (Nat × Nat) :=
  (l.zipIdx).findSome? (fun x =>
    let t := x.1.1
    let d := x.1.2
    let j := x.2
    match d.fuseBad j with
    | some f => some f
    | none =>
      if t.stat = 0xFF then none
      else if d.opCount 10 = 0 ∨ j ≤ t.stat then some (j, t.stat)
      else match l[t.stat]? with
        | some y => if y.2.opCount 6 = 0 then some (j, t.stat) else none
        | none => some (j, t.stat))

/-- R151, R143, R385: runs the steps one after another; a fault ends the chain with the earlier steps complete. A linked
step reads where the step before wrote, `prev`. Answers also how many steps completed. -/
def MatRun.steps (x : MatRun) (pre : List CoreErr) (prev : Nat) : List MatDesc → MatRun × Option CoreErr × Nat
  | [] => (x, none, 0)
  | d :: r =>
    let d1 := if d.linked then { d with aAddr := prev } else d
    let y := x.exec d1 true pre
    match y.2 with
    | some e => (y.1, some e, 0)
    | none =>
      let z := MatRun.steps y.1 [] (x.core.gathered d1).outAddr r
      (z.1, z.2.1, z.2.2 + 1)

/-- CHAIN (R91, R151, R153). -/
def execChain (n : CoreNo) (d : DescArg) (s : State) : Host.Outcome State Fault Refusal :=
  .next (s.issue n .compute (fun s =>
    let c := s.core n
    match c.descAddr d with
    | .error e => s.coreFault n e
    | .ok a =>
      if storeSize < a + 64 then s.coreFault n (errStore (a + 64))
      else if c.stBad a 64 then s.coreFault n errPoison
      else match chainSteps (c.stRead a 64) with
        | none => s.coreFault n (errShape 0 0)
        | some ts => match c.readSteps ts with
          | .error e => s.coreFault n e
          | .ok l0 =>
            let l := linkSteps none l0
            let pre := (if chainBad none l then [tileErr 0x0105 6 0 0 0] else []) ++
              (match chainFuse l with
                | some f => [tileErr 0x0104 5 0 f.1 f.2]
                | none => [])
            let first := (l.head?).elim [] (fun x => c.tileFails (c.gathered x.2) true pre 0 0)
            s.withRot n (if first = [] then (l.flatMap (fun x => c.matLines x.2)).dedup else []) (fun s =>
              let r := (s.matRun n).steps pre 0 (l.map (·.2))
              let done := (l.take r.2.2).map (fun x => x.2.macs)
              ((s.finishMat n (r.1, r.2.1)).countCore n 0x07 (sumNat (done.map (·.1)))).countCore n 0x08 (sumNat (done.map (·.2))))))

end Sys2Proof.Machine
end

