-- ==== Sys2Proof/Machine/AttentionOps.lean ====
section
/-! DEFINITION. The attention sequence: descriptors, masks, the forward pass, finalisation, backward and merges (R155 to
R185). -/

namespace Sys2Proof.Machine

/-! Descriptors (R167 to R169, R176, R177, R180) -/

/-- R169: a region of a key block. -/
structure KRegion where
  kscale : W32
  vscale : W32
  pos : Nat
  valid : Nat
  span : Nat
  ok : Bool
  deriving DecidableEq, Repr

/-- R169, R168: a region entry of 24 bytes; `ok` when it breaks no check. -/
def KRegion.ofBytes (b : List Byte) : KRegion :=
  let pos := leField b 8 6
  let v := leField b 14 2
  let sp := leField b 16 4
  ⟨BitVec.ofNat 32 (leField b 0 4), BitVec.ofNat 32 (leField b 4 4), pos, v, sp,
   decide (v ≤ 256) && decide (pos + v ≤ 2 ^ 48) && decide (sp % 8 = 0) && decide (sp < 2 ^ 22) && zeroBytes ((b.drop 20).take 4)⟩

/-- R167, R168: a store address field: bits [21:0], 64 B aligned. -/
def addrOk (a : Nat) : Bool := decide (a % 64 = 0) && decide (a < 2 ^ 22)

/-- R167: positive and normal. -/
def normalPos (x : Nat) : Bool := decide (0x00800000 ≤ x) && decide (x < 0x7F800000)

/-- R167: a format of Q, K or V. -/
def qkvFmt (c : Nat) : Bool := decide (c = 1) || decide (c = 2) || decide (c = 6) || decide (c = 7)

/-- R167: a format of an attention output. -/
def outFmt (c : Nat) : Bool := decide (c = 1) || decide (c = 6) || decide (c = 7) || decide (c = 9)

/-- A key block (R155, R169): its key and value addresses, segment ids and regions. -/
structure KBlock where
  kAddr : Nat
  vAddr : Nat
  kseg : Nat
  regions : List KRegion
  ok : Bool
  deriving DecidableEq, Repr

/-- R169: a block-list entry. -/
def KBlock.ofBytes (b : List Byte) : KBlock :=
  let rs := (List.range 4).map (fun j => KRegion.ofBytes ((b.drop (16 + 24 * j)).take 24))
  let k := leField b 0 4
  let v := leField b 4 4
  let g := leField b 8 4
  ⟨k, v, g, rs, addrOk k && addrOk v && addrOk g && zeroBytes ((b.drop 12).take 4) && zeroBytes (b.drop 112) &&
    rs.all (fun r => r.ok)⟩

/-- The masks of an attention instruction (R165). -/
structure Mask where
  causal : Bool
  windowEn : Bool
  segEn : Bool
  window : Nat
  sinkEnd : Nat
  deriving DecidableEq, Repr

/-- A query tile (R155). -/
structure QTile where
  qAddr : Nat
  qPos : Nat
  ext : Nat
  rep : Nat
  qseg : Nat
  deriving DecidableEq, Repr

/-- R155: the position of row r. -/
def QTile.pos (q : QTile) (r : Nat) : Nat := q.qPos + r / q.rep

/-- R168: the ranges of a query tile. -/
def QTile.ok (q : QTile) : Bool :=
  decide (1 ≤ q.ext) && decide (q.ext ≤ 128) && decide (1 ≤ q.rep) && decide (q.rep ≤ 16) && decide (q.qPos + (q.ext - 1) / q.rep < 2 ^ 48)

/-- R167: an ATTN.FWD or ATTN.DEC descriptor. -/
structure AttnDesc where
  fmtQk : Nat
  fmtV : Nat
  fmtP : Nat
  fmtOut : Nat
  d : Nat
  init : Bool
  final : Bool
  mask : Mask
  ropeQ : Bool
  ropeK : Bool
  lseOut : Bool
  nblocks : Nat
  q : QTile
  oSlot : Nat
  smk : W32
  stateAddr : Nat
  outAddr : Nat
  outStride : Nat
  listAddr : Nat
  lseAddr : Nat
  rotAddr : Nat
  ok : Bool
  deriving DecidableEq, Repr

/-- R167, R168: the descriptor from its 128 bytes; `dec` is ATTN.DEC, which ignores fmt_out (R164). -/
def AttnDesc.ofBytes (dec : Bool) (b : List Byte) : AttnDesc :=
  let ctrl := leField b 7 1
  let q : QTile := ⟨leField b 16 4, leField b 36 6, leField b 9 1, leField b 10 1, leField b 56 4⟩
  let addrs := [16, 20, 24, 32, 56, 60, 64].map (fun i => leField b i 4)
  { fmtQk := leField b 2 1, fmtV := leField b 3 1, fmtP := leField b 4 1, fmtOut := leField b 5 1, d := 64 * 2 ^ (leField b 6 1 % 4),
    init := bitOf ctrl 0, final := bitOf ctrl 1,
    mask := ⟨bitOf ctrl 2, bitOf ctrl 3, bitOf ctrl 4, leField b 42 6, leField b 48 6⟩,
    ropeQ := bitOf ctrl 5, ropeK := bitOf ctrl 6, lseOut := bitOf ctrl 7, nblocks := leField b 8 1, q := q,
    oSlot := leField b 11 1, smk := BitVec.ofNat 32 (leField b 12 4), stateAddr := leField b 20 4, outAddr := leField b 24 4,
    outStride := leField b 28 2, listAddr := leField b 32 4, lseAddr := leField b 60 4, rotAddr := leField b 64 4,
    ok := decide (leField b 0 1 = 5) && decide (leField b 1 1 = 1) && qkvFmt (leField b 2 1) && qkvFmt (leField b 3 1) &&
      (decide (leField b 4 1 = 1) || decide (leField b 4 1 = 6)) && (dec || outFmt (leField b 5 1)) && decide (leField b 6 1 ≤ 2) &&
      decide (1 ≤ leField b 8 1) && decide (leField b 8 1 ≤ 16) && q.ok && decide (leField b 11 1 ≤ 7) && normalPos (leField b 12 4) &&
      (!bitOf ctrl 3 || decide (leField b 42 6 ≠ 0)) && zeroBytes ((b.drop 30).take 2) && zeroBytes ((b.drop 54).take 2) &&
      zeroBytes (b.drop 68) && addrs.all addrOk }

/-- R176: an ATTN.BWD descriptor. -/
structure BwdDesc where
  fmtQk : Nat
  fmtV : Nat
  fmtDo : Nat
  fmtDs : Nat
  fmtGrad : Nat
  d : Nat
  kvInit : Bool
  kvFinal : Bool
  mask : Mask
  ropeQ : Bool
  ropeK : Bool
  nq : Nat
  smk : W32
  blk : KBlock
  rotAddr : Nat
  dkAddr : Nat
  dvAddr : Nat
  dkOut : Nat
  dvOut : Nat
  listAddr : Nat
  ok : Bool
  deriving DecidableEq, Repr

/-- R176, R168: the descriptor from its 128 bytes. -/
def BwdDesc.ofBytes (b : List Byte) : BwdDesc :=
  let ctrl := leField b 7 1
  let d := 64 * 2 ^ (leField b 6 1 % 4)
  let rs := (List.range 2).map (fun j => KRegion.ofBytes ((b.drop (64 + 24 * j)).take 24))
  let addrs := [16, 20, 24, 28, 32, 36, 40, 44, 48].map (fun i => leField b i 4)
  let g := leField b 9 1
  { fmtQk := leField b 2 1, fmtV := leField b 3 1, fmtDo := leField b 4 1, fmtDs := leField b 5 1, fmtGrad := g, d := d,
    kvInit := bitOf ctrl 0, kvFinal := bitOf ctrl 1, mask := ⟨bitOf ctrl 2, bitOf ctrl 3, bitOf ctrl 4, leField b 52 6, leField b 58 6⟩,
    ropeQ := bitOf ctrl 5, ropeK := bitOf ctrl 6, nq := leField b 8 1, smk := BitVec.ofNat 32 (leField b 12 4),
    blk := ⟨leField b 16 4, leField b 20 4, leField b 28 4, if d = 256 then rs.take 1 else rs, true⟩,
    rotAddr := leField b 24 4, dkAddr := leField b 32 4, dvAddr := leField b 36 4, dkOut := leField b 40 4, dvOut := leField b 44 4,
    listAddr := leField b 48 4,
    ok := decide (leField b 0 1 = 6) && decide (leField b 1 1 = 1) && qkvFmt (leField b 2 1) && qkvFmt (leField b 3 1) &&
      qkvFmt (leField b 4 1) && (decide (leField b 5 1 = 1) || decide (leField b 5 1 = 6)) && decide (leField b 6 1 ≤ 2) && !bitOf ctrl 7 &&
      decide (1 ≤ leField b 8 1) && decide (leField b 8 1 ≤ 16) && (decide (g = 6) || decide (g = 7) || decide (g = 9)) &&
      zeroBytes ((b.drop 10).take 2) && normalPos (leField b 12 4) && (!bitOf ctrl 3 || decide (leField b 52 6 ≠ 0)) &&
      rs.all (fun r => r.ok) && (decide (d ≠ 256) || decide (leField b 102 2 = 0)) && zeroBytes (b.drop 112) && addrs.all addrOk }

/-- R177: a tile entry of ATTN.BWD. -/
structure BwdTile where
  q : QTile
  doAddr : Nat
  lseAddr : Nat
  ddAddr : Nat
  dqAddr : Nat
  dqOut : Nat
  dqInit : Bool
  dqFinal : Bool
  ok : Bool
  deriving DecidableEq, Repr

/-- R177, R168: a tile entry from its 64 bytes. -/
def BwdTile.ofBytes (b : List Byte) : BwdTile :=
  let q : QTile := ⟨leField b 0 4, leField b 24 6, leField b 30 1, leField b 31 1, leField b 32 4⟩
  let addrs := [0, 4, 8, 12, 16, 20, 32].map (fun i => leField b i 4)
  let f := leField b 36 1
  ⟨q, leField b 4 4, leField b 8 4, leField b 12 4, leField b 16 4, leField b 20 4, bitOf f 0, bitOf f 1,
   q.ok && decide (f < 4) && zeroBytes (b.drop 37) && addrs.all addrOk⟩

/-- R180: an ATTN.MERGE descriptor. -/
structure MergeDesc where
  count : Nat
  d : Nat
  rows : Nat
  final : Bool
  lseOut : Bool
  fmtOut : Nat
  smk : W32
  listAddr : Nat
  outAddr : Nat
  outStride : Nat
  lseAddr : Nat
  ok : Bool
  deriving DecidableEq, Repr

/-- R180, R168: the descriptor from its 64 bytes. -/
def MergeDesc.ofBytes (b : List Byte) : MergeDesc :=
  let ctrl := leField b 5 1
  { count := leField b 2 1, d := 64 * 2 ^ (leField b 3 1 % 4), rows := leField b 4 1, final := bitOf ctrl 0, lseOut := bitOf ctrl 1,
    fmtOut := leField b 6 1, smk := BitVec.ofNat 32 (leField b 8 4), listAddr := leField b 12 4, outAddr := leField b 16 4,
    outStride := leField b 20 2, lseAddr := leField b 24 4,
    ok := decide (leField b 0 1 = 7) && decide (leField b 1 1 = 1) && decide (1 ≤ leField b 2 1) && decide (leField b 2 1 ≤ 64) &&
      decide (leField b 3 1 ≤ 2) && decide (1 ≤ leField b 4 1) && decide (leField b 4 1 ≤ 128) && decide (ctrl < 4) &&
      outFmt (leField b 6 1) && decide (leField b 7 1 = 0) && normalPos (leField b 8 4) &&
      zeroBytes ((b.drop 22).take 2) && zeroBytes (b.drop 28) && addrOk (leField b 12 4) && addrOk (leField b 16 4) &&
      addrOk (leField b 24 4) }

/-! Keys, positions and masks (R155, R157, R165, R166) -/

/-- A present key: its slot in the block, its region, its position. -/
structure Key where
  t : Nat
  region : Nat
  pos : Nat
  deriving DecidableEq, Repr

/-- R165: the present keys of a block with their positions. -/
def Core.keysOf (c : Core) (b : KBlock) : List Key :=
  (b.regions.zipIdx).flatMap (fun x => (List.range x.1.valid).map (fun t =>
    ⟨256 * x.2 + t, x.2, if x.1.span = 0 then x.1.pos + t else c.stLe (x.1.span + 8 * (t / 16)) 6 + t % 16⟩))

/-- R166: the span tables of present regions. -/
def KBlock.spans (b : KBlock) : List Nat := (b.regions.filter (fun r => decide (r.valid ≠ 0) && decide (r.span ≠ 0))).map (fun r => r.span)

/-- The least of a list (0 for none). -/
def minNat (l : List Nat) : Nat := l.foldl min (l.headD 0)

/-- The greatest of a list (0 for none). -/
def maxNat (l : List Nat) : Nat := l.foldl max 0

/-- R166: the block is skipped for the tile. -/
def skipBlock (m : Mask) (q : QTile) (ks : List Key) : Bool :=
  let ps := ks.map (fun k => k.pos)
  decide (ks = []) || (m.causal && decide (q.pos (q.ext - 1) < minNat ps)) ||
    (m.windowEn && decide (m.sinkEnd ≤ minNat ps) && decide (maxNat ps + m.window ≤ q.pos 0))

/-- R165: the element (row, key) is allowed. -/
def Mask.allows (m : Mask) (pq pk sq sk : Nat) : Bool :=
  (!m.causal || decide (pk ≤ pq)) && (!m.windowEn || decide (pq < pk + m.window) || decide (pk < m.sinkEnd)) &&
    (!m.segEn || (decide (sk = sq) && decide (sq ≠ 0xFFFF)))

/-- `n` elements from a store address. -/
def Core.elems (c : Core) (code a n : Nat) : List Val := (List.range n).map (fun i => (fmtOf code).decode (getElem c.mem.store (fmtOf code) a i))

/-- Bytes of an element. -/
def elemBytes (code : Nat) : Nat := (fmtOf code).width / 8

/-- R136: a rotated row rounded back to its format; values, poison, saturations. -/
def Core.rotBack (c : Core) (code d pos : Nat) (vs : List Val) : List Val × Bool × Nat :=
  let r := c.rotateRow d (pos % 2 ^ 48) vs
  let b := r.1.map (backTo code none)
  (b.map (·.1), r.2, (b.filter (·.2)).length)

/-- R160: row r of a query tile; values, poison, saturations. -/
def Core.queryRow (c : Core) (code d : Nat) (rope : Bool) (q : QTile) (r : Nat) : List Val × Bool × Nat :=
  let a := q.qAddr + r * d * elemBytes code
  let v := c.elems code a d
  let bad := c.stBad a (d * elemBytes code)
  if rope then let x := c.rotBack code d (q.pos r) v; (x.1, bad || x.2.1, x.2.2) else (v, bad, 0)

/-! Running state -/

/-- The running state of a tile (R161 to R163, R170). -/
structure AttnState where
  m : List W32
  l : List W32
  o : List (List W32)
  bad : Bool
  deriving DecidableEq, Repr

/-- R167: the state an instruction with init = 1 starts from. -/
def AttnState.start (rows d : Nat) : AttnState :=
  ⟨List.replicate rows f32NegInf, List.replicate rows f32Zero, List.replicate rows (List.replicate d f32Zero), false⟩

/-- R170: reads a record. -/
def Core.readState (c : Core) (a d rows : Nat) : AttnState :=
  ⟨c.vec32 a rows, c.vec32 (a + 512) rows, (List.range rows).map (fun r => c.vec32 (a + 1024 + 4 * d * r) d),
   c.stBad a (4 * rows) || c.stBad (a + 512) (4 * rows) || c.stBad (a + 1024) (4 * d * rows)⟩

/-- FP32 words as bytes. -/
def f32Bytes (xs : List W32) : List Byte := xs.flatMap (fun x => leBytes 4 x.toNat)

/-- R170: writes a record. -/
def Core.writeState (c : Core) (a : Nat) (st : AttnState) : Core :=
  ((c.stWriteAll a (f32Bytes st.m) st.bad).stWriteAll (a + 512) (f32Bytes st.l) st.bad).stWriteAll (a + 1024)
    (f32Bytes st.o.flatten) st.bad

/-- R161: the rescale factor of a maximum against the new one. -/
def rescale (old new smk : W32) : W32 := if new = f32NegInf then f32One else f32Exp2 (f32Mul (f32Sub old new) smk)

/-- The sum of 256 values by the VREDSUM tree (R93). -/
def sumTree (xs : List W32) : W32 := treeFold f32Add 8 xs

/-- R160 to R163: one row of a tile against a block: scores in, the row's new (m, l, O). `cols` are the value columns. -/
def attnRow (smk : W32) (fmtP : Nat) (vsc : List W32) (cols : List (List Val)) (scores : List W32) (m l : W32) (o : List W32) :
    W32 × W32 × List W32 :=
  let mn := f32Max m (scores.foldl f32Max f32NegInf)
  let al := rescale m mn smk
  let sh := if mn = f32NegInf then f32Zero else mn
  let ps := scores.map (fun s => f32Exp2Shift s sh smk)
  let sums := (List.range 4).map (fun j => sumTree ((ps.drop (256 * j)).take 256))
  let blk := f32Add (f32Add (sums.getD 0 0) (sums.getD 1 0)) (f32Add (sums.getD 2 0) (sums.getD 3 0))
  let pf := ps.map (fun p => (fmtOf fmtP).decode (convertF32 (fmtOf fmtP) .rne 0 p).1)
  let o1 := (o.zip cols).map (fun x =>
    ((chunks64 16 (pf.zip x.2)).zipIdx).foldl (fun acc g => f32Add acc (f32Mul (groupSum g.1) (vsc.getD (g.2 / 4) 0))) (f32Mul x.1 al))
  (mn, f32Add (f32Mul l al) blk, o1)

/-- R164: the normalised row and its log-sum-exp. -/
def finalRow (smk m l : W32) (o : List W32) : List W32 × W32 :=
  if (valOf l).isZero then (o.map (fun _ => f32Zero), f32NegInf)
  else
    let inv := f32Recip l
    (o.map (fun x => f32Mul x inv), f32Add m (f32Mul (f32Log2 l) (f32Recip smk)))

/-- A core in an attention instruction, with its counts: blocks run, skipped, rows left fully masked, dS saturations. -/
structure AttnRun where
  x : MatRun
  run : Nat
  skip : Nat
  masked : Nat
  ds : Nat
  deriving DecidableEq, Repr

/-- R164: writes normalised rows and log-sum-exps. -/
def AttnRun.finish (y : AttnRun) (fmtOut out stride : Nat) (lse : Option Nat) (smk : W32) (st : AttnState) : AttnRun :=
  let rows := ((st.m.zip st.l).zip st.o).map (fun r => finalRow smk r.1.1 r.1.2 r.2)
  let f := fmtOf fmtOut
  let r := (rows.zipIdx).foldl (fun (acc : Core × Nat) p =>
    let cv := convertList f .rne 0 p.1.1
    (acc.1.putElems f (out + 64 * stride * p.2) cv.1 (cv.1.map (fun _ => st.bad)), acc.2 + cv.2.1)) (y.x.core, 0)
  let c1 := match lse with
    | some a => r.1.stWriteAll a (f32Bytes (rows.map (·.2))) st.bad
    | none => r.1
  { y with x := { y.x with core := c1, sat := y.x.sat + r.2 }, masked := (st.l.filter (fun l => (valOf l).isZero)).length }

/-- Writes free values over the whole blotter (log 1). -/
def MatRun.freeBlot (x : MatRun) : MatRun :=
  let c := x.core
  { x with core := { c with mem := { c.mem with blot := c.mem.blot.put 0 ((List.range 131072).map (fun i => Config.freeW32 (x.draws + i))) } },
           draws := x.draws + 131072 }

/-! Forward and decode (R158 to R173) -/

/-- R142, R168: an address extent that reaches the end of the store faults at the block that would use it. -/
def reachErr (end_ blk : Nat) : Option CoreErr :=
  if storeSize < end_ then some (tileErr 0x0102 2 blk (ceilDiv end_ 64) (storeSize / 64)) else none

/-- The extent of a record of `rows` rows. -/
def recBytes (d rows : Nat) : Nat := 1024 + 4 * d * rows

/-- What a block needs inside the store before it runs. -/
def AttnDesc.blockEnds (a : AttnDesc) (b : KBlock) : List Nat :=
  let kb := 1024 * a.d * elemBytes a.fmtQk
  [a.q.qAddr + a.q.ext * a.d * elemBytes a.fmtQk, b.kAddr + kb, b.vAddr + 1024 * a.d * elemBytes a.fmtV] ++
  (if a.mask.segEn then [a.q.qseg + 2 * a.q.ext, b.kseg + 2048] else []) ++ (if a.ropeK then [a.rotAddr + kb] else [])

/-- Where the results of the instruction go, with their lengths. -/
def AttnDesc.results (a : AttnDesc) (dec : Bool) : List (Nat × Nat) :=
  if !a.final then [(a.stateAddr, recBytes a.d a.q.ext)]
  else if dec then [(a.outAddr, recBytes a.d a.q.ext)]
  else (a.outAddr, 64 * a.outStride * (a.q.ext - 1) + a.d * elemBytes a.fmtOut) :: (if a.lseOut then [(a.lseAddr, 4 * a.q.ext)] else [])

/-- R157, R160: the keys of a block as the score product uses them, each with its slot; the core with the scratch written;
poison and saturations. Key slots not present leave free bytes in the scratch (log 1). -/
def MatRun.blockKeys (x : MatRun) (fmtQk d : Nat) (ropeK : Bool) (rotAddr slots : Nat) (b : KBlock) (ks : List Key) :
    MatRun × List (Key × List Val) × Bool :=
  let c := x.core
  let e := elemBytes fmtQk
  let raw := ks.map (fun k => (k, c.elems fmtQk (b.kAddr + k.t * d * e) d))
  let bad := c.stBad b.kAddr (slots * d * e)
  if !ropeK then (x, raw, bad)
  else
    let rot := raw.map (fun k => (k.1, c.rotBack fmtQk d k.1.pos k.2))
    let x1 := x.freeBytes rotAddr (slots * d * e)
    let f := fmtOf fmtQk
    let c1 := rot.foldl (fun (c2 : Core) k =>
      let a := rotAddr + k.1.t * d * e
      c2.putElems f a (k.2.1.map (fun v => (f.encode .rne v).1))
        (List.replicate d (c.stBad (b.kAddr + k.1.t * d * e) (d * e) || k.2.2.1))) x1.core
    ({ x1 with core := c1, sat := x1.sat + sumNat (rot.map (fun k => k.2.2.2)) },
     rot.map (fun k => (k.1, k.2.1)), bad || rot.any (fun k => k.2.2.1))

/-- R160, R165: the scores of row r against the 256*n slots of a block; masked ones are minus infinity. -/
def scoresOf (m : Mask) (pq sq : Nat) (seg : Nat → Nat) (ksc : List W32) (slots : Nat) (q : List Val) (ks : List (Key × List Val)) :
    List W32 :=
  let vs := ks.map (fun k =>
    (k.1.t, if m.allows pq k.1.pos sq (seg k.1.t) then f32Mul (accumulate 0 f32Zero q k.2) (ksc.getD k.1.region 0) else f32NegInf))
  (List.range slots).map (fun t => match vs.find? (fun v => decide (v.1 = t)) with
    | some v => v.2
    | none => f32NegInf)

/-- One block of ATTN.FWD or ATTN.DEC that is not skipped. -/
def AttnRun.block (y : AttnRun) (a : AttnDesc) (st : AttnState) (b : KBlock) (ks : List Key) : AttnRun × AttnState :=
  let c := y.x.core
  let e := elemBytes a.fmtV
  let qs := (List.range a.q.ext).map (c.queryRow a.fmtQk a.d a.ropeQ a.q)
  let kk := y.x.blockKeys a.fmtQk a.d a.ropeK a.rotAddr 1024 b ks
  let vs := (List.range 1024).map (fun t => c.elems a.fmtV (b.vAddr + t * a.d * e) a.d)
  let cols := (List.range a.d).map (fun j => vs.map (fun row => row.getD j .nan))
  let ksc := b.regions.map (fun r => r.kscale)
  let vsc := b.regions.map (fun r => r.vscale)
  let bad := qs.any (fun q => q.2.1) || kk.2.2 || c.stBad b.vAddr (1024 * a.d * e) ||
    (a.mask.segEn && (c.stBad a.q.qseg (2 * a.q.ext) || c.stBad b.kseg 2048))
  let rows := ((qs.zip (st.m.zip (st.l.zip st.o))).zipIdx).map (fun p =>
    attnRow a.smk a.fmtP vsc cols
      (scoresOf a.mask (a.q.pos p.2) (c.stLe (a.q.qseg + 2 * p.2) 2) (fun t => c.stLe (b.kseg + 2 * t) 2) ksc 1024 p.1.1.1 kk.2.1)
      p.1.2.1 p.1.2.2.1 p.1.2.2.2)
  ({ y with x := { kk.1 with sat := kk.1.sat + sumNat (qs.map (fun q => q.2.2)) }, run := y.run + 1 },
   ⟨rows.map (·.1), rows.map (·.2.1), rows.map (·.2.2), st.bad || bad⟩)

/-- The blocks of a list, in order: each may fault before it runs (R142, R184), be skipped (R166), or run. -/
def AttnRun.blocks (y : AttnRun) (a : AttnDesc) (dec : Bool) (st : AttnState) :
    List (Except CoreErr KBlock × Nat) → AttnRun × AttnState × Option CoreErr
  | [] => (y, st, none)
  | (.error e, _) :: _ => (y, st, some e)
  | (.ok b, j) :: r =>
    let c := y.x.core
    let ks := c.keysOf b
    let ends0 := b.spans.map (· + 128) ++ (if j = 0 ∧ !a.init then [a.stateAddr + recBytes a.d a.q.ext] else []) ++
      (if j + 1 = a.nblocks then (a.results dec).map (fun x => x.1 + x.2) else [])
    let skip := skipBlock a.mask a.q ks
    let st1 := { st with bad := st.bad || b.spans.any (fun p => c.stBad p 128) }
    match reachErr (maxNat (ends0 ++ (if skip then [] else a.blockEnds b))) j with
    | some e => (y, st1, some e)
    | none =>
      if skip then AttnRun.blocks { y with skip := y.skip + 1 } a dec st1 r
      else
        let z := y.block a st1 b ks
        AttnRun.blocks z.1 a dec z.2 r

/-- R168, R184: the entries of a block list: a poisoned one, or one outside the store, faults before its block. -/
def Core.blockList (c : Core) (a : AttnDesc) : List (Except CoreErr KBlock × Nat) :=
  (List.range a.nblocks).map (fun j =>
    let p := a.listAddr + 128 * j
    (match reachErr (p + 128) j with
      | some e => .error e
      | none => if c.stBad p 128 then .error { errPoison with tile := j } else .ok (KBlock.ofBytes (c.stRead p 128)), j))

/-- R168: the descriptor and every entry that can be read pass the checks at issue. -/
def attnLegal (a : AttnDesc) (bs : List (Except CoreErr KBlock × Nat)) : Bool :=
  a.ok && bs.all (fun b => match b.1 with
    | .ok k => k.ok
    | .error _ => true)

/-- The store regions that a key block is read from, as a block that runs reads them. -/
def KBlock.runs (b : KBlock) (kBytes vBytes slots : Nat) (seg : Bool) : List (List (Nat × Nat)) :=
  [[(b.kAddr, kBytes)], [(b.vAddr, vBytes)]] ++ (if seg then [[(b.kseg, 2 * slots)]] else [])

/-- R171: the bytes that the instruction at `own` both writes and reads, a state record updated in place and an ATTN.DEC whose
out_addr is its state_addr apart. -/
def Core.attnOverlap (c : Core) (a : AttnDesc) (dec : Bool) (own : Nat) : List (Nat × Nat) :=
  let kb := 1024 * a.d * elemBytes a.fmtQk
  let bs := (c.blockList a).filterMap (fun b => match b.1 with
    | .ok k => some k
    | .error _ => none)
  let live := bs.filter (fun k => !skipBlock a.mask a.q (c.keysOf k))
  let rec_ := (a.stateAddr, recBytes a.d a.q.ext)
  let reads := [[(own, 128)], [(a.listAddr, 128 * a.nblocks)], [(a.q.qAddr, a.q.ext * a.d * elemBytes a.fmtQk)]] ++
    (if a.mask.segEn then [[(a.q.qseg, 2 * a.q.ext)]] else []) ++ bs.map (fun k => k.spans.map (fun p => (p, 128))) ++
    live.flatMap (fun k => k.runs kb (1024 * a.d * elemBytes a.fmtV) 1024 a.mask.segEn)
  let state := if a.init then [] else [[rec_]]
  let inPlace := !a.final || (dec && decide (a.outAddr = a.stateAddr))
  overlapRuns ((a.results dec).map (fun p => [p])) (reads ++ (if inPlace then [] else state)) ++
  (if a.ropeK && !live.isEmpty then overlapRuns [[(a.rotAddr, kb)]] (reads ++ state) else [])

/-- ATTN.FWD and ATTN.DEC but for R171's overlaps (R158, R164, R184). -/
def AttnRun.forwardPass (y : AttnRun) (a : AttnDesc) (dec : Bool) : AttnRun × Option CoreErr :=
  let c := y.x.core
  let st0 := if a.init then AttnState.start a.q.ext a.d else c.readState a.stateAddr a.d a.q.ext
  let r := y.blocks a dec st0 (c.blockList a)
  let undef (z : AttnRun) : AttnRun := { z with x := (z.x.freeSlot a.oSlot).freeBlot }
  match r.2.2 with
  | some e =>
    let z := undef r.1
    ({ z with x := z.x.freeRuns (a.results dec) }, some e)
  | none =>
    let z := undef r.1
    let put (p : Nat) : AttnRun := { z with x := { z.x with core := z.x.core.writeState p r.2.1 } }
    if !a.final then (put a.stateAddr, none)
    else if dec then
      let w := put a.outAddr
      ({ w with masked := (r.2.1.l.filter (fun l => (valOf l).isZero)).length }, none)
    else (z.finish a.fmtOut a.outAddr a.outStride (if a.lseOut then some a.lseAddr else none) a.smk r.2.1, none)

/-- ATTN.FWD and ATTN.DEC (R158, R164, R171, R184): bytes both written and read are undefined. -/
def AttnRun.forward (y : AttnRun) (a : AttnDesc) (dec : Bool) (own : Nat) : AttnRun × Option CoreErr :=
  let r := y.forwardPass a dec
  ({ r.1 with x := r.1.x.freeRuns (y.x.core.attnOverlap a dec own) }, r.2)

/-- The rotary lines of ATTN.FWD or ATTN.DEC: those of its rows and of the keys of the blocks it does not skip. -/
def Core.attnLines (c : Core) (a : AttnDesc) : List Nat :=
  let ks := (c.blockList a).filterMap (fun b => match b.1 with
    | .ok k => let l := c.keysOf k
               if skipBlock a.mask a.q l then none else some l
    | .error _ => none)
  if ks = [] then []
  else c.rotLines (a.d / 2) ((if a.ropeQ then (List.range a.q.ext).map a.q.pos else []) ++
    (if a.ropeK then (ks.flatten).map (fun k => k.pos % 2 ^ 48) else []))

/-! Merges (R179 to R181) -/

/-- R181: one partial folds into the accumulated record. -/
def AttnState.merge (smk : W32) (p q : AttnState) : AttnState :=
  let rows := ((p.m.zip (p.l.zip p.o)).zip (q.m.zip (q.l.zip q.o))).map (fun x =>
    let mn := f32Max x.1.1 x.2.1
    let fa := rescale x.1.1 mn smk
    let fb := rescale x.2.1 mn smk
    (mn, f32Fma x.1.2.1 fa (f32Mul x.2.2.1 fb), (x.1.2.2.zip x.2.2.2).map (fun o => f32Fma o.1 fa (f32Mul o.2 fb))))
  ⟨rows.map (·.1), rows.map (·.2.1), rows.map (·.2.2), p.bad || q.bad⟩

/-- Where the results of a merge go, with their lengths. -/
def MergeDesc.results (d : MergeDesc) : List (Nat × Nat) :=
  if d.final then (d.outAddr, 64 * d.outStride * (d.rows - 1) + d.d * elemBytes d.fmtOut) ::
      (if d.lseOut then [(d.lseAddr, 4 * d.rows)] else [])
  else [(d.outAddr, recBytes d.d d.rows)]

/-- ATTN.MERGE but for R171's overlaps (R180, R181): checks, fold, write. -/
def AttnRun.mergePass (y : AttnRun) (d : MergeDesc) : AttnRun × Option CoreErr :=
  let c := y.x.core
  let ps := (List.range d.count).map (fun i => c.stLe (d.listAddr + 4 * i) 4)
  let n := recBytes d.d d.rows
  let outs := d.results.map (fun p => p.1 + p.2)
  if !d.ok then (y, some (errShape 0 0))
  else match reachErr (d.listAddr + 4 * d.count) 0 with
    | some e => (y, some e)
    | none =>
      if c.stBad d.listAddr (4 * d.count) then (y, some errPoison)
      else if ps.any (fun p => !addrOk p) then (y, some (errShape 0 0))
      else match (ps.zipIdx).findSome? (fun p => reachErr (p.1 + n) p.2) with
        | some e => (y, some e)
        | none => match reachErr (maxNat outs) (d.count - 1) with
          | some e => (y, some e)
          | none =>
            let rs := ps.map (fun p => c.readState p d.d d.rows)
            let st := (rs.drop 1).foldl (AttnState.merge d.smk) (rs.headD (AttnState.start d.rows d.d))
            if d.final then
              (y.finish d.fmtOut d.outAddr d.outStride (if d.lseOut then some d.lseAddr else none) d.smk st, none)
            else ({ y with x := { y.x with core := c.writeState d.outAddr st } }, none)

/-- R171, R181: the bytes that a merge at `own` both writes and reads, an out_addr that is the first list entry apart. -/
def Core.mergeOverlap (c : Core) (d : MergeDesc) (own : Nat) : List (Nat × Nat) :=
  let ps := (List.range d.count).map (fun i => c.stLe (d.listAddr + 4 * i) 4)
  overlapRuns (d.results.map (fun p => [p])) ([[(own, 64)], [(d.listAddr, 4 * d.count)]] ++
    (ps.filter (fun p => d.final || decide (p ≠ d.outAddr) || decide (ps.headD 0 ≠ d.outAddr))).map (fun p => [(p, recBytes d.d d.rows)]))

/-- ATTN.MERGE (R171, R180, R181, R184): after a fault of a legal merge its outputs are undefined (R143). -/
def AttnRun.mergeAll (y : AttnRun) (d : MergeDesc) (own : Nat) : AttnRun × Option CoreErr :=
  let r := y.mergePass d
  match r.2 with
  | some e => if e.code = 0x0105 then r else ({ r.1 with x := r.1.x.freeRuns d.results }, r.2)
  | none => ({ r.1 with x := r.1.x.freeRuns (y.x.core.mergeOverlap d own) }, none)

/-! Backward (R174 to R178) -/

/-- R175: the conjugate rotation of a pair. -/
def rotConj (w : W32 × W32) (xa xb : W32) : W32 × W32 :=
  (f32Fma xa w.1 (f32Mul xb w.2), f32Fma xb w.1 (f32Neg (f32Mul xa w.2)))

/-- R175, R59: the conjugate rotation of a row of gradients, and whether a rotary line it reads is poisoned. -/
def Core.conjRow (c : Core) (d pos : Nat) (g : List W32) : List W32 × Bool :=
  let h := d / 2
  let ws := (List.range h).map (fun f => c.rotOf f (pos % 2 ^ 48))
  let ps := (ws.zipIdx).map (fun w => rotConj w.1.1 (g.getD w.2 0) (g.getD (w.2 + h) 0))
  (ps.map (·.1) ++ ps.map (·.2), ws.any (·.2))

/-- The gradients of a key block, and whether they are poisoned. -/
structure KVGrad where
  dk : List (List W32)
  dv : List (List W32)
  bad : Bool
  deriving DecidableEq, Repr

/-- R175: gradient rows gain the group sums, over the tile's rows, of a weight column against operand columns. -/
def gradAdd (acc : List (List W32)) (weights : List (List Val)) (rows : List (List Val)) : List (List W32) :=
  (acc.zipIdx).map (fun g => (g.1.zipIdx).map (fun x =>
    (chunks64 2 ((weights.map (fun w => w.getD g.2 (.fin false 0 0))).zip (rows.map (fun v => v.getD x.2 (.fin false 0 0))))).foldl
      (fun a s => f32Add a (groupSum s)) x.1))

/-- What a tile of ATTN.BWD needs inside the store. -/
def BwdDesc.tileEnds (a : BwdDesc) (t : BwdTile) : List Nat :=
  let n := t.q.ext
  [t.q.qAddr + n * a.d * elemBytes a.fmtQk, t.doAddr + n * a.d * elemBytes a.fmtDo, t.lseAddr + 4 * n, t.ddAddr + 4 * n] ++
  (if a.mask.segEn then [t.q.qseg + 2 * n] else []) ++ (if t.dqInit then [] else [t.dqAddr + 4 * n * a.d]) ++
  [if t.dqFinal then t.dqOut + n * a.d * elemBytes a.fmtGrad else t.dqAddr + 4 * n * a.d]

/-- One query tile of ATTN.BWD (R174, R175): its dQ is written, dK and dV grow. `kz` are the keys by slot (zeros for a slot
not present), `kvBad` the poison of the block. -/
def AttnRun.bwdTile (y : AttnRun) (a : BwdDesc) (t : BwdTile) (kb : Nat) (ks : List (Key × List Val)) (kz vz : List (List Val))
    (kvBad : Bool) (g : KVGrad) : AttnRun × KVGrad :=
  let c := y.x.core
  let n := t.q.ext
  let zero : Val := .fin false 0 0
  let qs := (List.range n).map (c.queryRow a.fmtQk a.d a.ropeQ t.q)
  let eo := elemBytes a.fmtDo
  let dos := (List.range n).map (fun r => c.elems a.fmtDo (t.doAddr + r * a.d * eo) a.d)
  let lse := c.vec32 t.lseAddr n
  let dd := c.vec32 t.ddAddr n
  let ksc := a.blk.regions.map (fun r => r.kscale)
  let vsc := a.blk.regions.map (fun r => r.vscale)
  let sigma := f32Mul a.smk 0x3F317218
  let fds := fmtOf a.fmtDs
  -- per row: P as FP32, dS as FP32
  let pds := ((qs.zip dos).zipIdx).map (fun p =>
    let r := p.2
    let l := lse.getD r 0
    let sc := scoresOf a.mask (t.q.pos r) (c.stLe (t.q.qseg + 2 * r) 2) (fun k => c.stLe (a.blk.kseg + 2 * k) 2) ksc kb p.1.1.1 ks
    (sc.zipIdx).map (fun s =>
      if s.1 = f32NegInf ∨ l = f32NegInf then (f32Zero, f32Zero)
      else
        let w := f32Exp2Shift s.1 l a.smk
        let dp := (chunks64 4 (p.1.2.zip (vz.getD s.2 []))).foldl
          (fun acc x => f32Add acc (f32Mul (groupSum x) (vsc.getD (s.2 / 256) 0))) f32Zero
        (w, f32Mul (f32Mul w (f32Sub dp (dd.getD r 0))) sigma)))
  let conv (x : W32) : Nat × Bool := let z := convertF32 fds .rne 0 x; (z.1, z.2.1)
  let ws := pds.map (fun row => row.map (fun w => conv w.1))
  let pf := ws.map (fun row => row.map (fun w => fds.decode w.1))
  let ds := pds.map (fun row => row.map (fun w => conv w.2))
  let df := ds.map (fun row => row.map (fun w => fds.decode w.1))
  let sat := sumNat (ds.map (fun row => (row.filter (·.2)).length))
  let satP := sumNat (ws.map (fun row => (row.filter (·.2)).length))
  let dq0 := if t.dqInit then List.replicate n (List.replicate a.d f32Zero)
    else (List.range n).map (fun r => c.vec32 (t.dqAddr + 4 * a.d * r) a.d)
  let kcols := (List.range a.d).map (fun j => kz.map (fun row => row.getD j zero))
  let dq := (dq0.zip df).map (fun x => (x.1.zip kcols).map (fun z =>
    ((chunks64 8 (x.2.zip z.2)).zipIdx).foldl (fun acc s => f32Add acc (f32Mul (groupSum s.1) (ksc.getD (s.2 / 4) 0))) z.1))
  let bad := qs.any (fun q => q.2.1) || c.stBad t.doAddr (n * a.d * eo) || c.stBad t.lseAddr (4 * n) || c.stBad t.ddAddr (4 * n) ||
    (a.mask.segEn && c.stBad t.q.qseg (2 * n)) || (!t.dqInit && c.stBad t.dqAddr (4 * a.d * n))
  let fg := fmtOf a.fmtGrad
  let c1 :=
    if t.dqFinal then (dq.zipIdx).foldl (fun (c2 : Core) p =>
      let g := c.conjRow a.d (t.q.pos p.2) p.1
      let cv := convertList fg .rne 0 g.1
      c2.putElems fg (t.dqOut + p.2 * a.d * elemBytes a.fmtGrad) cv.1 (cv.1.map (fun _ => bad || kvBad || g.2))) c
    else c.stWriteAll t.dqAddr (f32Bytes dq.flatten) (bad || kvBad)
  ({ y with x := { y.x with core := c1, sat := y.x.sat + sat + satP + sumNat (qs.map (fun q => q.2.2)) }, run := y.run + 1, ds := y.ds + sat },
   ⟨gradAdd g.dk df (qs.map (fun q => q.1)), gradAdd g.dv pf dos, g.bad || bad⟩)

/-- The query tiles of ATTN.BWD in list order. -/
def AttnRun.bwdTiles (y : AttnRun) (a : BwdDesc) (kb : Nat) (ks : List (Key × List Val)) (kz vz : List (List Val)) (kvBad : Bool)
    (g : KVGrad) : List (Except CoreErr BwdTile × Nat) → AttnRun × KVGrad × Option CoreErr
  | [] => (y, g, none)
  | (.error e, _) :: _ => (y, g, some e)
  | (.ok t, j) :: r =>
    match reachErr (maxNat (a.tileEnds t)) j with
    | some e => (y, g, some e)
    | none =>
      let z := y.bwdTile a t kb ks kz vz kvBad g
      AttnRun.bwdTiles z.1 a kb ks kz vz kvBad z.2 r

/-- R177, R184: the tile entries of ATTN.BWD. -/
def Core.tileList (c : Core) (a : BwdDesc) : List (Except CoreErr BwdTile × Nat) :=
  (List.range a.nq).map (fun j =>
    let p := a.listAddr + 64 * j
    (match reachErr (p + 64) j with
      | some e => .error e
      | none => if c.stBad p 64 then .error { errPoison with tile := j } else .ok (BwdTile.ofBytes (c.stRead p 64)), j))

/-- R168, R176: the descriptor and every tile entry that can be read pass the checks at issue. -/
def bwdLegal (a : BwdDesc) (ts : List (Except CoreErr BwdTile × Nat)) : Bool :=
  a.ok && ts.all (fun t => match t.1 with
    | .ok k => k.ok
    | .error _ => true)

/-- R174: keys of a block. -/
def BwdDesc.kb (a : BwdDesc) : Nat := if a.d = 256 then 256 else 512

/-- Where dK and dV go, with their lengths. -/
def BwdDesc.results (a : BwdDesc) : List (Nat × Nat) :=
  let n := a.kb * a.d
  if a.kvFinal then [(a.dkOut, n * elemBytes a.fmtGrad), (a.dvOut, n * elemBytes a.fmtGrad)] else [(a.dkAddr, 4 * n), (a.dvAddr, 4 * n)]

/-- What the key block of ATTN.BWD needs inside the store. -/
def BwdDesc.blockEnds (a : BwdDesc) : List Nat :=
  let n := a.kb * a.d
  [a.blk.kAddr + n * elemBytes a.fmtQk, a.blk.vAddr + n * elemBytes a.fmtV] ++ a.blk.spans.map (· + 128) ++
  (if a.mask.segEn then [a.blk.kseg + 2 * a.kb] else []) ++ (if a.ropeK then [a.rotAddr + n * elemBytes a.fmtQk] else []) ++
  (if a.kvInit then [] else [a.dkAddr + 4 * n, a.dvAddr + 4 * n]) ++ a.results.map (fun x => x.1 + x.2)

/-- Where the dQ of a tile goes, with its length. -/
def BwdDesc.tileResult (a : BwdDesc) (t : BwdTile) : Nat × Nat :=
  if t.dqFinal then (t.dqOut, t.q.ext * a.d * elemBytes a.fmtGrad) else (t.dqAddr, 4 * t.q.ext * a.d)

/-- The tile entries that can be read, from the j-th on. -/
def Core.tilesFrom (c : Core) (a : BwdDesc) (j : Nat) : List BwdTile :=
  ((c.tileList a).drop j).filterMap (fun t => match t.1 with
    | .ok k => some k
    | .error _ => none)

/-- R171: the bytes that the instruction at `own` both writes and reads, gradients updated in place apart. -/
def Core.bwdOverlap (c : Core) (a : BwdDesc) (own : Nat) : List (Nat × Nat) :=
  let n := a.kb * a.d
  let ts := (c.tilesFrom a 0).zipIdx
  let tileReads (t : BwdTile) : List (List (Nat × Nat)) :=
    [[(t.q.qAddr, t.q.ext * a.d * elemBytes a.fmtQk)], [(t.doAddr, t.q.ext * a.d * elemBytes a.fmtDo)], [(t.lseAddr, 4 * t.q.ext)],
      [(t.ddAddr, 4 * t.q.ext)]] ++ (if a.mask.segEn then [[(t.q.qseg, 2 * t.q.ext)]] else [])
  let dqRead (t : BwdTile) : List (List (Nat × Nat)) := if t.dqInit then [] else [[(t.dqAddr, 4 * t.q.ext * a.d)]]
  let dk := if a.kvInit then [] else [[(a.dkAddr, 4 * n)]]
  let dv := if a.kvInit then [] else [[(a.dvAddr, 4 * n)]]
  let reads := [[(own, 128)], [(a.listAddr, 64 * a.nq)], a.blk.spans.map (fun p => (p, 128))] ++
    a.blk.runs (n * elemBytes a.fmtQk) (n * elemBytes a.fmtV) a.kb a.mask.segEn ++ ts.flatMap (fun t => tileReads t.1)
  let dq := ts.flatMap (fun t => dqRead t.1)
  let kv := a.results
  overlapRuns [kv.take 1] (reads ++ dq ++ dv ++ (if a.kvFinal then dk else [])) ++
  overlapRuns [kv.drop 1] (reads ++ dq ++ dk ++ (if a.kvFinal then dv else [])) ++
  ts.flatMap (fun t => overlapRuns [[a.tileResult t.1]]
    (reads ++ dk ++ dv ++ (ts.filter (fun u => decide (u.2 ≠ t.2) || t.1.dqFinal)).flatMap (fun u => dqRead u.1))) ++
  (if a.ropeK then overlapRuns [[(a.rotAddr, n * elemBytes a.fmtQk)]] (reads ++ dq ++ dk ++ dv) else [])

/-- ATTN.BWD but for R171's overlaps (R174 to R178, R184). -/
def AttnRun.backwardPass (y : AttnRun) (a : BwdDesc) : AttnRun × Option CoreErr :=
  let c := y.x.core
  let n := a.kb
  let zero : Val := .fin false 0 0
  let undef (z : AttnRun) : AttnRun := { z with x := ((List.range 8).foldl MatRun.freeSlot z.x).freeBlot }
  let lost (z : AttnRun) (j : Nat) : AttnRun :=
    { z with x := z.x.freeRuns (a.results ++ (c.tilesFrom a j).map a.tileResult) }
  match reachErr (maxNat a.blockEnds) 0 with
  | some e => (lost (undef y) 0, some e)
  | none =>
    let keys := c.keysOf a.blk
    let kk := y.x.blockKeys a.fmtQk a.d a.ropeK a.rotAddr n a.blk keys
    let ev := elemBytes a.fmtV
    let vz := (List.range n).map (fun t => c.elems a.fmtV (a.blk.vAddr + t * a.d * ev) a.d)
    let kz := (List.range n).map (fun t => match kk.2.1.find? (fun k => decide (k.1.t = t)) with
      | some k => k.2
      | none => List.replicate a.d zero)
    let st (p : Nat) : List (List W32) :=
      (List.range n).map (fun t => if a.kvInit then List.replicate a.d f32Zero else c.vec32 (p + 4 * a.d * t) a.d)
    let kvBad := kk.2.2 || c.stBad a.blk.vAddr (n * a.d * ev) || a.blk.spans.any (fun p => c.stBad p 128) ||
      (a.mask.segEn && c.stBad a.blk.kseg (2 * n)) ||
      (!a.kvInit && (c.stBad a.dkAddr (4 * n * a.d) || c.stBad a.dvAddr (4 * n * a.d)))
    let r := ({ y with x := kk.1 } : AttnRun).bwdTiles a n kk.2.1 kz vz kvBad ⟨st a.dkAddr, st a.dvAddr, kvBad⟩ (c.tileList a)
    let z := undef r.1
    match r.2.2 with
    | some e => (lost z e.tile, some e)
    | none =>
      let g := r.2.1
      if a.kvFinal then
        let fg := fmtOf a.fmtGrad
        let put (c0 : Core) (p : Nat) (rows : List (List W32 × Bool)) : Core := (rows.zipIdx).foldl (fun (c2 : Core) x =>
          let cv := convertList fg .rne 0 x.1.1
          c2.putElems fg (p + x.2 * a.d * elemBytes a.fmtGrad) cv.1 (cv.1.map (fun _ => g.bad || x.1.2))) c0
        let dk := (g.dk.zipIdx).map (fun x => match keys.find? (fun k => decide (k.t = x.2)) with
          | some k => c.conjRow a.d k.pos x.1
          | none => (x.1, false))
        ({ z with x := { z.x with core := put (put z.x.core a.dkOut dk) a.dvOut (g.dv.map (fun v => (v, false))) } }, none)
      else
        let c1 := z.x.core.stWriteAll a.dkAddr (f32Bytes g.dk.flatten) g.bad
        let c2 := c1.stWriteAll a.dvAddr (f32Bytes g.dv.flatten) g.bad
        ({ z with x := { z.x with core := c2 } }, none)

/-- ATTN.BWD (R171, R174 to R178, R184): bytes both written and read are undefined. -/
def AttnRun.backward (y : AttnRun) (a : BwdDesc) (own : Nat) : AttnRun × Option CoreErr :=
  let r := y.backwardPass a
  ({ r.1 with x := r.1.x.freeRuns (y.x.core.bwdOverlap a own) }, r.2)

/-- The rotary lines of ATTN.BWD: its rows and keys, for rotation and conjugate rotation. -/
def Core.bwdLines (c : Core) (a : BwdDesc) : List Nat :=
  let ts := (c.tileList a).filterMap (fun t => match t.1 with
    | .ok k => if a.ropeQ ∨ k.dqFinal then some ((List.range k.q.ext).map k.q.pos) else none
    | .error _ => none)
  c.rotLines (a.d / 2) (ts.flatten ++ (if a.ropeK ∨ a.kvFinal then (c.keysOf a.blk).map (fun k => k.pos % 2 ^ 48) else []))

end Sys2Proof.Machine
end

