-- ==== Sys2Proof/Machine/Attention.lean ====
section
/-! DEFINITION. The attention-sequence class of a compute core (R92, R155 to R185). -/

namespace Sys2Proof.Machine

/-- Ends an attention instruction: its events (R495 0x0D to 0x11), then it retires or faults. -/
def State.finishAttn (s : State) (n : CoreNo) (r : AttnRun × Option CoreErr) : State :=
  let s1 := (({ s with draws := r.1.x.draws }.setCore n r.1.x.core).countCore n 0x0D r.1.x.sat).countCore n 0x0E r.1.run
  let s2 := ((s1.countCore n 0x0F r.1.skip).countCore n 0x10 r.1.masked).countCore n 0x11 r.1.ds
  match r.2 with
  | some e => s2.coreFault n e
  | none => s2.retire n

/-- The core at work. -/
def State.attnRun (s : State) (n : CoreNo) : AttnRun := ⟨s.matRun n, 0, 0, 0, 0⟩

/-- R87, R184: runs `body` on the address and the bytes of an attention descriptor of `len` bytes; a poisoned one faults. -/
def State.withDesc (s : State) (n : CoreNo) (d : DescArg) (len : Nat) (body : Nat → List Byte → State) : State :=
  let c := s.core n
  match c.descAddr d with
  | .error e => s.coreFault n e
  | .ok a =>
    if storeSize < a + len then s.coreFault n (errStore (a + len))
    else if c.stBad a len then s.coreFault n errPoison
    else body a (c.stRead a len)

/-- The forward and decode sequences (R158 to R173). -/
def State.attnForward (s : State) (n : CoreNo) (d : DescArg) (dec : Bool) : State :=
  s.withDesc n d 128 (fun own b =>
    let c := s.core n
    let a := AttnDesc.ofBytes dec b
    if !attnLegal a (c.blockList a) then s.coreFault n (errShape 0 0)
    else s.withRot n (c.attnLines a) (fun s => s.finishAttn n ((s.attnRun n).forward a dec own)))

/-- ATTN.FWD (R158, R164). -/
def execAttnFwd (n : CoreNo) (d : DescArg) (s : State) : Host.Outcome State Fault Refusal :=
  .next (s.issue n .compute (fun s => s.attnForward n d false))

/-- ATTN.DEC (R164, R179). -/
def execAttnDec (n : CoreNo) (d : DescArg) (s : State) : Host.Outcome State Fault Refusal :=
  .next (s.issue n .compute (fun s => s.attnForward n d true))

/-- ATTN.BWD (R174 to R178). -/
def execAttnBwd (n : CoreNo) (d : DescArg) (s : State) : Host.Outcome State Fault Refusal :=
  .next (s.issue n .compute (fun s => s.withDesc n d 128 (fun own b =>
    let c := s.core n
    let a := BwdDesc.ofBytes b
    if !bwdLegal a (c.tileList a) then s.coreFault n (errShape 0 0)
    else s.withRot n (c.bwdLines a) (fun s => s.finishAttn n ((s.attnRun n).backward a own)))))

/-- ATTN.MERGE (R180, R181). -/
def execAttnMerge (n : CoreNo) (d : DescArg) (s : State) : Host.Outcome State Fault Refusal :=
  .next (s.issue n .compute (fun s => s.withDesc n d 64 (fun own b => s.finishAttn n ((s.attnRun n).mergeAll (MergeDesc.ofBytes b) own))))

end Sys2Proof.Machine
end

