-- ==== Sys2Proof/Machine/MoveOps.lean ====
section
/-! DEFINITION. Work on pages inside a folio: reading through its own writes, page tables (R211, R212, R402), charged
frames (R224 to R226), moving a page to a new home (R218 to R222), and why an order cannot go on. -/

namespace Sys2Proof.Machine

/-- Why an order does not go on: it ends with a code (and a page address), with a translation failure,
with a poisoned record of the module (R456), or with
STATE_REJECT naming states; or it waits: on a spill of a tier (R225), or for board memory to be initialised (R500). `read` says
that an engine's read came first (R235), `at_` which page of which stream the order was at (R268). -/
inductive OrdErr where
  | code (c : Nat) (page : Nat)
  | detail (c : Nat) (d : List Byte)
  | fault (f : PFault)
  | poisoned (ua : Nat)
  | reject (scope : Nat) (mask : Byte)
  | spill (tier : Nat)
  | uninit
  | read (q : WalkReq) (n : Nat) (e : OrdErr)
  | at_ (stream page : Nat) (e : OrdErr)
  deriving DecidableEq, Repr

/-- The view of a folio on memory: its own writes over the homes (R241). -/
def FX.view (x : FX) : View := .own x.f.journal

/-- Sorts by a test, stable. -/
def insertBy {α : Type} (lt : α → α → Bool) (a : α) : List α → List α
  | [] => [a]
  | b :: r => if lt a b then a :: b :: r else b :: insertBy lt a r

/-- Sorts by a test. -/
def sortBy {α : Type} (lt : α → α → Bool) (l : List α) : List α := l.foldr (insertBy lt) []

/-- Bytes as the folio sees them. -/
def FX.read (x : FX) (ua n : Nat) : List Byte := (x.s.readUa x.view ua n).1

/-- A field as the folio sees it. -/
def FX.readLe (x : FX) (ua n : Nat) : Nat := (x.s.readLe x.view ua n).1

/-- Some granule of a stretch is poisoned as the folio sees it. -/
def FX.bad (x : FX) (ua n : Nat) : Bool := (x.s.readUa x.view ua n).2

/-- R241, R244: the folio writes bytes at unified addresses, taking intent on their pages. -/
def FX.writeUa (x : FX) (ua : Nat) (bs : List Byte) (bad : Nat → Bool) : FX := x.write true (piecesOf ua bs bad)

/-- R244, R261, R288: writes clean bytes of a descriptor, taking intent on its page as any write does. -/
def FX.writeOwn (x : FX) (ua : Nat) (bs : List Byte) : FX := x.writeUa ua bs (fun _ => false)

/-- The request of an engine's read that sees the folio's own writes (R241). -/
def FX.dvReq (x : FX) (p : PartNo) (master addr : Nat) : WalkReq := { x.s.engineReq p addr 0 master with view := x.view }

/-- R235, R241: an engine that works in a folio reads device-virtual space: the folio, the bytes, whether any is poisoned. -/
def FX.dvRead (x : FX) (p : PartNo) (master addr n : Nat) : Except PFault (FX × List Byte × Bool) :=
  let q := x.dvReq p master addr
  (x.s.readVa q n).map (fun r => ({ x with s := x.s.touchVa 0 q n }, r))

/-- R224 to R226, R500: charges and takes one frame inside the folio. A class P charge beyond its quota is refused, one of
class B waits on a spill, or is refused in flash. -/
def FX.alloc (x : FX) (p : PartNo) (tier mask : Nat) (b tbl wt : Bool) : Except OrdErr (FX × Nat) :=
  if !x.s.fits p tier (b && !tbl) 1 then
    .error (if b && !tbl && decide (tier < 2) then .spill tier else .code 0x0203 0)
  else match x.s.allocOne p tier mask b tbl wt with
    | none => .error (.code 0x0203 0)
    | some (f, s1) => if x.s.frameBad f then .error (.poisoned ((x.s.ftAddr f).getD 0)) else if s1.initialised f then .ok (({ x with s := s1 } : FX).addFrame f, f) else .error .uninit

/-- R456: an order that reads a frame-table entry found poisoned fails with it. -/
def FX.frameOk (x : FX) (f : Nat) : Except OrdErr Unit :=
  if x.s.frameBad f then .error (.poisoned ((x.s.ftAddr f).getD 0)) else .ok ()

/-- Where a request's root table lies, as the folio sees it. -/
def FX.req (x : FX) (p : PartNo) (space ctx addr access master : Nat) : WalkReq :=
  ⟨p, space, ctx, addr, access, master, x.view, x.s.home p⟩

/-- R47, R48: the level-3 entry's address below a given root, if every table on the way is present. -/
def FX.entryAt (x : FX) (q : WalkReq) (root addr : Nat) : Except PFault (Option Nat) :=
  let qa := { q with addr := addr, view := x.view }
  let a1 := root + 8 * bits addr 40 12
  let r1 := x.s.readLe x.view a1 8
  if r1.2 then .error { qa.fault 8 1 r1.1 with tableBad := some a1 }
  else match tableEntryKind r1.1 with
    | 0 => .ok none
    | 1 => .error (qa.fault 8 1 r1.1)
    | _ =>
      let a2 := nextTable r1.1 + 8 * bits addr 28 12
      let r2 := x.s.readLe x.view a2 8
      if r2.2 then .error { qa.fault 8 2 r2.1 with tableBad := some a2 }
      else match tableEntryKind r2.1 with
        | 0 => .ok none
        | 1 => .error (qa.fault 8 2 r2.1)
        | _ => .ok (some (nextTable r2.1 + 8 * bits addr 16 12))

/-- The level-3 entry of an address: where it lies and its value; value 0 where a table is absent. A poisoned granule of
the table stops the walk (R456). -/
def FX.lookup (x : FX) (q : WalkReq) (root addr : Nat) : Except PFault (Option Nat × Nat) :=
  match x.entryAt q root addr with
  | .error e => .error e
  | .ok none => .ok (none, 0)
  | .ok (some a) =>
    let r := x.s.readLe x.view a 8
    if r.2 then .error { ({ q with addr := addr } : WalkReq).fault 8 3 r.1 with tableBad := some a }
    else .ok (some a, r.1)

/-- R402: the table that an entry of level 1 or 2 names, allocated when it is absent: a class P table frame of HBM, cleared,
named by the entry. -/
def FX.nextOrNew (x : FX) (q : WalkReq) (a level : Nat) : Except OrdErr (FX × Nat) :=
  let r := x.s.readLe x.view a 8
  if r.2 then .error (.fault { q.fault 8 level r.1 with tableBad := some a })
  else match tableEntryKind r.1 with
    | 1 => .error (.fault (q.fault 8 level r.1))
    | 0 => match x.alloc q.part 0 0 false true false with
      | .error e => .error e
      | .ok (y, f) =>
        let z := ({ y with s := y.s.zeroFrame f } : FX).entry a (1 + f * 65536)
        .ok (z, 65536 * f)
    | _ => .ok (x, nextTable r.1)

/-- R402: the level-3 entry's address, its missing tables allocated. -/
def FX.entryNew (x : FX) (q : WalkReq) (root addr : Nat) : Except OrdErr (FX × Nat) :=
  let qa := { q with addr := addr }
  match x.nextOrNew qa (root + 8 * bits addr 40 12) 1 with
  | .error e => .error e
  | .ok (y, t2) => match y.nextOrNew qa (t2 + 8 * bits addr 28 12) 2 with
    | .error e => .error e
    | .ok (z, t3) => .ok (z, t3 + 8 * bits addr 16 12)

/-- R211: a present level-3 entry. -/
def leafEntry (f tier : Nat) (writable : Bool) : Nat := 1 + flagAt writable 1 + tier * 32 + f * 65536

/-- R242: writes what sets up a new frame's table entry straight: the references to a frame allocated inside the folio. -/
def FX.setRefs (x : FX) (f n : Nat) : FX := { x with s := x.s.setFrame f { x.s.frame f with refs := n } }

/-- R211: an entry that names a frame in a tier instead of its own. -/
def entryMoved (e f tier : Nat) : Nat := e % 32 + tier * 32 + (e / 128 % 512) * 128 + f * 65536

/-- R218, R220, R221: moves the frame that the level-3 entries at `uas` name to a frame `nf` allocated inside the folio:
intent on the page, its bytes and marks read (R235) and copied (when `copy`), its entries changed without intent on their tables, its
references moved. -/
def FX.moveFrame (x : FX) (old nf tier : Nat) (uas : List Nat) (copy : Bool) : FX :=
  let x1 := x.intent old true
  let t := x1.s.touchFrame 2 (some x1.f.part) old
  let x2 := if copy then { x1 with s := t.copyFrame old nf } else { x1 with s := t }
  let x3 := x2.setRefs nf uas.length
  let x4 := uas.foldl (fun y a => (y.entryFree a (entryMoved (y.readLe a 8) nf tier)).delta old false) x3
  { x4 with f := { x4.f with moved := x4.f.moved ++ [(old, nf)] } }

/-- R216: names a frame with `k` more references: refused beyond 65,535, counting the +1 deltas of the open folios and those
this folio has recorded (R273). -/
def FX.refsFit (x : FX) (f k : Nat) : Bool := decide ((x.s.frame f).refs + x.plusDeltas f + k ≤ 65535)

/-- What an order that cannot go on ends with; a poisoned table granule is recorded (R456). -/
def State.failOrder (s : State) (p : PartNo) : OrdErr → State × Done
  | .read q n e => State.failOrder (s.touchVa 0 q n) p e
  | .at_ _ _ e => State.failOrder s p e
  | .code c _ => (s, Done.of c)
  | .detail c d => (s, { Done.of c with detail := d })
  | .fault f => (s.pfRecord p f, { Done.of 0x0201 with detail := f.detail })
  | .poisoned ua => (s.tablePoison (some p) ua, Done.of 0x020C)
  | .reject sc m => (s, Done.reject sc m)
  | .spill _ => (s, Done.of 0x0203)
  | .uninit => (s, Done.of 0x0203)

/-- R488: an event of a memory-side die that a folio's work causes. -/
def FX.count (x : FX) (m : MDie) (ev inc : Nat) : FX :=
  { x with s := x.s.countDie m.val ⟨ev, inc, 0, 2, 2, some x.f.part, none, none⟩ }

/-- The command of a block, its order found among those taken; a submitted block's own address is past use here. -/
def State.jobOf (s : State) (p : PartNo) (block : List Byte) (order : Option Nat) : Job :=
  ⟨p, block, match order with
    | none => .submit 0
    | some id => match s.orderById id with
      | some o => .order o
      | none => .submit 0⟩

end Sys2Proof.Machine
end

