-- ==== Sys2Proof/Machine/CodexOps.lean ====
section
/-! DEFINITION. The codex: index descriptors and areas (R288 to R292), glyphs (R293, R294), node and item records (R295 to
R298), the walk (R302, R303), inserts and repairs (R306, R307). -/

namespace Sys2Proof.Machine

/-! Descriptors and areas (R291, R292) -/

/-- The master of codex accesses: a margin engine (R215, R289). -/
def masterMargin : Nat := 0x8040

/-- R291: where the descriptor of an index lies. -/
def State.ixAddr (s : State) (p : PartNo) (i : Nat) : Option Nat :=
  let b := (Tab.get 0 s.mem.codexBase (s.home p).val).toNat
  if bitOf b 0 ∧ i < 255 then some (bits b 16 32 * 65536 + 256 * i) else none

/-- An index at work: its number, where its descriptor lies, and the descriptor as the folio sees it. -/
structure Ix where
  i : Nat
  a : Nat
  d : List Byte
  deriving DecidableEq, Repr

/-- A descriptor field. -/
def Ix.f (x : Ix) (a n : Nat) : Nat := leField x.d a n

/-- R290: class L. -/
def Ix.large (x : Ix) : Bool := decide (x.f 3 1 = 1)

/-- R290: the degree. -/
def Ix.degree (x : Ix) : Nat := if x.large then 80 else 64

/-- R292: bytes of a record. -/
def Ix.recBytes (x : Ix) : Nat := 4096 * x.f 7 1

/-- R288, R456: the LIVE index of a partition. -/
def FX.ix (x : FX) (p : PartNo) (i : Nat) : Except OrdErr Ix :=
  match x.s.ixAddr p i with
  | none => .error (.code 0x0603 0)
  | some a =>
    if x.bad a 256 then .error (.poisoned a)
    else
      let y : Ix := ⟨i, a, x.read a 256⟩
      if y.f 2 1 = 1 ∧ y.f 5 1 = p.val then .ok y else .error (.code 0x0603 0)

/-- The index again, as the folio sees it now. -/
def FX.reload (x : FX) (y : Ix) : Ix := { y with d := x.read y.a 256 }

/-- Writes a descriptor field, which only the module does. -/
def FX.setIx (x : FX) (y : Ix) (a n v : Nat) : FX := x.writeOwn (y.a + a) (leBytes n v)

/-- Reads a partition's areas as a margin engine does: bytes, and whether any granule is poisoned. -/
def FX.areaRead (x : FX) (p : PartNo) (addr n : Nat) : Except PFault (List Byte × Bool) :=
  x.s.readVa (x.req p 0 0 addr 3 masterMargin) n

/-- Writes a partition's areas in the folio. -/
def FX.areaWrite (x : FX) (p : PartNo) (addr : Nat) (bs : List Byte) (bad : Nat → Bool) : Except OrdErr FX :=
  match x.s.translateAll (x.req p 0 0 addr 1 masterMargin) (pagePieces addr bs.length) with
  | .error e => .error (.fault e)
  | .ok ts => .ok (x.write true (transPieces ts bs bad))

/-- Where a stretch of an area's first byte lies. -/
def FX.areaUa (x : FX) (p : PartNo) (addr : Nat) : Except OrdErr Nat :=
  match x.s.translate (x.req p 0 0 addr 1 masterMargin) with
  | .error e => .error (.fault e)
  | .ok t => .ok t.ua

/-- R306, R307: writes a field that takes the epoch of the folio's seal. -/
def FX.stamp (x : FX) (p : PartNo) (addr : Nat) : Except OrdErr FX :=
  match x.areaUa p addr with
  | .error e => .error e
  | .ok ua => match x.areaWrite p addr (leBytes 4 0) (fun _ => false) with
    | .error e => .error e
    | .ok y => .ok { y with f := { y.f with stamps := y.f.stamps ++ [ua] } }

/-- Reads an area, an unreadable one ending the order. -/
def FX.area (x : FX) (p : PartNo) (addr n : Nat) : Except OrdErr (List Byte × Bool) :=
  match x.areaRead p addr n with
  | .error e => .error (.fault e)
  | .ok r => .ok r

def Ix.nodeAddr (x : Ix) (n : Nat) : Nat := x.f 40 8 + 4096 * n
def Ix.recAddr (x : Ix) (n : Nat) : Nat := x.f 48 8 + x.recBytes * n
def Ix.stateAddr (x : Ix) (n : Nat) : Nat := x.f 56 8 + 16 * n
def Ix.groupAddr (x : Ix) (m : Nat) : Nat := x.f 64 8 + 16 * m
def Ix.subAddr (x : Ix) (g : Nat) : Nat := x.f 72 8 + 32 * g

/-! Glyphs (R293, R294) -/

/-- R293: one step of the generator. -/
def lfsrStep (s : Nat) : Nat := if s % 2 = 1 then (s / 2) ^^^ 0xD800000000000000 else s / 2

/-- R293: one glyph bit: the generator after it, and the exact sum. -/
def glyphBit (xs : List Int) (s : Nat) : Nat × Int :=
  xs.foldl (fun a x => (lfsrStep a.1, if a.1 % 2 = 1 then a.2 + x else a.2 - x)) (s, 0)

/-- R293: the glyph of a vector given in whole units. -/
def glyphOf (seed : Nat) (xs : List Int) : BitVec 256 :=
  BitVec.ofNat 256 ((List.range 256).foldl (fun (a : Nat × Nat) b =>
    let r := glyphBit xs a.1
    (r.1, a.2 + flagAt (decide (0 < r.2)) b)) (if seed = 0 then 0x9E3779B97F4A7C15 else seed, 0)).2

/-- A finite value in units of 2^-320; none for NaN and infinities. -/
def glyphUnits : Val → Option Int
  | .fin neg m e => some (unitsAt neg m e (-320))
  | _ => none

/-- The sum of rows, element by element; none where a row holds a value that is not finite. -/
def sumRows (dim : Nat) (rows : List (List Val)) : Option (List Int) :=
  let us := rows.map (fun r => r.map glyphUnits)
  if us.any (fun r => r.any Option.isNone) then none
  else some ((List.range dim).map (fun j => (us.map (fun r => (r.getD j none).getD 0)).foldl (· + ·) 0))

/-- A free glyph, where an input is not finite: the manual states no sum there (log 1). -/
def State.freeGlyph (s : State) : BitVec 256 × State :=
  (Config.freeW64 s.draws ++ Config.freeW64 (s.draws + 1) ++ Config.freeW64 (s.draws + 2) ++ Config.freeW64 (s.draws + 3),
   { s with draws := s.draws + 4 })

/-- R294: the glyph of the sum of rows. -/
def State.glyphOfRows (s : State) (seed dim : Nat) (rows : List (List Val)) : BitVec 256 × State :=
  match sumRows dim rows with
  | some xs => (glyphOf seed xs, s)
  | none => s.freeGlyph

/-- R134: an entry of the angle tables in memory, and its poison. -/
def FX.rotEntry (x : FX) (p : PartNo) (base f l pos : Nat) : Except OrdErr ((W32 × W32) × Bool) :=
  match x.area p (base + rotOffset f l (rotDigit pos l)) 8 with
  | .error e => .error e
  | .ok (b, bad) => .ok ((BitVec.ofNat 32 (leField b 0 4), BitVec.ofNat 32 (leField b 4 4)), bad)

/-- R135: the rotation of a frequency at a position. -/
def FX.rotOf (x : FX) (p : PartNo) (base f pos : Nat) : Except OrdErr ((W32 × W32) × Bool) := do
  let w0 ← x.rotEntry p base f 0 pos
  let w1 ← x.rotEntry p base f 1 pos
  let w2 ← x.rotEntry p base f 2 pos
  let w3 ← x.rotEntry p base f 3 pos
  pure (composeRot w0.1 w1.1 w2.1 w3.1, w0.2 || w1.2 || w2.2 || w3.2)

/-- R136: a row rotated at a position in FP32, before its rounding, and whether an entry is poisoned. -/
def FX.rotRow (x : FX) (p : PartNo) (base dim pos : Nat) (vs : List Val) : Except OrdErr (List Val × Bool) := do
  let z : Val := .fin false 0 0
  let h := dim / 2
  let ws ← (List.range h).mapM (fun f => x.rotOf p base f (pos % 2 ^ 48))
  let ps := (ws.zipIdx).map (fun w => rotPairV w.1.1 (vs.getD w.2 z) (vs.getD (w.2 + h) z))
  pure (ps.map (·.1) ++ ps.map (·.2), ws.any (fun w => w.2))

/-- Elements of a row of bytes. -/
def rowVals (fmt : ElemFmt) (bs : List Byte) (n : Nat) : List Val :=
  (List.range n).map (fun i => fmt.decode (leField bs (i * (fmt.width / 8)) (fmt.width / 8)))

/-- R294: the rows that make a span's or a query's glyph: as they stand, or rotated at a position. -/
def FX.glyphRows (x : FX) (p : PartNo) (y : Ix) (pos : Nat) (rows : List (List Val)) : Except OrdErr (List (List Val)) :=
  if y.f 6 1 = 1 then rows.mapM (fun r => (x.rotRow p (y.f 32 8) (y.f 8 2) pos r).map (·.1)) else pure rows

/-! Nodes and items (R295 to R298) -/

/-- An entry of a node. -/
structure NEnt where
  glyph : BitVec 256
  attr : W64
  n : Nat
  deriving DecidableEq, Repr

/-- A node record (R295). -/
structure NodeRec where
  dead : Nat
  flags : Nat
  index : Nat
  n : Nat
  subgraph : Nat
  glyph : BitVec 256
  attr : W64
  ents : List NEnt
  deriving DecidableEq, Repr

/-- R295: bytes of a neighbour entry. -/
def Ix.entBytes (x : Ix) : Nat := if x.large then 40 else 48

/-- R295: a node from its bytes. -/
def Ix.node (x : Ix) (b : List Byte) : NodeRec :=
  let w := x.entBytes
  { dead := leField b 3 1, flags := leField b 4 1, index := leField b 5 1, n := leField b 8 5, subgraph := leField b 16 4,
    glyph := BitVec.ofNat 256 (leField b 24 32), attr := BitVec.ofNat 64 (leField b 56 8),
    ents := (List.range (min x.degree (leField b 2 1))).map (fun j =>
      let o := 64 + w * j
      if x.large then ⟨BitVec.ofNat 256 (leField b o 32), 0, leField b (o + 32) 5⟩
      else ⟨BitVec.ofNat 256 (leField b o 32), BitVec.ofNat 64 (leField b (o + 32) 8), leField b (o + 40) 5⟩) }

/-- R295: the bytes of a node, with its check. -/
def Ix.nodeBytes (x : Ix) (r : NodeRec) : List Byte :=
  let ent (e : NEnt) : List Byte :=
    if x.large then leBytes 32 e.glyph.toNat ++ leBytes 5 e.n ++ List.replicate 3 0
    else leBytes 32 e.glyph.toNat ++ leBytes 8 e.attr.toNat ++ leBytes 5 e.n ++ List.replicate 3 0
  let head := leBytes 1 0x52 ++ leBytes 1 1 ++ leBytes 1 r.ents.length ++ leBytes 1 r.dead ++ leBytes 1 r.flags ++
    leBytes 1 r.index ++ leBytes 2 0 ++ leBytes 5 r.n ++ leBytes 3 0 ++ leBytes 4 r.subgraph ++ leBytes 4 0 ++
    leBytes 32 r.glyph.toNat ++ leBytes 8 r.attr.toNat
  let body := head ++ r.ents.flatMap ent
  let b := body ++ List.replicate (4092 - body.length) 0
  b ++ leBytes 4 (crc32c b)

/-- R295: reads a node; none when it is poisoned or its check fails. -/
def FX.node (x : FX) (p : PartNo) (y : Ix) (n : Nat) : Except OrdErr (Option NodeRec) :=
  match x.area p (y.nodeAddr n) 4096 with
  | .error e => .error e
  | .ok (b, bad) => .ok (if bad || decide (crc32c (b.take 4092) ≠ leField b 4092 4) then none else some (y.node b))

/-- Writes a node in the folio. -/
def FX.putNode (x : FX) (p : PartNo) (y : Ix) (r : NodeRec) : Except OrdErr FX :=
  x.areaWrite p (y.nodeAddr r.n) (y.nodeBytes r) (fun _ => false)

/-- The Hamming distance of glyphs. -/
def hamming (a b : BitVec 256) : Nat := ((List.range 256).filter (fun i => (a ^^^ b).getLsbD i)).length

/-- R297: an epoch field is at or before a query's epoch. -/
def State.atOrBefore (s : State) (settled : Bool) (f e : W32) : Bool :=
  settled || decide ((s.fol.epoch - e).toNat ≤ (s.fol.epoch - f).toNat)

/-- R297: an item's state entry, poisoned or not. -/
def FX.itemState (x : FX) (p : PartNo) (y : Ix) (n : Nat) : Except OrdErr (List Byte × Bool) := x.area p (y.stateAddr n) 16

/-- R297: the state entry says visible at an epoch. -/
def State.visible (s : State) (b : List Byte) (e : W32) : Bool :=
  let fl := leField b 8 1
  bitOf fl 0 && s.atOrBefore (bitOf fl 2) (BitVec.ofNat 32 (leField b 0 4)) e &&
  !(bitOf fl 1 && s.atOrBefore (bitOf fl 3) (BitVec.ofNat 32 (leField b 4 4)) e)

/-! The walk (R302, R303) -/

/-- What a walk looks for: its limits, and the checks of its offers. `epoch` is none for an insert, whose offers skip
tombstoned items. -/
structure WalkReqC where
  k : Nat
  rerank : Nat
  prefetch : Nat
  glyph : BitVec 256
  pred : Option (W32 × W16 × W16 × W16 × W16 × Bool)
  bitmap : Nat
  epoch : Option W32
  deriving DecidableEq, Repr

/-- R302: the order of candidates. -/
def Cand.before (a b : Cand) : Bool := decide (a.dist < b.dist) || (decide (a.dist = b.dist) && decide (a.n < b.n))

/-- Puts a candidate into its place. -/
def insertCand (c : Cand) (l : List Cand) : List Cand := l.takeWhile (fun x => x.before c) ++ c :: l.dropWhile (fun x => x.before c)

/-- R302: the bit of the visited filter. -/
def seenBit (n : Nat) : Nat := (n * 0x9E3779B97F4A7C15) % 2 ^ 64 / 2 ^ 45

/-- R303 step 2: an attribute passes a predicate. -/
def attrPasses (pr : W32 × W16 × W16 × W16 × W16 × Bool) (a : W64) : Bool :=
  let seq := BitVec.ofNat 32 (bits a.toNat 0 32)
  let tag := BitVec.ofNat 16 (bits a.toNat 32 16)
  let bkt := bits a.toNat 48 16
  (decide (seq = pr.1) || pr.2.2.2.2.2) && decide (tag &&& pr.2.1 = pr.2.2.1) &&
  decide (pr.2.2.2.1.toNat ≤ bkt) && decide (bkt ≤ pr.2.2.2.2.1.toNat)

/-- R303: offers a candidate to the allowed list, by the checks in their order. A look-up that finds poison fails. -/
def FX.offer (x : FX) (p : PartNo) (y : Ix) (q : WalkReqC) (st : WalkSt) (c : Cand) : Except OrdErr WalkSt :=
  if !(decide (st.allowed.length < q.rerank) || (match st.allowed.getLast? with
      | some l => c.before l
      | none => false)) then .ok st
  else if !(match q.pred with
      | some pr => attrPasses pr c.attr
      | none => true) then .ok st
  else do
    let bit ← if q.bitmap = 0 then pure true
      else do
        let b ← x.area p (q.bitmap + c.n / 8) 1
        pure (bitOf (leField b.1 0 1) (c.n % 8) && !b.2)
    if !bit then pure st
    else do
      let sb ← x.itemState p y c.n
      let ok := !sb.2 && (match q.epoch with
        | some e => x.s.visible sb.1 e
        | none => !bitOf (leField sb.1 8 1) 1)
      if ok then pure { st with allowed := (insertCand c st.allowed).take q.rerank } else pure st

/-- R302: takes up one neighbour. -/
def FX.meet (x : FX) (p : PartNo) (y : Ix) (q : WalkReqC) (st : WalkSt) (e : NEnt) : Except OrdErr WalkSt :=
  let h := seenBit e.n
  if st.seen.get h = 1 then .ok st
  else
    let c : Cand := ⟨hamming q.glyph e.glyph, e.n, false, e.glyph, e.attr⟩
    x.offer p y q { st with seen := st.seen.set h 1, queue := (insertCand c st.queue).take st.beam } c

/-- R302: issues the next batch; with none left, a list that is short widens the beam once. -/
def WalkSt.issue (st : WalkSt) (k prefetch : Nat) : WalkSt :=
  let b := ((st.queue.filter (fun c => !c.expanded)).take prefetch).map (fun c => c.n)
  if b = [] ∧ st.allowed.length < k ∧ st.beam < 512 then { st with batch := [], beam := 512, widened := true }
  else { st with batch := b, reads := st.reads + b.length }

/-- R302: a walk's start at its entry. The distance and attribute of the entry are those of its node; a poisoned entry is
not offered. -/
def FX.walkStart (x : FX) (p : PartNo) (y : Ix) (q : WalkReqC) (beam entry : Nat) : Except OrdErr WalkSt := do
  let nd ← x.node p y entry
  let st : WalkSt := ⟨[], [], Cells.set [] (seenBit entry) 1, [], beam, false, 0, 0, 0⟩
  match nd with
  | none => pure { st with queue := [⟨0, entry, false, 0, 0⟩] }
  | some r =>
    let c : Cand := ⟨hamming q.glyph r.glyph, entry, false, r.glyph, r.attr⟩
    x.offer p y q { st with queue := [c] } c

/-- R302: the nodes of a batch have been read: each is expanded in queue order. -/
def FX.walkMerge (x : FX) (p : PartNo) (y : Ix) (q : WalkReqC) (st : WalkSt) : Except OrdErr WalkSt :=
  st.batch.foldlM (fun w n => do
    let w1 := { w with queue := w.queue.map (fun c => if c.n = n then { c with expanded := true } else c),
                       expansions := w.expansions + 1 }
    let nd ← x.node p y n
    match nd with
    | none => pure { w1 with poisoned := w1.poisoned + 1 }
    | some r => r.ents.foldlM (fun v e => x.meet p y q v e) w1) { st with batch := [] }

/-- R302: a whole walk, as an insert runs it, and the nodes it has expanded; each round expands nodes not seen before, so the
filter bounds it. -/
def FX.walkAll (x : FX) (p : PartNo) (y : Ix) (q : WalkReqC) : WalkSt → List Nat → Nat → Except OrdErr (WalkSt × List Nat)
  | st, seen, 0 => .ok (st, seen)
  | st, seen, n + 1 =>
    let st1 := st.issue q.k q.prefetch
    if st1.batch = [] then .ok (st1, seen)
    else match x.walkMerge p y q st1 with
      | .error e => .error e
      | .ok st2 => FX.walkAll x p y q st2 (seen ++ st1.batch) n

/-! Inserts (R306) -/

/-- R306 step 4: a neighbour takes the new item into its list: appended, in place of its farthest entry, or not at all. -/
def Ix.link (y : Ix) (r : NodeRec) (e : NEnt) : Option NodeRec :=
  if r.ents.length < y.degree then some { r with ents := r.ents ++ [e] }
  else
    let key (v : NEnt) : Nat × Nat := (hamming r.glyph v.glyph, v.n)
    let far (a b : Nat × Nat) : Bool := decide (a.1 < b.1) || (decide (a.1 = b.1) && decide (a.2 < b.2))
    match (List.range r.ents.length).foldl (fun (b : Option (Nat × (Nat × Nat))) i => match r.ents[i]? with
        | none => b
        | some v => match b with
          | none => some (i, key v)
          | some w => if far w.2 (key v) then some (i, key v) else b) none with
    | none => none
    | some (i, k) => if far (key e) k then some { r with ents := r.ents.set i e } else none

/-- What an insert writes beside its links: local number, glyph, attribute, record with its poison. -/
structure NewItem where
  n : Nat
  glyph : BitVec 256
  attr : W64
  data : List Byte
  bad : Bool
  deriving DecidableEq, Repr

/-- R300: the work of an order that its record counts. -/
structure CodexWork where
  expansions : Nat
  reads : Nat
  poisoned : Nat
  deriving DecidableEq, Repr

/-- No work. -/
def CodexWork.zero : CodexWork := ⟨0, 0, 0⟩

/-- Work on top of work. -/
def CodexWork.plus (a b : CodexWork) : CodexWork := ⟨a.expansions + b.expansions, a.reads + b.reads, a.poisoned + b.poisoned⟩

/-- R306: inserts one item into subgraph `g` of an index: its walk expands nodes, and the nodes of reverse-link targets that
were not expanded are read beside. -/
def FX.insertItem (x : FX) (p : PartNo) (y0 : Ix) (g : Nat) (it : NewItem) : Except OrdErr (FX × CodexWork) := do
  let y := x.reload y0
  let sub ← x.area p (y.subAddr g) 32
  let live := bitOf (leField sub.1 15 1) 0
  let found ← (if !live then pure ([], CodexWork.zero, [])
    else do
      let q : WalkReqC := ⟨1, y.degree, 4, it.glyph, none, 0, none⟩
      let st ← x.walkStart p y q (if y.f 14 2 = 0 then 32 else y.f 14 2) (leField sub.1 0 5)
      let w ← x.walkAll p y q st [] 524289
      pure (w.1.allowed.map (fun c => (⟨c.glyph, c.attr, c.n⟩ : NEnt)), ⟨w.1.expansions, w.1.reads, w.1.poisoned⟩, w.2) :
    Except OrdErr (List NEnt × CodexWork × List Nat))
  let ents := found.1
  let me : NEnt := ⟨it.glyph, it.attr, it.n⟩
  let x1 ← (ents.take (y.f 12 1)).foldlM (fun (a : FX × CodexWork) e => do
    let nd ← a.1.node p y e.n
    let w : CodexWork := if e.n ∈ found.2.2 then a.2 else a.2.plus ⟨0, 1, if nd.isNone then 1 else 0⟩
    match nd with
    | none => pure (a.1, w)
    | some r => match y.link r me with
      | none => pure (a.1, w)
      | some r1 => do
        let z ← a.1.putNode p y r1
        pure (z, w)) (x, found.2.1)
  let x2 ← x1.1.putNode p y { dead := 0, flags := flagAt (!live) 2, index := y.i, n := it.n, subgraph := g, glyph := it.glyph,
                              attr := it.attr, ents := ents }
  let x3 ← x2.areaWrite p (y.recAddr it.n) ((it.data ++ List.replicate (y.recBytes - it.data.length) 0).take y.recBytes)
    (fun _ => it.bad)
  let x4 ← x3.areaWrite p (y.stateAddr it.n) (leBytes 4 0 ++ leBytes 4 0 ++ leBytes 1 1 ++ leBytes 7 0) (fun _ => false)
  let x5 ← x4.stamp p (y.stateAddr it.n)
  let e := if live then leField sub.1 0 5 else it.n
  let x6 ← x5.areaWrite p (y.subAddr g) (leBytes 5 e) (fun _ => false)
  let x7 ← x6.areaWrite p (y.subAddr g + 15) ([BitVec.ofNat 8 (leField sub.1 15 1 ||| 1)] ++ leBytes 8 (leField sub.1 16 8 + 1))
    (fun _ => false)
  pure ((x7.setIx y 104 8 (y.f 104 8 + 1)).count (x7.s.home p) 0x18 1, x1.2)

/-- R306: takes a fresh group, or none when the index is full. -/
def FX.freshGroup (x : FX) (p : PartNo) (y0 : Ix) : Except OrdErr (Option (FX × Nat)) :=
  let y := x.reload y0
  if y.f 120 8 ≠ 2 ^ 64 - 1 then do
    let m := y.f 120 8
    let ge ← x.area p (y.groupAddr m) 16
    let nx := leField ge.1 10 5
    pure (some (x.setIx y 120 8 (if nx = 2 ^ 40 - 1 then 2 ^ 64 - 1 else nx), m))
  else if y.f 96 8 + 16 ≤ y.f 88 8 then pure (some (x.setIx y 96 8 (y.f 96 8 + 16), y.f 96 8 / 16))
  else pure none

/-- R298: links a fresh group as the tail of a subgraph, with its entry's position and scales and `fill` slots used; `live`
says that the subgraph has a group already. -/
def FX.linkGroup (x : FX) (p : PartNo) (y : Ix) (g m : Nat) (live : Bool) (pos : Nat) (kexp vexp : Int) (fill : Nat) :
    Except OrdErr FX := do
  let sub ← x.area p (y.subAddr g) 32
  let x1 ← x.areaWrite p (y.groupAddr m)
    (leBytes 6 pos ++ leBytes 2 (kexp % 65536).toNat ++ leBytes 2 (vexp % 65536).toNat ++ leBytes 5 (2 ^ 40 - 1) ++ leBytes 1 0)
    (fun _ => false)
  let x2 ← if live then x1.areaWrite p (y.groupAddr (leField sub.1 10 5) + 10) (leBytes 5 m) (fun _ => false) else pure x1
  let x3 ← x2.areaWrite p (y.subAddr g + 5) (leBytes 5 (if live then leField sub.1 5 5 else m) ++ leBytes 5 m) (fun _ => false)
  x3.areaWrite p (y.subAddr g + 24) (leBytes 1 fill) (fun _ => false)

/-! Deletes and repairs (R307) -/

/-- R307: more than 20% of a node's neighbourhood is dead. -/
def NodeRec.needsRepair (r : NodeRec) : Bool := decide (r.ents.length < 5 * r.dead)

/-- R307: one listed id: tombstoned, or skipped. The answer counts the skipped and the node reads. An item whose node is
poisoned or fails its check is tombstoned in its state entry alone (log 130). A node flagged for repair is repaired once the
folio has sealed. -/
def FX.deleteItem (x : FX) (p : PartNo) (y0 : Ix) (id : Nat) : Except OrdErr (FX × Nat × CodexWork) := do
  let y := x.reload y0
  let n := bits id 0 40
  if bits id 40 8 ≠ y.i ∨ bits id 48 16 ≠ 0 ∨ y.f 88 8 ≤ n then pure (x, 1, CodexWork.zero)
  else do
    let sb ← x.itemState p y n
    let fl := leField sb.1 8 1
    if sb.2 ∨ !bitOf fl 0 ∨ bitOf fl 1 then pure (x, 1, CodexWork.zero)
    else do
      let nd ← x.node p y n
      let x1 ← x.areaWrite p (y.stateAddr n + 8) [BitVec.ofNat 8 (fl ||| 2)] (fun _ => false)
      let x2 ← x1.stamp p (y.stateAddr n + 4)
      let x5 ← (match nd with
        | none => pure (x2, ⟨0, 1, 1⟩)
        | some r => do
          let x3 ← x2.putNode p y { r with flags := r.flags ||| 1 }
          let x4 ← r.ents.foldlM (fun (a : FX × CodexWork) e => do
            let ne ← a.1.node p y e.n
            match ne with
            | none => pure (a.1, a.2.plus ⟨0, 1, 1⟩)
            | some v =>
              let v1 := { v with dead := min 255 (v.dead + 1) }
              let flag := v1.needsRepair && !bitOf v1.flags 1
              let v2 := if flag then { v1 with flags := v1.flags ||| 2 } else v1
              let z1 ← a.1.putNode p y v2
              let rp : Repair := ⟨y.i, e.n, none⟩
              pure (if flag then { z1 with f := { z1.f with repairs := z1.f.repairs ++ [rp] } } else z1, a.2.plus ⟨0, 1, 0⟩))
            (x3, (⟨0, 1, 0⟩ : CodexWork))
          let sub ← x4.1.area p (y.subAddr r.subgraph) 32
          let x6 ← x4.1.areaWrite p (y.subAddr r.subgraph + 16) (leBytes 8 (leField sub.1 16 8 - 1)) (fun _ => false)
          pure (x6, x4.2) : Except OrdErr (FX × CodexWork))
      pure ((x5.1.setIx y 104 8 (y.f 104 8 - 1)).setIx y 112 8 (y.f 112 8 + 1), 0, x5.2)

/-- R307: repairs a node: each tombstoned entry gives way to the nearest item, not present and not tombstoned, among the
entries of the tombstoned neighbours. -/
def FX.repairNode (x : FX) (p : PartNo) (y : Ix) (r : NodeRec) : Except OrdErr FX := do
  let dead (n : Nat) : Except OrdErr Bool := do
    let sb ← x.itemState p y n
    pure (bitOf (leField sb.1 8 1) 1)
  let marks ← r.ents.mapM (fun e => dead e.n)
  let gone := ((r.ents.zip marks).filter (fun m => m.2)).map (fun m => m.1)
  let pool ← gone.foldlM (fun (a : List NEnt) e => do
    let nd ← x.node p y e.n
    pure (match nd with
      | none => a
      | some v => a ++ v.ents)) []
  let have0 := (r.ents.zip marks).filterMap (fun m => if m.2 then none else some m.1.n)
  let fresh ← (pool.filter (fun e => decide (e.n ≠ r.n))).filterMapM (fun e => do
    let d ← dead e.n
    pure (if d then none else some e))
  let pick (taken : List Nat) : Option NEnt :=
    (fresh.filter (fun e => decide (e.n ∉ taken))).foldl (fun (b : Option NEnt) e => match b with
      | none => some e
      | some w =>
        let de := hamming r.glyph e.glyph
        let dw := hamming r.glyph w.glyph
        if de < dw ∨ (de = dw ∧ e.n < w.n) then some e else b) none
  let out := (r.ents.zip marks).foldl (fun (a : List NEnt × List Nat) m =>
    if m.2 then match pick a.2 with
      | some e => (a.1 ++ [e], a.2 ++ [e.n])
      | none => (a.1 ++ [m.1], a.2)
    else (a.1 ++ [m.1], a.2)) ([], have0)
  x.putNode p y { r with ents := out.1, dead := 0, flags := r.flags % 2 + (r.flags / 4) * 4 }

end Sys2Proof.Machine
end

