-- ==== Sys2Proof/Machine/CacheOps.lean ====
section
/-! DEFINITION. The key-value cache: contexts and their windows (R261 to R264), page notes (R266), quantisation (R270), MX
form (R280), mass (R282), spill candidates (R278, R283), spans as codex items (R311). -/

namespace Sys2Proof.Machine

/-! Contexts (R261 to R264) -/

/-- A context at work: its id, where its descriptor lies, and the descriptor as the folio sees it. -/
structure Ctx where
  id : Nat
  a : Nat
  d : List Byte
  deriving DecidableEq, Repr

/-- A descriptor field. -/
def Ctx.f (c : Ctx) (a n : Nat) : Nat := leField c.d a n

def Ctx.classB (c : Ctx) : Bool := bitOf (c.f 3 1) 0
def Ctx.dim (c : Ctx) : Nat := 64 * 2 ^ c.f 5 1
def Ctx.layers (c : Ctx) : Nat := c.f 6 2
def Ctx.heads (c : Ctx) : Nat := c.f 8 1
def Ctx.streams (c : Ctx) : Nat := c.layers * c.heads
def Ctx.root (c : Ctx) : Nat := c.f 16 8

/-- R263: the size of a page. -/
def pageBytes (d : Nat) : Nat := if d = 256 then 131072 else 65536

/-- R263: slots of a stream. -/
def slotsPer (d : Nat) : Nat := if d = 256 then 131072 else 262144

/-- R263: where the note region begins. -/
def noteBase : Nat := 1023 * 2 ^ 34

/-- R261, R267, R456: the LIVE context of a partition; any other id is rejected naming LIVE. -/
def FX.ctx (x : FX) (p : PartNo) (id : Nat) : Except OrdErr Ctx :=
  match x.s.ctxAddr (x.s.home p) id with
  | none => .error (.reject 0 (stateMask [1]))
  | some a =>
    if x.bad a 128 then .error (.poisoned a)
    else
      let c : Ctx := ⟨id, a, x.read a 128⟩
      if c.f 2 1 = 1 ∧ c.f 4 1 = p.val then .ok c else .error (.reject 0 (stateMask [1]))

/-- The context again, as the folio sees it now. -/
def FX.reloadCtx (x : FX) (c : Ctx) : Ctx := { c with d := x.read c.a 128 }

/-- R262: a layer's entry of the layer map: ring pages, sink pages. -/
def State.layerOf (s : State) (id l : Nat) : Nat × Nat :=
  match (Tab.get [] s.mem.lmaps id)[l]? with
  | some e => (e.1.toNat, e.2.toNat)
  | none => (0, 0)

/-- R264: the slot of page n of a layer. -/
def State.slotOf (s : State) (c : Ctx) (l n : Nat) : Nat :=
  let r := s.layerOf c.id l
  if n < r.2 then n
  else r.2 + (n - r.2) % (if r.1 = 0 then slotsPer c.dim - r.2 else r.1)

/-- R286: a behaviour flag of a context acts for class B with its partition's entry set. -/
def State.ctxFlag (s : State) (c : Ctx) (bit sub : Nat) : Bool :=
  c.classB && bitOf (c.f 3 1) bit && decide (s.dictVal (0x4200 + c.f 4 1 % 8) sub = 1)

/-- The ids whose descriptors are LIVE in a partition. -/
def State.liveCtxs (s : State) (p : PartNo) : List Nat :=
  let b := (Tab.get 0 s.mem.ctxBase (s.home p).val).toNat
  if !bitOf b 0 then []
  else
    let base := bits b 16 32 * 65536
    ((s.mem.cells.slice base (128 * 65536)).filter (fun e => decide (e.1 % 128 = 2) && decide (e.2 = 1))).filterMap
      (fun e => if s.ctxLive (s.home p) .plain p (e.1 / 128) then some (e.1 / 128) else none)

/-! Window pages and notes (R263, R266) -/

/-- The translation request of a window offset. -/
def FX.ctxReq (x : FX) (p : PartNo) (c : Ctx) (off : Nat) : WalkReq := x.req p 1 c.id off 1 (masterInk (x.s.home p))

/-- A translation failure as an order's end. -/
def ordFault {α : Type} (r : Except PFault α) : Except OrdErr α :=
  match r with
  | .ok a => .ok a
  | .error e => .error (.fault e)

/-- The level-3 entries of a stream's slot. -/
def FX.pageEnts (x : FX) (p : PartNo) (c : Ctx) (st slot : Nat) : Except OrdErr (List (Option Nat × Nat)) :=
  (List.range (pageBytes c.dim / 65536)).mapM (fun j =>
    let off := st * 2 ^ 34 + slot * pageBytes c.dim + j * 65536
    ordFault (x.lookup (x.ctxReq p c off) c.root off))

/-- R263: where the note of a stream's slot lies, when its note page is present. -/
def FX.noteUa (x : FX) (p : PartNo) (c : Ctx) (st slot : Nat) : Except OrdErr (Option Nat) := do
  let off := noteBase + slot * 65536
  let e ← ordFault (x.lookup (x.ctxReq p c off) c.root off)
  pure (if bitOf e.2 0 then some (bits e.2 16 32 * 65536 + 64 * st) else none)

/-- R266: a page note. -/
structure Note where
  kscale : W32
  vscale : W32
  pos : Nat
  filled : Nat
  mass : Nat
  flags : Nat
  stream : Nat
  page : Nat
  fullTime : Nat
  spans : Nat
  tick : Nat
  deriving DecidableEq, Repr

/-- R266: a note from its bytes. -/
def Note.ofBytes (b : List Byte) : Note :=
  ⟨BitVec.ofNat 32 (leField b 0 4), BitVec.ofNat 32 (leField b 4 4), leField b 8 6, leField b 14 2, leField b 16 2, leField b 18 2,
   leField b 20 2, leField b 24 8, leField b 32 8, leField b 40 8, leField b 48 4⟩

/-- R266: the bytes of a note. -/
def Note.bytes (n : Note) : List Byte :=
  leBytes 4 n.kscale.toNat ++ leBytes 4 n.vscale.toNat ++ leBytes 6 n.pos ++ leBytes 2 n.filled ++ leBytes 2 n.mass ++
  leBytes 2 n.flags ++ leBytes 2 n.stream ++ leBytes 2 0 ++ leBytes 8 n.page ++ leBytes 8 n.fullTime ++ leBytes 8 n.spans ++
  leBytes 4 n.tick ++ List.replicate 12 0

def Note.present (n : Note) : Bool := bitOf n.flags 0
def Note.mx (n : Note) : Bool := bitOf n.flags 5

/-- Sets or clears a flag of a note. -/
def Note.flag (n : Note) (i : Nat) (v : Bool) : Note :=
  { n with flags := (if v then n.flags ||| 2 ^ i else if bitOf n.flags i then n.flags - 2 ^ i else n.flags) }

/-- A note as the folio sees it. -/
def FX.note (x : FX) (p : PartNo) (c : Ctx) (st slot : Nat) : Except OrdErr (Option (Nat × Note)) := do
  let a ← x.noteUa p c st slot
  pure (a.map (fun ua => (ua, Note.ofBytes (x.read ua 64))))

/-- Writes a note (only the module writes notes). -/
def FX.putNote (x : FX) (ua : Nat) (n : Note) : FX := x.writeUa ua n.bytes (fun _ => false)

/-- Maps a frame allocated inside the folio at a window offset, in HBM. -/
def FX.mapCtx (x : FX) (p : PartNo) (c : Ctx) (off f : Nat) (writable : Bool) : Except OrdErr FX := do
  let r ← x.entryNew (x.ctxReq p c off) c.root off
  pure ((r.1.setRefs f 1).entry r.2 (leafEntry f 0 writable))

/-- R263, R266: the note of a slot, its note page allocated when absent: a class P frame of HBM, cleared, its entry not writable,
as only the module writes notes (DEDUCED, log 172). -/
def FX.noteNew (x : FX) (p : PartNo) (c : Ctx) (st slot : Nat) : Except OrdErr (FX × Nat) := do
  let a ← x.noteUa p c st slot
  match a with
  | some ua => pure (x, ua)
  | none =>
    let r ← x.alloc p 0 0 false false false
    let y ← ({ r.1 with s := r.1.s.zeroFrame r.2 } : FX).mapCtx p c (noteBase + slot * 65536) r.2 false
    pure (y, 65536 * r.2 + 64 * st)

/-- The granules of a stretch, counted from its start, that hold a byte other than 0 or that the folio has journaled. -/
def FX.usedGrans (x : FX) (ua n : Nat) : List Nat :=
  let homes := (x.s.mem.cells.slice ua n).map (fun (b : Nat × Byte) => b.1 / 64)
  let own := (x.f.journal.filter (fun (j : JGran) => decide (ua ≤ 64 * j.gran) && decide (64 * j.gran < ua + n))).map
    (fun (j : JGran) => j.gran - ua / 64)
  sortBy (fun a b => decide (a < b)) (homes ++ own).dedup

/-- The present entries of one table as the folio sees it: index and entry. -/
def FX.tableEnts (x : FX) (t : Nat) : List (Nat × Nat) :=
  ((x.usedGrans t 32768).flatMap (fun g => (List.range 8).map (fun i => (8 * g + i, x.readLe (t + 64 * g + 8 * i) 8)))).filter
    (fun e => bitOf e.2 0)

/-- The present level-3 entries below a root, as the folio sees them: offset and entry. -/
def FX.windowEnts (x : FX) (root : Nat) : List (Nat × Nat) :=
  (x.tableEnts root).flatMap (fun e1 => (x.tableEnts (nextTable e1.2)).flatMap (fun e2 =>
    (x.tableEnts (nextTable e2.2)).map (fun e3 => (e1.1 * 2 ^ 40 + e2.1 * 2 ^ 28 + e3.1 * 65536, e3.2))))

/-- The notes of a context as the folio sees them: stream, slot, where the note lies, the note. -/
def FX.ctxNotes (x : FX) (c : Ctx) : List (Nat × Nat × Nat × Note) :=
  ((x.windowEnts c.root).filter (fun e => decide (noteBase ≤ e.1))).flatMap (fun e =>
    let f := bits e.2 16 32
    (x.usedGrans (65536 * f) 65536).map (fun st =>
      let ua := 65536 * f + 64 * st
      (st, (e.1 - noteBase) / 65536, ua, Note.ofBytes (x.read ua 64))))

/-! Quantisation (R270) -/

/-- R270: the exponent of the largest magnitude, NaN and infinity above every finite value; none when all are zero. -/
def amaxExpo (vs : List Val) : Option Int :=
  if vs.any Val.isSpecial then some 128
  else
    let m := maxMag vs
    if m.1 = 0 then none else some (expoOf m.1 m.2)

/-- R270: a scale exponent is clamped. -/
def clampScale (k : Int) : Int := max (-149) (min 127 k)

/-- R270: the FP32 word of 2^k. -/
def pow2F32 (k : Int) : W32 := toF32 (.fin false 1 k)

/-- R270 step 4: elements under a scale of 2^k, in E4M3. -/
def quantise (k : Int) (vs : List Val) : List Byte := vs.map (fun v => BitVec.ofNat 8 (ElemFmt.encode .e4m3 .rne (v.scale (-k))).1)

/-- R270 step 3: stored elements moved from scale 2^old to 2^new. -/
def requantise (old new : Int) (bs : List Byte) : List Byte :=
  bs.map (fun b => BitVec.ofNat 8 (ElemFmt.encode .e4m3 .rne ((ElemFmt.decode .e4m3 b.toNat).scale (old - new))).1)

/-! MX form (R280) -/

/-- R280: the halves of a frame: where keys or values begin. -/
def mxHalves (d : Nat) : List Nat := if d = 256 then [0] else [0, 32768]

/-- The granules of a frame that hold a stretch of it. -/
def frameGrans (a n : Nat) : List Nat := if n = 0 then [] else (List.range ((a + n - 1) / 64 - a / 64 + 1)).map (· + a / 64)

/-- R280: one half in MXFP4: element bytes, scale bytes, and the granules it poisons. -/
def mxHalf (d hb : Nat) (bs : List Byte) (bad : Nat → Bool) : List Byte × List Byte × List Nat :=
  let blocks := (List.range (8 * d)).map (fun i =>
    let src := hb + 32 * i
    let q := mxBlock .e2m1 .rne 0 (((bs.drop src).take 32).map (fun b => ElemFmt.decode .e4m3 b.toNat))
    (q.1, q.2.1, bad (src / 64), i))
  (packElems .e2m1 (blocks.flatMap (fun b => b.2.1)), blocks.map (fun b => BitVec.ofNat 8 b.1),
   blocks.flatMap (fun b => if b.2.2.1 then frameGrans (hb + 16 * b.2.2.2) 16 ++ frameGrans (hb + 128 * d + b.2.2.2) 1 else []))

/-- Overlays bytes at a place of a run. -/
def overlay (bs : List Byte) (a : Nat) (v : List Byte) : List Byte := bs.take a ++ v ++ bs.drop (a + v.length)

/-- R280: a frame rewritten in MX form, and its poisoned granules. -/
def toMx (d : Nat) (bs : List Byte) (bad : Nat → Bool) : List Byte × List Nat :=
  (mxHalves d).foldl (fun a hb =>
    let h := mxHalf d hb bs bad
    (overlay (overlay a.1 hb h.1) (hb + 128 * d) h.2.1, a.2 ++ h.2.2)) (List.replicate 65536 0, [])

/-- R280: one half back in E4M3, and the granules it poisons. -/
def unmxHalf (d hb : Nat) (bs : List Byte) (bad : Nat → Bool) : List Byte × List Nat :=
  let es := (List.range (256 * d)).map (fun i =>
    let src := hb + i / 2
    let sc := hb + 128 * d + i / 32
    let q := bits (leField bs src 1) (4 * (i % 2)) 4
    (BitVec.ofNat 8 (ElemFmt.encode .e4m3 .rne (mxValue .e2m1 (leField bs sc 1) q)).1, bad (src / 64) || bad (sc / 64), i))
  (es.map (fun e => e.1), ((es.filter (fun e => e.2.1)).map (fun e => (hb + e.2.2) / 64)).dedup)

/-- R280: a frame back in E4M3, and its poisoned granules. -/
def ofMx (d : Nat) (bs : List Byte) (bad : Nat → Bool) : List Byte × List Nat :=
  (mxHalves d).foldl (fun a hb =>
    let h := unmxHalf d hb bs bad
    (overlay a.1 hb h.1, a.2 ++ h.2)) (List.replicate 65536 0, [])

/-- The bytes of a frame at its home, and which of its granules are poisoned. -/
def State.frameBytes (s : State) (f : Nat) : List Byte := (s.readUa .plain (65536 * f) 65536).1

/-- A granule of a frame is poisoned. -/
def State.frameGranBad (s : State) (f g : Nat) : Bool := (s.homeGran (1024 * f + g)).poison

/-- Fills a frame with bytes and poisons the granules named. -/
def State.fillFrame (s : State) (f : Nat) (bs : List Byte) (bad : List Nat) : State :=
  let sl : Cells 8 := (((bs.take 65536).zipIdx).filter (fun b => decide (b.1 ≠ 0))).map (fun b => (b.2, b.1))
  let s1 := s.modMem (fun m => { m with cells := m.cells.splice (65536 * f) 65536 sl,
                                        poison := m.poison.clearRange (1024 * f) 1024, latent := m.latent.clearRange (1024 * f) 1024 })
  bad.foldl (fun t g => t.poisonGran (1024 * f + g)) s1

/-! Mass (R282) -/

/-- R282: the effective mass of a note at a tick. -/
def Note.effMass (n : Note) (tick shift : Nat) : Nat :=
  let d := (tick + 2 ^ 32 - n.tick) % 2 ^ 32
  if 2 ^ 31 ≤ d then 0 else n.mass / 2 ^ min 16 (d / 2 ^ shift)

/-! Spill candidates (R278, R283) -/

/-- A candidate of a spill: context, stream, slot, page index, note and its place, frames, effective mass. -/
structure SpillCand where
  ctx : Ctx
  stream : Nat
  slot : Nat
  noteUa : Nat
  note : Note
  ents : List (Nat × Nat)
  mass : Nat
  deriving DecidableEq, Repr

/-- R278: the order of candidates: full time, context, stream, page. -/
def SpillCand.before (a b : SpillCand) : Bool :=
  let ka := [a.note.fullTime, a.ctx.id, a.stream, a.note.page]
  let kb := [b.note.fullTime, b.ctx.id, b.stream, b.note.page]
  decide (ka < kb)

/-- R228: the page is one of an entry's object. -/
def RuleEntry.names (e : RuleEntry) (sp : Space) (page : Nat) : Bool :=
  decide (e.space = sp) && decide (e.page ≤ page) && decide (page < e.page + e.pages)

/-- R278, R281: the page is named by a ruling entry that has started: one not finished, or one whose pages are resident and
whose layer the ruling home has not yet seen pass, so that its consumer may still read them (DEDUCED, log 173). -/
def State.ruledPage (s : State) (p : PartNo) (sp : Space) (page : Nat) : Bool :=
  ((s.ruling p).started ++ (s.ruling p).resident).any (fun e => e.names sp page)

/-- R29, R278: the candidates of one context in a tier: its pages in class B frames. -/
def State.ctxCands (s : State) (p : PartNo) (tier : Nat) (c : Ctx) : List SpillCand :=
  let x := FX.fresh s p true
  let ns := x.ctxNotes c
  ns.filterMap (fun e =>
    let st := e.1
    let slot := e.2.1
    let n := e.2.2.2
    let newest := (ns.filter (fun m => decide (m.1 = st) && m.2.2.2.present)).foldl (fun a m => max a m.2.2.2.page) 0
    if !n.present ∨ !bitOf n.flags 1 ∨ n.page < (s.layerOf c.id (st / max 1 c.heads)).2 ∨ newest < n.page + c.f 40 4 then none
    else match x.pageEnts p c st slot with
      | .error _ => none
      | .ok es =>
        let fs := es.filterMap (fun v => match v.1 with
          | some a => if bitOf v.2 0 then some (a, bits v.2 16 32) else none
          | none => none)
        let first := (st * 2 ^ 34 + slot * pageBytes c.dim) / 65536
        if fs.length ≠ es.length ∨
            fs.any (fun v => let fe := s.frame v.2
              decide (tierOfFrame v.2 ≠ some tier) || decide (fe.refs ≠ 1) || !fe.classB || fe.pinned || fe.table || s.underIntent v.2) ∨
            (List.range fs.length).any (fun j => s.ruledPage p (.ctx c.id) (first + j)) then none
        else some ⟨c, st, slot, e.2.2.1, n, fs, n.effMass (c.f 44 4) (c.f 10 1)⟩)

/-- R278: the candidates of a partition in a tier, in their order. -/
def State.spillCands (s : State) (p : PartNo) (tier : Nat) : List SpillCand :=
  let cs := (s.liveCtxs p).filterMap (fun i => match (FX.fresh s p true).ctx p i with
    | .ok c => if c.classB then some c else none
    | .error _ => none)
  sortBy SpillCand.before (cs.flatMap (s.ctxCands p tier))

/-- R283: a candidate is evicted rather than spilled. -/
def State.evicts (s : State) (p : PartNo) (tier : Nat) (c : SpillCand) : Bool :=
  decide (tier = 0) && s.ctxFlag c.ctx 2 2 && decide (c.mass < s.dictVal (0x4200 + p.val) 3)

/-- R283: evicts one page in a local folio; true when it sealed. -/
def State.evict (s : State) (p : PartNo) (c : SpillCand) : State × Bool :=
  let x0 := FX.fresh s p true
  let x1 := c.ents.foldl (fun x e => ((x.intent e.2 true).entryFree e.1 0).delta e.2 false) x0
  let x2 := x1.putNote c.noteUa ((c.note.flag 0 false).flag 3 true)
  let r := x2.finish false
  let m := (s.home p).val
  if r.2.1 = 0 then (((r.1.countDie m ⟨0x0C, 1, 0, 2, 2, some p, none, none⟩).countApprox m), true) else (r.1, false)

/-! Spans as codex items (R311) -/

/-- R311: the index of a partition that can take a group of a stream, if it can. -/
def State.spillIndex (s : State) (p : PartNo) (sub : Nat) : Option Ix :=
  match (FX.fresh s p true).ix p (s.dictVal (0x6100 + p.val) 1) with
  | .error _ => none
  | .ok y => if y.f 4 1 = 0 ∧ sub < y.f 80 4 ∧ (y.f 120 8 ≠ 2 ^ 64 - 1 ∨ y.f 96 8 + 16 ≤ y.f 88 8) then some y else none

/-- The keys or values of span `m` of a page of E4M3 bytes, one row a token. -/
def spanRows (d hb m : Nat) (bs : List Byte) : List (List Byte) :=
  (List.range 16).map (fun t => (bs.drop (hb + (16 * m + t) * d)).take d)

/-- R311: the 16 spans of a page (its E4M3 bytes and poisoned granules) become items of a subgraph in the folio; a subgraph
being dropped takes none (log 130). -/
def FX.spansToItems (x : FX) (p : PartNo) (y0 : Ix) (c : SpillCand) (bs : List Byte) (bad : List Nat) : Except OrdErr FX := do
  let g := c.ctx.id * 1024 + c.stream
  let d := c.ctx.dim
  let vb := pageBytes d / 2
  let sub ← x.area p (y0.subAddr g) 32
  if bitOf (leField sub.1 15 1) 1 then .error (.code 0x0603 0)
  else do
  let fg ← x.freshGroup p y0
  match fg with
  | none => .error (.code 0x0602 0)
  | some (x1, m) =>
    let y := x1.reload y0
    let x2 ← x1.linkGroup p y g m (bitOf (leField sub.1 15 1) 0) c.note.pos (expoInt c.note.kscale) (expoInt c.note.vscale) 16
    let x3 ← (List.range 16).foldlM (fun (z : FX) i => do
      let keys := spanRows d 0 i bs
      let vals := spanRows d vb i bs
      let rows ← z.glyphRows p y (y.f 24 6) (keys.map (fun r => rowVals .e4m3 r d))
      let gl := z.s.glyphOfRows (y.f 16 8) d rows
      let attr := c.ctx.id + c.stream * 2 ^ 32 + ((c.note.pos + 16 * i) / 2 ^ y.f 10 1) % 65536 * 2 ^ 48
      let touched := frameGrans (16 * i * d) (16 * d) ++ frameGrans (vb + 16 * i * d) (16 * d)
      let it : NewItem := ⟨16 * m + i, gl.1, if y.large then 0 else BitVec.ofNat 64 attr, (keys ++ vals).flatten,
        touched.any (fun q => decide (q ∈ bad))⟩
      let r ← ({ z with s := gl.2 } : FX).insertItem p y g it
      pure r.1) x2
    pure (x3.putNote c.noteUa (((({ c.note with spans := 16 * m + y.i * 2 ^ 40 } : Note).flag 0 false).flag 4 true).flag 5 false))

end Sys2Proof.Machine
end

