-- ==== Sys2Proof/Machine/MoveEngine.lean ====
section
/-! DEFINITION. Pages that move: the waiting moves and the migration engines (R220, R229), spill batches (R278, R279), and
the ruling (R227 to R231). -/

namespace Sys2Proof.Machine

/-! Spill batches (R278) -/

/-- The spill batch of a partition and tier under way. -/
def State.batchOf (s : State) (p : PartNo) (tier : Nat) : Option SpillBatch :=
  s.mem.batches.find? (fun b => decide (b.part = p) && decide (b.tier = tier))

/-- Changes a batch. -/
def State.modBatch (s : State) (p : PartNo) (tier : Nat) (g : SpillBatch → SpillBatch) : State :=
  s.modMem (fun m => { m with batches := m.batches.map (fun b => if b.part = p ∧ b.tier = tier then g b else b) })

/-- R311: INDEX_FULL is recorded once; each page skipped is counted. -/
def State.skipSpill (s : State) (p : PartNo) : State :=
  let m := (s.home p).val
  let s1 := s.countDie m ⟨0x1A, 1, 0, 2, 2, some p, none, none⟩
  if s1.mem.indexFullSaid.getLsbD p.val then s1
  else (s1.modMem (fun x => { x with indexFullSaid := x.indexFullSaid ||| BitVec.ofNat 8 (2 ^ p.val) })).report
    ⟨0x0602, dieM (s.home p), p.val, unitInkwell, .operation, u64s [s.dictVal (0x6100 + p.val) 1]⟩

/-- R279, R311: a candidate goes to the codex. -/
def State.toCodex (s : State) (tier : Nat) (c : SpillCand) : Bool := decide (tier = 1) && s.ctxFlag c.ctx 1 5

/-- R278, R283: starts a spill batch: evictions first, at once; then the candidates in order, as moves to the next tier.
None when there is no candidate. -/
def State.startSpill (s : State) (p : PartNo) (tier : Nat) : Option State :=
  let cs := s.spillCands p tier
  if cs = [] then none
  else
    let n := max 1 (s.dictVal (0x4200 + p.val) 6)
    let lt (a b : SpillCand) : Bool := decide (a.mass < b.mass) || (decide (a.mass = b.mass) && a.before b)
    let ev := (sortBy lt (cs.filter (fun c => s.evicts p tier c))).take n
    let sp := (cs.filter (fun c => decide (c ∉ ev))).take (n - ev.length)
    let r := ev.foldl (fun (a : State × Nat) c => let q := a.1.evict p c; (q.1, a.2 + (if q.2 then 1 else 0))) (s, 0)
    let b0 : SpillBatch := ⟨p, tier, 0, r.2⟩
    let s1 := r.1.modMem (fun m => { m with batches := m.batches ++ [b0] })
    some (sp.foldl (fun t c =>
      if t.toCodex tier c ∧ (t.spillIndex p (c.ctx.id * 1024 + c.stream)).isNone then t.skipSpill p
      else
        let first := (c.stream * 2 ^ 34 + c.slot * pageBytes c.ctx.dim) / 65536
        let mv : Move := ⟨p, .ctx c.ctx.id, first, 1, c.ents.length, tier + 1, .spill p tier, none, false⟩
        (t.modMem (fun m => { m with moves := m.moves ++ [mv] })).modBatch p tier (fun b => { b with left := b.left + 1 })) s1)

/-! The ruling's status (R230) -/

/-- R237: records RULING_ENTRY. -/
def State.recordRuling (s : State) (p : PartNo) (code idx layer : Nat) : State :=
  s.report ⟨code, dieM (s.home p), p.val, unitMigration (4 * (s.home p).val), .operation, u64s [idx, layer]⟩

/-- R230: writes an entry's status word, when it has one to write. -/
def State.setStatus (s : State) (p : PartNo) (addr v : Nat) : State :=
  if addr = 0 then s else s.dvWrite p (masterMig (s.home p)) addr (leBytes 8 v)

/-- R230, R281: an entry ends with a status: its moves not begun are given up. One that is resident stays named until its layer
has passed. -/
def State.endEntry (s : State) (p : PartNo) (idx v : Nat) : State :=
  match (s.ruling p).started.find? (fun e => decide (e.idx = idx)) with
  | none => s
  | some e =>
    let s1 := s.modRuling p (fun r => { r with started := r.started.filter (fun x => decide (x.idx ≠ idx)),
                                               resident := if v = 1 then r.resident ++ [e] else r.resident })
    (s1.modMem (fun m => { m with moves := m.moves.filter (fun x => decide (x.owner ≠ .ruling p idx)) })).setStatus p e.statusAddr v

/-- Tells the owner of a move that some of its pages have ended. -/
def State.moveEnded (s : State) (owner : MigOwner) (pages : Nat) (ok : Bool) : State :=
  match owner with
  | .refresh => s
  | .spill p tier => s.modBatch p tier (fun b => { b with left := b.left - 1, sealed := b.sealed + (if ok then 1 else 0) })
  | .ruling p idx =>
    if !ok then s.endEntry p idx 3
    else
      let s1 := s.modRuling p (fun r => { r with started := r.started.map (fun e =>
        if e.idx = idx then { e with left := e.left - pages } else e) })
      match (s1.ruling p).started.find? (fun e => decide (e.idx = idx)) with
      | some e => if e.left = 0 then s1.endEntry p idx 1 else s1
      | none => s1

/-! Issuing moves (R220, R229) -/

/-- The root table of a page's space. -/
def FX.spaceRoot (x : FX) (p : PartNo) (sp : Space) : Except OrdErr Nat :=
  match sp with
  | .dv =>
    let r := (Tab.get 0 x.s.mem.ptRoot (8 * (x.s.home p).val + p.val)).toNat
    if bitOf r 0 then .ok (bits r 15 33 * 32768) else .error (.fault ((x.req p 0 0 0 3 (masterMig (x.s.home p))).fault 1 0 0))
  | .ctx id => (x.ctx p id).map (fun c => c.root)

/-- The translation request of a page. -/
def FX.pageReq (x : FX) (p : PartNo) (sp : Space) (page : Nat) : WalkReq :=
  match sp with
  | .dv => x.req p 0 0 (65536 * page) 3 (masterMig (x.s.home p))
  | .ctx id => x.req p 1 id (65536 * page) 3 (masterMig (x.s.home p))

/-- The present level-3 entry of a page: where it lies, and its value. -/
def FX.pageEntry (x : FX) (p : PartNo) (sp : Space) (page : Nat) : Except OrdErr (Nat × Nat) := do
  let root ← x.spaceRoot p sp
  let q := x.pageReq p sp page
  let e ← ordFault (x.lookup q root (65536 * page))
  match e.1 with
  | none => .error (.fault (q.fault 1 3 0))
  | some a =>
    if !bitOf e.2 0 then .error (.fault (q.fault 1 3 e.2))
    else match x.s.leafReason q e.2 with
      | some r => .error (.fault (q.fault r 3 e.2))
      | none => pure (a, e.2)

/-- What becomes of a move that is looked at: begun, already in place, not possible now, waiting on a spill, or failed. -/
inductive Issue where
  | started (s : State)
  | resident
  | busy
  | spill (tier : Nat)
  | failed (s : State)

/-- R220: the migrations under way whose target lies at a memory-side die. -/
def State.enginesBusy (s : State) (m : MDie) : Nat :=
  (s.mem.migrations.filter (fun g => g.frames.any (fun f => decide (mdieOf (dieOfFrame f.2) = m)))).length

/-- R220 steps 1 and 2, R222, R229: looks at the next pages of a move. Each memory-side die has 4 migration engines. -/
def State.issueMove (s : State) (m : Move) : Issue :=
  let x := FX.fresh s m.part true
  match (List.range m.group).mapM (fun j => x.pageEntry m.part m.space (m.page + j)) with
  | .error (.fault f) => .failed (s.reportPF m.part (dieM (s.home m.part)) (unitMigration (4 * (s.home m.part).val)) .operation f)
  | .error e => .failed (s.failOrder m.part e).1
  | .ok es =>
    let fs := es.map (fun e => bits e.2 16 32)
    let kind : Option SpillCand := match m.owner with
      | .spill _ tier => (s.spillCands m.part tier).find? (fun c => decide (some (m.space) = some (.ctx c.ctx.id)) &&
          decide (c.ents.map (·.2) = fs))
      | _ => none
    if m.owner ≠ .refresh ∧ fs.all (fun f => decide (tierOfFrame f = some m.tier)) then .resident
    else if fs.any s.underIntent then .busy
    else match fs.find? (fun f => (s.frame f).pinned || (es.any (fun e => decide (bits e.2 16 32 = f) && bitOf e.2 3) && decide ((s.frame f).refs > 1))) with
      | some f => .failed (s.report ⟨0x0208, dieM (s.home m.part), m.part.val, unitMigration (4 * (s.home m.part).val), .operation,
          u64s [f, (s.frame f).refs, 1]⟩)
      | none =>
        let mg (t : State) (nf : List Nat) : State := t.modMem (fun mm => { mm with migrations := mm.migrations ++
          [(⟨m.part, m.space, m.page, fs.zip nf, m.tier, 0, m.owner⟩ : Migration)] })
        match kind with
        | some c =>
          if s.toCodex (m.tier - 1) c then .started (mg s fs)
          else match fs.foldlM (fun (a : FX × List Nat) f =>
              (a.1.alloc m.part m.tier 0 (s.frame f).classB false (s.frame f).weight).map (fun r => (r.1, a.2 ++ [r.2]))) (x, []) with
            | .error (.spill t) => .spill t
            | .error .uninit => .busy
            | .error e => .failed (s.failOrder m.part e).1
            | .ok (y, nf) => if nf.any (fun f => decide (4 ≤ s.enginesBusy (mdieOf (dieOfFrame f)))) then .busy else .started (mg y.s nf)
        | none =>
          match m.owner with
          | .spill _ _ => .failed s
          | _ => match fs.foldlM (fun (a : FX × List Nat) f =>
              (a.1.alloc m.part m.tier 0 (s.frame f).classB false (s.frame f).weight).map (fun r => (r.1, a.2 ++ [r.2]))) (x, []) with
            | .error (.spill t) => .spill t
            | .error .uninit => .busy
            | .error e => .failed (s.failOrder m.part e).1
            | .ok (y, nf) => if nf.any (fun f => decide (4 ≤ s.enginesBusy (mdieOf (dieOfFrame f)))) then .busy else .started (mg y.s nf)

/-- R229: the order in which moves are looked at: earliest deadline first, ties in list order, moves without one last. -/
def State.moveOrder (s : State) : List Nat :=
  let key (m : Move) : Nat := match m.deadline with
    | some d => d.toNat
    | none => 2 ^ 64
  (sortBy (fun (a b : Nat × Move) => decide (key a.2 < key b.2)) ((s.mem.moves.zipIdx).map (fun e => (e.2, e.1)))).map (·.1)

/-- Takes the first pages off a move. -/
def State.advanceMove (s : State) (i : Nat) : State :=
  s.modMem (fun m => { m with moves := match m.moves[i]? with
    | none => m.moves
    | some v => if v.left ≤ 1 then m.moves.eraseIdx i else m.moves.set i { v with page := v.page + v.group, left := v.left - 1 } })

/-- Looks at one move: none when nothing changes. -/
def State.tryMove (s : State) (i : Nat) : Option State :=
  match s.mem.moves[i]? with
  | none => none
  | some m => match s.issueMove m with
    | .started t => some (t.advanceMove i)
    | .resident => some ((s.advanceMove i).moveEnded m.owner 1 true)
    | .failed t => some ((t.advanceMove i).moveEnded m.owner 1 false)
    | .busy => none
    | .spill t =>
      if (s.batchOf m.part t).isSome then none
      else if m.waited && (match Tab.get none s.mem.lastBatch (4 * m.part.val + t) with
          | some b => decide (b.1 = 0)
          | none => true) then some ((s.advanceMove i).moveEnded m.owner 1 false)
      else match s.startSpill m.part t with
        | none => some ((s.advanceMove i).moveEnded m.owner 1 false)
        | some s1 => some (s1.modMem (fun x => { x with moves := x.moves.set i { m with waited := true } }))

/-- R229: issues every move that can be issued (each round ends a page, begins one, or starts a spill). -/
def State.pumpN (s : State) : Nat → State
  | 0 => s
  | n + 1 => match s.moveOrder.findSome? s.tryMove with
    | none => s
    | some t => State.pumpN t n

/-- The moves that can be issued are issued. -/
def State.pump (s : State) : State := State.pumpN s (2 * sumNat (s.mem.moves.map (fun m => m.left)) + 65600)

/-- R223: the quotas of a tier fit its capacity; 0xFFFF_FFFF sets no limit. -/
def State.quotaFits (s : State) (p : PartNo) (tier : Nat) : Bool :=
  let qp := s.dictVal (0x4100 + p.val) (1 + 2 * tier)
  let qb := s.dictVal (0x4100 + p.val) (2 + 2 * tier)
  decide (qp = 0xFFFFFFFF) || decide (qb = 0xFFFFFFFF) || decide (qp + qb ≤ s.capacity p tier)

/-- R224: retired frames make the quotas of a tier exceed its capacity: class B's quota is lowered to the difference, and a
spill starts when its usage is beyond it (R225). -/
def State.quotaCheck (s : State) (p : PartNo) (tier : Nat) : State :=
  if (s.part p).mode = .unformed ∨ s.quotaFits p tier then s
  else
    let nb := s.capacity p tier - s.dictVal (0x4100 + p.val) (1 + 2 * tier)
    let s1 := (s.setDict (0x4100 + p.val) (2 + 2 * tier) nb).report
      ⟨0x0209, dieM (s.home p), p.val, unitMigration (4 * (s.home p).val), .operation, u64s [tier, nb]⟩
    if tier < 2 ∧ nb < s1.usage p tier true ∧ (s1.batchOf p tier).isNone then
      match s1.startSpill p tier with
      | none => s1
      | some s2 => s2.pump
    else s1

/-- R224: every tier of a partition. -/
def State.quotaChecks (s : State) (p : PartNo) : State := [0, 1, 2].foldl (fun t i => t.quotaCheck p i) s

/-! Completing a migration (R220 steps 3 to 6, R279, R280, R311) -/

/-- The stream, slot and note of a context page that lies in the stream regions. -/
def FX.pageNote (x : FX) (p : PartNo) (sp : Space) (page : Nat) : Option (Ctx × Nat × Nat × Nat × Note) :=
  match sp with
  | .dv => none
  | .ctx id => match x.ctx p id with
    | .error _ => none
    | .ok c =>
      let off := 65536 * page
      let st := off / 2 ^ 34
      if noteBase ≤ off ∨ c.streams ≤ st then none
      else match x.note p c st (off % 2 ^ 34 / pageBytes c.dim) with
        | .ok (some (ua, n)) => if n.present then some (c, st, off % 2 ^ 34 / pageBytes c.dim, ua, n) else none
        | _ => none

/-- R220, R280: one page of a migration takes its new home inside the folio, converted where its form changes: into MX form
(`mxOut`), or back when a page in MX form leaves board memory. -/
def FX.movePage (x : FX) (p : PartNo) (sp : Space) (page : Nat) (src dst tier : Nat) (mxOut : Bool) : Except OrdErr (FX × Bool) := do
  let e ← x.pageEntry p sp page
  if bits e.2 16 32 ≠ src then .error (.code 0x0301 0)
  else
    let y := x.addFrame dst
    match x.pageNote p sp page with
    | some (c, _, _, _, n) =>
      let back := n.mx && decide (tierOfFrame src = some 1) && decide (tier ≠ 1)
      if mxOut then
        let r := toMx c.dim (x.s.frameBytes src) (fun g => x.s.frameGranBad src g)
        let z := y.moveFrame src dst tier [e.1] false
        pure ({ z with s := z.s.fillFrame dst r.1 r.2 }, true)
      else if back then
        let r := ofMx c.dim (x.s.frameBytes src) (fun g => x.s.frameGranBad src g)
        let z := y.moveFrame src dst tier [e.1] false
        pure ({ z with s := z.s.fillFrame dst r.1 r.2 }, true)
      else pure (y.moveFrame src dst tier [e.1] true, false)
    | none => pure (y.moveFrame src dst tier [e.1] true, false)

/-- R280: the note of a page whose frames have moved: in MX form, or in MX form no longer once none of its frames lies in
board memory. -/
def FX.noteMx (x : FX) (p : PartNo) (sp : Space) (page : Nat) (mxOut conv : Bool) : Except OrdErr FX :=
  match x.pageNote p sp page with
  | none => .ok x
  | some (c, st, slot, ua, n) =>
    if mxOut then .ok (x.putNote ua (n.flag 5 true))
    else if !conv then .ok x
    else do
      let es ← x.pageEnts p c st slot
      pure (if es.any (fun e => bitOf e.2 0 && decide (tierOfFrame (bits e.2 16 32) = some 1)) then x else x.putNote ua (n.flag 5 false))

/-- R311: a page becomes codex items inside the folio: its entries removed, its references dropped. -/
def FX.codexSpill (x : FX) (p : PartNo) (y : Ix) (c : SpillCand) : Except OrdErr FX := do
  let raw := c.ents.flatMap (fun e =>
    if c.note.mx then (ofMx c.ctx.dim (x.s.frameBytes e.2) (fun g => x.s.frameGranBad e.2 g)).1 else x.s.frameBytes e.2)
  let bad := (c.ents.zipIdx).flatMap (fun e =>
    (if c.note.mx then (ofMx c.ctx.dim (x.s.frameBytes e.1.2) (fun g => x.s.frameGranBad e.1.2 g)).2
     else (List.range 1024).filter (fun g => x.s.frameGranBad e.1.2 g)).map (fun g => g + 1024 * e.2))
  let t := c.ents.foldl (fun (t : State) e => t.touchFrame 2 (some p) e.2) x.s
  let x1 ← ({ x with s := t } : FX).spansToItems p y c raw bad
  pure (c.ents.foldl (fun z e => ((z.intent e.2 true).entryFree e.1 0).delta e.2 false) x1)

/-- What a migration's folio does (R220, R279): the folio, and whether it converts a page's form. -/
def State.migrationFolio (s : State) (g : Migration) : Except OrdErr (FX × Bool) := do
  let x := FX.fresh s g.part true
  match g.owner with
  | .spill p tier =>
    let c? := (s.spillCands p tier).find? (fun c => decide (g.space = .ctx c.ctx.id) && decide (c.ents.map (·.2) = g.frames.map (·.1)))
    match c? with
    | none => .error (.code 0x0301 0)
    | some c =>
      if g.frames.all (fun f => decide (f.1 = f.2)) then
        match s.spillIndex p (c.ctx.id * 1024 + c.stream) with
        | none => .error (.code 0x0602 0)
        | some y => do
          let r ← x.codexSpill p y c
          pure (r, c.note.mx)
      else do
        let mxOut := decide (tier = 0) && s.ctxFlag c.ctx 3 4
        let r ← (g.frames.zipIdx).foldlM (fun (a : FX × Bool) f => do
          let q ← a.1.movePage g.part g.space (g.page + f.2) f.1.1 f.1.2 g.tier mxOut
          pure (q.1, a.2 || q.2)) (x, false)
        let z ← r.1.noteMx g.part g.space g.page mxOut r.2
        pure (z, r.2)
  | _ => do
    let r ← (g.frames.zipIdx).foldlM (fun (a : FX × Bool) f => do
      let q ← a.1.movePage g.part g.space (g.page + f.2) f.1.1 f.1.2 g.tier false
      pure (q.1, a.2 || q.2)) (x, false)
    let z ← r.1.noteMx g.part g.space g.page false r.2
    pure (z, r.2)

/-- The target frames of a migration that does not seal return at once (R220); one already RETIRED stays so. -/
def State.giveBack (s : State) (g : Migration) : State :=
  g.frames.foldl (fun t f => if f.1 = f.2 ∨ (t.frame f.2).state = 3 then t else t.freeFrame f.2) s

/-- Releases the writes that waited on a migration's intent without a new home (R221). -/
def State.releaseMig (s : State) (g : Migration) : State := s.release (g.frames.map (·.1)) []

/-- R220 steps 3 to 6: the i-th migration under way is completed. -/
def State.completeMigration (s : State) (i : Nat) : State :=
  match s.mem.migrations[i]? with
  | none => s
  | some g =>
    let s0 := s.modMem (fun m => { m with migrations := m.migrations.eraseIdx i })
    match s0.migrationFolio g with
    | .error (.fault f) =>
      ((((s0.giveBack g).releaseMig g).reportPF g.part (dieM (s.home g.part)) (unitMigration (4 * (s.home g.part).val)) .operation f).moveEnded
        g.owner g.frames.length false).pump
    | .error e => (((s0.failOrder g.part e).1.giveBack g).releaseMig g |>.moveEnded g.owner g.frames.length false).pump
    | .ok (x, conv) =>
      let r := x.finish false
      let ok := decide (r.2.1 = 0)
      let m := (mdieOf (dieOfFrame (g.frames.headD (0, 0)).2)).val
      let ev (t : State) (e : Nat) : State := t.countDie m ⟨e, 1, 0, 2, 2, some g.part, none, none⟩
      let s1 := if ok then ev r.1 0x0A else r.1.releaseMig g
      let s2 := if ok ∧ conv then (ev s1 0x0D).countApprox m else s1
      let s3 := match g.owner with
        | .spill _ _ => if ok then ev s2 0x0B else s2
        | .ruling _ _ => if ok ∧ g.tier = 0 ∧ g.space ≠ Space.dv then ev s2 0x21 else s2
        | .refresh => s2
      (s3.moveEnded g.owner g.frames.length ok).pump

/-- R220: a flash program of the i-th migration fails: the frame is RETIRED and another is tried, up to 3 times; then the
folio scrapes. -/
def State.failProgram (s : State) (i : Nat) : State :=
  match s.mem.migrations[i]? with
  | none => s
  | some g =>
    match g.frames.find? (fun f => decide (tierOfFrame f.2 = some 2) && decide (f.1 ≠ f.2)) with
    | none => s
    | some bad =>
      let fe := s.frame bad.2
      let s1 := s.retireFrame bad.2
      let drop (t : State) : State :=
        ((((t.modMem (fun m => { m with migrations := m.migrations.eraseIdx i })).giveBack g).releaseMig g |>.moveEnded g.owner g.frames.length false).pump).quotaCheck g.part 2
      if 3 ≤ g.tries then drop s1
      else match (FX.fresh s1 g.part true).alloc g.part 2 0 fe.classB false fe.weight with
        | .error _ => drop s1
        | .ok (x, nf) =>
          let g1 := { g with tries := g.tries + 1, frames := g.frames.map (fun f => if f = bad then (f.1, nf) else f) }
          (x.s.modMem (fun m => { m with migrations := m.migrations.set i g1 })).quotaCheck g.part 2

/-! The ruling (R227 to R231) -/

/-- R254: the distance from `b` to `a`, when `a` is ahead within the window; 0 when it is at or behind. -/
def serialAhead (a b : W32) : Nat := if (a - b).toNat < 2 ^ 30 then (a - b).toNat else 0

/-- R229, R231: an entry is skipped. -/
def State.skipEntry (s : State) (p : PartNo) (idx layer status : Nat) : State :=
  ((s.recordRuling p 0x0207 idx layer).modPreg p (fun r => { r with ruleErr := true })).setStatus p status 3

/-- R228: a ruling entry that is well formed. -/
def entryFormOk (b : List Byte) : Bool :=
  let k := leField b 0 1
  let fl := leField b 3 1
  decide (leField b 1 1 = 1) && decide (leField b 10 2 = 0) && decide (leField b 40 8 % 8 = 0) && decide (leField b 2 1 ≤ 2) &&
  (if k = 0x20 then decide (fl < 4) && decide (1 ≤ leField b 12 4) && decide (leField b 16 8 % 65536 = 0) && zeroFrom b 48 16
   else decide (k = 0x21) && decide (fl < 16) && decide (1 ≤ leField b 12 4) && decide (leField b 12 4 ≤ 65536) &&
     decide (leField b 16 8 % 64 = 0) && decide (leField b 48 4 % 64 = 0) && decide (64 ≤ leField b 48 4) &&
     decide (leField b 48 4 ≤ 65536) && decide (leField b 52 4 % 64 = 0))

/-- The space of an entry. -/
def entrySpace (b : List Byte) : Space := if bitOf (leField b 3 1) 1 then .ctx (leField b 8 2) else .dv

/-- R231: the ids of a stream entry, and the request that reads them. -/
def State.streamIds (s : State) (p : PartNo) (b : List Byte) : WalkReq × Except PFault (List Nat) :=
  let w := if bitOf (leField b 3 1) 3 then 8 else 4
  let q := s.engineReq p (leField b 56 8) 3 (masterMig (s.home p))
  (q, (s.readVa q (w * leField b 12 4)).map (fun r => (List.range (leField b 12 4)).map (fun i => leField r.1 (w * i) w)))

/-- R228, R231: the pages of a stream's object: those that its elements reach at src_base. -/
def State.streamPages (s : State) (p : PartNo) (b : List Byte) : List Nat :=
  match (s.streamIds p b).2 with
  | .error _ => []
  | .ok ids => (ids.flatMap (fun i =>
      (pagePieces (leField b 16 8 + i * leField b 52 4) (leField b 48 4)).map (fun q => q.1 / 65536))).dedup

/-- R228: the pages of an entry's object. -/
def State.objectPages (s : State) (p : PartNo) (b : List Byte) : List Nat :=
  if leField b 0 1 = 0x20 then (List.range (leField b 12 4)).map (fun i => leField b 16 8 / 65536 + i) else s.streamPages p b

/-- R230: a fallback is honoured: every page of the object is class B and fallback_en is 1. -/
def State.fallbackOk (s : State) (p : PartNo) (b : List Byte) : Bool :=
  let x := FX.fresh s p true
  let classB (page : Nat) : Bool := match x.pageEntry p (entrySpace b) page with
    | .ok e => (s.frame (bits e.2 16 32)).classB
    | .error _ => false
  decide (s.dictVal (0x4200 + p.val) 1 = 1) && (s.objectPages p b).all classB &&
  (decide (leField b 0 1 = 0x20) || (match (s.streamIds p b).2 with
    | .ok _ => true
    | .error _ => false))

/-- R230: an entry is answered with its fallback. -/
def State.noteFallback (s : State) (p : PartNo) : State :=
  ((s.countDie (s.home p).val ⟨0x10, 1, 0, 2, 2, some p, none, none⟩).countApprox (s.home p).val).modPreg p
    (fun r => { r with ruleFallback := true })

/-- R230: an entry without a fallback has passed its deadline: miss is set, and DEADLINE_MISS is recorded and counted once for
each layer value. -/
def State.noteMiss (s : State) (p : PartNo) (idx layer : Nat) : State :=
  let l : W32 := BitVec.ofNat 32 layer
  let t := s.modPreg p (fun r => { r with ruleMiss := true })
  if l ∈ (s.ruling p).missed then t
  else ((t.countDie (s.home p).val ⟨0x11, 1, 0, 2, 2, some p, none, none⟩).modRuling p (fun r => { r with missed := r.missed ++ [l] })).recordRuling
    p 0x0206 idx layer

/-- R231: one element of a stream: 64 B granules from one place to another, with their poison; or its fault. -/
def State.moveElem (s : State) (p : PartNo) (sp : Space) (src dst n : Nat) (out : Bool) : State × Option PFault :=
  let m := masterMig (s.home p)
  let rq (a access : Nat) (ctxSide : Bool) : WalkReq := match sp, ctxSide with
    | .ctx id, true => ⟨p, 1, id, a, access, m, .plain, s.home p⟩
    | _, _ => ⟨p, 0, 0, a, access, m, .plain, s.home p⟩
  let as3 (e : PFault) : PFault := { e with access := 3 }
  match s.readVa (rq src 3 (!out)) n with
  | .error e => (s, some e)
  | .ok (bs, _) =>
    let t := s.touchVa 0 (rq src 3 (!out)) n
    let bads := (List.range (n / 64)).map (fun i => match s.readVa (rq (src + 64 * i) 3 (!out)) 64 with
      | .ok r => r.2
      | .error _ => true)
    match t.translateAll (rq dst 1 out) (pagePieces dst n) with
    | .error e => (t, some (as3 e))
    | .ok ts =>
      if ts.any (fun v => decide (tierOfFrame (v.1.ua / 65536) = some 2)) then (t, some { (rq dst 3 out).fault 5 3 0 with access := 3 })
      else (t.plainWrite (.engine m) (transPieces ts bs (fun i => bads.getD i false)), none)

/-- R231: runs a stream entry; the answer says whether every element landed. -/
def State.runStream (s : State) (p : PartNo) (b : List Byte) : State × Bool :=
  let m := masterMig (s.home p)
  let fl := leField b 3 1
  let out := bitOf fl 2
  let n := leField b 48 4
  let fail (t : State) (e : PFault) : State × Bool :=
    (t.reportPF p (dieM (s.home p)) (unitMigration (4 * (s.home p).val)) .operation { e with access := 3 }, false)
  let qd := s.engineReq p (leField b 56 8 - 64) 3 m
  match s.readVa qd 8, s.streamIds p b with
  | .error e, _ => fail s e
  | _, (_, .error e) => fail s e
  | .ok (db, _), (q, .ok ids) =>
    let s0 := (s.touchVa 0 qd 8).touchVa 0 q ((if bitOf fl 3 then 8 else 4) * leField b 12 4)
    (ids.zipIdx).foldl (fun (a : State × Bool) i =>
      if !a.2 then a
      else
        let there := leField b 16 8 + i.1 * leField b 52 4
        let here := leField db 0 8 + i.2 * n
        match a.1.moveElem p (entrySpace b) (if out then here else there) (if out then there else here) n out with
        | (t, some e) => fail t e
        | (t, none) => (t, true)) (s0, true)

/-- R231: a stream reaches flash: its tier says so, or a page of its object lies in a flash frame. -/
def State.streamFlash (s : State) (p : PartNo) (b : List Byte) : Bool :=
  let x := FX.fresh s p true
  decide (leField b 2 1 = 2) || (s.streamPages p b).any (fun g => match x.pageEntry p (entrySpace b) g with
    | .ok e => decide (tierOfFrame (bits e.2 16 32) = some 2)
    | .error _ => false)

/-- R231: a stream may not be: a scatter into flash, or a gather from flash that is not of whole 4 KiB sectors. -/
def State.streamBreach (s : State) (p : PartNo) (b : List Byte) : Bool :=
  s.streamFlash p b && (bitOf (leField b 3 1) 2 || decide (leField b 48 4 % 4096 ≠ 0) || decide (leField b 52 4 % 4096 ≠ 0) ||
    decide (leField b 16 8 % 4096 ≠ 0))

/-- R229 to R231: starts one well-formed entry. A stream that starts past its deadline is abandoned for its fallback, or goes on
after the miss is noted. -/
def State.startEntry (s : State) (p : PartNo) (idx : Nat) (b : List Byte) : State :=
  let layer := leField b 4 4
  let st := leField b 40 8
  let wants := bitOf (leField b 3 1) 0
  let fb := wants && s.fallbackOk p b
  let l32 : W32 := BitVec.ofNat 32 layer
  let s1 := if wants ∧ !fb then
      let t := s.modPreg p (fun r => { r with ruleErr := true })
      if l32 ∈ (t.ruling p).refused then t
      else (t.recordRuling p 0x0207 idx layer).modRuling p (fun r => { r with refused := r.refused ++ [l32] })
    else s
  if leField b 0 1 = 0x20 then
    let n := leField b 12 4
    let e : RuleEntry := ⟨idx, l32, BitVec.ofNat 64 (leField b 24 8), fb, st, entrySpace b, leField b 16 8 / 65536, n, n, false⟩
    let mv : Move := ⟨p, entrySpace b, leField b 16 8 / 65536, n, 1, leField b 2 1, .ruling p idx, some e.deadline, false⟩
    (s1.modRuling p (fun r => { r with started := r.started ++ [e] })).modMem (fun m => { m with moves := m.moves ++ [mv] })
  else if s.streamBreach p b then s1.skipEntry p idx layer st
  else
    let late := decide (leField b 24 8 < s.now)
    if late ∧ fb then (s1.noteFallback p).setStatus p st 2
    else
      let r := (if late then s1.noteMiss p idx layer else s1).runStream p b
      r.1.setStatus p st (if r.2 then 1 else 3)

/-- R229: starts entries in list order while they lie within the lookahead of the current layer. -/
def State.startEntries (s : State) (p : PartNo) (cur : W32) : Nat → State
  | 0 => s
  | n + 1 =>
    let r := s.ruling p
    let g := s.preg p
    if r.next = g.ruleTail then s
    else match s.dvRead p (masterMig (s.home p)) (g.ruleBase.toNat + 64 * r.next.toNat) 64 with
      | .error e => s.reportPF p (dieM (s.home p)) (unitMigration (4 * (s.home p).val)) .operation e
      | .ok (b, bad) =>
        let layer : W32 := BitVec.ofNat 32 (leField b 4 4)
        let idx := r.next.toNat
        let go (t : State) (keep : Bool) : State :=
          let t1 := if keep then t.modRuling p (fun x => { x with lastLayer := some layer }) else t
          State.startEntries (t1.modRuling p (fun x => { x with next := x.next + 1 })) p cur n
        if bad ∨ !entryFormOk b then go (s.skipEntry p idx layer.toNat (if bad then 0 else leField b 40 8)) false
        else if (match r.lastLayer with
            | some l => serialAfter l layer
            | none => false) then go (s.skipEntry p idx layer.toNat (leField b 40 8)) true
        else if g.ruleLook.toNat + 1 < serialAhead layer cur then s
        else go (s.startEntry p idx b) true

end Sys2Proof.Machine
end

