-- ==== Sys2Proof/Machine/OrderOps.lean ====
section
/-! DEFINITION. The bodies of MEMORY orders (R402) and cache orders (R267 to R284), and orders that wait on a spill or on
board memory (R225, R278, R500). -/

namespace Sys2Proof.Machine

/-! MEMORY orders (R402) -/

/-- R402: a MEMORY block that is well formed. The flags of MAP say nothing to the other operations. -/
def memoryFormOk (b : List Byte) : Bool :=
  let op := leField b 2 1
  let fl := leField b 3 1
  decide (leField b 0 2 = 0x0123) && decide (1 ≤ op) && decide (op ≤ 6) && decide (fl < 64) &&
  (decide (op ≠ 1 ∧ op ≠ 3) || decide (leField b 4 1 ≤ 2)) && decide (leField b 16 8 % 64 = 0) &&
  decide (leField b 24 8 % 65536 = 0) && decide (1 ≤ leField b 32 4) && decide (leField b 32 4 ≤ 2097152) &&
  zeroFrom b 36 4 && zeroFrom b 49 15 &&
  (decide (op ≠ 6) || (decide (leField b 40 8 % 65536 = 0) && decide (leField b 48 1 < 8)))

/-- What a MEMORY order has done. -/
structure MemRes where
  done : Nat
  skipped : Nat
  deriving DecidableEq, Repr

/-- R402: the target space of a MEMORY order. -/
def Job.space (j : Job) : Space := if bitOf (j.fld 3 1) 1 then .ctx (j.fld 6 2) else .dv

/-- R267, R402: the folio an order runs in: the one it joins, which must be OPEN, or one of its own. -/
def State.orderFolio (s : State) (p : PartNo) (join : Bool) (handle : W64) (tolerant : Bool) : Except OrdErr FX :=
  if join then
    let id := handleSlot handle
    if s.named p handle ∧ (s.slot id).mode = .opened then .ok (FX.ofSlot s id) else .error (.code 0x0306 0)
  else .ok (FX.fresh s p tolerant)

/-- R245: an order joins a folio that is DOOMED. -/
def State.joinsDoomed (s : State) (p : PartNo) (join : Bool) (handle : W64) : Bool :=
  join && s.named p handle && decide ((s.slot (handleSlot handle)).mode = .doomed)

/-- The pages a MEMORY order names. -/
def Job.pages (j : Job) : List Nat := (List.range (j.fld 32 4)).map (fun i => j.fld 24 8 / 65536 + i)

/-- The level-3 entry of a page of an order, present or not. -/
def FX.orderEntry (x : FX) (p : PartNo) (sp : Space) (root page : Nat) : Except OrdErr (Option Nat × Nat) :=
  ordFault (x.lookup (x.pageReq p sp page) root (65536 * page))

/-- R215 reason 9: the pages of an order lie inside its space. -/
def FX.inSpace (x : FX) (p : PartNo) (sp : Space) (first n : Nat) : Except OrdErr Unit :=
  let lim := match sp with
    | .dv => 2 ^ 36
    | .ctx _ => 2 ^ 28
  if first + n ≤ lim then .ok () else .error (.fault ((x.pageReq p sp (max first lim)).fault 9 0 0))

/-- R402 MAP: frames for every page, tables where they are missing. -/
def FX.memMap (x : FX) (j : Job) (root : Nat) : Except OrdErr (FX × MemRes) := do
  let fl := j.fld 3 1
  let b := bitOf fl 3
  let wt := bitOf fl 5
  let tier := j.fld 4 1
  let n := j.fld 32 4
  let es ← j.pages.mapM (fun g => x.orderEntry j.part j.space root g)
  if es.any (fun e => bitOf e.2 0) then .error (.code 0x0503 0)
  else if wt ∧ x.s.dictVal 0x4000 1 < x.s.weightUsage + n then
    .error (.detail 0x0203 ("weight limit".toUTF8.toList.map (fun c => BitVec.ofNat 8 c.toNat)))
  else if !x.s.fits j.part tier b n then .error (if b ∧ tier < 2 then .spill tier else .code 0x0203 0)
  else do
    let y ← j.pages.foldlM (fun (z : FX) g => do
      let r ← z.alloc j.part tier (j.fld 5 1) b false wt
      let z1 := if bitOf fl 4 then { r.1 with s := r.1.s.zeroFrame r.2 } else r.1
      let e ← z1.entryNew (z1.pageReq j.part j.space g) root (65536 * g)
      pure ((e.1.setRefs r.2 1).entry e.2 (leafEntry r.2 tier (bitOf fl 2)))) x
    pure (y, ⟨n, 0⟩)

/-- R402 UNMAP, PIN, UNPIN: what each present page undergoes; absent pages are skipped. -/
def FX.memEach (x : FX) (j : Job) (root : Nat) (g : FX → Nat → Nat → FX) : Except OrdErr (FX × MemRes) :=
  j.pages.foldlM (fun (a : FX × MemRes) page => do
    let e ← a.1.orderEntry j.part j.space root page
    match e.1 with
    | none => pure (a.1, { a.2 with skipped := a.2.skipped + 1 })
    | some ua =>
      if bitOf e.2 0 then do
        let _ ← a.1.frameOk (bits e.2 16 32)
        pure (g a.1 ua (bits e.2 16 32), { a.2 with done := a.2.done + 1 })
      else pure (a.1, { a.2 with skipped := a.2.skipped + 1 })) (x, ⟨0, 0⟩)

/-- R402, R273: removes one entry, with a delta of -1. -/
def FX.unmapOne (x : FX) (ua f : Nat) : FX := (x.entry ua 0).delta f false

/-- R402: a frame's pinned bit changes at the seal. -/
def FX.pinOne (v : Bool) (x : FX) (_ua f : Nat) : FX := { x with f := { x.f with pins := x.f.pins ++ [(f, v)] } }

/-- R402 MIGRATE, R220, R222: every page takes a home in the target tier and an allowed share. -/
def FX.memMigrate (x : FX) (j : Job) (root : Nat) : Except OrdErr (FX × MemRes) := do
  let tier := j.fld 4 1
  let mask := j.fld 5 1
  let es ← j.pages.mapM (fun g => do
    let e ← x.orderEntry j.part j.space root g
    pure (g, e))
  let here := es.filterMap (fun e => match e.2.1 with
    | some ua => if bitOf e.2.2 0 then some (e.1, ua, e.2.2) else none
    | none => none)
  let _ ← here.mapM (fun h => x.frameOk (bits h.2.2 16 32))
  let namedBy (f : Nat) : Nat := (here.filter (fun h => decide (bits h.2.2 16 32 = f))).length
  match here.find? (fun h =>
    let f := bits h.2.2 16 32
    (x.s.frame f).pinned || (bitOf h.2.2 3 && decide ((x.s.frame f).refs > 1) && decide ((x.s.frame f).refs ≠ namedBy f))) with
  | some h =>
    let f := bits h.2.2 16 32
    .error (.detail 0x0208 (u64s [f, (x.s.frame f).refs, namedBy f]))
  | none =>
    let inPlace (f : Nat) : Bool := decide (tierOfFrame f = some tier) && (decide (mask = 0) || bitOf mask (dieOfFrame f).val)
    let y ← here.foldlM (fun (z : FX × List Nat) h => do
      let f := bits h.2.2 16 32
      if inPlace f ∨ f ∈ z.2 then pure z
      else do
        let r ← z.1.alloc j.part tier mask (x.s.frame f).classB false (x.s.frame f).weight
        if bitOf h.2.2 3 then
          let uas := (here.filter (fun k => decide (bits k.2.2 16 32 = f))).map (fun k => k.2.1)
          pure (r.1.moveFrame f r.2 tier uas true, z.2 ++ [f])
        else do
          let q ← r.1.movePage j.part j.space h.1 f r.2 tier false
          let w ← q.1.noteMx j.part j.space h.1 false q.2
          let m := mdieOf (dieOfFrame r.2)
          pure (if q.2 then { (w.count m 0x0D 1) with s := (w.count m 0x0D 1).s.countApprox m.val } else w, z.2)) (x, [])
    pure (y.1, ⟨here.length, es.length - here.length⟩)

/-- R402 ALIAS: source pages become shared-immutable and the target maps them too. -/
def FX.memAlias (x : FX) (j : Job) (root : Nat) : Except OrdErr (FX × MemRes) := do
  let sp := partOf (j.fld 48 1)
  let n := j.fld 32 4
  let s0 := j.fld 40 8 / 65536
  let sroot ← x.spaceRoot sp .dv
  let _ ← x.inSpace sp .dv s0 n
  let ts ← j.pages.mapM (fun g => x.orderEntry j.part j.space root g)
  if ts.any (fun e => bitOf e.2 0) then .error (.code 0x0503 0)
  else do
    let es ← (List.range n).mapM (fun i => x.orderEntry sp .dv sroot (s0 + i))
    let fs := es.filterMap (fun e => if bitOf e.2 0 then some (bits e.2 16 32) else none)
    let _ ← fs.mapM (fun f => x.frameOk f)
    if fs.any (fun f => !x.refsFit f (fs.filter (fun g => decide (g = f))).length) then
      .error (.detail 0x0203 ("reference count".toUTF8.toList.map (fun c => BitVec.ofNat 8 c.toNat)))
    else (es.zip j.pages).foldlM (fun (a : FX × MemRes) q => do
      match q.1.1 with
      | none => pure (a.1, { a.2 with skipped := a.2.skipped + 1 })
      | some sua =>
        if !bitOf q.1.2 0 then pure (a.1, { a.2 with skipped := a.2.skipped + 1 })
        else do
          let f := bits q.1.2 16 32
          let e := q.1.2 - q.1.2 % 16 + (q.1.2 % 2) + 8
          let y := (a.1.intent f false).entry sua e
          let r ← y.entryNew (y.pageReq j.part j.space q.2) root (65536 * q.2)
          pure ((r.1.entry r.2 e).delta f true, { a.2 with done := a.2.done + 1 })) (x, ⟨0, 0⟩)

/-- R249: the own folio of a MEMORY order tolerates poison when it migrates, or maps pages of class B. -/
def Job.memTolerant (j : Job) : Bool := decide (j.fld 2 1 = 3) || (decide (j.fld 2 1 = 1) && bitOf (j.fld 3 1) 3)

/-- R402: the body of a MEMORY order inside its folio. -/
def State.memoryBody (s : State) (j : Job) : Except OrdErr (FX × MemRes) := do
  let op := j.fld 2 1
  let x ← s.orderFolio j.part (bitOf (j.fld 3 1) 0) (BitVec.ofNat 64 (j.fld 8 8)) j.memTolerant
  let root ← x.spaceRoot j.part j.space
  let _ ← x.inSpace j.part j.space (j.fld 24 8 / 65536) (j.fld 32 4)
  match op with
  | 1 => x.memMap j root
  | 2 => x.memEach j root FX.unmapOne
  | 3 => x.memMigrate j root
  | 4 => x.memEach j root (FX.pinOne true)
  | 5 => x.memEach j root (FX.pinOne false)
  | _ => x.memAlias j root

/-- R402: the result record. -/
def memRecord (code op : Nat) (r : MemRes) (epoch page : Nat) : List Byte :=
  leBytes 2 code ++ leBytes 1 op ++ leBytes 1 0 ++ leBytes 4 r.done ++ leBytes 4 r.skipped ++ leBytes 4 epoch ++ leBytes 8 page ++
  List.replicate 40 0

/-- The faulting page that an order's end names. -/
def OrdErr.page : OrdErr → Nat
  | .read _ _ e => e.page
  | .at_ _ _ e => e.page
  | .fault f => f.address
  | .code _ p => p
  | _ => 0

/-- R402: a MEMORY order ends without effect. -/
def State.refuseMemory (s : State) (j : Job) (e : OrdErr) : State :=
  let r := s.failOrder j.part e
  r.1.endRecord j (j.fld 16 8) { r.2 with payload := memRecord r.2.code.toNat (j.fld 2 1) ⟨0, 0⟩ 0 e.page }

/-- R402: a MEMORY order ends with its folio, or with its writes when it joins one. -/
def State.finishMemory (s : State) (j : Job) (x : FX) (r : MemRes) : State :=
  let op := j.fld 2 1
  if bitOf (j.fld 3 1) 0 then
    let code : W16 := if x.f.mode = .doomed then x.f.cause else 0
    x.done.endRecord j (j.fld 16 8) { Done.of code.toNat with payload := memRecord code.toNat op r 0 0, info := BitVec.ofNat 32 r.done }
  else
    let f := x.finish true
    let r1 := if f.2.1 = 0 then r else ⟨0, 0⟩
    f.1.endRecord j (j.fld 16 8)
      { Done.of f.2.1.toNat with payload := memRecord f.2.1.toNat op r1 f.2.2.toNat 0, info := BitVec.ofNat 32 r1.done }

/-! Cache orders (R267 to R284) -/

/-- R262, R267: a cache order block that is well formed. -/
def cacheFormOk (b : List Byte) : Bool :=
  let op := leField b 2 1
  let fl := leField b 3 1
  decide (leField b 0 2 = 0x0140) && decide (1 ≤ op) && decide (op ≤ 6) && decide (fl < 2) && (bitOf fl 0 || zeroFrom b 8 8) &&
  (decide (op = 4) || zeroFrom b 6 2) && decide (leField b 16 8 % 64 = 0) &&
  (match op with
   | 1 => decide (leField b 24 1 < 16) && decide (leField b 25 1 ≤ 2) && decide (1 ≤ leField b 26 2) && decide (leField b 26 2 ≤ 1023) &&
     decide (1 ≤ leField b 28 1) && decide (leField b 26 2 * leField b 28 1 ≤ 1023) && decide (leField b 29 1 ≤ 3) &&
     decide (leField b 30 1 ≤ 15) && zeroFrom b 31 1 && decide (1 ≤ leField b 46 4) && decide (leField b 46 4 ≤ 65536) && zeroFrom b 50 14
   | 2 => zeroFrom b 24 40
   | 3 => decide (1 ≤ leField b 26 2) && decide (1 ≤ leField b 28 4) && decide (leField b 28 4 ≤ 65536) &&
     decide (leField b 44 8 % 64 = 0) && (decide (leField b 52 1 = 6) || decide (leField b 52 1 = 9)) && zeroFrom b 53 11 &&
     decide (leField b 32 6 + leField b 28 4 ≤ 2 ^ 48) && decide (leField b 38 6 + leField b 28 4 ≤ 2 ^ 48)
   | 5 => decide (leField b 24 8 % 8 = 0) && decide (1 ≤ leField b 32 4) && decide (leField b 32 4 ≤ 65536) && zeroFrom b 36 28
   | _ => decide (leField b 24 6 % 256 = 0) && decide (1 ≤ leField b 30 4) && zeroFrom b 40 24)

/-- R268: what a cache order has done. -/
structure CacheRes where
  flags : Nat
  stream : Nat
  page : Nat
  opened : Nat
  copied : Nat
  released : Nat
  deriving DecidableEq, Repr

/-- Nothing done yet. -/
def CacheRes.none : CacheRes := ⟨0, 0, 0, 0, 0, 0⟩

/-- Sets a flag of the result. -/
def CacheRes.flag (r : CacheRes) (i : Nat) : CacheRes := { r with flags := r.flags ||| 2 ^ i }

/-- R268: the result record. -/
def cacheRecord (code op ctx : Nat) (r : CacheRes) (epoch : Nat) : List Byte :=
  leBytes 2 code ++ leBytes 1 op ++ leBytes 1 r.flags ++ leBytes 2 ctx ++ leBytes 2 r.stream ++ leBytes 8 r.page ++
  leBytes 4 r.opened ++ leBytes 4 r.copied ++ leBytes 4 r.released ++ leBytes 4 epoch ++ List.replicate 32 0

/-- R262, R264: the layer map of a CREATE: unreadable gives CONTEXT_REFUSED, broken BAD_ORDER. -/
def FX.readLmap (x : FX) (p : PartNo) (addr layers slots : Nat) : Except OrdErr (FX × List (W32 × W16)) :=
  let m := masterInk (x.s.home p)
  match x.dvRead p m addr (8 * layers) with
  | .error _ => .error (.code 0x0204 0)
  | .ok (y, bs, bad) =>
    if bad then .error (.read (x.dvReq p m addr) (8 * layers) (.code 0x0204 0))
    else
      let es := (List.range layers).map (fun l => (leField bs (8 * l) 4, leField bs (8 * l + 4) 2, leField bs (8 * l + 6) 2))
      if es.any (fun e => decide (e.2.2 ≠ 0) || decide (e.1 = 1) || decide (slots ≤ e.2.1) || decide (slots < e.1 + e.2.1)) then
        .error (.code 0x0503 0)
      else .ok (y, es.map (fun e => (BitVec.ofNat 32 e.1, BitVec.ofNat 16 e.2.1)))

/-- R277: any charge of a CREATE that does not fit refuses the context. -/
def refusedCtx {α : Type} (r : Except OrdErr α) : Except OrdErr α :=
  match r with
  | .error (.code 0x0203 _) => .error (.code 0x0204 0)
  | .error (.spill _) => .error (.code 0x0204 0)
  | q => q

/-- R20: the chunk length of T tokens on N members. -/
def chunkLen (t n : Nat) : Nat := 256 * ((t + 512 * n - 1) / (512 * n))

/-- R20: the cut of T tokens over N members leaves the last chunk empty. -/
def cutEmpty (t n : Nat) : Bool := decide (t ≤ (2 * n - 1) * chunkLen t n)

/-- R20, R22: a CREATE of a class P context of a training sequence whose last chunk would be empty. What T and N are is a free
value of the block (DESIGN CHOICE, log 164). -/
def Job.cutRefused (j : Job) : Bool :=
  !bitOf (j.fld 24 1) 0 && (Config.trainingCut j.block).any (fun c => cutEmpty c.1 c.2)

/-- R275: the id of a descriptor is not named again while the folio that releases it has sealed and its invalidation is not
complete (R214). -/
def FX.stillReleasing (x : FX) (a : Nat) : Bool := x.s.liveSlots.any (fun e => decide (e.2.mode = .sealed) && decide (a ∈ e.2.releasing))

/-- R20, R262, R275, R277 CREATE: the descriptor, the root table and the first note page. The time in it is that of the seal. -/
def FX.cacheCreate (x : FX) (j : Job) : Except OrdErr (FX × CacheRes) := do
  let id := j.fld 4 2
  let p := j.part
  match x.s.ctxAddr (x.s.home p) id with
  | none => .error (.code 0x0204 0)
  | some a =>
    if x.bad a 128 then .error (.poisoned a)
    else if leField (x.read a 128) 2 1 ≠ 0 ∨ x.stillReleasing a then .error (.reject 0 (stateMask [0]))
    else if x.s.dictVal (0x4200 + p.val) 7 ≤ (x.s.liveCtxs p).length ∨ j.cutRefused then .error (.code 0x0204 0)
    else do
      let layers := j.fld 26 2
      let dim := 64 * 2 ^ j.fld 25 1
      let lm ← x.readLmap p (j.fld 32 8) layers (slotsPer dim)
      let r ← refusedCtx (lm.1.alloc p 0 0 false true false)
      let y := ({ r.1 with s := r.1.s.zeroFrame r.2 } : FX)
      let d := leBytes 1 0x41 ++ leBytes 1 1 ++ leBytes 1 1 ++ leBytes 1 (j.fld 24 1) ++ leBytes 1 p.val ++ leBytes 1 (j.fld 25 1) ++
        leBytes 2 layers ++ leBytes 1 (j.fld 28 1) ++ leBytes 1 (j.fld 29 1) ++ leBytes 1 (j.fld 30 1) ++ leBytes 5 0 ++
        leBytes 8 (65536 * r.2) ++ leBytes 8 (j.fld 32 8) ++ leBytes 6 (j.fld 40 6) ++ leBytes 2 0 ++ leBytes 4 (j.fld 46 4) ++
        leBytes 4 0 ++ leBytes 8 0 ++ leBytes 8 0 ++ List.replicate 64 0
      let z0 := y.writeOwn a d
      let z := { z0 with f := { z0.f with timeStamps := z0.f.timeStamps ++ [a + 56] } }
      let c : Ctx := ⟨id, a, d⟩
      let w ← refusedCtx (z.noteNew p c 0 0)
      pure ({ w.1 with s := w.1.s.modMem (fun m => { m with lmaps := Tab.set [] m.lmaps id lm.2 }) }, CacheRes.none)

/-- R310, R311: drops the subgraphs of a released context's streams in every LIVE index of span items of the partition: a
spill may have gone to an index that *kv_index* named before. -/
def FX.dropStreams (x : FX) (p : PartNo) (c : Ctx) : Except OrdErr FX :=
  ((List.range 255).filterMap (fun i => match x.ix p i with
    | .ok y => if y.f 4 1 = 0 then some y else none
    | .error _ => none)).foldlM (fun (x : FX) y => (List.range c.streams).foldlM (fun (z : FX) st => do
      let g := c.id * 1024 + st
      if y.f 80 4 ≤ g then pure z
      else do
        let sub ← z.area p (y.subAddr g) 32
        let fl := leField sub.1 15 1
        if bitOf fl 0 then z.areaWrite p (y.subAddr g + 15) [BitVec.ofNat 8 (fl - 1 ||| 2)] (fun _ => false) else pure z) x) x

/-- R275 RELEASE: RELEASING at once; in the folio the root gives way to none and the descriptor becomes FREE. -/
def FX.cacheRelease (x : FX) (j : Job) : Except OrdErr (FX × CacheRes) := do
  let c ← x.ctx j.part (j.fld 4 2)
  let held := ((x.ctxNotes c).filter (fun e => e.2.2.2.present)).length
  let y ← x.dropStreams j.part c
  let z := (y.writeOwn (c.a + 2) (leBytes 1 0)).writeOwn (c.a + 16) (leBytes 8 0)
  pure ({ z with s := z.s.modMem (fun m => { m with cells := m.cells.set (c.a + 2) 2 }),
                 f := { z.f with releasing := z.f.releasing ++ [c.a], subtrees := z.f.subtrees ++ [(c.root, 1)] } },
        { CacheRes.none with released := held })

/-- R269: staging: where it begins, its format, the tokens of the order and the first of them. -/
structure AppendSrc where
  addr : Nat
  fmt : ElemFmt
  count : Nat
  first : Nat
  deriving DecidableEq, Repr

/-- R269: where half `h` (0 keys, 1 values) of unit `u` holds a token. -/
def AppendSrc.at_ (g : AppendSrc) (d u h i : Nat) : Nat := g.addr + ((2 * u + h) * g.count + (i - g.first)) * d * (g.fmt.width / 8)

/-- R269, R270: the tokens from `first` on of one half of one page, as an inkwell has read them: where they lay, their bytes,
the poisoned granules of staging among them. -/
structure StageRun where
  addr : Nat
  bytes : List Byte
  bad : List Nat
  fmt : ElemFmt
  first : Nat
  deriving DecidableEq, Repr

/-- R271: an inkwell reads from staging the tokens a to b of one half of its page. -/
def FX.readStaging (x : FX) (p : PartNo) (m : MDie) (g : AppendSrc) (d u h a b : Nat) : Except OrdErr (FX × StageRun) := do
  let at_ := g.at_ d u h a
  let n := (b - a) * d * (g.fmt.width / 8)
  let r ← ordFault (x.dvRead p (masterInk m) at_ n)
  let bad := if r.2.2 then (gransOf at_ n).filter (fun q => match x.dvRead p (masterInk m) (64 * q) 64 with
      | .ok v => v.2.2
      | .error _ => false)
    else []
  pure (r.1, ⟨at_, r.2.1, bad, g.fmt, a⟩)

/-- R269: the elements of a token. -/
def StageRun.row (g : StageRun) (d i : Nat) : List Val := rowVals g.fmt (g.bytes.drop ((i - g.first) * d * (g.fmt.width / 8))) d

/-- R270 step 5: a poisoned granule of staging feeds element `k` of a token. -/
def StageRun.badAt (g : StageRun) (d i k : Nat) : Bool :=
  decide ((g.addr + ((i - g.first) * d + k) * (g.fmt.width / 8)) / 64 ∈ g.bad)

/-- R270: writes one half (keys or values) of a page: tokens a to b of the sequence into a page whose token 0 has index
`base`, `filled` tokens being there already under a scale; answers the new scale and whether it rose. `ua` is where the
half begins. -/
def FX.putHalf (x : FX) (g : StageRun) (d ua base a b filled headroom : Nat) (scale : W32) : FX × W32 × Bool :=
  let toks := (List.range (b - a)).map (fun i => a + i)
  let rows := toks.map (g.row d)
  let ex := amaxExpo rows.flatten
  let old := expoInt scale
  let rise := decide (filled ≠ 0) && (match ex with
    | some e => decide (old < e - 8)
    | none => false)
  let k0 : Int := if filled = 0 then (match ex with
      | some e => e - 8 + (headroom : Int)
      | none => 0)
    else if rise then (ex.getD 0) - 8 else old
  let k := clampScale k0
  let bs := rows.flatMap (quantise k)
  let start := ua + (a - base) * d
  let feeds := toks.flatMap (fun i => (List.range d).filterMap (fun e =>
    if g.badAt d i e then some ((ua + (i - base) * d + e) / 64) else none))
  if rise then
    let pre := x.read ua (filled * d)
    let preBad := (gransOf ua (filled * d)).filter (fun q => (x.s.gran x.view q).poison)
    let all := requantise old k pre ++ bs
    (x.writeUa ua all (fun i => decide (ua / 64 + i ∈ preBad) || decide (ua / 64 + i ∈ feeds)), pow2F32 k, true)
  else (x.writeUa start bs (fun i => decide (start / 64 + i ∈ feeds)), if filled = 0 then pow2F32 k else scale, false)

/-- A code of an order about a page of a stream. -/
def pageErr {α : Type} (c st page : Nat) : Except OrdErr α := .error (.at_ st page (.code c 0))

/-- R274, R276, R269: the frames of a page that an append writes: its own, fresh ones, or copies of ones under copy on
write. `pos0` is the position that token 0 of the page has or would have. Answers the folio, the frames, the note to continue,
and the result. -/
def FX.openPage (x : FX) (p : PartNo) (c : Ctx) (l st n a : Nat) (pos0 : Int) (r : CacheRes) :
    Except OrdErr (FX × List Nat × Nat × Note × CacheRes) := do
  let lay := x.s.layerOf c.id l
  let slot := x.s.slotOf c l n
  let nt ← x.note p c st slot
  let base := st * 2 ^ 34 + slot * pageBytes c.dim
  let nf := pageBytes c.dim / 65536
  let here := match nt with
    | some q => if q.2.present then some q else none
    | none => none
  let fresh (y0 : FX) (r0 : CacheRes) : Except OrdErr (FX × List Nat × Nat × Note × CacheRes) := do
    if a ≠ 256 * n then pageErr 0x020B st n
    else do
      let y ← (List.range nf).foldlM (fun (z : FX × List Nat) i => do
        let q ← z.1.alloc p 0 0 c.classB false false
        let m ← ({ q.1 with s := q.1.s.zeroFrame q.2 } : FX).mapCtx p c (base + 65536 * i) q.2 true
        pure (m, z.2 ++ [q.2])) (y0, [])
      let w ← y.1.noteNew p c st slot
      pure (w.1, y.2, w.2, ⟨0, 0, pos0.toNat, 0, 0, 0, st, n, 0, 0, c.f 44 4⟩, { r0 with opened := r0.opened + 1 })
  match here with
  | none => fresh x r
  | some (ua, q) =>
    if q.page = n then
      if q.filled ≠ a - 256 * n ∨ (q.pos : Int) ≠ pos0 then pageErr 0x020B st n
      else do
        let es ← x.pageEnts p c st slot
        if es.any (fun e => !bitOf e.2 0) then .error (.fault ((x.ctxReq p c base).fault 1 3 0))
        else match es.find? (fun e => bitOf e.2 4 || decide (tierOfFrame (bits e.2 16 32) = some 2)) with
          | some e => .error (.fault ((x.ctxReq p c base).fault (if bitOf e.2 4 then 7 else 5) 3 e.2))
          | none =>
            if es.any (fun e => bitOf e.2 2 || bitOf e.2 3) then do
              let y ← (es.zipIdx).foldlM (fun (z : FX × List Nat) e => do
                let old := bits e.1.2 16 32
                let _ ← z.1.frameOk old
                let g ← z.1.alloc p 0 0 c.classB false (x.s.frame old).weight
                let m ← ({ g.1 with s := (g.1.s.touchFrame 0 (some p) old).copyFrame old g.2 } : FX).mapCtx p c (base + 65536 * e.2) g.2 true
                pure (m.delta old false, z.2 ++ [g.2])) (x, [])
              pure (y.1.count (mdieOf (dieOfFrame (y.2.headD 0))) 0x0F 1, y.2, ua, q.flag 2 false, { r with copied := r.copied + 1 }.flag 2)
            else pure (x, es.map (fun e => bits e.2 16 32), ua, q, r)
    else if lay.1 ≠ 0 ∧ lay.2 + lay.1 ≤ n ∧ q.page = n - lay.1 then do
      let es ← x.pageEnts p c st slot
      let y := es.foldl (fun (z : FX) e => match e.1 with
        | none => z
        | some e0 => if bitOf e.2 0 then (z.entry e0 0).delta (bits e.2 16 32) false else z) x
      fresh y { r with released := r.released + 1 }
    else pageErr 0x020A st n

/-- R268: an order's end at a page of a stream; one that names its page stays so. -/
def atPage {α : Type} (st page : Nat) (r : Except OrdErr α) : Except OrdErr α :=
  match r with
  | .error (.spill t) => .error (.spill t)
  | .error .uninit => .error .uninit
  | .error (.at_ s n e) => .error (.at_ s n e)
  | .error e => .error (.at_ st page e)
  | q => q

/-- R268: names the page at which a folio was doomed. -/
def CacheRes.doomedAt (r : CacheRes) (x : FX) (st page : Nat) : CacheRes :=
  if x.f.mode = .doomed then { r with stream := st, page := page } else r

/-- R269 to R271: one page of one stream takes its tokens of the append, served by the inkwell of the memory-side die that holds
the page's home. -/
def FX.appendPage (x : FX) (p : PartNo) (c : Ctx) (g : AppendSrc) (j : Job) (l k n : Nat) (r : CacheRes) : Except OrdErr (FX × CacheRes) := do
  let st := l * c.heads + k
  if x.f.mode ≠ .opened then pure (x, r)
  else atPage st n (do
    let first := j.fld 32 6
    let a := max first (256 * n)
    let b := min (first + j.fld 28 4) (256 * n + 256)
    let pos0 : Int := (j.fld 38 6 : Int) + 256 * n - first
    let o ← x.openPage p c l st n a pos0 r
    let (y, fs, ua, q, r1) := o
    let d := c.dim
    let u := (l - j.fld 24 2) * c.heads + k
    let kAt := 65536 * fs.headD 0
    let vAt := if d = 256 then 65536 * (fs.getD 1 0) else kAt + 32768
    let m := mdieOf (dieOfFrame (fs.headD 0))
    let gk ← y.readStaging p m g d u 0 a b
    let gv ← gk.1.readStaging p m g d u 1 a b
    let h0 := gv.1.putHalf gk.2 d kAt (256 * n) a b q.filled (c.f 9 1) q.kscale
    let h1 := h0.1.putHalf gv.2 d vAt (256 * n) a b q.filled (c.f 9 1) q.vscale
    let rises := (if h0.2.2 then 1 else 0) + (if h1.2.2 then 1 else 0)
    let z := if rises = 0 then h1.1 else h1.1.count m 0x0E rises
    let filled := q.filled + (b - a)
    let q1 : Note := { q with kscale := h0.2.1, vscale := h1.2.1, filled := filled, stream := st, page := n,
                              fullTime := if filled = 256 ∧ !bitOf q.flags 1 then x.s.now else q.fullTime }
    let q2 := (((q1.flag 0 true).flag 1 (decide (filled = 256))).flag 2 false)
    let q3 := if rises = 0 then q2 else q2.flag 6 true
    let w := z.putNote ua q3
    pure (w, (if rises = 0 then r1 else r1.flag 1).doomedAt w st n))

/-- R269 to R277 APPEND: every page of every stream of the layers, in ascending index. -/
def FX.cacheAppend (x : FX) (j : Job) : Except OrdErr (FX × CacheRes) := do
  let p := j.part
  let c ← x.ctx p (j.fld 4 2)
  let l0 := j.fld 24 2
  let nl := j.fld 26 2
  let t := j.fld 28 4
  let first := j.fld 32 6
  if c.layers < l0 + nl then .error (.code 0x0503 0)
  else
    let past := decide (l0 = 0) && decide (c.f 32 6 < c.f 48 8 + t)
    if past ∧ !c.classB then .error (.code 0x0203 0)
    else do
      let fmt := fmtOf (j.fld 52 1)
      let g : AppendSrc := ⟨j.fld 44 8, fmt, t, first⟩
      let n0 := first / 256
      let n1 := (first + t - 1) / 256
      let r0 := if past then CacheRes.none.flag 0 else CacheRes.none
      let r ← (List.range nl).foldlM (fun (a : FX × CacheRes) i =>
        (List.range c.heads).foldlM (fun (a : FX × CacheRes) k =>
          (List.range (n1 + 1 - n0)).foldlM (fun (a : FX × CacheRes) m => a.1.appendPage p c g j (l0 + i) k (n0 + m) a.2) a) a) (x, r0)
      let c1 := r.1.reloadCtx c
      pure (if l0 = 0 then r.1.writeOwn (c.a + 48) (leBytes 8 (c1.f 48 8 + t)) else r.1, r.2)

/-- A position moved by a signed 48-bit delta, when the page stays within 48 bits (R284). -/
def movedPos (pos delta : Nat) : Except OrdErr Nat :=
  let q : Int := (pos : Int) + signedOf 48 delta
  if 0 ≤ q ∧ q + 255 < 2 ^ 48 then .ok q.toNat else .error (.code 0x0503 0)

/-- The notes of a context for the pages an order names, as the folio sees them (R241), and how many pages that leaves out. -/
def FX.namedNotes (x : FX) (c : Ctx) (j : Job) (q : Note → Bool) : List (Nat × Nat × Nat × Note) × Nat :=
  let n0 := j.fld 24 6 / 256
  let k := j.fld 30 4
  let ns := (x.ctxNotes c).filter (fun e => decide (e.1 < c.streams) && decide (n0 ≤ e.2.2.2.page) && decide (e.2.2.2.page < n0 + k) && q e.2.2.2)
  (ns, c.streams * k - ns.length)

/-- R272 SHARE: one present page of the source is mapped into the target. -/
def FX.sharePage (x : FX) (p : PartNo) (src dst : Ctx) (delta : Nat) (e : Nat × Nat × Nat × Note) : Except OrdErr FX := do
  let st := e.1
  let n := Note.ofBytes (x.read e.2.2.1 64)
  if x.f.mode ≠ .opened then pure x
  else atPage st n.page (do
    let l := st / max 1 src.heads
    let tslot := x.s.slotOf dst l n.page
    let pos ← movedPos n.pos delta
    let tn ← x.note p dst st tslot
    if (match tn with
      | some q => q.2.present
      | none => false) then pageErr 0x020A st n.page
    else do
      let es ← x.pageEnts p src st e.2.1
      let shared := es.any (fun v => bitOf v.2 3)
      let y ← (es.zipIdx).foldlM (fun (z : FX) v => do
        match v.1.1 with
        | none => pure z
        | some ua =>
          let f := bits v.1.2 16 32
          let _ ← z.frameOk f
          if !z.refsFit f 1 then
            .error (.detail 0x0203 ("reference count".toUTF8.toList.map (fun c => BitVec.ofNat 8 c.toNat)))
          else
            let e1 := if bitOf v.1.2 3 then v.1.2 else v.1.2 - v.1.2 % 8 + 1 + 4
            let z1 := if e1 = v.1.2 then z else z.entry ua e1
            let off := st * 2 ^ 34 + tslot * pageBytes dst.dim + 65536 * v.2
            let r ← z1.entryNew (z1.ctxReq p dst off) dst.root off
            pure ((r.1.entry r.2 e1).delta f true)) x
      let n1 := n.flag 2 (!shared)
      let w ← y.noteNew p dst st tslot
      pure ((w.1.putNote e.2.2.1 n1).putNote w.2 { n1 with pos := pos }))

/-- R272 SHARE. -/
def FX.cacheShare (x : FX) (j : Job) : Except OrdErr (FX × CacheRes) := do
  let p := j.part
  let dst ← x.ctx p (j.fld 4 2)
  let src ← x.ctx p (j.fld 6 2)
  if dst.f 5 1 ≠ src.f 5 1 ∨ dst.layers ≠ src.layers ∨ dst.heads ≠ src.heads then .error (.code 0x0503 0)
  else do
    let ns := x.namedNotes src j (fun n => n.present)
    let _ ← ns.1.mapM (fun e => atPage e.1 e.2.2.2.page (movedPos e.2.2.2.pos (j.fld 34 6)))
    ns.1.foldlM (fun (a : FX × CacheRes) e => do
      let z ← a.1.sharePage p src dst (j.fld 34 6) e
      pure (z, if a.1.f.mode = .opened then a.2.doomedAt z e.1 e.2.2.2.page else a.2)) (x, { CacheRes.none with released := ns.2 })

/-- R282 MASS: the tick advances, then the list is applied in order. -/
def FX.cacheMass (x : FX) (j : Job) : Except OrdErr (FX × CacheRes) := do
  let p := j.part
  let c ← x.ctx p (j.fld 4 2)
  let n := j.fld 32 4
  let m := masterInk (x.s.home p)
  let r ← ordFault (x.dvRead p m (j.fld 24 8) (8 * n))
  if r.2.2 then .error (.read (x.dvReq p m (j.fld 24 8)) (8 * n) (.code 0x0205 0))
  else do
    let tick := (c.f 44 4 + 1) % 2 ^ 32
    let y := r.1.writeOwn (c.a + 44) (leBytes 4 tick)
    (List.range n).foldlM (fun (a : FX × CacheRes) i => do
      let st := leField r.2.1 (8 * i) 2
      let inc := leField r.2.1 (8 * i + 2) 2
      let slot := leField r.2.1 (8 * i + 4) 4
      if c.streams ≤ st ∨ slotsPer c.dim ≤ slot ∨ a.1.f.mode ≠ .opened then pure a
      else do
        let nt ← a.1.note p c st slot
        match nt with
        | some (ua, q) =>
          if q.present then
            let z := a.1.putNote ua { q with mass := min 65535 (q.effMass tick (c.f 10 1) + inc), tick := tick }
            pure (z, a.2.doomedAt z st q.page)
          else pure a
        | none => pure a) (y, CacheRes.none)

/-- R284 REBASE: the positions of the named pages move. -/
def FX.cacheRebase (x : FX) (j : Job) : Except OrdErr (FX × CacheRes) := do
  let c ← x.ctx j.part (j.fld 4 2)
  let ns := (x.namedNotes c j (fun n => n.present || bitOf n.flags 3 || bitOf n.flags 4)).1
  ns.foldlM (fun (a : FX × CacheRes) e => do
    let q := Note.ofBytes (a.1.read e.2.2.1 64)
    let pos ← atPage e.1 q.page (movedPos q.pos (j.fld 34 6))
    let z := a.1.putNote e.2.2.1 { q with pos := pos }
    pure (z, if a.1.f.mode = .opened then a.2.doomedAt z e.1 q.page else a.2)) (x, CacheRes.none)

/-- R249, R267: a cache order's own folio tolerates poison for class B alone. -/
def State.cacheTolerant (s : State) (j : Job) : Bool :=
  if j.fld 2 1 = 1 then bitOf (j.fld 24 1) 0
  else match (FX.fresh s j.part true).ctx j.part (j.fld 4 2) with
    | .ok c => c.classB
    | .error _ => false

/-- R267: the body of a cache order inside its folio. -/
def State.cacheBody (s : State) (j : Job) : Except OrdErr (FX × CacheRes) := do
  let op := j.fld 2 1
  let x0 := FX.fresh s j.part (s.cacheTolerant j)
  let _ ← (if op = 1 then pure () else do
    let _ ← x0.ctx j.part (j.fld 4 2)
    if op = 4 then do
      let _ ← x0.ctx j.part (j.fld 6 2)
      pure ()
    else pure ())
  let x ← s.orderFolio j.part (bitOf (j.fld 3 1) 0) (BitVec.ofNat 64 (j.fld 8 8)) x0.f.tolerant
  match op with
  | 1 => x.cacheCreate j
  | 2 => x.cacheRelease j
  | 3 => x.cacheAppend j
  | 4 => x.cacheShare j
  | 5 => x.cacheMass j
  | _ => x.cacheRebase j

/-- R268: the stream and page of a fault. -/
def OrdErr.place : OrdErr → Nat × Nat
  | .at_ st page _ => (st, page)
  | .read _ _ e => e.place
  | _ => (0, 0)

/-- R268: a cache order ends without effect. -/
def State.refuseCache (s : State) (j : Job) (e : OrdErr) : State :=
  let r := s.failOrder j.part e
  let s1 := if r.2.code = 0x0503 then r.1.modPreg j.part (fun g => { g with inkErr := true }) else r.1
  s1.endRecord j (j.fld 16 8)
    { r.2 with payload := cacheRecord r.2.code.toNat (j.fld 2 1) (j.fld 4 2)
                 { CacheRes.none with stream := e.place.1, page := e.place.2 } 0 }

/-- R268: a cache order ends with its folio, or with its writes when it joins one. -/
def State.finishCache (s : State) (j : Job) (x : FX) (r : CacheRes) : State :=
  let rec0 (code epoch : Nat) : List Byte := cacheRecord code (j.fld 2 1) (j.fld 4 2) r epoch
  if bitOf (j.fld 3 1) 0 then
    let code : W16 := if x.f.mode = .doomed then x.f.cause else 0
    x.done.endRecord j (j.fld 16 8) { Done.of code.toNat with payload := rec0 code.toNat 0 }
  else
    let f := x.finish true
    f.1.endRecord j (j.fld 16 8) { Done.of f.2.1.toNat with payload := rec0 f.2.1.toNat f.2.2.toNat }

/-! Running and waiting -/

/-- Runs the body of a MEMORY or cache order; an order that must wait leaves the state as it was. The writes of a MEMORY order
that joins a DOOMED folio are dropped without a fault (R245; its record counts nothing: DEDUCED, log 175). -/
def State.runOrder (s : State) (cls : Nat) (j : Job) : State × Option OrdErr :=
  if cls = 5 then
    if s.joinsDoomed j.part (bitOf (j.fld 3 1) 0) (BitVec.ofNat 64 (j.fld 8 8)) then
      (s.endRecord j (j.fld 16 8) { Done.of 0 with payload := memRecord 0 (j.fld 2 1) ⟨0, 0⟩ 0 0 }, none)
    else match s.memoryBody j with
    | .ok (x, r) => (s.finishMemory j x r, none)
    | .error (.spill t) => (s, some (.spill t))
    | .error .uninit => (s, some .uninit)
    | .error e => (s.refuseMemory j e, none)
  else
    match s.cacheBody j with
    | .ok (x, r) => (s.finishCache j x r, none)
    | .error (.spill t) => (s, some (.spill t))
    | .error .uninit => (s, some .uninit)
    | .error e => (s.refuseCache j e, none)

/-- A waiting order is refused with QUOTA_EXCEEDED. -/
def State.refuseWait (s : State) (cls : Nat) (j : Job) : State :=
  if cls = 5 then s.refuseMemory j (.code 0x0203 0) else s.refuseCache j (.code 0x0203 0)

/-- The order as it waits. -/
def Job.waitAs (j : Job) (cls : Nat) (tier : Option Nat) : WaitOrd := ⟨j.part, cls, j.fld 2 1, j.block, j.orderId, tier⟩

/-- Puts an order among those that wait. -/
def State.addWait (s : State) (w : WaitOrd) : State := s.modMem (fun m => { m with waits := m.waits ++ [w] })

/-- R225, R278: runs an order, or lets it wait; `again` marks one that has waited: it is refused when the last batch
sealed nothing. -/
def State.runOrWait (s : State) (cls : Nat) (j : Job) (again : Bool) : State :=
  match s.runOrder cls j with
  | (s1, none) => s1
  | (_, some (.spill t)) =>
    if (s.batchOf j.part t).isSome then s.addWait (j.waitAs cls (some t))
    else if again && (match Tab.get none s.mem.lastBatch (4 * j.part.val + t) with
        | some b => decide (b.1 = 0)
        | none => true) then s.refuseWait cls j
    else match s.startSpill j.part t with
      | none => s.refuseWait cls j
      | some s1 => (s1.addWait (j.waitAs cls (some t))).pump
  | (_, some _) => s.addWait (j.waitAs cls none)

/-- R278, R500: tries again, in order, the orders of a partition that wait for a tier (none: for board memory). -/
def State.retryWaits (s : State) (q : WaitOrd → Bool) : State :=
  let ws := s.mem.waits.filter q
  let s1 := s.modMem (fun m => { m with waits := m.waits.filter (fun w => !q w) })
  ws.foldl (fun t w => t.runOrWait w.cls (t.jobOf w.part w.block w.order) true) s1

/-- R278: a frame of class B has returned, or a batch has ended. -/
def State.retryTier (s : State) (p : PartNo) (tier : Nat) : State :=
  (s.retryWaits (fun w => decide (w.part = p) && decide (w.tier = some tier))).pump

/-- R278: after a command that began in `s`, the charges that wait for a tier are tried again when frames of class B have
returned to it. -/
def State.retryFreed (t s : State) : State :=
  allParts.foldl (fun t p => [0, 1].foldl (fun (t : State) tier =>
    if t.mem.waits ≠ [] ∧ t.usage p tier true < s.usage p tier true then t.retryTier p tier else t) t) t

end Sys2Proof.Machine
end

