-- ==== Sys2Proof/Machine/Cache.lean ====
section
/-! DEFINITION. The commands of the key-value cache: its six orders (R257, R267 to R284), the end of a spill batch and the
bound of a wait on one (R278). -/

namespace Sys2Proof.Machine

/-- R257, R267: takes up a cache command and runs it. -/
def State.cacheCommand (s : State) (src : CmdSrc) (op : Nat) : State :=
  match s.takeJob src 3 op 64 cacheFormOk (fun g => { g with inkErr := true }) with
  | (t, none) => t
  | (t, some j) => (t.runOrWait 3 j false).retryFreed s

/-- R267: a submission that finds 256 cache orders queued is dropped. -/
def State.cacheQueued (s : State) (p : PartNo) : Nat :=
  (s.host.orders.filter (fun o => decide (o.part = p) && decide (o.cls = 3) && !o.started)).length +
    (s.mem.waits.filter (fun w => decide (w.part = p) && decide (w.cls = 3))).length

/-- R267: a cache command, when it is not dropped. -/
def State.cacheEntry (s : State) (src : CmdSrc) (op : Nat) : State :=
  match src with
  | .order _ => s.cacheCommand src op
  | .submit p _ => if 256 ≤ s.cacheQueued p then s.modPreg p (fun g => { g with inkOrdDrop := true }) else s.cacheCommand src op

/-- R277 CREATE. -/
def execCacheCreate (src : CmdSrc) (s : State) : Host.Outcome State Fault Refusal := .next (s.cacheEntry src 1)

/-- R275 RELEASE. -/
def execCacheRelease (src : CmdSrc) (s : State) : Host.Outcome State Fault Refusal := .next (s.cacheEntry src 2)

/-- R269 APPEND. -/
def execCacheAppend (src : CmdSrc) (s : State) : Host.Outcome State Fault Refusal := .next (s.cacheEntry src 3)

/-- R272 SHARE. -/
def execCacheShare (src : CmdSrc) (s : State) : Host.Outcome State Fault Refusal := .next (s.cacheEntry src 4)

/-- R282 MASS. -/
def execCacheMass (src : CmdSrc) (s : State) : Host.Outcome State Fault Refusal := .next (s.cacheEntry src 5)

/-- R284 REBASE. -/
def execCacheRebase (src : CmdSrc) (s : State) : Host.Outcome State Fault Refusal := .next (s.cacheEntry src 6)

/-- R278: the spill batch of a partition and tier ends, all its moves ended; the charges that wait are tried again. -/
def execSpillBatchEnd (p : PartNo) (tier : Fin 2) (s : State) : Host.Outcome State Fault Refusal :=
  .next (match s.batchOf p tier.val with
    | none => s
    | some b =>
      if b.left ≠ 0 then s
      else
        let s1 := s.modMem (fun m => { m with
          batches := m.batches.filter (fun x => decide (x.part ≠ p) || decide (x.tier ≠ tier.val)),
          lastBatch := Tab.set none m.lastBatch (4 * p.val + tier.val) (some (b.sealed, s.clock.time)) })
        s1.retryTier p tier.val)

/-- R278: 10 ms have passed since the last batch of a tier ended, and none runs. -/
def State.waitOver (s : State) (p : PartNo) (tier : Nat) : Bool :=
  (s.batchOf p tier).isNone &&
  (match Tab.get none s.mem.lastBatch (4 * p.val + tier) with
   | some b => decide (b.2.toNat + 10 * msTicks ≤ s.now)
   | none => false)

/-- R278: a charge that has waited too long is refused. -/
def execSpillWaitTimeout (w : SpillWaiter) (s : State) : Host.Outcome State Fault Refusal :=
  .next (match w with
    | .order i => match s.mem.waits[i]? with
      | none => s
      | some x => match x.tier with
        | none => s
        | some t =>
          if !s.waitOver x.part t then s
          else
            let s1 := s.modMem (fun m => { m with waits := m.waits.eraseIdx i })
            s1.refuseWait x.cls (s1.jobOf x.part x.block x.order)
    | .move i => match s.mem.moves[i]? with
      | none => s
      | some x =>
        if !x.waited ∨ !s.waitOver x.part x.tier then s
        else ((s.advanceMove i).moveEnded x.owner 1 false).pump)

end Sys2Proof.Machine
end

