-- ==== Sys2Proof/Machine/QueryOps.lean ====
section
/-! DEFINITION. Codex orders: their form (R299), result records (R300), queries and their walk slots (R301 to R305), recall
pages (R313) and how a query ends (R304, R314). -/

namespace Sys2Proof.Machine

/-! Form and records (R299, R300) -/

/-- R299: the operand bytes of a codex order that are well formed. -/
def codexOperandsOk (b : List Byte) : Bool :=
  match leField b 2 1 with
  | 1 => zeroFrom b 40 88
  | 2 => zeroFrom b 32 96
  | 3 => decide (1 ≤ leField b 40 4) && decide (leField b 40 4 ≤ 16) && zeroFrom b 56 72
  | 4 => decide (1 ≤ leField b 40 4) && decide (leField b 40 4 ≤ 4096) && zeroFrom b 44 84
  | 5 => decide (1 ≤ leField b 36 2) && decide (leField b 36 2 ≤ 1024) && decide (leField b 36 2 ≤ leField b 38 2) &&
    decide (leField b 38 2 ≤ 4096) && decide (16 ≤ leField b 40 2) && decide (leField b 40 2 ≤ 512) &&
    decide (1 ≤ leField b 42 1) && decide (leField b 42 1 ≤ 16) && decide (1 ≤ leField b 43 1) && decide (leField b 43 1 ≤ 16) &&
    zeroFrom b 62 2 && zeroFrom b 70 10 && decide (leField b 92 1 < 4) && zeroFrom b 93 3 && decide (leField b 104 8 % 65536 = 0)
  | _ => zeroFrom b 36 92

/-- R299: a codex order block that is well formed. -/
def codexFormOk (b : List Byte) : Bool :=
  let op := leField b 2 1
  let fl := leField b 3 1
  decide (leField b 0 2 = 0x0150) && decide (1 ≤ op) && decide (op ≤ 6) &&
  (decide (fl = 0) || (decide (fl = 1) && (decide (op = 3) || decide (op = 4) || decide (op = 6))) || (decide (fl = 2) && decide (op = 5))) &&
  zeroFrom b 5 3 && (bitOf fl 0 || zeroFrom b 8 8) && decide (leField b 16 8 % 64 = 0) &&
  (if op = 5 then decide (leField b 24 8 % 8 = 0) else zeroFrom b 24 8) && codexOperandsOk b

/-- What a result record says beside its code. -/
structure CodexRes where
  flags : Nat
  expansions : Nat
  reads : Nat
  poisoned : Nat
  epoch : Nat
  skipped : Nat
  entries : List (List Byte)
  deriving DecidableEq, Repr

/-- Nothing found, nothing done. -/
def CodexRes.none : CodexRes := ⟨0, 0, 0, 0, 0, 0, []⟩

/-- R300: more work is counted. -/
def CodexRes.adds (r : CodexRes) (w : CodexWork) : CodexRes :=
  { r with expansions := r.expansions + w.expansions, reads := r.reads + w.reads, poisoned := r.poisoned + w.poisoned }

/-- R300: the result record. -/
def codexRecord (code op : Nat) (r : CodexRes) (time : Nat) : List Byte :=
  leBytes 2 code ++ leBytes 1 op ++ leBytes 1 r.flags ++ leBytes 4 r.entries.length ++ leBytes 4 r.expansions ++ leBytes 4 r.reads ++
  leBytes 4 r.poisoned ++ leBytes 4 r.epoch ++ leBytes 8 r.skipped ++ leBytes 8 time ++ List.replicate 24 0 ++ r.entries.flatten

/-- R288, R300: a full id. -/
def fullId (y : Ix) (n : Nat) : Nat := y.i * 2 ^ 40 + n

/-- R300: an entry of a result. -/
def resultEntry (y : Ix) (n dist : Nat) (score : W32) : List Byte :=
  leBytes 6 (fullId y n) ++ leBytes 2 dist ++ leBytes 4 score.toNat ++ leBytes 4 0

/-- R314, R230: writes a query's status word. -/
def State.queryStatus (s : State) (j : Job) (v : Nat) : State :=
  let a := j.fld 24 8
  if a = 0 then s else s.dvWrite j.part (masterMig (s.home j.part)) a (leBytes 8 v)

/-- R300: a codex order ends with its record. -/
def State.endCodex (s : State) (j : Job) (d : Done) (r : CodexRes) : State :=
  s.endRecord j (j.fld 16 8)
    { d with payload := codexRecord d.code.toNat (j.fld 2 1) r s.now, info := BitVec.ofNat 32 r.entries.length }

/-- R299, R300, R314: a codex order that cannot go on, with what its record says of its work; a query not rejected with
BAD_ORDER leaves status 3. -/
def State.refuseCodex (s : State) (j : Job) (w : CodexRes) (e : OrdErr) : State :=
  let r := s.failOrder j.part e
  let s1 := if r.2.code = 0x0503 then r.1.modPreg j.part (fun g => { g with codexErr := true }) else r.1
  let s2 := s1.endCodex j r.2 w
  if j.fld 2 1 = 5 ∧ r.2.code ≠ 0x0503 then s2.queryStatus j 3 else s2

/-! Creating and dropping indexes (R291, R310) -/

/-- R291, R292: sectors of a record. -/
def recSectors (t : List Byte) : Nat :=
  if leField t 4 1 = 0 then (if leField t 8 2 = 256 then 2 else 1)
  else if 4096 < leField t 8 2 * (if leField t 4 1 = 2 then 2 else 1) then 2 else 1

/-- R1: the items the codex of a variant holds. -/
def codexItems : Variant → Nat
  | .f64 => 8 * 2 ^ 30
  | .f32 => 4 * 2 ^ 30

/-- R290, R291: the fields of a template are in range; an index holds at most the codex capacity of the variant (R1). -/
def templateOk (v : Variant) (p : PartNo) (t : List Byte) : Bool :=
  let content := leField t 4 1
  let dim := leField t 8 2
  let cap := leField t 88 8
  decide (leField t 3 1 ≤ 1) && decide (content ≤ 2) && decide (leField t 5 1 = p.val) && decide (leField t 6 1 ≤ 1) &&
  (decide (content = 0) || decide (leField t 6 1 = 0)) &&
  (if content = 0 then decide (dim = 64) || decide (dim = 128) || decide (dim = 256) else decide (1 ≤ dim) && decide (dim ≤ 4096)) &&
  decide (leField t 10 1 ≤ 32) && decide (leField t 12 1 ≤ 16) && zeroFrom t 13 1 &&
  (decide (leField t 14 2 = 0) || (decide (16 ≤ leField t 14 2) && decide (leField t 14 2 ≤ 512))) && zeroFrom t 30 2 &&
  decide (leField t 40 8 % 65536 = 0) && decide (leField t 48 8 % 65536 = 0) && decide (leField t 56 8 % 64 = 0) &&
  decide (leField t 64 8 % 64 = 0) && decide (leField t 72 8 % 64 = 0) && decide (1 ≤ leField t 80 4) &&
  decide (leField t 80 4 ≤ 2 ^ 26) && zeroFrom t 84 4 && decide (1 ≤ cap) && decide (cap % 16 = 0) && decide (cap ≤ codexItems v) &&
  (decide (leField t 3 1 = 1) || decide (cap ≤ 2 ^ 28))

/-- R291, R292: the areas of a template: address, bytes, whether it lies in flash. -/
def templateAreas (t : List Byte) : List (Nat × Nat × Bool) :=
  let cap := leField t 88 8
  [(leField t 40 8, 4096 * cap, true), (leField t 48 8, 4096 * recSectors t * cap, true), (leField t 56 8, 16 * cap, false),
   (leField t 64 8, 16 * (cap / 16), false), (leField t 72 8, 32 * leField t 80 4, false)]

/-- R291: the first and last page of an area are mapped in the tier it needs. -/
def FX.areaMapped (x : FX) (p : PartNo) (a : Nat × Nat × Bool) : Bool :=
  [a.1, a.1 + a.2.1 - 1].all (fun v => match x.s.translate (x.req p 0 0 (v / 64 * 64) 3 masterMargin) with
    | .error _ => false
    | .ok t => decide (tierOfFrame (t.ua / 65536) = some 2) == a.2.2)

/-- R291, R299 CREATE_INDEX. -/
def FX.createIndex (x : FX) (j : Job) : Except OrdErr FX := do
  let i := j.fld 4 1
  if i = 255 then .error (.code 0x0503 0)
  else match x.s.ixAddr j.part i with
    | none => .error (.code 0x0603 0)
    | some a =>
      if x.bad a 256 then .error (.poisoned a)
      else if leField (x.read a 256) 2 1 ≠ 0 then .error (.reject 0 (stateMask [0]))
      else do
        let r ← x.area j.part (j.fld 32 8) 96
        if r.2 then .error (.code 0x0205 0)
        else if !templateOk x.s.variant j.part r.1 || !(templateAreas r.1).all (fun v => x.areaMapped j.part v) then .error (.code 0x0503 0)
        else
          let d := leBytes 1 0x51 ++ leBytes 1 1 ++ leBytes 1 1 ++ (r.1.drop 3).take 4 ++ leBytes 1 (recSectors r.1) ++
            (r.1.drop 8).take 6 ++ leBytes 2 (if leField r.1 14 2 = 0 then 32 else leField r.1 14 2) ++ (r.1.drop 16).take 80 ++
            leBytes 8 0 ++ leBytes 8 0 ++ leBytes 8 0 ++ leBytes 8 (2 ^ 64 - 1) ++ leBytes 4 0 ++ List.replicate 124 0
          let y := x.writeOwn a d
          pure { y with f := { y.f with stamps := y.f.stamps ++ [a + 128] } }

/-- R310 DROP_INDEX. -/
def FX.dropIndex (x : FX) (j : Job) : Except OrdErr FX := do
  let y ← x.ix j.part (j.fld 4 1)
  pure (x.setIx y 2 1 2)

/-! Inserts, deletes, drops (R306, R307, R310) -/

/-- R291: the element format of user items. -/
def Ix.elemFmt (y : Ix) : ElemFmt := if y.f 4 1 = 2 then .fp16 else .e4m3

/-- R306: the next slot of a user insert: of the tail group, where there is one, while it has room, else of a fresh
group. -/
def FX.takeSlot (x : FX) (p : PartNo) (y : Ix) (g : Nat) (live : Bool) : Except OrdErr (FX × Nat) := do
  let sub ← x.area p (y.subAddr g) 32
  let fill := leField sub.1 24 1
  if live ∧ fill < 16 then
    let z ← x.areaWrite p (y.subAddr g + 24) (leBytes 1 (fill + 1)) (fun _ => false)
    pure (z, 16 * leField sub.1 10 5 + fill)
  else do
    let fg ← x.freshGroup p y
    match fg with
    | none => .error (.code 0x0602 0)
    | some (z, m) =>
      let w ← z.linkGroup p (z.reload y) g m live 0 0 0 1
      pure (w, 16 * m)

/-- A vector of an INSERT: its bytes, whether they are poisoned, its attribute. -/
structure NewVec where
  data : List Byte
  bad : Bool
  attr : W64
  deriving DecidableEq, Repr

/-- R299 INSERT: the vectors and attributes of an order. -/
def FX.readVectors (x : FX) (j : Job) (y : Ix) : Except OrdErr (List NewVec) :=
  let bytes := y.f 8 2 * (y.elemFmt.width / 8)
  (List.range (j.fld 40 4)).mapM (fun i => do
    let v ← x.area j.part (j.fld 32 8 + alignUp bytes 64 * i) bytes
    let a ← if y.large then pure ([], false) else x.area j.part (j.fld 48 8 + 8 * i) 8
    if a.2 then .error (.code 0x0205 0)
    else pure ⟨v.1, v.2, if y.large then 0 else BitVec.ofNat 64 (leField a.1 0 8)⟩)

/-- R300, R306 INSERT: each user vector of an order takes the next slot; the items are then inserted in ascending local number,
which is the order of the record's entries. -/
def FX.insertVectors (x : FX) (j : Job) : Except OrdErr (FX × CodexRes) := do
  let p := j.part
  let y ← x.ix p (j.fld 4 1)
  let g := j.fld 44 4
  if y.f 4 1 = 0 then .error (.code 0x0503 0)
  else if y.f 80 4 ≤ g then .error (.code 0x0603 0)
  else do
    let sub ← x.area p (y.subAddr g) 32
    if bitOf (leField sub.1 15 1) 1 then .error (.code 0x0603 0)
    else
      let dim := y.f 8 2
      let fmt := y.elemFmt
      let vs ← x.readVectors j y
      let taken ← vs.foldlM (fun (a : FX × List (Nat × NewVec)) v => do
        let sl ← a.1.takeSlot p (a.1.reload y) g (bitOf (leField sub.1 15 1) 0 || !a.2.isEmpty)
        pure (sl.1, a.2 ++ [(sl.2, v)])) (x, [])
      (sortBy (fun a b => decide (a.1 < b.1)) taken.2).foldlM (fun (a : FX × CodexRes) v => do
        let gl := a.1.s.glyphOfRows (y.f 16 8) dim [rowVals fmt v.2.data dim]
        let z ← ({ a.1 with s := gl.2 } : FX).insertItem p y g ⟨v.1, gl.1, v.2.attr, v.2.data, v.2.bad⟩
        pure (z.1, { a.2.adds z.2 with entries := a.2.entries ++ [resultEntry y v.1 0 0] })) (taken.1, CodexRes.none)

/-- R307 DELETE: the listed ids; the record counts those skipped. -/
def FX.deleteItems (x : FX) (j : Job) : Except OrdErr (FX × CodexRes) := do
  let y ← x.ix j.part (j.fld 4 1)
  let n := j.fld 40 4
  let r ← x.area j.part (j.fld 32 8) (8 * n)
  if r.2 then .error (.code 0x0205 0)
  else (List.range n).foldlM (fun (a : FX × CodexRes) i => do
    let q ← a.1.deleteItem j.part y (leField r.1 (8 * i) 8)
    pure (q.1, { a.2.adds q.2.2 with skipped := a.2.skipped + q.2.1 })) (x, CodexRes.none)

/-- R310 DROP_SUBGRAPH. -/
def FX.dropSubgraph (x : FX) (j : Job) : Except OrdErr FX := do
  let y ← x.ix j.part (j.fld 4 1)
  let g := j.fld 32 4
  if y.f 80 4 ≤ g then .error (.code 0x0603 0)
  else do
    let sub ← x.area j.part (y.subAddr g) 32
    if !bitOf (leField sub.1 15 1) 0 then .error (.code 0x0603 0)
    else x.areaWrite j.part (y.subAddr g + 15) [2] (fun _ => false)

/-- R299: runs an order that edits, in its own poison-tolerant folio or in the one it joins, and ends it. The writes of an order
that joins a DOOMED folio are dropped without a fault (R245; its record counts nothing: DEDUCED, log 175). -/
def State.runEdit (s : State) (j : Job) (body : FX → Except OrdErr (FX × CodexRes)) : State :=
  let join := bitOf (j.fld 3 1) 0
  let h : W64 := BitVec.ofNat 64 (j.fld 8 8)
  if s.joinsDoomed j.part join h then s.endCodex j (Done.of 0) CodexRes.none
  else match s.orderFolio j.part join h true with
  | .error e => s.refuseCodex j CodexRes.none e
  | .ok x0 => match body x0 with
    | .error e => s.refuseCodex j CodexRes.none e
    | .ok (x, r) =>
      if join then
        let code : W16 := if x.f.mode = .doomed then x.f.cause else 0
        x.done.endCodex j (Done.of code.toNat) (if code = 0 then r else CodexRes.none)
      else
        let f := x.finish false
        f.1.endCodex j (Done.of f.2.1.toNat) (if f.2.1 = 0 then { r with epoch := f.2.2.toNat } else CodexRes.none)

/-! Queries: acceptance and slots (R301, R314) -/

/-- The block of a query as a command. -/
def State.walkJob (s : State) (w : Walk) : Job := s.jobOf w.part w.block w.order

/-- R299: the predicate of a query, when it has one. -/
def queryPred (b : List Byte) : Option (W32 × W16 × W16 × W16 × W16 × Bool) :=
  if bitOf (leField b 92 1) 1 then
    some (BitVec.ofNat 32 (leField b 80 4), BitVec.ofNat 16 (leField b 84 2), BitVec.ofNat 16 (leField b 86 2),
      BitVec.ofNat 16 (leField b 88 2), BitVec.ofNat 16 (leField b 90 2), bitOf (leField b 92 1) 0)
  else none

/-- What a query's walk looks for. -/
def Walk.req (w : Walk) : WalkReqC :=
  ⟨leField w.block 36 2, leField w.block 38 2, leField w.block 42 1, w.glyph, queryPred w.block, leField w.block 96 8, some w.epoch⟩

/-- R301: the home engine: of the channels of the partition's dies (8 a die) the one with the fewest walks; none when all
their slots are taken. -/
def State.homeEngine (s : State) (p : PartNo) : Option Nat :=
  let load (e : Nat) : Nat := (s.mem.walks.filter (fun w => decide (w.phase ≠ .waiting) && decide (w.home = e))).length
  let es := (s.diesOf p).flatMap (fun c => (List.range 8).map (fun i => 8 * c.val + i))
  (es.foldl (fun (b : Option (Nat × Nat)) e => match b with
    | none => some (e, load e)
    | some q => if load e < q.2 then some (e, load e) else b) none).bind (fun q => if q.2 < 32 then some q.1 else none)

/-- Takes the i-th walk out. -/
def State.dropWalk (s : State) (i : Nat) : State := s.modMem (fun m => { m with walks := m.walks.eraseIdx i })

/-- Replaces the i-th walk. -/
def State.setWalk (s : State) (i : Nat) (w : Walk) : State := s.modMem (fun m => { m with walks := m.walks.set i w })

/-- R302: what follows a merge: the next batch is issued, or the list goes to the re-rank unit, whose record reads are
issued. -/
def Walk.advance (w : Walk) (sectors : Nat) : Walk :=
  let q := w.req
  let st1 := w.st.issue q.k q.prefetch
  let st2 := if st1.batch = [] ∧ st1.widened ∧ !w.st.widened then st1.issue q.k q.prefetch else st1
  if st2.batch = [] then { w with phase := .rerank, st := { st2 with reads := st2.reads + sectors * st2.allowed.length } }
  else { w with st := st2 }

/-- R314: the deadline of a query has passed. -/
def State.overdue (s : State) (w : Walk) : Bool := w.late || decide (leField w.block 112 8 < s.now)

/-- R300: what the record of a query says beside its items. -/
def Walk.res (w : Walk) (late : Bool) : CodexRes :=
  ⟨flagAt w.st.widened 1 + flagAt late 2, w.st.expansions, w.st.reads, w.st.poisoned, w.epoch.toNat, 0, []⟩

/-- R314: a query that ends after its deadline is counted and sets late. -/
def State.countLate (s : State) (w : Walk) : State :=
  if s.overdue w then
    (s.countDie (s.home w.part).val ⟨0x17, 1, 0, 2, 2, some w.part, none, none⟩).modPreg w.part (fun g => { g with codexLate := true })
  else s

/-- R300, R308: a query ends with an error. -/
def State.failWalk (s : State) (i : Nat) (w : Walk) (e : OrdErr) : State :=
  ((s.dropWalk i).countLate w).refuseCodex (s.walkJob w) (w.res (s.overdue w)) e

/-- R289, R301: gives slots to the queries that wait, in order of submission (at most as many as there are). -/
def State.startWalks (s : State) : Nat → State
  | 0 => s
  | n + 1 =>
    match (s.mem.walks.zipIdx).findSome? (fun e => if e.1.phase = .waiting then (s.homeEngine e.1.part).map (fun h => (e.2, e.1, h)) else none) with
    | none => s
    | some (i, w, h) =>
      let x := FX.fresh s w.part true
      let started : Except OrdErr (Walk × Ix) := do
        let y ← x.ix w.part (leField w.block 4 1)
        let g := leField w.block 32 4
        let sub ← x.area w.part (y.subAddr g) 32
        if !bitOf (leField sub.1 15 1) 0 then .error (.code 0x0603 0)
        else do
          let st ← x.walkStart w.part y w.req (leField w.block 40 2) (leField sub.1 0 5)
          pure ({ w with phase := .walking, home := h, st := st }, y)
      let s1 := match started with
        | .error e => s.failWalk i w e
        | .ok (v, y) => s.setWalk i (v.advance (y.f 7 1))
      State.startWalks s1 n

/-- Starts what can start. -/
def State.pumpWalks (s : State) : State := s.startWalks s.mem.walks.length

/-- R299: the epoch of a query: the one it names, or the current one. -/
def State.queryEpoch (s : State) (j : Job) : W32 :=
  if j.fld 44 4 = 0xFFFFFFFF then s.fol.epoch else BitVec.ofNat 32 (j.fld 44 4)

/-- R299, R301: what a query is turned away for, or the walk it becomes. -/
def State.admitQuery (s : State) (j : Job) : Except OrdErr (Walk × Ix × State) := do
  let p := j.part
  let x := FX.fresh s p true
  let y ← x.ix p (j.fld 4 1)
  let g := j.fld 32 4
  let user := decide (y.f 4 1 ≠ 0)
  let e := s.queryEpoch j
  if (y.large && bitOf (j.fld 92 1) 1) || (!y.large && decide (j.fld 96 8 ≠ 0)) || (user && decide (j.fld 104 8 ≠ 0)) then
    .error (.code 0x0503 0)
  else if !s.inReach e then .error (.code 0x0304 0)
  else if y.f 80 4 ≤ g then .error (.code 0x0603 0)
  else do
    let sub ← x.area p (y.subAddr g) 32
    if !bitOf (leField sub.1 15 1) 0 then .error (.code 0x0603 0)
    else do
      let dim := y.f 8 2
      let r ← x.area p (j.fld 48 8) (2 * dim * j.fld 43 1)
      if r.2 then .error (.code 0x0205 0)
      else do
        let rows := (List.range (j.fld 43 1)).map (fun i => rowVals .bf16 (r.1.drop (2 * dim * i)) dim)
        let rot ← x.glyphRows p y (y.f 24 6 + j.fld 64 6) rows
        let gl := s.glyphOfRows (y.f 16 8) dim rot
        let st : WalkSt := ⟨[], [], [], [], 0, false, 0, 0, 0⟩
        pure (⟨p, j.block, j.orderId, .waiting, 0, e, gl.1, st, false⟩, y, gl.2)

/-- R301: a query is accepted: it waits for a slot, or starts. -/
def State.runQuery (s : State) (j : Job) : State :=
  match s.admitQuery j with
  | .error e => s.refuseCodex j { CodexRes.none with epoch := (s.queryEpoch j).toNat } e
  | .ok (w, y, t) =>
    let m := (t.home j.part).val
    let t1 := t.countDie m ⟨0x12, 1, 0, 2, 2, some j.part, none, none⟩
    let t2 := if y.f 4 1 = 0 then t1.countApprox m else t1
    (t2.modMem (fun q => { q with walks := q.walks ++ [w] })).pumpWalks

/-! The re-rank (R305) and the recall pages (R313) -/

/-- An item that was scored: local number, distance, score, position (span items), its record. -/
structure Scored where
  n : Nat
  dist : Nat
  score : W32
  pos : Nat
  kexp : Int
  vexp : Int
  data : List Byte

/-- R305: NaN after every number, then descending score, ties by the lower local number. -/
def Scored.before (a b : Scored) : Bool :=
  let va := valOf a.score
  let vb := valOf b.score
  if va.isNan ∨ vb.isNan then (!va.isNan && vb.isNan) || (va.isNan && vb.isNan && decide (a.n < b.n))
  else vb.lt va || (!va.lt vb && decide (a.n < b.n))

/-- The largest of scores; a NaN gives way to a number. -/
def maxScore (l : List W32) : W32 :=
  match l with
  | [] => f32NegInf
  | a :: r => r.foldl f32Max a

/-- R305: a value rounded to an element format. -/
def rounded (f : ElemFmt) (v : Val) : Val := f.decode (f.encode .rne v).1

/-- R305: the query rows as the re-rank unit uses them. -/
def FX.queryRows (x : FX) (p : PartNo) (y : Ix) (b : List Byte) : Except OrdErr (List (List Val) × Bool) := do
  let dim := y.f 8 2
  let r ← x.area p (leField b 48 8) (2 * dim * leField b 43 1)
  let rows := (List.range (leField b 43 1)).map (fun i => rowVals .bf16 (r.1.drop (2 * dim * i)) dim)
  if y.f 4 1 ≠ 0 then pure (rows, r.2)
  else do
    let rs ← rows.mapM (fun v => x.rotRow p (y.f 32 8) dim (leField b 56 6) v)
    pure (rs.map (fun v => v.1.map (rounded .bf16)), r.2 || rs.any (fun v => v.2))

/-- R305: scores one item; none when its record is poisoned. -/
def FX.scoreItem (x : FX) (p : PartNo) (y : Ix) (rows : List (List Val)) (c : Cand) : Except OrdErr (Option Scored) := do
  let r ← x.area p (y.recAddr c.n) y.recBytes
  if r.2 then pure none
  else
    let dim := y.f 8 2
    if y.f 4 1 ≠ 0 then
      let v := rowVals y.elemFmt r.1 dim
      let ex : Int := if y.f 4 1 = 1 then signedOf 8 (y.f 11 1) else 0
      let sc := rows.map (fun q => f32Ldexp (groupSum (q.zip v)) ex)
      pure (some ⟨c.n, c.dist, maxScore sc, 0, 0, 0, r.1⟩)
    else do
      let ge ← x.area p (y.groupAddr (c.n / 16)) 16
      let pos := leField ge.1 0 6 + 16 * (c.n % 16)
      let kexp := signedOf 16 (leField ge.1 6 2)
      let ks ← (List.range 16).mapM (fun t => x.rotRow p (y.f 32 8) dim (pos + t) (rowVals .e4m3 (r.1.drop (t * dim)) dim))
      if ks.any (fun k => k.2) || ge.2 then pure none
      else
        let keys := ks.map (fun k => k.1.map (rounded .e4m3))
        let sc := rows.flatMap (fun q => keys.map (fun k => f32Ldexp (groupSum (q.zip k)) kexp))
        pure (some ⟨c.n, c.dist, maxScore sc, pos, kexp, signedOf 16 (leField ge.1 8 2), r.1⟩)

/-- R313: elements of a span moved to the scale of its page. -/
def rescaled (e m : Int) (bs : List Byte) : List Byte :=
  if e = m then bs
  else bs.map (fun b => BitVec.ofNat 8 (ElemFmt.encode .e4m3 .rne ((ElemFmt.decode .e4m3 b.toNat).scale (e - m))).1)

/-- R313: a recall page's parts: offset in the area and bytes. -/
def recallPage (d pages j : Nat) (sp : List Scored) : List (Nat × List Byte) :=
  let pb := pageBytes d
  let km := (sp.map (fun q => q.kexp)).foldl max ((sp.map (fun q => q.kexp)).headD 0)
  let vm := (sp.map (fun q => q.vexp)).foldl max ((sp.map (fun q => q.vexp)).headD 0)
  let ks := sp.flatMap (fun q => rescaled q.kexp km (q.data.take (16 * d)))
  let vs := sp.flatMap (fun q => rescaled q.vexp vm ((q.data.drop (16 * d)).take (16 * d)))
  let poss := sp.flatMap (fun q => leBytes 8 q.pos)
  let info := leBytes 4 (pow2F32 km).toNat ++ leBytes 4 (pow2F32 vm).toNat ++ leBytes 2 (16 * sp.length) ++ leBytes 6 0 ++
    (poss ++ List.replicate (128 - poss.length) 0) ++ List.replicate 112 0
  [(pb * j, ks), (pb * j + pb / 2, vs), (pb * pages + 256 * j, info)]

/-- R313: the recall pages and info blocks of the spans found. -/
def recallParts (d : Nat) (sp : List Scored) : List (Nat × List Byte) :=
  let l := sortBy (fun (a b : Scored) => decide (a.pos < b.pos) || (decide (a.pos = b.pos) && decide (a.n < b.n))) sp
  let pages := ceilDiv l.length 16
  (List.range pages).flatMap (fun j => recallPage d pages j ((l.drop (16 * j)).take 16))

/-- R313, R314: writes parts of the recall area; the answer says whether none faulted. -/
def State.writeRecall (s : State) (p : PartNo) (base : Nat) (parts : List (Nat × List Byte)) : State × Bool :=
  parts.foldl (fun (a : State × Bool) q =>
    if !a.2 then a
    else match a.1.translateAll (a.1.engineReq p (base + q.1) 1 (masterRerank (a.1.home p))) (pagePieces (base + q.1) q.2.length) with
      | .error e => (a.1.reportPF p (dieM (s.home p)) unitRerank .operation e, false)
      | .ok ts => (a.1.plainWrite (.engine (masterRerank (a.1.home p))) (transPieces ts q.2 (fun _ => false)), true)) (s, true)

/-- R314: a fallback of this query is honoured. -/
def State.queryFallback (s : State) (w : Walk) : Bool :=
  bitOf (leField w.block 3 1) 1 && decide (s.dictVal (0x4200 + w.part.val) 1 = 1) &&
  (match s.ixAddr w.part (leField w.block 4 1) with
   | none => false
   | some a => decide (leField ((FX.fresh s w.part true).read a 256) 4 1 = 0))

/-- R314: the bytes of a recall area that a query may have written. -/
def State.recallArea (s : State) (w : Walk) : Nat :=
  match s.ixAddr w.part (leField w.block 4 1) with
  | none => 0
  | some a => ceilDiv w.req.k 16 * (pageBytes (leField ((FX.fresh s w.part true).read a 256) 8 2) + 256)

/-- R314: the query falls back at its deadline; its recall area holds free bytes (log 1). -/
def State.fallBack (s : State) (i : Nat) (w : Walk) : State :=
  let j := s.walkJob w
  let m := (s.home w.part).val
  let base := leField w.block 104 8
  let n := if base = 0 then 0 else s.recallArea w
  let s1 := ((s.dropWalk i).countDie m ⟨0x16, 1, 0, 2, 2, some w.part, none, none⟩).countApprox m
  let s2 := s1.modPreg w.part (fun g => { g with codexLate := true })
  let s3 := if n = 0 then s2
    else (({ s2 with draws := s2.draws + n } : State).writeRecall w.part base
      [(0, (List.range n).map (fun q => Config.freeByte (s2.draws + q)))]).1
  let r := w.res true
  (s3.endCodex j (Done.of 0x0604) { r with flags := r.flags + 8 }).queryStatus j 2

/-- R304, R305, R313, R314: the i-th query, re-ranked, ends: as a fallback, where its deadline has passed and one is honoured. -/
def State.finishQuery (s : State) (i : Nat) (w : Walk) : State :=
  let j := s.walkJob w
  let p := w.part
  let x := FX.fresh s p true
  let scored : Except OrdErr (Ix × List Scored × Nat) := do
    if !s.inReach w.epoch then .error (.code 0x0304 0)
    else do
      let y ← (match s.ixAddr p (leField w.block 4 1) with
        | none => .error (.code 0x0603 0)
        | some a => .ok ⟨leField w.block 4 1, a, x.read a 256⟩ : Except OrdErr Ix)
      let rows ← x.queryRows p y w.block
      if rows.2 then .error (.code 0x0205 0)
      else do
        let sc ← w.st.allowed.mapM (fun c => x.scoreItem p y rows.1 c)
        let good := sc.filterMap id
        pure (y, (sortBy Scored.before good).take w.req.k, sc.length - good.length)
  if s.overdue w && s.queryFallback w then s.fallBack i w
  else match scored with
  | .error e => s.failWalk i w e
  | .ok (y, top, bad) =>
    let m := (s.home p).val
    let ev (t : State) (c : Bool) (n : Nat) : State := if c then t.countDie m ⟨n, 1, 0, 2, 2, some p, none, none⟩ else t
    let short := decide (w.st.allowed.length < w.req.k)
    let r0 := w.res (s.overdue w)
    let r : CodexRes := { r0 with flags := r0.flags + flagAt short 0, poisoned := r0.poisoned + bad,
                                  entries := top.map (fun q => resultEntry y q.n q.dist q.score) }
    let s2 := (ev (ev (s.dropWalk i) w.st.widened 0x14) short 0x15).countLate w
    let s3 := if leField w.block 104 8 = 0 then (s2, true) else s2.writeRecall p (leField w.block 104 8) (recallParts (y.f 8 2) top)
    let s4 := s3.1.endCodex j (Done.of (if !s3.2 then 0x0201 else if short then 0x0601 else 0)) r
    s4.queryStatus j (if s3.2 then 1 else 3)

/-- R307: the i-th repair runs in its own poison-tolerant folio. -/
def State.runRepair (s : State) (i : Nat) : State :=
  match s.mem.repairs[i]? with
  | none => s
  | some q =>
    let gone (t : State) : State := t.modMem (fun m => { m with repairs := m.repairs.eraseIdx i })
    match s.ixAddr 0 q.index with
    | none => gone s
    | some a =>
      let p := partOf (leField ((FX.fresh s 0 true).read a 256) 5 1)
      if s.dictVal (0x6100 + p.val) 5 = 0 then s
      else
        let x := FX.fresh s p true
        let work : Except OrdErr (Option FX) := do
          let y ← x.ix p q.index
          let nd ← x.node p y q.n
          match nd with
          | none => pure none
          | some r => if bitOf r.flags 1 then (x.repairNode p y r).map some else pure none
        match work with
        | .error e => gone (s.failOrder p e).1
        | .ok none => gone s
        | .ok (some z) =>
          let f := z.finish false
          if f.2.1 = 0x0301 then
            let q1 : Repair := { q with retryAt := some (s.clock.time + BitVec.ofNat 64 msTicks) }
            f.1.modMem (fun m => { m with repairs := m.repairs.set i q1 })
          else
            let g := gone f.1
            if f.2.1 = 0 then g.countDie (g.home p).val ⟨0x19, 1, 0, 2, 2, some p, none, none⟩ else g

/-- R289, R299: the codex orders of a partition accepted and not started. -/
def State.codexQueued (s : State) (p : PartNo) : Nat :=
  (s.host.orders.filter (fun o => decide (o.part = p) && decide (o.cls = 4) && !o.started)).length +
    (s.mem.walks.filter (fun w => decide (w.part = p) && decide (w.phase = .waiting))).length

/-- R299: takes up a codex command, unless 256 are queued. -/
def State.codexJob (s : State) (src : CmdSrc) (op : Nat) : State × Option Job :=
  match src with
  | .submit p a =>
    if 256 ≤ s.codexQueued p then (s.modPreg p (fun g => { g with codexOrdDrop := true }), none)
    else s.takeJob (.submit p (a / 128 * 128)) 4 op 128 codexFormOk (fun g => { g with codexErr := true })
  | .order _ => s.takeJob src 4 op 128 codexFormOk (fun g => { g with codexErr := true })

end Sys2Proof.Machine
end

