-- ==== Sys2Proof/Machine/Codex.lean ====
section
/-! DEFINITION. The commands of the codex (R299 to R314). -/

namespace Sys2Proof.Machine

/-- R299: runs an edit of the codex. -/
def State.codexEdit (s : State) (src : CmdSrc) (op : Nat) (body : Job → FX → Except OrdErr (FX × CodexRes)) : State :=
  match s.codexJob src op with
  | (t, none) => t
  | (t, some j) => t.runEdit j (body j)

/-- R291 CREATE_INDEX. -/
def execCodexCreateIndex (src : CmdSrc) (s : State) : Host.Outcome State Fault Refusal :=
  .next (s.codexEdit src 1 (fun j x => (x.createIndex j).map (fun y => (y, CodexRes.none))))

/-- R310 DROP_INDEX. -/
def execCodexDropIndex (src : CmdSrc) (s : State) : Host.Outcome State Fault Refusal :=
  .next (s.codexEdit src 2 (fun j x => (x.dropIndex j).map (fun y => (y, CodexRes.none))))

/-- R306 INSERT. -/
def execCodexInsert (src : CmdSrc) (s : State) : Host.Outcome State Fault Refusal :=
  .next (s.codexEdit src 3 (fun j x => x.insertVectors j))

/-- R307 DELETE. -/
def execCodexDelete (src : CmdSrc) (s : State) : Host.Outcome State Fault Refusal :=
  .next (s.codexEdit src 4 (fun j x => x.deleteItems j))

/-- R310 DROP_SUBGRAPH. -/
def execCodexDropSubgraph (src : CmdSrc) (s : State) : Host.Outcome State Fault Refusal :=
  .next (s.codexEdit src 6 (fun j x => (x.dropSubgraph j).map (fun y => (y, CodexRes.none))))

/-- R301 QUERY. -/
def execCodexQuery (src : CmdSrc) (s : State) : Host.Outcome State Fault Refusal :=
  .next (match s.codexJob src 5 with
    | (t, none) => t
    | (t, some j) => t.runQuery j)

/-- R302: every read of the i-th walk's batch has returned; a walk whose deadline has passed falls back where that is
honoured (R314). -/
def execWalkRoundReturn (i : Nat) (s : State) : Host.Outcome State Fault Refusal :=
  .next (match s.mem.walks[i]? with
    | none => s
    | some w =>
      if w.phase ≠ .walking then s
      else
        let x := FX.fresh s w.part true
        let m := (s.home w.part).val
        let work : Except OrdErr Walk := do
          if !s.inReach w.epoch then .error (.code 0x0304 0)
          else match s.ixAddr w.part (leField w.block 4 1) with
            | none => .error (.code 0x0603 0)
            | some a => do
              let y : Ix := ⟨leField w.block 4 1, a, x.read a 256⟩
              let st ← x.walkMerge w.part y w.req w.st
              pure (({ w with st := st } : Walk).advance (y.f 7 1))
        if s.overdue w && s.queryFallback w then (s.fallBack i w).pumpWalks
        else match work with
        | .error e => (s.failWalk i w e).pumpWalks
        | .ok v => (s.setWalk i v).countDie m ⟨0x13, 1, 0, 2, 2, some w.part, none, none⟩)

/-- R305: the re-rank of the i-th query is complete. -/
def execRerankComplete (i : Nat) (s : State) : Host.Outcome State Fault Refusal :=
  .next (match s.mem.walks[i]? with
    | none => s
    | some w => if w.phase ≠ .rerank then s else (s.finishQuery i w).pumpWalks)

/-- R314: the deadline of the i-th query has passed. -/
def execQueryDeadline (i : Nat) (s : State) : Host.Outcome State Fault Refusal :=
  .next (match s.mem.walks[i]? with
    | none => s
    | some w =>
      if s.now ≤ leField w.block 112 8 then s
      else if s.queryFallback w then (s.fallBack i w).pumpWalks
      else s.setWalk i { w with late := true })

/-- A walk of an index is under way. -/
def State.walksIndex (s : State) (i : Nat) : Bool := s.mem.walks.any (fun w => decide (leField w.block 4 1 = i))

/-- R310: the chain of a dropped subgraph is spliced onto the free groups, once no walk of it remains. -/
def execSubgraphSplice (i : W16) (g : W32) (s : State) : Host.Outcome State Fault Refusal :=
  .next (match s.ixAddr 0 i.toNat with
    | none => s
    | some a =>
      let p := partOf (leField ((FX.fresh s 0 true).read a 256) 5 1)
      let x := FX.fresh s p true
      if s.mem.walks.any (fun w => decide (leField w.block 4 1 = i.toNat) && decide (leField w.block 32 4 = g.toNat)) then s
      else
        let work : Except OrdErr (Option FX) := do
          let y ← x.ix p i.toNat
          if y.f 80 4 ≤ g.toNat then pure none
          else do
            let sub ← x.area p (y.subAddr g.toNat) 32
            if !bitOf (leField sub.1 15 1) 1 then pure none
            else do
              let fh := y.f 120 8
              let x1 ← x.areaWrite p (y.groupAddr (leField sub.1 10 5) + 10) (leBytes 5 (if fh = 2 ^ 64 - 1 then 2 ^ 40 - 1 else fh))
                (fun _ => false)
              let x2 ← x1.areaWrite p (y.subAddr g.toNat) (List.replicate 32 0) (fun _ => false)
              pure (some ((x2.setIx y 120 8 (leField sub.1 5 5)).setIx y 104 8 (y.f 104 8 - leField sub.1 16 8)))
        match work with
        | .error e => (s.failOrder p e).1
        | .ok none => s
        | .ok (some z) => (z.finish false).1)

/-- R310: a dropped index whose last walk has ended becomes FREE. -/
def execIndexFree (i : W16) (s : State) : Host.Outcome State Fault Refusal :=
  .next (match s.ixAddr 0 i.toNat with
    | none => s
    | some a =>
      let x := FX.fresh s (partOf (leField ((FX.fresh s 0 true).read a 256) 5 1)) true
      if leField (x.read a 256) 2 1 ≠ 2 ∨ s.walksIndex i.toNat then s
      else ((x.writeOwn (a + 2) [0]).finish false).1)

/-- R307: the i-th node flagged for repair is repaired. -/
def execNodeRepair (i : Nat) (s : State) : Host.Outcome State Fault Refusal :=
  .next (match s.mem.repairs[i]? with
    | none => s
    | some q => if q.retryAt.isSome then s else s.runRepair i)

/-- R307: a repair that met a conflict is tried again after 1 ms. -/
def execRepairRetry (i : Nat) (s : State) : Host.Outcome State Fault Refusal :=
  .next (match s.mem.repairs[i]? with
    | none => s
    | some q => match q.retryAt with
      | none => s
      | some t => if s.now < t.toNat then s else s.runRepair i)

/-- R297: the sweep settles the epochs of one item that are 2^30 seals old. -/
def execSettleSweep (i : W16) (node : W32) (s : State) : Host.Outcome State Fault Refusal :=
  .next (match s.ixAddr 0 i.toNat with
    | none => s
    | some a =>
      let p := partOf (leField ((FX.fresh s 0 true).read a 256) 5 1)
      let x := FX.fresh s p true
      let work : Except OrdErr (Option (Nat × Nat)) := do
        let y ← x.ix p i.toNat
        if y.f 88 8 ≤ node.toNat then pure none
        else do
          let sb ← x.itemState p y node.toNat
          let fl := leField sb.1 8 1
          let old (f : Nat) : Bool := decide (2 ^ 30 ≤ (s.fol.epoch - BitVec.ofNat 32 f).toNat)
          let f1 := if bitOf fl 0 ∧ old (leField sb.1 0 4) then fl ||| 4 else fl
          let f2 := if bitOf fl 1 ∧ old (leField sb.1 4 4) then f1 ||| 8 else f1
          if sb.2 ∨ f2 = fl then pure none
          else do
            let ua ← x.areaUa p (y.stateAddr node.toNat + 8)
            pure (some (ua, f2))
      match work with
      | .error e => (s.failOrder p e).1
      | .ok none => s
      | .ok (some (ua, f)) => s.plainWrite (.engine masterMargin) (piecesOf ua [BitVec.ofNat 8 f] (fun _ => false)))

end Sys2Proof.Machine
end

