-- ==== Sys2Proof/Machine/Flits.lean ====
section
/-! DEFINITION. Haros flits as bytes and symbols: the CRC-64 and the fields of a flit (R322 to R324), 257-bit blocks, RS(544,514)
codewords and lanes (R320), AES-256 in GCM and CTR mode (R333, R481). -/

namespace Sys2Proof.Machine

/-! The link CRC (R322) -/

/-- R322: one bit of the CRC-64, most significant bit first. -/
def crc64Bit (c : Nat) : Nat := if c.testBit 63 then (2 * c) % 2 ^ 64 ^^^ 0x42F0E1EBA9EA3693 else 2 * c

/-- R322: one byte of the CRC-64. -/
def crc64Byte (c : Nat) (b : Byte) : Nat := (List.range 8).foldl (fun x _ => crc64Bit x) (c ^^^ (b.toNat <<< 56))

/-- R322: the lcrc of a flit's bytes [247:0]. -/
def crc64 (bs : List Byte) : Nat := (bs.foldl crc64Byte (2 ^ 64 - 1)) ^^^ (2 ^ 64 - 1)

/-! Flits (R322, R323) -/

/-- R323: the flit types. -/
inductive FlitType where
  | idle | data | lctl | time | hello
  deriving DecidableEq, Repr

/-- R323: the ftype of a type. -/
def FlitType.code : FlitType → Nat
  | .idle => 0
  | .data => 1
  | .lctl => 2
  | .time => 3
  | .hello => 4

/-- R323: the type of an ftype; none for the others. -/
def flitTypeOf (n : Nat) : Option FlitType := [FlitType.idle, .data, .lctl, .time, .hello].find? (fun t => decide (t.code = n))

/-- R322: the header of a flit. -/
def flitHead (t : FlitType) (lane : Fin 4) (gseq : BitVec 12) (idx : Nat) (eog phase : Bool) : List Byte :=
  leBytes 4 (t.code + 8 * lane.val + 32 * gseq.toNat + 2 ^ 17 * idx + flagAt eog 20 + flagAt phase 21)

/-- R322: a flit of a header and a body of 244 B, with its lcrc. -/
def flitOf (head body : List Byte) : List Byte := head ++ body ++ leBytes 8 (crc64 (head ++ body))

/-- R322: 256 bytes whose lcrc is correct. -/
def flitOk (f : List Byte) : Bool := decide (f.length = 256) && decide (leField f 248 8 = crc64 (f.take 248))

/-- R322: the fields of a flit's header. -/
def flitType (f : List Byte) : Option FlitType := flitTypeOf (bits (leField f 0 4) 0 3)
def flitLane (f : List Byte) : Fin 4 := ⟨bits (leField f 0 4) 3 2, Nat.mod_lt _ (by decide)⟩
def flitSeq (f : List Byte) : BitVec 12 := BitVec.ofNat 12 (bits (leField f 0 4) 5 12)
def flitIdx (f : List Byte) : Nat := bits (leField f 0 4) 17 3
def flitEog (f : List Byte) : Bool := bitOf (leField f 0 4) 20
def flitPhase (f : List Byte) : Bool := bitOf (leField f 0 4) 21

/-- R322: a flit's body. -/
def flitBody (f : List Byte) : List Byte := (f.drop 4).take 244

/-! Blocks and codewords (R320) -/

/-- R320 stage 1: the eight 257-bit blocks of a flit: bit 0 marks the first, bits [256:1] carry 32 B (DESIGN CHOICE, log 182:
the bytes in order, each from its lowest bit). -/
def flitBlocks (f : List Byte) : List Nat :=
  (List.range 8).map (fun i => (if i = 0 then 1 else 0) + 2 * ofLeBytes ((f.drop (32 * i)).take 32))

/-- R320 stage 2: the 514 ten-bit symbols of 20 blocks. -/
def blockSymbols (bs : List Nat) : List Nat :=
  let v := sumNat ((bs.zipIdx).map (fun b => b.1 <<< (257 * b.2)))
  (List.range 514).map (fun j => bits v (10 * j) 10)

/-- A product in GF(2^10) modulo x^10 + x^3 + 1 (PRESUMED, log 152: the field of RS(544,514) in IEEE 802.3). -/
def gfMul (a b : Nat) : Nat :=
  (List.range 10).foldl (fun z i => (if (2 * z).testBit 10 then 2 * z ^^^ 0x409 else 2 * z) ^^^ (if b.testBit (9 - i) then a else 0)) 0

/-- The generator polynomial of RS(544,514), highest coefficient first, without its leading 1 (PRESUMED, log 152). -/
def rsGenerator : List Nat :=
  ((List.range 30).foldl (fun (a : List Nat × Nat) _ =>
    (List.zipWith (· ^^^ ·) (a.1 ++ [0]) (0 :: a.1.map (gfMul a.2)), gfMul a.2 2)) ([1], 1)).1.drop 1

/-- R320: the 30 parity symbols of a codeword. -/
def rsParity (m : List Nat) : List Nat :=
  m.foldl (fun r s => List.zipWith (· ^^^ ·) (r.drop 1 ++ [0]) (rsGenerator.map (gfMul (s ^^^ r.headD 0)))) (List.replicate 30 0)

/-- R320 stages 2 and 3: the four lanes of a codeword of 20 blocks: its symbols in rotation. -/
def codewordLanes (bs : List Nat) : List (List Nat) :=
  let m := blockSymbols bs
  let w := m ++ rsParity m
  (List.range 4).map (fun l => (List.range 136).map (fun i => w.getD (4 * i + l) 0))

/-- R320: a codeword is correctable with up to 15 symbol errors. -/
def correctable (errs : Nat) : Bool := decide (errs ≤ 15)

/-- R320: the codewords of a run that carry its flit `i`: two codewords carry five flits, and the first flit of the run is the
`at_`-th of its five. -/
def flitWords (at_ i : Nat) : List Nat := [8 * (at_ + i) / 20, (8 * (at_ + i) + 7) / 20]

/-- R320: an uncorrectable codeword corrupts the flits it carries. -/
def flitHit (at_ i : Nat) (errs : List Nat) : Bool := (flitWords at_ i).any (fun k => !correctable (errs.getD k 0))

/-! AES-256 (R333, R481): the block cipher is a constant of Config (log 18); GCM and CTR are those of NIST SP 800-38D and
SP 800-38A (PRESUMED, log 152). -/

/-- The number that big-endian bytes spell. -/
def ofBeBytes (bs : List Byte) : Nat := bs.foldl (fun a b => 256 * a + b.toNat) 0

/-- `n` big-endian bytes of `v`. -/
def beBytes (n v : Nat) : List Byte := (leBytes n v).reverse

/-- Zeros up to a multiple of 16 bytes. -/
def pad16 (bs : List Byte) : List Byte := bs ++ List.replicate (alignUp bs.length 16 - bs.length) 0

/-- A product in GF(2^128) as GCM takes it: bit 127 is the first. -/
def ghashMul (x y : Nat) : Nat :=
  ((List.range 128).foldl (fun (a : Nat × Nat) i =>
    (if x.testBit (127 - i) then a.1 ^^^ a.2 else a.1, if a.2.testBit 0 then a.2 >>> 1 ^^^ 0xE1 <<< 120 else a.2 >>> 1)) (0, y)).1

/-- GHASH of bytes whose number is a multiple of 16. -/
def ghash (h : Nat) (bs : List Byte) : Nat :=
  (List.range (bs.length / 16)).foldl (fun y i => ghashMul (y ^^^ ofBeBytes ((bs.drop (16 * i)).take 16)) h) 0

/-- The keystream of `n` bytes: the cipher of counter blocks whose low 32 bits count. -/
def ctrStream (key : BitVec 256) (c0 : List Byte) (n : Nat) : List Byte :=
  ((List.range (ceilDiv n 16)).flatMap (fun i =>
    beBytes 16 (Config.aes256 key (BitVec.ofNat 128 (ofBeBytes (c0.take 12 ++ beBytes 4 (ofBeBytes (c0.drop 12) + i))))).toNat)).take n

/-- Bytes under a keystream: sealing and opening are the same. -/
def ctrCrypt (key : BitVec 256) (c0 : List Byte) (bs : List Byte) : List Byte :=
  List.zipWith (· ^^^ ·) bs (ctrStream key c0 bs.length)

/-- R333: AES-256-GCM in one direction of data: `bs` under the IV. -/
def gcmCrypt (key : BitVec 256) (iv bs : List Byte) : List Byte := ctrCrypt key (iv ++ beBytes 4 2) bs

/-- R333: the tag of AES-256-GCM over additional data and ciphertext. -/
def gcmTag (key : BitVec 256) (iv aad ct : List Byte) : List Byte :=
  let h := (Config.aes256 key 0).toNat
  let s := ghash h (pad16 aad ++ pad16 ct ++ beBytes 8 (8 * aad.length) ++ beBytes 8 (8 * ct.length))
  beBytes 16 (s ^^^ (Config.aes256 key (BitVec.ofNat 128 (ofBeBytes (iv ++ beBytes 4 1)))).toNat)

/-- R333, R477: a link key with its salt: bytes [31:0] and [35:32] of a direction's block. -/
def blockKey (b : BitVec 288) : BitVec 256 := b.setWidth 256
def blockSalt (b : BitVec 288) : List Byte := leBytes 4 (b.toNat >>> 256)

/-- R333: the IV of the `n`-th group of a phase, and of a LCTL or TIME flit of counter `u`. -/
def groupIv (b : BitVec 288) (n : Nat) : List Byte := blockSalt b ++ leBytes 8 n
def uctrIv (b : BitVec 288) (u : Nat) : List Byte := blockSalt b ++ leBytes 8 (u % 2 ^ 63 + 2 ^ 63)

/-! Groups (R324, R333) -/

/-- R324: the headers of a group of `n` flits. -/
def groupHeads (lane : Fin 4) (gseq : BitVec 12) (phase : Bool) (n : Nat) : List (List Byte) :=
  (List.range n).map (fun i => flitHead .data lane gseq i (decide (i + 1 = n)) phase)

/-- R324, R333: the flits of a group: `data` is its 244·n − 16 bytes of lane data; `key` the direction's block and the group's
number in its phase, when the link encrypts. -/
def groupFlits (lane : Fin 4) (gseq : BitVec 12) (phase : Bool) (n : Nat) (data : List Byte) (key : Option (BitVec 288 × Nat)) :
    List (List Byte) :=
  let hs := groupHeads lane gseq phase n
  let body := match key with
    | none => data ++ List.replicate 16 0
    | some k =>
      let ct := gcmCrypt (blockKey k.1) (groupIv k.1 k.2) data
      ct ++ gcmTag (blockKey k.1) (groupIv k.1 k.2) hs.flatten ct
  (hs.zipIdx).map (fun h => flitOf h.1 ((body.drop (244 * h.2)).take 244))

/-- R324, R326: flits that stand as one group: idx 0 to n − 1, eog on the last alone, one lane, gseq and key phase. -/
def groupInOrder (fs : List (List Byte)) : Bool :=
  let g := fs.headD []
  decide (fs ≠ []) && decide (fs.length ≤ 8) && (fs.zipIdx).all (fun f =>
    decide (flitType f.1 = some .data) && decide (flitLane f.1 = flitLane g) && decide (flitSeq f.1 = flitSeq g) &&
    decide (flitPhase f.1 = flitPhase g) && decide (flitIdx f.1 = f.2) && decide (flitEog f.1 = decide (f.2 + 1 = fs.length)))

/-- R324: the bodies of a group: its sealed lane data and its tag field. -/
def groupBody (fs : List (List Byte)) : List Byte := fs.flatMap flitBody
def groupSealed (fs : List (List Byte)) : List Byte := (groupBody fs).take (244 * fs.length - 16)
def groupTag (fs : List (List Byte)) : List Byte := (groupBody fs).drop (244 * fs.length - 16)

/-- R333: a group's tag verifies under a block and number. -/
def groupTagOk (fs : List (List Byte)) (b : BitVec 288) (n : Nat) : Bool :=
  decide (groupTag fs = gcmTag (blockKey b) (groupIv b n) (fs.flatMap (fun f => f.take 4)) (groupSealed fs))

/-- R333: a group's lane data in the clear. -/
def groupOpen (fs : List (List Byte)) (key : Option (BitVec 288 × Nat)) : List Byte :=
  match key with
  | none => groupSealed fs
  | some k => gcmCrypt (blockKey k.1) (groupIv k.1 k.2) (groupSealed fs)

/-! LCTL and TIME flits (R327, R333) -/

/-- The uctr of a LCTL or TIME body. -/
def bodyUctr (b : List Byte) : W64 := BitVec.ofNat 64 (leField b 212 8)

/-- R333: the GMAC tag over body bytes [227:0]. -/
def bodyTag (k : BitVec 288) (b : List Byte) : List Byte :=
  gcmTag (blockKey k) (uctrIv k (bodyUctr b).toNat) (b.take 228) []

/-- R327, R333: a body as it is sent: up to 212 bytes of fields, uctr, the tag when the link encrypts. -/
def sealBody (fields : List Byte) (uctr : W64) (key : Option (BitVec 288)) : List Byte :=
  let b := (fields ++ List.replicate 212 0).take 212 ++ leBytes 8 uctr.toNat ++ List.replicate 8 0
  b ++ match key with
    | none => List.replicate 16 0
    | some k => bodyTag k b

/-- R334: the tag of a LCTL or TIME flit verifies. -/
def bodyTagOk (f : List Byte) (k : BitVec 288) : Bool := decide ((flitBody f).drop 228 = bodyTag k (flitBody f))

end Sys2Proof.Machine
end

