-- ==== Sys2Proof/Machine/LinkBase.lean ====
section
/-! DEFINITION. Ports and messages at their sender: the port map and offers (R355, R358, R330), records on a lane (R335,
R336), reading a message's source (R337, R339), how a message completes or fails (R337, R340). -/

namespace Sys2Proof.Machine

/-! Ports -/

/-- Changes the ports' and messages' state. -/
def State.modLink (s : State) (f : LinkState → LinkState) : State := { s with link := f s.link }

/-- Replaces a port. -/
def State.setPort (s : State) (p : PortNo) (x : Port) : State := s.modLink (fun l => { l with ports := l.ports.set p.val x })

/-- Changes a port. -/
def State.modPort (s : State) (p : PortNo) (f : Port → Port) : State := s.setPort p (f (s.port p))

/-- R318: the die of a port in a fault record. -/
def portDie (p : PortNo) : Nat := if p.val < 16 then dieX0 else dieX1

/-- R355: the logical port that a physical one serves. -/
def State.logicalOf (s : State) (p : PortNo) : Nat := ((List.range 32).find? (fun l => decide (s.physOf l = p))).getD p.val

/-- R330, R358: a data message is offered to a logical port: the physical port that takes it, or the code it fails with. -/
def State.offer (s : State) (l : Nat) : Except Nat PortNo :=
  let p := s.physOf l
  let x := s.port p
  if x.mode = .quarantine then .error 0x0402
  else if x.mode ≠ .up then .error 0x0409
  else if x.held then .error 0x040C
  else .ok p

/-- Records a fault of a port. -/
def State.reportPort (s : State) (p : PortNo) (code : Nat) (lvl : Level) (detail : List Nat) : State :=
  s.report ⟨code, portDie p, 0xFF, unitPort p, lvl, u64s detail⟩

/-! Records (R335, R336) -/

/-- Bytes to a lane of a port. -/
def State.queueLane (s : State) (p : PortNo) (lane : Fin 4) (bs : List Byte) : State :=
  s.modPort p (fun x => { x with queue := x.queue.set lane.val (x.queue[lane.val] ++ bs) })

/-- A number of CRC-32C (R335). -/
def crcOf (bs : List Byte) : Nat := crc32c bs

/-- What a message is made of (R335). -/
structure MsgHead where
  mtype : Nat
  flags : Nat
  id : W32
  src : W32
  dst : W32
  srcPart : Nat
  dstPart : Nat
  total : Nat
  bytes : Nat
  time : Nat
  special : List Byte
  lead : List Byte
  deriving DecidableEq, Repr

/-- R335: the record of a message header with its lead block. -/
def MsgHead.record (h : MsgHead) : List Byte :=
  let b := leBytes 1 1 ++ leBytes 1 1 ++ leBytes 1 h.mtype ++ leBytes 1 h.flags ++ leBytes 4 h.id.toNat ++ leBytes 4 h.src.toNat ++
    leBytes 4 h.dst.toNat ++ leBytes 1 h.srcPart ++ leBytes 1 h.dstPart ++ leBytes 2 h.total ++ leBytes 2 h.lead.length ++ leBytes 2 0 ++
    leBytes 4 h.bytes ++ leBytes 4 0 ++ leBytes 8 h.time ++ (h.special ++ List.replicate 16 0).take 16 ++
    leBytes 4 (if h.lead = [] then 0 else crcOf h.lead)
  b ++ leBytes 4 (crcOf b) ++ h.lead

/-- R336: the chunk record of a message. `bad` is the poison of each payload granule. -/
def chunkRecord (id src : W32) (c : Nat) (pre : List Byte) (preBad : Bool) (data : List Byte) (bad : List Bool) (check origin : W32) :
    List Byte :=
  let h := leBytes 1 2 ++ leBytes 1 0 ++ leBytes 2 c ++ leBytes 4 id.toNat ++ leBytes 4 src.toNat ++ leBytes 4 (pre.length + data.length) ++
    leBytes 1 pre.length ++ leBytes 1 (flagAt preBad 0 + flagAt (bad.any (fun v => v)) 1) ++ leBytes 2 0 ++ leBytes 4 check.toNat ++
    leBytes 4 origin.toNat
  let m := leBytes 128 (sumNat ((bad.zipIdx).map (fun e => flagAt e.1 e.2)))
  h ++ leBytes 4 (crcOf (h ++ m)) ++ m ++ pre ++ data

/-- R481: the key generation of the end-to-end session with a peer. -/
def State.wireGen (s : State) (peer : W32) : Nat :=
  ((s.sec.sessions.find? (fun x => decide (x.path = .endToEnd peer))).map (fun x => x.keyGen)).getD 0

/-- R481: the payload of chunk `c` of a message between two members, sealed or opened: AES-256-CTR while *part_wire_enc* = 1, for
quires, collective data and bulk. -/
def State.wireCrypt (s : State) (mtype : Nat) (src : W32) (srcPart : Nat) (dst : W32) (dstPart : Nat) (peer id : W32) (c : Nat)
    (data : List Byte) : List Byte :=
  if s.sec.wireEnc ∧ (mtype = 1 ∨ mtype = 2 ∨ mtype = 8) then
    ctrCrypt (Config.wireKey src srcPart dst dstPart (s.wireGen peer)) (leBytes 4 src.toNat ++ leBytes 4 id.toNat ++ leBytes 2 c ++ leBytes 6 0) data
  else data

/-- R336: payload bytes of chunk `c` of a message. -/
def chunkBytes (total bytes c : Nat) : Nat := if c + 1 < total then 65536 else bytes - 65536 * (total - 1)

/-! Sources (R191, R377) -/

/-- The bytes of a chunk as its source holds them: prefix, payload, marks, and a check and origin that travel unchanged. -/
structure TxData where
  pre : List Byte
  preBad : Bool
  data : List Byte
  bad : List Bool
  check : Option (W32 × W32)
  deriving DecidableEq, Repr

/-- Reads bytes with the mark of each granule. -/
def State.readMarked (s : State) (q : WalkReq) (n : Nat) : Except PFault (List Byte × List Bool) :=
  match s.translateAll q (pagePieces q.addr n) with
  | .error e => .error e
  | .ok ts =>
    .ok ((s.readTrans q.view ts).1, ts.flatMap (fun x => (gransOf x.1.ua x.2).map (fun g => (s.granAt q.view x.1 g).poison)))

/-- A ring. -/
def State.ring (s : State) (n : Fin 16) : Ring := s.link.rings[n.val]

/-- Replaces a ring. -/
def State.setRing (s : State) (n : Fin 16) (x : Ring) : State := s.modLink (fun l => { l with rings := l.rings.set n.val x })

/-- Changes a ring. -/
def State.modRing (s : State) (n : Fin 16) (f : Ring → Ring) : State := s.setRing n (f (s.ring n))

/-- The partition of a ring. -/
def Ring.owner (r : Ring) : PartNo := partOf r.part.toNat

/-- R193: the landing slots of a ring. -/
def Ring.count (r : Ring) : Nat := if r.slotsLog2 = 2 then 4 else 2

/-- A request of the ring unit in its partition's device-virtual space. -/
def State.ringReq (s : State) (r : Ring) (addr access : Nat) : WalkReq := s.engineReq r.owner addr access masterRing

/-- R193: the landing record of slot `k`. -/
def State.landRec (s : State) (r : Ring) (k : Nat) : Except PFault (List Byte) :=
  (s.readVa (s.ringReq r (r.land.toNat + 64 * k) 0) 64).map (fun x => x.1)

/-- Reads chunk `c` of a message from its source. -/
def State.readTx (s : State) (src : TxSrc) (n c : Nat) : Except PFault TxData :=
  match src with
  | .ctx p ctx offs =>
    let off := offs.getD c 0
    let q : WalkReq := ⟨p, 1, ctx, off, 0, masterRing, .plain, s.home p⟩
    match s.readMarked q n with
    | .error e => .error e
    | .ok (bs, bad) =>
      let note := match (FX.fresh s p true).pageNote p (.ctx ctx) (off / 65536) with
        | some (_, _, _, ua, _) => s.readUa .plain ua 64
        | none => (List.replicate 64 0, false)
      .ok ⟨note.1, note.2, bs, bad, none⟩
  | .slot rn a =>
    let r := s.ring rn
    let k := a / 65536
    let at_ := a % 65536 + c
    match s.landRec r k with
    | .error e => .error e
    | .ok b =>
      match s.readMarked (s.ringReq r (leField b 8 8 + 65536 * at_) 0) n, s.readMarked (s.ringReq r (leField b 16 8 + 64 * at_) 0) 64 with
      | .error e, _ => .error e
      | _, .error e => .error e
      | .ok d, .ok nt =>
        let keep := ((r.slots[k]?).bind (fun x => x.chunks.find? (fun q => decide (q.at_ = at_)))).map (fun q => (q.check, q.origin))
        .ok ⟨nt.1, nt.2.any (fun v => v), d.1, d.2, keep⟩
  | .buffer p a =>
    (s.readMarked (s.engineReq p (a + 65536 * c) 0 masterRing) n).map (fun d => ⟨List.replicate 64 0, false, d.1, d.2, none⟩)
  | .store k a =>
    let x := s.core k
    .ok ⟨[], false, x.stRead (a + 65536 * c) n, (List.range (n / 64)).map (fun i => x.granBad (a + 65536 * c + 64 * i)), none⟩
  | .memory k p a =>
    let keep := (s.link.gathered.find? (fun q => decide (q.part = p) && decide (q.addr = a + 65536 * c) && decide (q.len = n))).map
      (fun q => (q.check, q.origin))
    -- R241, R255: as the core that sends sees it
    (s.readMarked { s.engineReq p (a + 65536 * c) 0 (masterTransport 0) with view := s.coreView k } n).map (fun d => ⟨[], false, d.1, d.2, keep⟩)
  | .zeros => .ok ⟨[], false, List.replicate n 0, List.replicate (n / 64) false, none⟩
  | .relay => .ok ⟨[], false, [], [], none⟩

/-- R192: the port of chunk `c` of a message. -/
def TxMsg.portOf (m : TxMsg) (c : Nat) : PortNo := m.ports.getD (c % max 1 m.ports.length) 0

/-- R337, R338: sends chunk `c` of a message, read from its source now, on its port. Gathered data keeps the check and origin it
arrived with. -/
def State.sendChunk (s : State) (m : TxMsg) (c : Nat) : Except PFault State :=
  match s.readTx m.src (chunkBytes m.total m.bytes c) c with
  | .error e => .error e
  | .ok d =>
    let pre := if m.prefixed then d.pre else []
    let fresh := (BitVec.ofNat 32 (crcOf (pre ++ d.data)), s.address)
    let k := if m.gathered then d.check.getD fresh else fresh
    let dst : W32 := BitVec.ofNat 32 (leField m.header 12 4)
    let data := s.wireCrypt m.mtype s.address (leField m.header 16 1) dst (leField m.header 17 1) dst m.id c d.data
    .ok (s.queueLane (m.portOf c) m.lane (chunkRecord m.id s.address c pre d.preBad data d.bad k.1 k.2))

/-! Messages under way -/

/-- Changes a message under way. -/
def State.modTx (s : State) (id : W32) (f : TxMsg → TxMsg) : State :=
  s.modLink (fun l => { l with tx := l.tx.map (fun m => if m.id = id then f m else m) })

/-- Takes a message out. -/
def State.dropTx (s : State) (id : W32) : State := s.modLink (fun l => { l with tx := l.tx.filter (fun m => decide (m.id ≠ id)) })

/-- A message under way. -/
def State.txMsg (s : State) (id : W32) : Option TxMsg := s.link.tx.find? (fun m => decide (m.id = id))

/-- R191, R337: the done word of a ring's entry. -/
def State.ringDone (s : State) (n : Fin 16) (entry : List Byte) : State :=
  s.dvWrite (s.ring n).owner masterRing (leField entry 40 8) (leBytes 8 (leField entry 32 4 + 1))

/-- R337: a message completes at its sender when every chunk has been reported good. -/
def State.completeTx (s : State) (id : W32) : State :=
  match s.txMsg id with
  | none => s
  | some m =>
    if m.chunks.length = m.total ∧ m.chunks.all (fun c => c.good) then
      let s1 := s.dropTx id
      match m.owner with
      | .ring n e => s1.ringDone n e
      | _ => s1
    else s

/-- R378: a message of a core fails: the core faults with its code, CORE_FAULT_PC naming the instruction. -/
def State.faultSender (s : State) (n : CoreNo) (pc : W64) (code : Nat) : State :=
  s.coreFaultAt n pc (coreErr code)

/-- R337, R340: a message fails at its sender. -/
def State.failTx (s : State) (id : W32) (code : Nat) : State :=
  match s.txMsg id with
  | none => s
  | some m =>
    let s1 := s.dropTx id
    match m.owner with
    | .ring n _ =>
      let s2 := s1.modRing n (fun r => if r.cur.any (fun c => decide (c.msg = some id)) then { r with cur := none, sqHead := r.sqHead + 1 } else r)
      s2.report ⟨code, dieX0, ((s.ring n).owner).val, unitRing, .operation, []⟩
    | .core n pc => s1.faultSender n pc code
    | .none => s1

/-- The module's next message number (R335). -/
def State.takeMsgId (s : State) : W32 × State := (s.link.nextMsg, s.modLink (fun l => { l with nextMsg := l.nextMsg + 1 }))

/-- R335 to R337: sends a whole message on one port. A source that cannot be read sends nothing. -/
def State.sendMessage (s : State) (owner : TxOwner) (p : PartNo) (port : PortNo) (lane : Fin 4) (h : MsgHead) (src : TxSrc) : Except PFault State :=
  let t := s.takeMsgId
  let hd := { h with id := t.1, src := s.address, srcPart := p.val, time := s.now }
  let m : TxMsg := ⟨t.1, owner, h.mtype, lane, [port], hd.record, h.bytes, false, bitOf h.flags 1, src, h.total, List.replicate h.total ⟨false, 0⟩, 0⟩
  let s1 := (t.2.modLink (fun l => { l with tx := l.tx ++ [m] })).queueLane port lane hd.record
  (List.range h.total).foldlM (fun (a : State) c => a.sendChunk m c) s1

end Sys2Proof.Machine
end

