-- ==== Sys2Proof/Machine/RingOps.lean ====
section
/-! DEFINITION. The ring unit (R186 to R204): landing slots and credits, the send list, quire headers, landing and relaying
chunks, and the multicast sets (R198, R199). -/

namespace Sys2Proof.Machine

/-! Sides of a ring (R201) -/

/-- Members of the ring. -/
def Ring.size (r : Ring) : Nat := r.nMinus1.toNat + 1

/-- R201: the chain position of a ring index. -/
def chainPos (n i : Nat) : Nat := if i < (n + 1) / 2 then 2 * i else 2 * (n - 1 - i) + 1

/-- The logical ports that FAB_RING_SUCC or FAB_RING_PRED names. -/
def namedPorts (v : W32) : List Nat :=
  (List.range 4).filterMap (fun k => if bitOf v.toNat (8 * k + 7) then some (bits v.toNat (8 * k) 5) else none)

/-- R192, R201: the logical ports toward the ring successor. -/
def Ring.toSucc (r : Ring) : List Nat :=
  let n := r.size
  let i := r.index.toNat
  namedPorts (if r.folded ∧ chainPos n ((i + 1) % n) < chainPos n i then r.pred else r.succ)

/-- R195, R201: the logical ports from the ring predecessor. -/
def Ring.fromPred (r : Ring) : List Nat :=
  let n := r.size
  let i := r.index.toNat
  namedPorts (if r.folded ∧ chainPos n i < chainPos n ((i + n - 1) % n) then r.succ else r.pred)

/-! Landing slots (R193) -/

/-- An empty slot granted for a landing number. -/
def LandSlot.granted (j : W32) : LandSlot := ⟨.free, j, 0, [], [], false⟩

/-- R193: writes the unit's fields of a landing record: state, poisoned, land_seq. -/
def State.writeLand (s : State) (n : Fin 16) (k : Nat) : State :=
  let r := s.ring n
  match r.slots[k]? with
  | none => s
  | some x =>
    let st := match x.mode with
      | .free => 0
      | .filling => 1
      | .ready => 2
    let a := r.land.toNat + 64 * k
    (s.dvWrite r.owner masterRing (a + 2) (leBytes 1 st ++ leBytes 1 (flagAt x.poisoned 0))).dvWrite r.owner masterRing (a + 40)
      (leBytes 4 x.seq.toNat)

/-- R193: sends the credit of a slot to the predecessor. -/
def State.sendCredit (s : State) (n : Fin 16) (k : Nat) : State :=
  let r := s.ring n
  match r.slots[k]? with
  | none => s
  | some x => s.emit (.credit n (r.fromPred.map s.physOf) r.epoch k x.seq)

/-- Replaces a slot. -/
def State.setLandSlot (s : State) (n : Fin 16) (k : Nat) (x : LandSlot) : State := s.modRing n (fun r => { r with slots := r.slots.set k x })

/-- The messages that land in slot `k` are dropped. -/
def State.dropLanding (s : State) (n : Fin 16) (k : Nat) : State :=
  s.modLink (fun l => { l with rx := l.rx.map (fun m => match m.target with
    | .ring rn rk _ _ => if rn = n ∧ rk = k then { m with target := .dropped } else m
    | _ => m) })

/-! Multicast sets (R198) -/

/-- R198: the members of a set that may be attached: those not CUT. -/
def State.attachable (s : State) (m : MDie) (members : W32) : W32 :=
  BitVec.ofNat 32 (sumNat ((List.range 32).map (fun i =>
    flagAt (members.getLsbD i && decide ((s.core (mcastCore m i)).mode ≠ .cut)) i)))

/-- R198: the unified range of a landing slot, when its frames are one run of HBM frames. -/
def State.landRange (s : State) (r : Ring) (base cap : Nat) : Option Nat :=
  match s.translate (s.ringReq r base 0) with
  | .error _ => none
  | .ok t =>
    if tierOfFrame (t.ua / 65536) = some 0 ∧ (List.range cap).all (fun i => match s.translate (s.ringReq r (base + 65536 * i) 0) with
        | .ok u => decide (u.ua = t.ua + 65536 * i) && decide (tierOfFrame (u.ua / 65536) = some 0)
        | .error _ => false) then some t.ua else none

/-- R193, R198: arms the set of a landing on every memory-side die where it is enabled. -/
def State.armLanding (s : State) (r : Ring) (rec : List Byte) : State :=
  match s.landRange r (leField rec 8 8) (leField rec 4 2) with
  | none => s
  | some ua => allMDies.foldl (fun t m =>
      let x := t.mcastSet m (leField rec 44 1 % 16)
      if x.enable then t.setMcast m (leField rec 44 1 % 16)
        { x.disarmed with window := some (ua, leField rec 4 2), attached := t.attachable m x.members }
      else t) s

/-- R193: disarms the set of a landing. -/
def State.disarmLanding (s : State) (rec : List Byte) : State :=
  allMDies.foldl (fun t m =>
    let x := t.mcastSet m (leField rec 44 1 % 16)
    if x.window.isSome then t.setMcast m (leField rec 44 1 % 16) x.disarmed else t) s

/-! The send list (R191, R192) -/

/-- R191: a send entry that is well formed. -/
def sendEntryOk (b : List Byte) : Bool :=
  let src := leField b 2 1
  decide (leField b 0 2 = 0x0110) && decide (src ≤ 2) && zeroFrom b 3 1 && decide (1 ≤ leField b 4 2) && decide (leField b 4 2 ≤ 256) &&
  zeroFrom b 6 2 && zeroFrom b 10 2 && zeroFrom b 12 4 && (decide (src ≠ 0) || decide (leField b 16 8 % 8 = 0)) &&
  (decide (src ≠ 2) || decide (leField b 16 8 % 65536 = 0)) && decide (leField b 24 8 % 64 = 0) && zeroFrom b 38 2 && zeroFrom b 48 16

/-- R187, R191: a template that fits an entry. -/
def templateFits (e t : List Byte) : Bool :=
  (decide (leField t 0 1 = 1) || decide (leField t 0 1 = 2)) && decide (leField t 1 1 = 1) && decide (leField t 6 2 = leField e 4 2) &&
  zeroFrom t 5 1 && zeroFrom t 13 1 && zeroFrom t 56 196

/-- R187: the header as the unit sends it. -/
def quireHeader (r : Ring) (n : Fin 16) (e t : List Byte) (now : Nat) : List Byte :=
  let h := overlay (overlay (overlay (overlay (overlay t 8 (leBytes 4 r.epoch.toNat)) 12 (leBytes 1 n.val)) 16 (leBytes 2 r.index.toNat))
    44 (leBytes 4 (leField e 32 4))) 48 (leBytes 8 now)
  h.take 252 ++ leBytes 4 (crcOf (h.take 252))

/-- R191: two headers are of one block: kind, origin, sequence, layer, first head and first token agree. -/
def sameBlock (a b : List Byte) : Bool :=
  decide (leField a 0 1 = leField b 0 1) && decide (leField a 18 9 = leField b 18 9) && decide (leField a 32 6 = leField b 32 6)

/-- R191: the local slot that holds the block a source-1 entry forwards (DEDUCED: the landed header of the same block). -/
def Ring.localSlot (r : Ring) (t : List Byte) : Option Nat :=
  (List.range r.slots.length).find? (fun k => match r.slots[k]? with
    | some x => decide (x.mode ≠ .free) && x.headers.any (fun h => sameBlock h.2 t)
    | none => false)

/-- R191: chunk `at_` has landed in slot `k`. -/
def Ring.hasChunk (r : Ring) (k at_ : Nat) : Bool :=
  match r.slots[k]? with
  | some x => x.chunks.any (fun c => decide (c.at_ = at_))
  | none => false

/-- R191: the send entry at the head is skipped, with a code. -/
def State.skipSend (s : State) (n : Fin 16) (code : Nat) : State :=
  (s.report ⟨code, dieX0, ((s.ring n).owner).val, unitRing, .operation, if code = 0x0503 then u64s [(s.ring n).sqHead.toNat] else []⟩).modRing n
    (fun r => { r with sqHead := r.sqHead + 1, cur := none })

/-- R191: takes up the entry at the head of the send list. -/
def State.loadSend (s : State) (n : Fin 16) : State :=
  let r := s.ring n
  let pf (e : PFault) : State :=
    (s.reportPF r.owner dieX0 unitRing .operation e).modRing n (fun r => { r with sqHead := r.sqHead + 1, cur := none })
  match s.readVa (s.ringReq r (r.sqBase.toNat + 64 * r.sqHead.toNat) 0) 64 with
  | .error e => pf e
  | .ok (b, _) =>
    if !sendEntryOk b then s.skipSend n 0x0503
    else match s.readVa (s.ringReq r (leField b 24 8) 0) 256 with
      | .error e => pf e
      | .ok (t, _) => if templateFits b t then s.modRing n (fun r => { r with cur := some ⟨b, t, 0, none⟩ }) else s.skipSend n 0x0503

/-- R191: the source of an entry, with its local slot. -/
def State.sendSrc (s : State) (n : Fin 16) (c : RingSend) : Option (Except PFault TxSrc) :=
  let r := s.ring n
  let e := c.entry
  match leField e 2 1 with
  | 0 => some ((s.readVa (s.ringReq r (leField e 16 8) 0) (8 * leField e 4 2)).map (fun x =>
      .ctx r.owner (leField e 8 2) ((List.range (leField e 4 2)).map (fun i => leField x.1 (8 * i) 8))))
  | 1 => (r.localSlot c.header).map (fun k => .ok (.slot n (65536 * k + leField e 36 2)))
  | _ => some (.ok (.buffer r.owner (leField e 16 8)))

/-- R192: the quire lane of a port has nothing waiting, so a ring's next chunk may take its turn. -/
def State.laneFree (s : State) (p : PortNo) : Bool := decide ((s.port p).queue[1] = [])

/-- R192: begins the message of the current entry: its header goes out. The successor's fabric address and partition stand
in no register (a free value, log 1). -/
def State.beginSend (s : State) (n : Fin 16) (c : RingSend) (src : TxSrc) (ports : List PortNo) : State :=
  let r := s.ring n
  let t := s.takeMsgId
  let lead := quireHeader r n c.entry c.header s.now
  let kind2 := decide (leField c.header 0 1 = 2)
  let total := leField c.entry 4 2
  let h : MsgHead := ⟨1, if kind2 then 1 else 2, t.1, s.address, Config.freeW32 s.draws, r.owner.val, (Config.freeByte (s.draws + 1)).toNat,
    total, 65536 * total, s.now, leBytes 2 (leField c.entry 36 2), lead⟩
  let m : TxMsg := ⟨t.1, .ring n c.entry, 1, 1, ports, h.record, 65536 * total, true, !kind2, src, total, [], 0⟩
  let s1 := ({ t.2 with draws := s.draws + 2 } : State).modLink (fun l => { l with tx := l.tx ++ [m] })
  (s1.queueLane (ports.headD 0) 1 h.record).modRing n (fun r => { r with cur := some { c with header := lead, msg := some t.1 } })

/-- R192: the current entry may send its next chunk: the successor's slot is granted and, for a forward, the chunk landed. -/
def State.maySend (s : State) (n : Fin 16) (c : RingSend) : Bool :=
  let r := s.ring n
  let j : W32 := BitVec.ofNat 32 (leField c.entry 32 4)
  r.credits.any (fun q => decide (q.2 = j)) &&
  (decide (leField c.entry 2 1 ≠ 1) || match r.localSlot c.header with
    | some k => r.hasChunk k (leField c.entry 36 2 + c.next)
    | none => false)

/-- R192: sends chunk `c.next` of the current entry; the next turn on its port is for the rings after this one. -/
def State.sendNext (s : State) (n : Fin 16) (c : RingSend) (id : W32) : State :=
  match s.txMsg id with
  | none => s.modRing n (fun r => { r with cur := none, sqHead := r.sqHead + 1 })
  | some m =>
    let total := leField c.entry 4 2
    let m1 := { m with chunks := m.chunks ++ [⟨false, 0⟩] }
    match s.sendChunk m c.next with
    | .error e =>
      ((s.dropTx id).reportPF (s.ring n).owner dieX0 unitRing .operation e).modRing n (fun r => { r with cur := none, sqHead := r.sqHead + 1 })
    | .ok t =>
      let t1 := (t.modTx id (fun _ => m1)).modPort (m.portOf c.next) (fun x => { x with ringTurn := n.val + 1 })
      if c.next + 1 = total then t1.modRing n (fun r => { r with cur := none, sqHead := r.sqHead + 1 })
      else t1.modRing n (fun r => { r with cur := some { c with next := c.next + 1 } })

/-- R192: the next chunk of the message under way, when the lane of its port is free. A port found held fails it (R358). -/
def State.nextChunk (s : State) (n : Fin 16) (c : RingSend) (id : W32) : Option State :=
  match s.txMsg id with
  | none => some (s.modRing n (fun r => { r with cur := none, sqHead := r.sqHead + 1 }))
  | some m =>
    if m.ports.any (fun p => (s.port p).held) then some (s.failTx id 0x040C)
    else if !s.laneFree (m.portOf c.next) then none
    else some (s.sendNext n c id)

/-- R192: the current entry begins: its header and its first chunk. -/
def State.firstChunk (s : State) (n : Fin 16) (c : RingSend) (src : TxSrc) (ports : List PortNo) : State :=
  let t := s.beginSend n c src ports
  match (t.ring n).cur with
  | some c1 => match c1.msg with
    | some id => t.sendNext n c1 id
    | none => t
  | none => t

/-- R192: one step of sending, when there is one. -/
def State.ringStep (s : State) (n : Fin 16) : Option State :=
  let r := s.ring n
  if r.mode ≠ .running then none
  else match r.cur with
    | none => if r.sqHead = r.sqTail then none else some (s.loadSend n)
    | some c =>
      if !s.maySend n c then none
      else match c.msg with
        | some id => s.nextChunk n c id
        | none =>
          let os := r.toSucc.map s.offer
          match os.find? (fun o => match o with
            | .error _ => true
            | .ok _ => false) with
          | some (.error code) => some (s.skipSend n code)
          | _ =>
            let ports := os.filterMap (fun o => match o with
              | .ok p => some p
              | .error _ => none)
            if ports = [] ∨ !s.laneFree (ports.headD 0) then none
            else match s.sendSrc n c with
              | none => none
              | some (.error e) =>
                some ((s.reportPF r.owner dieX0 unitRing .operation e).modRing n (fun r => { r with cur := none, sqHead := r.sqHead + 1 }))
              | some (.ok src) => some (s.firstChunk n c src ports)

/-- R192: sends what can be sent (at most the chunks of a full list). -/
def State.ringSendN (s : State) (n : Fin 16) : Nat → State
  | 0 => s
  | k + 1 => match s.ringStep n with
    | none => s
    | some t => State.ringSendN t n k

/-- Sends what can be sent. -/
def State.ringSend (s : State) (n : Fin 16) : State := s.ringSendN n 66048

/-- R190: the quire lane of a port has become free: the rings take their turns on it one chunk at a time, in ascending number from
the ring after the last that sent. -/
def State.ringsSend (s : State) (p : PortNo) : State :=
  (List.range 16).foldl (fun t k => t.ringSend ⟨((s.port p).ringTurn + k) % 16, Nat.mod_lt _ (by decide)⟩) s

/-! Quire headers (R195) -/

/-- R195: a drop is counted and recorded once for each code until its bit is cleared. -/
def State.dropQuire (s : State) (n : Fin 16) (epoch : Bool) : State :=
  let r := s.ring n
  let s1 := s.countDie 4 ⟨if epoch then 0x09 else 0x0A, 1, 0, 3, 1, none, none, none⟩
  let said := if epoch then r.epochDrop else r.headerDrop
  let s2 := s1.modRing n (fun r => if epoch then { r with epochDrop := true } else { r with headerDrop := true })
  if said then s2
  else s2.report ⟨if epoch then 0x0404 else 0x0406, dieX0, r.owner.val, unitRing, .operation, []⟩

/-- R201: a quire of a folded ring that is on its way to another member: the ports of the other side. -/
def State.relaySide (s : State) (n : Fin 16) (p : PortNo) (lead : List Byte) : Option (List PortNo) :=
  let r := s.ring n
  let l := s.logicalOf p
  if r.folded ∧ lead.length = 256 ∧ (leField lead 16 2 + 1) % r.size ≠ r.index.toNat then
    if l ∈ namedPorts r.pred then some ((namedPorts r.succ).map s.physOf)
    else if l ∈ namedPorts r.succ then some ((namedPorts r.pred).map s.physOf) else none
  else none

/-- R195: what a quire header leads to. `dest` is its dest_chunk. A lead block that is no quire header fails check 1. -/
def State.quireTarget (s : State) (p : PortNo) (lead : List Byte) (dest : Nat) : State × RxTarget :=
  let n : Fin 16 := ⟨leField lead 12 1 % 16, Nat.mod_lt _ (by decide)⟩
  let r := s.ring n
  let seq := leField lead 44 4
  let k := seq % r.count
  match s.relaySide n p lead with
  | some ps => (s, .relay n ps)
  | none =>
    if lead.length ≠ 256 ∨ leField lead 252 4 ≠ crcOf (lead.take 252) ∨ (leField lead 0 1 ≠ 1 ∧ leField lead 0 1 ≠ 2) ∨ leField lead 1 1 ≠ 1 ∨
        16 ≤ leField lead 12 1 ∨ r.mode ≠ .running ∨ s.logicalOf p ∉ r.fromPred then (s.dropQuire n false, .dropped)
    else if leField lead 8 4 ≠ r.epoch.toNat then (s.dropQuire n true, .dropped)
    else match r.slots[k]?, s.landRec r k with
      | some x, .ok rec =>
        if x.mode = .ready ∨ x.seq.toNat ≠ seq ∨ leField rec 4 2 < dest + leField lead 6 2 then (s.dropQuire n false, .dropped)
        else
          let x1 : LandSlot := { x with headers := x.headers ++ [(dest, lead)] }
          (s.setLandSlot n k x1, .ring n k x.seq dest)
      | _, _ => (s.dropQuire n false, .dropped)

/-! Landing (R188, R193, R197) -/

/-- A chunk as it has been verified (R336). -/
structure RxChunk where
  index : Nat
  pre : List Byte
  preBad : Bool
  data : List Byte
  bad : List Bool
  check : W32
  origin : W32
  deriving DecidableEq, Repr

/-- R188, R197: writes bytes with their marks in a ring's space; none when a page faults. -/
def State.landBytes (s : State) (q : WalkReq) (bs : List Byte) (bad : List Bool) : Except PFault State :=
  (s.translateAll q (pagePieces q.addr bs.length)).map (fun ts =>
    s.plainWrite (.engine q.master) (transPieces ts bs (fun i => bad.getD i false)))

/-- R193 step 3: a quire has landed in full; the last one of a landing makes the slot READY. -/
def State.quireLanded (s : State) (n : Fin 16) (k : Nat) : State :=
  let r := s.ring n
  match r.slots[k]?, s.landRec r k with
  | some x, .ok rec =>
    if x.quires + 1 < leField rec 6 2 then s.setLandSlot n k { x with quires := x.quires + 1 }
    else
      let s1 := s.setLandSlot n k { x with quires := x.quires + 1, mode := .ready }
      let times := Tab.set (0, 0) r.landTimes k (s.now, (Tab.get (0, 0) r.landTimes k).1)
      let s2 := (s1.modRing n (fun r => { r with landed := r.landed + 1, landTimes := times })).dvWrite r.owner masterRing (leField rec 24 8)
        (leBytes 8 (x.seq.toNat + 1))
      let s3 := s2.writeLand n k
      if r.mcastArm then s3.armLanding r rec else s3
  | _, _ => s

/-- R188, R193, R338: a verified chunk lands in its slot; the answer says whether it did. -/
def State.landQuire (s : State) (n : Fin 16) (k : Nat) (seq : W32) (dest : Nat) (c : RxChunk) : State × Bool :=
  let r := s.ring n
  match r.slots[k]?, s.landRec r k with
  | some x, .ok rec =>
    if x.seq ≠ seq ∨ x.mode = .ready ∨ r.mode ≠ .running then (s, false)
    else
      let at_ := dest + c.index
      match s.landBytes (s.ringReq r (leField rec 8 8 + 65536 * at_) 1) c.data c.bad with
      | .error e => (s.reportPF r.owner dieX0 unitRing .operation e, false)
      | .ok s1 => match s1.landBytes (s1.ringReq r (leField rec 16 8 + 64 * at_) 1) c.pre [c.preBad] with
        | .error e => (s1.reportPF r.owner dieX0 unitRing .operation e, false)
        | .ok s2 =>
          let x1 : LandSlot := { x with mode := .filling, chunks := x.chunks ++ [⟨at_, c.check, c.origin⟩],
                                        poisoned := x.poisoned || c.bad.any (fun v => v) || c.preBad }
          ((s2.setLandSlot n k x1).writeLand n k, true)
  | _, _ => (s, false)

/-- R201, R358: a relayed chunk goes out on the other side, unchanged, unless that port is held. -/
def State.relayChunk (s : State) (ps : List PortNo) (c : Nat) (record : List Byte) : State :=
  match ps[c % max 1 ps.length]? with
  | none => s
  | some p => if (s.port p).held then s else s.queueLane p 1 record

end Sys2Proof.Machine
end

