-- ==== Sys2Proof/Machine/CollOps.lean ====
section
/-! DEFINITION. Collectives (R372 to R380): group records, landing collective messages, and CSTEP and CCOUNT on a core. -/

namespace Sys2Proof.Machine

/-! Group records (R372) -/

/-- R372: the header of a group record. -/
structure Group where
  n : Nat
  rank : Nat
  slots : Nat
  epoch : Nat
  slotBytes : Nat
  land : Nat
  ready : Nat
  deriving DecidableEq, Repr

/-- R372: a group record's header, when it keeps its field rules. -/
def groupOf (b : List Byte) : Option Group :=
  let g : Group := ⟨leField b 2 2, leField b 4 2, leField b 6 1, leField b 8 4, leField b 12 4, leField b 16 8, leField b 24 8⟩
  if leField b 0 2 = 0x0162 ∧ 1 ≤ g.n ∧ g.n ≤ 4096 ∧ g.rank < g.n ∧ 1 ≤ g.slots ∧ g.slots ≤ 16 ∧ zeroFrom b 7 1 ∧
      g.slotBytes % 65536 = 0 ∧ 65536 ≤ g.slotBytes ∧ g.slotBytes ≤ 16777216 ∧ g.land % 65536 = 0 ∧ g.ready % 64 = 0 ∧
      zeroFrom b 32 32 then some g
  else none

/-- R372: an entry of a group record: fabric address, partition, logical port (none: this module). -/
structure GroupRank where
  addr : W32
  part : Nat
  port : Option Nat
  deriving DecidableEq, Repr

/-- R372: an entry, when it keeps its field rules. -/
def groupRank (b : List Byte) : Option GroupRank :=
  let p := leField b 5 1
  if zeroFrom b 6 2 ∧ leField b 4 1 < 8 ∧ (p < 30 ∨ p = 0xFF) then
    some ⟨BitVec.ofNat 32 (leField b 0 4), leField b 4 1, if p = 0xFF then none else some p⟩
  else none

/-- R373: where slot `k` of rank `r` lands. -/
def Group.dataAt (g : Group) (r k off : Nat) : Nat := g.land + (r * g.slots + k) * g.slotBytes + off

/-- R373: the ready entry of slot `k` of rank `r`. -/
def Group.readyAt (g : Group) (r k : Nat) : Nat := g.ready + 16 * (r * g.slots + k)

/-- R373: the count entry of rank `r`. -/
def Group.countAt (g : Group) (r : Nat) : Nat := g.ready + 16 * (g.n * g.slots + r)

/-! At the receiver (R374, R375) -/

/-- R374: the lead block of a collective message. -/
structure CollLead where
  group : Nat
  epoch : Nat
  rank : Nat
  slot : Nat
  kind : Nat
  off : Nat
  count : Nat
  cseq : W64
  deriving DecidableEq, Repr

/-- R374: its fields. -/
def CollLead.ofBytes (b : List Byte) : CollLead :=
  ⟨leField b 0 8, leField b 8 4, leField b 12 2, leField b 14 1, leField b 15 1, leField b 16 4, leField b 20 4, BitVec.ofNat 64 (leField b 24 8)⟩

/-- R374: its bytes. -/
def CollLead.bytes (l : CollLead) : List Byte :=
  leBytes 8 l.group ++ leBytes 4 l.epoch ++ leBytes 2 l.rank ++ leBytes 1 l.slot ++ leBytes 1 l.kind ++ leBytes 4 l.off ++ leBytes 4 l.count ++
  leBytes 8 l.cseq.toNat ++ List.replicate 32 0

/-- R375: a message is dropped: counted, and recorded once for its partition, group and epoch. -/
def State.dropColl (s : State) (x : Nat) (p : PartNo) (l : CollLead) : State :=
  let s1 := s.countDie (4 + x) ⟨0x0B, 1, 0, 3, 2, some p, none, none⟩
  let key : PartNo × Nat × W32 := (p, l.group, BitVec.ofNat 32 l.epoch)
  if key ∈ s.link.stale then s1
  else (s1.modLink (fun k => { k with stale := k.stale ++ [key] })).report
    ⟨0x040F, if x = 0 then dieX0 else dieX1, p.val, unitCollective, .operation, []⟩

/-- R375: what a collective message leads to at I/O die `x`; `bytes` is its payload. -/
def State.collTarget (s : State) (x : Nat) (p : PartNo) (lead : List Byte) (bytes : Nat) : State × RxTarget :=
  let l := CollLead.ofBytes lead
  let drop : State × RxTarget := (s.dropColl x p l, .dropped)
  match s.readVa (s.engineReq p l.group 0 (masterColl x)) 64 with
  | .error _ => drop
  | .ok (b, _) =>
    let g : Group := ⟨leField b 2 2, leField b 4 2, leField b 6 1, leField b 8 4, leField b 12 4, leField b 16 8, leField b 24 8⟩
    if leField b 0 1 ≠ 0x62 ∨ g.epoch ≠ l.epoch ∨ g.n ≤ l.rank ∨ g.slots ≤ l.slot ∨ g.slotBytes < l.off + bytes then drop
    else if l.kind = 1 then (s, .count p x (g.countAt l.rank) l.cseq (BitVec.ofNat 32 l.count))
    else (s, .land p x (g.dataAt l.rank l.slot l.off) (g.readyAt l.rank l.slot) l.cseq)

/-- R375 step 3: lands a chunk; the answer says whether it did. -/
def State.landColl (s : State) (p : PartNo) (x data c : Nat) (bs : List Byte) (bad : List Bool) : State × Bool :=
  match s.landBytes (s.engineReq p (data + 65536 * c) 1 (masterColl x)) bs bad with
  | .error e => (s.reportPF p (if x = 0 then dieX0 else dieX1) unitCollective .operation e, false)
  | .ok t => (t, true)

/-- R375 step 4: the ready entry. -/
def State.collReady (s : State) (p : PartNo) (x ready : Nat) (cseq : W64) : State :=
  s.dvWrite p (masterColl x) ready (leBytes 8 (cseq + 1).toNat ++ leBytes 8 s.now)

/-- R375 step 5: the count entry. -/
def State.collCount (s : State) (p : PartNo) (x entry : Nat) (cseq : W64) (n : W32) : State :=
  s.dvWrite p (masterColl x) entry (leBytes 8 (cseq + 1).toNat ++ leBytes 4 n.toNat ++ leBytes 4 0)

/-! On the core (R377 to R380) -/

/-- R377: a CSTEP descriptor. -/
structure StepDesc where
  op : Nat
  flags : Nat
  rank : Nat
  count : Nat
  slot : Nat
  st : Nat
  stride : Nat
  bytes : Nat
  off : Nat
  group : Nat
  cseq : W64
  mem : Nat
  laggard : Nat
  deriving DecidableEq, Repr

/-- R377: its fields. -/
def StepDesc.ofBytes (b : List Byte) : StepDesc :=
  ⟨leField b 2 1, leField b 3 1, leField b 4 2, leField b 6 2, leField b 8 1, leField b 12 4, leField b 16 4, leField b 20 4, leField b 24 4,
   leField b 32 8, BitVec.ofNat 64 (leField b 40 8), leField b 48 8, leField b 56 8⟩

/-- R377: PUT reads memory. -/
def StepDesc.srcMem (d : StepDesc) : Bool := bitOf d.flags 2

/-- R377: the field rules of a CSTEP descriptor, before its group record is known. -/
def stepOk (b : List Byte) (op : Nat) : Bool :=
  let d := StepDesc.ofBytes b
  let put := decide (op = 1)
  decide (leField b 0 2 = 0x0160) && decide (d.op = op) && (if put then decide (d.flags < 8) else decide (d.flags < 32) && decide (d.flags % 8 = 0)) &&
  (!put || decide (d.count = 1)) && decide (1 ≤ d.count) && zeroFrom b 9 3 && decide (d.st < 2 ^ 22) && (put || decide (d.stride % 64 = 0)) &&
  decide (d.bytes % 64 = 0) && decide (64 ≤ d.bytes) && decide (d.bytes ≤ if put && d.srcMem then 16777216 else 1048576) &&
  decide (d.off % 64 = 0) && zeroFrom b 28 4 && decide (d.group % 64 = 0) && (!(put && d.srcMem) || decide (d.mem % 64 = 0)) &&
  (if bitOf d.flags 4 then decide (d.laggard % 64 = 0) else decide (d.laggard = 0))

/-- What stops a collective step: a fault of the core, with the translation failure to record. -/
structure CollErr where
  err : CoreErr
  pf : Option PFault

/-- A fault without a translation failure. -/
def CollErr.of (e : CoreErr) : CollErr := ⟨e, none⟩

/-- Faults the core. -/
def State.collFault (s : State) (n : CoreNo) (e : CollErr) : State :=
  match e.pf with
  | some f => (s.pfRecord (s.core n).part f).coreFault n e.err
  | none => s.coreFault n e.err

/-- A core reads bytes of its partition's space; poison stops it (R69), and a closed snapshot (R254). -/
def State.collRead (s : State) (n : CoreNo) (addr k : Nat) : Except CollErr (List Byte) :=
  match s.readErr n, s.readVa (s.coreReq n 0 0 addr 0) k with
  | some e, _ => .error (CollErr.of e)
  | none, .error f => .error ⟨errPage f, some f⟩
  | none, .ok (b, bad) => if bad then .error (CollErr.of errPoison) else .ok b

/-- R372: the group record a descriptor names. -/
def State.groupAt (s : State) (n : CoreNo) (addr : Nat) : Except CollErr Group :=
  match s.collRead n addr 64 with
  | .error e => .error e
  | .ok b => match groupOf b with
    | none => .error (CollErr.of errBadOrder)
    | some g => .ok g

/-- R376: data of call `cseq` comes for a slot, by its ready entry, that a waiting TAKE of an earlier call still names. -/
def State.collBreach (s : State) (p : PartNo) (ready : Nat) (cseq : W64) : Bool :=
  (s.coresOf p).any (fun n => match (s.core n).wait with
    | some (.take b _) =>
      let d := StepDesc.ofBytes b
      decide (d.cseq.toNat < cseq.toNat) && (match s.groupAt n d.group with
        | .ok g => (List.range d.count).any (fun i => decide (g.readyAt ((d.rank + i) % g.n) d.slot = ready))
        | .error _ => false)
    | _ => false)

/-- R375 step 3, R376: lands a chunk; the bytes of a breach are undefined (log 1, log 63). -/
def State.landChunk (s : State) (p : PartNo) (x data ready : Nat) (cseq : W64) (c : Nat) (bs : List Byte) (bad : List Bool) : State × Bool :=
  if s.collBreach p ready cseq then
    ({ s with draws := s.draws + bs.length } : State).landColl p x data c ((List.range bs.length).map (fun i => Config.freeByte (s.draws + i))) bad
  else s.landColl p x data c bs bad

/-- R372: a rank of a group. -/
def State.rankAt (s : State) (n : CoreNo) (addr r : Nat) : Except CollErr GroupRank :=
  match s.collRead n (addr + 64 + 8 * r) 8 with
  | .error e => .error e
  | .ok b => match groupRank b with
    | none => .error (CollErr.of errBadOrder)
    | some g => .ok g

/-- R373: delivers a message to a rank on this module at once, checked like any other (DEDUCED: its checks pass). -/
def State.sendLocal (s : State) (p : PartNo) (lead : List Byte) (bytes : Nat) (src : TxSrc) : Except PFault State :=
  let t := s.collTarget 0 p lead bytes
  let total := ceilDiv bytes 65536
  match t.2 with
  | .land q x data ready cseq =>
    (List.range total).foldlM (fun (a : State × Bool) c =>
      (a.1.readTx src (chunkBytes total bytes c) c).map (fun d =>
        if a.2 then a.1.landChunk q x data ready cseq c d.data d.bad else a)) (t.1, true) |>.map (fun a =>
      if a.2 then a.1.collReady q x ready cseq else a.1)
  | .count q x entry cseq n => .ok (t.1.collCount q x entry cseq n)
  | _ => .ok t.1

/-- R378, R380: sends one collective message of a core to a rank. One to a rank of this module goes through the transport of X0,
which discards and counts it like any other when it is not for a partition formed here (R351, R373). -/
def State.sendColl (s : State) (n : CoreNo) (rk : GroupRank) (lead : CollLead) (flags bytes : Nat) (src : TxSrc) : State :=
  let c := s.core n
  match rk.port with
  | none =>
    if rk.addr ≠ s.address ∨ (s.part (partOf rk.part)).mode = .unformed then
      s.countDie 4 ⟨0x11, 1, 0, 3, if lead.kind = 1 then 0 else 2, none, none, none⟩
    else match s.sendLocal (partOf rk.part) lead.bytes bytes src with
      | .ok t => t
      | .error f => (s.pfRecord c.part f).coreFault n (errPage f)
  | some l => match s.offer l with
    | .error code => s.coreFault n (coreErr code)
    | .ok port =>
      let h : MsgHead := ⟨if lead.kind = 1 then 3 else 2, flags, 0, 0, rk.addr, 0, rk.part, ceilDiv bytes 65536, bytes, 0, [], lead.bytes⟩
      match s.sendMessage (.core n c.regs.pc) c.part port (if lead.kind = 1 then 0 else 2) h src with
      | .ok t => t
      | .error f => (s.pfRecord c.part f).coreFault n (errPage f)

/-- R378: a PUT. -/
def State.collPut (s : State) (n : CoreNo) (b : List Byte) : State :=
  let d := StepDesc.ofBytes b
  if !stepOk b 1 then s.coreFault n errBadOrder
  else match s.groupAt n d.group with
    | .error e => s.collFault n e
    | .ok g =>
      if g.n ≤ d.rank ∨ g.slots ≤ d.slot ∨ g.slotBytes < d.off + d.bytes then s.coreFault n errBadOrder
      else if !d.srcMem ∧ d.st % 64 ≠ 0 then s.coreFault n errMisaligned
      else if !d.srcMem ∧ storeSize < d.st + d.bytes then s.coreFault n (errStore (d.st + d.bytes))
      else match s.rankAt n d.group d.rank with
        | .error e => s.collFault n e
        | .ok rk =>
          let src : TxSrc := if d.srcMem then .memory n (s.core n).part d.mem else .store n d.st
          let lead : CollLead := ⟨d.group, g.epoch, g.rank, d.slot, 0, d.off, 0, d.cseq⟩
          let t := s.sendColl n rk lead (d.flags % 4) d.bytes src
          if (t.core n).mode = .faulted then t
          else ((t.modCore n (fun c => if d.srcMem then c else c.seen (c.stBad d.st d.bytes))).countCore n 0x1B (d.bytes / 64)).retire n

/-- R379: the ready entry of source `i` holds the call's number; its arrival time. -/
def State.takeReady (s : State) (n : CoreNo) (g : Group) (d : StepDesc) (i : Nat) : Except CollErr (Option Nat) :=
  (s.collRead n (g.readyAt ((d.rank + i) % g.n) d.slot) 16).map (fun b =>
    if leField b 0 8 = (d.cseq + 1).toNat then some (leField b 8 8) else none)

/-- R379 steps 2 and 3: takes source `i`. -/
def State.takeSource (s : State) (n : CoreNo) (g : Group) (d : StepDesc) (i : Nat) : State × Option CollErr :=
  let r := (d.rank + i) % g.n
  let c := s.core n
  if bitOf d.flags 3 ∧ 4096 ≤ c.streamq.length then (s, some (CollErr.of ⟨0x0106, 4, false, 0, 1, 4096 - c.streamq.length, none⟩))
  else
    let run : Run := ⟨g.dataAt r d.slot d.off, d.st + i * d.stride, d.bytes⟩
    match s.loadRuns n 0 0 [run] [run] with
    | (t, some e) => (t, some (CollErr.of e))
    | (t, none) =>
      (if bitOf d.flags 3 then t.modCore n (fun c => { c with streamq := c.streamq ++ [⟨BitVec.ofNat 64 r, false⟩] }) else t, none)

/-- R386: the laggard record of a TAKE, and the delay it counts. -/
def laggardRecord (g : Group) (d : StepDesc) (times : List Nat) : List Byte × Nat :=
  let rs := (times.zipIdx).map (fun e => ((d.rank + e.2) % g.n, e.1))
  let later (a b : Nat × Nat) : Bool := decide (b.2 < a.2) || (decide (a.2 = b.2) && decide (a.1 < b.1))
  let pick (l : List (Nat × Nat)) : Nat × Nat := l.foldl (fun a b => if later b a then b else a) (l.headD (0, 0))
  let sl := pick rs
  let rest := rs.filter (fun e => decide (e ≠ sl))
  let nx := if rest = [] then sl else pick rest
  let first := times.foldl min (times.headD 0)
  (leBytes 1 0x63 ++ leBytes 1 1 ++ leBytes 2 d.count ++ leBytes 2 sl.1 ++ leBytes 2 nx.1 ++ leBytes 8 d.cseq.toNat ++ leBytes 8 first ++
   leBytes 8 sl.2 ++ leBytes 8 (sl.2 - nx.2) ++ leBytes 8 (sl.2 - first) ++ List.replicate 16 0, sl.2 - nx.2)

/-- R386: ends a TAKE: its record, its events. -/
def State.endTake (s : State) (n : CoreNo) (g : Group) (d : StepDesc) : State :=
  if !bitOf d.flags 4 then ((s.countCore n 0x1B (d.count * d.bytes / 64)).retire n).endWait n
  else match (List.range d.count).mapM (fun i => s.takeReady n g d i) with
    | .error e => s.collFault n e
    | .ok ts =>
      let r := laggardRecord g d (ts.map (fun t => t.getD 0))
      match s.translateAll (s.coreReq n 0 0 d.laggard 1) (pagePieces d.laggard 64) with
      | .error f => s.collFault n ⟨errPage f, some f⟩
      | .ok tr => match s.coreStore n (transPieces tr r.1 (fun _ => false)) with
        | .error e => s.coreFault n e
        | .ok s1 =>
          let s2 := ((s1.countCore n 0x1B (d.count * d.bytes / 64)).countCore n 0x13 1).countCore n 0x14 r.2
          (s2.retire n).endWait n

/-- R379: takes sources in order while they are ready; `done` have been taken. -/
def State.takeMore (s : State) (n : CoreNo) (b : List Byte) (g : Group) (d : StepDesc) : Nat → Nat → State
  | 0, _ => s
  | k + 1, done =>
    if d.count ≤ done then s.endTake n g d
    else match s.takeReady n g d done with
      | .error e => s.collFault n e
      | .ok none =>
        let w : CoreWait := .take b (List.range done)
        if (s.core n).wait.isSome then s.modCore n (fun c => { c with wait := some w }) else s.beginWait n w
      | .ok (some _) => match s.takeSource n g d done with
        | (t, some e) => t.collFault n e
        | (t, none) => State.takeMore t n b g d k (done + 1)

/-- R377, R379: a TAKE. -/
def State.collTake (s : State) (n : CoreNo) (b : List Byte) : State :=
  let d := StepDesc.ofBytes b
  if !stepOk b 2 then s.coreFault n errBadOrder
  else match s.groupAt n d.group with
    | .error e => s.collFault n e
    | .ok g =>
      if g.n ≤ d.rank ∨ g.n < d.count ∨ g.slots ≤ d.slot ∨ g.slotBytes < d.off + d.bytes then s.coreFault n errBadOrder
      else if d.st % 64 ≠ 0 then s.coreFault n errMisaligned
      else if storeSize < d.st + (d.count - 1) * d.stride + d.bytes then s.coreFault n (errStore (d.st + (d.count - 1) * d.stride + d.bytes))
      else s.takeMore n b g d (d.count + 1) 0

/-- R380: the field rules of a CCOUNT descriptor. -/
def countOk (b : List Byte) : Bool :=
  decide (leField b 0 2 = 0x0161) && zeroFrom b 2 2 && zeroFrom b 12 4 && decide (leField b 16 8 % 64 = 0) && zeroFrom b 40 24

/-- R380: the count entry of rank `r`, when it holds the call's number. -/
def State.countReady (s : State) (n : CoreNo) (g : Group) (cseq : W64) (r : Nat) : Except CollErr (Option Nat) :=
  (s.collRead n (g.countAt r) 16).map (fun b => if leField b 0 8 = (cseq + 1).toNat then some (leField b 8 4) else none)

/-- R380: running sums from 0, modulo 2^32. -/
def runningSums (l : List Nat) : List Nat := (l.foldl (fun (a : List Nat × Nat) v => (a.1 ++ [a.2], (a.2 + v) % 2 ^ 32)) ([], 0)).1

/-- R69, R380: the i-th granule of the arrays is poisoned when it holds an offset into the sent data that sums a poisoned count. -/
def Core.countsBad (c : Core) (sa oa n i : Nat) : Bool :=
  let top := 64 * (oa / 64 + i) + 64
  decide (oa + 8 * n < top) && c.stBad sa (4 * min (n - 1) ((top - oa - 8 * n) / 4 - 1))

/-- R380: looks at the count entries: all there, the arrays are written; else the core waits. -/
def State.countPoll (s : State) (n : CoreNo) (b : List Byte) (g : Group) : State :=
  match (List.range g.n).mapM (fun r => s.countReady n g (BitVec.ofNat 64 (leField b 24 8)) r) with
  | .error e => s.collFault n e
  | .ok cs =>
    if cs.any Option.isNone then
      let w : CoreWait := .ccount b ((List.range g.n).filter (fun r => (cs.getD r none).isSome))
      if (s.core n).wait.isSome then s.modCore n (fun c => { c with wait := some w }) else s.beginWait n w
    else
      let rc := cs.map (fun c => c.getD 0)
      let c := s.core n
      let sc := (List.range g.n).map (fun j => c.stLe (leField b 4 4 + 4 * j) 4)
      let out := (rc ++ runningSums rc ++ runningSums sc).flatMap (fun v => leBytes 4 v)
      let bad := c.stBad (leField b 4 4) (4 * g.n)
      (((s.modCore n (fun c => (c.stWrite (leField b 8 4) out (c.countsBad (leField b 4 4) (leField b 8 4) g.n)).seen bad)).retire n).endWait n)

/-- R380: CCOUNT: a count to every rank, then the wait. -/
def State.collCounts (s : State) (n : CoreNo) (b : List Byte) : State :=
  if !countOk b then s.coreFault n errBadOrder
  else match s.groupAt n (leField b 16 8) with
    | .error e => s.collFault n e
    | .ok g =>
      let sa := leField b 4 4
      let oa := leField b 8 4
      if sa % 4 ≠ 0 ∨ oa % 4 ≠ 0 then s.coreFault n errMisaligned
      else if storeSize < sa + 4 * g.n then s.coreFault n (errStore (sa + 4 * g.n))
      else if storeSize < oa + 12 * g.n then s.coreFault n (errStore (oa + 12 * g.n))
      else match (List.range g.n).mapM (fun r => s.rankAt n (leField b 16 8) r) with
        | .error e => s.collFault n e
        | .ok rks =>
          let t := (rks.zipIdx).foldl (fun (t : State) rk =>
            if (t.core n).mode = .faulted then t
            else
              let lead : CollLead := ⟨leField b 16 8, g.epoch, g.rank, 0, 1, 0, (t.core n).stLe (sa + 4 * rk.2) 4, BitVec.ofNat 64 (leField b 24 8)⟩
              t.sendColl n rk.1 lead 0 64 .zeros) s
          if (t.core n).mode = .faulted then t else t.countPoll n b g

/-- R379, R380: the deadline of the wait, 0 for none. -/
def CoreWait.deadline : CoreWait → Nat
  | .take b _ => leField b 48 8
  | .ccount b _ => leField b 32 8
  | _ => 0

/-- R379, R380: the first rank not ready. -/
def State.firstMissing (s : State) (n : CoreNo) (w : CoreWait) : Nat :=
  match w with
  | .take b seen => match s.groupAt n (leField b 32 8) with
    | .ok g => (leField b 4 2 + seen.length) % g.n
    | .error _ => 0
  | .ccount b seen => match s.groupAt n (leField b 16 8) with
    | .ok g => ((List.range g.n).find? (fun r => decide (r ∉ seen))).getD 0
    | .error _ => 0
  | _ => 0

end Sys2Proof.Machine
end

