-- ==== Sys2Proof/Machine/Collective.lean ====
section
/-! DEFINITION. The collective-step class of a compute core (R377 to R380, R386). -/

namespace Sys2Proof.Machine

/-- CSTEP PUT (R378). -/
def execCstepPut (n : CoreNo) (d : DescArg) (s : State) : Host.Outcome State Fault Refusal :=
  .next (s.issue n .transfer (fun s => s.withDesc n d 64 (fun _ b => s.collPut n b)))

/-- CSTEP TAKE (R379). -/
def execCstepTake (n : CoreNo) (d : DescArg) (s : State) : Host.Outcome State Fault Refusal :=
  .next (s.issue n .transfer (fun s => s.withDesc n d 64 (fun _ b => s.collTake n b)))

/-- CCOUNT (R380). -/
def execCcount (n : CoreNo) (d : DescArg) (s : State) : Host.Outcome State Fault Refusal :=
  .next (s.issue n .transfer (fun s => s.withDesc n d 64 (fun _ b => s.collCounts n b)))

/-- COLL_WAIT_POLL (R379): a waiting TAKE or CCOUNT polls its entries. -/
def execCollWaitPoll (n : CoreNo) (s : State) : Host.Outcome State Fault Refusal :=
  .next (match (s.core n).mode, (s.core n).wait with
    | .running, some (.take b seen) => match s.groupAt n (leField b 32 8) with
      | .error e => s.collFault n e
      | .ok g => s.takeMore n b g (StepDesc.ofBytes b) ((StepDesc.ofBytes b).count + 1) seen.length
    | .running, some (.ccount b _) => match s.groupAt n (leField b 16 8) with
      | .error e => s.collFault n e
      | .ok g => s.countPoll n b g
    | _, _ => s)

/-- COLL_DEADLINE (R379, R380): the deadline passes with a source not ready: the core faults, its detail naming the first
rank not ready. -/
def execCollDeadline (n : CoreNo) (s : State) : Host.Outcome State Fault Refusal :=
  .next (match (s.core n).mode, (s.core n).wait with
    | .running, some w =>
      if w.deadline = 0 ∨ s.now ≤ w.deadline then s
      else s.coreFault n { coreErr 0x040E with detail := some (u64s [(s.core n).regs.pc.toNat, s.firstMissing n w]) }
    | _, _ => s)

end Sys2Proof.Machine
end

