-- ==== Sys2Proof/Machine/PowerOps.lean ====
section
/-! DEFINITION. Operations of the pacing governor and of a core's start (R71, R80, R435, R436). Draws are in units of 0.1
W. -/

namespace Sys2Proof.Machine

/-- R436: the charge of one core start at the current root step. -/
def startCharge (step : BitVec 2) : Nat :=
  match step.toNat with
  | 0 => 150
  | 1 => 115
  | _ => 85

/-- R435: the band, in 0.1 W. -/
def State.band (s : State) : Nat := 10 * s.dictVal 0x2101 2

/-- R436: a rise fits under G + band. -/
def State.fitsRise (s : State) (add : Nat) : Bool :=
  decide (s.power.demand + add ≤ 10 * s.power.level.toNat + s.band)

/-- R436: an admitted rise counts as demand. -/
def State.addDemand (s : State) (add : Nat) : State := { s with power := { s.power with demand := s.power.demand + add } }

/-- R71, R80, R490: a core enters RUNNING at CORE_START_PC: s1, s2, s3 from the arguments, every other scalar 0, no
poison; the issuing hart's mode is its privilege. -/
def Core.start (c : Core) (priv : BitVec 2) : Core :=
  let c1 := { c with
    mode := .running, phase := .none, nextPhase := .none, wait := none, sregs := [], spoison := [], priv := priv,
    regs := { c.regs with pc := c.regs.startPc.setWidth 64 },
    flags := { c.flags with haltReq := false, ending := false, tokenWait := false, rotStall := false } }
  ((c1.sset 1 c.regs.arg0 false).sset 2 c.regs.arg1 false).sset 3 c.regs.arg2 false

/-- R71: start is accepted in IDLE, HALTED, and FAULTED once valid is clear; not while a program load is busy (R103). -/
def Core.startOk (c : Core) : Bool :=
  c.load.isNone && !c.softReset &&
    (decide (c.mode = .idle) || decide (c.mode = .halted) || (decide (c.mode = .faulted) && !c.fault.valid))

/-- Sets CORE_STATUS.cmd_drop (R71). -/
def Core.dropCmd (c : Core) : Core := { c with flags := { c.flags with cmdDrop := true } }

/-- Sets CORE_STATUS.wr_drop (R73). -/
def Core.dropWr (c : Core) : Core := { c with flags := { c.flags with wrDrop := true } }

/-- The cores whose start is held. -/
def State.heldStarts (s : State) : List (CoreNo × BitVec 2) :=
  s.power.held.filterMap (fun h => match h with
    | .start n p => some (n, p)
    | _ => none)

/-- R436: the start of a core fits when that of its group, taken whole, does: the members that do not run yet are charged with it
(DEDUCED, log 183). -/
def State.groupFits (s : State) (n : CoreNo) : Bool :=
  s.fitsRise (startCharge s.clock.rootStep * ((groupRun n (s.groupSize n)).filter (fun m => decide ((s.core m).mode ≠ .running))).length)

/-- R71, R436: a start of one core: dropped in any other state; held while its group does not fit under the governor or starts
are held already; otherwise the core runs. A start of a core whose earlier start is still held, or whose soft reset has not
ended, is dropped (log 153, DESIGN CHOICE). -/
def State.startCore (s : State) (n : CoreNo) (priv : BitVec 2) : State :=
  let c := s.core n
  let add := startCharge s.clock.rootStep
  if !c.startOk ∨ s.heldStarts.any (fun h => decide (h.1 = n)) then s.modCore n Core.dropCmd
  else if s.heldStarts = [] ∧ s.groupFits n then (s.addDemand add).modCore n (fun c => c.start priv)
  else { s with power := { s.power with held := s.power.held ++ [.start n priv] } }

/-- R71: a halt request; accepted in RUNNING. -/
def State.haltCore (s : State) (n : CoreNo) : State :=
  s.modCore n (fun c => if c.mode = .running then { c with flags := { c.flags with haltReq := true } } else c.dropCmd)

/-- R71: resume; accepted in HALTED. -/
def State.resumeCore (s : State) (n : CoreNo) : State :=
  s.modCore n (fun c => if c.mode = .halted then { c with mode := .running } else c.dropCmd)

/-- R71, R72 step 1: a soft reset stops the sequencer at once; accepted in IDLE, RUNNING, HALTED, FAULTED. -/
def State.softResetCore (s : State) (n : CoreNo) : State :=
  let c := s.core n
  if c.mode = .off ∨ c.mode = .cut then s.modCore n Core.dropCmd
  else (s.dropToken n).modCore n (fun c => { c with
    softReset := true, wait := none, rotFills := [], rotHeld := [],
    flags := { c.flags with tokenWait := false, rotStall := false, haltReq := false, ending := false } })

/-- R72 steps 3 to 7: queues discarded, stores zeroed with every poison bit, the rotary cache invalidated, the fault
registers cleared, IDLE; CORE_FOLIO is unbound (R240) and the SIGNAL count starts again. The barrier parities stay as they
are (log 156, DESIGN CHOICE). -/
def Core.resetStores (c : Core) : Core :=
  let f := c.regs.folio.toNat
  { c with
    mode := .idle, phase := .none, nextPhase := .none, inbound := [], streamq := [], mem := CoreStores.reset, rot := [],
    rotHeld := [], latent := [], fault := CoreFault.reset, softReset := false,
    regs := { c.regs with folio := BitVec.ofNat 64 (f - flagAt (bitOf f 14) 14 - flagAt (bitOf f 42) 42) },
    ev := { c.ev with count := 0 }, flags := { c.flags with invalBusy := false } }

/-- R72: a soft reset done at once, its outstanding requests ended (R503, R504). -/
def State.forceReset (s : State) (n : CoreNo) : State :=
  let c := s.core n
  if c.mode = .off ∨ c.mode = .cut then s
  else
    let s1 := (s.softResetCore n).modCore n (fun c => { c.resetStores with outStores := [], load := none })
    ({ s1 with mesh := { s1.mesh with sends := s1.mesh.sends.filter (fun m => decide (m.src ≠ n) && decide (m.dst ≠ n)) } } : State).atBoundary n

end Sys2Proof.Machine
end

