-- ==== Sys2Proof/Machine/CoreEvents.lean ====
section
/-! DEFINITION. Events of a compute core and the writes of its control registers that have rows of their own (R59 to R67,
R71 to R76, R103, R118, R240, R462). -/

namespace Sys2Proof.Machine

/-- R62, R67: what an arrival lets a waiting core do: a WAITIN whose units are there retires; a RECV takes what has come
and retires with its last unit. -/
def State.wakeInbound (s : State) (n : CoreNo) : State :=
  let c := s.core n
  match c.wait with
  | some (.waitin src tag k) => if k ≤ c.inUnits src tag then (s.retire n).endWait n else s
  | some (.recv src tag st left) =>
    let r := c.takeUnits src tag st left
    if r.2.2 = 0 then ((s.setCore n r.1).retire n).endWait n
    else s.setCore n { r.1 with wait := some (.recv src tag r.2.1 r.2.2) }
  | _ => s

/-- R62, R97: the first send of a stream bound for core `n` delivers what fits into its inbound queue (512 units); a core
that is OFF, CUT or in soft reset drops it. -/
def State.deliver (s : State) (n src : CoreNo) (tag : Nat) : State :=
  match takeNth (fun m : MeshSend => decide (m.dst = n) && decide (m.src = src) && decide (m.tag = tag)) 0 s.mesh.sends with
  | none => s
  | some (m, rest) =>
    let c := s.core n
    let room := if c.accepts then 512 - c.inbound.length else m.data.length
    let left := m.data.drop room
    let s1 := { s with mesh := { s.mesh with sends := if left = [] then rest else { m with data := left } :: rest } }
    let us := (m.data.take room).map (fun u => (⟨m.src, m.tag, u.1, u.2⟩ : InUnit))
    if c.accepts then (s1.modCore n (fun c => { c with inbound := c.inbound ++ us })).wakeInbound n
    else s1

/-- INBOUND_DATA_ARRIVAL (R62): data of the i-th send on its way to core `n` arrives, in its stream's order. -/
def execInboundDataArrival (n : CoreNo) (i : Nat) (s : State) : Host.Outcome State Fault Refusal :=
  .next (match takeNth (fun m : MeshSend => decide (m.dst = n)) i s.mesh.sends with
    | none => s
    | some (m, _) => s.deliver n m.src m.tag)

/-- TRANSFER_ACK (R61): the oldest store of core `n` that waits on no intent is acknowledged. -/
def execTransferAck (n : CoreNo) (s : State) : Host.Outcome State Fault Refusal :=
  .next (match takeNth (fun o : OutStore => !o.held) 0 (s.core n).outStores with
    | none => s
    | some (_, r) => s.modCore n (fun c => { c with outStores := r }))

/-- ROTARY_FILL_ARRIVAL (R59): the i-th missed line of core `n` arrives with its mark; with the last one the operand path
resumes. A line that fails translation, or is read under a closed snapshot (R254), faults the core (R100). -/
def execRotaryFillArrival (n : CoreNo) (i : Nat) (s : State) : Host.Outcome State Fault Refusal :=
  .next (match takeNth (fun _ : Nat => true) i (s.core n).rotFills with
    | none => s
    | some (l, r) => match s.readErr n, s.readRotLine n l with
      | some e, _ => s.coreFault n e
      | none, .error e => (s.pfRecord (s.core n).part e).coreFault n (errPage e)
      | none, .ok (s1, x) => s1.modCore n (fun c =>
        let c1 := c.rotUse x
        { c1 with rotFills := r, rotHeld := c.rotHeld ++ [x],
                  flags := { c1.flags with rotStall := decide (r ≠ []), poisonSeen := c1.flags.poisonSeen || x.poison } }))

/-- PHASE_END (R65): a phase that was asked to end does so once every load, store and send is complete: the token passes
on (R66), a pending invalidate takes effect (R60), and the phase turn begins. -/
def execPhaseEnd (n : CoreNo) (s : State) : Host.Outcome State Fault Refusal :=
  let c := s.core n
  .next (if c.mode = .running ∧ c.flags.ending = true ∧ c.wait = none ∧ !c.flags.rotStall ∧ s.xferDone n then
      ((s.dropToken n).modCore n (fun c => { c.applyInval with
        phase := .turn, flags := { c.applyInval.flags with ending := false } })).atBoundary n
    else s)

/-- PHASE_TURN_END (R65, R66): the next phase begins; a transfer phase under g > 1 waits for the token. -/
def execPhaseTurnEnd (n : CoreNo) (s : State) : Host.Outcome State Fault Refusal :=
  let c := s.core n
  .next (if c.mode = .running ∧ c.phase = .turn then
      if c.nextPhase = .transfer ∧ s.groupSize n ≠ 1 ∧ !s.holdsToken n then
        s.modCore n (fun c => { c with phase := .none, nextPhase := .none, flags := { c.flags with tokenWait := true } })
      else (if c.nextPhase = .compute then s.dropBallast n else s).modCore n (fun c => { c with phase := c.nextPhase, nextPhase := .none })
    else s)

/-- R66: the members of a group that request the token, from the first after the last holder, wrapping round. -/
def State.tokenQueue (s : State) (n : CoreNo) : List CoreNo :=
  let run := groupRun n (s.groupSize n)
  let order := match Tab.get none s.mesh.lastHolder (s.groupKey n) with
    | some l => run.filter (fun m => decide (l < m)) ++ run.filter (fun m => decide (m ≤ l))
    | none => run
  order.filter (fun m => decide ((s.core m).mode = .running) && (s.core m).flags.tokenWait)

/-- GROUP_TOKEN_GRANT (R66): the free token of core `n`'s group goes to the next requester, which enters its transfer
phase. -/
def execGroupTokenGrant (n : CoreNo) (s : State) : Host.Outcome State Fault Refusal :=
  .next (match s.tokenFree n, s.tokenQueue n with
    | true, m :: _ =>
      let s1 := { s with mesh := { s.mesh with holder := Tab.set none s.mesh.holder (s.groupKey n) (some m) } }
      s1.modCore m (fun c => { c with phase := .transfer, flags := { c.flags with tokenWait := false } })
    | _, _ => s)

/-- CORE_HANG (R76, CORE_WDOG): the watchdog of a RUNNING core expires. -/
def execCoreHang (n : CoreNo) (s : State) : Host.Outcome State Fault Refusal :=
  let c := s.core n
  .next (if c.mode = .running ∧ c.regs.wdogEn = true ∧ c.regs.wdogTimeout ≠ 0 then s.coreFault n (coreErr 0x0109) else s)

/-- CORE_START (R71, R80, R436). -/
def execCoreStart (n : CoreNo) (priv : BitVec 2) (s : State) : Host.Outcome State Fault Refusal := .next (s.startCore n priv)

/-- CORE_HALT (R71). -/
def execCoreHalt (n : CoreNo) (s : State) : Host.Outcome State Fault Refusal := .next (s.haltCore n)

/-- HALT_COMPLETE (R71): the current instruction and phase of a core asked to halt have ended. -/
def execHaltComplete (n : CoreNo) (s : State) : Host.Outcome State Fault Refusal :=
  let c := s.core n
  .next (if c.mode = .running ∧ c.flags.haltReq = true ∧ c.wait = none ∧ !c.flags.rotStall ∧ s.xferDone n then
      ((s.dropToken n).modCore n (fun c => { c.applyInval with
        mode := .halted, phase := .none, nextPhase := .none,
        flags := { c.applyInval.flags with haltReq := false, ending := false, tokenWait := false } })).atBoundary n
    else s)

/-- CORE_RESUME (R71). -/
def execCoreResume (n : CoreNo) (s : State) : Host.Outcome State Fault Refusal := .next (s.resumeCore n)

/-- SOFT_RESET (R71, R72). -/
def execSoftReset (n : CoreNo) (s : State) : Host.Outcome State Fault Refusal := .next (s.softResetCore n)

/-- SOFT_RESET_COMPLETE (R72): once the transfer engine has no outstanding request. -/
def execSoftResetComplete (n : CoreNo) (s : State) : Host.Outcome State Fault Refusal :=
  let c := s.core n
  .next (if c.softReset = true ∧ s.xferDone n ∧ c.load = none then (s.modCore n Core.resetStores).atBoundary n else s)

/-- ROT_INVALIDATE (R60): at once, or at the next phase boundary of a RUNNING core. -/
def execRotInvalidate (n : CoreNo) (s : State) : Host.Outcome State Fault Refusal :=
  .next (s.modCore n (fun c =>
    let c1 := { c with flags := { c.flags with invalBusy := true } }
    if c.mode = .running then c1 else c1.applyInval))

/-- PROG_LOAD (R103): a write of CORE_PROG_CTRL. -/
def execProgLoad (n : CoreNo) (v : W32) (s : State) : Host.Outcome State Fault Refusal :=
  .next (s.modCore n (fun c =>
    let x := v.toNat
    let go := bitOf x 23
    let can := decide (c.mode = .idle) || decide (c.mode = .halted) || decide (c.mode = .faulted)
    let err := c.regs.progErr && !bitOf x 25
    if c.load.isSome || (go && !can) then { c with regs := { c.regs with progErr := err } }.dropWr
    else
      let first := bits x 0 11
      let count := bits x 11 12
      let bad := go && (decide (count = 0) || decide (2048 < first + count))
      { c with
        regs := { c.regs with progFirst := BitVec.ofNat 11 first, progCount := BitVec.ofNat 12 count, progErr := err || bad },
        load := if go && !bad then some ⟨first, count, c.regs.progSrc.toNat⟩ else none }))

/-- R103: writes the loaded words; a word from a poisoned granule is marked uncorrectable. -/
def Core.loadWords (c : Core) (first : Nat) (ws : List (W128 × Bool)) : Core :=
  { c with mem := { c.mem with prog := c.mem.prog.put first (ws.map (·.1)),
                               progBad := c.mem.progBad.put first (markBits (ws.map (·.2))) } }

/-- R103: a failed load sets err and leaves its words undefined (free values, log 1); the core's state is unchanged. -/
def State.failLoad (s : State) (n : CoreNo) (l : ProgLoad) : State :=
  let d := s.draws
  let ws := (List.range l.count).map (fun i => (BitVec.ofNat 128 (Config.freeNat (d + i)), false))
  ({ s with draws := d + l.count } : State).modCore n (fun c => { c.loadWords l.first ws with regs := { c.regs with progErr := true } })

/-- PROG_LOAD_COMPLETE (R103, R241, R254, R255): the words land, as the core's own reads see them; a translation fault, or a closed
snapshot, fails the load and is reported. -/
def execProgLoadComplete (n : CoreNo) (s : State) : Host.Outcome State Fault Refusal :=
  .next (match (s.core n).load with
    | none => s
    | some l =>
      let s0 := s.modCore n (fun c => { c with load := none })
      let q := s.coreReq n 0 0 l.src 0
      match s.readErr n, s0.translateAll q (pagePieces l.src (16 * l.count)) with
      | some e, _ => (s0.failLoad n l).report ⟨e.code, (dieOfCore n).val, q.part.val, unitCore n, .operation, []⟩
      | none, .error e => (s0.failLoad n l).reportPF q.part (dieOfCore n).val (unitCore n) .operation e
      | none, .ok ts =>
        let s1 := (s0.readPath n q (pagePieces l.src (16 * l.count)) ts).touchTrans 0 (some q.part) ts
        let gs := s1.transGrans q.view ts
        let bs := (gs.flatMap (fun g => granBytes g.data)).drop (l.src % 64)
        let ws := (List.range l.count).map (fun i =>
          (BitVec.ofNat 128 (leField bs (16 * i) 16), match gs[(l.src % 64 + 16 * i) / 64]? with
            | some g => g.poison
            | none => false))
        s1.modCore n (fun c => c.loadWords l.first ws))

/-- R102, R103: the rubric core lies in the core's partition. -/
def State.rubricInPart (s : State) (n : CoreNo) (k : Nat) : Bool :=
  decide (k < 24) && match s.partOfCore n with
    | some p => decide (s.partOfDie (cdieOf (k / 3)) = some p)
    | none => false

/-- CORE_EVENT_CTRL_WRITE (R103, R10): clears pending and ended, sets irq_en; a target outside the partition keeps the
old one and sets wr_drop. -/
def execCoreEventCtrlWrite (n : CoreNo) (v : W32) (s : State) : Host.Outcome State Fault Refusal :=
  let x := v.toNat
  let ok := s.rubricInPart n (bits x 19 5)
  .next (s.modCore n (fun c =>
    let c1 := { c with ev := { c.ev with
      pending := c.ev.pending && !bitOf x 16, ended := c.ev.ended && !bitOf x 17, irqEn := bitOf x 18,
      target := if ok then BitVec.ofNat 5 (bits x 19 5) else c.ev.target } }
    if ok then c1 else c1.dropWr))

/-- CORE_RNG_SEED_WRITE (R73, R118). -/
def execCoreRngSeedWrite (n : CoreNo) (v : W64) (s : State) : Host.Outcome State Fault Refusal :=
  .next (s.modCore n (fun c =>
    if c.mode = .running then c.dropWr else { c with regs := { c.regs with rngSeed := v, rngState := loadSeed v } }))

/-- CORE_FOLIO_WRITE (R240): dropped while RUNNING. Reserved bits are not stored. -/
def execCoreFolioWrite (n : CoreNo) (v : W64) (s : State) : Host.Outcome State Fault Refusal :=
  let x := v.toNat
  .next (s.modCore n (fun c =>
    if c.mode = .running then c.dropWr
    else { c with regs := { c.regs with folio := BitVec.ofNat 64 (bits x 0 15 + bits x 16 27 * 2 ^ 16) } }))

end Sys2Proof.Machine
end

