-- ==== Sys2Proof/Machine/Folio.lean ====
section
/-! DEFINITION. The meanings of the folio and snapshot commands (R238 to R258). -/

namespace Sys2Proof.Machine

/-- R257: a folio command block that is well formed. -/
def folioFormOk (b : List Byte) : Bool :=
  let op := leField b 2 1
  decide (leField b 0 2 = 0x0130) && decide (1 ≤ op) && decide (op ≤ 8) && decide (leField b 3 1 < 8) && zeroFrom b 52 12 &&
  decide (leField b 44 8 % 64 = 0) &&
  (decide (op ≠ 1) || !bitOf (leField b 3 1) 0 ||
    (decide (leField b 12 8 ≠ 0) && decide (1 ≤ leField b 28 2) && decide (leField b 28 2 ≤ 4096) &&
     decide (leField b 30 2 < leField b 28 2)))

/-- R9, R257: a rejected folio command sets cmd_err. -/
def PartRegs.folioRejected (r : PartRegs) : PartRegs := { r with folioErr := true }

/-- R257: takes up a folio command. -/
def State.takeFolio (s : State) (src : CmdSrc) (op : Nat) : State × Option Job :=
  s.takeJob src 2 op 64 folioFormOk PartRegs.folioRejected

/-- A record that only says its code. -/
def FolioRecord.plain (code handle : Nat) : FolioRecord := ⟨code, 0, 0, handle, 0, 0, 0, 0, 0, 0, 0⟩

/-- Ends a folio command with a result record. -/
def State.endFolio (s : State) (j : Job) (r : FolioRecord) : State :=
  s.endRecord j (j.fld 44 8) { Done.of r.code with payload := r.bytes }

/-- The handle of a command. -/
def Job.handle (j : Job) : W64 := BitVec.ofNat 64 (j.fld 4 8)

/-- R257, R258: ends a command whose handle is not of the kind it needs; the record of a folio in use says its state. -/
def State.endClosed (s : State) (j : Job) : State :=
  let id := handleSlot j.handle
  s.endFolio j (if s.named j.part j.handle then (s.slot id).record id 0x0306 0 none s.now else .plain 0x0306 (j.fld 4 8))

/-- The lowest slot that is FREE. -/
def State.freeSlot (s : State) : Option Nat :=
  ((List.range (s.liveSlots.length + 1)).find? (fun i => decide ((s.slot i).mode = .free))).bind
    (fun i => if i < 16384 then some i else none)

/-- R257: the member list of a spanning OPEN. -/
def membersOf (bs : List Byte) (n : Nat) : List Member :=
  (List.range n).map (fun i => ⟨BitVec.ofNat 32 (leField bs (8 * i) 4), BitVec.ofNat 8 (leField bs (8 * i + 4) 1)⟩)

/-- R9, R257: no entry of a member list has a nonzero reserved byte. -/
def membersOk (bs : List Byte) (n : Nat) : Bool := (List.range n).all (fun i => zeroFrom bs (8 * i + 5) 3)

/-- R238, R257: takes a FREE slot for an OPEN whose member list, if it has one, is read. -/
def State.openFolio (s : State) (j : Job) (members : List Member) : State :=
  match s.freeSlot with
  | none => s.endFolio j (.plain 0x0308 0)
  | some id =>
    if s.dictVal (0x4300 + j.part.val) 1 ≤ s.openCount j.part then s.endFolio j (.plain 0x0308 0)
    else
      let fl := j.fld 3 1
      let span : Option Span := if bitOf fl 0 then
          some { globalId := BitVec.ofNat 64 (j.fld 20 8), members := members, myIndex := j.fld 30 2, votes := [], decision := none,
                 decisionCode := 0, noIndex := 0, decidedAt := 0, acks := [], prepareSeen := false, voted := false,
                 late := false, queried := false }
        else none
      let f : Folio := { Folio.reset with
        gen := (s.slot id).gen + 1, mode := .opened, part := j.part, tolerant := bitOf fl 1,
        deadline := BitVec.ofNat 64 (j.fld 12 8), resultAddr := BitVec.ofNat 64 (j.fld 44 8), span := span }
      (s.setSlot id f).endFolio j (f.record id 0 0 none s.now)

/-- FOLIO_OPEN (R257): opens a local folio, or a spanning part whose member list it reads. -/
def execFolioOpen (src : CmdSrc) (s : State) : Host.Outcome State Fault Refusal :=
  match s.takeFolio src 1 with
  | (s1, none) => .next s1
  | (s1, some j) =>
    if bitOf (j.fld 3 1) 0 then
      match s1.dvRead j.part (masterMig (s1.home j.part)) (j.fld 32 8) (8 * j.fld 28 2) with
      | .error e => .next ((s1.pfRecord j.part e).endFolio j (.plain 0x0201 0))
      | .ok (bs, bad) =>
        .next (if bad then s1.endFolio j (.plain 0x0205 0)
          else if !membersOk bs (j.fld 28 2) then s1.rejectJob j PartRegs.folioRejected
          else s1.openFolio j (membersOf bs (j.fld 28 2)))
    else .next (s1.openFolio j [])

/-- FOLIO_EXTEND (R257): moves an OPEN folio's deadline later, never earlier. -/
def execFolioExtend (src : CmdSrc) (s : State) : Host.Outcome State Fault Refusal :=
  match s.takeFolio src 2 with
  | (s1, none) => .next s1
  | (s1, some j) =>
    let id := handleSlot j.handle
    let f := s1.slot id
    if !s1.named j.part j.handle ∨ f.mode ≠ .opened then .next (s1.endClosed j)
    else if j.fld 12 8 < f.deadline.toNat then
      .next (s1.rejectJob j PartRegs.folioRejected)
    else
      let g := { f with deadline := BitVec.ofNat 64 (j.fld 12 8) }
      .next ((s1.setSlot id g).endFolio j (g.record id 0 0 none s.now))

/-- A command waits for the end of the folio in a slot. -/
def State.awaitEnd (s : State) (id : Nat) (j : Job) : State :=
  let f := s.slot id
  s.setSlot id { f with waiters := f.waiters ++ [(j.orderId, BitVec.ofNat 64 (j.fld 44 8))] }

/-- R246, R249: seals the open local folio of a slot, or scrapes it when it is tainted. -/
def State.sealLocal (s : State) (id : Nat) : State :=
  let x := (FX.ofSlot s id).judge
  if x.f.poisoned ≠ 0 ∧ !x.f.tolerant then x.back.scrapeSlot id 0x0303 none else x.sealPoint.back

/-- R250, R251: a part becomes COMPLETE; the coordinator sends PREPARE to every other member and judges its own part. -/
def State.completePart (s : State) (id : Nat) : State :=
  let f := s.slot id
  match f.span with
  | none => s
  | some sp =>
    let late := decide (f.deadline < s.clock.time)
    let s1 := (s.setSlot id { f with mode := .complete }).modSpan id (fun x => { x with late := x.late || late })
    if sp.myIndex = 0 then
      let s2 := (List.range (sp.members.length - 1)).foldl (fun t i => t.tellMember sp (i + 1) .prepare) s1
      s2.answerPart id
    else if sp.prepareSeen then s1.answerPart id
    else s1

/-- FOLIO_SEAL (R246, R250): seals a local folio up to its seal point, completes a part, or scrapes a DOOMED folio. -/
def execFolioSeal (src : CmdSrc) (s : State) : Host.Outcome State Fault Refusal :=
  match s.takeFolio src 3 with
  | (s1, none) => .next s1
  | (s1, some j) =>
    let id := handleSlot j.handle
    let f := s1.slot id
    if !s1.named j.part j.handle ∨ (f.mode ≠ .opened ∧ f.mode ≠ .doomed) then .next (s1.endClosed j)
    else
      let s2 := s1.awaitEnd id j
      .next ((if f.mode = .doomed then s2.scrapePart id f.cause
        else match f.span with
          | none => s2.sealLocal id
          | some _ => s2.completePart id).retryFreed s)

/-- R456: journal records of the folio found poisoned at step 5 of R246 write their target granules as poisoned. -/
def State.lostRecords (s : State) (f : Folio) (lost : List Nat) : State :=
  (lost.filter (fun g => f.journal.any (fun j => decide (j.gran = g)))).foldl (fun t g => t.poisonGran g) s

/-- FOLIO_APPLY_COMPLETE (R246 step 6): a folio past its seal point has been applied: it is released, and a member
acknowledges. `a.lost` are the target granules whose journal records were found poisoned (R456). -/
def execFolioApplyComplete (a : Applied) (s : State) : Host.Outcome State Fault Refusal :=
  let f := s.slot a.id.toNat
  if f.mode ≠ .sealed then .next s
  else
    let s1 := (s.lostRecords f a.lost).endSlot a.id.toNat 0 1 none
    match f.span with
    | none => .next s1
    | some sp => .next (if sp.myIndex = 0 then s1 else s1.tellMember sp 0 .ack)

/-- FOLIO_SCRAPE (R248, R250): scrapes an open, doomed or complete folio; a DOOMED one carries its cause. Charges
that wait are tried again with the frames it returns (R278). -/
def execFolioScrape (src : CmdSrc) (s : State) : Host.Outcome State Fault Refusal :=
  match s.takeFolio src 4 with
  | (s1, none) => .next s1
  | (s1, some j) =>
    let id := handleSlot j.handle
    let f := s1.slot id
    if !s1.named j.part j.handle ∨ (f.mode ≠ .opened ∧ f.mode ≠ .doomed ∧ f.mode ≠ .complete) then .next (s1.endClosed j)
    else .next (((s1.awaitEnd id j).scrapePart id (if f.mode = .doomed then f.cause else 0x0309)).retryFreed s)

/-- FOLIO_INSPECT (R257): writes the record of a folio in use without changing it. -/
def execFolioInspect (src : CmdSrc) (s : State) : Host.Outcome State Fault Refusal :=
  match s.takeFolio src 5 with
  | (s1, none) => .next s1
  | (s1, some j) =>
    let id := handleSlot j.handle
    if !s1.named j.part j.handle then .next (s1.endClosed j)
    else
      let x := (FX.ofSlot s1 id).judge
      .next (s1.endFolio j (x.f.record id 0 0 none s.now))

/-- SNAP_OPEN (R255, R256): opens a snapshot at an epoch within reach and not below the floor. -/
def execSnapOpen (src : CmdSrc) (s : State) : Host.Outcome State Fault Refusal :=
  match s.takeFolio src 6 with
  | (s1, none) => .next s1
  | (s1, some j) =>
    let e : W32 := if j.fld 40 4 = 0xFFFFFFFF then s1.fol.epoch else BitVec.ofNat 32 (j.fld 40 4)
    if s1.dictVal (0x4300 + j.part.val) 4 ≤ (s1.snapsOf j.part).length then .next (s1.endFolio j (.plain 0x0308 0))
    else match (List.range 1024).find? (fun i => decide (Tab.get none s1.fol.snaps i = none)) with
      | none => .next (s1.endFolio j (.plain 0x0308 0))
      | some sid =>
        if !s1.inReach e ∨ serialAfter (s1.floor j.part) e then .next (s1.endFolio j (.plain 0x0304 0))
        else
          let sn : Snap := ⟨j.part, e⟩
          let s2 := { s1 with fol := { s1.fol with snaps := Tab.set none s1.fol.snaps sid (some sn) } }
          .next (s2.endFolio j { FolioRecord.plain 0 sid with outcome := 3, epoch := e.toNat, time := s.now })

/-- SNAP_CLOSE (R256, R257): closes a snapshot of the partition and drops the pre-images no other needs. -/
def execSnapClose (src : CmdSrc) (s : State) : Host.Outcome State Fault Refusal :=
  match s.takeFolio src 7 with
  | (s1, none) => .next s1
  | (s1, some j) =>
    let sid := bits (j.fld 4 8) 0 10
    match Tab.get none s1.fol.snaps sid with
    | none => .next (s1.endFolio j (.plain 0x0306 (j.fld 4 8)))
    | some sn =>
      if sn.part ≠ j.part then .next (s1.endFolio j (.plain 0x0306 (j.fld 4 8)))
      else .next ((s1.closeSnap sid false).endFolio j
        { FolioRecord.plain 0 sid with outcome := 4, epoch := sn.epoch.toNat, time := s.now })

/-- FOLIO_RESOLVE (R253, R257): resolves an IN_DOUBT part with the decision the runtime names. -/
def execFolioResolve (src : CmdSrc) (s : State) : Host.Outcome State Fault Refusal :=
  match s.takeFolio src 8 with
  | (s1, none) => .next s1
  | (s1, some j) =>
    let id := handleSlot j.handle
    if !s1.named j.part j.handle ∨ (s1.slot id).mode ≠ .inDoubt then .next (s1.endClosed j)
    else if bitOf (j.fld 3 1) 2 then .next ((s1.awaitEnd id j).sealSlot id)
    else .next (((s1.awaitEnd id j).scrapeSlot id 0x0309 none).retryFreed s)

/-- FOLIO_WRITE (R240, R244): an engine's bound write joins the folio of its handle; a write to a folio that is not open,
or that fails translation, is not performed and the engine reports the code. -/
def execFolioWrite (p : PartNo) (handle addr : W64) (data : List Byte) (poisoned : Bool) (s : State) :
    Host.Outcome State Fault Refusal :=
  let id := handleSlot handle
  let f := s.slot id
  if !s.named p handle ∨ (f.mode ≠ .opened ∧ f.mode ≠ .doomed) then .next (s.emit (.engineCode p 0x0306))
  else match s.translateAll (s.engineReq p addr.toNat 1 (masterMig (s.home p))) (pagePieces addr.toNat data.length) with
    | .error e => .next ((s.pfRecord p e).emit (.engineCode p 0x0201))
    | .ok ts => .next ((FX.ofSlot s id).write true (transPieces ts data (fun _ => poisoned))).done

/-- A frame loses a reference in a folio sealed at epoch `e` (R217). -/
def State.dropRef (s : State) (f : Nat) (e : W32) : State :=
  let s1 := s.refFrame f false
  if (s.frame f).state = 1 ∧ (s1.frame f).state = 2 then
    s1.modMem (fun m => { m with retireAt := Tab.set none m.retireAt f (some e) })
  else s1

/-- R242: the table frame of a replaced subtree enters RETIRING at the epoch. -/
def State.retireTable (s : State) (f : Nat) (e : W32) : State :=
  let x := s.frame f
  if x.state = 1 then
    (s.setFrame f { x with state := 2 }).modMem (fun m => { m with retireAt := Tab.set none m.retireAt f (some e) })
  else s

/-- SUBTREE_DECREMENT (R242): decrements one table of a replaced subtree: at level 3 each frame its entries name loses a
reference; above, each table it names follows in its turn. The table's own frame enters RETIRING. -/
def execSubtreeDecrement (s : State) : Host.Outcome State Fault Refusal :=
  match s.mem.subtrees with
  | [] => .next s
  | (table, level, e) :: rest =>
    let es := ((List.range 4096).map (fun i => s.mem.cells.getLE (table + 8 * i) 8)).filter (fun v => bitOf v 0)
    let s1 := s.modMem (fun m => { m with subtrees := rest })
    let s2 := if level = 3 then es.foldl (fun t v => t.dropRef (bits v 16 32) e) s1
      else s1.modMem (fun m => { m with subtrees := m.subtrees ++ es.map (fun v => (nextTable v, level + 1, e)) })
    .next (s2.retireTable (table / 65536) e)

/-! Spanning folios -/

/-- R253: the decision that a member of this module keeps. -/
def State.keptDecision (s : State) (globalId : W64) (index : Nat) : Option Kept :=
  s.fol.kept.find? (fun k => decide (k.globalId = globalId) && decide (k.index = index))

/-- R251: the part of a member that was scraped before its vote. -/
def State.scrapedPart (s : State) (globalId : W64) (index : Nat) : Option ScrapedPart :=
  s.fol.scrapedParts.find? (fun e => decide (e.globalId = globalId) && decide (e.index = index))

/-- PREPARE (R251): a member receives PREPARE and votes when its part can: at once when it is absent or scraped. -/
def execPrepare (m : SpanMsg) (index : Nat) (s : State) : Host.Outcome State Fault Refusal :=
  .next ((s.hear m.via (fun s => match s.partSlot m.globalId index with
    | some (id, _) => (s.modSpan id (fun x => { x with prepareSeen := true })).answerPart id
    | none =>
      let code : W16 := match s.scrapedPart m.globalId index with
        | some e => e.code
        | none => 0x0306
      s.emit (.folio m.globalId 0 index none (.vote false code s.clock.time)))).retryFreed s)

/-- VOTE (R252): the coordinator receives a vote, and decides once all are in. -/
def execVote (m : SpanMsg) (member : Nat) (yes : Bool) (code : W16) (time : W64) (s : State) :
    Host.Outcome State Fault Refusal :=
  .next ((s.hear m.via (fun s => match s.partSlot m.globalId 0 with
    | none => s
    | some (id, f) => match f.span with
      | none => s
      | some sp =>
        if sp.decision.isSome ∨ sp.members.length ≤ member ∨ sp.votes.any (fun v => decide (v.member = member)) then s
        else
          let v : Vote := ⟨member, yes, code, time⟩
          (s.modSpan id (fun x => { x with votes := x.votes ++ [v] })).tally id)).retryFreed s)

/-- DECISION (R252, R253): a member receives SEAL or SCRAPE and acts on its part; one that holds no part acknowledges, and keeps
the decision when its part was scraped before. An IN_DOUBT part is resolved only by RESOLVE. -/
def execDecision (m : SpanMsg) (index : Nat) (sealed : Bool) (code : W16) (noIndex : Nat) (s : State) :
    Host.Outcome State Fault Refusal :=
  .next ((s.hear m.via (fun s => match s.partSlot m.globalId index with
    | none =>
      let t := match s.scrapedPart m.globalId index with
        | some e => if (s.keptDecision m.globalId index).isSome then s
          else s.keepDecision ⟨m.globalId, index, sealed, code, noIndex, e.deadline⟩
        | none => s
      t.emit (.folio m.globalId 0 index none .ack)
    | some (id, f) => match f.span with
      | none => s
      | some sp =>
        if sp.decision.isSome ∨ f.mode = .inDoubt ∨ f.mode = .sealed ∨ sp.myIndex = 0 then s
        else s.followDecision id sealed code noIndex)).retryFreed s)

/-- DECISION_ACK (R252): the coordinator receives an acknowledgement, and acts on its own part once all are in. -/
def execDecisionAck (m : SpanMsg) (member : Nat) (s : State) : Host.Outcome State Fault Refusal :=
  .next ((s.hear m.via (fun s => match s.partSlot m.globalId 0 with
    | none => s
    | some (id, f) => match f.span with
      | none => s
      | some sp =>
        if sp.decision.isNone then s
        else
          let sp1 := { sp with acks := if member ∈ sp.acks then sp.acks else sp.acks ++ [member] }
          let s1 := s.modSpan id (fun _ => sp1)
          if sp1.allAcked then s1.coordAct id else s1)).retryFreed s)

/-- SPAN_DEADLINE (R251, R252): a spanning folio's deadline passes: the coordinator that has not decided decides SCRAPE; a
member not COMPLETE votes NO. -/
def execSpanDeadline (id : BitVec 14) (s : State) : Host.Outcome State Fault Refusal :=
  let f := s.slot id.toNat
  match f.span with
  | none => .next s
  | some sp =>
    if s.clock.time ≤ f.deadline ∨ sp.decision.isSome then .next s
    else if sp.myIndex = 0 then
      let s1 := s.decideSpan id.toNat false 0x0305 0
      .next ((if sp.members.length ≤ 1 then s1.coordAct id.toNat else s1).retryFreed s)
    else if f.mode = .opened then
      let s1 := s.modSpan id.toNat (fun x => { x with late := true })
      .next (if sp.prepareSeen then s1.answerPart id.toNat else s1)
    else .next s

/-- COORD_ACK_TIMEOUT (R252): 10 ms after its decision the coordinator acts on its own part. -/
def execCoordAckTimeout (id : BitVec 14) (s : State) : Host.Outcome State Fault Refusal :=
  match (s.slot id.toNat).span with
  | none => .next s
  | some sp =>
    if sp.myIndex = 0 ∧ sp.decision.isSome ∧ sp.decidedAt.toNat + 10 * msTicks ≤ s.now then .next ((s.coordAct id.toNat).retryFreed s)
    else .next s

/-- IN_DOUBT_QUERY (R253): 100 µs after the deadline a PREPARED part with no decision asks the coordinator first and then
every other member, in ascending index. -/
def execInDoubtQuery (id : BitVec 14) (s : State) : Host.Outcome State Fault Refusal :=
  let f := s.slot id.toNat
  match f.span with
  | none => .next s
  | some sp =>
    if f.mode = .prepared ∧ sp.decision.isNone ∧ sp.myIndex ≠ 0 ∧ !sp.queried ∧ f.deadline.toNat + 100 * usTicks ≤ s.now then
      let s1 := s.modSpan id.toNat (fun x => { x with queried := true })
      .next (((List.range sp.members.length).filter (fun i => decide (i ≠ sp.myIndex))).foldl
        (fun t i => t.tellMember sp i .query) s1)
    else .next s

/-- DECISION_QUERY (R253): the asked member answers with a decision it keeps; a coordinator past its deadline that has not
decided answers SCRAPE. -/
def execDecisionQuery (m : SpanMsg) (index : Nat) (asker : Nat) (s : State) :
    Host.Outcome State Fault Refusal :=
  .next (s.hear m.via (fun s => match s.keptDecision m.globalId index with
    | some k => s.emit (.folio m.globalId asker index none (.decision k.sealed k.code k.noIndex))
    | none => match s.partSlot m.globalId index with
      | none => s
      | some (id, f) =>
        if index = 0 ∧ f.deadline < s.clock.time then
          (s.decideSpan id false 0x0305 0).emit (.folio m.globalId asker index none (.decision false 0x0305 0))
        else s))

/-- FOLIO_IN_DOUBT (R253): 10 ms after the deadline with no answer, a PREPARED part enters IN_DOUBT, recorded; it keeps its
intents. -/
def execFolioInDoubt (id : BitVec 14) (s : State) : Host.Outcome State Fault Refusal :=
  let f := s.slot id.toNat
  match f.span with
  | none => .next s
  | some sp =>
    if f.mode = .prepared ∧ sp.decision.isNone ∧ sp.myIndex ≠ 0 ∧ f.deadline.toNat + 10 * msTicks ≤ s.now then
      .next ((s.setSlot id.toNat { f with mode := .inDoubt }).report
        ⟨0x0307, dieM (s.home f.part), f.part.val, unitMigration (4 * (s.home f.part).val), .operation,
         u64s [(handleOf id.toNat f.gen f.part).toNat, sp.globalId.toNat]⟩)
    else .next s

/-- DECISION_ANSWER_EXPIRY (R253): 10 ms after a spanning folio's deadline a member stops keeping its decision. -/
def execDecisionAnswerExpiry (globalId : W64) (index : Nat) (s : State) : Host.Outcome State Fault Refusal :=
  let expired (g : W64) (i : Nat) (d : W64) : Bool :=
    decide (g = globalId) && decide (i = index) && decide (d.toNat + 10 * msTicks ≤ s.now)
  .next { s with fol := { s.fol with
    kept := s.fol.kept.filter (fun k => !expired k.globalId k.index k.deadline),
    scrapedParts := s.fol.scrapedParts.filter (fun k => !expired k.globalId k.index k.deadline) } }

end Sys2Proof.Machine
end

