-- ==== Sys2Proof/Machine/PortOps.lean ====
section
/-! DEFINITION. Haros ports at work: messages at their receiver (R335 to R338, R351), a port that leaves UP (R340, R204), the
time root (R343), groups and flits (R322 to R334). -/

namespace Sys2Proof.Machine

/-! Receiving messages -/

/-- A message under way at its receiver. -/
def State.rxMsg (s : State) (src id : W32) : Option RxMsg := s.link.rx.find? (fun m => decide (m.src = src) && decide (m.id = id))

/-- Replaces a message under way at its receiver. -/
def State.setRx (s : State) (x : RxMsg) : State :=
  s.modLink (fun l => { l with rx := l.rx.map (fun m => if m.src = x.src ∧ m.id = x.id then x else m) })

/-- Takes a message out. -/
def State.dropRx (s : State) (src id : W32) : State :=
  s.modLink (fun l => { l with rx := l.rx.filter (fun m => decide (m.src ≠ src) || decide (m.id ≠ id)) })

/-- R330, R358: a port admits a message of a type: data only in UP and not held, WMP and SPDM also in QUARANTINE, SPDM in
KEYING, WMP, SPDM and transport control on a held port. -/
def Port.admits (x : Port) (mtype : Nat) : Bool :=
  match x.mode with
  | .up => !x.held || decide (5 ≤ mtype ∧ mtype ≤ 7)
  | .quarantine => decide (mtype = 5 ∨ mtype = 6)
  | .keying => decide (mtype = 6)
  | _ => false

/-- R335: a message header record whose checks hold. -/
def headerOk (b : List Byte) : Bool :=
  decide (leField b 0 2 = 0x0101) && decide (1 ≤ leField b 2 1) && decide (leField b 2 1 ≤ 8) && decide (leField b 20 2 ≤ 256) &&
  decide (leField b 60 4 = crcOf (b.take 60)) &&
  decide (leField b 56 4 = if leField b 20 2 = 0 then 0 else crcOf ((b.drop 64).take (leField b 20 2))) &&
  decide (1 ≤ leField b 18 2) && decide (leField b 18 2 ≤ 256) && decide (leField b 18 2 = ceilDiv (leField b 24 4) 65536)

/-- R351: the message is for this module and for a partition formed here. -/
def State.forUs (s : State) (b : List Byte) : Bool :=
  s.addressed (BitVec.ofNat 32 (leField b 12 4)) (leField b 17 1)

/-- R335, R195, R375: a message header with its lead block arrives on a port. A header that fails its checks is discarded; a
relay passes it on each time it comes (R201). -/
def State.acceptHeader (s : State) (p : PortNo) (b : List Byte) : State :=
  let mt := leField b 2 1
  let src : W32 := BitVec.ofNat 32 (leField b 8 4)
  let id : W32 := BitVec.ofNat 32 (leField b 4 4)
  let lead := (b.drop 64).take (leField b 20 2)
  let total := leField b 18 2
  let add (r : State × RxTarget) : State :=
    let m : RxMsg := ⟨src, id, mt, bitOf (leField b 3 1) 1, leField b 16 1, leField b 17 1, total, leField b 24 4, [], [], r.2⟩
    r.1.modLink (fun l => { l with rx := l.rx.filter (fun y => decide (y.src ≠ src) || decide (y.id ≠ id)) ++ [m] })
  let known := (s.rxMsg src id).any (fun m => match m.target with
    | .relay _ _ => false
    | _ => true)
  if !headerOk b || !(s.port p).admits mt || known then s
  else if mt = 1 then
    let n : Fin 16 := ⟨leField lead 12 1 % 16, Nat.mod_lt _ (by decide)⟩
    match s.relaySide n p lead with
    | some ps => (add (s, .relay n ps)).relayChunk ps 0 b
    | none =>
      if !s.forUs b then s.countPort p 0x11 1 1 else add (s.quireTarget p lead (leField b 40 2))
  else if !s.forUs b then s.countPort p 0x11 1 (if mt = 2 then 2 else 0)
  else if (mt = 2 ∨ mt = 3) ∧ lead.length = 64 then
    add (s.collTarget (portCounterDie p - 4) (partOf (leField b 17 1)) lead (leField b 24 4))
  else add (s, .other)

/-- R336: the parts of a chunk record. -/
def chunkOf (b : List Byte) : RxChunk :=
  let pl := leField b 16 1
  let n := leField b 12 4
  let body := (b.drop 160).take n
  let g := ceilDiv (n - pl) 64
  ⟨leField b 2 2, body.take pl, bitOf (leField b 17 1) 0, body.drop pl, (List.range g).map (fun i => bitOf (leField b 32 128) i),
   BitVec.ofNat 32 (leField b 20 4), BitVec.ofNat 32 (leField b 24 4)⟩

/-- R481: a chunk record as its message's consumer reads it: its payload opened, when the wire encryption covers it. -/
def State.openChunk (s : State) (m : RxMsg) (b : List Byte) : List Byte :=
  let pl := leField b 16 1
  b.take (160 + pl) ++ s.wireCrypt m.mtype m.src m.srcPart s.address m.dstPart m.src m.id (leField b 2 2) ((b.drop (160 + pl)).take (leField b 12 4 - pl))

/-- R337: a chunk record whose checks hold. -/
def chunkOk (b : List Byte) : Bool :=
  decide (leField b 0 2 = 0x0002) && decide (leField b 28 4 = crcOf (b.take 28 ++ (b.drop 32).take 128)) &&
  decide (leField b 20 4 = crcOf ((b.drop 160).take (leField b 12 4)))

/-- R338: the check and origin of a landed chunk of gathered data are kept with its place; any other chunk that lands there ends
them. -/
def State.keepGathered (s : State) (m : RxMsg) (p : PartNo) (addr : Nat) (c : RxChunk) : State :=
  s.modLink (fun l => { l with gathered := l.gathered.filter (fun q => decide (q.part ≠ p) || decide (q.addr ≠ addr)) ++
    (if m.gathered then [⟨p, addr, c.data.length, c.check, c.origin⟩] else []) })

/-- R337: a chunk is delivered to the consumer of its message; the answer says whether it landed. -/
def State.deliverChunk (s : State) (m : RxMsg) (c : RxChunk) : State × Bool :=
  match m.target with
  | .ring n k seq dest => s.landQuire n k seq dest c
  | .land p x data ready cseq =>
    let r := s.landChunk p x data ready cseq c.index c.data c.bad
    if r.2 then (r.1.keepGathered m p (data + 65536 * c.index) c, true) else r
  | _ => (s, true)

/-- A message has been delivered in full: its consumer acts, and it is done. -/
def State.finishRx (s : State) (m : RxMsg) : State :=
  let s1 := s.dropRx m.src m.id
  match m.target with
  | .ring n k _ _ => s1.quireLanded n k
  | .land p x _ ready cseq => s1.collReady p x ready cseq
  | .count p x entry cseq n => s1.collCount p x entry cseq n
  | _ => s1

/-- R337: a verified chunk: delivered once, reported good; the last one ends its message. -/
def State.goodChunk (s : State) (p : PortNo) (m : RxMsg) (c : RxChunk) : State :=
  let s1 := s.emit (.chunkReport p m.src m.id c.index true)
  if c.index ∈ m.got then s1
  else
    let r := s1.deliverChunk m c
    if !r.2 then r.1.setRx { m with target := .dropped, got := m.got ++ [c.index] }
    else
      let m1 := { m with got := m.got ++ [c.index] }
      let s2 := if m1.got.length = m.total then r.1.finishRx m1 else r.1.setRx m1
      match m.target with
      | .ring n _ _ _ => s2.ringSend n
      | _ => s2

/-- R337: a chunk whose checks fail: counted and reported bad; after three resends, of the chunk
or at minor version 0 of the message, the message fails here too. -/
def State.badChunk (s : State) (p : PortNo) (m : RxMsg) (c : Nat) : State :=
  let s1 := (s.countPort p 0x07 1 (if m.mtype = 1 then 1 else if m.mtype = 2 then 2 else 0)).emit (.chunkReport p m.src m.id c false)
  let bad := m.bad ++ [c]
  if 3 < (if (s.port p).minor = 0 then bad else bad.filter (fun i => decide (i = c))).length then
    (s1.dropRx m.src m.id).reportPort p 0x0401 .operation []
  else s1.setRx { m with bad := bad }

/-- R337: a chunk record arrives on a port. -/
def State.acceptChunk (s : State) (p : PortNo) (b : List Byte) : State :=
  match s.rxMsg (BitVec.ofNat 32 (leField b 8 4)) (BitVec.ofNat 32 (leField b 4 4)) with
  | none => s
  | some m =>
    if !(s.port p).admits m.mtype || decide (m.total ≤ leField b 2 2) then s
    else match m.target with
      | .relay _ ps =>
        s.relayChunk ps (leField b 2 2) b
      | _ =>
        let o := s.openChunk m b
        if chunkOk o then s.goodChunk p m (chunkOf o) else s.badChunk p m (leField b 2 2)

/-- The length of the record at the front of lane data: a header with its lead block, a chunk; a zero byte is padding. -/
def recordLen (b : List Byte) : Nat :=
  match leField b 0 1 with
  | 0 => 1
  | 1 => 64 + leField b 20 2
  | _ => 160 + leField b 12 4

/-- One record of a lane. -/
def State.acceptRecord (s : State) (p : PortNo) (b : List Byte) : State :=
  match leField b 0 1 with
  | 1 => s.acceptHeader p b
  | 2 => s.acceptChunk p b
  | _ => s

/-- R335: takes whole records from the front of lane data, in order; answers what is left. -/
def State.acceptRecords (s : State) (p : PortNo) : List Byte → Nat → State × List Byte
  | b, 0 => (s, b)
  | [], _ => (s, [])
  | b, n + 1 =>
    let k := recordLen b
    let need := if leField b 0 1 = 1 then 64 else if leField b 0 1 = 0 then 1 else 160
    if b.length < need ∨ b.length < k then (s, b) else State.acceptRecords (s.acceptRecord p (b.take k)) p (b.drop k) n

/-- R328: the flits of a lane whose bytes are all gone, and what is left of the others, when `k` bytes leave the lane's buffer. -/
def freeFlits : List Nat → Nat → List Nat × Nat
  | [], _ => ([], 0)
  | a :: r, k => if a ≤ k then ((freeFlits r (k - a)).1, (freeFlits r (k - a)).2 + 1) else ((a - k) :: r, 0)

/-- Passes a lane's data on (R326); the flits that it leaves empty count as freed (R328). -/
def State.drainLane (s : State) (p : PortNo) (lane : Fin 4) : State :=
  let b := (s.port p).rx[lane.val]
  let r := s.acceptRecords p b (b.length + 1)
  r.1.modPort p (fun x =>
    let q := freeFlits x.rxFlits[lane.val] (b.length - r.2.length)
    { x with rx := x.rx.set lane.val r.2, rxFlits := x.rxFlits.set lane.val q.1,
             freed := x.freed.set lane.val (x.freed[lane.val] + BitVec.ofNat 32 q.2) })

/-! Reports at the sender (R337) -/

/-- R337: the first resend of a port in any 1 ms writes a level-0 record. -/
def State.noteResend (s : State) (p : PortNo) : State :=
  let s1 := s.countPort p 0x08 1 0
  match (s.port p).lastResendNote with
  | some t => if s.now < t.toNat + msTicks then s1
    else (s1.modPort p (fun x => { x with lastResendNote := some s.clock.time })).reportPort p 0x0401 .corrected []
  | none => (s1.modPort p (fun x => { x with lastResendNote := some s.clock.time })).reportPort p 0x0401 .corrected []

/-- R192, R337: a message fails, and its ring goes on with its next entry. -/
def State.failMessage (s : State) (id : W32) (code : Nat) : State :=
  match s.txMsg id with
  | none => s
  | some m => match m.owner with
    | .ring n _ => (s.failTx id code).ringSend n
    | _ => s.failTx id code

/-- R337: a message's resends are used up. -/
def State.failCheck (s : State) (p : PortNo) (id : W32) : State :=
  (s.reportPort p 0x0401 .operation []).failMessage id 0x0401

/-- R337, R358: a chunk of a message is reported to its sender. A resend on a port that is held by then fails the message. -/
def State.chunkReported (s : State) (p : PortNo) (id : W32) (c : Nat) (good : Bool) : State :=
  match s.txMsg id with
  | none => s
  | some m => match m.chunks[c]? with
    | none => s
    | some k =>
      if good then (s.modTx id (fun m => { m with chunks := m.chunks.set c { k with good := true } })).completeTx id
      else if m.ports.any (fun q => (s.port q).held) then s.failMessage id 0x040C
      else if (s.port p).minor = 0 then
        if 3 ≤ m.tries then s.failCheck p id
        else
          let s1 := ((s.noteResend p).modTx id (fun m => { m with tries := m.tries + 1 })).queueLane (m.ports.headD p) m.lane m.header
          match (List.range m.chunks.length).foldlM (fun (a : State) i => a.sendChunk m i) s1 with
          | .ok t => t
          | .error _ => s1.failMessage id 0x0401
      else if 3 ≤ k.tries then s.failCheck p id
      else
        let s1 := (s.noteResend p).modTx id (fun m => { m with chunks := m.chunks.set c { k with tries := k.tries + 1 } })
        match s1.sendChunk m c with
        | .ok t => t
        | .error _ => s1.failMessage id 0x0401

/-! The time root (R343) -/

/-- R343: this module's own pair: time_priority and serial. -/
def State.ownRoot (s : State) : Nat × Nat := (s.dictVal 0x3130 0, Config.serial.toNat)

/-- Lower of two pairs. -/
def pairLt (a b : Nat × Nat) : Bool := decide (a.1 < b.1) || (decide (a.1 = b.1) && decide (a.2 < b.2))

/-- R343, R358: the announcements that count: hops below 15, on UP ports that are not held. -/
def State.heardRoots (s : State) : List (PortNo × Announcement) :=
  ((List.range 30).map portOf).filterMap (fun p =>
    let x := s.port p
    match x.heard with
    | some a => if x.mode = .up ∧ !x.held ∧ a.hops.toNat < 15 then some (p, a) else none
    | none => none)

/-- R343: chooses the root and the parent port. A module that becomes the root runs from its time PLL alone. -/
def State.chooseRoot (s : State) : State :=
  let own := s.ownRoot
  let hs := s.heardRoots
  let best := hs.foldl (fun (b : Nat × Nat) h => if pairLt (h.2.priority.toNat, h.2.serial.toNat) b then (h.2.priority.toNat, h.2.serial.toNat) else b) own
  if best = own then
    let t := s.link.time
    let s1 := s.modLink (fun l => { l with time := { t with isRoot := true, parent := none, request := none, hops := 0, rootPriority := BitVec.ofNat 8 own.1,
                                                            rootSerial := Config.serial } })
    { s1 with clock := if t.isRoot then { s1.clock with synced := true } else { s1.clock with synced := true, holdover := false, rateAdj := 0 } }
  else
    let cand := hs.filter (fun h => decide ((h.2.priority.toNat, h.2.serial.toNat) = best))
    match cand.foldl (fun (b : Option (PortNo × Announcement)) h => match b with
      | none => some h
      | some q => if h.2.hops.toNat < q.2.hops.toNat then some h else b) none with
    | none => s
    | some h =>
      let t := s.link.time
      let same := decide (t.parent = some h.1)
      let s1 := s.modLink (fun l => { l with time := { t with isRoot := false, parent := some h.1, hops := h.2.hops + 1,
                                                              rootPriority := h.2.priority, rootSerial := h.2.serial,
                                                              good := if same then t.good else 0,
                                                              request := if same then t.request else none,
                                                              newParent := t.newParent || !same } })
      if t.isRoot then { s1 with clock := { s1.clock with synced := false } } else s1

/-! A port that leaves its state (R340, R204) -/

/-- R204: the spanning folios of a partition in which a lost member takes part. The peer is known by its slot on the board;
behind a switch any spanning folio may be meant. -/
def State.scrapeLost (s : State) (part : PartNo) (peer : Option Beacon) : State :=
  let addr : Option W32 := peer.bind (fun b => if b.slot = 0xFF then none else some (BitVec.ofNat 32 (s.address.toNat / 16 * 16 + b.slot.toNat % 16)))
  (s.liveSlots.filter (fun e => decide (e.2.part = part) && (match e.2.span with
    | none => false
    | some sp => match addr with
      | none => decide (1 < sp.members.length)
      | some a => decide (sp.members = []) || sp.members.any (fun m => decide (m.module = a))))).foldl (fun t e =>
        if e.2.mode = .prepared ∨ e.2.mode = .inDoubt ∨ e.2.mode = .sealed then t
        else
          let f := ((FX.ofSlot t e.1).judge).f
          t.scrapePart e.1 (if f.poisoned ≠ 0 ∧ !f.tolerant then 0x0303 else 0x0305)) s

/-- R194 step 2: sending stops: the current entry is abandoned. -/
def State.stopSending (s : State) (n : Fin 16) : State :=
  match (s.ring n).cur with
  | none => s
  | some c =>
    let t := s.modRing n (fun r => { r with cur := none, sqHead := r.sqHead + 1 })
    match c.msg with
    | none => t
    | some id => t.modTx id (fun m => { m with owner := .none })

/-- R194 steps 2 and 3: sending stops, FILLING slots become FREE. -/
def State.stopRing (s : State) (n : Fin 16) : State :=
  (List.range (s.ring n).slots.length).foldl (fun t k => match (t.ring n).slots[k]? with
    | some x => if x.mode = .filling then ((t.dropLanding n k).setLandSlot n k (LandSlot.granted x.seq)).writeLand n k else t
    | none => t) (s.stopSending n)

/-- R204: a ring loses a port: sending stops as under stop, but the state stays BROKEN. FILLING slots are freed by the later stop. -/
def State.breakRing (s : State) (n : Fin 16) (p : PortNo) : State :=
  let r := s.ring n
  let s1 := s.modRing n (fun r => { r with linkLost := true })
  if r.mode ≠ .running then s1
  else
    let s2 := (s1.stopSending n).modRing n (fun r => { r with mode := .broken })
    let s3 := s2.report ⟨0x0407, dieX0, r.owner.val, unitRing, .operation, u64s [n.val, p.val]⟩
    (s3.scrapeLost r.owner (s.port p).peer).retryFreed s

/-- R204: the rings that name a port. -/
def State.ringsNaming (s : State) (p : PortNo) : List (Fin 16) :=
  let l := s.logicalOf p
  (List.finRange 16).filter (fun n =>
    decide (l ∈ namedPorts (s.ring n).succ) || decide (l ∈ namedPorts (s.ring n).pred))

/-- R340: a port's link layer starts again: buffers, replay and credits gone, numbers from 0. -/
def Port.cleared (x : Port) : Port :=
  { Port.reset with
    enable := x.enable, encReq := x.encReq, loopback := x.loopback, downEvent := x.downEvent, authFail := x.authFail,
    verMismatch := x.verMismatch, replayEvent := x.replayEvent, minor := x.minor, peer := x.peer, arb := x.arb, fecCorr := x.fecCorr,
    fecUncorr := x.fecUncorr, replays := x.replays, wire := x.wire, partner := x.partner, held := x.held, heard := x.heard,
    lastResendNote := x.lastResendNote }

/-- R340, R355: messages with a chunk on a port not yet reported good fail at their sender. -/
def State.failOnPort (s : State) (p : PortNo) (code : Nat) : State :=
  (s.link.tx.filter (fun m => (m.chunks.zipIdx).any (fun c => !c.1.good && decide (m.portOf c.2 = p)))).foldl
    (fun t m => t.failTx m.id code) s

/-- R321, R340, R330: a port goes to a state in which its link does not run. -/
def State.leavePort (s : State) (p : PortNo) (to_ : PortMode) : State :=
  let x := s.port p
  let was := decide (x.mode = .up) || decide (x.mode = .ethUp)
  let s1 := s.setPort p { x.cleared with mode := to_, downEvent := x.downEvent || was }
  if x.mode ≠ .up then s1
  else
    let s2 := s1.failOnPort p 0x0409
    let s3 := (s2.ringsNaming p).foldl (fun t n => t.breakRing n p) s2
    if s3.link.time.parent = some p ∨ x.heard.isSome then s3.chooseRoot else s3

/-- R332, R334: a port enters QUARANTINE, with its link running for management. -/
def State.quarantine (s : State) (p : PortNo) : State := s.leavePort p .quarantine

/-- R334: a tag fails with a correct lcrc. -/
def State.authFail (s : State) (p : PortNo) : State :=
  ((s.reportPort p 0x0408 .operation []).quarantine p).modPort p (fun x => { x with authFail := true })

/-! Sending (R324, R325, R328, R329) -/

/-- R328: flits of a lane's receive buffer. -/
def laneBuffer (lane : Fin 4) : Nat :=
  match lane.val with
  | 0 => 256
  | 3 => 2048
  | _ => 4096

/-- R328: flits that the lane's credit still allows. -/
def Port.room (x : Port) (lane : Fin 4) : Nat := laneBuffer lane - (x.sent[lane.val] - x.credit[lane.val]).toNat

/-- R324, R329: the flits of a lane's next group: as many as its data and credit allow, up to 8. -/
def Port.groupSize (x : Port) (lane : Fin 4) : Nat :=
  let n := x.queue[lane.val].length
  if n = 0 then 0 else min (min 8 (x.room lane)) ((n + 16 + 243) / 244)

/-- R329: the weight of a lane, 0 taken as 1. -/
def Port.weight (x : Port) (lane : Fin 4) : Nat :=
  max 1 (match lane.val with
    | 1 => bits x.arb.toNat 0 4
    | 2 => bits x.arb.toNat 4 4
    | _ => bits x.arb.toNat 8 4)

/-- The next lane of the round robin of lanes 1 to 3. -/
def nextLane (l : Fin 4) : Fin 4 := if l = 1 then 2 else if l = 2 then 3 else 1

/-- R329: deficit round robin over lanes 1 to 3: the port with its turn moved, and the lane that sends. -/
def Port.pickLane (x : Port) : Nat → Port × Option (Fin 4)
  | 0 => (x, none)
  | k + 1 =>
    let l := x.turn
    let n := x.groupSize l
    if n = 0 then
      let nl := nextLane l
      let y : Port := { x with turn := nl, deficit := (x.deficit.set l.val 0).set nl.val (x.deficit[nl.val] + x.weight nl) }
      if (x.groupSize 1 = 0 ∧ x.groupSize 2 = 0 ∧ x.groupSize 3 = 0) then (x, none) else Port.pickLane y k
    else if n ≤ x.deficit[l.val] then ({ x with deficit := x.deficit.set l.val (x.deficit[l.val] - n) }, some l)
    else
      let nl := nextLane l
      let y : Port := { x with turn := nl, deficit := x.deficit.set nl.val (x.deficit[nl.val] + x.weight nl) }
      Port.pickLane y k

/-! Flits on the wire (R320 to R323) -/

/-- R320: a port that has codeword lock corrects codewords and loses some: free numbers in a tick (log 123), in saturating counts. -/
def Port.fecTick (x : Port) (a b : Nat) : Port :=
  match x.mode with
  | .handshake | .keying | .up | .quarantine | .ethUp =>
    { x with fecCorr := BitVec.ofNat 32 (min (2 ^ 32 - 1) (x.fecCorr.toNat + a)),
             fecUncorr := BitVec.ofNat 16 (min (2 ^ 16 - 1) (x.fecUncorr.toNat + b)) }
  | .disabled | .down | .training => x

/-- R320, R322: flits go out back to back on a port, and the codewords that they fill. -/
def State.sendFlits (s : State) (p : PortNo) (fs : List (List Byte)) : State :=
  let bs := (s.port p).line ++ fs.flatMap flitBlocks
  let k := bs.length / 20
  (List.range k).foldl (fun t i => t.emit (.codeword p (codewordLanes ((bs.drop (20 * i)).take 20))))
    ((s.modPort p (fun x => { x with line := bs.drop (20 * k) })).emit (.flits p fs))

/-- R333: the block under which a port seals what it sends. -/
def Port.txKey (x : Port) : Option (BitVec 288) := if x.encOn then some x.txBlock else none

/-- R327, R333, R342: an LCTL or TIME flit of the fields of its body. -/
def State.sendSealed (s : State) (p : PortNo) (t : FlitType) (fields : List Byte) : State :=
  let x := s.port p
  (s.setPort p { x with uctrTx := if x.encOn then x.uctrTx + 1 else x.uctrTx }).sendFlits p
    [flitOf (flitHead t 0 0 0 false x.keyPhase) (sealBody fields x.uctrTx x.txKey)]

/-! Unsequenced flits (R327, R329, R331, R342) -/

/-- A gseq with its valid bit, as an LCTL body carries it. -/
def gseqField (v : Option (BitVec 12)) : Nat :=
  match v with
  | some g => g.toNat + 2 ^ 15
  | none => 0

/-- R327: the fields of the LCTL flit that a port would send now. -/
def Port.lctlFields (x : Port) : List Byte :=
  leBytes 2 (gseqField (if x.rxAny then some (x.rxNext - 1) else none)) ++ leBytes 2 (gseqField (if x.wantNak then some x.rxNext else none)) ++
  leBytes 4 0 ++ x.freed.toList.flatMap (fun v => leBytes 4 v.toNat)

/-- R327: an LCTL flit. -/
def State.lctlOut (s : State) (p : PortNo) : State :=
  (s.modPort p (fun x => { x with accepted := 0 })).sendSealed p .lctl (s.port p).lctlFields

/-- R331, R351: the body of this module's HELLO on a port. The slot is that of the connector's pins; the build is that of
the warden's running image (DEDUCED: component 0x01). -/
def State.helloBody (s : State) (p : PortNo) : List Byte :=
  let build := (Tab.get Image.absent s.sec.running 1).build
  leBytes 1 1 ++ leBytes 1 1 ++ leBytes 1 (flagAt (s.port p).encReq 0) ++ leBytes 1 0 ++ leBytes 4 build.toNat ++
  leBytes 8 Config.serial.toNat ++ leBytes 1 (match s.plug.slot with
    | some v => v.toNat
    | none => 0) ++ leBytes 1 p.val ++ List.replicate 226 0

/-- R331: a HELLO flit. -/
def State.helloOut (s : State) (p : PortNo) : State :=
  s.sendFlits p [flitOf (flitHead .hello 0 0 0 false (s.port p).keyPhase) (s.helloBody p)]

/-- R323: an IDLE flit. -/
def State.idleOut (s : State) (p : PortNo) : State :=
  s.sendFlits p [flitOf (flitHead .idle 0 0 0 false (s.port p).keyPhase) (List.replicate 244 0)]

/-- Changes the time exchange. -/
def State.modTime (s : State) (f : TimeState → TimeState) : State := s.modLink (fun l => { l with time := f l.time })

/-- R342: the fields that every TIME flit carries. -/
def State.timeHead (s : State) (kind : Nat) (tseq : W16) : List Byte :=
  let t := s.link.time
  leBytes 1 kind ++ leBytes 1 t.hops.toNat ++ leBytes 1 t.rootPriority.toNat ++
  leBytes 1 (flagAt s.clock.synced 0 + flagAt s.clock.holdover 1) ++ leBytes 8 t.rootSerial.toNat ++ leBytes 2 tseq.toNat ++ leBytes 2 0

/-- R342: sends a TIME flit of the fields of its body. -/
def State.sendTime (s : State) (p : PortNo) (fields : List Byte) : State := s.sendSealed p .time fields

/-- The sixteenths of a tick at which a flit leaves: the module's global time counts whole ticks (a free value, log 1). -/
def State.fracNow (s : State) : Nat := Config.freeNat s.draws % 16

/-- R342: a request. -/
def State.syncReqOut (s : State) (p : PortNo) : State :=
  let q := s.link.time.tseq + 1
  let s1 := s.modTime (fun t => { t with tseq := q, request := some q })
  (s1.sendTime p (s1.timeHead 0 q ++ leBytes 8 s.now ++ leBytes 8 0 ++ leBytes 8 0 ++ leBytes 1 s.fracNow)).draw

/-- R342: a response to the request of body `b` that arrived at `t2` and `frac`: t1 and corr_req copied, t3 stamped on departure. -/
def State.syncRespOut (s : State) (p : PortNo) (b : List Byte) (t2 : W64) (frac : BitVec 4) : State :=
  (s.sendTime p (s.timeHead 1 (BitVec.ofNat 16 (leField b 12 2)) ++ leBytes 8 (leField b 16 8) ++ leBytes 8 t2.toNat ++ leBytes 8 s.now ++
    leBytes 1 (leField b 40 1) ++ leBytes 1 frac.toNat ++ leBytes 1 (if s.clock.time = t2 then frac.toNat else s.fracNow) ++ leBytes 5 0 ++
    leBytes 8 (leField b 48 8))).draw

/-- R329: sends an unsequenced flit at a group boundary. -/
def State.sendDue (s : State) (p : PortNo) (d : DueFlit) : State :=
  match d with
  | .lctl => s.lctlOut p
  | .hello => s.helloOut p
  | .syncReq => s.syncReqOut p
  | .syncResp b t2 frac => s.syncRespOut p b t2 frac
  | .announce => s.sendTime p (s.timeHead 2 0)

/-- R329: an unsequenced flit is due: it goes out at once, unless groups are to be replayed first. -/
def State.sendOrDue (s : State) (p : PortNo) (d : DueFlit) : State :=
  if (s.port p).resend = 0 then s.sendDue p d
  else s.modPort p (fun x => if d ∈ x.due then x else { x with due := x.due ++ [d] })

/-! Groups (R324, R325, R328, R329, R333) -/

/-- R333: the sender flips the key phase at a group boundary once a new key is installed. -/
def Port.flip (x : Port) : Port :=
  match x.txSpare with
  | some k => { x with keyPhase := !x.keyPhase, txBlock := k, txSpare := none, phaseGroups := 0, rekeyDue := false }
  | none => x

/-- R324, R325, R333: sends a new group of a lane; when the quire lane is empty after it, the rings take their turns (R190). -/
def State.sendGroup (s : State) (p : PortNo) (lane : Fin 4) : State :=
  let x := (s.port p).flip
  let n := x.groupSize lane
  let cap := 244 * n - 16
  let d := x.queue[lane.val].take cap
  let fs := groupFlits lane x.txNext x.keyPhase n (d ++ List.replicate (cap - d.length) 0) (x.txKey.map (fun k => (k, x.phaseGroups)))
  let y : Port := { x with queue := x.queue.set lane.val (x.queue[lane.val].drop cap), txNext := x.txNext + 1,
                           replay := x.replay ++ [⟨x.txNext, lane, fs⟩],
                           sent := x.sent.set lane.val (x.sent[lane.val] + BitVec.ofNat 32 n), phaseGroups := x.phaseGroups + 1,
                           rekeyDue := x.rekeyDue || (x.encOn && decide (2 ^ 39 ≤ x.phaseGroups + 1)) }
  let t := (((s.setPort p y).sendFlits p fs).countPort p 0x01 n lane.val).countPort p 0x03 (cap / 64) lane.val
  if lane = 1 ∧ t.laneFree p then t.ringsSend p else t

/-- R325: the next group to replay. -/
def Port.nextReplay (x : Port) : Option TxGroup := if x.resend = 0 then none else x.replay[x.replay.length - x.resend]?

/-- R325: sends a group again, exactly as it was sent. -/
def State.replayGroup (s : State) (p : PortNo) (g : TxGroup) : State :=
  let x := s.port p
  let n := g.flits.length
  (((s.setPort p { x with resend := x.resend - 1, sent := x.sent.set g.lane.val (x.sent[g.lane.val] + BitVec.ofNat 32 n) }).sendFlits p g.flits).countPort
    p 0x01 n g.lane.val).countPort p 0x04 1 g.lane.val

/-- R323, R329: a due flit, or IDLE when nothing else is due. -/
def State.dueOrIdle (s : State) (p : PortNo) : State :=
  match (s.port p).due with
  | d :: r => (s.modPort p (fun x => { x with due := r })).sendDue p d
  | [] => s.idleOut p

/-- R325, R333: the sender may send no new DATA: 4,095 groups are unacknowledged, or 2^40 are sent without a new key. -/
def Port.stopped (x : Port) : Bool :=
  decide (4095 ≤ x.replay.length) || (x.encOn && decide (2 ^ 40 ≤ x.phaseGroups) && x.txSpare.isNone)

/-- R495: the lowest lane whose data is held for credit: the class of that count (DESIGN CHOICE, log 186). -/
def Port.heldLane (x : Port) : Option Nat := (List.range 4).find? (fun l => decide (x.queue.toList.getD l [] ≠ []))

/-- R321 to R330: the link runs far enough for unsequenced flits. -/
def Port.linked (x : Port) : Bool :=
  decide (x.mode = .handshake) || decide (x.mode = .keying) || decide (x.mode = .up) || decide (x.mode = .quarantine)

/-- R325, R328, R329: at a group boundary: a replayed group, then a due flit, then the control lane, then the others by their
weights, then IDLE. A replayed flit is a flit sent, so it needs its lane's credit too (DEDUCED, log 149). A held port carries the
control lane alone (R358). -/
def State.groupBoundary (s : State) (p : PortNo) : State :=
  let x := s.port p
  if !x.linked then s
  else match x.nextReplay with
    | some g => if x.room g.lane < g.flits.length then (s.countPort p 0x0C 1 g.lane.val).dueOrIdle p else s.replayGroup p g
    | none =>
      if x.due ≠ [] ∨ x.mode = .handshake ∨ x.stopped then s.dueOrIdle p
      else if 0 < x.groupSize 0 then s.sendGroup p 0
      else if x.mode ≠ .up ∨ x.held then s.dueOrIdle p
      else match x.pickLane 64 with
        | (y, some l) => (s.setPort p y).sendGroup p l
        | (_, none) =>
          (match x.heldLane with
            | some l => s.countPort p 0x0C 1 l
            | none => s).dueOrIdle p

/-- R325: the groups from a number onward are to be sent again. -/
def State.replayFrom (s : State) (p : PortNo) (k : Nat) : State :=
  s.modPort p (fun x => { x with resend := x.replay.length - k, replayEvent := true,
                                 replays := if x.replays = 0xFFFF then x.replays else x.replays + 1 })

end Sys2Proof.Machine
end

