-- ==== Sys2Proof/Machine/Ring.lean ====
section
/-! DEFINITION. The commands of the ring unit and of the multicast sets (R190 to R204). -/

namespace Sys2Proof.Machine

/-- R193: on entry to RUNNING slot `k` is granted for landing `k`, its record written and its credit sent; a slot still
READY keeps its block (R194). -/
def State.grantSlots (s : State) (n : Fin 16) : State :=
  let r := s.ring n
  let slots := (List.range r.count).map (fun k => match r.slots[k]? with
    | some x => if x.mode = .ready then x else LandSlot.granted (BitVec.ofNat 32 k)
    | none => LandSlot.granted (BitVec.ofNat 32 k))
  (List.range r.count).foldl (fun t k => match (t.ring n).slots[k]? with
    | some x => if x.mode = .ready then t else (t.writeLand n k).sendCredit n k
    | none => t) (s.modRing n (fun r => { r with slots := slots }))

/-- RING_ENABLE (R190): from DISABLED or STOPPED the ring enters RUNNING. -/
def execRingEnable (r : Fin 16) (s : State) : Host.Outcome State Fault Refusal :=
  .next (if (s.ring r).mode = .disabled ∨ (s.ring r).mode = .stopped then
      ((s.modRing r (fun x => { x with mode := .running, enable := true })).grantSlots r).ringSend r
    else s)

/-- RING_DISABLE (R190): a stopped ring enters DISABLED. -/
def execRingDisable (r : Fin 16) (s : State) : Host.Outcome State Fault Refusal :=
  .next (if (s.ring r).mode = .stopped then s.modRing r (fun x => { x with mode := .disabled, enable := false }) else s)

/-- RING_STOP (R190, R194): RUNNING or BROKEN goes to STOPPING. -/
def execRingStop (r : Fin 16) (s : State) : Host.Outcome State Fault Refusal :=
  .next (if (s.ring r).mode = .running ∨ (s.ring r).mode = .broken then
      (s.stopRing r).modRing r (fun x => { x with mode := .stopping })
    else s)

/-- RING_STOPPED (R194): the chunks in flight are complete. -/
def execRingStopped (r : Fin 16) (s : State) : Host.Outcome State Fault Refusal :=
  .next (if (s.ring r).mode = .stopping then s.modRing r (fun x => { x with mode := .stopped }) else s)

/-- R194, R203: landing numbers start again at 0, held credits and the chunks of the old epoch are gone, every slot is FREE and its
landing record says so. -/
def State.newEpoch (s : State) (r : Fin 16) (v : W32) : State :=
  let ks := List.range (s.ring r).slots.length
  let drop := ks.foldl (fun t k => t.dropLanding r k) s
  let t := drop.modRing r (fun x => { x with epoch := v, landed := 0, credits := [],
                                             slots := (List.range x.slots.length).map (fun k => LandSlot.granted (BitVec.ofNat 32 k)) })
  ks.foldl (fun t k => t.writeLand r k) t

/-- RING_EPOCH_WRITE (R190, R203): performed only while the ring is DISABLED or STOPPED. -/
def execRingEpochWrite (r : Fin 16) (v : W32) (s : State) : Host.Outcome State Fault Refusal :=
  .next (if (s.ring r).mode = .disabled ∨ (s.ring r).mode = .stopped then s.newEpoch r v else s)

/-- RING_SQ_TAIL_WRITE (R190, R192): accepted in every state. -/
def execRingSqTailWrite (r : Fin 16) (v : Byte) (s : State) : Host.Outcome State Fault Refusal :=
  .next ((s.modRing r (fun x => { x with sqTail := v })).ringSend r)

/-- QUIRE_HEADER_ARRIVAL (R195): a message header of a quire with its header arrives on a port. -/
def execQuireHeaderArrival (p : PortNo) (body : List Byte) (s : State) : Host.Outcome State Fault Refusal :=
  .next (if leField body 2 1 = 1 then s.acceptHeader p body else s)

/-- QUIRE_CHUNK_ARRIVAL (R188): a verified chunk of a quire: it lands, or is relayed (R201), and may be forwarded (R192). -/
def execQuireChunkArrival (p : PortNo) (body : List Byte) (s : State) : Host.Outcome State Fault Refusal :=
  .next (match s.rxMsg (BitVec.ofNat 32 (leField body 8 4)) (BitVec.ofNat 32 (leField body 4 4)) with
    | none => s
    | some m =>
      if m.mtype ≠ 1 ∨ !(s.port p).admits 1 ∨ m.total ≤ leField body 2 2 then s
      else match m.target with
        | .relay _ _ => s.acceptChunk p body
        | _ => s.goodChunk p m (chunkOf (s.openChunk m body)))

/-- LANDING_CREDIT (R193): the successor grants slot `slot` for landing `j`; a credit of another epoch is ignored. -/
def execLandingCredit (r : Fin 16) (epoch : W32) (slot : Nat) (j : W32) (s : State) : Host.Outcome State Fault Refusal :=
  .next (if epoch = (s.ring r).epoch then
      (s.modRing r (fun x => { x with credits := x.credits.filter (fun c => decide (c.1 ≠ slot)) ++ [(slot, j)] })).ringSend r
    else s)

/-- R193 step 4: a READY slot whose release word is j + 1 is freed and granted for j + slots. -/
def State.releaseSlot (s : State) (n : Fin 16) (k : Nat) : State :=
  let r := s.ring n
  match r.slots[k]?, s.landRec r k with
  | some x, .ok rec =>
    if x.mode ≠ .ready then s
    else match s.readVa (s.ringReq r (leField rec 32 8) 0) 8 with
      | .error e => s.reportPF r.owner dieX0 unitRing .operation e
      | .ok (b, _) =>
        if ofLeBytes b = x.seq.toNat + 1 then
          ((((s.disarmLanding rec).setLandSlot n k (LandSlot.granted (x.seq + BitVec.ofNat 32 r.count))).writeLand n k)).sendCredit n k
        else s
  | _, _ => s

/-- RELEASE_POLL (R193): the unit polls the release words of a ring. -/
def execReleasePoll (r : Fin 16) (s : State) : Host.Outcome State Fault Refusal :=
  .next ((List.range (s.ring r).slots.length).foldl (fun t k => t.releaseSlot r k) s)

/-- RING_BROKEN (R204): a port that the ring names is lost. It is the first of them that is not UP (DEDUCED: the command
names no port). -/
def execRingBroken (r : Fin 16) (s : State) : Host.Outcome State Fault Refusal :=
  .next (
    let x := s.ring r
    let ps := ((namedPorts x.succ) ++ (namedPorts x.pred)).map s.physOf
    match (ps.filter (fun p => decide ((s.port p).mode ≠ .up)) ++ ps).head? with
    | some p => s.breakRing r p
    | none => s)

/-! Multicast (R198, R199) -/

/-- MULTICAST_READ (R199): a member core reads `lines` lines of 64 B inside the armed window. -/
def execMulticastRead (m : MDie) (set : Fin 16) (member : Fin 32) (addr : W64) (lines : Nat) (s : State) : Host.Outcome State Fault Refusal :=
  .next (
    let x := s.mcastSet m set.val
    match x.window with
    | none => s
    | some w =>
      let a := addr.toNat / 64 * 64
      if a < w.1 ∨ w.1 + 65536 * w.2 < a + 64 * lines then s
      else s.mcastLoad m set.val member a lines)

/-- DETACH_WAIT_EXPIRY (R199): the leader's read has been held for detach_wait µs: the slowest members are detached and it
proceeds. -/
def execDetachWaitExpiry (m : MDie) (set : Fin 16) (s : State) : Host.Outcome State Fault Refusal :=
  .next (
    let x := s.mcastSet m set.val
    match x.held.head? with
    | none => s
    | some h =>
      if s.now < h.since.toNat + x.detachWait.toNat * usTicks then s
      else
        let low := x.slowest
        let gone := (List.finRange 32).filter (fun i => x.attached.getLsbD i.val && decide (x.counts[i.val] = low))
        let mask : W32 := BitVec.ofNat 32 (sumNat (gone.map (fun i => 2 ^ i.val)))
        let s1 := s.setMcast m set.val { x with attached := x.attached &&& ~~~mask }
        let s2 := gone.foldl (fun t i => t.countDie m.val ⟨0x08, 1, 0, 0, 0, s.partOfCore (mcastCore m i.val), some h.addr, none⟩) s1
        s2.mcastResume m set.val (x.heldLines + 1))

end Sys2Proof.Machine
end

