-- ==== Sys2Proof/Machine/Haros.lean ====
section
/-! DEFINITION. The commands of the Haros ports (R321 to R340, R375, R447). -/

namespace Sys2Proof.Machine

/-! Flits that arrive (R320, R322, R323, R333, R334) -/

/-- R322, R323: a flit of a type is passed on. One with a wrong lcrc is discarded, one of a type that is none of R323's discarded
and counted; one of another type is no part of this command. -/
def State.flitPass (s : State) (p : PortNo) (t : FlitType) (f : List Byte) (k : State → State) : State :=
  if !(s.port p).linked || !flitOk f then s
  else match flitType f with
    | none => s.modPort p (fun x => { x with badTypes := x.badTypes + 1 })
    | some u => if u = t then k s else s

/-- R333: the block that opens what arrives under a key phase: the one in force, or the one installed for the next phase. -/
def Port.rxKey (x : Port) (phase : Bool) : BitVec 288 := if phase = x.rxPhase then x.rxBlock else x.rxSpare.getD x.rxBlock

/-- R333: an authenticated unsequenced flit is accepted only when its counter is greater than the last accepted. -/
def Port.fresher (x : Port) (u : W64) : Bool :=
  !x.encOn || match x.uctrRx with
    | some v => decide (v.toNat < u.toNat)
    | none => true

/-- R333, R334: an LCTL or TIME flit is authenticated: one whose tag fails quarantines the port, one whose counter is not fresh is
not accepted. -/
def State.authPass (s : State) (p : PortNo) (f : List Byte) (k : State → State) : State :=
  let x := s.port p
  let u := bodyUctr (flitBody f)
  if x.encOn ∧ !bodyTagOk f (x.rxKey (flitPhase f)) then s.authFail p
  else if !x.fresher u then s
  else k (if x.encOn then s.modPort p (fun x => { x with uctrRx := some u }) else s)

/-! Groups (R324 to R328) -/

/-- R320: the codewords of a burst are counted, corrected and uncorrectable ones. -/
def State.countFec (s : State) (p : PortNo) (g : FlitBurst) : State :=
  let corr := (g.symErrs.filter (fun e => decide (0 < e) && correctable e)).length
  let bad := (g.symErrs.filter (fun e => !correctable e)).length
  ((s.modPort p (fun x => x.fecTick corr bad)).countPort p 0x05 corr 3).countPort p 0x06 bad 3

/-- R320, R322: the flits of a burst, each with whether it is correct: its lcrc holds and no uncorrectable codeword carries it. -/
def checkedFlits (g : FlitBurst) : List (List Byte × Bool) :=
  (g.flits.zipIdx).map (fun f => (f.1, flitOk f.1 && !flitHit g.at_.val f.2 g.symErrs))

/-- R323: the correct flits of other types. -/
def oddFlits (g : FlitBurst) : Nat := ((checkedFlits g).filter (fun f => f.2 && decide (flitType f.1 = none))).length

/-- R326: the flits of a burst that are taken for DATA: the correct DATA flits, and those found wrong. -/
def dataFlits (g : FlitBurst) : List (List Byte × Bool) :=
  (checkedFlits g).filter (fun f => !f.2 || decide (flitType f.1 = some .data))

/-- R324: the lane of a burst: that of its first correct DATA flit (where none is correct, of the first as it arrived: DEDUCED,
log 167). -/
def burstLane (g : FlitBurst) : Fin 4 :=
  match (dataFlits g).find? (fun f => f.2) with
  | some f => flitLane f.1
  | none => flitLane (((dataFlits g).head?).map (fun f => f.1) |>.getD [])

/-- R333: the block and number under which the next group of a key phase is sealed. -/
def Port.groupKey (x : Port) (phase : Bool) : Option (BitVec 288 × Nat) :=
  if x.encOn then some (x.rxKey phase, if phase = x.rxPhase then x.rxGroups else 0) else none

/-- R333: the key phase of an accepted group: the first of a new phase ends the key before. -/
def Port.tookPhase (x : Port) (phase : Bool) : Port :=
  if !x.encOn then x
  else if phase = x.rxPhase then { x with rxGroups := x.rxGroups + 1 }
  else { x with rxPhase := phase, rxBlock := x.rxKey phase, rxSpare := none, rxGroups := 1 }

/-- R324, R328: the bytes of lane data in each flit of a group. -/
def flitBytes (n : Nat) : List Nat := (List.range n).map (fun i => if i + 1 = n then 228 else 244)

/-- R326, R327: the group is accepted: its lane data is passed on, in the clear. After every 16 groups an LCTL flit is due. -/
def State.takeGroup (s : State) (p : PortNo) (fs : List (List Byte)) : State :=
  let x := s.port p
  let f := fs.headD []
  let l := (flitLane f).val
  let y : Port := { x.tookPhase (flitPhase f) with
    rxNext := x.rxNext + 1, rxAny := true, wantNak := false, accepted := x.accepted + 1,
    rx := x.rx.set l (x.rx[l] ++ groupOpen fs (x.groupKey (flitPhase f))), rxFlits := x.rxFlits.set l (x.rxFlits[l] ++ flitBytes fs.length) }
  let t := ((s.setPort p y).countPort p 0x02 fs.length l).drainLane p (flitLane f)
  if 16 ≤ x.accepted + 1 then t.sendOrDue p .lctl else t

/-- R326, R328: the flits are discarded, counted as freed, and as received (R495) when their lcrcs hold. -/
def State.discardGroup (s : State) (p : PortNo) (lane : Fin 4) (fs : List (List Byte × Bool)) : State :=
  (s.modPort p (fun x => { x with wantNak := true, freed := x.freed.set lane.val (x.freed[lane.val] + BitVec.ofNat 32 fs.length) })).countPort
    p 0x02 (fs.filter (fun f => f.2)).length lane.val

/-- R330: the states in which DATA groups arrive: UP, and for messages of the control lane KEYING and QUARANTINE. -/
def Port.takesData (x : Port) (lane : Fin 4) : Bool :=
  decide (x.mode = .up) || ((decide (x.mode = .keying) || decide (x.mode = .quarantine)) && decide (lane = 0))

/-- R326: the flits form the next expected group, every lcrc correct. -/
def Port.expects (x : Port) (fs : List (List Byte × Bool)) : Bool :=
  fs.all (fun f => f.2) && groupInOrder (fs.map (fun f => f.1)) && decide (flitSeq ((fs.map (fun f => f.1)).headD []) = x.rxNext)

/-- R334: the tag of a group verifies, when the link encrypts. -/
def Port.groupAuthentic (x : Port) (fs : List (List Byte)) : Bool :=
  match x.groupKey (flitPhase (fs.headD [])) with
  | none => true
  | some k => groupTagOk fs k.1 k.2

/-- DATA_GROUP (R320, R326, R334): a group is accepted in order, or discarded with a NAK; a tag that fails under correct lcrcs
quarantines the port. -/
def execDataGroup (p : PortNo) (g : FlitBurst) (s : State) : Host.Outcome State Fault Refusal :=
  .next (
    let s1 := (s.countFec p g).modPort p (fun x => { x with badTypes := x.badTypes + oddFlits g })
    let x := s1.port p
    if dataFlits g = [] ∨ !x.takesData (burstLane g) then s1
    else if x.expects (dataFlits g) then
      if x.groupAuthentic ((dataFlits g).map (fun f => f.1)) then s1.takeGroup p ((dataFlits g).map (fun f => f.1)) else s1.authFail p
    else s1.discardGroup p (burstLane g) (dataFlits g))

/-! Acknowledgements (R325 to R327) -/

/-- R325: a replay from the k-th outstanding group: the oldest one only 8 times without progress, then the link goes DOWN. -/
def State.replayOrDown (s : State) (p : PortNo) (k : Nat) : State :=
  if k = 0 then
    if 8 ≤ (s.port p).tries then s.leavePort p .down else (s.modPort p (fun x => { x with tries := x.tries + 1 })).replayFrom p 0
  else s.replayFrom p k

/-- R325, R327: an acknowledgement covers the groups up to its number. -/
def Port.acked (x : Port) (a : BitVec 12) : Port :=
  match x.replay.findIdx? (fun g => decide (g.gseq = a)) with
  | none => x
  | some i => { x with replay := x.replay.drop (i + 1), tries := 0, resend := min x.resend (x.replay.length - (i + 1)) }

/-- R327: what an LCTL flit says. -/
structure LctlBody where
  ack : Option (BitVec 12)
  nak : Option (BitVec 12)
  credit : Vector W32 4
  deriving DecidableEq, Repr

/-- A gseq with its valid bit. -/
def gseqOf (v : Nat) : Option (BitVec 12) := if bitOf v 15 then some (BitVec.ofNat 12 v) else none

/-- R327: the fields of an LCTL body. -/
def lctlOf (b : List Byte) : LctlBody :=
  ⟨gseqOf (leField b 0 2), gseqOf (leField b 2 2), Vector.ofFn (fun k => BitVec.ofNat 32 (leField b (8 + 4 * k.val) 4))⟩

/-- R325, R327, R328: what a good LCTL flit tells the sender. A NAK outside the unacknowledged window is counted. -/
def State.takeLctl (s : State) (p : PortNo) (f : LctlBody) : State :=
  let x := s.port p
  let y := match f.ack with
    | some a => x.acked a
    | none => x
  let s1 := s.setPort p { y with credit := f.credit }
  match f.nak with
  | none => s1
  | some n => match y.replay.findIdx? (fun g => decide (g.gseq = n)) with
    | none => s1.modPort p (fun x => { x with badNaks := x.badNaks + 1 })
    | some k => s1.replayOrDown p k

/-- LCTL (R327, R334): acknowledgements and credits; a NAK may cause a replay. A flit with a wrong lcrc is discarded. -/
def execLctl (p : PortNo) (flit : List Byte) (s : State) : Host.Outcome State Fault Refusal :=
  .next (s.flitPass p .lctl flit (fun s => s.authPass p flit (fun s => s.takeLctl p (lctlOf (flitBody flit)))))

/-- REPLAY_TIMEOUT (R325): 20 µs without progress while groups are outstanding. -/
def execReplayTimeout (p : PortNo) (s : State) : Host.Outcome State Fault Refusal :=
  .next (if !(s.port p).linked ∨ (s.port p).replay = [] then s else s.replayOrDown p 0)

/-- NAK_REPEAT (R326): a receiver that waits repeats its NAK. -/
def execNakRepeat (p : PortNo) (s : State) : Host.Outcome State Fault Refusal :=
  .next (if (s.port p).linked ∧ (s.port p).wantNak then s.sendOrDue p .lctl else s)

/-- LCTL_SEND (R327): an LCTL flit is sent. -/
def execLctlSend (p : PortNo) (s : State) : Host.Outcome State Fault Refusal :=
  .next (if (s.port p).linked then s.sendOrDue p .lctl else s)

/-- GROUP_SEND (R324, R325, R328, R329): at a group boundary the transmitter sends what is next. -/
def execGroupSend (p : PortNo) (s : State) : Host.Outcome State Fault Refusal := .next (s.groupBoundary p)

/-! Link states (R330 to R332) -/

/-- R331: the fields of a HELLO body. -/
def beaconOf (b : List Byte) : Beacon :=
  ⟨BitVec.ofNat 8 (leField b 0 1), BitVec.ofNat 8 (leField b 1 1), bitOf (leField b 2 1) 0, BitVec.ofNat 32 (leField b 4 4),
   BitVec.ofNat 64 (leField b 8 8), BitVec.ofNat 8 (leField b 16 1), BitVec.ofNat 8 (leField b 17 1)⟩

/-- R477: the direction that a port sends in is that from the higher serial. -/
def Port.sendsHigh (x : Port) : Bool := x.peer.any (fun b => decide (b.serial.toNat < Config.serial.toNat))

/-- R330, R340, R477: the port enters UP: numbers and credits start from 0; an encrypted link holds the blocks of key phase 0, of a
fresh derivation. -/
def State.enterUp (s : State) (p : PortNo) (enc : Bool) : State :=
  let x := (s.port p).cleared
  if enc then
    (s.setPort p { x with mode := .up, encOn := true, txBlock := Config.linkBlock s.draws x.sendsHigh,
                          rxBlock := Config.linkBlock s.draws !x.sendsHigh }).draw
  else s.setPort p { x with mode := .up, encOn := false }

/-- R333, R478: the blocks of a fresh derivation are installed for the next key phase. -/
def State.installKeys (s : State) (p : PortNo) : State :=
  if (s.port p).encOn then
    (s.modPort p (fun x => { x with txSpare := some (Config.linkBlock s.draws x.sendsHigh), rxSpare := some (Config.linkBlock s.draws !x.sendsHigh) })).draw
  else s

/-- R332: the end of the handshake: versions are compared; the link is keyed when either end requires it. -/
def State.handshake (s : State) (p : PortNo) (b : Beacon) : State :=
  let x := s.port p
  if b.major ≠ 1 then
    ((s.reportPort p 0x0402 .operation [1, b.major.toNat]).quarantine p).modPort p (fun x => { x with verMismatch := true })
  else
    let s1 := s.setPort p { x with minor := if b.minor = 0 then 0 else 1 }
    if x.encReq ∨ b.encReq then s1.modPort p (fun x => { x with mode := .keying }) else s1.enterUp p false

/-- HELLO (R331, R332): the peer's beacon; in HANDSHAKE the versions are compared. A flit with a wrong lcrc is discarded. -/
def execHello (p : PortNo) (flit : List Byte) (s : State) : Host.Outcome State Fault Refusal :=
  .next (s.flitPass p .hello flit (fun s =>
    let b := beaconOf (flitBody flit)
    let s1 := s.modPort p (fun x => { x with peer := some b })
    if (s.port p).mode = .handshake then s1.handshake p b else s1))

/-- HELLO_SEND (R331): every 1 µs in HANDSHAKE, every 1 ms in every later state. -/
def execHelloSend (p : PortNo) (s : State) : Host.Outcome State Fault Refusal :=
  .next (if (s.port p).linked then s.sendOrDue p .hello else s)

/-- LIGHT_DETECT (R330): light on all four lanes starts TRAINING; a Haros port only (R318). -/
def execLightDetect (p : PortNo) (s : State) : Host.Outcome State Fault Refusal :=
  .next (if p.val < 30 ∧ (s.port p).mode = .down ∧ (s.port p).enable ∧ !(s.port p).retrying then
      s.modPort p (fun x => { x with mode := .training })
    else s)

/-- TRAINING_COMPLETE (R330): codeword lock and lane deskew. -/
def execTrainingComplete (p : PortNo) (s : State) : Host.Outcome State Fault Refusal :=
  .next (if (s.port p).mode = .training then s.modPort p (fun x => { x with mode := .handshake, peer := none }) else s)

/-- TRAINING_TIMEOUT (R330): after 50 ms the port returns to DOWN. -/
def execTrainingTimeout (p : PortNo) (s : State) : Host.Outcome State Fault Refusal :=
  .next (if (s.port p).mode = .training then (s.leavePort p .down).modPort p (fun x => { x with retrying := true }) else s)

/-- TRAINING_RETRY (R330): 100 ms later it tries again. -/
def execTrainingRetry (p : PortNo) (s : State) : Host.Outcome State Fault Refusal :=
  .next (if (s.port p).mode = .down ∧ (s.port p).retrying then s.modPort p (fun x => { x with mode := .training, retrying := false }) else s)

/-- HANDSHAKE_TIMEOUT (R330): no HELLO within 1 ms gives DOWN. -/
def execHandshakeTimeout (p : PortNo) (s : State) : Host.Outcome State Fault Refusal :=
  .next (if (s.port p).mode = .handshake then s.leavePort p .down else s)

/-- R477, R478: a port's session is open. -/
def State.openLinkSession (s : State) (p : PortNo) : State :=
  { s with sec := { s.sec with sessions := (s.sec.sessions.filter (fun x => decide (x.path ≠ .link p))) ++ [⟨.link p, 0, true, 0, s.now⟩] } }

/-- KEYING_COMPLETE (R330, R477): both ends hold the keys of key phase 0. -/
def execKeyingComplete (p : PortNo) (s : State) : Host.Outcome State Fault Refusal :=
  .next (if (s.port p).mode = .keying then (s.enterUp p true).openLinkSession p else s)

/-- KEYING_TIMEOUT (R330): after 1 s, LINK_AUTH and QUARANTINE. -/
def execKeyingTimeout (p : PortNo) (s : State) : Host.Outcome State Fault Refusal :=
  .next (if (s.port p).mode = .keying then (s.reportPort p 0x0408 .operation []).quarantine p else s)

/-- PORT_LOSS (R321, R340): signal, alignment or codeword rate is lost. -/
def execPortLoss (p : PortNo) (s : State) : Host.Outcome State Fault Refusal :=
  .next (if (s.port p).mode = .disabled ∨ (s.port p).mode = .down then s else s.leavePort p .down)

/-- PORT_RETRAIN (R330, R340): the link goes DOWN and trains again. -/
def State.retrain (s : State) (p : PortNo) : State := if (s.port p).mode = .disabled then s else s.leavePort p .down

/-- FAB_PORT_ERR cleared. -/
def State.clearPortErr (s : State) (p : PortNo) : State := s.modPort p (fun x => { x with fecCorr := 0, fecUncorr := 0, replays := 0 })

/-- PORT_ENABLE (R330): a write of FAB_PORT_CTRL. -/
def execPortEnable (p : PortNo) (v : W32) (s : State) : Host.Outcome State Fault Refusal :=
  .next (
    let n := v.toNat
    let s1 := s.modPort p (fun x => { x with enable := bitOf n 0, encReq := bitOf n 1, loopback := bitOf n 3 })
    let s2 := if !bitOf n 0 then (if (s1.port p).mode = .disabled then s1 else s1.leavePort p .disabled)
      else if (s1.port p).mode = .disabled then s1.modPort p (fun x => { x with mode := .down }) else s1
    let s3 := if bitOf n 2 then s2.retrain p else s2
    if bitOf n 5 then s3.clearPortErr p else s3)

/-- PORT_RETRAIN (R340). -/
def execPortRetrain (p : PortNo) (s : State) : Host.Outcome State Fault Refusal := .next (s.retrain p)

/-- PORT_CLEAR_ERRORS (R330). -/
def execPortClearErrors (p : PortNo) (s : State) : Host.Outcome State Fault Refusal := .next (s.clearPortErr p)

/-! Messages (R335 to R337, R375, R447) -/

/-- CHUNK_RECEIVE (R337): a chunk record is verified, and delivered or reported bad. -/
def execChunkReceive (p : PortNo) (body : List Byte) (s : State) : Host.Outcome State Fault Refusal := .next (s.acceptChunk p body)

/-- CHUNK_REPORT (R337): a good or bad report reaches the sender. -/
def execChunkReport (p : PortNo) (id : W32) (chunk : Nat) (good : Bool) (s : State) : Host.Outcome State Fault Refusal :=
  .next (s.chunkReported p id chunk good)

/-- DEPART_MESSAGE (R447): the peer's depart notice: the port leaves UP. -/
def execDepartMessage (p : PortNo) (s : State) : Host.Outcome State Fault Refusal :=
  .next (if (s.port p).mode = .up then s.leavePort p .down else s)

/-- The records of a whole message, one after another. -/
def State.acceptMessage (s : State) (p : PortNo) (mtype : Nat) (body : List Byte) : State :=
  if leField body 0 1 = 1 ∧ leField body 2 1 = mtype then (s.acceptRecords p body (body.length + 1)).1 else s

/-- COLL_MESSAGE (R375): a collective data message arrives: its header with its lead block, then its chunks. -/
def execCollMessage (p : PortNo) (body : List Byte) (s : State) : Host.Outcome State Fault Refusal := .next (s.acceptMessage p 2 body)

/-- COUNT_MESSAGE (R375): a count message arrives. -/
def execCountMessage (p : PortNo) (body : List Byte) (s : State) : Host.Outcome State Fault Refusal := .next (s.acceptMessage p 3 body)

end Sys2Proof.Machine
end

