-- ==== Sys2Proof/Machine/Time.lean ====
section
/-! DEFINITION. Global time between modules: the time PLL, holdover, the exchange of TIME flits and the time root (R40 to R43,
R342 to R344). Times are in sixteenths of a tick where the flits carry them so. -/

namespace Sys2Proof.Machine

/-- Changes the clocks. -/
def State.modClock (s : State) (f : ClockState → ClockState) : State := { s with clock := f s.clock }

/-- TIME_PLL_LOCK (R40): the time PLL has locked; global time counts in every module state except OFF. -/
def execTimePllLock (s : State) : Host.Outcome State Fault Refusal :=
  .next (if s.modu.state = .off ∧ !s.plug.standbyRails then s else s.modClock (fun c => { c with timeLock := true }))

/-- HOLDOVER_ENTRY (R42): no valid time message for 10 ms. The root itself waits for none (R343). -/
def execHoldoverEntry (s : State) : Host.Outcome State Fault Refusal :=
  .next (if s.link.time.isRoot ∨ s.clock.holdover ∨ s.now < s.link.time.lastValid.toNat + 10 * msTicks then s
    else (s.modClock (fun c => { c with synced := false, holdover := true, syncLost := true })).modTime (fun t => { t with good := 0 }))

/-- SYNC_REQ_SEND (R342): a request on the parent port. -/
def execSyncReqSend (s : State) : Host.Outcome State Fault Refusal :=
  .next (match s.link.time.parent with
    | none => s
    | some p => if (s.port p).mode ≠ .up then s else s.sendOrDue p .syncReq)

/-- R322, R323, R333, R334, R342: a TIME flit of a kind on an UP port; its body goes on. -/
def State.withTime (s : State) (p : PortNo) (kind : Nat) (f : TimeMsg) (k : State → List Byte → State) : State :=
  s.flitPass p .time f.flit (fun s =>
    if (s.port p).mode = .up ∧ leField (flitBody f.flit) 0 1 = kind then s.authPass p f.flit (fun s => k s (flitBody f.flit)) else s)

/-- SYNC_REQ (R342): answered with t1 and corr_req copied, t2 stamped on arrival and t3 on departure. -/
def execSyncReq (p : PortNo) (f : TimeMsg) (s : State) : Host.Outcome State Fault Refusal :=
  .next (s.withTime p 0 f (fun s b => s.sendOrDue p (.syncResp b s.clock.time f.frac)))

/-- R342: twice the offset θ, in sixteenths of a tick: 2θ = 2(t2 − t1 − corr_req) − 2δ with
2δ = (t4 − t1) − (t3 − t2) − corr_req − corr_resp. -/
def twiceOffset (b : List Byte) (t4 : Int) : Int :=
  let t (at_ fr : Nat) : Int := (16 * leField b at_ 8 + leField b fr 1 % 16 : Nat)
  let t1 := t 16 40
  let t2 := t 24 41
  let t3 := t 32 42
  let cq := signedOf 64 (leField b 48 8)
  let cr := signedOf 64 (leField b 56 8)
  2 * (t2 - t1 - cq) - ((t4 - t1) - (t3 - t2) - cq - cr)

/-- A signed number as an 8-bit field, saturating. -/
def sat8 (v : Int) : Byte := BitVec.ofInt 8 (max (-128) (min 127 v))

/-- R41, R342: the rate adjustment chosen, in 0.01 ppm: the full ±200 ppm while an offset above 1 ms is closed, else within
it (a free value, log 1). -/
def State.slewRate (s : State) (full : Bool) (o : Int) : W16 :=
  if full then BitVec.ofInt 16 (if 0 ≤ o then 20000 else -20000)
  else BitVec.ofInt 16 (((Config.freeNat (s.draws + 1) % 40001 : Nat) : Int) - 20000)

/-- R41, R42, R344: acts on an offset; `o` is twice θ in sixteenths of a tick, 5/192 ns. -/
def State.takeOffset (s : State) (p : PortNo) (o : Int) : State :=
  let t := s.link.time
  let bring := decide (s.modu.state = .bringup)
  let big := decide (1000000 * 192 < 5 * o.natAbs)
  let near := decide (5 * o.natAbs ≤ 192)
  let step : Nat := if bring ∧ !s.clock.forwardUsed then (max 0 (s.roundFree o 32)).toNat else 0
  let closing := !bring && (big || (t.closing && !near))
  let good := if near then min 8 (t.good + 1) else 0
  let s1 := s.modClock (fun c => { c with
    time := c.time + BitVec.ofNat 64 step, forwardUsed := true, holdover := false, offsetNs := sat8 (({ s with draws := s.draws + 2 } : State).roundFree (5 * o) 192),
    rateAdj := s.slewRate closing o, synced := decide (8 ≤ good) && decide (t.hops.toNat ≤ 6) })
  let split := t.newParent && big && !bring
  let s2 := (s1.modTime (fun t => { t with good := good, newParent := false, closing := closing, split := t.split || split, request := none,
                                           lastValid := s1.clock.time }))
  let s3 : State := { s2 with draws := s2.draws + 3 }
  if split then s3.reportPort p 0x040A .operation [] else s3

/-- SYNC_RESP (R342): the response to the request in flight on the parent port. -/
def execSyncResp (p : PortNo) (f : TimeMsg) (s : State) : Host.Outcome State Fault Refusal :=
  .next (s.withTime p 1 f (fun s b =>
    let t := s.link.time
    if t.parent = some p ∧ t.request = some (BitVec.ofNat 16 (leField b 12 2)) then
      s.takeOffset p (twiceOffset b (16 * s.now + f.frac.toNat : Nat))
    else s))

/-- ANNOUNCE_SEND (R343): an announcement on every UP Haros port. -/
def execAnnounceSend (s : State) : Host.Outcome State Fault Refusal :=
  .next (((List.range 30).map portOf).foldl (fun t p =>
    if (t.port p).mode = .up then t.sendOrDue p .announce else t) s)

/-- ANNOUNCE (R343, R358): an announcement heard on a port that is UP and not held; the root is chosen anew. -/
def execAnnounce (p : PortNo) (f : TimeMsg) (s : State) : Host.Outcome State Fault Refusal :=
  .next (s.withTime p 2 f (fun s b =>
    if (s.port p).held then s
    else
      (s.modPort p (fun x => { x with heard := some ⟨BitVec.ofNat 8 (leField b 2 1), BitVec.ofNat 64 (leField b 4 8),
        BitVec.ofNat 8 (leField b 1 1), s.clock.time⟩ })).chooseRoot))

/-- ANNOUNCE_EXPIRY (R343): an announcement older than 10 ms is forgotten. -/
def execAnnounceExpiry (p : PortNo) (s : State) : Host.Outcome State Fault Refusal :=
  .next (match (s.port p).heard with
    | none => s
    | some a => if s.now ≤ a.time.toNat + 10 * msTicks then s
      else (s.modPort p (fun x => { x with heard := none })).chooseRoot)

end Sys2Proof.Machine
end

