-- ==== Sys2Proof/Machine/ModuleOps.lean ====
section
/-! DEFINITION. Operations of the module and of whole partitions: states and their events (R407, R496, R502), what a reset of
the host interface does (R408), shares that join and leave (R364, R365), FAULTED (R465), the main domain going off (R501,
R505). -/

namespace Sys2Proof.Machine

/-! States -/

/-- R496: the value of a module state. -/
def ModState.num : ModState → Nat
  | .off => 0 | .standby => 1 | .bringup => 2 | .ready => 3 | .active => 4 | .quiescing => 5 | .safeRemove => 6 | .faulted => 7

/-- R502: the value of a partition state. -/
def PartMode.num : PartMode → Nat
  | .idle => 0 | .running => 1 | .draining => 2 | .resetting => 3 | .unformed => 0xFF

/-- Changes the module's state record. -/
def State.modModu (s : State) (f : ModuleState → ModuleState) : State := { s with modu := f s.modu }

/-- R407, R428, R496: the module changes state. -/
def State.setModState (s : State) (m : ModState) : State :=
  if s.modu.state = m then s
  else
    let s1 := s.modModu (fun u => { u with state := m })
    let s2 := s1.modHost (fun h => { h with irq := { h.irq with statePending := true } })
    let s3 := if s.host.irq.stateEn then s2.raiseVector 0 s.host.irq.stateVec.toNat else s2
    s3.notify 0x2000 0 [BitVec.ofNat 8 m.num]

/-- R496: READY and ACTIVE follow whether a partition is RUNNING. -/
def State.autoState (s : State) : State :=
  let run := allParts.any (fun p => decide ((s.part p).mode = .running))
  if s.modu.state = .ready ∧ run then s.setModState .active
  else if s.modu.state = .active ∧ !run then s.setModState .ready else s

/-- R407, R502: a partition changes state. -/
def State.setPartMode (s : State) (p : PartNo) (m : PartMode) : State :=
  if (s.part p).mode = m then s else (((s.modPart p (fun x => { x with mode := m })).partitionEvent p)).autoState

/-- R432: the main domain is powered. -/
def State.mainOn (s : State) : Bool := s.plug.mainOn

/-! Cores, rings, multicast sets of a partition -/

/-- R71: halts the cores that run. -/
def State.haltCores (s : State) (ns : List CoreNo) : State :=
  ns.foldl (fun t n => if (t.core n).mode = .running then t.haltCore n else t) s

/-- R72: soft-resets cores at once. -/
def State.resetCores (s : State) (ns : List CoreNo) : State := ns.foldl (fun t n => t.forceReset n) s

/-- The rings of a partition. -/
def State.ringsOf (s : State) (p : PartNo) : List (Fin 16) := (List.finRange 16).filter (fun n => decide ((s.ring n).owner = p))

/-- R194: stops rings that run or are broken. -/
def State.stopRings (s : State) (ns : List (Fin 16)) : State :=
  ns.foldl (fun t n => if (t.ring n).mode = .running ∨ (t.ring n).mode = .broken then (t.stopRing n).modRing n (fun r => { r with mode := .stopping }) else t) s

/-- R504: disarms the multicast sets of a partition. -/
def State.disarmPart (s : State) (p : PartNo) : State :=
  let one (e : Nat × McastSet) : Nat × McastSet :=
    let m : MDie := ⟨e.1 / 16 % 4, Nat.mod_lt _ (by decide)⟩
    if (List.range 32).any (fun i => e.2.members.getLsbD i && decide (s.partOfCore (mcastCore m i) = some p)) then (e.1, e.2.disarmed) else e
  s.modLink (fun l => { l with mcast := (l.mcast.map one).filter (fun e => decide (e.2 ≠ McastSet.reset)) })

/-! The dictionary store (R417, R418) -/

/-- R418: an entry of the store, by its key. -/
def storedKey (k : Nat) : Bool :=
  match dictRow (k / 256) (k % 256) with
  | some r => dictPersisted r
  | none => false

/-- R413, R417, R418: the RWP entries take the values of an image, and the other entries stay as they are. -/
def State.takeImage (s : State) (image : Tab (Option Nat)) : State :=
  { s with dict := image.foldl (fun (d : Tab (Option Nat)) e => Tab.set none d e.1 e.2) (Tab.keep (fun k _ => !storedKey k) s.dict) }

/-- R418: the stored value of an entry, or its default. -/
def State.storedVal (s : State) (idx sub : Nat) : Nat :=
  match Tab.get none s.ward.store (dictKey idx sub) with
  | some v => v
  | none => match dictRow idx sub with
    | some r => r.dflt
    | none => 0

/-- R408, R426: a channel is cleared; the answer of a request in service is discarded. -/
def State.clearMailbox (s : State) (ch : Fin 2) : State :=
  let cut (w : CommitWrite) : CommitWrite := if w.path = some (.mailbox ch) then { w with path := none } else w
  { s with ward := { s.ward with mailboxes := s.ward.mailboxes.set ch.val Mailbox.reset, commitNow := s.ward.commitNow.map cut,
                                 commitNext := s.ward.commitNext.map cut } }

/-! Resets of the host interface (R408) -/

/-- R406, R408: a partition's slots become EMPTY and keep their generation. -/
def State.clearSlots (s : State) (p : PartNo) : State :=
  s.modHost (fun h => { h with slots := Tab.mapVals Slot.reset (fun x => x) ((h.slots.map (fun e =>
    if e.1 / 4096 = p.val then (e.1, { Slot.reset with gen := e.2.gen }) else e))) })

/-- R408: orders of functions: those not started are discarded, those started run to their end with nothing written. -/
def State.silenceOrders (s : State) (q : Order → Bool) : State :=
  s.modHost (fun h => { h with orders := (h.orders.filter (fun o => !q o || o.started)).map (fun o => if q o then { o with silent := true } else o) })

/-- R408: a function-level reset of VF `f`, bound to partition `p`. -/
def State.resetVf (s : State) (f : Nat) (p : Option PartNo) : State :=
  let s1 := s.modHost (fun h => { h with
    sqs := Tab.mapVals SQ.reset (fun q => if q.function.toNat = f then { q with enable := false } else q) h.sqs,
    cqs := Tab.mapVals CQ.reset (fun c => if c.function.toNat = f then { c with enable := false, held := [], unsignalled := 0 } else c) h.cqs,
    msixUnmasked := h.msixUnmasked.clearRange (4096 * f) 4096, msixPending := h.msixPending.clearRange (4096 * f) 4096,
    msixMsg := h.msixMsg.clearRange (4096 * f) 4096 })
  let s2 := s1.silenceOrders (fun o => decide (o.function = f))
  match p with
  | none => s2
  | some p => (s2.clearSlots p).modHost (fun h => { h with windows := h.windows.set p.val PartWindow.reset })

/-- R408: a reset of the PF's side: every queue, its registers, every slot. -/
def State.resetHost (s : State) : State :=
  let s1 := s.silenceOrders (fun _ => true)
  let s2 := allParts.foldl (fun t p => t.clearSlots p) s1
  let f (h : HostState) : HostState :=
    { h with sqs := [], cqs := [], waiting := [], msixUnmasked := [], msixPending := [], msixMsg := [], windows := Vector.replicate 8 PartWindow.reset, bar2Base := 0,
             irq := IrqCfg.reset }
  (s2.clearMailbox 0).modHost f

/-- The partition a VF is bound to. -/
def State.vfPart (s : State) (f : Nat) : Option PartNo := if s.dictVal 0x5200 f < 8 then some (partOf (s.dictVal 0x5200 f)) else none

/-- R392: the VF of a partition is disabled. -/
def State.disableVf (s : State) (p : PartNo) : State :=
  match s.vfOf p with
  | none => s
  | some f => (s.resetVf f (some p)).modHost (fun h => { h with vfEnabled := h.vfEnabled &&& ~~~(BitVec.ofNat 8 (2 ^ (f - 1))) })

/-! Shares (R364, R365, R480) -/

/-- A key of a table lies in a stretch of one of the shares of a tier: `unit` bytes a key. -/
def inShares (ds : List CDie) (tier unit : Nat) (k : Nat) : Bool :=
  ds.any (fun c => decide (shareBase tier c * 65536 ≤ k * unit) && decide (k * unit < (shareBase tier c + shareStep tier) * 65536))

/-- R364 step 3: zeroes the HBM shares of dies, their poison marks cleared. -/
def State.zeroShares (s : State) (ds : List CDie) : State :=
  s.modMem (fun m => { m with cells := m.cells.filter (fun e => !inShares ds 0 1 e.1), poison := m.poison.filter (fun e => !inShares ds 0 64 e.1),
                              latent := m.latent.filter (fun e => !inShares ds 0 64 e.1) })

/-- Every byte of a die's share of a tier reads as a free value from now on (log 1; one number for every address of the 48-bit
range). -/
def State.loseBytes (s : State) (tier : Nat) (c : CDie) : State :=
  let a := 65536 * shareBase tier c
  let n := 65536 * shareFrames s.variant tier
  { s.modMem (fun m => { m with cells := m.cells.fillWith a n (fun i => Config.freeByte (s.draws + i)) }) with draws := s.draws + 2 ^ 48 }

/-- R480: board memory and flash that join hold ciphertext under a destroyed key. -/
def State.scrambleShares (s : State) (ds : List CDie) : State := ds.foldl (fun t c => (t.loseBytes 1 c).loseBytes 2 c) s

/-- R216, R364: the frames of shares that join are FREE, but for those RETIRED. -/
def State.freeShares (s : State) (ds : List CDie) : State :=
  let hit (f : Nat) : Bool := decide ((tierOfFrame f).isSome) && decide (dieOfFrame f ∈ ds) && decide ((s.frame f).state ≠ 3)
  let t := s.modMem (fun m => { m with
    frames := m.frames.filter (fun e => !hit e.1), retireAt := m.retireAt.filter (fun e => !hit e.1),
    free := m.free.filter (fun e => !ds.any (fun c => decide (e.1 % 8 = c.val))) })
  ds.foldl (fun t c => [0, 1, 2].foldl (fun (t : State) i => t.imageTable i c) t) t

/-- The leaves of the tables below a root: where each entry lies, and the entry. -/
def State.leaves (s : State) (root : Nat) : List (Nat × Nat) :=
  let x := FX.fresh s 0 true
  (x.tableEnts root).flatMap (fun e1 => (x.tableEnts (nextTable e1.2)).flatMap (fun e2 =>
    (x.tableEnts (nextTable e2.2)).map (fun e3 => (nextTable e2.2 + 8 * e3.1, e3.2))))

/-- R211, R365: the leaves of a partition's device-virtual space and of its contexts. -/
def State.allLeaves (s : State) (p : PartNo) : List (Nat × Nat) :=
  let r := (Tab.get 0 s.mem.ptRoot (8 * (s.home p).val + p.val)).toNat
  (if bitOf r 0 then s.leaves (bits r 15 33 * 32768) else []) ++
  (s.liveCtxs p).flatMap (fun c => match s.ctxAddr (s.home p) c with
    | some a => s.leaves (s.mem.cells.getLE (a + 16) 8)
    | none => [])

/-- R365: poisons every entry of the partition that names a frame of a departing share, and counts them. -/
def State.poisonLeaves (s : State) (p : PartNo) (ds : List CDie) : State :=
  let es := (s.allLeaves p).filter (fun e => let f := bits e.2 16 32
                                             decide ((tierOfFrame f).isSome) && decide (dieOfFrame f ∈ ds))
  (es.foldl (fun t e => t.modMem (fun m => { m with cells := m.cells.setLE e.1 8 (e.2 ||| 16) })) s).modPart p
    (fun x => { x with poisonedEntries := BitVec.ofNat 32 es.length })

/-- R364, R365: binds or unbinds cores (CORE_ID). -/
def State.bindCores (s : State) (ns : List CoreNo) (p : Option PartNo) : State :=
  ns.foldl (fun t n => t.modCore n (fun c => { c with regs := match p with
    | some q => { c.regs with partition := BitVec.ofNat 3 q.val, partValid := true }
    | none => { c.regs with partValid := false } })) s

/-- The LIVE indexes of a partition. -/
def State.liveIndexes (s : State) (p : PartNo) : List Nat :=
  (List.range 255).filter (fun i => match s.ixAddr p i with
    | some a => decide (s.mem.cells.getLE (a + 2) 1 = 1) && decide (s.mem.cells.getLE (a + 5) 1 = p.val)
    | none => false)

/-- R365: a partition is dissolved: its cores reset and unbound, its dies in no partition, its VF disabled (R392), its key
destroyed (R479), its measurement 0 (R475) and its write-back pages discarded. -/
def State.dissolve (s : State) (p : PartNo) : State :=
  let ns := s.coresOf p
  let s1 := ((s.resetCores ns).bindCores ns none).disableVf p
  let s2 := (s1.modPart p (fun x => { x with dies := 0, forming := none, keyInstalled := false })).setPartMode p .unformed
  let s2 : State := { s2 with sec := { s2.sec with measure := Tab.set 0 s2.sec.measure (16 + p.val) 0 } }
  (s2.modRuling p (fun _ => Ruling.reset)).modMem (fun m => { m with
    wb := m.wb.filter (fun w => decide (w.part ≠ p)), moves := m.moves.filter (fun w => decide (w.part ≠ p)),
    waits := m.waits.filter (fun w => decide (w.part ≠ p)), walks := m.walks.filter (fun w => decide (w.part ≠ p)) })

/-! Leaving service -/

/-- R447, R465, R501: a depart notice on every UP Haros port; the ports are disabled. -/
def State.departAll (s : State) : State :=
  ((List.range 30).map portOf).foldl (fun t p =>
    let t1 := if (t.port p).mode = .up then t.emit (.depart p) else t
    ((if (t1.port p).mode = .disabled then t1 else t1.leavePort p .disabled)).modPort p (fun x => { x with enable := false })) s

/-- R465: the module enters FAULTED with a cause. -/
def State.enterFaulted (s : State) (cause : Nat) : State :=
  if s.modu.state = .faulted ∨ s.modu.state = .off then s
  else
    let s1 := ({ s with log := { s.log with faultCause := BitVec.ofNat 16 cause } } : State).report (moduleReport 0x0904 .module (u64s [cause]))
    let s2 := (s1.haltCores allCores).stopRings (List.finRange 16)
    let s3 := allParts.foldl (fun t p => t.abortFolios p) s2
    (s3.departAll).setModState .faulted

/-- R465: an uncorrectable error in firmware code that the rubric cores of every partition share takes the module to FAULTED. Where
that code lies is not given (Config.sharedCode, log 177). -/
def State.sharedCodeLost (s : State) (g : Nat) : State := if Config.sharedCode g then s.enterFaulted 0x0202 else s

/-- A core after the main domain went off: its SRAM is lost; a CUT core stays CUT (R366). -/
def Core.poweredOff (c : Core) : Core := { Core.reset with mode := if c.mode = .cut then .cut else .off }

/-- R501 step 5, R505: the main domain goes off. Memory, contexts, indexes, keys and every register of the main domain are
lost; global time, the dictionary, the error log, the port map (R359) and the retire lists (R463) stay. RWP entries read as stored (R413). -/
def State.mainOff (s : State) : State :=
  let s0 := allParts.foldl (fun t p => if (t.part p).mode = .unformed then t else t.dissolve p) s
  let s1 := ((s0.takeImage s0.ward.store).clearMailbox 0).clearMailbox 1
  { s1 with
    cores := s1.cores.map Core.poweredOff, rubric := Vector.replicate 24 Rubric.reset, mesh := MeshState.reset,
    mem := { MemState.reset with retireList := s1.mem.retireList }, fol := FolioState.reset,
    host := { HostState.reset with hostMem := s1.host.hostMem, hostPoison := s1.host.hostPoison,
                                   hostBad := s1.host.hostBad, nextOrder := s1.host.nextOrder },
    clock := { ClockState.reset with time := s1.clock.time, timeLock := s1.clock.timeLock, synced := false, holdover := s1.clock.holdover,
                                     syncLost := s1.clock.syncLost, rateAdj := s1.clock.rateAdj, offsetNs := s1.clock.offsetNs },
    dieMap := DieMap.reset,
    parts := s1.parts.map (fun x => { x with forming := none }),
    power := { PowerState.reset with pIn := s1.power.pIn, vIn := s1.power.vIn, inlet := s1.power.inlet, outlet := s1.power.outlet },
    plug := { s1.plug with mainOn := false },
    link := { LinkState.reset with map := s1.link.map, address := s1.link.address, boardSize := s1.link.boardSize, nextMsg := s1.link.nextMsg },
    sec := { s1.sec with sessions := s1.sec.sessions.filter (fun x => match x.path with
                           | .link _ => false
                           | .endToEnd _ => false
                           | .pcie _ => false
                           | .doe => false
                           | _ => true),
                         running := Tab.keep (fun k _ => decide (k = 1)) s1.sec.running },
    pmc := PmcState.reset }

end Sys2Proof.Machine
end

