-- ==== Sys2Proof/Machine/Counters.lean ====
section
/-! DEFINITION. The performance counters: freeze, snapshot, writes, and what they count as time passes (R486 to R495). -/

namespace Sys2Proof.Machine

/-- Changes the global counter block. -/
def State.modPmc (s : State) (f : PmcState → PmcState) : State := { s with pmc := f s.pmc }

/-- R491: every counter stops; a freeze of counters that stand frozen leaves the time of the freeze (DEDUCED, log 49). -/
def State.freeze (s : State) : State :=
  if s.pmc.frozen then s else s.modPmc (fun c => { c with frozen := true, freezeTime := s.clock.time })

/-- R491: every counter counts again. -/
def State.unfreeze (s : State) : State := s.modPmc (fun c => { c with frozen := false })

/-- R70: the number of a core state. -/
def CoreMode.num : CoreMode → Nat
  | .off => 0 | .idle => 1 | .running => 2 | .halted => 3 | .faulted => 4 | .cut => 5

/-- R486: a counter of a core. -/
def Core.counter (c : Core) (k : Nat) : Counter := Tab.get Counter.reset c.counters k

/-- R488: a counter of a die that was never programmed. -/
def Counter.dieReset : Counter := ⟨0, BitVec.ofNat 64 (selReset true), false⟩

/-- R486: a counter of a die. -/
def DieCounters.counter (d : DieCounters) (k : Nat) : Counter := Tab.get Counter.dieReset d.counters k

/-- R486: PMC_CORE_STATUS.sat. -/
def Core.satMask (c : Core) : Nat := sumNat ((List.range 8).map (fun k => flagAt (c.counter k).sat k))

/-- R493: the 128 bytes of a core in a snapshot record: zeros of a core that is OFF. -/
def Core.snapBytes (c : Core) : List Byte :=
  if c.mode = .off then List.replicate 128 0
  else leBytes 8 c.cycles.toNat ++ (List.range 8).flatMap (fun k => leBytes 8 (c.counter k).value.toNat) ++
    leBytes 1 c.satMask ++ leBytes 1 c.mode.num ++ List.replicate 54 0

/-- R493: the 128 bytes of a die in a snapshot record. -/
def DieCounters.snapBytes (d : DieCounters) : List Byte := (List.range 16).flatMap (fun k => leBytes 8 (d.counter k).value.toNat)

/-- R493: the snapshot record. -/
def State.snapRecord (s : State) (already : Bool) : List Byte :=
  leBytes 8 s.pmc.freezeTime.toNat ++ leBytes 4 (s.pmc.snapSeq + 1).toNat ++ leBytes 1 (flagAt already 0) ++ List.replicate 51 0 ++
  s.cores.toList.flatMap Core.snapBytes ++ s.pmc.dies.toList.flatMap DieCounters.snapBytes

/-- R45, R46, R212, R493: the first page of the record that cannot be written. -/
def State.snapFault (s : State) (a n : Nat) : Option PFault :=
  (pagePieces a n).findSome? (fun x => s.checkUa x.1 1 masterSnap)

/-- R493: writes the record and advances the sequence, or sets snap_err and leaves the counters frozen. No unit number of R458
names the snapshot unit: that field of the record is free (log 1). -/
def State.snapWrite (s : State) (already : Bool) : State :=
  let a := s.pmc.snapAddr.toNat
  match s.snapFault a 17216 with
  | some f => (s.draw.modPmc (fun c => { c with snapErr := true })).report
      ⟨0x0201, 0xFF, 0xFF, Config.freeNat s.draws % 65536, .operation, f.detail⟩
  | none =>
    let s1 := s.plainWrite (.engine masterSnap) (piecesOf a (s.snapRecord already) (fun _ => false))
    let s2 := s1.modPmc (fun c => { c with snapSeq := c.snapSeq + 1 })
    if s.pmc.resume ∧ !already then s2.unfreeze else s2

/-- R493: a snapshot; it completes within the command, so that snap_busy is never seen set (log 50). -/
def State.snapshot (s : State) : State := s.freeze.snapWrite s.pmc.frozen

/-- PMC_FREEZE (R491). -/
def execPmcFreeze (s : State) : Host.Outcome State Fault Refusal := .next (if s.mainOn then s.freeze else s)

/-- PMC_UNFREEZE (R491). -/
def execPmcUnfreeze (s : State) : Host.Outcome State Fault Refusal := .next (if s.mainOn then s.unfreeze else s)

/-- PMC_SNAPSHOT (R493). -/
def execPmcSnapshot (s : State) : Host.Outcome State Fault Refusal := .next (if s.mainOn then s.snapshot else s)

/-- R486, R492: software writes a counter: the value stands and its sat bit is clear. -/
def Counter.write (c : Counter) (v : W64) : Counter := { c with value := v.setWidth 48, sat := false }

/-- Changes a counter of a core; those of a core that is OFF have no power (R487). -/
def State.modCoreCounter (s : State) (n : CoreNo) (k : Nat) (f : Counter → Counter) : State :=
  s.modCore n (fun c => if c.mode = .off then c else { c with counters := Tab.set Counter.reset c.counters k (f (c.counter k)) })

/-- Changes the counters of a die. -/
def State.modDie (s : State) (d : Fin 6) (f : DieCounters → DieCounters) : State :=
  s.modPmc (fun c => { c with dies := c.dies.set d.val (f c.dies[d.val]) })

/-- Changes a counter of a die. -/
def State.modDieCounter (s : State) (d : Fin 6) (k : Nat) (f : Counter → Counter) : State :=
  s.modDie d (fun x => { x with counters := Tab.set Counter.dieReset x.counters k (f (x.counter k)) })

/-- PMC_COUNTER_WRITE (R486, R492): performed whether or not the counters are frozen. -/
def execPmcCounterWrite (c : CounterId) (v : W64) (s : State) : Host.Outcome State Fault Refusal :=
  .next (if !s.mainOn then s
    else match c with
      | .core n k => s.modCoreCounter n k.val (fun x => x.write v)
      | .die d k => s.modDieCounter d k.val (fun x => x.write v))

/-! Counts of time (R486 to R491, R495) -/

/-- R38, R40: the whole cycles of CCLK that fall in a tick: CCLK runs at three halves of a tick's rate, at five quarters at step 1,
at the same rate at step 2. How they fall is a free value (log 1). -/
def State.cclks (s : State) : Nat :=
  if s.clock.rootStep = 2 then Config.freeNat s.draws % 3 else 1 + Config.freeNat s.draws % 2

/-- R495: what an event of a core gains in a tick of `k` cycles of CCLK: what its state says for the cycles of a state or a wait; a
free part of them for the array's, stalls and ballast; any number for corrected errors and poison (log 15). `ring`: it waits on a
ready word of a ring (R196). -/
def Core.timedInc (c : Core) (k free : Nat) (ring : Bool) (ev : Nat) : Nat :=
  let on (b : Bool) (n : Nat) : Nat := if b then n else 0
  let run := decide (c.mode = .running)
  match ev with
  | 0x01 => on run k
  | 0x02 => on (decide (c.phase = .compute)) k
  | 0x03 => on (decide (c.phase = .transfer)) k
  | 0x04 => on (decide (c.phase = .turn)) k
  | 0x05 => on c.flags.tokenWait k
  | 0x0C => on c.flags.rotStall k
  | 0x06 | 0x09 | 0x0A | 0x12 => on run (free % (k + 1))
  | 0x15 => on ring k
  | 0x16 => on (match c.wait with
      | some (.take ..) => true
      | some (.ccount ..) => true
      | _ => false) k
  | 0x18 | 0x1E => free % (k + 1)
  | 0x1A => free
  | _ => 0

/-- R196, R495: a core waits on an address in the ready word of a landing record of a RUNNING ring of its partition. -/
def State.ringWaits (s : State) (n : CoreNo) : Bool :=
  match (s.core n).wait with
  | some (.flag addr _ _) => (List.finRange 16).any (fun r =>
      decide ((s.ring r).mode = .running) && decide ((s.ring r).owner = (s.core n).part) &&
      (List.range (s.ring r).count).any (fun k => match s.landRec (s.ring r) k with
        | .ok b => decide (leField b 24 8 ≤ addr) && decide (addr < leField b 24 8 + 8)
        | .error _ => false))
  | _ => false

/-- R487: a tick of `k` cycles of CCLK at a core: its cycle counter counts while the core is neither OFF nor CUT. -/
def Core.countTick (c : Core) (k : Nat) (ring : Bool) (free : Nat → Nat) : Core :=
  if c.mode = .off ∨ c.mode = .cut then c
  else { c with
    cycles := c.cycles + BitVec.ofNat 64 k,
    counters := c.counters.map (fun e =>
      let ev := bits e.2.sel.toNat 0 8
      if coreSelects e.2.sel.toNat c.priv.toNat ev then (e.1, e.2.add (c.timedInc k (free e.1) ring ev)) else e) }

/-- R495: the events of a die whose number the rules do not give: bytes and pages that pass, codewords
corrected or lost, chunks held for a landing credit. They count a free number in a tick (log 123). -/
def dieTimed (d : Nat) : List Nat :=
  if d < 4 then [0x01, 0x02, 0x03, 0x04, 0x05, 0x06, 0x22] else [0x05, 0x06, 0x0D, 0x0E, 0x16]

/-- A tick at the counters of a die. -/
def DieCounters.countTick (x : DieCounters) (d : Nat) (free : Nat → Nat) : DieCounters :=
  { x with counters := x.counters.map (fun e =>
      let sel := e.2.sel.toNat
      if bitOf sel 8 ∧ bits sel 9 3 ≠ 0 ∧ bits sel 0 8 ∈ dieTimed d then (e.1, e.2.add (free e.1)) else e) }

/-- The free numbers that a tick takes. -/
def tickDraws : Nat := 2048

/-- The ports after a tick. -/
def State.tickPorts (s : State) : Vector Port 32 :=
  Vector.ofFn (fun p => (s.port p).fecTick (Config.freeNat (s.draws + 1 + 2 * p.val)) (Config.freeNat (s.draws + 2 + 2 * p.val)))

/-- The cores after a tick. -/
def State.tickCores (s : State) : Vector Core 128 :=
  Vector.ofFn (fun n => (s.core n).countTick s.cclks (s.ringWaits n) (fun i => Config.freeNat (s.draws + 256 + 8 * n.val + i)))

/-- The dies' counters after a tick. -/
def State.tickDies (s : State) : Vector DieCounters 6 :=
  Vector.ofFn (fun x => s.pmc.dies[x.val].countTick x.val (fun i => Config.freeNat (s.draws + 128 + 16 * x.val + i)))

/-- A tick at every counter (logs 15, 123): the codewords of the ports, and, unless the counters stand frozen (R491), those of the
cores and dies. -/
def State.countTick (s : State) : State :=
  if !s.mainOn then s
  else { s with
    draws := s.draws + tickDraws, link := { s.link with ports := s.tickPorts },
    cores := if s.pmc.frozen then s.cores else s.tickCores,
    pmc := if s.pmc.frozen then s.pmc else { s.pmc with dies := s.tickDies } }

end Sys2Proof.Machine
end

