-- ==== Sys2Proof/Machine/Memory.lean ====
section
/-! DEFINITION. The commands of unified memory: MEMORY orders (R402), COPY (R403), RUNTIME (R404), the ruling (R227 to R231),
migrations (R220), frames that return (R217, R224) and flash programs (R309). -/

namespace Sys2Proof.Machine

/-! MEMORY orders (R402) -/

/-- Takes up and runs the k-th order when it is a MEMORY order of this op. -/
def State.memoryOrder (s : State) (k op : Nat) : State :=
  match s.readyOrder k 5 (BitVec.ofNat 8 op) with
  | none => s
  | some o => (s.beginOrder o.id).runOrWait 5 ⟨o.part, o.block, .order { o with started := true }⟩ false |>.retryFreed s

/-- R402 MAP. -/
def execMemoryMap (k : Nat) (s : State) : Host.Outcome State Fault Refusal := .next (s.memoryOrder k 1)

/-- R402 UNMAP. -/
def execMemoryUnmap (k : Nat) (s : State) : Host.Outcome State Fault Refusal := .next (s.memoryOrder k 2)

/-- R402 MIGRATE. -/
def execMemoryMigrate (k : Nat) (s : State) : Host.Outcome State Fault Refusal := .next (s.memoryOrder k 3)

/-- R402 PIN. -/
def execMemoryPin (k : Nat) (s : State) : Host.Outcome State Fault Refusal := .next (s.memoryOrder k 4)

/-- R402 UNPIN. -/
def execMemoryUnpin (k : Nat) (s : State) : Host.Outcome State Fault Refusal := .next (s.memoryOrder k 5)

/-- R402 ALIAS. -/
def execMemoryAlias (k : Nat) (s : State) : Host.Outcome State Fault Refusal := .next (s.memoryOrder k 6)

/-! COPY (R403) -/

/-- R400, R403: a COPY block that is well formed. -/
def copyFormOk (b : List Byte) : Bool :=
  decide (leField b 0 2 = 0x0171) && decide (leField b 2 1 < 2) && decide (leField b 3 1 < 4) && zeroFrom b 6 2 &&
  decide (leField b 8 8 % 64 = 0) && decide (leField b 16 8 % 64 = 0) && decide (leField b 24 4 % 64 = 0) &&
  decide (64 ≤ leField b 24 4) && decide (leField b 24 4 ≤ 16777216) && zeroFrom b 28 4 && zeroFrom b 40 24

/-- The device side of a COPY at an offset. -/
def State.copyReq (s : State) (j : Job) (off access : Nat) : WalkReq :=
  let sp := bitOf (j.fld 3 1) 0
  ⟨j.part, if sp then 1 else 0, if sp then j.fld 4 2 else 0, j.fld 16 8 + off, access, masterDma, .plain, s.home j.part⟩

/-- The pieces of a COPY: offset and length of each part that lies in one page. -/
def copyPieces (addr n : Nat) : List (Nat × Nat) :=
  ((pagePieces addr n).foldl (fun (a : List (Nat × Nat) × Nat) p => (a.1 ++ [(a.2, p.2)], a.2 + p.2)) ([], 0)).1

/-- How a COPY has come along: the state, its folio if it joins one, the bytes moved, its failure, the first device address
whose poison was sent. -/
structure CopyRun where
  s : State
  fx : Option FX
  moved : Nat
  fail : Option Done
  bad : Option Nat

/-- The state of a run, its folio put back. -/
def CopyRun.state (c : CopyRun) : State :=
  match c.fx with
  | some x => x.back
  | none => c.s

/-- R403: a host to device piece. -/
def CopyRun.down (j : Job) (o : Nat) (c : CopyRun) (p : Nat × Nat) : CopyRun :=
  if c.fail.isSome then c
  else
    let t := c.state
    let host := j.fld 8 8 + p.1
    let n := ((List.range (p.2 / 64)).takeWhile (fun i => !hostMarked t.host.hostBad (host + 64 * i) 64)).length * 64
    match t.translateAll (t.copyReq j p.1 1) (pagePieces (j.fld 16 8 + p.1) n) with
    | .error e => { c with fail := some { Done.of 0x0201 with detail := e.detail },
                           s := c.s.pfRecord j.part e,
                           fx := c.fx.map (fun x => { x with s := x.s.pfRecord j.part e }) }
    | .ok ts =>
      let ps := transPieces ts (t.hostRead host n) (fun i => hostMarked t.host.hostPoison (host + 64 * i) 64)
      let f := if n < p.2 then some (Done.of 0x0506) else none
      match c.fx with
      | some x => { c with fx := some (if x.f.mode = .doomed then x else x.write true ps), moved := c.moved + n, fail := f }
      | none => { c with s := c.s.plainWrite (.copy o) ps, moved := c.moved + n, fail := f }

/-- R403, R236: a device to host piece; poisoned granules go as poisoned TLPs. -/
def CopyRun.up (j : Job) (c : CopyRun) (p : Nat × Nat) : CopyRun :=
  if c.fail.isSome then c
  else
    let host := j.fld 8 8 + p.1
    match c.s.translateAll (c.s.copyReq j p.1 0) (pagePieces (j.fld 16 8 + p.1) p.2) with
    | .error e => { c with fail := some { Done.of 0x0201 with detail := e.detail }, s := c.s.pfRecord j.part e }
    | .ok ts =>
      let t := ts.foldl (fun (t : State) x => t.touch 0 (some j.part) x.1.ua x.2) c.s
      let gs := (ts.flatMap (fun x => gransOf x.1.ua x.2)).map (fun g => (t.gran .plain g).poison)
      let bs := (t.readTrans .plain ts).1
      let first := (List.range (p.2 / 64)).find? (fun i => gs.getD i false)
      { c with s := t.hostWrite host bs (fun i => gs.getD i false), moved := c.moved + p.2,
               bad := c.bad.orElse (fun _ => first.map (fun i => j.fld 16 8 + p.1 + 64 * i)) }

/-- R245, R403: runs a COPY; it stays under way while a write of it waits on intent. Its writes to a folio that was DOOMED before
are dropped without a fault. -/
def State.runCopy (s : State) (j : Job) (o : Nat) : State :=
  let up := decide (j.fld 2 1 = 1)
  let h : W64 := BitVec.ofNat 64 (j.fld 32 8)
  let join := bitOf (j.fld 3 1) 1 && !up
  let id := handleSlot h
  let mode := (s.slot id).mode
  if join ∧ !(s.named j.part h && (decide (mode = .opened) || decide (mode = .doomed))) then s.endJob j (Done.of 0x0306)
  else
    let c0 : CopyRun := ⟨s, if join then some (FX.ofSlot s id) else none, 0, none, none⟩
    let ps := copyPieces (j.fld 16 8) (j.fld 24 4)
    let c := ps.foldl (fun a p => if up then a.up j p else a.down j o p) c0
    let t : State := match c.fx with
      | some x => x.done
      | none => c.s
    let inf : W32 := BitVec.ofNat 32 c.moved
    match c.fail, c.bad with
    | some d, _ => t.endJob j { d with info := inf }
    | none, some a => t.endJob j { Done.of 0x0205 with info := inf, detail := u64s [a] }
    | none, none =>
      let code : W16 := if join ∧ mode = .opened then (let f : Folio := t.slot id; if f.mode = .doomed then f.cause else 0) else 0
      if t.mem.held.any (fun w => decide (w.who = .copy o)) then t else t.endJob j { Done.of code.toNat with info := inf }

/-- R403: the k-th order, when it is a COPY: begun, or ended once its last write has been performed. -/
def execCopy (k : Nat) (s : State) : Host.Outcome State Fault Refusal :=
  .next (match s.host.orders[k]? with
    | none => s
    | some o =>
      if o.cls ≠ 6 then s
      else
        let j : Job := ⟨o.part, o.block, .order o⟩
        if o.started then
          if s.mem.held.any (fun w => decide (w.who = .copy o.id)) then s
          else s.endJob j { Done.of 0 with info := BitVec.ofNat 32 (j.fld 24 4) }
        else match s.readyOrder k 6 o.op with
          | none => s
          | some _ => (s.beginOrder o.id).runCopy j o.id)

/-! RUNTIME (R404) -/

/-- R404: a RUNTIME order places its message in its partition runtime's mailbox. -/
def execRuntime (k : Nat) (s : State) : Host.Outcome State Fault Refusal :=
  .next (match s.host.orders[k]? with
    | none => s
    | some o =>
      if o.cls ≠ 7 ∨ (s.readyOrder k 7 o.op).isNone then s
      else (s.beginOrder o.id).modHost (fun h =>
        { h with mailboxes := Tab.set [] h.mailboxes o.part.val (Tab.get [] h.mailboxes o.part.val ++ [(o.id, o.block)]) }))

/-- R404: the runtime replies to the i-th message of its mailbox. -/
def execRuntimeReply (p : PartNo) (i : Nat) (code : W16) (info : W32) (payload : List Byte) (s : State) :
    Host.Outcome State Fault Refusal :=
  .next (let box := Tab.get [] s.host.mailboxes p.val
    match box[i]? with
    | none => s
    | some m =>
      let s1 := s.modHost (fun h => { h with mailboxes := Tab.set [] h.mailboxes p.val (box.eraseIdx i) })
      match s1.orderById m.1 with
      | none => s1
      | some o => s1.endOrder o { Done.of code.toNat with info := info, payload := payload.take 1984 })

/-! The ruling (R227 to R231) -/

/-- R229, R281: the ruling home has read the current layer: entries whose layer has passed are named no longer, those within the
lookahead start, and pages are issued. -/
def State.pollLayer (s : State) (p : PartNo) (cur : W32) : State :=
  ((s.modRuling p (fun r => { r with resident := r.resident.filter (fun e => !serialAfter cur e.layer) })).startEntries p cur 65536).pump

/-- R229: the ruling home reads the current-layer word, starts what lies within the lookahead and issues pages. -/
def execRulingPoll (p : PartNo) (s : State) : Host.Outcome State Fault Refusal :=
  .next (let g := s.preg p
    if !g.ruleEnable then s
    else match s.dvRead p (masterMig (s.home p)) g.ruleCur.toNat 8 with
      | .error e => s.reportPF p (dieM (s.home p)) (unitMigration (4 * (s.home p).val)) .operation e
      | .ok (b, bad) =>
        let t := s.touchVa 0 (s.engineReq p g.ruleCur.toNat 0 (masterMig (s.home p))) 8
        if bad then t else t.pollLayer p (BitVec.ofNat 32 (leField b 0 4)))

/-- R230: the deadline of the i-th started entry of a ruling has passed: its fallback, or the miss, noted once. -/
def execRulingDeadline (p : PartNo) (i : Nat) (s : State) : Host.Outcome State Fault Refusal :=
  .next (match (s.ruling p).started[i]? with
    | none => s
    | some e =>
      if s.now ≤ e.deadline.toNat then s
      else
        if e.hasFallback then ((s.noteFallback p).endEntry p e.idx 2).pump
        else if e.missed then s
        else (s.noteMiss p e.idx e.layer.toNat).modRuling p (fun r =>
            { r with started := r.started.set i { e with missed := true } }))

/-! Migrations and flash programs (R220, R309) -/

/-- R220: the i-th migration under way seals. -/
def execMigration (i : Nat) (s : State) : Host.Outcome State Fault Refusal := .next ((s.completeMigration i).retryFreed s)

/-- The page that a present entry below a root maps to a frame. -/
def State.pageUnder (s : State) (root f : Nat) : Option Nat :=
  let x := FX.fresh s 0 true
  (x.tableEnts root).findSome? (fun a =>
    if tableEntryKind a.2 ≠ 2 then none
    else (x.tableEnts (nextTable a.2)).findSome? (fun b =>
      if tableEntryKind b.2 ≠ 2 then none
      else (x.tableEnts (nextTable b.2)).findSome? (fun c =>
        if bitOf c.2 0 ∧ bits c.2 16 32 = f then some (a.1 * 2 ^ 24 + b.1 * 2 ^ 12 + c.1) else none)))

/-- A page of a partition's device-virtual space that a present entry maps to a frame. -/
def State.dvPageOf (s : State) (p : PartNo) (f : Nat) : Option Nat :=
  let r := (Tab.get 0 s.mem.ptRoot (8 * (s.home p).val + p.val)).toNat
  if bitOf r 0 then s.pageUnder (bits r 15 33 * 32768) f else none

/-- The page of a partition that a frame is: in its device-virtual space, or in one of its contexts. -/
def State.pageOf (s : State) (p : PartNo) (f : Nat) : Option (Space × Nat) :=
  match s.dvPageOf p f with
  | some g => some (.dv, g)
  | none => (s.liveCtxs p).findSome? (fun c => match s.ctxAddr (s.home p) c with
    | some a => (s.pageUnder (s.mem.cells.getLE (a + 16) 8) f).map (fun g => (.ctx c, g))
    | none => none)

/-- R455, R309: asks for a flash frame to be moved to another. -/
def State.refreshFrame (s : State) (p : PartNo) (f : Nat) : State :=
  match s.pageOf p f with
  | none => s
  | some (sp, g) => (s.modMem (fun m => { m with moves := m.moves ++ [⟨p, sp, g, 1, 1, 2, .refresh, none, false⟩] })).pump

/-- R220, R309: a flash program fails: of a migration, which tries another frame up to 3 times; of a page of the write-back
area, which is relocated by a migration. -/
def execFlashProgramFail (src : ProgSrc) (s : State) : Host.Outcome State Fault Refusal :=
  .next (match src with
    | .move i => (s.failProgram i).retryFreed s
    | .writeback i => match s.mem.wb[i]? with
      | none => s
      | some w => s.refreshFrame w.part w.frame)

/-- R309: the pages of a partition's write-back area. -/
def State.wbCount (s : State) (p : PartNo) : Nat := (s.mem.wb.filter (fun w => decide (w.part = p))).length

/-- R309: a page of the write-back area is programmed: it has waited wb_age_ms, or the area is past 75% full and it is the
oldest. Its granules' home is the page from now on. -/
def execWritebackProgram (i : Nat) (s : State) : Host.Outcome State Fault Refusal :=
  .next (match s.mem.wb[i]? with
    | none => s
    | some w =>
      let p := w.part
      let old := decide (w.since.toNat + s.dictVal (0x6100 + p.val) 4 * msTicks ≤ s.now)
      let full := decide (3 * s.dictVal (0x6100 + p.val) 3 < 4 * s.wbCount p)
      let first := decide (((s.mem.wb.take i).any (fun x => decide (x.part = p))) = false)
      if old ∨ (full ∧ first) then
        (s.modMem (fun m => { m with wb := m.wb.eraseIdx i })).countDie (mdieOf (dieOfFrame w.frame)).val
          ⟨0x06, 1, 0, 2, 2, some p, some (65536 * w.frame), none⟩
      else s)

/-! Frames that return (R217, R224) -/

/-- R217: a RETIRING frame returns to its free list when no snapshot reader of an older epoch is open, or goes to RETIRED
when it stands on the retire list (R463). -/
def execFrameReturn (f : W32) (s : State) : Host.Outcome State Fault Refusal :=
  .next (let n := f.toNat
    let e := s.frame n
    match tierOfFrame n, Tab.get none s.mem.retireAt n with
    | some tier, some ep =>
      if e.state ≠ 2 ∨ s.fol.snaps.any (fun x => match x.2 with
        | some q => serialAfter ep q.epoch
        | none => false) then s
      else
        let listed := decide (n ∈ Tab.get [] s.mem.retireList (mdieOf (dieOfFrame n)).val)
        let p := partOf e.part
        if listed then (s.retireFrame n).quotaCheck p tier
        else
          let s1 := s.freeFrame n
          if e.classB then s1.retryTier p tier else s1.pump
    | _, _ => s)

end Sys2Proof.Machine
end

