-- ==== Sys2Proof/Machine/Host.lean ====
section
/-! DEFINITION. The commands of the host interface: BAR2 accesses (R393), doorbells and queues (R394, R395), the order front
end (R397 to R401), result slots (R406), interrupts (R407) and the resets of the host interface (R408). -/

namespace Sys2Proof.Machine

/-! BAR2 (R393) -/

/-- R393: where a BAR2 access lands: the unified address in the PF's window, or the device-virtual address in a VF's. -/
inductive Bar2Where where
  | unified (ua : Nat)
  | virtual_ (p : PartNo) (va : Nat)
  | none
  deriving DecidableEq, Repr

/-- R391, R393: resolves a BAR2 access of a function; none where no window of an enabled function holds all of it. -/
def State.bar2At (s : State) (fn : BitVec 4) (off : W64) (len : Nat) : Bar2Where :=
  if !s.mainOn then .none
  else if fn = 0 then
    if off.toNat + len ≤ 2 ^ 36 then .unified (s.host.bar2Base.toNat * 2 ^ 36 + off.toNat) else .none
  else match s.vfPart fn.toNat with
    | some p =>
      if s.vfOf p = some fn.toNat ∧ off.toNat + len ≤ 2 ^ 33 then .virtual_ p (s.host.windows[p.val].bar2.toNat + off.toNat) else .none
    | none => .none

/-- R46, R212, R215: the first failure among the pages of an access by unified address. -/
def State.checkUas (s : State) (ua n access : Nat) : Option PFault :=
  (pagePieces ua n).findSome? (fun x => s.checkUa x.1 access masterBar2)

/-- R215, R393: records the failure of a BAR2 access. -/
def State.bar2Fault (s : State) (p : Option PartNo) (f : PFault) : State :=
  let s1 := match p with
    | some q => s.pfRecord q f
    | none => s
  s1.report ⟨0x0201, dieX1, partByte p, unitEndpoint, .operation, f.detail⟩

/-- R236: completes a BAR2 read; poisoned data goes in a poisoned TLP and is recorded once, naming the first granule. -/
def State.bar2Reply (s : State) (p : Option PartNo) (addr : Nat) (r : List Byte × Bool) : State :=
  let s1 := if r.2 then s.report ⟨0x0205, dieX1, partByte p, unitEndpoint, .operation, u64s [addr]⟩ else s
  s1.emit (.bar2Data r.1 r.2)

/-- BAR2_READ (R393). -/
def execBar2Read (fn : BitVec 4) (off : W64) (len : Nat) (s : State) : Host.Outcome State Fault Refusal :=
  .next (match s.bar2At fn off len with
    | .none => s.emit .bar2Unsupported
    | .unified ua => match s.checkUas ua len 0 with
      | some f => (s.bar2Fault none f).emit .bar2Unsupported
      | none =>
        let s1 := s.touch 0 none ua len
        s1.bar2Reply none ua (s1.readUa .plain ua len)
    | .virtual_ p va =>
      let q := s.engineReq p va 0 masterBar2
      match s.translateAll q (pagePieces va len) with
      | .error f => (s.bar2Fault (some p) f).emit .bar2Unsupported
      | .ok ts =>
        let s1 := ts.foldl (fun (t : State) x => t.touch 0 (some p) x.1.ua x.2) s
        s1.bar2Reply (some p) va (s1.readTrans .plain ts))

/-- BAR2_WRITE (R393): a plain write, waiting on intent (R221, R244); a poisoned TLP poisons every granule it writes (R236). -/
def execBar2Write (fn : BitVec 4) (off : W64) (data : List Byte) (poisoned : Bool) (s : State) :
    Host.Outcome State Fault Refusal :=
  .next (match s.bar2At fn off data.length with
    | .none => s
    | .unified ua => match s.checkUas ua data.length 1 with
      | some f => s.bar2Fault none f
      | none => s.plainWrite .bar2 (piecesOf ua data (fun _ => poisoned))
    | .virtual_ p va => match s.translateAll (s.engineReq p va 1 masterBar2) (pagePieces va data.length) with
      | .error f => s.bar2Fault (some p) f
      | .ok ts => s.plainWrite .bar2 (transPieces ts data (fun _ => poisoned)))

/-! Doorbells (R394, R395) -/

/-- R397: a queue's record of the time since which its work has not been served. -/
def State.setWaiting (s : State) (q : Nat) (t : Option W64) : State :=
  s.modHost (fun h => { h with waiting := Tab.set none h.waiting q t })

/-- SQ_DOORBELL (R394). -/
def execSqDoorbell (q : Fin 1024) (v : W32) (s : State) : Host.Outcome State Fault Refusal :=
  .next (if !s.mainOn then s
    else
      let x := s.sq q.val
      let t := bits v.toNat 0 12
      if x.size ≤ t then
        (s.setSq q.val { x with err := true }).report ⟨0x0505, dieX1,
          if (s.part (partOf x.partition.toNat)).mode = .unformed then 0xFF else x.partition.toNat, unitQueue, .operation, []⟩
      else
        let s1 := s.setSq q.val { x with tail := BitVec.ofNat 12 t }
        if t = x.head.toNat then s1.setWaiting q.val none
        else if (Tab.get none s.host.waiting q.val).isSome then s1 else s1.setWaiting q.val (some s.clock.time))

/-- SQ_DISABLE (R394): no further entry is fetched; orders already fetched complete. -/
def execSqDisable (q : Fin 1024) (s : State) : Host.Outcome State Fault Refusal :=
  .next (s.setSq q.val { s.sq q.val with enable := false })

/-- CQ_DOORBELL (R395): a head within the span from the old head to the tail is taken, and held completions go out. -/
def execCqDoorbell (c : Fin 1024) (v : W32) (s : State) : Host.Outcome State Fault Refusal :=
  .next (if !s.mainOn then s
    else
      let x := s.cq c.val
      let h := bits v.toNat 0 16
      if x.size ≤ h ∨ (x.tail.toNat + x.size - x.head.toNat) % x.size < (h + x.size - x.head.toNat) % x.size then
        s.setCq c.val { x with headErr := true }
      else
        (s.setCq c.val { x with head := BitVec.ofNat 16 h }).flushCq c.val x.held.length)

/-! The order front end (R397, R400) -/

/-- R399: the size of a class's block. -/
def blockSize (cls : Nat) : Nat :=
  if cls = 2 ∨ cls = 3 ∨ cls = 5 ∨ cls = 6 ∨ cls = 8 then 64 else if cls = 4 then 128 else if cls = 7 then 96 else 0

/-- R404: a PARTITION block that is well formed. -/
def partitionFormOk (b : List Byte) : Bool :=
  decide (leField b 0 2 = 0x0172) && decide (1 ≤ leField b 2 1) && decide (leField b 2 1 ≤ 3) && decide (leField b 3 1 < 8) && zeroFrom b 4 60

/-- R399: a block of a class that is well formed. -/
def classFormOk (cls : Nat) (b : List Byte) : Bool :=
  if cls = 1 then true
  else if cls = 2 then folioFormOk b
  else if cls = 3 then cacheFormOk b
  else if cls = 4 then codexFormOk b
  else if cls = 5 then memoryFormOk b
  else if cls = 6 then copyFormOk b
  else if cls = 7 then true
  else cls = 8 && partitionFormOk b

/-- R398, R400 check 2: the form of a work order `e` with its block `b`. -/
def orderFormOk (e b : List Byte) : Bool :=
  let cls := leField e 2 1
  let ind := bitOf (leField e 3 1) 0
  let n := blockSize cls
  decide (leField e 0 2 = 0x0170) && decide (1 ≤ cls) && decide (cls ≤ 8) && decide (leField e 3 1 < 8) &&
  (decide (leField e 4 2 < 4096) || decide (leField e 4 2 = 0xFFFF)) && zeroFrom e 6 2 && zeroFrom e 24 8 &&
  (if ind then decide (cls ≠ 7) && decide (leField e 16 8 % max 1 n = 0) && zeroFrom e 32 96
   else decide (cls ≠ 4) && zeroFrom e 16 8 && zeroFrom e (32 + n) (96 - n)) &&
  classFormOk cls b

/-- R399: the op of a block. -/
def opOf (cls : Nat) (b : List Byte) : Nat := if cls = 1 ∨ cls = 7 then 0 else leField b 2 1

/-- R401: the module states and the partition states in which a class and operation is allowed. -/
def allowedIn (cls op : Nat) : Byte × Byte :=
  let ra := stateMask [3, 4]
  let raq := stateMask [3, 4, 5]
  let raqf := stateMask [3, 4, 5, 7]
  match cls, op with
  | 1, _ => (raqf, 0b1111)
  | 2, 1 => (ra, 0b0011)
  | 2, 6 => (ra, 0b0011)
  | 2, _ => (raq, 0b0111)
  | 3, 2 => (raq, 0b0111)
  | 3, _ => (ra, 0b0010)
  | 4, 1 => (ra, 0b0011)
  | 4, 3 => (ra, 0b0010)
  | 4, 5 => (ra, 0b0010)
  | 4, _ => (raq, 0b0111)
  | 5, 1 => (ra, 0b0011)
  | 5, 4 => (ra, 0b0011)
  | 5, 6 => (ra, 0b0011)
  | 5, _ => (raq, 0b0111)
  | 8, 1 => (ra, 0b0001)
  | 8, 2 => (raq, 0b0010)
  | 8, _ => (raqf, 0b0111)
  | _, _ => (raq, 0b0111)

/-- R400 check 4, R401: the first scope whose state does not allow an order; a PARTITION order is judged by the state of its
target (DEDUCED, log 30). -/
def State.stateReject (s : State) (p : PartNo) (cls op : Nat) (b : List Byte) : Option Done :=
  let a := allowedIn cls op
  let t := if cls = 8 then partOf (leField b 3 1) else p
  let st := (s.part t).mode
  if !a.1.getLsbD s.modu.state.num then some (Done.reject 1 a.1)
  else if cls ≠ 1 ∧ ((s.part p).mode = .unformed ∨ st = .unformed ∨ !a.2.getLsbD st.num) then some (Done.reject 2 a.2)
  else none

/-- R400 check 6: the engine queue of a class is full. -/
def State.engineFull (s : State) (p : PartNo) (cls : Nat) : Bool :=
  if cls = 3 then decide (256 ≤ s.cacheQueued p)
  else if cls = 4 then decide (256 ≤ s.codexQueued p)
  else if cls = 7 then decide (256 ≤ (Tab.get [] s.host.mailboxes p.val).length +
    (s.host.orders.filter (fun o => decide (o.part = p) && decide (o.cls = 7) && !o.started)).length)
  else false

/-- R400: the checks in order: what the order is rejected with, or its class, op and block. -/
def State.checkOrder (s : State) (q : SQ) (e : List Byte) (bad : Bool) : Except Done (Nat × Nat × List Byte) :=
  let p := partOf q.partition.toNat
  let cls := leField e 2 1
  let n := blockSize cls
  let ind := bitOf (leField e 3 1) 0
  let ext := leField e 16 8
  let b := if ind then s.hostRead ext n else (e.drop 32).take n
  let op := opOf cls b
  let slot := leField e 4 2
  if bad ∨ (ind ∧ (hostMarked s.host.hostBad ext n ∨ hostMarked s.host.hostPoison ext n)) then .error (Done.of 0x0506)
  else if !orderFormOk e b then .error (Done.of 0x0503)
  else if q.function ≠ 0 ∧ (cls = 8 ∨ (cls = 5 ∧ op = 6)) then .error (Done.of 0x0507)
  else match s.stateReject p cls op b with
    | some d => .error d
    | none =>
      if slot ≠ 0xFFFF ∧ ((s.rslot p slot).state = .pending ∨ (s.rslot p slot).state = .ready) then .error (Done.of 0x0504)
      else if s.engineFull p cls then .error (Done.of 0x0502)
      else .ok (cls, op, b)

/-- R392, R394: a queue serves its function: the PF, or the enabled VF that is bound to the queue's partition; its completion
queue is of the same function. -/
def State.servesFn (s : State) (q : SQ) : Bool :=
  decide ((s.cq q.cq.toNat).function = q.function) &&
  (decide (q.function = 0) || decide (s.vfOf (partOf q.partition.toNat) = some q.function.toNat))

/-- R394, R395, R397: a queue may have its next entry taken: it is enabled and not empty, its completion queue has room, no
order with fence of it waits to start, and a fence entry only after every earlier order of the queue has completed. -/
def State.sqEligible (s : State) (k : Nat) : Bool :=
  let q := s.sq k
  let at_ := q.base.toNat + 128 * q.head.toNat
  q.enable && decide (q.tail ≠ q.head) && !(s.cq q.cq.toNat).full && s.servesFn q &&
  !(s.host.orders.any (fun o => decide (o.sq = k) && o.fence && !o.started)) &&
  (!bitOf (leField (s.hostRead at_ 4) 3 1) 1 || !(s.host.orders.any (fun o => decide (o.sq = k))))

/-- Round robin: the first of a list after a number, else the first. -/
def nextAfter (last : Nat) (ks : List Nat) : Option Nat := (ks.find? (fun k => decide (last < k))).orElse (fun _ => ks.head?)

/-- R397: the partition whose turn it is, and of its queues the one served next: one not served for 1 ms first (the one that has
waited longest), else the highest priority, in round robin. -/
def State.nextSq (s : State) : Option (PartNo × Nat) :=
  let ks := ((s.host.sqs.map (fun e => e.1)).filter s.sqEligible)
  let ps := (List.range 8).filter (fun p => ks.any (fun k => decide ((s.sq k).partition.toNat = p)))
  match nextAfter s.host.lastPart ps with
  | none => none
  | some p =>
    let mine := ks.filter (fun k => decide ((s.sq k).partition.toNat = p))
    let since (k : Nat) : Nat := match Tab.get none s.host.waiting k with
      | some t => t.toNat
      | none => s.now
    let old := mine.filter (fun k => decide (since k + msTicks ≤ s.now))
    let first := match old with
      | [] => none
      | k :: r => some (r.foldl (fun a b => if since b < since a then b else a) k)
    let prio := (List.range 3).find? (fun c => mine.any (fun k => decide ((s.sq k).prio.toNat = c)))
    let pick := first.orElse (fun _ => prio.bind (fun c =>
      nextAfter (Tab.get 1023 s.host.lastSq (4 * p + c)) (mine.filter (fun k => decide ((s.sq k).prio.toNat = c)))))
    pick.map (fun k => (partOf p, k))

/-- R394, R397: the entry at a queue's head is fetched: the head, the turns and the queue's waiting time move. -/
def State.passHead (s : State) (p : PartNo) (k : Nat) : State :=
  let q := s.sq k
  let h := (q.head.toNat + 1) % q.size
  let s1 := s.setSq k { q with head := BitVec.ofNat 12 h }
  let s2 := s1.modHost (fun x => { x with lastPart := p.val, lastSq := Tab.set 1023 x.lastSq (4 * p.val + q.prio.toNat) k })
  s2.setWaiting k (if h = q.tail.toNat then none else some s.clock.time)

/-- R400, R489, R495: an order that passed the checks claims its slot, is taken and counted. -/
def State.takeOrder (s : State) (p : PartNo) (k : Nat) (e : List Byte) (cls op : Nat) (b : List Byte) : State :=
  let slot := leField e 4 2
  let tag : W64 := BitVec.ofNat 64 (leField e 8 8)
  let s1 := if slot = 0xFFFF then s else s.claimSlot p slot (BitVec.ofNat 8 cls) (BitVec.ofNat 8 op) tag k
  let gen := if slot = 0xFFFF then 0 else (s1.rslot p slot).gen
  let o : Order :=
    { id := s.host.nextOrder, sq := k, function := (s.sq k).function.toNat, part := p, cls := BitVec.ofNat 8 cls, op := BitVec.ofNat 8 op,
      block := b, slot := BitVec.ofNat 16 slot, gen := gen, tag := tag, irq := bitOf (leField e 3 1) 2, fence := bitOf (leField e 3 1) 1,
      started := false, silent := false }
  (s1.modHost (fun h => { h with orders := h.orders ++ [o], nextOrder := h.nextOrder + 1 })).countDie 5
    ⟨0x0F, 1, if o.function = 0 then 1 else 2, 2, 3, some p, none, none⟩

/-- R400: a rejected order: its record and its completion, with gen 0 and its slot untouched. -/
def State.rejectOrder (s : State) (p : PartNo) (k : Nat) (e : List Byte) (d : Done) : State :=
  let tag : W64 := BitVec.ofNat 64 (leField e 8 8)
  let s1 := s.recordOrder p (BitVec.ofNat 8 (leField e 2 1)) tag d
  s1.postCq (s.sq k).cq.toNat ⟨tag, BitVec.ofNat 16 k, d.code, BitVec.ofNat 16 (leField e 4 2), 0, d.scope, d.mask, 0, bitOf (leField e 3 1) 2⟩

/-- ORDER_FETCH (R397, R400): the next entry is fetched and checked; queues are fetched only in the states R401 lists. An entry
whose own fetch fails at the host is treated as a failed block fetch (DESIGN CHOICE, log 31). -/
def execOrderFetch (s : State) : Host.Outcome State Fault Refusal :=
  .next (if !s.mainOn ∨ !(stateMask [3, 4, 5, 7]).getLsbD s.modu.state.num then s
    else match s.nextSq with
      | none => s
      | some (p, k) =>
        let q := s.sq k
        let a := q.base.toNat + 128 * q.head.toNat
        let e := s.hostRead a 128
        let bad := hostMarked s.host.hostBad a 128 || hostMarked s.host.hostPoison a 128
        let s1 := s.passHead p k
        match s1.checkOrder q e bad with
        | .error d => s1.rejectOrder p k e d
        | .ok (cls, op, b) => s1.takeOrder p k e cls op b)

/-- WORK_ORDER_NOP (R399): the k-th order, when it is a NOP, completes. -/
def execWorkOrderNop (k : Nat) (s : State) : Host.Outcome State Fault Refusal :=
  .next (match s.readyOrder k 1 0 with
    | none => s
    | some o => (s.beginOrder o.id).endOrder { o with started := true } (Done.of 0))

/-! Slots and interrupts -/

/-- SLOT_RELEASE (R406): a matching generation and bit 31 release a READY slot; any other release is ignored and counted. -/
def execSlotRelease (p : PartNo) (slot : Fin 4096) (v : W32) (s : State) : Host.Outcome State Fault Refusal :=
  .next (if !s.mainOn then s
    else
      let x := s.rslot p slot.val
      if x.state = .ready ∧ bitOf v.toNat 31 ∧ bits v.toNat 0 16 = x.gen.toNat then s.setRslot p slot.val { x with state := .released }
      else (s.modHost (fun h => { h with releaseIgnored := h.releaseIgnored + 1 })).countDie 5 ⟨0x10, 1, 0, 3, 3, some p, none, none⟩)

/-- CQ_COALESCE_TIMER (R407): coal_time has passed since the first entry not yet signalled. -/
def execCqCoalesceTimer (c : Fin 1024) (s : State) : Host.Outcome State Fault Refusal :=
  .next (if (s.cq c.val).irqEn ∧ 0 < (s.cq c.val).unsignalled then s.fireCq c.val else s)

/-! Resets (R408) -/

/-- VF_FLR (R408): a function-level reset of VF f + 1. -/
def execVfFlr (f : Fin 8) (s : State) : Host.Outcome State Fault Refusal :=
  .next (if s.mainOn then s.resetVf (f.val + 1) (s.vfPart (f.val + 1)) else s)

/-- PF_FLR (R408). -/
def execPfFlr (s : State) : Host.Outcome State Fault Refusal := .next (if s.mainOn then s.resetHost else s)

/-- HOT_RESET (R408): as the PF's reset; the link trains again. -/
def execHotReset (s : State) : Host.Outcome State Fault Refusal :=
  .next (if s.mainOn then s.resetHost.modHost (fun h => { h with linkUp := true }) else s)

/-- SURPRISE_LINK_DOWN (R408): as the PF's reset, and the link is down. -/
def execSurpriseLinkDown (s : State) : Host.Outcome State Fault Refusal :=
  .next (if s.mainOn then s.resetHost.modHost (fun h => { h with linkUp := false }) else s)

/-- CONVENTIONAL_RESET (R390): PERST# resets the endpoint; R408 gives the effect of a reset of the PF, which a conventional
reset contains (DEDUCED, log 32). -/
def execConventionalReset (s : State) : Host.Outcome State Fault Refusal :=
  .next (if s.mainOn then s.resetHost.modHost (fun h => { h with linkUp := true }) else s)

end Sys2Proof.Machine
end

