-- ==== Sys2Proof/Machine/Topology.lean ====
section
/-! DEFINITION. The wiring plan and its comparison (R356 to R361), forming and dissolving partitions (R362 to R365), dies that
leave service (R366, R367). -/

namespace Sys2Proof.Machine

/-! Wiring (R355 to R361) -/

/-- R356: the plan's entry of a physical port. -/
structure PlanEntry where
  serial : W64
  slot : Byte
  port : Byte
  expected : Bool
  deriving DecidableEq, Repr

/-- R356: the entry from its 12 bytes. -/
def State.planEntry (s : State) (p : PortNo) : PlanEntry :=
  let v := s.dictVal 0x3100 (p.val + 1)
  ⟨BitVec.ofNat 64 v, BitVec.ofNat 8 (bits v 64 8), BitVec.ofNat 8 (bits v 72 8), bitOf v 80⟩

/-- R356: the plan is loaded: some entry is not zero. -/
def State.planLoaded (s : State) : Bool := (List.range 30).any (fun i => decide (s.dictVal 0x3100 (i + 1) ≠ 0))

/-- R357: a port shows the beacon of an entry. -/
def State.shows (s : State) (p : PortNo) (e : PlanEntry) : Bool :=
  decide ((s.port p).mode = .up) && match (s.port p).peer with
    | some b => decide (b.serial = e.serial) && decide (b.slot = e.slot) && decide (b.port = e.port)
    | none => false

/-- The Haros ports. -/
def harosPorts : List PortNo := (List.range 30).map portOf

/-- R357: the other port of a swap. -/
def State.swapPartner (s : State) (p : PortNo) : Option PortNo :=
  harosPorts.find? (fun b => decide (b ≠ p) && (s.planEntry b).expected && s.shows b (s.planEntry p) && s.shows p (s.planEntry b))

/-- R359: under REMAP, a swap whose two ports see the same peer is the peer's to correct when its serial is the lower. -/
def State.peerCorrects (s : State) (p b : PortNo) : Bool :=
  match (s.port p).peer, (s.port b).peer with
  | some x, some y => decide (x.serial = y.serial) && decide (x.serial.toNat < Config.serial.toNat)
  | _, _ => false

/-- R359: the swap policy is REMAP. -/
def State.remaps (s : State) : Bool := decide (s.dictVal 0x3110 0 = 1)

/-- R513: a slot read as 8 to 15 on a board of 8. -/
def State.slotTooHigh (s : State) : Bool := decide (s.link.boardSize = 8) && match s.plug.slot with
  | some v => decide (8 ≤ v.toNat)
  | none => false

/-- R357: the class of a port, and the partner of a swap. -/
def State.wireClass (s : State) (p : PortNo) : WireClass × Option PortNo :=
  let e := s.planEntry p
  let up := decide ((s.port p).mode = .up)
  if s.slotTooHigh ∧ p.val < (if s.link.boardSize = 8 then 14 else 15) then (.mismatch, none)
  else if !s.planLoaded then (.noPlan, none)
  else if !e.expected ∧ !up then (.unused, none)
  else if e.expected ∧ !up then (.absent, none)
  else if !e.expected then (.unexpected, none)
  else if s.shows p e then (.match_, none)
  else match s.swapPartner p with
    | some b => if s.remaps ∧ s.peerCorrects p b then (.peerSwap, none) else (.swap, some b)
    | none => match (s.port p).peer with
      | some b => if b.serial = e.serial ∧ b.slot = e.slot then (.peerSwap, none) else (.mismatch, none)
      | none => (.mismatch, none)

/-- R357, R359: a class holds its port. -/
def State.classHolds (s : State) (c : WireClass) : Bool :=
  match c with
  | .unexpected => true
  | .mismatch => true
  | .swap => !s.remaps
  | .peerSwap => !s.remaps
  | _ => false

/-- R357: sets a port's class. -/
def State.setWire (s : State) (p : PortNo) (c : WireClass) (b : Option PortNo) : State :=
  s.modPort p (fun x => { x with wire := c, partner := b, held := s.classHolds c })

/-- R359: the physical ports of logical `a` and logical `b` are exchanged already. -/
def State.crossed (s : State) (a b : PortNo) : Bool := decide (s.link.map[a.val] = b) && decide (s.link.map[b.val] = a)

/-- R355: a port is held for a change of its mapping: a message in flight on it fails as offered to a held port (DEDUCED, log 169). -/
def State.holdPort (s : State) (p : PortNo) : State :=
  if (s.port p).held then s else (s.failOnPort p 0x040C).modPort p (fun x => { x with held := true })

/-- R355, R359: REMAP exchanges the physical ports of logical `a` and logical `b`, with both ports held, unless they are exchanged
already. -/
def State.remap (s : State) (a b : PortNo) : State :=
  if s.crossed a b then s
  else
    let s1 := [a, b, s.link.map[a.val], s.link.map[b.val]].foldl (fun t p => t.holdPort p) s
    s1.modLink (fun l => { l with map := (l.map.set a.val l.map[b.val]).set b.val l.map[a.val] })

/-- R357: classifies a port, with its record when it enters UNEXPECTED, SWAP or MISMATCH. The two ports of a swap are classed
together. -/
def State.classify (s : State) (p : PortNo) : State :=
  let old := s.port p
  match s.wireClass p with
  | (.swap, some b) =>
    let s1 := if s.remaps then s.remap p b else s
    let s2 := (s1.setWire p .swap (some b)).setWire b .swap (some p)
    if old.wire = .swap ∧ old.partner = some b then s2 else s2.reportPort p 0x0403 .operation [p.val, b.val]
  | (c, b) =>
    let s1 := s.setWire p c b
    if (c = .unexpected ∨ c = .mismatch) ∧ old.wire ≠ c then s1.reportPort p 0x040B .operation [] else s1

/-- R361: a classification is pending: some port's class is not the one that its state and beacon give now (DEDUCED, log 150). -/
def State.wirePending (s : State) : Bool :=
  harosPorts.any (fun p => decide (s.wireClass p ≠ ((s.port p).wire, (s.port p).partner)))

/-- R361: the summary of the discovery report. -/
def State.wireSummary (s : State) : Nat :=
  let count (q : Port → Bool) : Nat := (harosPorts.filter (fun p => q (s.port p))).length
  count (fun x => decide (x.wire = .match_) || decide (x.wire = .noPlan)) + 256 * count (fun x => x.held) +
    65536 * count (fun x => decide (x.wire = .absent)) + flagAt s.wirePending 24

/-- R343, R428: after classifications: the root is chosen anew when a hold changed, and a changed summary is notified. -/
def State.afterWiring (old s : State) : State :=
  let s1 := if harosPorts.any (fun p => decide ((old.port p).held ≠ (s.port p).held)) then s.chooseRoot else s
  if old.wireSummary = s1.wireSummary then s1 else s1.notify 0x3120 0x1F (leBytes 4 s1.wireSummary)

/-- PORT_CLASSIFY (R357): a port is classified against the plan. -/
def execPortClassify (p : PortNo) (s : State) : Host.Outcome State Fault Refusal :=
  .next (if p.val < 30 then State.afterWiring s (s.classify p) else s)

/-- R355, R359: a plan write restores the identity map, with the ports whose mapping changes held, and classifies every port again. -/
def State.replan (s : State) : State :=
  let moved := harosPorts.filter (fun l => decide (s.link.map[l.val] ≠ l))
  let s1 := (moved.foldl (fun t l => (t.holdPort l).holdPort t.link.map[l.val]) s).modLink (fun l => { l with map := Vector.ofFn id })
  State.afterWiring s (harosPorts.foldl (fun t p => t.classify p) s1)

/-! Partitions (R362 to R365) -/

/-- R362: the rectangles of dies. -/
def rectangles : List (BitVec 8) :=
  let cols : List (Nat × Nat) := (List.range 4).flatMap (fun a => ((List.range 4).filter (fun b => decide (a ≤ b))).map (fun b => (a, b)))
  let rows : List (Nat × Nat) := [(0, 0), (0, 1), (1, 1)]
  cols.flatMap (fun x => rows.map (fun y => BitVec.ofNat 8 (sumNat (((List.range 8).filter (fun c =>
    decide (x.1 ≤ c % 4) && decide (c % 4 ≤ x.2) && decide (y.1 ≤ c / 4) && decide (c / 4 ≤ y.2))).map (fun c => 2 ^ c)))))

/-- R362: dies of other formed partitions, and of formations under way. -/
def State.takenDies (s : State) (p : PartNo) : BitVec 8 :=
  (allParts.filter (fun q => decide (q ≠ p))).foldl (fun m q => m ||| (s.part q).dies ||| (s.part q).forming.getD 0) 0

/-- R362: a legal mask for a partition. -/
def State.legalMask (s : State) (p : PartNo) (m : BitVec 8) : Bool :=
  decide (m ∈ rectangles) && decide (m &&& s.takenDies p = 0) && decide (m &&& ~~~s.dieMap.c = 0)

/-- Statuses of a WMP command (R421). -/
def wmpOk : Nat := 0x00
def wmpRange : Nat := 0x14
def wmpState : Nat := 0x18

/-- R364 steps 2 and 3: dies that join: powered (R439), cores reset, HBM zeroed, frames free. -/
def State.joinDies (s : State) (ds : List CDie) : State :=
  let ns := (ds.flatMap coresOfDie)
  let awake : State := { s with power := { s.power with asleep := s.power.asleep.filter (fun a => !ds.any (fun c => decide (a.unit = PUnit.die c))) } }
  let up := ns.foldl (fun (t : State) n => t.modCore n (fun c => if c.mode = .off then { Core.reset with regs := c.regs } else c)) awake
  (((up.resetCores ns).zeroShares ds).scrambleShares ds).freeShares ds

/-- R364: *form* with the mask in *dies*: accepted only while the partition is unformed. The answer is its WMP status. -/
def State.formPart (s : State) (p : PartNo) : State × Nat :=
  let x := s.part p
  if x.mode ≠ .unformed ∨ x.forming.isSome then (s, wmpState)
  else if !s.legalMask p x.maskNext then (s.modPart p (fun x => { x with formResult := 0x0405 }), wmpRange)
  else ((s.joinDies (maskDies x.maskNext)).modPart p (fun y => { y with forming := some x.maskNext }), wmpOk)

/-- R365: *form* on a formed partition with a different mask: a re-form. -/
def State.reformPart (s : State) (p : PartNo) : State × Nat :=
  let x := s.part p
  let m := x.maskNext
  if (x.mode ≠ .idle ∧ x.mode ≠ .draining) ∨ x.forming.isSome ∨ m = x.dies ∨ (x.mode = .draining ∧ m &&& ~~~x.dies ≠ 0) then (s, wmpState)
  else if !s.legalMask p m then (s.modPart p (fun x => { x with formResult := 0x0405 }), wmpRange)
  else
    let gone := maskDies (x.dies &&& ~~~m)
    let join := maskDies (m &&& ~~~x.dies)
    let s1 := (s.poisonLeaves p gone).bindCores (gone.flatMap coresOfDie) none
    let s2 := s1.modPart p (fun y => { y with dies := x.dies &&& m })
    if join = [] then ((s2.modPart p (fun y => { y with formResult := 0 })).quotaChecks p, wmpOk)
    else ((s2.joinDies join).modPart p (fun y => { y with forming := some m }), wmpOk)

/-- R365: *form* 2: refused unless the partition is IDLE and holds no open folio, LIVE context or LIVE index. -/
def State.dissolvePart (s : State) (p : PartNo) : State × Nat :=
  if (s.part p).mode ≠ .idle ∨ s.openCount p ≠ 0 ∨ s.liveCtxs p ≠ [] ∨ s.liveIndexes p ≠ [] then (s, wmpState)
  else ((s.dissolve p).modPart p (fun x => { x with formResult := 0 }), wmpOk)

/-- PARTITION_FORM (R364): steps 1 to 3 of a formation. -/
def execPartitionForm (p : PartNo) (s : State) : Host.Outcome State Fault Refusal := .next ((s.formPart p).1.emit (.status (s.formPart p).2))

/-- R364 step 4, R479: the formation is bound, unless the warden's generator fails its health test. Quotas that the frames of its
shares, RETIRED ones apart, do not hold are lowered (R224; DEDUCED, log 174). -/
def State.bindForm (s : State) (p : PartNo) (drbgOk : Bool) : State :=
  let x := s.part p
  match x.forming with
  | none => s
  | some m =>
    if x.mode = .unformed ∧ !drbgOk then s.modPart p (fun y => { y with forming := none, formResult := 0x0806 })
    else
      let s1 := s.modPart p (fun y => { y with dies := m, forming := none, formResult := 0, keyInstalled := true })
      let s2 := s1.bindCores ((maskDies m).flatMap coresOfDie) (some p)
      (if x.mode = .unformed then s2.setPartMode p .idle else s2).quotaChecks p

/-- FORM_BIND (R364, R479). -/
def execFormBind (p : PartNo) (drbgOk : Bool) (s : State) : Host.Outcome State Fault Refusal := .next (s.bindForm p drbgOk)

/-- PARTITION_REFORM (R365). -/
def execPartitionReform (p : PartNo) (s : State) : Host.Outcome State Fault Refusal := .next ((s.reformPart p).1.emit (.status (s.reformPart p).2))

/-- PARTITION_DISSOLVE (R365). -/
def execPartitionDissolve (p : PartNo) (s : State) : Host.Outcome State Fault Refusal := .next ((s.dissolvePart p).1.emit (.status (s.dissolvePart p).2))

/-! Dies and cores that leave service (R366, R367) -/

/-- R367: the largest rectangle within a mask, ties to the one that holds the lowest die. -/
def largestRect (m : BitVec 8) : BitVec 8 :=
  let size (r : BitVec 8) : Nat := (maskDies r).length
  let low (r : BitVec 8) : Nat := ((maskDies r).map (fun c => c.val)).headD 8
  (rectangles.filter (fun r => decide (r &&& ~~~m = 0))).foldl (fun b r =>
    if size b < size r ∨ (size b = size r ∧ low r < low b) then r else b) 0

/-- R367, R503: a partition enters DRAINING. -/
def State.drainPart (s : State) (p : PartNo) : State :=
  (s.setPartMode p .draining).modModu (fun u => { u with drainStart := Tab.set none u.drainStart p.val (some s.clock.time) })

/-- R364: a formation that a die leaves is abandoned. -/
def State.abandonForms (s : State) (c : CDie) : State :=
  allParts.foldl (fun t p => match (t.part p).forming with
    | some m => if m.getLsbD c.val then t.modPart p (fun x => { x with forming := none, formResult := 0x040D }) else t
    | none => t) s

/-- R367 steps 3 and 4 for the die's partition. -/
def State.dieGone (s : State) (p : PartNo) (c : CDie) : State :=
  let s1 := (s.haltCores (s.coresOf p)).drainPart p
  let s2 := (s1.stopRings (s1.ringsOf p)).abortFolios p
  s2.modPart p (fun x => { x with proposal := largestRect (x.dies &&& ~~~(BitVec.ofNat 8 (2 ^ c.val))) })

/-- R367: a compute die leaves service. -/
def State.dieOut (s : State) (c : CDie) : State :=
  if !s.dieMap.c.getLsbD c.val then s
  else
    let bit : BitVec 8 := BitVec.ofNat 8 (2 ^ c.val)
    let own := s.partOfDie c
    let s1 : State := { s with dieMap := { s.dieMap with c := s.dieMap.c &&& ~~~bit, changed := true } }
    let s2 := (s1.modModu (fun u => { u with dieOut := u.dieOut ||| bit })).report ⟨0x040D, c.val, partByte own, 0x0900 + c.val, .die, []⟩
    let s3 := (s2.abandonForms c)
    let s4 := (coresOfDie c).foldl (fun t n => t.modCore n (fun x => if x.mode = .cut then x else { x.poweredOff with regs := x.regs })) s3
    match own with
    | some p => s4.dieGone p c
    | none => s4

/-- DIE_OUT (R367). -/
def execDieOut (c : CDie) (s : State) : Host.Outcome State Fault Refusal := .next (s.dieOut c)

/-- CLEAR_CUTS (R366): the cut map is cleared for the self-test of the next bring-up. -/
def execClearCuts (s : State) : Host.Outcome State Fault Refusal := .next (s.modModu (fun u => { u with clearCuts := true }))

end Sys2Proof.Machine
end

