-- ==== Sys2Proof/Machine/Partition.lean ====
section
/-! DEFINITION. PARTITION orders and the states of a partition (R401, R404, R502 to R504). -/

namespace Sys2Proof.Machine

/-- R404: the target of a PARTITION order. -/
def Order.target (o : Order) : PartNo := partOf (leField o.block 3 1)

/-- R397, R404: the k-th order, when it is a PARTITION order of an op that can begin. -/
def State.partitionOrder (s : State) (k op : Nat) : Option Order := s.readyOrder k 8 (BitVec.ofNat 8 op)

/-- R399, R404: a PARTITION order completes with the state its target is in now. -/
def State.endPartition (s : State) (o : Order) : State :=
  s.endOrder o { Done.of 0 with info := BitVec.ofNat 32 (s.part o.target).mode.num }

/-- R502: the roots of a partition are valid on every memory-side die that serves its dies. -/
def State.rootsValid (s : State) (p : PartNo) : Bool :=
  (s.diesOf p).all (fun c => bitOf (Tab.get 0 s.mem.ptRoot (8 * (mdieOf c).val + p.val)).toNat 0)

/-- R475, R502: RUN extends the measurement of the partition's guest firmware, by a digest the manual leaves to the runtime
(log 1). -/
def State.measureGuest (s : State) (p : PartNo) : State :=
  let old := Tab.get 0 s.sec.measure (16 + p.val)
  let bytes (d : BitVec 384) : List Byte := leBytes 48 d.toNat
  let m := Config.sha384 (bytes old ++ bytes (Config.guestDigest s.draws))
  { s.draw with sec := { s.sec with measure := Tab.set 0 s.sec.measure (16 + p.val) m } }

/-- PARTITION_RUN (R502): an IDLE partition with valid roots enters RUNNING. -/
def execPartitionRun (k : Nat) (s : State) : Host.Outcome State Fault Refusal :=
  .next (match s.partitionOrder k 1 with
    | none => s
    | some o =>
      let s1 := s.beginOrder o.id
      let p := o.target
      if (s.part p).mode ≠ .idle then s1.endOrder o (Done.reject 2 0b0001)
      else if !s.rootsValid p then s1.endOrder o (Done.of 0x0503)
      else ((s1.setPartMode p .running).measureGuest p).endPartition o)

/-- PARTITION_DRAIN (R503): a RUNNING partition enters DRAINING; the order completes when IDLE is reached. -/
def execPartitionDrain (k : Nat) (s : State) : Host.Outcome State Fault Refusal :=
  .next (match s.partitionOrder k 2 with
    | none => s
    | some o =>
      let s1 := s.beginOrder o.id
      if (s.part o.target).mode ≠ .running then s1.endOrder o (Done.reject 2 0b0010) else s1.drainPart o.target)

/-- A DRAIN order of a partition that has begun. -/
def Order.drains (o : Order) (p : PartNo) : Bool := decide (o.cls = 8) && decide (o.op = 2) && o.started && decide (o.target = p)

/-- R503: a partition meets every condition for leaving DRAINING. -/
def State.drained (s : State) (p : PartNo) : Bool :=
  (s.coresOf p).all (fun n => let m := (s.core n).mode
                              decide (m = .idle) || decide (m = .faulted) || decide (m = .cut) || decide (m = .off)) &&
  (s.ringsOf p).all (fun n => decide ((s.ring n).mode ≠ .running) && decide ((s.ring n).mode ≠ .stopping)) &&
  s.liveSlots.all (fun e => decide (e.2.part ≠ p) || (decide (e.2.mode ≠ .opened) && decide (e.2.mode ≠ .doomed))) &&
  s.host.orders.all (fun o => decide (o.part ≠ p) || !o.started || o.drains p)

/-- R503: a partition leaves DRAINING for IDLE, and its DRAIN orders complete. -/
def State.endDrain (s : State) (p : PartNo) : State :=
  let s1 := (s.setPartMode p .idle).modModu (fun u => { u with drainStart := Tab.set none u.drainStart p.val none })
  (s.host.orders.filter (fun o => o.drains p)).foldl (fun t o => t.endPartition o) s1

/-- DRAIN_COMPLETE (R503). -/
def execDrainComplete (p : PartNo) (s : State) : Host.Outcome State Fault Refusal :=
  .next (if (s.part p).mode = .draining ∧ s.drained p then s.endDrain p else s)

/-- R503: what the module does with a partition that has not drained in time. -/
def State.forceDrain (s : State) (p : PartNo) : State :=
  let ns := (s.coresOf p).filter (fun n => decide ((s.core n).mode = .running) || decide ((s.core n).mode = .halted))
  ((s.resetCores ns).stopRings (s.ringsOf p)).abortFolios p

/-- R449, R503: quiesce_timeout has passed since the partition entered DRAINING. -/
def State.drainDue (s : State) (p : PartNo) : Bool :=
  match Tab.get none s.modu.drainStart p.val with
  | none => true
  | some t => decide (t.toNat + s.dictVal 0x2100 3 * msTicks ≤ s.now)

/-- DRAIN_TIMEOUT (R503): a partition that has not drained in time. -/
def execDrainTimeout (p : PartNo) (s : State) : Host.Outcome State Fault Refusal :=
  .next (if (s.part p).mode = .draining ∧ s.drainDue p then s.forceDrain p else s)

/-- R401, R504: orders taken and not started complete when their partition enters RESETTING. -/
def State.rejectUnstarted (s : State) (p : PartNo) : State :=
  (s.host.orders.filter (fun o => decide (o.part = p) && !o.started)).foldl (fun t o => t.endOrder o (Done.reject 2 0b0111)) s

/-- The rubric cores of a partition (R84: three to a compute die). -/
def State.hartsOf (s : State) (p : PartNo) : List (Fin 24) :=
  (List.finRange 24).filter (fun k => (s.part p).dies.getLsbD (k.val / 3))

/-- R504: guest firmware starts anew on the rubric cores of a partition. -/
def State.restartHarts (s : State) (p : PartNo) : State :=
  (s.hartsOf p).foldl (fun t k => t.setRub k { Rubric.reset with offline := (t.rub k).offline }) s

/-- PARTITION_RESET (R504). A ring's stop completes within it (DEDUCED, log 33). -/
def execPartitionReset (k : Nat) (s : State) : Host.Outcome State Fault Refusal :=
  .next (match s.partitionOrder k 3 with
    | none => s
    | some o =>
      let p := o.target
      let s1 := s.beginOrder o.id
      if (s.part p).mode = .unformed then s1.endOrder o (Done.reject 2 0b0111)
      else
        let s2 := s1.setPartMode p .resetting
        let drains := s2.host.orders.filter (fun x => x.drains p)
        let s3 := (drains.foldl (fun (t : State) x => t.endOrder x (Done.reject 2 0b0010)) s2).rejectUnstarted p
        let s4 := (s3.resetCores (s3.coresOf p)).stopRings (s3.ringsOf p)
        let s5 := (s4.ringsOf p).foldl (fun (t : State) n => if (t.ring n).mode = .stopping then t.modRing n (fun r => { r with mode := .stopped }) else t) s4
        let s6 := (((s5.disarmPart p).abortFolios p).restartHarts p).modModu (fun u => { u with drainStart := Tab.set none u.drainStart p.val none })
        (s6.setPartMode p .idle).endPartition o)

end Sys2Proof.Machine
end

