-- ==== Sys2Proof/Machine/StoreOps.lean ====
section
/-! DEFINITION. The dictionary store (R417, R418), power-on from OFF and the loss of both domains (R505). -/

namespace Sys2Proof.Machine

/-- Changes the warden's record. -/
def State.modWard (s : State) (f : WardenState → WardenState) : State := { s with ward := f s.ward }

/-- Changes the security record. -/
def State.modSec (s : State) (f : SecState → SecState) : State := { s with sec := f s.sec }

/-- Changes the power record. -/
def State.modPower (s : State) (f : PowerState → PowerState) : State := { s with power := f s.power }

/-- Changes the connector's record. -/
def State.modPlug (s : State) (f : PlugState → PlugState) : State := { s with plug := f s.plug }

/-- R418: commits that had not ended when the warden stopped are lost, and the bank being written is bad. -/
def WardenState.cutCommit (w : WardenState) : WardenState :=
  { w with commitNow := [], commitNext := [], oldGood := w.oldGood && decide (w.commitNow = []) }

/-- R417, R418: the warden loads the store: the newer bank where its CRC is correct, else the older one, else every default;
STORE_RESTORED where the newer bank is bad. -/
def State.loadStore (s : State) (newOk oldOk : Bool) : State :=
  if newOk then s.takeImage s.ward.store
  else
    let image := if oldOk ∧ s.ward.oldGood then s.ward.older else []
    ((s.takeImage image).modWard (fun w => { w with store := image, older := [], oldGood := false })).report
      ⟨0x0902, dieX0, 0xFF, unitStore, .operation, []⟩

/-- R419: the outside learns the WMP status of a command that is a dictionary write. -/
def State.answer (x : State × Nat) : State := x.1.emit (.status x.2)

/-- R418, R448, R505: both domains are off. What OFF keeps: the store, the persisted records and retire lists (R461, R463), the
OTP (R469), the boot flash (R472), the core cut map (R366). -/
def State.powerOff (s : State) (plug : PlugState) : State :=
  let w := s.ward.cutCommit
  { State.reset with
    pending := s.pending, draws := s.draws, variant := s.variant, out := s.out,
    host := { HostState.reset with hostMem := s.host.hostMem, hostPoison := s.host.hostPoison, hostBad := s.host.hostBad },
    log := { LogState.reset with persisted := s.log.persisted, persistedNext := s.log.persistedNext },
    mem := { MemState.reset with retireList := s.mem.retireList },
    modu := { ModuleState.reset with cutMap := s.modu.cutMap, clearCuts := s.modu.clearCuts },
    sec := { SecState.reset with lifecycle := s.sec.lifecycle, revoked := s.sec.revoked, svnMin := s.sec.svnMin, images := s.sec.images },
    ward := { WardenState.reset with store := w.store, older := w.older, oldGood := w.oldGood, storeCommits := w.storeCommits },
    plug := plug }

end Sys2Proof.Machine
end

