-- ==== Sys2Proof/Machine/Power.lean ====
section
/-! DEFINITION. The pacing governor, root steps, the power limit, temperature and power states (R434 to R445). Demand is in
units of 0.1 W, G in thousandths of a watt. -/

namespace Sys2Proof.Machine

/-- R450, R458: a record of the governor, the thermal monitor or the hot-swap controller. -/
def State.powerReport (s : State) (code unit : Nat) (detail : List Byte) : State :=
  s.report ⟨code, 0xFF, 0xFF, unit, .operation, detail⟩

/-- The bytes of a word of detail that the manual quotes ("throttle", "critical", "inlet"; DEDUCED, log 40). -/
def asciiOf (t : String) : List Byte := t.toList.map (fun c => BitVec.ofNat 8 c.toNat)

/-! Root steps (R442) -/

/-- The step the root is to run at: the largest that R442's own steps, the input (R434), the power limit (R443) and the
temperature (R444) ask for. -/
def State.rootGoal (s : State) : Nat :=
  max (max s.power.wantBase.toNat s.power.wantLimit.toNat) (max s.power.wantThermal.toNat (if s.power.inputFault then 2 else 0))

/-- R442: a second PLL locks at the target; every clock runs at the old step meanwhile. -/
def State.beginStep (s : State) (t : Nat) : State := s.modClock (fun c => { c with stepBusy := true, stepTarget := BitVec.ofNat 2 t })

/-- The governor holds no root step. -/
def State.dropRootUp (s : State) : State := s.modPower (fun p => { p with held := p.held.filter (fun h => decide (h ≠ .rootUp)) })

/-- R436, R442: one step toward the goal, when no step is in progress. A step up is a rise, of a size the manual does not give
(a free value, log 1); it waits until it fits. -/
def State.stepRoot (s : State) : State :=
  let r := s.clock.rootStep.toNat
  let g := s.rootGoal
  if s.clock.stepBusy ∨ !s.mainOn then s
  else if r < g then s.dropRootUp.beginStep (r + 1)
  else if g < r then
    if .rootUp ∈ s.power.held then s
    else
      let rise := Config.freeNat s.draws
      let s1 := s.draw
      if s1.power.held = [] ∧ s1.fitsRise rise then (s1.addDemand rise).beginStep (r - 1)
      else s1.modPower (fun p => { p with held := p.held ++ [.rootUp] })
  else s.dropRootUp

/-- ROOT_STEP (R442): one step down or up is requested; requested during a step, it follows that step. -/
def execRootStep (up : Bool) (s : State) : Host.Outcome State Fault Refusal :=
  .next (let g := s.rootGoal
    let want := if up then g - 1 else min 2 (g + 1)
    (s.modPower (fun p => { p with wantBase := BitVec.ofNat 2 want })).stepRoot)

/-- ROOT_STEP_LOCK (R442): the clocks change on one edge; a further step follows if one is wanted. -/
def execRootStepLock (s : State) : Host.Outcome State Fault Refusal :=
  .next (if s.clock.stepBusy then
      (s.modClock (fun c => { c with rootStep := c.stepTarget, stepBusy := false, stepCount := c.stepCount + 1 })).stepRoot
    else s)

/-! The governor (R435 to R437) -/

/-- R437: cores that may run ballast, the highest linear number first. -/
def State.ballastCores (s : State) : List CoreNo :=
  allCores.reverse.filter (fun n => let c := s.core n
    decide (c.mode ≠ .off) && decide (c.mode ≠ .cut) && !(decide (c.mode = .running) && decide (c.phase = .compute)))

/-- R435: G after one microsecond, in thousandths of a watt. -/
def State.nextLevel (s : State) (demand : Nat) : Nat :=
  let g := 1000 * s.power.level.toNat + s.power.levelFrac
  let d := 1000 * demand
  let step := s.dictVal 0x2101 1
  if g ≤ d then min d (g + step) else max d (g - step)

/-- R437: ballast that fills a fall below G - band; what it cannot hold is a breach. -/
def State.fillFall (s : State) (g demand : Nat) : State :=
  let need := g - 1000 * s.dictVal 0x2101 2 - 1000 * demand
  let n := ceilDiv need (100 * ballastPer s.clock.rootStep)
  let cs := s.ballastCores
  let m := (cs.take n).foldl (fun (m : BitVec 128) c => m ||| BitVec.ofNat 128 (2 ^ c.val)) 0
  let s1 := s.setBallast m
  if cs.length < n then
    let s2 := if s.power.breach then s1 else s1.modPower (fun p => { p with breach := true, slewBreaches := p.slewBreaches + 1 })
    let due : Bool := match s.log.lastSlewBreach with
      | some t => decide (t + secTicks ≤ s.now)
      | none => true
    if due then
      let s3 := (s2.powerReport 0x0703 unitGovernor []).modPower (fun p => { p with slewEvent := true })
      { s3 with log := { s3.log with lastSlewBreach := some s.now } }
    else s2
  else s1.modPower (fun p => { p with breach := false })

/-- GOVERNOR_TICK (R435): every microsecond: P measured at the input and demand estimated, in watts. -/
def execGovernorTick (pIn demand : W16) (s : State) : Host.Outcome State Fault Refusal :=
  .next (if !s.power.governor then s
    else
      let h := (s.power.samples ++ [pIn]).drop (s.power.samples.length - 99)
      let mean := s.roundFree (sumNat (h.map (fun x => x.toNat)) : Nat) h.length
      let g := s.nextLevel demand.toNat
      let s1 := s.draw.modPower (fun p => { p with
        pIn := BitVec.ofInt 16 mean, samples := h, level := BitVec.ofNat 16 (g / 1000), levelFrac := g % 1000, demand := 10 * demand.toNat })
      s1.fillFall g demand.toNat)

/-- R66, R436: the cores of the lowest held group, with the privilege of each start. -/
def State.heldGroup (s : State) : List (CoreNo × BitVec 2) :=
  let hs := s.heldStarts
  match hs with
  | [] => []
  | h :: r =>
    let low := r.foldl (fun (a : CoreNo × BitVec 2) b => if b.1 < a.1 then b else a) h
    ((groupRun low.1 (s.groupSize low.1)).filterMap (fun n => hs.find? (fun x => decide (x.1 = n))))

/-- START_ADMIT (R436, R442): the lowest held group of starts, taken whole, when it fits; else a held root step, whose rise is
not the manual's and which the command says has come to fit. -/
def execStartAdmit (s : State) : Host.Outcome State Fault Refusal :=
  .next (let grp := s.heldGroup
    let add := grp.length * startCharge s.clock.rootStep
    if grp ≠ [] ∧ s.fitsRise add then
      let s1 := (s.addDemand add).modPower (fun p => { p with held := p.held.filter (fun h => match h with
        | .start n _ => !grp.any (fun x => decide (x.1 = n))
        | .rootUp => true) })
      grp.foldl (fun (t : State) x => if (t.core x.1).startOk then t.modCore x.1 (fun c => c.start x.2) else t) s1
    else if .rootUp ∈ s.power.held ∧ !s.clock.stepBusy ∧ s.rootGoal < s.clock.rootStep.toNat then
      s.dropRootUp.beginStep (s.clock.rootStep.toNat - 1)
    else s)

/-- SLEW_HOLD (R436): an action has been held for more than 10 ms; recorded at most once per second. -/
def execSlewHold (s : State) : Host.Outcome State Fault Refusal :=
  .next (let due : Bool := match s.log.lastSlewHold with
      | some t => decide (t + secTicks ≤ s.now)
      | none => true
    if s.power.held ≠ [] ∧ due then
      let s1 := (s.powerReport 0x0702 unitGovernor []).modPower (fun p => { p with slewEvent := true })
      { s1 with log := { s1.log with lastSlewHold := some s.now } }
    else s)

/-! The input (R434) -/

/-- INPUT_FAULT (R434): below 44 V for 1 ms: step 2, one step at a time, and issue gating. -/
def execInputFault (s : State) : Host.Outcome State Fault Refusal :=
  .next (if s.modu.state = .off ∨ s.power.inputFault then s
    else ((s.powerReport 0x0704 unitHotSwap []).modPower (fun p => { p with inputFault := true })).stepRoot)

/-- INPUT_RECOVERED (R434): at or above 46 V for 100 ms. -/
def execInputRecovered (s : State) : Host.Outcome State Fault Refusal :=
  .next (if s.power.inputFault then (s.modPower (fun p => { p with inputFault := false })).stepRoot else s)

/-- INPUT_OVERVOLTAGE (R434): above 62 V for 10 µs: the hot-swap stage opens and both domains go off. -/
def execInputOvervoltage (s : State) : Host.Outcome State Fault Refusal :=
  .next (if s.plug.precharge then
      s.powerOff { PlugState.reset with precharge := true, presence := s.plug.presence, slotPins := s.plug.slotPins, overvoltage := true }
    else s)

/-! The power limit and temperature (R443, R444) -/

/-- R443, R444: one root step further down. -/
def State.oneDown (s : State) : BitVec 2 := BitVec.ofNat 2 (min 2 (s.rootGoal + 1))

/-- POWER_LIMIT_CHECK (R443): the mean of P over 10 ms, in watts. -/
def execPowerLimitCheck (mean : W16) (s : State) : Host.Outcome State Fault Refusal :=
  .next (if !s.mainOn ∨ mean.toNat ≤ s.dictVal 0x2100 1 then s
    else if s.clock.rootStep = 2 then s.modPower (fun p => { p with gateLimit := true })
    else if s.clock.stepBusy then s
    else (s.modPower (fun p => { p with wantLimit := s.oneDown })).stepRoot)

/-- GATING_RELEASE (R443): the mean has stayed below 90% of the limit for 1 s. -/
def execGatingRelease (s : State) : Host.Outcome State Fault Refusal :=
  .next (if s.power.gateLimit ∨ s.power.wantLimit ≠ 0 then (s.modPower (fun p => { p with gateLimit := false, wantLimit := 0 })).stepRoot else s)

/-- R444: a THERMAL_LIMIT record and PWR_TEMP.throttle_event. -/
def State.thermalNote (s : State) (word : String) : State :=
  (s.powerReport 0x0701 unitThermal (asciiOf word)).modPower (fun p => { p with throttleEvent := true })

/-- R444, R445: a critical temperature: every core halted, the main domain off, FAULTED. -/
def State.criticalTemp (s : State) : State :=
  let s1 := ((s.thermalNote "critical").modPower (fun p => { p with fastFalls := p.fastFalls + 1 })).enterFaulted 0x0701
  let off := s1.mainOff
  off.modPower (fun p => { p with cMax := s1.power.cMax, mMax := s1.power.mMax, xMax := s1.power.xMax, hbmMax := s1.power.hbmMax,
                                  throttleEvent := true, fastFalls := s1.power.fastFalls, slewBreaches := s1.power.slewBreaches })

/-- R444: readings at or above throttle_temp for 1 ms, and after each further 10 ms, step the root down, and gate at step 2. -/
def State.throttleStep (s : State) : State :=
  let s1 := if s.power.throttle then s else (s.modPower (fun p => { p with throttle := true })).thermalNote "throttle"
  if s1.rootGoal = 2 then s1.modPower (fun p => { p with gateThermal := true })
  else (s1.modPower (fun p => { p with wantThermal := s1.oneDown })).stepRoot

/-- TEMPERATURE_REPORT (R444): the readings of one millisecond. -/
def execTemperatureReport (t : TempReport) (s : State) : Host.Outcome State Fault Refusal :=
  .next (if !s.mainOn then s
    else
      let hot := max (max t.cMax.toNat t.mMax.toNat) (max t.xMax.toNat t.hbmMax.toNat)
      let limit := s.dictVal 0x2120 1
      let above := if limit ≤ hot then s.power.msAbove + 1 else 0
      let below := if hot + 5 < limit then s.power.msBelow + 1 else 0
      let tooWarm := decide (s.dictVal 0x2120 3 < t.inlet.toNat)
      let s1 := s.modPower (fun p => { p with
        cMax := t.cMax, mMax := t.mMax, xMax := t.xMax, hbmMax := t.hbmMax, inlet := t.inlet, outlet := t.outlet,
        msAbove := above, msBelow := below, inletOver := tooWarm })
      let s2 := if tooWarm ∧ !s.power.inletOver then s1.thermalNote "inlet" else s1
      if s.dictVal 0x2120 2 ≤ hot then s2.criticalTemp
      else if 2 ≤ above ∧ (above - 2) % 10 = 0 then s2.throttleStep
      else if s2.power.throttle ∧ 101 ≤ below then
        (s2.modPower (fun p => { p with throttle := false, gateThermal := false, wantThermal := 0 })).stepRoot
      else s2)

/-! Power states (R439 to R441) -/

/-- The partition a unit belongs to. -/
def State.partOfUnit (s : State) (u : PUnit) : Option PartNo :=
  match u with
  | .core n => s.partOfCore n
  | .die c => s.partOfDie c
  | .hbm c => s.partOfDie c

/-- R196, R440: the predicted arrival for a core that waits on the ready word of a landing slot: the slot's last landing plus
the interval between its last two. -/
def State.predicted (s : State) (p : PartNo) (addr : Nat) : List Nat :=
  (s.ringsOf p).flatMap (fun n => (List.range (s.ring n).count).filterMap (fun k =>
    match s.landRec (s.ring n) k with
    | .ok rec =>
      let t := Tab.get (0, 0) (s.ring n).landTimes k
      if leField rec 24 8 = addr ∧ t.2 ≠ 0 then some (t.1 + (t.1 - t.2)) else none
    | .error _ => none))

/-- R440: the earliest known event that concerns a unit. -/
def State.nextEvent (s : State) (u : PUnit) : Option Nat :=
  let rule := match s.partOfUnit u with
    | some p => (s.ruling p).started.map (fun e => e.deadline.toNat)
    | none => []
  let arrive := match u, s.partOfUnit u with
    | .core n, some p => match (s.core n).wait with
      | some (.flag a _ _) => s.predicted p a
      | _ => []
    | _, _ => []
  match ([s.power.hint.toNat] ++ rule ++ arrive).filter (fun t => decide (s.now < t)) with
  | [] => none
  | t :: r => some (r.foldl min t)

/-- R439: the waits in which a core may rest. -/
def Core.restWait (c : Core) : Bool :=
  c.flags.tokenWait || match c.wait with
    | none => false
    | some (.waitin ..) => false
    | some _ => true

/-- R439: whether a unit meets the condition of its power states. A die's rubric cores are halted by firmware when each waits
in HX.WAITEV or is offline (DEDUCED, log 41). -/
def State.mayRest (s : State) (u : PUnit) : Bool :=
  match u with
  | .core n => let c := s.core n
               decide (c.mode = .idle) || (decide (c.mode = .running) && c.restWait)
  | .die c => s.dieMap.c.getLsbD c.val && match s.partOfDie c with
    | none => true
    | some p => decide ((s.part p).mode = .idle) && (List.finRange 24).all (fun k => decide (k.val / 3 ≠ c.val) ||
        (s.rub k).offline || (s.rub k).waitLimit.isSome)
  | .hbm c => s.mem.moves.all (fun m => decide (s.partOfDie c ≠ some m.part)) && s.mem.migrations.all (fun m => decide (s.partOfDie c ≠ some m.part))

/-- R439, R440: a state's entry, wake and break-even together, and its wake, in ns. -/
def PState.cost : PState → Nat × Nat
  | .run => (0, 0)
  | .c1 => (170, 50)
  | .c2 => (29000, 8000)
  | .c3 => (1170000, 150000)
  | .selfRefresh => (232000, 30000)

/-- R440: the states of a unit up to ps_max, the deepest first; only C1 needs no known event. -/
def State.statesOf (s : State) (u : PUnit) : List PState :=
  let m := s.dictVal 0x2110 1
  match u with
  | .core _ => if 2 ≤ m then [.c2, .c1] else [.c1]
  | .die _ => if 3 ≤ m then [.c3] else []
  | .hbm _ => if 4 ≤ m then [.selfRefresh] else []

/-- R440: the deepest state that fits before the next event, and the time its wake begins. Times are in 1/600 ns: a tick is 500
of them; a wake that falls between two ticks begins at the earlier. -/
def State.restChoice (s : State) (u : PUnit) : Option (PState × Option W64) :=
  let sts := s.statesOf u
  match s.nextEvent u with
  | none => if .c1 ∈ sts then some (.c1, none) else none
  | some t =>
    let w := 500 * (t - s.now)
    let guard := max (w / 100 * s.dictVal 0x2110 2) (600 * s.dictVal 0x2110 3)
    (sts.find? (fun x => decide (600 * x.cost.1 + guard ≤ w))).map (fun x =>
      (x, some (BitVec.ofNat 64 (t - ceilDiv (600 * x.cost.2 + guard) 500))))

/-- R487: the counters of a core whose die enters C3 start again at 0. -/
def State.sleepDie (s : State) (c : CDie) : State :=
  let s1 := (coresOfDie c).foldl (fun (t : State) n => t.modCore n Core.poweredOff) s
  (List.finRange 24).foldl (fun (t : State) k => if k.val / 3 = c.val then t.setRub k { Rubric.reset with offline := (t.rub k).offline } else t) s1

/-- POWER_STATE_ENTRY (R440): a unit that meets its condition enters the deepest state that fits. -/
def execPowerStateEntry (u : PUnit) (s : State) : Host.Outcome State Fault Refusal :=
  .next (if !s.mainOn ∨ !s.mayRest u ∨ s.power.asleep.any (fun a => decide (a.unit = u)) then s
    else match s.restChoice u with
      | none => s
      | some (x, t) =>
        let s1 := s.modPower (fun p => { p with asleep := p.asleep ++ [⟨u, x, t⟩] })
        match u with
        | .die c => s1.sleepDie c
        | _ => s1)

/-- R70, R439: a unit runs again; the cores of a die leave OFF for IDLE, bound to the partition of their die. -/
def State.wakeUnit (s : State) (u : PUnit) : State :=
  let s1 := s.modPower (fun p => { p with asleep := p.asleep.filter (fun a => decide (a.unit ≠ u)) })
  match u with
  | .die c =>
    let ns := (coresOfDie c).filter (fun n => decide ((s.core n).mode = .off))
    (ns.foldl (fun (t : State) n => t.setCore n Core.reset) s1).bindCores ns (s.partOfDie c)
  | _ => s1

/-- POWER_STATE_WAKE (R440, R441): a planned wake begins; it is admitted even if it does not fit. -/
def execPowerStateWake (u : PUnit) (s : State) : Host.Outcome State Fault Refusal :=
  .next (if s.power.asleep.any (fun a => decide (a.unit = u)) then s.wakeUnit u else s)

/-- EARLY_WAKE (R440): an event ends the wait before the planned wake; it is counted. -/
def execEarlyWake (u : PUnit) (s : State) : Host.Outcome State Fault Refusal :=
  .next (if s.power.asleep.any (fun a => decide (a.unit = u)) then
      let s1 := (s.wakeUnit u).modPower (fun p => { p with earlyWakes := p.earlyWakes + 1 })
      match u with
      | .core n => s1.countCore n 0x1D 1
      | _ => s1
    else s)

end Sys2Proof.Machine
end

