-- ==== Sys2Proof/Machine/ModuleStates.lean ====
section
/-! DEFINITION. Module states, bring-up, module standby and hot plug (R446 to R448, R465, R471 to R475, R496 to R501, R510 to
R514). -/

namespace Sys2Proof.Machine

/-! Images (R470 to R475) -/

/-- The image in a bank (0 A, 1 B) of a component. -/
def State.bankImage (s : State) (c b : Nat) : Image := Tab.get Image.absent s.sec.images (2 * c + b)

/-- The minimum security version of a component (R469). -/
def State.svnMin (s : State) (c : Nat) : Nat := ((s.sec.svnMin.toList)[c - 1]?.getD 0).toNat

/-- R471: everything the verifier asks but the security version: the image's own checks, a key slot that is not revoked and is
accepted in the life-cycle state (R482: none is in END). -/
def State.imageSigned (s : State) (i : Image) : Bool :=
  i.valid && !s.sec.revoked.getLsbD i.slot.toNat && (decide (i.slot ≠ 3) || decide (s.sec.lifecycle = 0)) && decide (s.sec.lifecycle ≠ 3)

/-- R471: an image passes. -/
def State.imageOk (s : State) (c : Nat) (i : Image) : Bool := s.imageSigned i && decide (s.svnMin c ≤ i.security.toNat)

/-- R472: the image a component starts from, bank A first, or the code of its failure: ROLLBACK where in both banks the security
version is the only failure (DEDUCED, log 43). -/
def State.pickImage (s : State) (c : Nat) : Except Nat (Image × Nat) :=
  let a := s.bankImage c 0
  let b := s.bankImage c 1
  if s.imageOk c a then .ok (a, 0)
  else if s.imageOk c b then .ok (b, 1)
  else if s.imageSigned a ∧ s.imageSigned b then .error 0x0802
  else .error 0x0801

/-- R475: a measurement block. -/
def State.measureAs (s : State) (i : Nat) (d : BitVec 384) : State := s.modSec (fun x => { x with measure := Tab.set 0 x.measure i d })

/-- R475, R509: an accepted image is measured and runs. -/
def State.runImage (s : State) (c : Nat) (i : Image) (b : Nat) : State :=
  (s.measureAs (c + 1) i.digest).modSec (fun x => { x with
    running := Tab.set Image.absent x.running c i, bank := Tab.set 0 x.bank c b })

/-- R472, R485: a record of a failed verification. -/
def State.verifyFailed (s : State) (code : Nat) : State := s.report ⟨code, dieX0, 0xFF, unitWarden, .operation, []⟩

/-- R475: the measurements taken at boot. -/
def State.measureBoot (s : State) : State :=
  ((s.measureAs 1 Config.romDigest).measureAs 7 (Config.otpDigest s.sec.revoked s.sec.svnMin.toList s.sec.lifecycle)).measureAs 8
    (Config.debugDigest s.sec.debugScope)

/-- R483: the debug state in force is measured. -/
def State.measureDebug (s : State) : State := s.measureAs 8 (Config.debugDigest s.sec.debugScope)

/-- R475, R484: the RWP entries of the range 0x8000 to 0x8FFF are measured at each commit. -/
def State.measureEntries (s : State) : State :=
  s.measureAs 9 (Config.entriesDigest ([1, 2, 3].map (fun i => (dictKey 0x8020 i, s.storedVal 0x8020 i))))

/-- R508: components whose applied images now run are no longer pending. -/
def State.activated (s : State) (q : Nat → Bool) : State :=
  s.modSec (fun x =>
    let left := x.update.pending.filter (fun c => !q c)
    { x with update := { x.update with pending := left, state := if x.update.state = 5 ∧ left = [] then 0 else x.update.state } })

/-- R472, R483: the ROM verifies the warden; if neither bank passes, its recovery loader runs. *debug_nonce* is drawn. -/
def State.bootWarden (s : State) : State :=
  match s.pickImage 1 with
  | .ok (i, b) => ((((s.runImage 1 i b).activated (fun c => decide (c = 1))).measureBoot).modSec (fun x => { x with
      nonce := Config.random s.draws })).draw.modWard (fun w => { w with recovery := false })
  | .error c => (s.verifyFailed c).modWard (fun w => { w with recovery := true })

/-! Bring-up (R498 to R500) -/

/-- R351: the fabric address of the module's place. -/
def State.placeAddress (s : State) : W32 :=
  BitVec.ofNat 32 ((s.plug.slot.getD 0).toNat + 16 * (s.dictVal 0x3010 2 % 8) + 128 * (s.dictVal 0x3010 1 % 4096))

/-- R463: the frames on the retire lists are RETIRED when the frame tables are built. -/
def State.retireListed (s : State) : State :=
  (s.mem.retireList.flatMap (fun e => e.2)).foldl (fun t f => t.setFrame f ⟨0, 3, 0, false, false, false, false⟩) s

/-- R480, R482, R483: what the next bring-up puts in force: wire encryption, a debug token's scope, entry to RMA. -/
def SecState.atBringup (x : SecState) (enc : Bool) : SecState :=
  { x with wireEnc := enc, debugScope := if x.debugNext = 0 then x.debugScope else x.debugNext, debugNext := 0,
           lifecycle := if x.rmaNext ∧ x.lifecycle = 1 then 2 else x.lifecycle, rmaNext := false }

/-- R498 steps 1 to 9: the main domain comes up: clocks locked, ports enabled with encryption as *link_enc* says, the fabric
address and the board's size taken (R368), memory built. -/
def State.startBringup (s : State) : State :=
  let s1 := s.setModState .bringup
  let enc := decide (s.dictVal 0x3140 0 = 1)
  let s2 := s1.modModu (fun u => { u with bringupStart := s.clock.time, bringupCount := u.bringupCount + 1, boardInit := 0 })
  let s3 := s2.modPlug (fun p => { p with mainOn := true, waitingBringup := false, ledBlue := false })
  let s4 := (s3.modPower (fun p => { p with governor := true })).modClock (fun c => { c with rootLock := true, forwardUsed := false })
  let addr := s4.placeAddress
  let size := s4.dictVal 0x3010 4
  let s5 := s4.modLink (fun l => { l with
    address := addr, boardSize := size, ports := l.ports.mapIdx (fun i x => { x with enable := true, encReq := if i < 30 then enc else x.encReq, mode := .down }) })
  (((s5.retireListed).modSec (fun x => x.atBringup (decide (s.dictVal 0x8020 3 = 1)))).measureDebug).chooseRoot

/-- R497, R512: BRINGUP is requested: it waits while PRSNT# is open. -/
def State.requestBringup (s : State) : State :=
  if s.plug.presence then s.startBringup else s.modPlug (fun p => { p with waitingBringup := true })

/-- R497: the main domain goes off before a bring-up from SAFE_REMOVE or FAULTED; a fault's cause is over. -/
def State.cycleMain (s : State) : State :=
  let s1 := if s.mainOn then s.mainOff else s
  ({ s1 with log := { s1.log with faultCause := 0 } } : State)

/-- R497: a request for BRINGUP; the status answers the request. -/
def State.askBringup (s : State) : State × Nat :=
  match s.modu.state with
  | .standby => if s.sec.lifecycle = 3 then (s, wmpState) else (s.requestBringup, wmpOk)
  | .safeRemove => if s.sec.lifecycle = 3 then (s, wmpState) else (s.cycleMain.requestBringup, wmpOk)
  | .faulted => if s.sec.lifecycle = 3 then (s, wmpState) else (s.cycleMain.requestBringup, wmpOk)
  | _ => (s, wmpState)

/-- STATE_REQUEST_BRINGUP (R497, R498). -/
def execStateRequestBringup (s : State) : Host.Outcome State Fault Refusal := .next (State.answer s.askBringup)

/-- R472: the images of components 0x02 to 0x05, or the code of the first that fails in both banks. -/
def State.verifyMain (s : State) : Except Nat (List (Nat × Image × Nat)) :=
  [2, 3, 4, 5].foldl (fun a c => match a, s.pickImage c with
    | .error e, _ => .error e
    | _, .error e => .error e
    | .ok l, .ok (i, b) => .ok (l ++ [(c, i, b)])) (.ok [])

/-- R499: a bring-up is abandoned: the main domain goes off, STANDBY. -/
def State.abandonBringup (s : State) (code : Nat) : State :=
  let s1 := (s.verifyFailed code).mainOff
  (s1.modModu (fun u => { u with bringupResult := BitVec.ofNat 16 code })).setModState .standby

/-- R366, R499: the cores of the dies in service: IDLE, or CUT by the map as it stands after the self-test. -/
def State.placeCores (s : State) (good : BitVec 8) (cut : BitVec 128) : State :=
  { s with cores := Vector.ofFn (fun (n : Fin 128) =>
      let base := (s.core n)
      if cut.getLsbD n.val then { base with mode := .cut }
      else if good.getLsbD (dieOfCore n).val then { Core.reset with regs := CoreRegs.reset } else base.poweredOff) }

/-- R499: the records of the compute dies left out, the cores that failed and the flash shares that failed their scan. -/
def State.bringupRecords (s : State) (r : BringupOutcome) : State :=
  let s1 := (maskDies r.badDies).foldl (fun (t : State) c => t.report ⟨0x040D, c.val, 0xFF, 0x0900 + c.val, .die, []⟩) s
  let s2 := (allCores.filter (fun n => r.badCores.getLsbD n.val)).foldl (fun (t : State) n => t.cutRecord n) s1
  (maskDies r.badFlash).foldl (fun (t : State) c => t.report ⟨0x020D, dieM (mdieOf c), 0xFF, unitMigration (4 * (mdieOf c).val), .operation,
    retiredDetail (shareBase 2 c) (Tab.get [] t.mem.retireList (mdieOf c).val).length false⟩) s2

/-- R447: a debounced press of the attention button. -/
def State.pressButton (s : State) : State :=
  if s.plug.buttonPending then
    s.modPlug (fun p => { p with buttonPending := false, ledBlink := false, ledPower := p.pwrInd })
  else s.modPlug (fun p => { p with buttonPending := true, ledBlink := true })

/-- R497: a press held during BRINGUP acts when READY is entered. -/
def State.heldPress (s : State) : State :=
  if s.plug.buttonHeld then (s.modPlug (fun p => { p with buttonHeld := false })).pressButton else s

/-- R498 steps 10 and 11: the runtime runs and the module is READY. -/
def State.endBringup (s : State) (r : BringupOutcome) (imgs : List (Nat × Image × Nat)) : State :=
  let good := ~~~r.badDies
  let cut := (if s.modu.clearCuts then 0 else s.modu.cutMap) ||| r.badCores
  let s1 := (imgs.foldl (fun (t : State) x => t.runImage x.1 x.2.1 x.2.2) s).activated (fun c => decide (c ≠ 1))
  let s2 := ((s1.placeCores good cut).bringupRecords r).modMem (fun m => { m with flashOut := r.badFlash })
  let ms := s2.roundFree ((s.now - s.modu.bringupStart.toNat : Nat) : Int) msTicks
  let s3 := s2.draw.modModu (fun u => { u with
    cutMap := cut, dieOut := r.badDies, clearCuts := false, bringupResult := 0, bringupTime := BitVec.ofInt 32 ms })
  let s4 := { s3 with dieMap := ⟨good, 0xF, 0x3, false⟩, rubric := Vector.replicate 24 Rubric.reset }
  let s5 := s4.modHost (fun h => { h with linkUp := r.pcieUp })
  (s5.setModState .ready).heldPress

/-- BRINGUP_COMPLETE (R498, R499): a failed image abandons the bring-up; the loss of a memory-side or I/O die, no PLL lock or no
compute die left is FAULTED (its cause is MODULE_FAULT itself, log 44); otherwise READY. -/
def execBringupComplete (r : BringupOutcome) (s : State) : Host.Outcome State Fault Refusal :=
  .next (if s.modu.state ≠ .bringup then s
    else match s.verifyMain with
      | .error c => s.abandonBringup c
      | .ok imgs =>
        if r.fatal ∨ r.badDies = 0xFF then
          (s.enterFaulted 0x0904).modModu (fun u => { u with bringupResult := 0x0904 })
        else s.endBringup r imgs)

/-- BOARD_MEMORY_INIT (R500): the first `f` frames of a share's board memory have valid check bits; orders that wait for board
memory are tried again. -/
def execBoardMemoryInit (c : CDie) (f : W32) (s : State) : Host.Outcome State Fault Refusal :=
  .next (if !s.mainOn then s
    else
      let total := shareFrames s.variant 1
      let have_ := (Tab.get none s.mem.boardInit c.val).getD 0
      let s1 := s.modMem (fun m => { m with boardInit := Tab.set none m.boardInit c.val (some (max have_ (min f.toNat total))) })
      let done := sumNat ((List.range 8).map (fun d => (Tab.get none s1.mem.boardInit d).getD 0))
      let pct := s1.roundFree ((100 * done : Nat) : Int) (8 * total)
      (s1.draw.modModu (fun u => { u with boardInit := BitVec.ofInt 8 pct })).retryWaits (fun w => decide (w.tier = none)))

/-! Standby and quiesce (R447, R497, R501) -/

/-- R501: module standby from READY. -/
def State.enterStandby (s : State) : State :=
  let s1 := (allParts.foldl (fun (t : State) p => t.abortFolios p) s).stopRings (List.finRange 16)
  let s2 := (s1.modMem (fun m => { m with wb := [] })).departAll
  s2.mainOff.setModState .standby

/-- R497: a request for STANDBY. -/
def State.askStandby (s : State) : State × Nat :=
  match s.modu.state with
  | .ready => (s.enterStandby, wmpOk)
  | .safeRemove => ((s.modPlug (fun p => { p with ledBlue := false })).setModState .standby, wmpOk)
  | .faulted => (s.cycleMain.setModState .standby, wmpOk)
  | _ => (s, wmpState)

/-- STATE_REQUEST_STANDBY (R497, R501). -/
def execStateRequestStandby (s : State) : Host.Outcome State Fault Refusal := .next (State.answer s.askStandby)

/-- R447 step 1: QUIESCING is entered; a press is over. -/
def State.startQuiesce (s : State) : State :=
  ((s.modModu (fun u => { u with quiesce := .quiesce })).modPlug (fun p => { p with
    buttonPending := false, ledBlink := false, ledPower := p.pwrInd })).setModState .quiescing

/-- R497: a request for QUIESCING. -/
def State.askQuiesce (s : State) : State × Nat :=
  if s.modu.state = .ready ∨ s.modu.state = .active then (s.startQuiesce, wmpOk) else (s, wmpState)

/-- STATE_REQUEST_QUIESCING (R447, R497). -/
def execStateRequestQuiescing (s : State) : Host.Outcome State Fault Refusal := .next (State.answer s.askQuiesce)

/-- R497: a quiesce is cancelled before its depart notice. -/
def State.askReady (s : State) : State × Nat :=
  if s.modu.state = .quiescing ∧ s.modu.quiesce = .quiesce then
    (((s.modModu (fun u => { u with quiesce := .none })).setModState .ready).autoState, wmpOk)
  else (s, wmpState)

/-- STATE_REQUEST_READY (R497). -/
def execStateRequestReady (s : State) : Host.Outcome State Fault Refusal := .next (State.answer s.askReady)

/-- R447: a partition that is not IDLE when the timeout passes is drained by force (DEDUCED, log 45). -/
def State.forceIdle (s : State) (p : PartNo) : State :=
  let s1 := s.abortFolios p
  if (s1.part p).mode = .running ∨ (s1.part p).mode = .draining then (s1.forceDrain p).endDrain p else s1

/-- QUIESCE_DONE (R447 steps 1 and 2): every partition is IDLE, or quiesce_timeout has passed: depart notices, ports disabled. -/
def execQuiesceDone (s : State) : Host.Outcome State Fault Refusal :=
  .next (if s.modu.state = .quiescing ∧ s.modu.quiesce = .quiesce then
      ((allParts.foldl (fun (t : State) p => t.forceIdle p) s).departAll).modModu (fun u => { u with quiesce := .departed })
    else s)

/-- SAFE_REMOVE (R447 steps 3 to 5): the main domain is off; the blue indicator is on. -/
def execSafeRemove (s : State) : Host.Outcome State Fault Refusal :=
  .next (if s.modu.state = .quiescing ∧ s.modu.quiesce = .departed then
      ((s.mainOff.modModu (fun u => { u with quiesce := .none })).modPlug (fun p => { p with ledBlue := true })).setModState .safeRemove
    else s)

/-! Losses (R465) -/

/-- ROOT_PLL_LOSS (R465): root PLL lock lost for 100 µs. -/
def execRootPllLoss (s : State) : Host.Outcome State Fault Refusal :=
  .next (if s.mainOn then (s.modClock (fun c => { c with rootLock := false })).enterFaulted 0x0904 else s)

/-- LOSS_OF_MEMORY_SIDE_DIE (R465): dies 8 to 11 are M0 to M3, 12 and 13 X0 and X1 (R457). -/
def execLossOfMemorySideDie (die : Byte) (s : State) : Host.Outcome State Fault Refusal :=
  .next (let d := die.toNat
    if !s.mainOn ∨ d < 8 ∨ 14 ≤ d then s
    else
      let m := s.dieMap
      let map : DieMap := if d < 12 then { m with m := m.m &&& ~~~(BitVec.ofNat 4 (2 ^ (d - 8))), changed := true }
                          else { m with x := m.x &&& ~~~(BitVec.ofNat 2 (2 ^ (d - 12))), changed := true }
      ({ s with dieMap := map } : State).enterFaulted 0x0904)

/-! Hot plug (R446 to R448, R511 to R514) -/

/-- PRECHARGE_CONTACT (R446 step 1): soft start begins. -/
def execPrechargeContact (s : State) : Host.Outcome State Fault Refusal :=
  .next (if s.plug.overvoltage then s else s.modPlug (fun p => { p with precharge := true }))

/-- SOFT_START_DONE (R446 step 1): the hot-swap stage is fully on. -/
def execSoftStartDone (s : State) : Host.Outcome State Fault Refusal :=
  .next (if s.plug.precharge ∧ !s.plug.overvoltage then s.modPlug (fun p => { p with softStart := true }) else s)

/-- STANDBY_RAILS_GOOD (R446 step 2, R472): the boot ROM verifies the warden. -/
def execStandbyRailsGood (s : State) : Host.Outcome State Fault Refusal :=
  .next (if s.plug.softStart ∧ !s.plug.standbyRails then (s.modPlug (fun p => { p with standbyRails := true })).bootWarden else s)

/-- R513: the warden latches the slot once, when presence is closed and the standby domain is up. -/
def State.latchSlot (s : State) : State :=
  if s.plug.presence ∧ s.plug.wardenUp ∧ s.plug.slot = none then s.modPlug (fun p => { p with slot := some p.slotPins }) else s

/-- WARDEN_READY (R446 step 3, R418): the store is loaded, the warden answers, STANDBY, and BRINGUP with *auto_enable*. The recovery
loader enters no module state (R472). -/
def execWardenReady (newOk oldOk : Bool) (s : State) : Host.Outcome State Fault Refusal :=
  .next (if !s.plug.standbyRails ∨ s.plug.wardenUp then s
    else
      let s1 := ((s.modPlug (fun p => { p with wardenUp := true })).modWard (fun w => { w with up := true })).latchSlot
      if s.ward.recovery then s1
      else
        let s2 := ((s1.loadStore newOk oldOk).measureEntries).setModState .standby
        if s2.dictVal 0x2100 2 = 1 then s2.askBringup.1 else s2)

/-- ATTENTION_BUTTON (R447, R497): a press raises the event to the slot's downstream port; held during BRINGUP. -/
def execAttentionButton (s : State) : Host.Outcome State Fault Refusal :=
  .next (match s.modu.state with
    | .bringup => s.modPlug (fun p => { p with buttonHeld := true })
    | .ready => (s.emit .attentionEvent).pressButton
    | .active => (s.emit .attentionEvent).pressButton
    | .off => s
    | _ => s.emit .attentionEvent)

/-- BUTTON_DELAY_EXPIRY (R447): button_delay after the press. -/
def execButtonDelayExpiry (s : State) : Host.Outcome State Fault Refusal :=
  .next (if s.plug.buttonPending then
      if s.modu.state = .ready ∨ s.modu.state = .active then s.startQuiesce
      else s.modPlug (fun p => { p with buttonPending := false, ledBlink := false, ledPower := p.pwrInd })
    else s)

/-- PRESENCE_CLOSE (R512, R513): the slot is latched, and a bring-up that waits begins. -/
def execPresenceClose (pins : BitVec 4) (s : State) : Host.Outcome State Fault Refusal :=
  .next (let s1 := (s.modPlug (fun p => { p with presence := true, slotPins := pins })).latchSlot
    if s1.plug.waitingBringup then s1.startBringup else s1)

/-- SURPRISE_REMOVAL (R445, R448, R512): PRSNT# opens, or the input falls below 40 V. With the main domain powered the transmitters
stop at once, the governor stops, the host sees the link down, and the module is OFF. -/
def execSurpriseRemoval (lowInput : Bool) (s : State) : Host.Outcome State Fault Refusal :=
  .next (let gone := s.plug.presence && lowInput
    if s.mainOn ∨ (lowInput ∧ s.modu.state ≠ .off) then
      (s.powerOff { PlugState.reset with precharge := true, presence := gone, slotPins := s.plug.slotPins, transmittersOff := s.mainOn }).modPower
        (fun p => { p with fastFalls := s.power.fastFalls + 1 })
    else s.modPlug (fun p => { p with presence := gone }))

/-- INPUT_RESTORED (R434): after an overvoltage cut-off the module powers on from OFF, from its soft start. -/
def execInputRestored (s : State) : Host.Outcome State Fault Refusal :=
  .next (if s.plug.overvoltage then s.modPlug (fun p => { p with overvoltage := false }) else s)

/-- PRECHARGE_BREAK (R512): with the main domain off, the standby domain goes off. -/
def execPrechargeBreak (s : State) : Host.Outcome State Fault Refusal :=
  .next (if s.mainOn then s else s.powerOff PlugState.reset)

/-- INDICATOR_COMMAND (R514): the front indicators follow the downstream port, but for a power indicator that blinks. -/
def execIndicatorCommand (pwr att : Bool) (s : State) : Host.Outcome State Fault Refusal :=
  .next (s.modPlug (fun p => { p with
    pwrInd := pwr, attInd := att, ledAttention := att, ledPower := if p.ledBlink then p.ledPower else pwr }))

end Sys2Proof.Machine
end

