-- ==== Sys2Proof/Machine/Security.lean ====
section
/-! DEFINITION. Security: the life cycle, debug tokens, key slots and minimum versions (R469 to R473, R482 to R484), the SPDM
responder and its sessions (R474 to R478, R481), restarts of the warden (R415, R508). -/

namespace Sys2Proof.Machine

/-! Tokens and images (R470, R471) -/

/-- R470: the header of a signed image or token, the bytes both signatures cover, and its body. -/
structure Signed where
  kind : Nat
  version : Nat
  component : Nat
  slot : Nat
  security : Nat
  build : Nat
  bodyLen : Nat
  bodyDigest : BitVec 384
  keys : List Byte
  bytes : List Byte
  body : List Byte
  deriving DecidableEq, Repr

/-- R470: reads the 8 KiB header; the body follows at byte 8,192. -/
def Signed.ofBytes (b : List Byte) : Signed :=
  { kind := leField b 0 1, version := leField b 1 1, component := leField b 2 1, slot := leField b 3 1, security := leField b 4 4,
    build := leField b 8 4, bodyLen := leField b 12 4, bodyDigest := BitVec.ofNat 384 (leField b 16 48),
    keys := (b.drop 160).take 2688, bytes := b.take 8192, body := b.drop 8192 }

/-- R471, R482: what the verifier asks of a signed image of a kind and component, but for its security version: the key slot is
valid, accepted in the life-cycle state and names both keys, the body's digest, both signatures. -/
def State.signedOk (s : State) (x : Signed) (kind component : Nat) : Bool :=
  decide (x.kind = kind) && decide (x.version = 1) && decide (x.component = component) && decide (x.bytes.length = 8192) &&
  decide (x.slot < 4) && !s.sec.revoked.getLsbD x.slot && (decide (x.slot ≠ 3) || decide (s.sec.lifecycle = 0)) &&
  decide (s.sec.lifecycle ≠ 3) && decide (Config.sha384 x.keys = Config.keyDigest x.slot) && decide (x.body.length = x.bodyLen) &&
  decide (Config.sha384 x.body = x.bodyDigest) && Config.ecdsaOk x.bytes && Config.mldsaOk x.bytes

/-! Life cycle and debug (R482 to R484) -/

/-- R483: a token's scope bits that are not reserved. -/
def scopeMask : Byte := 0x87

/-- R471, R483: a debug token is this module's, for the nonce that stands. -/
def State.tokenOk (s : State) (x : Signed) : Bool :=
  s.signedOk x 0x81 0x10 && decide (x.body.length = 48) && decide (leField x.body 0 8 = Config.serial.toNat) &&
  decide (leField x.body 8 32 = s.sec.nonce.toNat)

/-- R483: a write of *debug_token*: accepted only in STANDBY; it takes effect at the next BRINGUP. A scope with bit 7 also enters
RMA from PROD (R482). -/
def State.askToken (s : State) (token : List Byte) : State × Nat :=
  let x := Signed.ofBytes token
  if s.modu.state ≠ .standby then (s, wmpState)
  else if s.tokenOk x then
    let scope : Byte := BitVec.ofNat 8 (leField x.body 40 8) &&& scopeMask
    (s.modSec (fun y => { y with debugNext := scope, rmaNext := y.rmaNext || scope.getLsbD 7 }), wmpOk)
  else (s.report ⟨0x0804, dieX0, 0xFF, unitWarden, .operation, []⟩, wmpRange)

/-- DEBUG_TOKEN_WRITE (R483). -/
def execDebugTokenWrite (token : List Byte) (s : State) : Host.Outcome State Fault Refusal := .next (State.answer (s.askToken token))

/-- R483: each read of *debug_nonce* draws a new value. -/
def State.drawNonce (s : State) : State := (s.modSec (fun x => { x with nonce := Config.random s.draws })).draw

/-- DEBUG_NONCE_READ (R483). -/
def execDebugNonceRead (s : State) : Host.Outcome State Fault Refusal :=
  .next (if s.ward.up then s.drawNonce.emit (.nonce s.drawNonce.sec.nonce) else s)

/-- R482, R484: *lifecycle_end*, in STANDBY: END; debug is closed, every derived key is zeroised, and no session stands. -/
def State.askEnd (s : State) (v : Nat) : State × Nat :=
  if v ≠ 0xA5 then (s, wmpRange)
  else if s.modu.state ≠ .standby then (s, wmpState)
  else (s.modSec (fun x => { x with lifecycle := 3, debugScope := 0, debugNext := 0, sessions := [], conns := [] }), wmpOk)

/-- LIFECYCLE_END (R482). -/
def execLifecycleEnd (v : Byte) (s : State) : Host.Outcome State Fault Refusal := .next (State.answer (s.askEnd v.toNat))

/-- R473: *commit_svn* raises every component's minimum to the version of the image that runs. -/
def State.askCommit (s : State) (v : Nat) : State × Nat :=
  if v ≠ 1 then (s, wmpRange)
  else
    let up (i : Fin 5) : W32 :=
      let now := s.sec.svnMin[i.val]
      let img := Tab.get Image.absent s.sec.running (i.val + 1)
      if now.toNat < img.security.toNat then img.security else now
    (s.modSec (fun x => { x with svnMin := Vector.ofFn up }), wmpOk)

/-- COMMIT_SVN (R473). -/
def execCommitSvn (v : Byte) (s : State) : Host.Outcome State Fault Refusal := .next (State.answer (s.askCommit v.toNat))

/-- R484: *revoke_slot*: never the slot of a running image. -/
def State.askRevoke (s : State) (v : Nat) : State × Nat :=
  if 3 < v ∨ s.sec.running.any (fun e => decide (e.2.slot.toNat = v)) then (s, wmpRange)
  else (s.modSec (fun x => { x with revoked := x.revoked ||| BitVec.ofNat 4 (2 ^ v) }), wmpOk)

/-- REVOKE_SLOT (R484). -/
def execRevokeSlot (i : Byte) (s : State) : Host.Outcome State Fault Refusal := .next (State.answer (s.askRevoke i.toNat))

/-! Restarts of the warden (R415, R508) -/

/-- R508: an update that stood in its agent's hands ends with the warden; what waits for activation stays pending. -/
def UpdateState.afterRestart (u : UpdateState) : UpdateState :=
  { UpdateState.reset with pending := u.pending, state := if u.pending = [] then 0 else 5 }

/-- R415, R423: the warden stops: requests in flight are lost without an answer, and the kept responses are discarded. -/
def State.stopWarden (s : State) (quiet : Bool) : State :=
  let idle (m : Mailbox) : Mailbox := { m with busy := false }
  let w := s.ward.cutCommit
  (s.modSec (fun x => { x with update := x.update.afterRestart })).modWard (fun _ =>
    { w with up := false, quiet := quiet, staging := [], kept := [], mailboxes := w.mailboxes.map idle })

/-- R508: *restart_warden*: STATE while an image is being applied. -/
def State.askRestart (s : State) (v : Nat) : State × Nat :=
  if v ≠ 0x5A then (s, wmpRange)
  else if s.sec.update.state = 4 then (s, wmpState)
  else (s.stopWarden true, wmpOk)

/-- RESTART_WARDEN (R508). -/
def execRestartWarden (v : Byte) (s : State) : Host.Outcome State Fault Refusal := .next (State.answer (s.askRestart v.toNat))

/-- WARDEN_WATCHDOG (R415): the warden restarts; the main side, the link states and global time go on. -/
def execWardenWatchdog (s : State) : Host.Outcome State Fault Refusal := .next (if s.ward.up then s.stopWarden false else s)

/-- WARDEN_RESTART (R415, R505, R508): the warden runs again with the RWP entries of the store. A restart that was asked for takes
the pending warden image and writes no record. -/
def execWardenRestart (newOk oldOk : Bool) (s : State) : Host.Outcome State Fault Refusal :=
  .next (if s.ward.up ∨ !s.plug.wardenUp then s
    else
      let s0 := s.modWard (fun w => { w with kept := [] })
      let s1 := if s.ward.quiet then s0.bootWarden else s0
      if s1.ward.recovery then s1.modWard (fun w => { w with up := true, quiet := false })
      else
        let s2 := (s1.loadStore newOk oldOk).modWard (fun w => { w with up := true, quiet := false })
        if s.ward.quiet then s2 else s2.report ⟨0x0903, dieX0, 0xFF, unitWarden, .operation, []⟩)

/-! SPDM (R474 to R478, R481) -/

/-- R411, R476: the states in which the paths of the host are served. -/
def State.hostPathUp (s : State) : Bool :=
  match s.modu.state with
  | .ready => true
  | .active => true
  | .quiescing => true
  | .faulted => s.mainOn
  | _ => false

/-- R476, R482: the responder serves a path; the recovery loader and the life-cycle state END serve none. -/
def State.spdmUp (s : State) (path : SpdmPath) : Bool :=
  s.ward.up && !s.ward.recovery && decide (s.sec.lifecycle ≠ 3) && match path with
    | .i3c _ => decide (s.modu.state ≠ .off)
    | .udp _ _ => decide (s.modu.state ≠ .off)
    | .pcie _ => s.hostPathUp
    | .doe => s.hostPathUp
    | .link p => decide ((s.port p).mode = .keying) || decide ((s.port p).mode = .up)
    | .endToEnd _ => s.mainOn

/-- R476: the connection of a requester. -/
def State.conn (s : State) (path : SpdmPath) : SpdmConn :=
  (s.sec.conns.find? (fun c => decide (c.path = path))).getD ⟨path, 0, [], []⟩

/-- Changes a connection. -/
def State.setConn (s : State) (c : SpdmConn) : State :=
  s.modSec (fun x => { x with conns := x.conns.filter (fun y => decide (y.path ≠ c.path)) ++ [c] })

/-- R476: an answer on a path. -/
def State.spdmReply (s : State) (path : SpdmPath) (r : SpdmReply) : State := s.emit (.spdm path r)

/-- R476: a request that needs `stage`: answered with `f`, or refused as out of place. -/
def State.spdmAt (s : State) (path : SpdmPath) (stage : Nat) (f : State → State) : State :=
  if !s.spdmUp path then s
  else if (s.conn path).stage < stage then s.spdmReply path (.error .unexpectedRequest)
  else f s

/-- GET_VERSION (R476): the connection begins. -/
def execGetVersion (path : SpdmPath) (s : State) : Host.Outcome State Fault Refusal :=
  .next (s.spdmAt path 0 (fun t => (t.setConn ⟨path, 1, [], []⟩).spdmReply path .version))

/-- GET_CAPABILITIES (R476). -/
def execGetCapabilities (path : SpdmPath) (s : State) : Host.Outcome State Fault Refusal :=
  .next (s.spdmAt path 1 (fun t => (t.setConn { t.conn path with stage := 2 }).spdmReply path .capabilities))

/-- NEGOTIATE_ALGORITHMS (R476): `ok` when the requester offers the algorithms supported. -/
def execNegotiateAlgorithms (path : SpdmPath) (ok : Bool) (s : State) : Host.Outcome State Fault Refusal :=
  .next (s.spdmAt path 2 (fun t => if ok then (t.setConn { t.conn path with stage := 3 }).spdmReply path .algorithms
    else t.spdmReply path (.error .invalidRequest)))

/-- R474, R482, R483: the chain of a certificate slot: DeviceID in slot 0; in slot 1 the alias key, or the RMA key. -/
def State.certChain (s : State) (slot : Nat) : Option (List Byte) :=
  let m (i : Nat) : BitVec 384 := Tab.get 0 s.sec.measure i
  match slot with
  | 0 => some Config.deviceChain
  | 1 => some (if s.sec.lifecycle = 2 then Config.rmaChain else Config.aliasChain (m 2) (m 7) (m 8))
  | _ => none

/-- GET_DIGESTS (R474, R476). -/
def execGetDigests (path : SpdmPath) (s : State) : Host.Outcome State Fault Refusal :=
  .next (s.spdmAt path 3 (fun t => t.spdmReply path (.digests ([0, 1].map (fun i => Config.sha384 ((t.certChain i).getD []))))))

/-- GET_CERTIFICATE (R474, R476). CHUNK_GET reads the chain again in parts. -/
def execGetCertificate (path : SpdmPath) (slot : Nat) (s : State) : Host.Outcome State Fault Refusal :=
  .next (s.spdmAt path 3 (fun t => match t.certChain slot with
    | some c => (t.setConn { t.conn path with reply := c }).spdmReply path (.certificate slot c)
    | none => t.spdmReply path (.error .invalidRequest)))

/-- R475: the measurement blocks. -/
def State.measured (s : State) : List (Nat × BitVec 384) :=
  (((List.range 9).map (· + 1)) ++ ((List.range 8).map (· + 0x10))).map (fun i => (i, Tab.get 0 s.sec.measure i))

/-- CHALLENGE (R474 to R476): signed with the key of the slot. -/
def execChallenge (path : SpdmPath) (slot : Nat) (s : State) : Host.Outcome State Fault Refusal :=
  .next (s.spdmAt path 3 (fun t => if (t.certChain slot).isSome then t.spdmReply path (.challengeAuth slot t.measured)
    else t.spdmReply path (.error .invalidRequest)))

/-- GET_MEASUREMENTS (R475, R476): index 0 asks how many blocks there are, 0xFF for all of them. -/
def execGetMeasurements (path : SpdmPath) (index : Byte) (s : State) : Host.Outcome State Fault Refusal :=
  .next (s.spdmAt path 3 (fun t =>
    let all := t.measured
    let one := all.filter (fun b => decide (b.1 = index.toNat))
    if index = 0 then t.spdmReply path (.measurements all.length [])
    else if index = 0xFF then t.spdmReply path (.measurements all.length all)
    else if one = [] then t.spdmReply path (.error .invalidRequest)
    else t.spdmReply path (.measurements 1 one)))

/-- R476: a session counts against the management sessions. -/
def isManagement : SpdmPath → Bool
  | .link _ => false
  | .endToEnd _ => false
  | _ => true

/-- R476, R480: the sessions a path shares its limit with, and the limit. -/
def State.sessionRoom (s : State) (path : SpdmPath) : Bool :=
  let count (q : SpdmPath → Bool) : Nat := (s.sec.sessions.filter (fun x => q x.path)).length
  match path with
  | .link p => decide (count (fun q => decide (q = .link p)) < 1)
  | .endToEnd _ => decide (count (fun q => match q with
      | .endToEnd _ => true
      | _ => false) < 256)
  | _ => decide (count (fun q => isManagement q) < 8)

/-- The lowest session number not in use on a path. -/
def State.newSession (s : State) (path : SpdmPath) : Nat :=
  let used := (s.sec.sessions.filter (fun x => decide (x.path = path))).map (fun x => x.id)
  ((List.range (used.length + 1)).find? (fun i => !used.contains i)).getD used.length

/-- KEY_EXCHANGE (R476): a session begins, within the limits. -/
def execKeyExchange (path : SpdmPath) (s : State) : Host.Outcome State Fault Refusal :=
  .next (s.spdmAt path 3 (fun t =>
    if t.sessionRoom path then
      let id := t.newSession path
      (t.modSec (fun x => { x with sessions := x.sessions ++ [⟨path, id, false, 0, t.now⟩] })).spdmReply path (.keyExchange id)
    else t.spdmReply path (.error .sessionLimit)))

/-- A session. -/
def State.session (s : State) (path : SpdmPath) (id : Nat) : Option SpdmSession :=
  s.sec.sessions.find? (fun x => decide (x.path = path) && decide (x.id = id))

/-- R476: a session ends. -/
def State.dropSession (s : State) (path : SpdmPath) (id : Nat) : State :=
  s.modSec (fun x => { x with sessions := x.sessions.filter (fun y => !(decide (y.path = path) && decide (y.id = id))) })

/-- R476: traffic in a session; `f` changes it. -/
def State.touchSession (s : State) (path : SpdmPath) (id : Nat) (f : SpdmSession → SpdmSession) : State :=
  s.modSec (fun x => { x with sessions := x.sessions.map (fun y =>
    if y.path = path ∧ y.id = id then { f y with time := s.now } else y) })

/-- FINISH (R476): `ok` when what authenticates the exchange verifies; else the session is over. -/
def execFinish (path : SpdmPath) (id : Nat) (ok : Bool) (s : State) : Host.Outcome State Fault Refusal :=
  .next (s.spdmAt path 3 (fun t => match t.session path id with
    | none => t.spdmReply path (.error .unexpectedRequest)
    | some x =>
      if x.finished then t.spdmReply path (.error .unexpectedRequest)
      else if ok then (t.touchSession path id (fun y => { y with finished := true })).spdmReply path (.finish id)
      else (t.dropSession path id).spdmReply path (.error .invalidRequest)))

/-- R476: a request that needs a finished session. -/
def State.inSession (s : State) (path : SpdmPath) (id : Nat) (f : State → SpdmSession → State) : State :=
  s.spdmAt path 0 (fun t => match t.session path id with
    | some x => if x.finished then f t x else t.spdmReply path (.error .unexpectedRequest)
    | none => t.spdmReply path (.error .unexpectedRequest))

/-- KEY_UPDATE (R333, R478, R481): all keys of the session; on a Haros port the next key is installed. -/
def execKeyUpdate (path : SpdmPath) (id : Nat) (s : State) : Host.Outcome State Fault Refusal :=
  .next (s.inSession path id (fun t x =>
    let t1 := t.touchSession path id (fun y => { y with keyGen := y.keyGen + 1 })
    let t2 := match path with
      | .link p => t1.installKeys p
      | _ => t1
    t2.spdmReply path (.keyUpdateAck id (x.keyGen + 1))))

/-- HEARTBEAT (R476). -/
def execHeartbeat (path : SpdmPath) (id : Nat) (s : State) : Host.Outcome State Fault Refusal :=
  .next (s.inSession path id (fun t _ => (t.touchSession path id (fun y => y)).spdmReply path (.heartbeatAck id)))

/-- END_SESSION (R476, R478): a link keeps its installed keys. -/
def execEndSession (path : SpdmPath) (id : Nat) (s : State) : Host.Outcome State Fault Refusal :=
  .next (s.inSession path id (fun t _ => (t.dropSession path id).spdmReply path (.endSessionAck id)))

/-- CHUNK_SEND (R476): a part of a large request; the request itself is a command of its own once it is whole. -/
def execChunkSend (path : SpdmPath) (data : List Byte) (last : Bool) (s : State) : Host.Outcome State Fault Refusal :=
  .next (s.spdmAt path 2 (fun t =>
    (t.setConn { t.conn path with chunk := if last then [] else (t.conn path).chunk ++ data }).spdmReply path .chunkSendAck))

/-- CHUNK_GET (R476): the next part of a large response. -/
def execChunkGet (path : SpdmPath) (len : Nat) (s : State) : Host.Outcome State Fault Refusal :=
  .next (s.spdmAt path 2 (fun t =>
    let c := t.conn path
    if c.reply = [] then t.spdmReply path (.error .unexpectedRequest)
    else (t.setConn { c with reply := c.reply.drop len }).spdmReply path (.chunkResponse (c.reply.take len) (decide (c.reply.length ≤ len)))))

/-- SESSION_LOST (R476, R478, R485): three periods without traffic end a session; a link or end-to-end session is recorded, and a
link keeps its keys. -/
def execSessionLost (path : SpdmPath) (id : Nat) (s : State) : Host.Outcome State Fault Refusal :=
  .next (match s.session path id with
    | none => s
    | some x =>
      let t := s.dropSession path id
      if s.now < x.time + 3 * secTicks then s
      else match path with
      | .link p => t.reportPort p 0x0805 .operation []
      | .endToEnd _ => t.report ⟨0x0805, dieX0, 0xFF, unitWarden, .operation, []⟩
      | _ => t)

end Sys2Proof.Machine
end

