-- ==== Sys2Proof/Machine/Pldm.lean ====
section
/-! DEFINITION. Firmware update by PLDM (R506 to R508): one update agent, one component at a time. -/

namespace Sys2Proof.Machine

/-- R472, R506: the warden, or its recovery loader, answers on the path. -/
def State.pldmUp (s : State) (path : PldmPath) : Bool :=
  s.ward.up && match path with
    | .i3c _ _ => decide (s.modu.state ≠ .off) || s.ward.recovery
    | .pcie _ => s.hostPathUp

/-- R427, R506: an update over the side-band runs inside a secured session; the recovery loader has none (DEDUCED, log 46). -/
def State.pldmSecured (s : State) (path : PldmPath) : Bool :=
  match path with
  | .i3c _ sec => sec || s.ward.recovery
  | .pcie _ => true

/-- R506: the bytes one transfer carries. -/
def pldmLimit : PldmPath → Nat
  | .i3c _ _ => 1024
  | .pcie _ => 4096

/-- R506: an answer. -/
def State.pldmSay (s : State) (path : PldmPath) (r : PldmReply) : State := s.emit (.pldm path r)

/-- R506: an answer that is a completion code alone. -/
def State.pldmDone (s : State) (path : PldmPath) (c : PldmCode) : State := s.pldmSay path (.done c)

/-- Changes the update. -/
def State.modUpdate (s : State) (f : UpdateState → UpdateState) : State := s.modSec (fun x => { x with update := f x.update })

/-- R506: a command of the agent whose update is under way, in one of the states `ok`. -/
def State.pldmIn (s : State) (path : PldmPath) (ok : Nat → Bool) (f : State → UpdateState → State) : State :=
  let u := s.sec.update
  if !s.pldmUp path then s
  else if !s.pldmSecured path then s.pldmDone path .unsecured
  else if u.agent ≠ some path then s.pldmDone path .notInUpdateMode
  else if !ok u.state.toNat then s.pldmDone path .invalidState
  else f s u

/-- QUERY_DEVICE_IDENTIFIERS (R506). -/
def execQueryDeviceIdentifiers (path : PldmPath) (s : State) : Host.Outcome State Fault Refusal :=
  .next (if s.pldmUp path then s.pldmSay path (.identifiers Config.vendor Config.uuid) else s)

/-- GET_FIRMWARE_PARAMETERS (R506, R508): the builds that run, and those that wait for activation. -/
def execGetFirmwareParameters (path : PldmPath) (s : State) : Host.Outcome State Fault Refusal :=
  .next (if s.pldmUp path then s.pldmSay path (.parameters
      ([1, 2, 3, 4, 5].map (fun c => (c, (Tab.get Image.absent s.sec.running c).build)))
      (s.sec.update.pending.map (fun c => (c, (s.bankImage c 0).build))))
    else s)

/-- REQUEST_UPDATE (R506): one agent at a time. -/
def execRequestUpdate (path : PldmPath) (s : State) : Host.Outcome State Fault Refusal :=
  .next (if !s.pldmUp path then s
    else if !s.pldmSecured path then s.pldmDone path .unsecured
    else if s.sec.update.agent.isSome then s.pldmDone path .alreadyInUpdateMode
    else (s.modUpdate (fun u => { u with agent := some path, state := 1, table := [], applied := [], scratch := [] })).pldmDone
      path .success)

/-- PASS_COMPONENT_TABLE (R506): components 0x0001 to 0x0005. -/
def execPassComponentTable (path : PldmPath) (comp : Nat) (last : Bool) (s : State) : Host.Outcome State Fault Refusal :=
  .next (s.pldmIn path (fun n => decide (n = 1)) (fun t _ =>
    if comp = 0 ∨ 5 < comp then t.pldmDone path .invalidData
    else (t.modUpdate (fun u => { u with table := u.table ++ [comp] })).pldmDone path .success))

/-- R507: the module asks for the bytes that follow. -/
def State.askData (s : State) (path : PldmPath) : State :=
  let u := s.sec.update
  let left := u.size - u.scratch.length
  if left = 0 then s else s.pldmSay path (.request u.component u.scratch.length (min left (pldmLimit path)))

/-- UPDATE_COMPONENT (R506, R507): a component of the table is received into the scratch region. -/
def execUpdateComponent (path : PldmPath) (comp : Nat) (size : W32) (s : State) : Host.Outcome State Fault Refusal :=
  .next (s.pldmIn path (fun n => decide (n = 1)) (fun t u =>
    if !u.table.contains comp then t.pldmDone path .invalidData
    else ((t.modUpdate (fun v => { v with state := 2, component := comp, scratch := [], size := size.toNat })).pldmDone
      path .success).askData path))

/-- REQUEST_FIRMWARE_DATA (R506): the bytes the agent returns, within the transfer size. -/
def execRequestFirmwareData (path : PldmPath) (data : List Byte) (s : State) : Host.Outcome State Fault Refusal :=
  .next (s.pldmIn path (fun n => decide (n = 2)) (fun t u =>
    if data = [] ∨ pldmLimit path < data.length ∨ u.size < u.scratch.length + data.length then t.pldmDone path .invalidData
    else (t.modUpdate (fun v => { v with scratch := v.scratch ++ data })).askData path))

/-- TRANSFER_COMPLETE (R506, R507): the whole image lies in the scratch region. -/
def execTransferComplete (path : PldmPath) (s : State) : Host.Outcome State Fault Refusal :=
  .next (s.pldmIn path (fun n => decide (n = 2)) (fun t u =>
    if u.scratch.length ≠ u.size then t.pldmDone path .incomplete
    else (t.modUpdate (fun v => { v with state := 3 })).pldmDone path .success))

/-- R507: the image received passes R471 with the current minimum versions and key slots. -/
def State.receivedOk (s : State) : Bool :=
  let u := s.sec.update
  let x := Signed.ofBytes u.scratch
  s.signedOk x 0x80 u.component && decide (s.svnMin u.component ≤ x.security)

/-- VERIFY_COMPLETE (R507): an image that fails changes no bank. -/
def execVerifyComplete (path : PldmPath) (s : State) : Host.Outcome State Fault Refusal :=
  .next (s.pldmIn path (fun n => decide (n = 3)) (fun t _ =>
    if t.receivedOk then (t.modUpdate (fun v => { v with state := 4 })).pldmDone path .success
    else t.pldmDone path .verifyFailed))

/-- R470: the image of a bank. -/
def Signed.image (x : Signed) : Image :=
  ⟨BitVec.ofNat 32 x.build, BitVec.ofNat 32 x.security, BitVec.ofNat 8 x.slot, true, x.bodyDigest⟩

/-- APPLY_COMPLETE (R507): bank A is copied into bank B, and the new image is written into bank A. -/
def execApplyComplete (path : PldmPath) (s : State) : Host.Outcome State Fault Refusal :=
  .next (s.pldmIn path (fun n => decide (n = 4)) (fun t u =>
    let c := u.component
    let a := t.bankImage c 0
    let new := (Signed.ofBytes u.scratch).image
    let t1 := t.modSec (fun x => { x with
      images := Tab.set Image.absent (Tab.set Image.absent x.images (2 * c + 1) a) (2 * c) new })
    (t1.modUpdate (fun v => { v with state := 1, applied := v.applied ++ [c], scratch := [] })).pldmDone path .success))

/-- R508: the update is over for its agent: what was activated waits. -/
def UpdateState.close (u : UpdateState) (pending : List Nat) : UpdateState :=
  { UpdateState.reset with pending := pending, state := if pending = [] then 0 else 5 }

/-- ACTIVATE_FIRMWARE (R508): the applied images are pending; nothing that runs is replaced. -/
def execActivateFirmware (path : PldmPath) (s : State) : Host.Outcome State Fault Refusal :=
  .next (s.pldmIn path (fun n => decide (n = 1)) (fun t u =>
    if u.applied = [] then t.pldmDone path .incomplete
    else (t.modUpdate (fun v => v.close (v.pending.filter (fun c => !v.applied.contains c) ++ v.applied))).pldmDone path .success))

/-- GET_STATUS (R506). -/
def execGetStatus (path : PldmPath) (s : State) : Host.Outcome State Fault Refusal :=
  .next (if s.pldmUp path then s.pldmSay path (.status s.sec.update.state) else s)

/-- CANCEL_UPDATE_COMPONENT (R506). -/
def execCancelUpdateComponent (path : PldmPath) (s : State) : Host.Outcome State Fault Refusal :=
  .next (s.pldmIn path (fun n => decide (2 ≤ n) && decide (n ≤ 4)) (fun t _ =>
    (t.modUpdate (fun v => { v with state := 1, scratch := [], size := 0 })).pldmDone path .success))

/-- CANCEL_UPDATE (R506). -/
def execCancelUpdate (path : PldmPath) (s : State) : Host.Outcome State Fault Refusal :=
  .next (s.pldmIn path (fun _ => true) (fun t _ => (t.modUpdate (fun v => v.close v.pending)).pldmDone path .success))

end Sys2Proof.Machine
end

