-- ==== Sys2Proof/Machine/DictRead.lean ====
section
/-! DEFINITION. What a read of a dictionary entry returns (R416, R417, R429 and the entries of the other chapters). -/

namespace Sys2Proof.Machine

/-- R357: the value of a class. -/
def WireClass.num : WireClass → Nat
  | .noPlan => 0 | .match_ => 1 | .absent => 2 | .unexpected => 3 | .mismatch => 4 | .swap => 5 | .peerSwap => 6 | .unused => 7

/-- R361: the discovery report of a port. -/
def State.portReport (s : State) (p : PortNo) : Nat :=
  let x := s.port p
  let partner := match x.wire, x.partner with
    | .swap, some b => b.val
    | _, _ => 0x1F
  x.wire.num + 16 * partner + flagAt x.held 9 + flagAt (decide (s.link.map[p.val] ≠ p)) 10

/-- R361: the beacon last seen on a port. -/
def State.seenBeacon (s : State) (p : PortNo) : List Byte :=
  match (s.port p).peer with
  | some b => leBytes 8 b.serial.toNat ++ [b.slot, b.port, Config.seenFlags b.serial b.slot b.port, 0]
  | none => List.replicate 12 0

/-- R463, R468: a retire list, 4,096 frame numbers. -/
def State.retireBytes (s : State) (m : Nat) : List Byte :=
  (((Tab.get [] s.mem.retireList m).flatMap (leBytes 4)) ++ List.replicate 16384 0).take 16384

/-- R461: a record's bytes, or zeros. -/
def recordBytes (r : Option FaultRec) : List Byte :=
  match r with
  | some x => x.bytes
  | none => List.replicate 64 0

/-- R1, R429: the part number. -/
def partNumber (v : Variant) : List Byte :=
  let base : List Byte := [0x48, 0x58, 0x54, 0x2D, 0x45, 0x52, 0x47, 0x31, 0x2D, 0x46]
  match v with
  | .f64 => base ++ [0x36, 0x34]
  | .f32 => base ++ [0x33, 0x32]

/-- R509: the build in a bank, 0 when the bank fails R471. -/
def State.bankBuild (s : State) (c b : Nat) : Nat :=
  let i := s.bankImage c b
  if s.imageOk c i then i.build.toNat else 0

/-- Identity, the dictionary, module state (R429). -/
def State.live1 (s : State) (idx sub : Nat) : Option (List Byte) :=
  match idx, sub with
  | 0x1008, 0 => some (partNumber s.variant)
  | 0x1009, 0 => some Config.hwRevision
  | 0x100A, 0 => some (Config.buildText (Tab.get Image.absent s.sec.running 1).build)
  | 0x1018, 1 => some (leBytes 4 Config.vendor.toNat)
  | 0x1018, 2 => some (leBytes 4 (match s.variant with | .f64 => 0x00010040 | .f32 => 0x00010020))
  | 0x1018, 3 => some (leBytes 4 Config.revision.toNat)
  | 0x1018, 4 => some (leBytes 8 Config.serial.toNat)
  | 0x1018, 5 => some (leBytes 16 Config.uuid.toNat)
  | 0x1018, 6 => some (leBytes 4 Config.mfgDate.toNat)
  | 0x1F02, 0 => some (leBytes 4 s.ward.storeCommits.toNat)
  | 0x1F03, 0 => some (leBytes 4 s.ward.wmpErrors.toNat)
  | 0x2000, 0 => some (leBytes 1 s.modu.state.num)
  | 0x2F00, 3 => some (leBytes 4 s.ward.notifyDropped.toNat)
  | _, _ => none

/-- The topology (R361, R368). -/
def State.live2 (s : State) (idx sub : Nat) : Option (List Byte) :=
  if idx = 0x3010 ∧ sub = 3 then some (leBytes 1 (s.plug.slot.getD 0).toNat)
  else if idx = 0x3010 ∧ sub = 5 then some (leBytes 4 s.link.address.toNat)
  else if idx = 0x3120 ∧ sub = 31 then some (leBytes 4 s.wireSummary)
  else if idx = 0x3120 ∧ 0 < sub then some (leBytes 4 (s.portReport (portOf (sub - 1))))
  else if idx = 0x3121 ∧ 0 < sub then some (s.seenBeacon (portOf (sub - 1)))
  else if idx = 0x5010 ∧ sub = 1 then some (leBytes 16 s.modu.cutMap.toNat)
  else if idx = 0x5010 ∧ sub = 2 then some (leBytes 1 s.modu.dieOut.toNat)
  else none

/-- The tiers and the partitions (R224, R226, R368). -/
def State.live3 (s : State) (idx sub : Nat) : Option (List Byte) :=
  let p := partOf idx
  let x := s.part p
  if idx = 0x4000 ∧ sub = 2 then some (leBytes 4 s.weightUsage)
  else if idx / 16 = 0x410 ∧ 7 ≤ sub ∧ sub ≤ 12 then some (leBytes 4 (s.usage p ((sub - 7) / 2) (decide ((sub - 7) % 2 = 1))))
  else if idx / 16 = 0x410 ∧ sub = 13 then some (leBytes 4 (s.retired p none))
  else if idx / 16 = 0x510 then
    match sub with
    | 1 => some [if x.mode = .unformed then x.maskNext else x.dies]
    | 2 => some (leBytes 1 x.mode.num)
    | 4 => some [x.proposal]
    | 5 => some (leBytes 2 x.formResult.toNat)
    | 6 => some (leBytes 4 x.poisonedEntries.toNat)
    | _ => none
  else none

/-- Errors, security, firmware (R468, R484, R509). -/
def State.live4 (s : State) (idx sub : Nat) : Option (List Byte) :=
  if idx = 0x7000 then
    match sub with
    | 1 => some (leBytes 4 s.log.newest.toNat)
    | 2 => some (leBytes 4 s.log.records.toNat)
    | 3 => some (leBytes 4 s.log.suppressed.toNat)
    | _ => none
  else if idx = 0x7020 ∧ 0 < sub then some (recordBytes (Tab.get none s.log.persisted (sub - 1)))
  else if idx = 0x7030 ∧ 0 < sub then some (s.retireBytes (sub - 1))
  else if 0x7400 ≤ idx ∧ idx < 0x7800 then some (recordBytes (Tab.get none s.log.ring (idx - 0x7400)))
  else if idx = 0x8000 ∧ sub = 1 then some (leBytes 1 s.sec.lifecycle.toNat)
  else if idx = 0x8000 ∧ sub = 2 then some [s.sec.debugScope]
  else if idx = 0x8000 ∧ sub = 3 then some (leBytes 32 s.sec.nonce.toNat)
  else if idx = 0x8010 ∧ 1 ≤ sub ∧ sub ≤ 5 then some (leBytes 4 (s.svnMin sub))
  else if idx = 0x8011 ∧ 1 ≤ sub ∧ sub ≤ 4 then some (leBytes 1 (flagAt (s.sec.revoked.getLsbD (sub - 1)) 0))
  else if idx = 0xA000 ∧ 1 ≤ sub ∧ sub ≤ 5 then some (leBytes 4 (Tab.get Image.absent s.sec.running sub).build.toNat)
  else if idx = 0xA000 ∧ 6 ≤ sub then some (leBytes 1 (Tab.get 0 s.sec.bank (sub - 5)))
  else if idx = 0xA001 ∧ 1 ≤ sub ∧ sub ≤ 5 then some (leBytes 4 (s.bankBuild sub 0))
  else if idx = 0xA001 ∧ 6 ≤ sub then some (leBytes 4 (s.bankBuild (sub - 5) 1))
  else if idx = 0xA010 then
    match sub with
    | 1 => some (leBytes 2 s.modu.bringupResult.toNat)
    | 2 => some (leBytes 4 s.modu.bringupTime.toNat)
    | 3 => some (leBytes 4 s.modu.bringupCount.toNat)
    | 4 => some [s.modu.boardInit]
    | _ => none
  else if idx = 0xA020 ∧ sub = 1 then some [s.sec.update.state]
  else none

/-- R12, R416, R417: the value of an entry as it stands: what the module computes, else what is stored. -/
def State.entryBytes (s : State) (idx sub : Nat) (r : DictRow) : List Byte :=
  if sub = 0 ∧ dictIsRec idx then leBytes 1 (dictHighest idx)
  else match s.live1 idx sub, s.live2 idx sub, s.live3 idx sub, s.live4 idx sub with
    | some b, _, _, _ => b
    | _, some b, _, _ => b
    | _, _, some b, _ => b
    | _, _, _, some b => b
    | _, _, _, _ => leBytes (r.ty.size.getD 0) (s.dictVal idx sub)

/-- R461, R483: what a read does: *debug_nonce* is drawn anew, and a record of the log counts as read. -/
def State.beforeRead (s : State) (idx sub : Nat) : State :=
  if idx = 0x8000 ∧ sub = 3 then s.drawNonce
  else if 0x7400 ≤ idx ∧ idx < 0x7800 then { s with log := { s.log with read := s.log.read.set (idx - 0x7400) 1 } }
  else s

end Sys2Proof.Machine
end

