-- ==== Sys2Proof/Machine/Dictionary.lean ====
section
/-! DEFINITION. The dictionary service: paths, checks, operations, the store, duplicates, staging (R411 to R423), the mailbox
(R426), and what writes of the chapters' entries do. -/

namespace Sys2Proof.Machine

/-! Statuses (R421) -/

def wmpNoIndex : Nat := 0x11
def wmpNoSub : Nat := 0x12
def wmpType : Nat := 0x13
def wmpDenied : Nat := 0x15
def wmpReadOnly : Nat := 0x16
def wmpWriteOnly : Nat := 0x17
def wmpBusy : Nat := 0x19
def wmpPersist : Nat := 0x1A

/-! Paths (R411, R412, R427) -/

/-- R411: the domain of a path. -/
def domainOf : WmpPath → Domain
  | .udp _ _ _ => .sideBand
  | .i3c _ _ => .sideBand
  | .pcie _ => .hostAdmin
  | .mailbox ch => if ch.val = 0 then .hostAdmin else .firmware
  | .relay _ => .hostUser

/-- R420: the session of a path: secured or not, it is one. -/
def sessionOf : WmpPath → WmpPath
  | .udp a p _ => .udp a p false
  | .i3c e _ => .i3c e false
  | p => p

/-- R427: the path lies inside an SPDM secured session, or needs none. -/
def isSecured : WmpPath → Bool
  | .udp _ _ sec => sec
  | .i3c _ sec => sec
  | _ => true

/-- R411, R472: the states a path is served in. The recovery loader serves the side-band alone. -/
def State.wmpUp (s : State) (path : WmpPath) : Bool :=
  s.ward.up && match path with
    | .udp _ _ _ => decide (s.modu.state ≠ .off) || s.ward.recovery
    | .i3c _ _ => decide (s.modu.state ≠ .off) || s.ward.recovery
    | .pcie _ => s.hostPathUp
    | .mailbox ch => if ch.val = 0 then s.hostPathUp else s.hostPathUp || (decide (s.modu.state = .bringup) && s.mainOn)
    | .relay p => s.hostPathUp && decide (s.modu.state ≠ .faulted) && decide ((s.part p).mode ≠ .unformed)

/-! Messages (R419) -/

/-- R419: a request. -/
structure WmpReq where
  path : WmpPath
  version : Nat
  op : Nat
  last : Bool
  seq : Nat
  index : Nat
  sub : Nat
  ty : Nat
  offset : Nat
  total : Nat
  value : List Byte
  deriving DecidableEq, Repr

/-- R419: reads a message; none where its length does not match the bytes received or a reserved bit is set. A relayed message
fits the 96 B of a RUNTIME order (R412). -/
def WmpReq.parse (path : WmpPath) (m : List Byte) : Option WmpReq :=
  let n := leField m 10 2
  let fits := match path with
    | .relay _ => decide (m.length ≤ 96)
    | _ => true
  if m.length < 24 ∨ n ≠ m.length - 24 ∨ 1024 < n ∨ leField m 3 1 / 2 ≠ 0 ∨ leField m 20 4 ≠ 0 ∨ !fits then none
  else some { path := path, version := leField m 0 1, op := leField m 1 1, last := bitOf (leField m 3 1) 0, seq := leField m 4 2,
              index := leField m 6 2, sub := leField m 8 1, ty := leField m 9 1, offset := leField m 12 4, total := leField m 16 4,
              value := m.drop 24 }

/-- R419: a response. -/
structure WmpResp where
  status : Nat
  index : Nat
  sub : Nat
  ty : Nat
  offset : Nat
  total : Nat
  value : List Byte
  deriving DecidableEq, Repr

/-- R419: the bytes of a response to operation `op`, its seq echoed. -/
def WmpResp.bytes (r : WmpResp) (op seq : Nat) : List Byte :=
  [1, BitVec.ofNat 8 op ||| 0x80, BitVec.ofNat 8 r.status, 0] ++ leBytes 2 seq ++ leBytes 2 r.index ++
  [BitVec.ofNat 8 r.sub, BitVec.ofNat 8 r.ty] ++ leBytes 2 r.value.length ++ leBytes 4 r.offset ++ leBytes 4 r.total ++
  [0, 0, 0, 0] ++ r.value

/-- A response that is a status alone, to the entry named. -/
def WmpResp.plain (index sub status : Nat) : WmpResp := ⟨status, index, sub, 0, 0, 0, []⟩

/-- R426: a channel's request is answered: the response, done, and its interrupt. A channel cleared meanwhile gets none. -/
def State.mailboxAnswer (s : State) (ch : Fin 2) (m : List Byte) : State :=
  let c := s.ward.mailboxes[ch.val]
  let s1 := s.modWard (fun w => { w with mailboxes := w.mailboxes.set ch.val { c with rsp := m, busy := false, done := true } })
  if !c.busy then s
  else if !c.irqEn then s1
  else if ch.val = 0 then s1.raiseVector 0 c.vector.toNat
  else
    let k : Fin 24 := ⟨c.vector.toNat % 32 % 24, Nat.mod_lt _ (by decide)⟩
    if c.vector.toNat % 32 < 24 then (s1.setRub k { s1.rub k with irq := true }).emit (.rubricIrq k) else s1

/-- R423: a session keeps its last 16 responses. -/
def keepResp (l : List KeptResp) (k : KeptResp) : List KeptResp :=
  let mine := l.filter (fun x => decide (x.path = k.path))
  let l1 := if 16 ≤ mine.length then
      match mine with
      | o :: _ => l.erase o
      | [] => l
    else l
  l1 ++ [k]

/-- R419, R423: an answer goes back on its path. -/
def State.sendWmp (s : State) (path : WmpPath) (m : List Byte) : State :=
  match path with
  | .mailbox ch => s.mailboxAnswer ch m
  | _ => s.emit (.wmp path m)

/-- R423: an answer is kept, and sent. -/
def State.answerWmp (s : State) (path : WmpPath) (seq : Nat) (m : List Byte) : State :=
  (s.modWard (fun w => { w with kept := keepResp w.kept ⟨sessionOf path, seq, m, s.now⟩ })).sendWmp path m

/-! Checks (R412, R413, R416, R421) -/

/-- R412: an entry indexed by partition, and which. -/
def partIndexed (idx : Nat) : Option PartNo :=
  if idx / 8 = 0x820 ∨ idx / 8 = 0x840 ∨ idx / 8 = 0x860 ∨ idx / 8 = 0xA20 ∨ idx / 8 = 0xC20 then some (partOf idx) else none

/-- R11, R412: the path may not access the entry at all. -/
def deniedTo (path : WmpPath) (idx : Nat) (r : DictRow) : Bool :=
  decide (r.acc.of (domainOf path) = .dash) || match path, partIndexed idx with
    | .relay p, some q => decide (p ≠ q)
    | _, _ => false

/-- R413: a main entry while the main domain is down. The entries of 0x8000 act in STANDBY by their own chapter, and are served
there (DEDUCED, log 47). -/
def State.mainDown (s : State) (idx : Nat) (r : DictRow) : Bool := !dictStandby idx r && decide (idx ≠ 0x8000) && !s.mainOn

/-- R421 checks 1 to 5: the entry, or the status. -/
def WmpReq.entry (q : WmpReq) (write : Bool) : Except Nat DictRow :=
  match dictRow q.index q.sub with
  | none => .error (if dictHasIndex q.index then wmpNoSub else wmpNoIndex)
  | some r =>
    let a := r.acc.of (domainOf q.path)
    if deniedTo q.path q.index r ∨ (write ∧ !isSecured q.path) then .error wmpDenied
    else if write ∧ a = .ro then .error wmpReadOnly
    else if !write ∧ (a = .wo ∨ a = .cmd) then .error wmpWriteOnly
    else .ok r

/-- The values of a partition-indexed entry with that of partition `p` replaced. -/
def State.sumWith (s : State) (base sub : Nat) (p : PartNo) (v : Nat) : Nat :=
  sumNat (allParts.map (fun q => if q = p then v else s.dictVal (base + q.val) sub))

/-- R223: the two quotas of a tier of a partition fit its capacity, one of them at most being all ones. -/
def State.quotasOk (s : State) (p : PartNo) (tier qp qb : Nat) : Bool :=
  let all := 0xFFFFFFFF
  if qp = all ∧ qb = all then false
  else
    let cap := s.capacity p tier
    if qp = all then decide (qb ≤ cap) else if qb = all then decide (qp ≤ cap) else decide (qp + qb ≤ cap)

/-- R416, R421 check 7: a value's range, with what the entry's chapter adds. -/
def State.rangeOk (s : State) (idx sub v : Nat) (r : DictRow) : Bool :=
  let p := partOf idx
  decide (r.lo ≤ v) && decide (v ≤ r.hi) &&
  if idx = 0x3010 ∧ sub = 4 then decide (v = 8) || decide (v = 16)
  else if idx = 0x3010 ∧ sub = 2 then decide (v < 64 / max 1 (s.dictVal 0x3010 4))
  else if idx = 0x2001 then decide (v = 1) || decide (v = 2) || decide (v = 3) || decide (v = 5)
  else if idx / 8 = 0x820 then
    let tier := (sub - 1) / 2
    if sub % 2 = 1 then s.quotasOk p tier v (s.dictVal idx (sub + 1)) else s.quotasOk p tier (s.dictVal idx (sub - 1)) v
  else if idx / 8 = 0x840 ∧ sub = 7 then decide (s.sumWith 0x4200 7 p v ≤ 65536)
  else if idx / 8 = 0x860 ∧ sub = 1 then decide (s.sumWith 0x4300 1 p v ≤ 16384)
  else if idx / 8 = 0xC20 ∧ sub = 1 then decide (v = 0xFF) || (s.liveIndexes p).contains v
  else if idx = 0x5200 then decide (v < 8) || decide (v = 0xFF)
  else if idx = 0x8011 ∧ sub = 5 then decide ((s.askRevoke v).2 = wmpOk)
  else true

/-- R421 check 8: the state rules of the entries' chapters (R259, R286, R360, R392, R429). -/
def State.stateOk (s : State) (idx sub v : Nat) (r : DictRow) : Bool :=
  let p := partOf idx
  !s.mainDown idx r &&
  if idx = 0x3100 ∨ idx = 0x3110 then decide (s.modu.state ≠ .active)
  else if idx / 8 = 0x860 then decide (s.openCount p = 0)
  else if idx / 8 = 0x840 ∧ sub = 7 then decide ((s.liveCtxs p).length ≤ v)
  else if idx = 0x5200 then !s.host.vfEnabled.getLsbD (sub - 1)
  else if idx = 0x1F01 then decide (s.modu.state = .standby) || decide (s.modu.state = .ready)
  else true

/-- R416: the value's type and length. -/
def typeOk (r : DictRow) (ty total n : Nat) : Bool :=
  decide (ty = r.ty.code) && decide (total = n) && match r.ty.size with
    | some k => decide (n = k)
    | none => decide (n ≤ 255)

/-- R421 checks 6 to 8 of a whole value. -/
def State.writeStatus (s : State) (q : WmpReq) (r : DictRow) (bytes : List Byte) : Nat :=
  let v := ofLeBytes bytes
  if !typeOk r q.ty q.total bytes.length then wmpType
  else if !s.rangeOk q.index q.sub v r then wmpRange
  else if !s.stateOk q.index q.sub v r then wmpState
  else wmpOk

/-! What a write does -/

/-- R349: *link_enc* written 0 while a port is UP: no Haros port requires encryption at its next handshake. -/
def State.noLinkEnc (s : State) : State := harosPorts.foldl (fun t p => t.modPort p (fun x => { x with encReq := false })) s

/-- R414, R417: an entry takes a value: the live value, and what its chapter has follow from it (R357, R359, R343, R364). -/
def State.setEntry (s : State) (idx sub v : Nat) : State :=
  if idx / 8 = 0xA20 then s.modPart (partOf idx) (fun x => { x with maskNext := BitVec.ofNat 8 v })
  else
    let s1 := s.setDict idx sub v
    if idx = 0x3100 ∧ s.mainOn then s1.replan
    else if idx = 0x3130 ∧ s.mainOn then s1.chooseRoot
    else if idx = 0x3140 ∧ v = 0 ∧ harosPorts.any (fun p => decide ((s.port p).mode = .up)) then s1.noLinkEnc
    else s1

/-- R497: a state request. -/
def State.askState (s : State) (v : Nat) : State × Nat :=
  match v with
  | 1 => s.askStandby
  | 2 => s.askBringup
  | 3 => s.askReady
  | 5 => s.askQuiesce
  | _ => (s, wmpRange)

/-- The commands among the entries, and their status. -/
def State.command (s : State) (idx sub : Nat) (bytes : List Byte) : State × Nat :=
  let v := ofLeBytes bytes
  let p := partOf idx
  if idx = 0x2001 then s.askState v
  else if idx = 0x5010 then (s.modModu (fun u => { u with clearCuts := true }), wmpOk)
  else if idx / 8 = 0xA20 then
    if v = 2 then s.dissolvePart p else if (s.part p).mode = .unformed then s.formPart p else s.reformPart p
  else if idx = 0x8000 then (if sub = 4 then s.askToken bytes else s.askEnd v)
  else if idx = 0x8010 then s.askCommit v
  else if idx = 0x8011 then s.askRevoke v
  else if idx = 0xA020 then s.askRestart v
  else (s, wmpOk)

/-- R418, R422: the requests that wait hold their places in the queue of 32 (DEDUCED, log 48). -/
def State.queueFull (s : State) : Bool := decide (32 ≤ s.ward.commitNow.length + s.ward.commitNext.length)

/-- R418: a write joins the commit, or the next one while a commit is in progress. -/
def State.joinCommit (s : State) (c : CommitWrite) : State :=
  s.modWard (fun w => if w.commitNow = [] then { w with commitNow := [c] } else { w with commitNext := w.commitNext ++ [c] })

/-- R420, R421: a whole value is written: RWP in the domain waits for its commit, RW is at once, CMD and WO act. -/
def State.writeWhole (s : State) (q : WmpReq) (r : DictRow) (bytes : List Byte) : State :=
  let st := s.writeStatus q r bytes
  let v := ofLeBytes bytes
  let say (t : State) (x : Nat) : State := t.answerWmp q.path q.seq ((WmpResp.plain q.index q.sub x).bytes q.op q.seq)
  if st ≠ wmpOk then say s st
  else if s.queueFull then s.sendWmp q.path ((WmpResp.plain q.index q.sub wmpBusy).bytes q.op q.seq)
  else match r.acc.of (domainOf q.path) with
    | .rwp => s.joinCommit ⟨some q.path, q.seq, q.index, q.sub, v, false⟩
    | .rw => say (s.setEntry q.index q.sub v) wmpOk
    | _ =>
      if q.index = 0x1F01 then s.joinCommit ⟨some q.path, q.seq, q.index, q.sub, v, true⟩
      else say (s.command q.index q.sub bytes).1 (s.command q.index q.sub bytes).2

/-! Staging (R420, R422) -/

/-- R422: the staging of a session that stands: its last piece is at most 1 s old. -/
def State.stagingOf (s : State) (path : WmpPath) : Option Staging :=
  s.ward.staging.find? (fun x => decide (x.path = sessionOf path) && decide (s.now ≤ x.time + secTicks))

/-- A session's staging ends. -/
def State.dropStaging (s : State) (path : WmpPath) : State :=
  s.modWard (fun w => { w with staging := w.staging.filter (fun x => decide (x.path ≠ sessionOf path)) })

/-- R422: another session is staging the entry. -/
def State.stagedElsewhere (s : State) (q : WmpReq) : Bool :=
  s.ward.staging.any (fun x => decide (x.path ≠ sessionOf q.path) && decide (x.index = q.index) && decide (x.sub = q.sub) &&
    decide (s.now ≤ x.time + secTicks))

/-- R420, R422: a WRITE: the whole value, or a piece that follows on those staged. -/
def State.wmpWriteOp (s : State) (q : WmpReq) : State :=
  let say (t : State) (x : Nat) : State := t.answerWmp q.path q.seq ((WmpResp.plain q.index q.sub x).bytes q.op q.seq)
  match q.entry true with
  | .error e => say s e
  | .ok r =>
    let whole := decide (q.offset = 0) && q.last
    let follows : Bool := match s.stagingOf q.path with
      | some g => decide (g.index = q.index) && decide (g.sub = q.sub) && decide (g.ty = q.ty) && decide (g.total = q.total) &&
          decide (q.offset = g.bytes.length)
      | none => decide (q.offset = 0)
    let before := match s.stagingOf q.path with
      | some g => g.bytes
      | none => []
    if whole then
      if s.stagedElsewhere q ∧ s.writeStatus q r q.value = wmpOk then say s wmpBusy else s.writeWhole q r q.value
    else if !follows ∨ q.total < q.offset + q.value.length then say (s.dropStaging q.path) wmpRange
    else if s.stagedElsewhere q then say s wmpBusy
    else
      let bytes := before ++ q.value
      let s1 := s.dropStaging q.path
      if q.last then s1.writeWhole q r bytes
      else say (s1.modWard (fun w => { w with
        staging := w.staging ++ [⟨sessionOf q.path, q.index, q.sub, q.ty, q.total, bytes, s.now⟩] })) wmpOk

/-! READ and NEXT (R420) -/

/-- R420: a READ of up to 1,024 B. -/
def State.wmpReadOp (s : State) (q : WmpReq) : State :=
  let say (t : State) (r : WmpResp) : State := t.answerWmp q.path q.seq (r.bytes q.op q.seq)
  let fail (x : Nat) : State := say s (.plain q.index q.sub x)
  match q.entry false with
  | .error e => fail e
  | .ok r =>
    let s1 := s.beforeRead q.index q.sub
    let b := s1.entryBytes q.index q.sub r
    if q.ty ≠ 0 ∧ q.ty ≠ r.ty.code then fail wmpType
    else if b.length ≤ q.offset then fail wmpRange
    else if s.mainDown q.index r then fail wmpState
    else if s.queueFull then s.sendWmp q.path ((WmpResp.plain q.index q.sub wmpBusy).bytes q.op q.seq)
    else say s1 ⟨wmpOk, q.index, q.sub, r.ty.code, q.offset, b.length, (b.drop q.offset).take 1024⟩

/-- R12, R430: the keys of every entry, those of subindex 0x00 of a REC among them. -/
def allKeys : List Nat :=
  dictEnts.flatMap (fun e => (List.range e.spanI).flatMap (fun i =>
    (if e.sub ≠ 0 then [dictKey (e.idx + i) 0] else []) ++ (List.range e.spanS).map (fun j => dictKey (e.idx + i) (e.sub + j))))

/-- R420: the first entry after a key that the path may access; a NEXT that names 0x0000.00 starts at the first entry. -/
def nextKeyOf (path : WmpPath) (k : Nat) : Option Nat :=
  let ok (n : Nat) : Bool := decide (k < n) && match dictRow (n / 256) (n % 256) with
    | some r => !deniedTo path (n / 256) r
    | none => false
  (allKeys.filter ok).foldl (fun (b : Option Nat) n => match b with
    | none => some n
    | some m => some (min m n)) none

/-- R420, R422: NEXT. -/
def State.wmpNextOp (s : State) (q : WmpReq) : State :=
  if s.queueFull then s.sendWmp q.path ((WmpResp.plain q.index q.sub wmpBusy).bytes q.op q.seq) else
  let r : WmpResp := match nextKeyOf q.path (dictKey q.index q.sub) with
    | some k => ⟨wmpOk, k / 256, k % 256, match dictRow (k / 256) (k % 256) with
        | some r => r.ty.code
        | none => 0, 0, 0, []⟩
    | none => .plain 0xFFFF 0 wmpNoIndex
  s.answerWmp q.path q.seq (r.bytes q.op q.seq)

/-! Requests -/

/-- R419, R420: a message that is discarded is counted. -/
def State.wmpDiscard (s : State) : State := s.modWard (fun w => { w with wmpErrors := w.wmpErrors + 1 })

/-- R423: the response kept for a seq of a session, at most 2 s old. -/
def State.keptFor (s : State) (path : WmpPath) (seq : Nat) : Option KeptResp :=
  s.ward.kept.find? (fun k => decide (k.path = sessionOf path) && decide (k.seq = seq) && decide (s.now ≤ k.time + 2 * secTicks))

/-- R423: the request of a seq is still in service. -/
def State.inService (s : State) (path : WmpPath) (seq : Nat) : Bool :=
  (s.ward.commitNow ++ s.ward.commitNext).any (fun c => decide (c.seq = seq) && match c.path with
    | some p => decide (sessionOf p = sessionOf path)
    | none => false)

/-- R472: the recovery loader serves reads of the range 0x1000 to 0x1FFF and nothing else. -/
def recoveryServes (q : WmpReq) : Bool := decide (q.op = 1) && decide (q.index / 4096 = 1)

/-- R411, R419 to R423: a WMP message on a path. -/
def State.wmpRequest (s : State) (path : WmpPath) (m : List Byte) : State :=
  if !s.wmpUp path then s
  else match WmpReq.parse path m with
    | none => s.wmpDiscard
    | some q =>
      if s.ward.recovery ∧ !recoveryServes q then s
      else if q.version ≠ 1 then s.sendWmp path ((WmpResp.plain 0 0 wmpRange).bytes q.op 0)
      else if q.op ≠ 1 ∧ q.op ≠ 2 ∧ q.op ≠ 3 then s.wmpDiscard
      else match s.keptFor path q.seq with
        | some k => s.sendWmp path k.resp
        | none =>
          if s.inService path q.seq then s
          else if q.op = 1 then s.wmpReadOp q
          else if q.op = 2 then s.wmpWriteOp q
          else s.wmpNextOp q

/-- WMP_READ (R411 to R423). -/
def execWmpRead (path : WmpPath) (msg : List Byte) (s : State) : Host.Outcome State Fault Refusal := .next (s.wmpRequest path msg)

/-- WMP_WRITE (R411 to R423, R427). -/
def execWmpWrite (path : WmpPath) (msg : List Byte) (s : State) : Host.Outcome State Fault Refusal := .next (s.wmpRequest path msg)

/-- WMP_NEXT (R411, R420). -/
def execWmpNext (path : WmpPath) (msg : List Byte) (s : State) : Host.Outcome State Fault Refusal := .next (s.wmpRequest path msg)

/-- MAILBOX_GO (R426): the request of OD_MBX_REQ is served. A go while busy is dropped; a malformed request sets err. -/
def execMailboxGo (ch : Fin 2) (s : State) : Host.Outcome State Fault Refusal :=
  .next (
    let c := s.ward.mailboxes[ch.val]
    let put (x : Mailbox) : State := s.modWard (fun w => { w with mailboxes := w.mailboxes.set ch.val x })
    let n := c.req.getLE 10 2
    if c.busy then put { c with goDrop := true }
    else if 1024 < n then put { c with err := true }
    else if !s.wmpUp (.mailbox ch) then s
    else
      let m := c.req.getList 0 (24 + n)
      match WmpReq.parse (.mailbox ch) m with
      | none => (put { c with err := true }).wmpDiscard
      | some _ =>
        let t := (put { c with busy := true }).wmpRequest (.mailbox ch) m
        if t.inService (.mailbox ch) (leField m 4 2) then t
        else t.modWard (fun w => { w with mailboxes := w.mailboxes.set ch.val { w.mailboxes[ch.val] with busy := false } }))

/-! The store (R414, R418, R429) -/

/-- R414: a write whose commit ends is applied, unless what it needs no longer holds: RANGE where its value no longer fits (R223, R286), else STATE; its status. -/
def State.applyCommit (x : State × List (CommitWrite × Nat)) (c : CommitWrite) : State × List (CommitWrite × Nat) :=
  let s := x.1
  if c.restore then
    let s1 := s.takeImage []
    let s2 := if s.mainOn then s1.chooseRoot else s1
    (s2.modWard (fun w => { w with store := [] }), x.2 ++ [(c, wmpOk)])
  else
    let st : Nat := match dictRow c.index c.sub with
      | some r => if !s.rangeOk c.index c.sub c.value r then wmpRange else if s.stateOk c.index c.sub c.value r then wmpOk else wmpState
      | none => wmpState
    if st = wmpOk then
      ((s.setEntry c.index c.sub c.value).modWard (fun w => { w with store := Tab.set none w.store (dictKey c.index c.sub) (some c.value) }),
       x.2 ++ [(c, wmpOk)])
    else (s, x.2 ++ [(c, st)])

/-- R418: the writes of a commit are answered. -/
def State.answerCommits (s : State) (l : List (CommitWrite × Nat)) : State :=
  l.foldl (fun (t : State) e => match e.1.path with
    | some p => t.answerWmp p e.1.seq ((WmpResp.plain e.1.index e.1.sub e.2).bytes 2 e.1.seq)
    | none => t) s

/-- R418: a commit is over, and the next begins. -/
def WardenState.nextCommit (w : WardenState) : WardenState := { w with commitNow := w.commitNext, commitNext := [] }

/-- STORE_COMMIT_COMPLETE (R418, R431, R475): the older bank is written and reads back, and becomes current; or nothing changes. -/
def execStoreCommitComplete (good : Bool) (s : State) : Host.Outcome State Fault Refusal :=
  .next (
    let l := s.ward.commitNow
    if l = [] ∨ !s.ward.up then s
    else if good then
      let r := l.foldl State.applyCommit (s, [])
      let n := s.ward.storeCommits
      let s1 := r.1.modWard (fun w => { w.nextCommit with
        older := s.ward.store, oldGood := true, storeCommits := if n = 0xFFFFFFFF then n else n + 1 })
      (s1.measureEntries).answerCommits r.2
    else
      let s1 := (s.modWard (fun w => { w.nextCommit with oldGood := false })).report ⟨0x0901, dieX0, 0xFF, unitStore, .operation, []⟩
      s1.answerCommits (l.map (fun c => (c, wmpPersist))))

/-- STAGING_TIMEOUT (R422): the i-th staging ends. -/
def execStagingTimeout (i : Nat) (s : State) : Host.Outcome State Fault Refusal :=
  .next (s.modWard (fun w => { w with staging := w.staging.eraseIdx i }))

/-- RESTORE_DEFAULTS (R429): in STANDBY and READY; every RWP entry takes its default when its commit ends. -/
def execRestoreDefaults (v : Byte) (s : State) : Host.Outcome State Fault Refusal :=
  .next (if v ≠ 0x5A then s.emit (.status wmpRange)
    else if s.modu.state = .standby ∨ s.modu.state = .ready then s.joinCommit ⟨none, 0, 0x1F01, 0, 0x5A, true⟩
    else s.emit (.status wmpState))

/-! The side-band ports (R424, R425) -/

/-- PLCA_FALLBACK (R424): no PLCA cycle within 200 ms: CSMA/CD, counted. -/
def execPlcaFallback (s : State) : Host.Outcome State Fault Refusal :=
  .next (if s.plug.standbyRails then s.modWard (fun w => { w with plcaFallback := true, plcaFallbacks := w.plcaFallbacks + 1 }) else s)

/-- R425: the static address, 0x30 + slot. -/
def State.i3cStatic (s : State) : BitVec 7 := BitVec.ofNat 7 (0x30 + (s.plug.slot.getD 0).toNat)

/-- SETDASA (R425): the bus owner names the static address and gives the dynamic one. -/
def execSetdasa (at_ addr : BitVec 7) (s : State) : Host.Outcome State Fault Refusal :=
  .next (if s.ward.up ∧ at_ = s.i3cStatic then s.modWard (fun w => { w with i3cAddr := some addr }) else s)

/-- ENTDAA (R425): the module takes part in dynamic address assignment. -/
def execEntdaa (addr : BitVec 7) (s : State) : Host.Outcome State Fault Refusal :=
  .next (if s.ward.up ∧ s.ward.i3cAddr = none then s.modWard (fun w => { w with i3cAddr := some addr }) else s)

/-- R425: the message types the module reports: control, PLDM, SPDM, secured, vendor-defined. -/
def mctpTypes : List Byte := [0x00, 0x01, 0x05, 0x06, 0x7F]

/-- R425: the key of a bus in the table of endpoint identifiers. -/
def busKey : MctpBus → Nat
  | .i3c => 0
  | .pcie => 1

/-- MCTP_CONTROL (R425, R472): discovery, assignment of the endpoint identifier, the supported types. -/
def execMctpControl (bus : MctpBus) (cmd : MctpCmd) (s : State) : Host.Outcome State Fault Refusal :=
  .next (
    let up := s.ward.up && match bus with
      | .i3c => true
      | .pcie => s.hostPathUp
    let eid : Byte := (Tab.get none s.ward.mctpEid (busKey bus)).getD 0
    if !up then s
    else match cmd with
      | .discover => s.emit (.mctp bus eid [])
      | .getEid => s.emit (.mctp bus eid [])
      | .types => s.emit (.mctp bus eid mctpTypes)
      | .setEid e => (s.modWard (fun w => { w with mctpEid := Tab.set none w.mctpEid (busKey bus) (some e) })).emit (.mctp bus e []))

end Sys2Proof.Machine
end

