-- ==== Sys2Proof/Machine/Errors.lean ====
section
/-! DEFINITION. Path errors (R467), patrol scrubbing (R453 to R455) and cores whose SRAM reaches an error limit (R462). -/

namespace Sys2Proof.Machine

/-- R458: the unit code of an on-package link, and the die its record names. -/
def linkUnit : PathLink → Nat × Nat
  | .mesh n => (0x0800 + n.val, (dieOfCore n).val)
  | .edge c => (0x0900 + c.val, c.val)
  | .segment k => (0x0910 + k.val, 0xFF)

/-- R467: the detail of PATH_ERROR. -/
def pathDetail (unit : Nat) (flits : W32) : List Byte := leBytes 2 unit ++ leBytes 4 flits.toNat

/-- PATH_ERROR (R467): a mesh link takes the die of its receiver out of service; an edge port or a perimeter segment takes the
module to FAULTED. -/
def execPathError (link : PathLink) (flits : W32) (s : State) : Host.Outcome State Fault Refusal :=
  .next (let u := linkUnit link
    if !s.mainOn then s
    else match link with
      | .mesh n =>
        let own := partByte (s.partOfCore n)
        (s.report ⟨0x0410, u.2, own, u.1, .die, pathDetail u.1 flits⟩).dieOut (dieOfCore n)
      | _ => (s.report ⟨0x0410, u.2, 0xFF, u.1, .module, pathDetail u.1 flits⟩).enterFaulted 0x0410)

/-- R453, R489, R495: an event of the scrubber at a memory-side die. -/
def State.countScrub (s : State) (ev a : Nat) : State :=
  s.countDie ((s.unitOf a).1 - 8) ⟨ev, 1, 0, 2, 3, none, some a, none⟩

/-- R291, R292: a page of the device-virtual space lies in the node or record area of a LIVE index of its partition. -/
def State.inCodexArea (s : State) (p : PartNo) (page : Nat) : Bool :=
  (s.liveIndexes p).any (fun i => match s.ixAddr p i with
    | none => false
    | some a =>
      let y : Ix := ⟨i, a, s.mem.cells.getList a 256⟩
      let n := y.f 88 8
      let at_ := 65536 * page
      (decide (y.nodeAddr 0 ≤ at_) && decide (at_ < y.nodeAddr n)) || (decide (y.recAddr 0 ≤ at_) && decide (at_ < y.recAddr n)))

/-- R455: a worn flash frame of class B, or of a codex area, is moved; the runtime moves any other. -/
def State.refreshWorn (s : State) (f : Nat) : State :=
  let e := s.frame f
  let area : Bool := match s.dvPageOf e.part f with
    | some g => s.inCodexArea e.part g
    | none => false
  if e.state = 1 ∧ (e.classB ∨ area) then s.refreshFrame e.part f else s

/-- R454, R455: an error that a scrub read corrects. -/
def State.scrubFixed (s : State) (a nbits : Nat) : State :=
  let f := a / 65536
  let s1 := s.countScrub 0x1B a
  if tierOfFrame f = some 2 ∧ s.dictVal 0x7010 4 < nbits then
    let u := s.unitOf a
    (s1.report ⟨0x020E, u.1, 0xFF, u.2, .corrected,
      memDetail (65536 * f) 2 1 (s.mem.frameEvents.get f).toNat nbits⟩).refreshWorn f
  else s1

/-- R235: when every granule of a flash frame is lost, the module sets poison in the entries that name it. -/
def State.poisonLostFrame (s : State) (f : Nat) : State :=
  if tierOfFrame f = some 2 ∧ (List.range 1024).all (fun i => decide (s.mem.poison.get (1024 * f + i) = 1)) then
    let es := allParts.flatMap (fun p => (s.allLeaves p).filter (fun e => decide (bits e.2 16 32 = f)))
    es.foldl (fun (t : State) e => t.modMem (fun m => { m with cells := m.cells.setLE e.1 8 (e.2 ||| 16) })) s
  else s

/-- R235, R454, R459, R463: an error that a scrub read cannot correct: the granule, or the granules of a flash sector, are poisoned,
one record is written, and the frame's events are counted. Granules that all carry their mark agree with it: reported once. -/
def State.scrubLost (s : State) (a symbols : Nat) : State :=
  let f := a / 65536
  let flash := decide (tierOfFrame f = some 2)
  let gs := if flash then (List.range 64).map (fun i => 64 * (a / 4096) + i) else [a / 64]
  let s1 := gs.foldl (fun (t : State) g => t.poisonGran g) s
  let ev := s.mem.frameEvents.get f
  let ev1 := if ev = 0xFFFF then ev else ev + 1
  let s2 := s1.modMem (fun m => { m with frameEvents := m.frameEvents.set f ev1 })
  let u := s.unitOf a
  let s3 := s2.report ⟨0x0202, u.1, 0xFF, u.2, .operation,
    memDetail (64 * (gs.headD 0)) ((tierOfFrame f).getD 0) 1 ev1.toNat (if tierOfFrame f = some 0 then symbols else 0)⟩
  let s4 := (s3.countScrub 0x1C a).poisonLostFrame f
  if gs.all (fun g => decide (s.mem.poison.get g = 1)) then s1
  else if !flash ∧ s.dictVal 0x7010 3 ≤ ev1.toNat then s4.listRetire f else s4

/-- R462, R464: a rubric core at its error limit goes offline; a partition that has lost all of its rubric cores enters DRAINING. The
record (log 42, DEDUCED) is UNCORRECTABLE of its SRAM, at an address that is free (log 1). -/
def State.hartLost (s : State) (k : Fin 24) : State :=
  let s1 := s.modRub k (fun _ => { Rubric.reset with offline := true })
  let rec_ (t : State) (l : Level) : State :=
    t.draw.report ⟨0x0202, (dieOfHart k).val, partByte (t.hartPart k), unitRubric k, l, memDetail (Config.freeNat t.draws) 0xFE 0 0 0⟩
  match s.hartPart k with
  | none => rec_ s1 .core
  | some p =>
    if (s1.hartsOf p).all (fun j => (s1.rub j).offline) then
      let s2 := rec_ s1 .partition
      if (s.part p).mode = .idle ∨ (s.part p).mode = .running then s2.drainPart p else s2
    else rec_ s1 .core

/-- CORE_CUT (R462): a core counts errors of its SRAM, uncorrectable and correctable: at a limit a compute core is cut out at its next
phase boundary, or at once when it is FAULTED, IDLE or otherwise outside a phase, and a rubric core goes offline. -/
def execCoreCut (e : SramErrors) (s : State) : Host.Outcome State Fault Refusal :=
  .next (match e.unit with
    | .core n => if (s.core n).mode = .cut ∨ (s.core n).mode = .off then s else s.coreSram n e.lost e.fixed
    | .hart k =>
      if !s.mainOn ∨ (s.rub k).offline then s
      else
        let s1 := s.countSram (unitRubric k) e.lost e.fixed
        if s1.sramLimit (unitRubric k) then s1.hartLost k else s1)

/-- SCRUB_READ (R453, R454): a patrol read of a granule, or of the flash sector, that holds a unified address. -/
def execScrubRead (addr : W64) (found : ScrubFound) (s : State) : Host.Outcome State Fault Refusal :=
  .next (let a := addr.toNat
    if !s.mainOn ∨ !s.implemented (a / 65536) then s
    else
      let s1 := s.countScrub 0x1D a
      match found with
      | .clean => s1
      | .corrected n => s1.scrubFixed a n
      | .lost n => (s1.scrubLost a n).sharedCodeLost (a / 64))

end Sys2Proof.Machine
end

