-- ==== Sys2Proof/Machine/Ethernet.lean ====
section
/-! DEFINITION. The Ethernet ports P30 and P31 (R345 to R348). A frame is its bytes from the destination address to the end
of its FCS. -/

namespace Sys2Proof.Machine

/-- Where the queue pair of a port stands in the table. -/
def ethKey (p : PortNo) (q : Fin 64) : Nat := 64 * (p.val - 30) + q.val

/-- A queue pair. -/
def State.eth (s : State) (p : PortNo) (q : Fin 64) : EthQp := Tab.get EthQp.reset s.link.eth (ethKey p q)

/-- Replaces a queue pair. -/
def State.setEth (s : State) (p : PortNo) (q : Fin 64) (x : EthQp) : State :=
  s.modLink (fun l => { l with eth := Tab.set EthQp.reset l.eth (ethKey p q) x })

/-- R346: descriptors of a ring. -/
def EthQp.size (x : EthQp) : Nat := 2 ^ x.ringLog2.toNat

/-- The owning partition. -/
def EthQp.owner (x : EthQp) : PartNo := partOf x.part.toNat

/-- The FCS of a frame: the CRC-32 of IEEE 802.3. -/
def ethFcs (bs : List Byte) : Nat := (bs.foldl (crcByte 0xEDB88320) 0xFFFFFFFF) ^^^ 0xFFFFFFFF

/-- R495: counts an Ethernet event at X1. -/
def State.countEth (s : State) (ev : Nat) (p : Option PartNo) : State := s.countDie 5 ⟨ev, 1, 0, 3, 3, p, none, none⟩

/-- ETH_LINK_UP (R330, R345): the 800GBASE-DR4 link of an Ethernet port is up. -/
def execEthLinkUp (p : PortNo) (s : State) : Host.Outcome State Fault Refusal :=
  .next (if 30 ≤ p.val ∧ (s.port p).enable ∧ (s.port p).mode = .down then s.modPort p (fun x => { x with mode := .ethUp }) else s)

/-! Receive (R346) -/

/-- A frame as it is steered: its data without FCS and tag, its tag. -/
structure EthRx where
  data : List Byte
  tag : Option Nat
  deriving DecidableEq, Repr

/-- R345: strips the FCS and the IEEE 802.1Q tag. -/
def ethParse (frame : List Byte) : EthRx :=
  let b := frame.take (frame.length - 4)
  if leField b 12 1 = 0x81 ∧ leField b 13 1 = 0 then ⟨b.take 12 ++ b.drop 16, some (256 * leField b 14 1 + leField b 15 1)⟩
  else ⟨b, none⟩

/-- R345: 64 to 9,216 B with a correct FCS. -/
def ethOk (frame : List Byte) : Bool :=
  decide (64 ≤ frame.length) && decide (frame.length ≤ 9216) && decide (leField frame (frame.length - 4) 4 = ethFcs (frame.take (frame.length - 4)))

/-- R345: a frame of priority-based flow control (PRESUMED, log 168: the MAC control frame of IEEE 802.1Qbb). -/
def isPfc (data : List Byte) : Bool :=
  decide (data.take 6 = [0x01, 0x80, 0xC2, 0x00, 0x00, 0x01]) && decide ((data.drop 12).take 4 = [0x88, 0x08, 0x01, 0x01])

/-- R345: the pause of priority `i` in such a frame, in quanta of 512 bit times; none when it does not name the priority. -/
def pfcQuanta (data : List Byte) (i : Nat) : Option Nat :=
  if bitOf (leField data 17 1) i then some (256 * leField data (18 + 2 * i) 1 + leField data (19 + 2 * i) 1) else none

/-- R345: a flow-control frame pauses the priorities it names: 512 bit times at 800 Gb/s are 0.64 ns, 0.768 ticks. -/
def State.takePfc (s : State) (p : PortNo) (data : List Byte) : State :=
  s.modPort p (fun x => { x with paused := Vector.ofFn (fun i => match pfcQuanta data i.val with
    | some q => BitVec.ofNat 64 (s.now + ceilDiv (768 * q) 1000)
    | none => x.paused[i]) })

/-- R346: writes a frame to a queue pair; a frame that finds no descriptor or a buffer too short is dropped and counted. The
port writes done last. -/
def State.ethDeliver (s : State) (p : PortNo) (q : Fin 64) (f : EthRx) : State :=
  let x := s.eth p q
  let own := x.owner
  let drop : State := s.countEth 0x14 (some own)
  let m := masterTransport 1
  let d := x.rxBase.toNat + 32 * x.rxHead.toNat
  if x.rxHead = x.rxTail then drop
  else match s.dvRead own m d 32 with
    | .error e => drop.reportPF own dieX1 (unitPort p) .operation e
    | .ok (b, _) =>
      if leField b 8 2 < f.data.length then drop
      else match s.translateAll (s.engineReq own (leField b 0 8) 1 m) (pagePieces (leField b 0 8) f.data.length) with
        | .error e => drop.reportPF own dieX1 (unitPort p) .operation e
        | .ok ts =>
          let s1 := s.plainWrite (.engine m) (transPieces ts f.data (fun _ => false))
          let pcp := (f.tag.getD 0) / 8192
          let s2 := s1.dvWrite own m (d + 10) (leBytes 2 f.data.length)
          let s3 := s2.dvWrite own m (d + 13) (leBytes 1 pcp ++ leBytes 2 (f.tag.getD 0) ++ leBytes 8 s.now)
          let s4 := s3.dvWrite own m (d + 12) (leBytes 1 (1 + flagAt f.tag.isSome 1))
          s4.setEth p q { x with rxHead := BitVec.ofNat 16 ((x.rxHead.toNat + 1) % x.size) }

/-- R345, R346: the queue pairs that a frame goes to: none for one of flow control. -/
def State.ethSteer (s : State) (p : PortNo) (f : EthRx) : List (Fin 64) :=
  let on (q : Fin 64) : Bool := (s.eth p q).enable
  if isPfc f.data then []
  else if leField f.data 0 1 % 2 = 1 then (List.finRange 64).filter (fun q => on q && (s.eth p q).acceptMc)
  else ((List.finRange 64).filter (fun q => on q && decide ((s.eth p q).mac.toNat = leField f.data 0 6) &&
    decide ((s.eth p q).vlan.toNat = (f.tag.getD 0) % 4096))).take 1

/-- ETH_FRAME_RECEIVE (R345, R346): a frame with a good FCS is steered to queue pairs, or pauses priorities. -/
def execEthFrameReceive (p : PortNo) (frame : List Byte) (s : State) : Host.Outcome State Fault Refusal :=
  .next (
    if p.val < 30 ∨ (s.port p).mode ≠ .ethUp then s
    else if !ethOk frame then s.countEth 0x14 none
    else
      let f := ethParse frame
      let qs := s.ethSteer p f
      let s1 := s.countEth 0x13 none
      if isPfc f.data then s1.takePfc p f.data
      else if qs = [] then s1.countEth 0x14 none else qs.foldl (fun t q => t.ethDeliver p q f) s1)

/-! Transmit (R346, R348) -/

/-- ETH_TX_POST (R346): transmit descriptors are posted; pointers wrap modulo the ring size. -/
def execEthTxPost (p : PortNo) (qp : Fin 64) (tail : W16) (s : State) : Host.Outcome State Fault Refusal :=
  .next (if p.val < 30 then s
    else s.setEth p qp { s.eth p qp with txTail := BitVec.ofNat 16 (tail.toNat % (s.eth p qp).size) })

/-- ETH_RX_POST (R346): receive descriptors are posted. -/
def execEthRxPost (p : PortNo) (qp : Fin 64) (tail : W16) (s : State) : Host.Outcome State Fault Refusal :=
  .next (if p.val < 30 then s
    else s.setEth p qp { s.eth p qp with rxTail := BitVec.ofNat 16 (tail.toNat % (s.eth p qp).size) })

/-- R345: the frame on the wire: the tag inserted, the FCS added, inverted when the frame is stomped (R348). -/
def ethFrame (data : List Byte) (tag : Option Nat) (stomp : Bool) : List Byte :=
  let b := match tag with
    | some t => data.take 12 ++ leBytes 1 0x81 ++ leBytes 1 0 ++ leBytes 1 (t / 256) ++ leBytes 1 t ++ data.drop 12
    | none => data
  b ++ leBytes 4 (if stomp then ethFcs b ^^^ 0xFFFFFFFF else ethFcs b)

/-- R9, R346: the reserved fields of a transmit descriptor are zero. -/
def txDescOk (b : List Byte) : Bool := zeroFrom b 10 2 && zeroFrom b 24 8 && decide (leField b 12 1 < 16)

/-- R346: takes the transmit descriptor at the head. A length outside 60 to 9,212 B, and a buffer that cannot be read, send
nothing; a reserved field that is not zero is reported as BAD_ORDER (R9); a priority that is paused waits (R345). -/
def State.ethSend (s : State) (p : PortNo) (q : Fin 64) : State :=
  let x := s.eth p q
  let own := x.owner
  let m := masterTransport 1
  let d := x.txBase.toNat + 32 * x.txHead.toNat
  let next (t : State) : State := t.setEth p q { x with txHead := BitVec.ofNat 16 ((x.txHead.toNat + 1) % x.size) }
  match s.dvRead own m d 32 with
  | .error e => next (s.reportPF own dieX1 (unitPort p) .operation e)
  | .ok (b, _) =>
    let n := leField b 8 2
    let fl := leField b 12 1
    if !txDescOk b then next (s.report ⟨0x0503, dieX1, own.val, unitPort p, .operation, []⟩)
    else if n < 60 ∨ 9212 < n then next s
    else if s.now < ((s.port p).paused.toList.getD (leField b 13 1) 0).toNat then s
    else match s.dvRead own m (leField b 0 8) n with
      | .error e => next (s.reportPF own dieX1 (unitPort p) .operation e)
      | .ok (data, bad) =>
        let s1 := (s.countEth 0x12 (some own)).emit (.ethFrame p (ethFrame data (if bitOf fl 1 then some (leField b 14 2) else none) bad) bad)
        let s2 := if bitOf fl 0 then s1.dvWrite own m (d + 16) (leBytes 8 s.now) else s1
        let s3 := s2.dvWrite own m (d + 12) (leBytes 1 (fl % 4 + 4 + flagAt bad 3))
        let s4 := if bad then (s3.countEth 0x15 (some own)).report ⟨0x0205, dieX1, own.val, unitPort p, .operation, []⟩ else s3
        next s4

/-- ETH_FRAME_SENT (R346, R348): a frame is transmitted and its descriptor marked done. -/
def execEthFrameSent (p : PortNo) (qp : Fin 64) (s : State) : Host.Outcome State Fault Refusal :=
  .next (
    let x := s.eth p qp
    if p.val < 30 ∨ (s.port p).mode ≠ .ethUp ∨ !x.enable ∨ x.txHead = x.txTail then s else s.ethSend p qp)

end Sys2Proof.Machine
end

