-- ==== Sys2Proof/Machine/Registers.lean ====
section
/-! DEFINITION. The registers: what each reads as (R8) and what a write of each does, by its access codes (R8, R9) and the rules
that gate it. Reserved bits are taken as 0. -/

namespace Sys2Proof.Machine

/-! Fields -/

/-- A field of a register at bit `lo`. -/
def fld (v lo : Nat) : Nat := v * 2 ^ lo

/-- Keeps bits [hi:lo] of a value, in their place. -/
def keepBits (v hi lo : Nat) : Nat := v % 2 ^ (hi + 1) / 2 ^ lo * 2 ^ lo

/-- The state after a command that is a write of one register. -/
def State.after (s : State) (o : Host.Outcome State Fault Refusal) : State :=
  match o with
  | .next t => t
  | _ => s

/-! Numbers of states -/

/-- CORE_STATUS.phase. -/
def Phase.num : Phase → Nat
  | .none => 0 | .compute => 1 | .transfer => 2 | .turn => 3

/-- FAB_PORT_STATUS.state (R330). -/
def PortMode.num : PortMode → Nat
  | .disabled => 0 | .down => 1 | .training => 2 | .handshake => 3 | .keying => 4 | .up => 5 | .quarantine => 6 | .ethUp => 7

/-- FAB_RING_STATUS.state (R190). -/
def RingMode.num : RingMode → Nat
  | .disabled => 0 | .running => 1 | .stopping => 2 | .stopped => 3 | .broken => 4

/-- The state byte of a result slot (R405). -/
def SlotState.num : SlotState → Nat
  | .empty => 0 | .pending => 1 | .ready => 2 | .released => 3

/-! Core block -/

/-- What a register of a core block reads as. -/
def State.coreRegRead (s : State) (n : CoreNo) (r : CoreReg) : Nat :=
  let c := s.core n
  let g := c.regs
  match r with
  | .ctrl => flagAt g.wdogEn 4
  | .status => c.mode.num + fld c.phase.num 3 + flagAt c.flags.tokenWait 5 + flagAt (decide (c.inbound ≠ [])) 6 + flagAt c.flags.rotStall 7 +
      flagAt c.flags.cmdDrop 8 + flagAt c.flags.wrDrop 9 + flagAt c.flags.poisonSeen 10 + flagAt (!s.groupAgrees n) 11 + fld c.inbound.length 16
  | .pc => g.pc.toNat
  | .startPc => g.startPc.toNat
  | .id => n.val + fld (dieOfCore n).val 7 + fld (n.val % 4 + 4 * (n.val / 16 % 4)) 10 + fld g.partition.toNat 16 + flagAt g.partValid 19
  | .group => g.groupLog2.toNat
  | .rngSeed => g.rngSeed.toNat
  | .rngState => g.rngState.toNat
  | .rotBase => g.rotBase.toNat
  | .rotCtrl => flagAt c.flags.invalBusy 1
  | .wdog => g.wdogTimeout.toNat
  | .progSrc => g.progSrc.toNat
  | .progCtrl => g.progFirst.toNat + fld g.progCount.toNat 11 + flagAt c.load.isSome 24 + flagAt g.progErr 25
  | .arg i => (if i = 0 then g.arg0 else if i = 1 then g.arg1 else g.arg2).toNat
  | .faultCode => c.fault.code.toNat + fld c.fault.resource.toNat 16 + flagAt c.fault.multi 30 + flagAt c.fault.valid 31
  | .faultPc => c.fault.pc.toNat
  | .faultTile => c.fault.tile.toNat
  | .faultNeed => c.fault.need.toNat
  | .faultHave => c.fault.have_.toNat
  | .event => c.ev.value.toNat + fld c.ev.event.toNat 48
  | .eventCtrl => c.ev.count.toNat + flagAt c.ev.pending 16 + flagAt c.ev.ended 17 + flagAt c.ev.irqEn 18 + fld c.ev.target.toNat 19 +
      flagAt c.ev.valuePoison 24
  | .folio => g.folio.toNat

/-- Changes the control registers of a core. -/
def Core.modRegs (c : Core) (f : CoreRegs → CoreRegs) : Core := { c with regs := f c.regs }

/-- CORE_CTRL[3:0]: the command bits that act: soft_reset, else the lowest of start, halt, resume. -/
def ctrlActs (v : Nat) : Option (Fin 4) :=
  if bitOf v 3 then some 3 else if bitOf v 0 then some 0 else if bitOf v 1 then some 1 else if bitOf v 2 then some 2 else none

/-- CORE_CTRL: more than one of start, halt and resume without soft_reset. -/
def ctrlExtra (v : Nat) : Bool := !bitOf v 3 && decide (1 < sumNat ((List.range 3).map (fun i => bits v i 1)))

/-- A write of CORE_CTRL[3:0] (R71). -/
def State.coreCommand (s : State) (n : CoreNo) (priv : BitVec 2) (v : Nat) : State :=
  let s1 := match ctrlActs v with
    | some 0 => s.startCore n priv
    | some 1 => s.haltCore n
    | some 2 => s.resumeCore n
    | some _ => s.softResetCore n
    | none => s
  if ctrlExtra v then s1.modCore n Core.dropCmd else s1

/-- A write of a register of a core block (R73); `priv` is the privilege a start carries (R490). -/
def State.coreRegWrite (s : State) (n : CoreNo) (r : CoreReg) (v : Nat) (priv : BitVec 2) : State :=
  let run := decide ((s.core n).mode = .running)
  let set (f : CoreRegs → CoreRegs) : State := s.modCore n (fun c => c.modRegs f)
  let idle (f : CoreRegs → CoreRegs) : State := if run then s.modCore n Core.dropWr else set f
  match r with
  | .ctrl => (set (fun g => { g with wdogEn := bitOf v 4 })).coreCommand n priv v
  | .status => s.modCore n (fun c => { c with flags := { c.flags with
      cmdDrop := c.flags.cmdDrop && !bitOf v 8, wrDrop := c.flags.wrDrop && !bitOf v 9, poisonSeen := c.flags.poisonSeen && !bitOf v 10 } })
  | .startPc => set (fun g => { g with startPc := BitVec.ofNat 16 (keepBits v 14 4) })
  | .group => if bits v 0 2 = 3 then s.modCore n Core.dropWr else idle (fun g => { g with groupLog2 := BitVec.ofNat 2 v })
  | .rngSeed => s.after (execCoreRngSeedWrite n (BitVec.ofNat 64 v) s)
  | .rotBase => idle (fun g => { g with rotBase := BitVec.ofNat 64 (keepBits v 51 16) })
  | .rotCtrl => if bitOf v 0 then s.after (execRotInvalidate n s) else s
  | .wdog => set (fun g => { g with wdogTimeout := BitVec.ofNat 24 v })
  | .progSrc => if (s.core n).load.isSome then s.modCore n Core.dropWr else set (fun g => { g with progSrc := BitVec.ofNat 64 (keepBits v 51 6) })
  | .progCtrl => s.after (execProgLoad n (BitVec.ofNat 32 v) s)
  | .arg i => set (fun g => if i = 0 then { g with arg0 := BitVec.ofNat 64 v } else if i = 1 then { g with arg1 := BitVec.ofNat 64 v }
      else { g with arg2 := BitVec.ofNat 64 v })
  | .faultCode => s.modCore n (fun c => { c with fault := { c.fault with valid := c.fault.valid && !bitOf v 31 } })
  | .eventCtrl => s.after (execCoreEventCtrlWrite n (BitVec.ofNat 32 v) s)
  | .folio => s.after (execCoreFolioWrite n (BitVec.ofNat 64 v) s)
  | .pc | .id | .rngState | .faultPc | .faultTile | .faultNeed | .faultHave | .event => s

/-! Memory-side dies -/

/-- What a register of a multicast set reads as (R198). -/
def State.mcastRegRead (s : State) (m : MDie) (i : Fin 16) (r : McastReg) : Nat :=
  let x := s.mcastSet m i.val
  match r with
  | .members => x.members.toNat
  | .ctrl => flagAt x.enable 0 + flagAt x.window.isSome 1 + fld x.detachWait.toNat 2
  | .win => match x.window with
    | some w => w.1
    | none => 0
  | .len => match x.window with
    | some w => w.2
    | none => 0
  | .status => x.attached.toNat

/-- A write of a register of a multicast set (R198): members and detach_wait are kept while a window is armed. -/
def State.mcastRegWrite (s : State) (m : MDie) (i : Fin 16) (r : McastReg) (v : Nat) : State :=
  let x := s.mcastSet m i.val
  let armed := x.window.isSome
  match r with
  | .members => if armed then s else s.setMcast m i.val { x with members := BitVec.ofNat 32 v }
  | .ctrl => s.setMcast m i.val { x with enable := bitOf v 0, detachWait := if armed then x.detachWait else BitVec.ofNat 8 (max 1 (bits v 2 8)) }
  | .win | .len | .status => s

/-- R227: the ruling home of a partition, formed or under formation. -/
def State.liveHome (s : State) (p : PartNo) : Option MDie :=
  let x := s.part p
  (if x.mode ≠ .unformed then lowestDie x.dies else x.forming.bind lowestDie).map mdieOf

/-- What a register of a partition control block reads as; but for MSD_PT_ROOT it is live on the ruling home alone (R227). -/
def State.partRegRead (s : State) (m : MDie) (p : PartNo) (r : PartReg) : Nat :=
  let g := s.preg p
  let u := s.ruling p
  if r = .ptRoot then (Tab.get 0 s.mem.ptRoot (8 * m.val + p.val)).toNat
  else if s.liveHome p ≠ some m then 0
  else match r with
    | .ruleBase => g.ruleBase.toNat
    | .ruleCtrl => flagAt g.ruleEnable 0 + fld g.ruleLook.toNat 1
    | .ruleTail => g.ruleTail.toNat
    | .ruleCur => g.ruleCur.toNat
    | .ruleStatus => (match u.started with
        | e :: _ => e.idx
        | [] => u.next.toNat) + flagAt (decide (u.started ≠ [])) 16 + flagAt g.ruleMiss 17 + flagAt g.ruleFallback 18 + flagAt g.ruleErr 19
    | .folioStatus => s.openCount p + flagAt (s.liveSlots.any (fun e => decide (e.2.part = p) && decide (e.2.mode = .inDoubt))) 15 +
        fld (s.snapsOf p).length 16 + flagAt g.snapClosed 26 + flagAt g.folioErr 27
    | .inkStatus => min 256 (s.cacheQueued p) + flagAt (s.mem.batches.any (fun b => decide (b.part = p))) 9 + flagAt g.inkOrdDrop 10 +
        flagAt g.inkErr 11
    | .codexStatus => (s.mem.walks.filter (fun w => decide (w.part = p) && decide (w.phase ≠ .waiting))).length + fld (min 256 (s.codexQueued p)) 12 +
        flagAt g.codexOrdDrop 21 + flagAt g.codexErr 22 + flagAt g.codexLate 23 +
        flagAt (s.mem.repairs.any (fun x => (s.liveIndexes p).contains x.index)) 24
    | .ptRoot | .folioSubmit | .inkSubmit | .codexSubmit => 0

/-- R524: the op of a block that a submit register names (any op where it cannot be read: its engine then reports it). -/
def State.submitOp (s : State) (p : PartNo) (addr n : Nat) : Nat :=
  match s.submitBlock p addr n with
  | .ok b => leField b 2 1
  | .error _ => 1

/-- MSD_FOLIO_SUBMIT (R257). -/
def State.submitFolio (s : State) (p : PartNo) (v : Nat) : State :=
  let a := keepBits v 51 6
  let src : CmdSrc := .submit p (BitVec.ofNat 64 a)
  s.after (match s.submitOp p a 64 with
    | 2 => execFolioExtend src s
    | 3 => execFolioSeal src s
    | 4 => execFolioScrape src s
    | 5 => execFolioInspect src s
    | 6 => execSnapOpen src s
    | 7 => execSnapClose src s
    | 8 => execFolioResolve src s
    | _ => execFolioOpen src s)

/-- MSD_INK_SUBMIT (R267). -/
def State.submitInk (s : State) (p : PartNo) (v : Nat) : State :=
  let a := keepBits v 51 6
  s.cacheEntry (.submit p (BitVec.ofNat 64 a)) (s.submitOp p a 64)

/-- MSD_CODEX_SUBMIT (R299). -/
def State.submitCodex (s : State) (p : PartNo) (v : Nat) : State :=
  let a := keepBits v 51 7
  let src : CmdSrc := .submit p (BitVec.ofNat 64 a)
  s.after (match s.submitOp p a 128 with
    | 2 => execCodexDropIndex src s
    | 3 => execCodexInsert src s
    | 4 => execCodexDelete src s
    | 5 => execCodexQuery src s
    | 6 => execCodexDropSubgraph src s
    | _ => execCodexCreateIndex src s)

/-- A write of a register of a partition control block (R227): dropped on a die that is not the ruling home, but for MSD_PT_ROOT. -/
def State.partRegWrite (s : State) (m : MDie) (p : PartNo) (r : PartReg) (v : Nat) : State :=
  let en := (s.preg p).ruleEnable
  let off (f : PartRegs → PartRegs) : State := if en then s else s.modPreg p f
  if r = .ptRoot then
    s.modMem (fun x => { x with ptRoot := Tab.set 0 x.ptRoot (8 * m.val + p.val) (BitVec.ofNat 64 (keepBits v 47 15 + bits v 0 1)) })
  else if s.liveHome p ≠ some m then s
  else match r with
    | .ruleBase => off (fun g => { g with ruleBase := BitVec.ofNat 64 (keepBits v 51 22) })
    | .ruleCtrl => s.modPreg p (fun g => { g with ruleEnable := bitOf v 0, ruleLook := if en then g.ruleLook else BitVec.ofNat 3 (bits v 1 3) })
    | .ruleTail => s.modPreg p (fun g => { g with ruleTail := BitVec.ofNat 16 v })
    | .ruleCur => off (fun g => { g with ruleCur := BitVec.ofNat 64 (keepBits v 51 3) })
    | .ruleStatus => s.modPreg p (fun g => { g with
        ruleMiss := g.ruleMiss && !bitOf v 17, ruleFallback := g.ruleFallback && !bitOf v 18, ruleErr := g.ruleErr && !bitOf v 19 })
    | .folioSubmit => s.submitFolio p v
    | .folioStatus => s.modPreg p (fun g => { g with snapClosed := g.snapClosed && !bitOf v 26, folioErr := g.folioErr && !bitOf v 27 })
    | .inkSubmit => s.submitInk p v
    | .inkStatus => s.modPreg p (fun g => { g with inkOrdDrop := g.inkOrdDrop && !bitOf v 10, inkErr := g.inkErr && !bitOf v 11 })
    | .codexSubmit => s.submitCodex p v
    | .codexStatus => s.modPreg p (fun g => { g with
        codexOrdDrop := g.codexOrdDrop && !bitOf v 21, codexErr := g.codexErr && !bitOf v 22, codexLate := g.codexLate && !bitOf v 23 })
    | .ptRoot => s

/-- R209, R227: a share whose key changes no longer reads its earlier contents in their places: every byte, and the poison and the
errors of every granule, is free (log 1). -/
def State.loseShare (s : State) (c : CDie) : State :=
  [0, 1, 2].foldl (fun (t : State) tier =>
    let a := 1024 * shareBase tier c
    let n := 1024 * shareFrames t.variant tier
    let u := t.loseBytes tier c
    { u.modMem (fun m => { m with poison := m.poison.fillWith a n (fun g => BitVec.ofNat 1 (Config.freeNat (u.draws + 2 * g))),
                                  latent := m.latent.fillWith a n (fun g => BitVec.ofNat 1 (Config.freeNat (u.draws + 2 * g + 1))) })
      with draws := u.draws + 2 ^ 48 }) s

/-- A write of a register of a die share (R209, R216, R227). -/
def State.shareRegWrite (s : State) (c : CDie) (r : ShareReg) (v : Nat) : State :=
  match r with
  | .key =>
    let mine (p : PartNo) : Bool := ((s.part p).dies ||| (s.part p).forming.getD 0).getLsbD c.val
    let k : BitVec 6 := BitVec.ofNat 6 v
    if allParts.any mine ∨ Tab.get 0 s.mem.shareKey c.val = k then s
    else (s.loseShare c).modMem (fun m => { m with shareKey := Tab.set 0 m.shareKey c.val k })
  | .ftBase t =>
    (s.modMem (fun m => { m with ftBase := Tab.set 0 m.ftBase (shareKeyOf t.val c) (BitVec.ofNat 64 (keepBits v 47 16)) })).imageTable t.val c

/-! Ports, rings, Ethernet, time -/

/-- What a register of a port block reads as (R330). -/
def State.portRegRead (s : State) (p : PortNo) (r : PortReg) : Nat :=
  let x := s.port p
  match r with
  | .ctrl => flagAt x.enable 0 + flagAt x.encReq 1 + flagAt x.loopback 3 + flagAt (decide (30 ≤ p.val)) 4
  | .status => x.mode.num + flagAt x.encOn 4 + flagAt x.keyPhase 5 + flagAt (decide (4095 ≤ x.replay.length)) 6 + flagAt x.rekeyDue 7 +
      flagAt x.downEvent 8 + flagAt x.authFail 9 + flagAt x.verMismatch 10 + flagAt x.replayEvent 11 + fld x.minor.toNat 16
  | .peer => match x.peer with
    | some b => b.major.toNat + fld b.minor.toNat 8 + fld b.build.toNat 16
    | none => 0
  | .arb => x.arb.toNat
  | .err => x.fecCorr.toNat + fld x.fecUncorr.toNat 32 + fld x.replays.toNat 48

/-- A write of a register of a port block (R330). -/
def State.portRegWrite (s : State) (p : PortNo) (r : PortReg) (v : Nat) : State :=
  match r with
  | .ctrl => s.after (execPortEnable p (BitVec.ofNat 32 v) s)
  | .status => s.modPort p (fun x => { x with
      downEvent := x.downEvent && !bitOf v 8, authFail := x.authFail && !bitOf v 9,
      verMismatch := x.verMismatch && !bitOf v 10, replayEvent := x.replayEvent && !bitOf v 11 })
  | .arb => s.modPort p (fun x => { x with arb := BitVec.ofNat 12 v })
  | .peer | .err => s

/-- FAB_RING_STATUS.credit_wait: the entry at the head waits for a landing credit (R192). -/
def Ring.creditWait (r : Ring) : Bool :=
  match r.cur with
  | some c => decide (r.mode = .running) && !r.credits.any (fun q => decide (q.2 = BitVec.ofNat 32 (leField c.entry 32 4)))
  | none => false

/-- What a register of a ring reads as (R190). -/
def State.ringRegRead (s : State) (n : Fin 16) (r : RingReg) : Nat :=
  let x := s.ring n
  match r with
  | .ctrl => flagAt x.enable 0 + flagAt x.folded 2 + fld x.slotsLog2.toNat 3 + flagAt x.mcastArm 5 + fld x.part.toNat 6
  | .epoch => x.epoch.toNat
  | .member => x.index.toNat + fld x.nMinus1.toNat 12
  | .succ => x.succ.toNat
  | .pred => x.pred.toNat
  | .sqBase => x.sqBase.toNat
  | .sqTail => x.sqTail.toNat
  | .land => x.land.toNat
  | .status => x.mode.num + fld x.sqHead.toNat 3 + flagAt x.creditWait 11 + flagAt x.epochDrop 12 + flagAt x.headerDrop 13 + flagAt x.linkLost 14 +
      fld (x.landed.toNat % 65536) 16

/-- R190: FAB_RING_CTRL: bits [8:2] are written in DISABLED and STOPPED; then stop or enable act on the state the ring is in. -/
def State.ringCtrlWrite (s : State) (n : Fin 16) (v : Nat) : State :=
  let m := (s.ring n).mode
  let still := decide (m = .disabled) || decide (m = .stopped)
  let sl : BitVec 2 := if bits v 3 2 = 2 then 2 else 1
  let s1 := if still then s.modRing n (fun x => { x with folded := bitOf v 2, slotsLog2 := sl, mcastArm := bitOf v 5, part := BitVec.ofNat 3 (bits v 6 3) })
    else s
  let s2 := s1.modRing n (fun x => { x with enable := bitOf v 0 })
  if bitOf v 1 ∧ (m = .running ∨ m = .broken) then s2.after (execRingStop n s2)
  else if bitOf v 0 then s2.after (execRingEnable n s2)
  else s2.after (execRingDisable n s2)

/-- A write of a register of a ring (R190). -/
def State.ringRegWrite (s : State) (n : Fin 16) (r : RingReg) (v : Nat) : State :=
  let m := (s.ring n).mode
  let still (f : Ring → Ring) : State := if m = .disabled ∨ m = .stopped then s.modRing n f else s
  match r with
  | .ctrl => s.ringCtrlWrite n v
  | .epoch => s.after (execRingEpochWrite n (BitVec.ofNat 32 v) s)
  | .member => still (fun x => { x with index := BitVec.ofNat 12 v, nMinus1 := BitVec.ofNat 12 (bits v 12 12) })
  | .succ => still (fun x => { x with succ := BitVec.ofNat 32 v &&& 0x9F9F9F9F })
  | .pred => still (fun x => { x with pred := BitVec.ofNat 32 v &&& 0x9F9F9F9F })
  | .sqBase => still (fun x => { x with sqBase := BitVec.ofNat 64 (keepBits v 51 14) })
  | .sqTail => s.after (execRingSqTailWrite n (BitVec.ofNat 8 v) s)
  | .land => still (fun x => { x with land := BitVec.ofNat 64 (keepBits v 51 6) })
  | .status => s.modRing n (fun x => { x with
      epochDrop := x.epochDrop && !bitOf v 12, headerDrop := x.headerDrop && !bitOf v 13,
      linkLost := x.linkLost && !bitOf v 14 })

/-- R346: the port of an Ethernet block. -/
def ethPort (x : Fin 2) : PortNo := portOf (30 + x.val)

/-- What a register of a queue pair reads as (R346). -/
def State.ethRegRead (s : State) (p : Fin 2) (q : Fin 64) (r : EthReg) : Nat :=
  let x := s.eth (ethPort p) q
  match r with
  | .ctrl => flagAt x.enable 0 + fld x.part.toNat 1 + flagAt x.acceptMc 4 + fld x.ringLog2.toNat 5
  | .txBase => x.txBase.toNat
  | .rxBase => x.rxBase.toNat
  | .ptr => x.txTail.toNat + fld x.txHead.toNat 16 + fld x.rxTail.toNat 32 + fld x.rxHead.toNat 48
  | .filter => x.mac.toNat + fld x.vlan.toNat 48

/-- A write of a register of a queue pair (R346). -/
def State.ethRegWrite (s : State) (p : Fin 2) (q : Fin 64) (r : EthReg) (v : Nat) : State :=
  let x := s.eth (ethPort p) q
  let put (y : EthQp) : State := s.setEth (ethPort p) q y
  match r with
  | .ctrl =>
    let l := bits v 5 5
    put { x with enable := bitOf v 0, part := if x.enable then x.part else BitVec.ofNat 3 (bits v 1 3), acceptMc := bitOf v 4,
                 ringLog2 := if 8 ≤ l ∧ l ≤ 16 then BitVec.ofNat 5 l else 8 }
  | .txBase => put { x with txBase := BitVec.ofNat 64 (keepBits v 51 6) }
  | .rxBase => put { x with rxBase := BitVec.ofNat 64 (keepBits v 51 6) }
  | .ptr =>
    let s1 := s.after (execEthTxPost (ethPort p) q (BitVec.ofNat 16 v) s)
    s1.after (execEthRxPost (ethPort p) q (BitVec.ofNat 16 (bits v 32 16)) s1)
  | .filter => put { x with mac := BitVec.ofNat 48 v, vlan := BitVec.ofNat 12 (bits v 48 12) }

/-- FAB_PORT_MAP (R355, R358): the physical port, whether it was remapped, whether it is held, whether it carries data. -/
def State.portMapRead (s : State) (l : Fin 30) : Nat :=
  let p := s.physOf l.val
  let x := s.port p
  p.val + flagAt (decide (p.val ≠ l.val)) 5 + flagAt x.held 6 + flagAt (decide (x.mode = .up) && !x.held) 7

/-! GLB_ and PWR_ registers -/

/-- PWR_STATUS (R434 to R443). -/
def PowerState.status (p : PowerState) : Nat :=
  p.pIn.toNat + fld p.vIn.toNat 16 + fld p.level.toNat 32 + fld p.ballast.toNat 48 + flagAt (decide (p.held ≠ [])) 59 +
  flagAt (p.gateLimit || p.gateThermal || p.inputFault) 60 + flagAt p.throttle 61 + flagAt p.slewEvent 62

/-- What a GLB_ or PWR_ register reads as. -/
def State.glbRead (s : State) (r : GlbReg) : Nat :=
  let k := s.clock
  match r with
  | .dieMap => s.dieMap.c.toNat + fld s.dieMap.m.toNat 8 + fld s.dieMap.x.toNat 12 + flagAt s.dieMap.changed 14
  | .clkStatus => k.rootStep.toNat + flagAt k.rootLock 2 + flagAt k.timeLock 3 + flagAt k.stepBusy 4 + fld k.stepCount.toNat 8
  | .time => k.time.toNat
  | .timeStatus => flagAt k.synced 0 + flagAt k.holdover 1 + flagAt k.syncLost 2 + fld k.offsetNs.toNat 8 + fld k.rateAdj.toNat 16
  | .folioEpoch => s.fol.epoch.toNat
  | .bar2Base => fld s.host.bar2Base.toNat 36
  | .irqCfg =>
    let q := s.host.irq
    q.faultVec.toNat + flagAt q.faultEn 11 + fld q.stateVec.toNat 12 + flagAt q.stateEn 23 + flagAt q.faultPending 24 + flagAt q.statePending 25
  | .errStatus => s.log.newest.toNat + fld s.log.faultCause.toNat 32 + flagAt s.log.wrapped 48 + flagAt s.log.suppressedFlag 49
  | .pwrStatus => s.power.status
  | .pwrTemp =>
    let p := s.power
    p.cMax.toNat + fld p.mMax.toNat 8 + fld p.xMax.toNat 16 + fld p.hbmMax.toNat 24 + fld p.inlet.toNat 32 + fld p.outlet.toNat 40 +
      flagAt p.throttleEvent 48
  | .pwrHint => s.power.hint.toNat

/-- A write of a GLB_ or PWR_ register. -/
def State.glbWrite (s : State) (r : GlbReg) (v : Nat) : State :=
  match r with
  | .dieMap => { s with dieMap := { s.dieMap with changed := s.dieMap.changed && !bitOf v 14 } }
  | .timeStatus => s.modClock (fun c => { c with syncLost := c.syncLost && !bitOf v 2 })
  | .bar2Base => s.modHost (fun h => { h with bar2Base := BitVec.ofNat 12 (bits v 36 12) })
  | .irqCfg => 
    let q := s.host.irq
    let q1 : IrqCfg := ⟨BitVec.ofNat 11 v, bitOf v 11, BitVec.ofNat 11 (bits v 12 11), bitOf v 23, q.faultPending && !bitOf v 24,
      q.statePending && !bitOf v 25⟩
    s.modHost (fun h => { h with irq := q1 })
  | .errStatus => { s with log := { s.log with wrapped := s.log.wrapped && !bitOf v 48, suppressedFlag := s.log.suppressedFlag && !bitOf v 49 } }
  | .pwrStatus => { s with power := { s.power with slewEvent := s.power.slewEvent && !bitOf v 62 } }
  | .pwrTemp => { s with power := { s.power with throttleEvent := s.power.throttleEvent && !bitOf v 48 } }
  | .pwrHint => { s with power := { s.power with hint := BitVec.ofNat 64 v } }
  | .clkStatus | .time | .folioEpoch => s

/-! Queues and windows -/

/-- What a register of a submission queue reads as (R394). -/
def State.sqRegRead (s : State) (q : Fin 1024) (r : SqReg) : Nat :=
  let x := s.sq q.val
  match r with
  | .base => x.base.toNat
  | .cfg => flagAt x.enable 0 + fld x.sizeLog2.toNat 1 + fld x.function.toNat 5 + fld x.partition.toNat 9 + fld x.cq.toNat 12 + fld x.prio.toNat 22
  | .tail => x.tail.toNat
  | .head => x.head.toNat + flagAt (!s.host.orders.any (fun o => decide (o.sq = q.val))) 12 + flagAt x.err 13 +
      flagAt (x.enable && decide (x.tail ≠ x.head) && (s.cq x.cq.toNat).full) 14

/-- A write of a register of a submission queue (R394): the queue fields are kept while it is enabled. -/
def State.sqRegWrite (s : State) (q : Fin 1024) (r : SqReg) (v : Nat) : State :=
  let x := s.sq q.val
  match r with
  | .base => s.setSq q.val { x with base := BitVec.ofNat 64 (keepBits v 63 12) }
  | .cfg =>
    let l := bits v 1 4
    if x.enable then s.setSq q.val { x with enable := bitOf v 0 }
    else s.setSq q.val { x with
      enable := bitOf v 0, sizeLog2 := if 4 ≤ l ∧ l ≤ 12 then BitVec.ofNat 4 l else 4, function := BitVec.ofNat 4 (bits v 5 4),
      partition := BitVec.ofNat 3 (bits v 9 3), cq := BitVec.ofNat 10 (bits v 12 10),
      prio := if bits v 22 2 = 3 then 2 else BitVec.ofNat 2 (bits v 22 2) }
  | .tail => s.after (execSqDoorbell q (BitVec.ofNat 32 v) s)
  | .head => s.setSq q.val { x with err := x.err && !bitOf v 13 }

/-- What a register of a completion queue reads as (R395). -/
def State.cqRegRead (s : State) (c : Fin 1024) (r : CqReg) : Nat :=
  let x := s.cq c.val
  match r with
  | .base => x.base.toNat
  | .cfg => flagAt x.enable 0 + fld x.sizeLog2.toNat 1 + fld x.function.toNat 6 + fld x.vector.toNat 10 + flagAt x.irqEn 21 +
      fld x.coalCount.toNat 32 + fld x.coalTime.toNat 40
  | .head => x.head.toNat
  | .status => x.tail.toNat + flagAt x.phase 16 + flagAt (decide (x.held ≠ [])) 17 + flagAt x.headErr 18

/-- A write of a register of a completion queue (R395): the queue fields are kept while it is enabled; a queue that is enabled
writes what it held (log 14). -/
def State.cqRegWrite (s : State) (c : Fin 1024) (r : CqReg) (v : Nat) : State :=
  let x := s.cq c.val
  match r with
  | .base => s.setCq c.val { x with base := BitVec.ofNat 64 (keepBits v 63 12) }
  | .cfg =>
    let l := bits v 1 5
    if x.enable then s.setCq c.val { x with enable := bitOf v 0 }
    else (s.setCq c.val { x with
      enable := bitOf v 0, sizeLog2 := if 4 ≤ l ∧ l ≤ 16 then BitVec.ofNat 5 l else 4, function := BitVec.ofNat 4 (bits v 6 4),
      vector := BitVec.ofNat 11 (bits v 10 11), irqEn := bitOf v 21, coalCount := BitVec.ofNat 8 (bits v 32 8),
      coalTime := BitVec.ofNat 8 (bits v 40 8) }).flushCq c.val x.held.length
  | .head => s.after (execCqDoorbell c (BitVec.ofNat 32 v) s)
  | .status => s.setCq c.val { x with headErr := x.headErr && !bitOf v 18 }

/-- R391: a partition owns a submission queue of its own. -/
def State.ownsSq (s : State) (p : PartNo) (q : Fin 1024) : Bool := decide ((s.sq q.val).partition.toNat = p.val)

/-- R391: a partition owns a completion queue of the VF bound to it, or one that a queue of its own names (DEDUCED, log 51). -/
def State.ownsCq (s : State) (p : PartNo) (c : Fin 1024) : Bool :=
  (decide ((s.cq c.val).function ≠ 0) && decide (s.vfPart (s.cq c.val).function.toNat = some p)) ||
  s.host.sqs.any (fun e => decide (e.2.partition.toNat = p.val) && decide (e.2.cq.toNat = c.val))

/-- R391: a write of a doorbell alias: dropped and counted when the partition does not own the queue. -/
def State.aliasWrite (s : State) (own : Bool) (o : Host.Outcome State Fault Refusal) : State :=
  if own then s.after o else s.modHost (fun h => { h with aliasDrops := h.aliasDrops + 1 })

/-- The bytes of a result slot (R405, R406): the payload only of a READY slot. -/
def Slot.bytes (x : Slot) : List Byte :=
  let rdy := decide (x.state = .ready)
  let pay := if rdy then x.payload else []
  [BitVec.ofNat 8 x.state.num, if rdy then 1 else 0] ++ leBytes 2 x.gen.toNat ++ leBytes 2 x.code.toNat ++ [x.cls, x.op] ++ leBytes 8 x.tag.toNat ++
  leBytes 2 x.sq.toNat ++ leBytes 2 x.payload.length ++ leBytes 4 x.info.toNat ++ leBytes 8 x.doneTime.toNat ++ [x.reqScope, x.reqMask] ++
  List.replicate 30 0 ++ (pay ++ List.replicate (1984 - pay.length) 0)

/-! MSI-X and virtual functions (R390, R392, R407) -/

/-- The key of a vector. -/
def vecKey (fn : Fin 9) (v : Nat) : Nat := 4096 * fn.val + v

/-- The vectors of a function: 2,048 of the PF, 64 of a VF (R390). -/
def vecCount (fn : Fin 9) : Nat := if fn = 0 then 2048 else 64

/-- What a word of an MSI-X table entry reads as; bit 0 of the vector control is the mask. -/
def State.msixRead (s : State) (fn : Fin 9) (v : Fin 2048) (r : MsixReg) : Nat :=
  let k := vecKey fn v.val
  if vecCount fn ≤ v.val then 0
  else match r with
    | .addr => (s.host.msixMsg.get k).toNat % 2 ^ 64
    | .data => (s.host.msixMsg.get k).toNat / 2 ^ 64
    | .ctrl => if s.host.msixUnmasked.get k = 1 then 0 else 1

/-- A write of a word of an MSI-X table entry (R390, log 12): a vector that is unmasked with its pending bit set sends its message. -/
def State.msixWrite (s : State) (fn : Fin 9) (v : Fin 2048) (r : MsixReg) (x : Nat) : State :=
  let k := vecKey fn v.val
  let old := (s.host.msixMsg.get k).toNat
  let put (m : Nat) : State := s.modHost (fun h => { h with msixMsg := h.msixMsg.set k (BitVec.ofNat 96 m) })
  if vecCount fn ≤ v.val then s
  else match r with
    | .addr => put (keepBits x 63 2 + old / 2 ^ 64 * 2 ^ 64)
    | .data => put (old % 2 ^ 64 + x % 2 ^ 32 * 2 ^ 64)
    | .ctrl =>
      let s1 := s.modHost (fun h => { h with msixUnmasked := h.msixUnmasked.set k (if bitOf x 0 then 0 else 1) })
      if !bitOf x 0 ∧ s.host.msixPending.get k = 1 then
        (s1.modHost (fun h => { h with msixPending := h.msixPending.set k 0 })).emit (.msix fn.val v.val)
      else s1

/-- 64 pending bits of a function. -/
def State.pbaRead (s : State) (fn : Fin 9) (w : Fin 32) : Nat :=
  sumNat ((List.range 64).map (fun i => flagAt (decide (s.host.msixPending.get (vecKey fn (64 * w.val + i)) = 1)) i))

/-- R392: a VF is enabled only while the partition it is bound to is formed; disabled, its queues stop. -/
def State.vfEnableWrite (s : State) (f : Fin 8) (on : Bool) : State :=
  let m : BitVec 8 := BitVec.ofNat 8 (2 ^ f.val)
  if on then
    match s.vfPart (f.val + 1) with
    | some p => if (s.part p).mode = .unformed then s else s.modHost (fun h => { h with vfEnabled := h.vfEnabled ||| m })
    | none => s
  else if s.host.vfEnabled.getLsbD f.val then
    (s.resetVf (f.val + 1) (s.vfPart (f.val + 1))).modHost (fun h => { h with vfEnabled := h.vfEnabled &&& ~~~m })
  else s

/-! The dictionary mailbox (R426) -/

/-- What a register of a mailbox channel reads as. -/
def Mailbox.read (c : Mailbox) (r : MbxReg) : Nat :=
  match r with
  | .ctrl => 0
  | .status => flagAt c.busy 0 + flagAt c.done 1 + flagAt c.err 2 + flagAt c.goDrop 3 + fld c.rsp.length 16
  | .irq => c.vector.toNat + flagAt c.irqEn 11
  | .req w => c.req.getLE (8 * w.val) 8

/-- A write of bytes of OD_MBX_REQ: dropped while busy. -/
def State.mbxReqWrite (s : State) (ch : Fin 2) (off : Nat) (bs : List Byte) : State :=
  let c := s.ward.mailboxes[ch.val]
  if c.busy then s
  else s.modWard (fun w => { w with mailboxes := w.mailboxes.set ch.val { c with req := c.req.setList off bs } })

/-- A write of a register of a mailbox channel. -/
def State.mbxRegWrite (s : State) (ch : Fin 2) (r : MbxReg) (v : Nat) : State :=
  let c := s.ward.mailboxes[ch.val]
  let put (x : Mailbox) : State := s.modWard (fun w => { w with mailboxes := w.mailboxes.set ch.val x })
  match r with
  | .ctrl => if bitOf v 0 then s.after (execMailboxGo ch s) else s
  | .status => put { c with done := c.done && !bitOf v 1, err := c.err && !bitOf v 2, goDrop := c.goDrop && !bitOf v 3 }
  | .irq => put { c with vector := BitVec.ofNat 11 v, irqEn := bitOf v 11 }
  | .req w => s.mbxReqWrite ch (8 * w.val) (leBytes 8 v)

/-! Performance counters (R486 to R494) -/

/-- What a register of a core's counter block reads as. -/
def State.pmcCoreRead (s : State) (n : CoreNo) (r : PmcCoreReg) : Nat :=
  let c := s.core n
  match r with
  | .cycle => c.cycles.toNat
  | .cnt k => (c.counter k.val).value.toNat
  | .sel k => (c.counter k.val).sel.toNat
  | .status => c.satMask + fld c.priv.toNat 8 + flagAt s.pmc.frozen 10

/-- A write of a register of a core's counter block. -/
def State.pmcCoreWrite (s : State) (n : CoreNo) (r : PmcCoreReg) (v : Nat) : State :=
  match r with
  | .cycle => s
  | .cnt k => s.modCoreCounter n k.val (fun x => x.write (BitVec.ofNat 64 v))
  | .sel k => s.modCoreCounter n k.val (fun x => { x with sel := BitVec.ofNat 64 (bits v 0 12) })
  | .status => (List.range 8).foldl (fun (t : State) k =>
      if bitOf v k then t.modCoreCounter n k (fun x => { x with sat := false }) else t) s

/-- What a register of a die's counter block reads as; the address filter and PMC_MSD_APPROX are the memory-side dies'. -/
def State.pmcDieRead (s : State) (d : Fin 6) (r : PmcDieReg) : Nat :=
  let x := s.pmc.dies[d.val]
  match r with
  | .base => if d.val < 4 then x.base.toNat else 0
  | .limit => if d.val < 4 then x.limit.toNat else 0
  | .approx => if d.val < 4 then x.approx.toNat else 0
  | .status => sumNat ((List.range 16).map (fun k => flagAt (x.counter k).sat k)) + flagAt s.pmc.frozen 16
  | .cnt k => (x.counter k.val).value.toNat
  | .sel k => (x.counter k.val).sel.toNat

/-- A write of a register of a die's counter block. -/
def State.pmcDieWrite (s : State) (d : Fin 6) (r : PmcDieReg) (v : Nat) : State :=
  match r with
  | .base => if d.val < 4 then s.modDie d (fun x => { x with base := BitVec.ofNat 64 (keepBits v 47 16) }) else s
  | .limit => if d.val < 4 then s.modDie d (fun x => { x with limit := BitVec.ofNat 64 (keepBits v 47 16) }) else s
  | .approx => s
  | .status => (List.range 16).foldl (fun (t : State) k =>
      if bitOf v k then t.modDieCounter d k (fun x => { x with sat := false }) else t) s
  | .cnt k => s.modDieCounter d k.val (fun x => x.write (BitVec.ofNat 64 v))
  | .sel k => s.modDieCounter d k.val (fun x => { x with sel := BitVec.ofNat 64 (bits v 0 31) })

/-- PMC_GLOBAL_CTRL (R491 to R493): resume is stored, snap_err and cmd_drop are cleared, then the one command acts; of several,
a snapshot acts and the others are dropped (log 50). -/
def State.pmcCtrlWrite (s : State) (v : Nat) : State :=
  let s1 := s.modPmc (fun c => { c with resume := bitOf v 3, snapErr := c.snapErr && !bitOf v 6, cmdDrop := c.cmdDrop && !bitOf v 7 })
  let many := decide (1 < sumNat ((List.range 3).map (fun i => bits v i 1)))
  let s2 := if bitOf v 2 then s1.snapshot
    else if many then s1
    else if bitOf v 0 then s1.freeze
    else if bitOf v 1 then s1.unfreeze
    else s1
  if many then s2.modPmc (fun c => { c with cmdDrop := true }) else s2

/-- What a register of the global counter block reads as. -/
def State.pmcRead (s : State) (r : PmcReg) : Nat :=
  match r with
  | .ctrl => flagAt s.pmc.resume 3 + flagAt s.pmc.frozen 4 + flagAt s.pmc.snapErr 6 + flagAt s.pmc.cmdDrop 7
  | .snapAddr => s.pmc.snapAddr.toNat
  | .seq => s.pmc.snapSeq.toNat
  | .freezeTime => s.pmc.freezeTime.toNat

/-- A write of a register of the global counter block. -/
def State.pmcWrite (s : State) (r : PmcReg) (v : Nat) : State :=
  match r with
  | .ctrl => s.pmcCtrlWrite v
  | .snapAddr => s.modPmc (fun c => { c with snapAddr := BitVec.ofNat 64 (keepBits v 47 6) })
  | .seq | .freezeTime => s

/-! Every register -/

/-- What a register reads as (R8). -/
def State.regRead (s : State) (r : RegId) : Nat :=
  match r with
  | .core n r => s.coreRegRead n r
  | .mcast m i r => s.mcastRegRead m i r
  | .part m p r => s.partRegRead m p r
  | .share c .key => (Tab.get 0 s.mem.shareKey c.val).toNat
  | .share c (.ftBase t) => (Tab.get 0 s.mem.ftBase (shareKeyOf t.val c)).toNat
  | .ctxBase m => (Tab.get 0 s.mem.ctxBase m.val).toNat
  | .codexBase m => (Tab.get 0 s.mem.codexBase m.val).toNat
  | .port p r => s.portRegRead p r
  | .ring n r => s.ringRegRead n r
  | .portMap l => s.portMapRead l
  | .timeState =>
    let t := s.link.time
    flagAt t.isRoot 0 + fld (match t.parent with
      | some p => p.val
      | none => 0x1F) 8 + fld t.hops.toNat 16 + fld t.rootPriority.toNat 24 + flagAt t.split 32
  | .timeRoot => s.link.time.rootSerial.toNat
  | .eth p q r => s.ethRegRead p q r
  | .glb r => s.glbRead r
  | .sq q r => s.sqRegRead q r
  | .cq c r => s.cqRegRead c r
  | .pwBar2 p => s.host.windows[p.val].bar2.toNat
  | .pwEvent p =>
    let w := s.host.windows[p.val]
    w.evVector.toNat + flagAt w.evEnable 6 + flagAt w.evPending 7
  | .sqAlias _ q => s.sqRegRead q .tail
  | .cqAlias _ c => s.cqRegRead c .head
  | .slotRelease _ _ => 0
  | .msix fn v r => s.msixRead fn v r
  | .pba fn w => s.pbaRead fn w
  | .vfEnable f => flagAt (s.host.vfEnabled.getLsbD f.val) 0
  | .mbx ch r => s.ward.mailboxes[ch.val].read r
  | .pmcCore n r => s.pmcCoreRead n r
  | .pmcDie d r => s.pmcDieRead d r
  | .pmc r => s.pmcRead r

/-- Some context, of any partition, is LIVE. -/
def State.anyCtx (s : State) : Bool := allParts.any (fun p => decide (s.liveCtxs p ≠ []))

/-- Some index, of any partition, is LIVE. -/
def State.anyIndex (s : State) : Bool := allParts.any (fun p => decide (s.liveIndexes p ≠ []))

/-- A write of a register (R8); `priv` is the writer's privilege (R490). -/
def State.regWrite (s : State) (r : RegId) (v : Nat) (priv : BitVec 2) : State :=
  match r with
  | .core n r => s.coreRegWrite n r v priv
  | .mcast m i r => s.mcastRegWrite m i r v
  | .part m p r => s.partRegWrite m p r v
  | .share c r => s.shareRegWrite c r v
  | .ctxBase m => if s.anyCtx then s
    else s.modMem (fun x => { x with ctxBase := Tab.set 0 x.ctxBase m.val (BitVec.ofNat 64 (keepBits v 47 16 + bits v 0 1)) })
  | .codexBase m => if s.anyIndex then s
    else s.modMem (fun x => { x with codexBase := Tab.set 0 x.codexBase m.val (BitVec.ofNat 64 (keepBits v 47 16 + bits v 0 1)) })
  | .port p r => s.portRegWrite p r v
  | .ring n r => s.ringRegWrite n r v
  | .portMap _ => s
  | .timeState => s.modTime (fun t => { t with split := t.split && !bitOf v 32 })
  | .timeRoot => s
  | .eth p q r => s.ethRegWrite p q r v
  | .glb r => s.glbWrite r v
  | .sq q r => s.sqRegWrite q r v
  | .cq c r => s.cqRegWrite c r v
  | .pwBar2 p => s.modHost (fun h => { h with windows := h.windows.set p.val { h.windows[p.val] with bar2 := BitVec.ofNat 64 (keepBits v 51 33) } })
  | .pwEvent p => s.modHost (fun h => { h with windows := h.windows.set p.val { h.windows[p.val] with
      evVector := BitVec.ofNat 6 v, evEnable := bitOf v 6, evPending := h.windows[p.val].evPending && !bitOf v 7 } })
  | .sqAlias p q => s.aliasWrite (s.ownsSq p q) (execSqDoorbell q (BitVec.ofNat 32 v) s)
  | .cqAlias p c => s.aliasWrite (s.ownsCq p c) (execCqDoorbell c (BitVec.ofNat 32 v) s)
  | .slotRelease p i => s.after (execSlotRelease p i (BitVec.ofNat 32 v) s)
  | .msix fn k r => s.msixWrite fn k r v
  | .pba _ _ => s
  | .vfEnable f => s.vfEnableWrite f (bitOf v 0)
  | .mbx ch r => s.mbxRegWrite ch r v
  | .pmcCore n r => s.pmcCoreWrite n r v
  | .pmcDie d r => s.pmcDieWrite d r v
  | .pmc r => s.pmcWrite r v

/-- REGISTER_WRITE (R8, R9): a write of a register by the software it serves, while the main domain is up. It carries firmware
privilege: the row names no writer (log 52). -/
def execRegisterWrite (r : RegId) (v : W64) (s : State) : Host.Outcome State Fault Refusal :=
  .next (if s.mainOn then s.regWrite r v.toNat 0 else s)

/-- The key of a requester in the latches of R43. -/
def whoKey : Requester → Nat
  | .host fn => fn.toNat
  | .hart k => 16 + k.val

/-- R43: a read of the low half of GLB_TIME latches the high half for its requester. -/
def State.timeLow (s : State) (who : Requester) : State × Nat :=
  let t := s.clock.time.toNat
  (s.modHost (fun h => { h with timeLatch := Tab.set none h.timeLatch (whoKey who) (some (BitVec.ofNat 32 (t / 2 ^ 32))) }), t % 2 ^ 32)

/-- R43: a read of the high half returns the latch, once, else the live value. -/
def State.timeHigh (s : State) (who : Requester) : State × Nat :=
  (s.modHost (fun h => { h with timeLatch := Tab.set none h.timeLatch (whoKey who) none }),
   match Tab.get none s.host.timeLatch (whoKey who) with
   | some v => v.toNat
   | none => s.clock.time.toNat / 2 ^ 32)

/-- GLB_TIME_LO_READ (R43). -/
def execGlbTimeLoRead (who : Requester) (s : State) : Host.Outcome State Fault Refusal :=
  .next (if s.mainOn then
      let r := s.timeLow who
      r.1.emit (.readData who (BitVec.ofNat 64 r.2))
    else s)

end Sys2Proof.Machine
end

