-- ==== Sys2Proof/Machine/RegMap.lean ====
section
/-! DEFINITION. Where the registers lie in a rubric core's physical space (R102): the offset and width of each in its block, and
what an access names. -/

namespace Sys2Proof.Machine

/-- What a physical access of a rubric core names. -/
inductive Target where
  /-- A register, the access as wide as it is. -/
  | reg (r : RegId)
  /-- The low half of GLB_TIME (R43). -/
  | timeLow
  /-- The high half of GLB_TIME (R43). -/
  | timeHigh
  /-- Bytes of a result slot. -/
  | slot (p : PartNo) (i : Fin 4096) (off : Nat)
  /-- Bytes of OD_MBX_REQ. -/
  | mbxReq (ch : Fin 2) (off : Nat)
  /-- Bytes of OD_MBX_RSP. -/
  | mbxRsp (ch : Fin 2) (off : Nat)
  /-- An offset of the image of BAR0 that R391 does not list: it reads 0 and ignores writes. -/
  | nothing
  /-- An access fault (R102). -/
  | fault
  deriving DecidableEq, Repr

/-- Registers of a block: offset, width in bytes, register. -/
abbrev Block (α : Type) := List (Nat × Nat × α)

/-- CORE_ block (4 KiB). -/
def coreBlock : Block CoreReg :=
  [(0x000, 4, .ctrl), (0x004, 4, .status), (0x008, 8, .pc), (0x010, 8, .startPc), (0x020, 4, .id), (0x028, 4, .group),
   (0x030, 8, .rngSeed), (0x038, 8, .rngState), (0x040, 8, .rotBase), (0x048, 4, .rotCtrl), (0x050, 4, .wdog),
   (0x058, 8, .progSrc), (0x060, 4, .progCtrl), (0x068, 8, .arg 0), (0x070, 8, .arg 1), (0x078, 8, .arg 2),
   (0x080, 4, .faultCode), (0x088, 8, .faultPc), (0x090, 4, .faultTile), (0x094, 4, .faultNeed), (0x098, 4, .faultHave),
   (0x0A0, 8, .event), (0x0A8, 4, .eventCtrl), (0x0B0, 8, .folio)]

/-- A multicast set. -/
def mcastBlock : Block McastReg := [(0x00, 4, .members), (0x08, 4, .ctrl), (0x10, 8, .win), (0x18, 4, .len), (0x20, 4, .status)]

/-- A partition control block. -/
def partBlock : Block PartReg :=
  [(0x00, 8, .ptRoot), (0x08, 8, .ruleBase), (0x10, 4, .ruleCtrl), (0x18, 4, .ruleTail), (0x20, 8, .ruleCur), (0x28, 4, .ruleStatus),
   (0x40, 8, .folioSubmit), (0x48, 4, .folioStatus), (0x50, 8, .inkSubmit), (0x58, 4, .inkStatus), (0x60, 8, .codexSubmit),
   (0x68, 4, .codexStatus)]

/-- A die share. -/
def shareBlock : Block ShareReg := [(0x00, 4, .key), (0x08, 8, .ftBase 0), (0x10, 8, .ftBase 1), (0x18, 8, .ftBase 2)]

/-- A port block. -/
def portBlock : Block PortReg := [(0x00, 4, .ctrl), (0x04, 4, .status), (0x08, 8, .peer), (0x10, 4, .arb), (0x18, 8, .err)]

/-- A ring. -/
def ringBlock : Block RingReg :=
  [(0x00, 4, .ctrl), (0x04, 4, .epoch), (0x08, 4, .member), (0x0C, 4, .succ), (0x10, 4, .pred), (0x18, 8, .sqBase), (0x20, 4, .sqTail),
   (0x28, 8, .land), (0x30, 4, .status)]

/-- An Ethernet queue pair. -/
def ethBlock : Block EthReg := [(0x00, 4, .ctrl), (0x08, 8, .txBase), (0x10, 8, .rxBase), (0x18, 8, .ptr), (0x20, 8, .filter)]

/-- GLB_ and PWR_ registers. -/
def glbBlock : Block GlbReg :=
  [(0x0040, 4, .dieMap), (0x0080, 4, .clkStatus), (0x0100, 8, .time), (0x0108, 4, .timeStatus), (0x0200, 4, .folioEpoch), (0x0300, 8, .bar2Base),
   (0x0308, 4, .irqCfg), (0x0400, 8, .errStatus), (0x2000, 8, .pwrStatus), (0x2008, 8, .pwrTemp), (0x2010, 8, .pwrHint)]

/-- A submission queue. -/
def sqBlock : Block SqReg := [(0x00, 8, .base), (0x08, 4, .cfg), (0x10, 4, .tail), (0x14, 4, .head)]

/-- A completion queue. -/
def cqBlock : Block CqReg := [(0x00, 8, .base), (0x08, 8, .cfg), (0x10, 4, .head), (0x14, 4, .status)]

/-- An MSI-X table entry. -/
def msixBlock : Block MsixReg := [(0, 8, .addr), (8, 4, .data), (12, 4, .ctrl)]

/-- The registers of a mailbox channel below OD_MBX_REQ. -/
def mbxBlock : Block MbxReg := [(0x000, 4, .ctrl), (0x004, 4, .status), (0x008, 4, .irq)]

/-- A core's counter block. -/
def pmcCoreBlock : Block PmcCoreReg :=
  [(0x000, 8, .cycle), (0x068, 4, .status)] ++ (List.finRange 8).map (fun k => (8 + 8 * k.val, 8, .cnt k)) ++
  (List.finRange 8).map (fun k => (0x48 + 8 * k.val, 4, .sel k))

/-- A die's counter block. -/
def pmcDieBlock : Block PmcDieReg :=
  [(0x100, 8, .base), (0x108, 8, .limit), (0x110, 4, .status), (0x118, 8, .approx)] ++
  (List.finRange 16).map (fun k => (8 * k.val, 8, .cnt k)) ++ (List.finRange 16).map (fun k => (0x80 + 8 * k.val, 8, .sel k))

/-- The global counter block. -/
def pmcBlock : Block PmcReg := [(0x00, 4, .ctrl), (0x08, 8, .snapAddr), (0x10, 4, .seq), (0x18, 8, .freezeTime)]

/-- R102: a register of a block: the access starts at it and is as wide; an access to part of one faults; elsewhere `else_`. -/
def locateIn {α : Type} (b : Block α) (off size : Nat) (mk : α → RegId) (else_ : Target) : Target :=
  match b.find? (fun e => decide (e.1 < off + size) && decide (off < e.1 + e.2.1)) with
  | some e => if e.1 = off ∧ e.2.1 = size then .reg (mk e.2.2) else .fault
  | none => else_

/-- A number below a bound. -/
def fin? (n b : Nat) : Option (Fin b) := if h : n < b then some ⟨n, h⟩ else none

/-- R102: the block of a core. -/
def locateCore (off size : Nat) : Target :=
  match fin? (off / 0x10000) 128 with
  | some n => locateIn coreBlock (off % 0x10000) size (.core n) .fault
  | none => .fault

/-- R102: the MSD_ block of Mm. -/
def locateMsd (m : MDie) (off size : Nat) : Target :=
  if 0x2000 ≤ off ∧ off < 0x2400 then
    match fin? ((off - 0x2000) / 0x40) 16 with
    | some i => locateIn mcastBlock (off % 0x40) size (.mcast m i) .fault
    | none => .fault
  else if 0x3000 ≤ off ∧ off < 0x3800 then locateIn partBlock (off % 0x100) size (.part m (partOf (off / 0x100))) .fault
  else if 0x3800 ≤ off ∧ off < 0x3880 then
    locateIn shareBlock (off % 0x40) size (.share (cdieOf (2 * m.val + (off - 0x3800) / 0x40))) .fault
  else if off = 0x4000 ∧ size = 8 then .reg (.ctxBase m)
  else if off = 0x4008 ∧ size = 8 then .reg (.codexBase m)
  else .fault

/-- R102, R190, R346, R355: the FAB_ block of Xx. The rings' offsets in X1 read 0 and ignore writes. -/
def locateFab (x off size : Nat) : Target :=
  if 0x1000 ≤ off ∧ off < 0x2000 then locateIn portBlock (off % 0x100) size (.port (portOf (16 * x + (off - 0x1000) / 0x100))) .fault
  else if 0x10000 ≤ off ∧ off < 0x11000 then
    match fin? ((off - 0x10000) / 0x100) 16 with
    | some n => if x = 0 then locateIn ringBlock (off % 0x100) size (.ring n) .fault
      else match locateIn ringBlock (off % 0x100) size (.ring n) .fault with
        | .reg _ => .nothing
        | t => t
    | none => .fault
  else if x = 0 then
    if off = 0x800 ∧ size = 8 then .reg .timeState
    else if off = 0x808 ∧ size = 8 then .reg .timeRoot
    else if 0x900 ≤ off ∧ off < 0x978 ∧ size = 4 then
      match fin? ((off - 0x900) / 4) 30 with
      | some l => .reg (.portMap l)
      | none => .fault
    else .fault
  else if 0x8000 ≤ off ∧ off < 0xC000 then
    match fin? ((off - 0x8000) / 0x2000) 2, fin? (off % 0x2000 / 0x40) 64 with
    | some p, some q => locateIn ethBlock (off % 0x40) size (.eth p q) .fault
    | _, _ => .fault
  else .fault

/-- R391, R426: the mailbox window. -/
def locateMbx (off size : Nat) : Target :=
  match fin? (off / 0x1000) 2 with
  | some ch =>
    let o := off % 0x1000
    if 0x400 ≤ o ∧ o + size ≤ 0x400 + 1048 then .mbxReq ch (o - 0x400)
    else if 0x900 ≤ o ∧ o + size ≤ 0x900 + 1048 then .mbxRsp ch (o - 0x900)
    else locateIn mbxBlock o size (.mbx ch) .nothing
  | none => .nothing

/-- R391, R494: the counter window. -/
def locatePmc (off size : Nat) : Target :=
  if off < 0x80000 then
    match fin? (off / 0x1000) 128 with
    | some n => locateIn pmcCoreBlock (off % 0x1000) size (.pmcCore n) .nothing
    | none => .nothing
  else if off < 0x86000 then
    match fin? ((off - 0x80000) / 0x1000) 6 with
    | some d => locateIn pmcDieBlock (off % 0x1000) size (.pmcDie d) .nothing
    | none => .nothing
  else if 0xF0000 ≤ off then locateIn pmcBlock (off - 0xF0000) size .pmc .nothing
  else .nothing

/-- R391: a partition window; the MSI-X table in it is that of the VF bound to the partition. -/
def locateWindow (vf : PartNo → Option (Fin 9)) (p : PartNo) (off size : Nat) : Target :=
  if 0x800000 ≤ off then
    match fin? ((off - 0x800000) / 2048) 4096 with
    | some i => if off % 2048 = 60 ∧ size = 4 then .reg (.slotRelease p i) else .slot p i (off % 2048)
    | none => .nothing
  else if 0x2000 ≤ off ∧ off < 0x4000 then
    match fin? ((off - 0x2000) / 8) 1024 with
    | some q => locateIn [(0, 4, ())] (off % 8) size (fun _ => .sqAlias p q) .nothing
    | none => .nothing
  else if 0x4000 ≤ off ∧ off < 0x6000 then
    match fin? ((off - 0x4000) / 8) 1024 with
    | some c => locateIn [(0, 4, ())] (off % 8) size (fun _ => .cqAlias p c) .nothing
    | none => .nothing
  else if 0x10000 ≤ off ∧ off < 0x10408 then
    match vf p with
    | some f =>
      if off < 0x10400 then
        match fin? ((off - 0x10000) / 16) 2048 with
        | some v => locateIn msixBlock (off % 16) size (.msix f v) .nothing
        | none => .nothing
      else locateIn [(0, 8, ())] (off % 8) size (fun _ => .pba f 0) .nothing
    | none => .nothing
  else locateIn [(0, 8, true), (8, 4, false)] off size (fun b => if b then .pwBar2 p else .pwEvent p) .nothing

/-- R102, R391: the image of BAR0. -/
def locateBar0 (vf : PartNo → Option (Fin 9)) (off size : Nat) : Target :=
  if off = 0x100 ∧ size = 4 then .timeLow
  else if off = 0x104 ∧ size = 4 then .timeHigh
  else if off < 0x100000 then locateIn glbBlock off size .glb .nothing
  else if off < 0x110000 then
    match fin? ((off - 0x100000) / 0x40) 1024 with
    | some q => locateIn sqBlock (off % 0x40) size (.sq q) .nothing
    | none => .nothing
  else if off < 0x120000 then
    match fin? ((off - 0x110000) / 0x40) 1024 with
    | some c => locateIn cqBlock (off % 0x40) size (.cq c) .nothing
    | none => .nothing
  else if 0x1000000 ≤ off ∧ off < 0x1008000 then
    match fin? ((off - 0x1000000) / 16) 2048 with
    | some v => locateIn msixBlock (off % 16) size (.msix 0 v) .nothing
    | none => .nothing
  else if 0x1008000 ≤ off ∧ off < 0x1008100 then
    match fin? ((off - 0x1008000) / 8) 32 with
    | some w => locateIn [(0, 8, ())] (off % 8) size (fun _ => .pba 0 w) .nothing
    | none => .nothing
  else if 0x2000000 ≤ off ∧ off < 0x2002000 then locateMbx (off - 0x2000000) size
  else if 0x4000000 ≤ off ∧ off < 0x4100000 then locatePmc (off - 0x4000000) size
  else if 0x8000000 ≤ off then locateWindow vf (partOf ((off - 0x8000000) / 0x1000000)) (off % 0x1000000) size
  else .nothing

/-- R102: what an access at a physical address of the register space names; a misaligned one faults. `vf` is the VF bound to a
partition. -/
def locate (vf : PartNo → Option (Fin 9)) (addr size : Nat) : Target :=
  let b := 0x1000000000000
  if addr % size ≠ 0 ∨ addr < b then .fault
  else
    let a := addr - b
    if a < 0x800000 then locateCore a size
    else if 0x1000000 ≤ a ∧ a < 0x5000000 then locateMsd ⟨(a - 0x1000000) / 0x1000000 % 4, Nat.mod_lt _ (by decide)⟩ (a % 0x1000000) size
    else if 0x5000000 ≤ a ∧ a < 0x7000000 then locateFab ((a - 0x5000000) / 0x1000000) (a % 0x1000000) size
    else if 0x100000000 ≤ a ∧ a < 0x110000000 then locateBar0 vf (a - 0x100000000) size
    else .fault

end Sys2Proof.Machine
end

