-- ==== Sys2Proof/Machine/Rubric.lean ====
section
/-! DEFINITION. The rubric cores: the HX instructions (R104) and their loads, stores and fetches (R49, R102, R105). Addresses are
physical: the RISC-V translation stages that yield them are the standard's and the hypervisor's (log 53). -/

namespace Sys2Proof.Machine

/-- R49, R494: guest firmware. -/
def guestMode (w : RvMode) : Bool := decide (w = .vs) || decide (w = .vu) || decide (w = .u)

/-- R489: the privilege of a mode. -/
def modePriv (w : RvMode) : BitVec 2 := if w = .m then 0 else if w = .hs then 1 else 2

/-- R104: HX.CCMD, HX.WAITEV and HX.FSET are permitted in M, HS and VS. -/
def hxMode (w : RvMode) : Bool := decide (w = .m) || decide (w = .hs) || decide (w = .vs)

/-- Bytes of an access. -/
def sizeBytes (z : RvSize) : Nat :=
  match z with
  | .b => 1
  | .h => 2
  | .w => 4
  | .d => 8

/-- A rubric core executes: the main domain is up, it is not offline nor on a die out of service, and does not wait in HX.WAITEV
(R104, R367, R462). -/
def State.hartUp (s : State) (k : Fin 24) : Bool :=
  s.mainOn && !(s.rub k).offline && !s.modu.dieOut.getLsbD (k.val / 3) && decide ((s.rub k).waitLimit = none)

/-- An exception of a rubric core (R104, R105). -/
def State.trap (s : State) (k : Fin 24) (cause : Nat) (v : W64) : State := s.modRub k (fun r => { r with trap := some ⟨cause, v⟩ })

/-- The result of an instruction. -/
def State.setRd (s : State) (k : Fin 24) (v : Nat) : State := s.modRub k (fun r => { r with rd := BitVec.ofNat 64 v })

/-- R104: an illegal-instruction exception; the manual does not say its trap value (a free value, log 1). -/
def State.illegal (s : State) (k : Fin 24) : State := s.draw.trap k 2 (Config.freeW64 s.draws)

/-- R102, R105: the cause of a faulting load, store or fetch. -/
def accessCause (access : Nat) : Nat := if access = 1 then 7 else if access = 2 then 1 else 5

/-! Memory (R45, R46, R49, R105, R240, R255) -/

/-- R49: a guest access to a frame that is not its partition's. -/
def State.foreign (s : State) (k : Fin 24) (mode : RvMode) (a n : Nat) : Bool :=
  guestMode mode && (pagePieces a n).any (fun x =>
    let f := s.frame (x.1 / 65536)
    !((decide (f.state = 1) || decide (f.state = 2)) && decide (s.hartPart k = some f.part)))

/-- R45, R46, R212: the first page of an access that fails. -/
def State.hartFault (s : State) (a n access : Nat) : Option PFault := (pagePieces a n).findSome? (fun x => s.checkUa x.1 access 0)

/-- An access of a rubric core to unified memory: a frame it does not reach raises the access fault (R49); a frame that cannot be
accessed is recorded as PAGE_FAULT too (R45, R46), where no master number of R215 names a rubric core (a free value, log 1). -/
def State.hartAccess (s : State) (k : Fin 24) (mode : RvMode) (addr : W64) (n access : Nat) (body : State → State) : State :=
  if s.foreign k mode addr.toNat n then s.trap k (accessCause access) addr
  else match s.hartFault addr.toNat n access with
    | some f =>
      let f1 : PFault := { f with master := Config.freeNat s.draws % 65536 }
      (s.draw.report ⟨0x0201, (dieOfHart k).val, partByte (s.hartPart k), unitRubric k, .operation, f1.detail⟩).trap k (accessCause access) addr
    | none => body s

/-- R240, R255: the folio a hart's stores are bound to is its partition's and still takes them. -/
def State.hartFolio (s : State) (k : Fin 24) : Option Nat :=
  let h := (s.rub k).storeBind
  match s.hartPart k with
  | some p =>
    let id := handleSlot h
    if h ≠ 0 ∧ s.named p h ∧ ((s.slot id).mode = .opened ∨ (s.slot id).mode = .doomed) then some id else none
  | none => none

/-- R104, R255: the snapshot a hart's loads are bound to. -/
def State.hartSnap (s : State) (k : Fin 24) : Option Nat := if (s.rub k).loadBind = 0 then none else some ((s.rub k).loadBind.toNat % 1024)

/-- R241, R255: what a hart's loads see. -/
def State.hartView (s : State) (k : Fin 24) : View :=
  match s.hartSnap k with
  | some sid => .snap sid
  | none => match s.hartFolio k with
    | some id => .own (s.slot id).journal
    | none => .plain

/-- R254: the snapshot a hart's loads are bound to is not open in its partition: the load fails (DEDUCED, log 54). -/
def State.hartSnapGone (s : State) (k : Fin 24) : Bool :=
  match s.hartSnap k with
  | none => false
  | some sid => match Tab.get none s.fol.snaps sid with
    | some sn => decide (s.hartPart k ≠ some sn.part)
    | none => true

/-- R105, R236: a load of `n` bytes: a poisoned granule raises the load access fault and is recorded. -/
def State.hartLoad (s : State) (k : Fin 24) (mode : RvMode) (addr : W64) (n : Nat) (then_ : State → List Byte → State) : State :=
  s.hartAccess k mode addr n 0 (fun s =>
    if s.hartSnapGone k then s.trap k 5 addr
    else
      let v := s.hartView k
      let s1 := s.touch 0 (s.hartPart k) addr.toNat n
      let r := s1.readUa v addr.toNat n
      if r.2 then
        (s1.report ⟨0x0205, (dieOfHart k).val, partByte (s.hartPart k), unitRubric k, .operation, u64s [addr.toNat]⟩).trap k 5 addr
      else then_ s1 r.1)

/-- R105, R240, R255: a store: into the bound folio, plainly, or refused with the store access fault. -/
def State.hartStore (s : State) (k : Fin 24) (mode : RvMode) (addr : W64) (bs : List Byte) : State :=
  s.hartAccess k mode addr bs.length 1 (fun s =>
    let ps := piecesOf addr.toNat bs (fun _ => false)
    if (s.rub k).storeBind ≠ 0 then
      match s.hartFolio k with
      | some id => ((FX.ofSlot s id).write true ps).done
      | none => s.trap k 7 addr
    else if (s.hartSnap k).isSome then s.trap k 7 addr
    else s.plainWrite (.hart k) ps)

/-! Registers (R102, R426, R494) -/

/-- R102: some compute die that Mm serves is the partition's; all of them are. -/
def State.servesAny (s : State) (p : PartNo) (m : MDie) : Bool :=
  (List.range 2).any (fun i => decide (s.partOfDie (cdieOf (2 * m.val + i)) = some p))

/-- R102: every compute die that Mm serves is the partition's. -/
def State.servesAll (s : State) (p : PartNo) (m : MDie) : Bool :=
  (List.range 2).all (fun i => decide (s.partOfDie (cdieOf (2 * m.val + i)) = some p))

/-- R102, R494: guest firmware reaches the register blocks of its own partition's cores and dies: of the MSD_ block of a die that
serves one of its compute dies, the shares of those dies and its own control block, and the rest where every die served is its own
(log 55); it reads its cores' counters where *user_read_en* says so, and reaches nothing else. -/
def State.guestReaches (s : State) (k : Fin 24) (t : Target) (write : Bool) : Bool :=
  match s.hartPart k, t with
  | some p, .reg (.core n _) => decide (s.partOfCore n = some p)
  | some p, .reg (.share d _) => decide (s.partOfDie d = some p)
  | some p, .reg (.part m q _) => decide (q = p) && s.servesAny p m
  | some p, .reg (.mcast m _ _) => s.servesAll p m
  | some p, .reg (.ctxBase m) => s.servesAll p m
  | some p, .reg (.codexBase m) => s.servesAll p m
  | some p, .reg (.pmcCore n _) => !write && decide (s.partOfCore n = some p) && bitOf (s.dictVal 0x9000 0) p.val
  | _, _ => false

/-- R391, R392: the VF bound to a partition. -/
def State.boundVf (s : State) (p : PartNo) : Option (Fin 9) :=
  match (List.range 8).find? (fun i => decide (s.dictVal 0x5200 (i + 1) = p.val)) with
  | some i => fin? (i + 1) 9
  | none => none

/-- What an access of a hart names. -/
def State.target (s : State) (k : Fin 24) (mode : RvMode) (addr : W64) (n : Nat) (write : Bool) : Target :=
  let t := locate s.boundVf addr.toNat n
  if guestMode mode && !s.guestReaches k t write then .fault else t

/-- Some bytes of a window as a number. -/
def window (bs : List Byte) (off n : Nat) : Nat := leField bs off n

/-- A load from the register space. -/
def State.hartRegLoad (s : State) (k : Fin 24) (mode : RvMode) (addr : W64) (n : Nat) : State :=
  match s.target k mode addr n false with
  | .reg (.mbx ch r) => s.setRd k (if ch = 1 then s.regRead (.mbx ch r) else 0)
  | .reg r => s.setRd k (s.regRead r)
  | .timeLow => let t := s.timeLow (.hart k)
                t.1.setRd k t.2
  | .timeHigh => let t := s.timeHigh (.hart k)
                 t.1.setRd k t.2
  | .slot p i off => s.setRd k (window (s.rslot p i.val).bytes off n)
  | .mbxReq ch off => s.setRd k (if ch = 1 then s.ward.mailboxes[ch.val].req.getLE off n else 0)
  | .mbxRsp ch off => s.setRd k (if ch = 1 then window s.ward.mailboxes[ch.val].rsp off n else 0)
  | .nothing => s.setRd k 0
  | .fault => s.trap k 5 addr

/-- A store to the register space. -/
def State.hartRegStore (s : State) (k : Fin 24) (mode : RvMode) (addr : W64) (n v : Nat) : State :=
  match s.target k mode addr n true with
  | .reg (.mbx ch r) => if ch = 1 then s.regWrite (.mbx ch r) v (modePriv mode) else s
  | .reg r => s.regWrite r v (modePriv mode)
  | .mbxReq ch off => if ch = 1 then s.mbxReqWrite ch off (leBytes n v) else s
  | .timeLow | .timeHigh | .slot _ _ _ | .mbxRsp _ _ | .nothing => s
  | .fault => s.trap k 7 addr

/-- RUBRIC_LOAD (R105): the value read is the result, zero-extended. -/
def execRubricLoad (k : Fin 24) (mode : RvMode) (addr : W64) (size : RvSize) (s : State) : Host.Outcome State Fault Refusal :=
  .next (if !s.hartUp k then s
    else if addr.toNat < 2 ^ 48 then s.hartLoad k mode addr (sizeBytes size) (fun t bs => t.setRd k (ofLeBytes bs))
    else s.hartRegLoad k mode addr (sizeBytes size))

/-- RUBRIC_STORE (R105, R240). -/
def execRubricStore (k : Fin 24) (mode : RvMode) (addr : W64) (size : RvSize) (v : W64) (s : State) : Host.Outcome State Fault Refusal :=
  let n := sizeBytes size
  .next (if !s.hartUp k then s
    else if addr.toNat < 2 ^ 48 then s.hartStore k mode addr (leBytes n v.toNat)
    else s.hartRegStore k mode addr n (v.toNat % 2 ^ (8 * n)))

/-- The instructions of the custom-0 opcode (R104). -/
inductive HxOp where
  | ccmd | waitev | ptest | fset
  deriving DecidableEq, Repr

/-- R104: what a word of the two custom opcodes is: `some none` is an encoding that raises the illegal-instruction exception; none
is a word of another opcode. -/
def hxWord (w : Nat) : Option (Option HxOp) :=
  if bits w 0 7 = 0x2B then some none
  else if bits w 0 7 ≠ 0x0B then none
  else if bits w 25 7 ≠ 0 then some none
  else match bits w 12 3 with
    | 1 => some (some .ccmd)
    | 2 => some (some .waitev)
    | 3 => some (some .ptest)
    | 4 => some (some .fset)
    | _ => some none

/-- R104: the modes an instruction is permitted in. -/
def HxOp.permitted (o : HxOp) (mode : RvMode) : Bool := decide (o = .ptest) || hxMode mode

/-- R105: a word that reads a CSR and writes nothing to it (log 166, PRESUMED: the RISC-V standard's SYSTEM opcode and CSR numbers). -/
def readsCsr (w : Nat) : Option Nat :=
  if bits w 0 7 = 0x73 ∧ bits w 15 5 = 0 ∧ 2 ≤ bits w 12 3 % 4 then some (bits w 20 12) else none

/-- R105, R486: what a CSR that the manual describes reads as: time is global time, hpmcounter3 to hpmcounter31, the machine's and
the user's, are 0. -/
def State.csrValue (s : State) (csr : Nat) : Option Nat :=
  if csr = 0xC01 then some s.now
  else if (0xC03 ≤ csr ∧ csr ≤ 0xC1F) ∨ (0xB03 ≤ csr ∧ csr ≤ 0xB1F) then some 0
  else none

/-- R104, R105: what a fetched word does by itself: an encoding of the custom opcodes that R104 does not permit raises the
illegal-instruction exception, and a read of a CSR that the manual describes gives its value. A permitted HX word acts by its own command, which has
its operands. -/
def State.fetched (s : State) (k : Fin 24) (mode : RvMode) (w : Nat) : State :=
  if w % 4 ≠ 3 then s
  else match hxWord w with
    | some none => s.illegal k
    | some (some o) => if o.permitted mode then s else s.illegal k
    | none => match (readsCsr w).bind s.csrValue with
      | some v => s.setRd k v
      | none => s

/-- RUBRIC_FETCH (R105): the 2-byte parcel at an address: a poisoned granule raises the instruction access fault, and so does an
address outside memory (R102); the word that begins there is decoded (R104). -/
def execRubricFetch (k : Fin 24) (mode : RvMode) (addr : W64) (s : State) : Host.Outcome State Fault Refusal :=
  .next (if !s.hartUp k then s
    else if addr.toNat < 2 ^ 48 then
      s.hartAccess k mode addr 2 2 (fun s =>
        let s1 := s.touch 0 (s.hartPart k) addr.toNat 2
        if (s1.readUa .plain addr.toNat 2).2 then (s1.trap k 1 addr).sharedCodeLost (addr.toNat / 64)
        else s1.fetched k mode (ofLeBytes (s1.readUa .plain addr.toNat 4).1))
    else s.trap k 1 addr)

/-! HX instructions (R104) -/

/-- R71, R104: a core drops the commands of HX.CCMD. -/
def State.dropsCmd (s : State) (n : CoreNo) (v : Nat) : Bool :=
  let c := s.core n
  ctrlExtra v || match ctrlActs v with
    | some 0 => !c.startOk || s.heldStarts.any (fun h => decide (h.1 = n))
    | some 1 => decide (c.mode ≠ .running)
    | some 2 => decide (c.mode ≠ .halted)
    | some _ => decide (c.mode = .off) || decide (c.mode = .cut)
    | none => false

/-- R104: the commands go to the cores of a mask in ascending order; mask bits outside the hart's partition are ignored. Counts the
cores that drop it and the bits outside. -/
def State.ccmd (s : State) (k : Fin 24) (priv : BitVec 2) (mask : BitVec 128) (v : Nat) : State × Nat × Nat :=
  allCores.foldl (fun (a : State × Nat × Nat) n =>
    if !mask.getLsbD n.val then a
    else if (s.hartPart k).isNone ∨ s.partOfCore n ≠ s.hartPart k then (a.1, a.2.1, a.2.2 + 1)
    else (a.1.coreCommand n priv v, a.2.1 + (if a.1.dropsCmd n v then 1 else 0), a.2.2)) (s, 0, 0)

/-- HX_CCMD (R104). -/
def execHxCcmd (k : Fin 24) (mode : RvMode) (rs1 rs2 : W64) (s : State) : Host.Outcome State Fault Refusal :=
  .next (if !s.hartUp k then s
    else if !hxMode mode then s.illegal k
    else if 2 ^ 48 ≤ rs1.toNat then s.trap k 5 rs1
    else s.hartLoad k mode rs1 16 (fun t bs =>
      let r := t.ccmd k (modePriv mode) (BitVec.ofNat 128 (ofLeBytes bs)) (bits rs2.toNat 0 4)
      r.1.setRd k (r.2.1 + 256 * r.2.2)))

/-- R104: what ends HX.WAITEV: the lowest core routed to the hart with pending and irq_en set, or the time limit (all ones). -/
def State.waitEnds (s : State) (k : Fin 24) (limit : W64) : Option Nat :=
  match allCores.find? (fun n => let e := (s.core n).ev
                                 e.pending && e.irqEn && decide (e.target.toNat = k.val)) with
  | some n => some n.val
  | none => if limit ≠ 0 ∧ limit.toNat ≤ s.now then some (2 ^ 64 - 1) else none

/-- HX_WAITEV (R104): waits unless it ends at once; it clears nothing. -/
def execHxWaitev (k : Fin 24) (mode : RvMode) (rs1 : W64) (s : State) : Host.Outcome State Fault Refusal :=
  .next (if !s.hartUp k then s
    else if !hxMode mode then s.illegal k
    else match s.waitEnds k rs1 with
      | some v => s.setRd k v
      | none => s.modRub k (fun r => { r with waitLimit := some rs1 }))

/-- HX_WAITEV_WAKE (R104). -/
def execHxWaitevWake (k : Fin 24) (s : State) : Host.Outcome State Fault Refusal :=
  .next (match (s.rub k).waitLimit with
    | none => s
    | some l => match s.waitEnds k l with
      | some v => (s.setRd k v).modRub k (fun r => { r with waitLimit := none })
      | none => s)

/-- HX_PTEST (R104): checked as a load; never traps on poison. An address of the register space, which holds no granule, raises the
load access fault, as it does for HX.CCMD's mask (log 160, DESIGN CHOICE). -/
def execHxPtest (k : Fin 24) (mode : RvMode) (rs1 : W64) (s : State) : Host.Outcome State Fault Refusal :=
  .next (if !s.hartUp k then s
    else if 2 ^ 48 ≤ rs1.toNat then s.trap k 5 rs1
    else s.hartAccess k mode rs1 1 0 (fun s =>
      if s.hartSnapGone k then s.trap k 5 rs1
      else
        let v := s.hartView k
        let s1 := s.touch 0 (s.hartPart k) rs1.toNat 1
        s1.setRd k (if (s1.gran v (rs1.toNat / 64)).poison then 1 else 0)))

/-- HX_FSET (R104, R240): binds stores or loads, or unbinds both; rd takes the previous binding of the kind. -/
def execHxFset (k : Fin 24) (mode : RvMode) (rs1 : W64) (s : State) : Host.Outcome State Fault Refusal :=
  let r := s.rub k
  .next (if !s.hartUp k then s
    else if !hxMode mode then s.illegal k
    else if rs1 = 0 then (s.modRub k (fun x => { x with storeBind := 0, loadBind := 0 })).setRd k r.storeBind.toNat
    else if bits rs1.toNat 62 2 = 2 then (s.modRub k (fun x => { x with storeBind := rs1 })).setRd k r.storeBind.toNat
    else if bits rs1.toNat 62 2 = 1 then (s.modRub k (fun x => { x with loadBind := rs1 })).setRd k r.loadBind.toNat
    else s.illegal k)

end Sys2Proof.Machine
end

