-- ==== Sys2Proof/Machine/Vector.lean ====
section
/-! DEFINITION. The vector and special-function classes of a compute core (R93, R94, R119). -/

namespace Sys2Proof.Machine

/-- R93: the lanes of the second source: a register, or the broadcast of ss[31:0]. -/
def Core.vsrc (c : Core) : VSrc → List W32
  | .reg v => c.vget v
  | .bcast s => List.replicate 256 ((c.sget s).setWidth 32)

/-- The marks of the second source's lane groups. -/
def Core.vsrcBad (c : Core) : VSrc → List Bool
  | .reg v => c.vbad v
  | .bcast s => List.replicate 16 (c.sbad s)

/-- Lane-group marks of a result that read two sources (R69). -/
def orMarks (a b : List Bool) : List Bool := List.zipWith (· || ·) a b

/-- Writes a vector result: the marks are set and noted in poison_seen. -/
def Core.vout (c : Core) (vd : VReg) (xs : List W32) (bad : List Bool) : Core :=
  (c.vset vd xs bad).seen (bad.any id)

/-- R93: a lane operation of one source. -/
def Core.lane1 (c : Core) (vd va : VReg) (f : W32 → W32) : Core := c.vout vd ((c.vget va).map f) (c.vbad va)

/-- R93: a lane operation of two sources. -/
def Core.lane2 (c : Core) (vd va : VReg) (vb : VSrc) (f : W32 → W32 → W32) : Core :=
  c.vout vd (List.zipWith f (c.vget va) (c.vsrc vb)) (orMarks (c.vbad va) (c.vsrcBad vb))

/-- R93: a lane operation of three sources. -/
def Core.lane3 (c : Core) (vd va : VReg) (vb : VSrc) (vc : VReg) (f : W32 → W32 → W32 → W32) : Core :=
  c.vout vd (List.zipWith (fun g z => g z) (List.zipWith f (c.vget va) (c.vsrc vb)) (c.vget vc))
    (orMarks (orMarks (c.vbad va) (c.vsrcBad vb)) (c.vbad vc))

/-- R93: a reduction by the fixed pairwise tree into lane 0; the other lanes are 0. Lane 0's group is poisoned when any
group of the source is (R69). -/
def Core.reduce (c : Core) (vd va : VReg) (f : W32 → W32 → W32) : Core :=
  c.vout vd (treeFold f 8 (c.vget va) :: List.replicate 255 0) ((c.vbad va).any id :: List.replicate 15 false)

/-- R93, R119: one lane of VLDEXP. vb is integer-valued; for any other vb the manual states no result, and the lane holds
a free value (log 10). An exponent beyond 600 in magnitude gives what 600 gives: an infinity or a zero. -/
def ldexpLane (a b : W32) : W32 :=
  let k := f32ToInt b
  if (valOf a).isNan || (valOf b).isNan then f32Nan
  else if (valOf b).isSpecial || (decide (toF32 (Val.ofInt k) ≠ b) && !(valOf b).isZero) then
    Config.ldexpFree a b
  else f32Ldexp a (max (-600) (min 600 k))

/-- Runs a vector or special-function instruction whose effect is on the core alone. -/
def State.vec (s : State) (n : CoreNo) (f : Core → Except CoreErr Core) : State :=
  s.issue n .compute (fun s => s.finishCore n (f (s.core n)))

/-- R93: the element format of a vector instruction: FP8, BF16, FP16 or FP32 only. R93 names no code for another format, or for a
rounding field of 3: the model faults with TILE_SHAPE as for a rejected descriptor (log 154, DESIGN CHOICE). -/
def vecFmt (fmt : Byte) : Option ElemFmt :=
  match ElemFmt.ofCode fmt.toNat with
  | some .e4m3 => if fmt = 1 then some .e4m3 else none
  | some .e5m2 => if fmt = 2 then some .e5m2 else none
  | some .bf16 => some .bf16
  | some .fp16 => some .fp16
  | some .fp32 => some .fp32
  | _ => none

/-- R89, R93: the rounding a field selects; 3 is rejected. -/
def vecRnd (r : BitVec 2) : Option RndMode :=
  match r.toNat with
  | 0 => some .rne
  | 1 => some .rtz
  | 2 => some .sr
  | _ => none

/-- R93: the store address of VLD and VST: checked for a poisoned base (R80), alignment and the end of the store. -/
def Core.vecAddr (c : Core) (a : StAddr) (bytes : Nat) : Except CoreErr Nat :=
  let base := match a.base with
    | some s => c.sget s
    | none => 0
  let bad := match a.base with
    | some s => c.sbad s
    | none => false
  let x := (base + a.addr.setWidth 64).toNat
  if bad then .error errPoison
  else if x % 64 ≠ 0 then .error errMisaligned
  else if storeSize < x + bytes then .error (errStore (x + bytes))
  else .ok x

/-- R93: VLD. -/
def Core.vld (c : Core) (vd : VReg) (addr : StAddr) (fmt : Byte) : Except CoreErr Core :=
  match vecFmt fmt with
  | none => .error (errShape 0 8)
  | some f => match c.vecAddr addr (f.bytesFor 256) with
    | .error e => .error e
    | .ok a =>
      let xs := (List.range 256).map (fun i => widen f (getElem c.mem.store f a i))
      let bad := (List.range 16).map (fun g => c.stBad (a + g * f.bytesFor 16) (f.bytesFor 16))
      .ok (c.vout vd xs bad)

/-- R93, R116, R118: VST; a stochastic rounding advances the generator lane by lane. A granule is poisoned when a lane
group it holds is. -/
def Core.vst (c : Core) (va : VReg) (addr : StAddr) (fmt : Byte) (rnd : BitVec 2) : Except CoreErr (Core × Nat) :=
  match vecFmt fmt, vecRnd rnd with
  | some f, some r => match c.vecAddr addr (f.bytesFor 256) with
    | .error e => .error e
    | .ok a =>
      let q := convertList f r c.regs.rngState (c.vget va)
      let bad := c.vbad va
      let per := 64 / f.bytesFor 16
      let c1 := { c with regs := { c.regs with rngState := q.2.2 } }
      .ok ((c1.stWrite a (packElems f q.1) (fun i => ((bad.drop (i * per)).take per).any id)).seen (bad.any id), q.2.1)
  | _, _ => .error (errShape 0 8)

/-- R93: VCVT. -/
def Core.vcvt (c : Core) (vd va : VReg) (fmt : Byte) (rnd : BitVec 2) : Except CoreErr (Core × Nat) :=
  match vecFmt fmt, vecRnd rnd with
  | some f, some r =>
    let q := convertList f r c.regs.rngState (c.vget va)
    let c1 := { c with regs := { c.regs with rngState := q.2.2 } }
    .ok (c1.vout vd (q.1.map (widen f)) (c.vbad va), q.2.1)
  | _, _ => .error (errShape 0 8)

/-- Runs VST or VCVT, counting the conversions R116 counts (event 0x0D). -/
def State.vecCounted (s : State) (n : CoreNo) (f : Core → Except CoreErr (Core × Nat)) : State :=
  s.issue n .compute (fun s => match f (s.core n) with
    | .error e => s.coreFault n e
    | .ok (c, k) => ((s.setCore n c).countCore n 0x0D k).retire n)

/-- R94: EXP2B on one row. -/
def Core.exp2Row (c : Core) (vm : VReg) (region : Nat) (k : W32) (r : Nat) : Core :=
  let m := (c.vget vm).getD r 0
  let mb := (c.vbad vm).getD (r / 16) false
  let bad := (c.bbad r region).map (· || mb)
  (c.bset r region ((c.bget r region).map (fun x => f32Exp2Shift x m k)) bad).seen (bad.any id)

/-- VADD (R93). -/
def execVadd (n : CoreNo) (vd va : VReg) (vb : VSrc) (s : State) : Host.Outcome State Fault Refusal :=
  .next (s.vec n (fun c => .ok (c.lane2 vd va vb f32Add)))

/-- VSUB (R93). -/
def execVsub (n : CoreNo) (vd va : VReg) (vb : VSrc) (s : State) : Host.Outcome State Fault Refusal :=
  .next (s.vec n (fun c => .ok (c.lane2 vd va vb f32Sub)))

/-- VMUL (R93). -/
def execVmul (n : CoreNo) (vd va : VReg) (vb : VSrc) (s : State) : Host.Outcome State Fault Refusal :=
  .next (s.vec n (fun c => .ok (c.lane2 vd va vb f32Mul)))

/-- VFMA (R93): one rounding. -/
def execVfma (n : CoreNo) (vd va : VReg) (vb : VSrc) (vc : VReg) (s : State) : Host.Outcome State Fault Refusal :=
  .next (s.vec n (fun c => .ok (c.lane3 vd va vb vc f32Fma)))

/-- VMAX (R93, R119). -/
def execVmax (n : CoreNo) (vd va : VReg) (vb : VSrc) (s : State) : Host.Outcome State Fault Refusal :=
  .next (s.vec n (fun c => .ok (c.lane2 vd va vb f32Max)))

/-- VMIN (R93, R119). -/
def execVmin (n : CoreNo) (vd va : VReg) (vb : VSrc) (s : State) : Host.Outcome State Fault Refusal :=
  .next (s.vec n (fun c => .ok (c.lane2 vd va vb f32Min)))

/-- VABS (R93). -/
def execVabs (n : CoreNo) (vd va : VReg) (s : State) : Host.Outcome State Fault Refusal :=
  .next (s.vec n (fun c => .ok (c.lane1 vd va f32Abs)))

/-- VNEG (R93). -/
def execVneg (n : CoreNo) (vd va : VReg) (s : State) : Host.Outcome State Fault Refusal :=
  .next (s.vec n (fun c => .ok (c.lane1 vd va f32Neg)))

/-- VCMPGT (R93): 1.0 where va > vb, else 0.0. -/
def execVcmpgt (n : CoreNo) (vd va : VReg) (vb : VSrc) (s : State) : Host.Outcome State Fault Refusal :=
  .next (s.vec n (fun c => .ok (c.lane2 vd va vb f32CmpGt)))

/-- VSEL (R93): va where vc is not zero, else vb. -/
def execVsel (n : CoreNo) (vd va : VReg) (vb : VSrc) (vc : VReg) (s : State) : Host.Outcome State Fault Refusal :=
  .next (s.vec n (fun c => .ok (c.lane3 vd va vb vc (fun a b z => if (valOf z).isZero then b else a))))

/-- VREDSUM (R93). -/
def execVredsum (n : CoreNo) (vd va : VReg) (s : State) : Host.Outcome State Fault Refusal :=
  .next (s.vec n (fun c => .ok (c.reduce vd va f32Add)))

/-- VREDMAX (R93). -/
def execVredmax (n : CoreNo) (vd va : VReg) (s : State) : Host.Outcome State Fault Refusal :=
  .next (s.vec n (fun c => .ok (c.reduce vd va f32Max)))

/-- VLD (R93). -/
def execVld (n : CoreNo) (vd : VReg) (addr : StAddr) (fmt : Byte) (s : State) : Host.Outcome State Fault Refusal :=
  .next (s.vec n (fun c => c.vld vd addr fmt))

/-- VST (R93). -/
def execVst (n : CoreNo) (va : VReg) (addr : StAddr) (fmt : Byte) (rnd : BitVec 2) (s : State) : Host.Outcome State Fault Refusal :=
  .next (s.vecCounted n (fun c => c.vst va addr fmt rnd))

/-- VLDB (R93). -/
def execVldb (n : CoreNo) (vd : VReg) (brow : BitVec 7) (breg : BitVec 2) (s : State) : Host.Outcome State Fault Refusal :=
  .next (s.vec n (fun c => .ok (c.vout vd (c.bget brow.toNat breg.toNat) (c.bbad brow.toNat breg.toNat))))

/-- VSTB (R93). -/
def execVstb (n : CoreNo) (va : VReg) (brow : BitVec 7) (breg : BitVec 2) (s : State) : Host.Outcome State Fault Refusal :=
  .next (s.vec n (fun c => .ok ((c.bset brow.toNat breg.toNat (c.vget va) (c.vbad va)).seen ((c.vbad va).any id))))

/-- VCVT (R93). -/
def execVcvt (n : CoreNo) (vd va : VReg) (fmt : Byte) (rnd : BitVec 2) (s : State) : Host.Outcome State Fault Refusal :=
  .next (s.vecCounted n (fun c => c.vcvt vd va fmt rnd))

/-- VEXPO (R93, R119). -/
def execVexpo (n : CoreNo) (vd va : VReg) (s : State) : Host.Outcome State Fault Refusal :=
  .next (s.vec n (fun c => .ok (c.lane1 vd va f32Expo)))

/-- VLDEXP (R93, R119). -/
def execVldexp (n : CoreNo) (vd va : VReg) (vb : VSrc) (s : State) : Host.Outcome State Fault Refusal :=
  .next (s.vec n (fun c => .ok (c.lane2 vd va vb ldexpLane)))

/-- VMOVS (R93). -/
def execVmovs (n : CoreNo) (vd : VReg) (ss : SReg) (s : State) : Host.Outcome State Fault Refusal :=
  .next (s.vec n (fun c => .ok (c.vout vd (c.vsrc (.bcast ss)) (c.vsrcBad (.bcast ss)))))

/-- VEXT (R93): lane 0, zero-extended; the scalar takes the lane group's mark (R80). -/
def execVext (n : CoreNo) (ss : SReg) (va : VReg) (s : State) : Host.Outcome State Fault Refusal :=
  .next (s.vec n (fun c =>
    let bad := (c.vbad va).headD false
    .ok ((c.sset ss (((c.vget va).headD 0).setWidth 64) bad).seen bad)))

/-- EXP2 (R94, R122). -/
def execExp2 (n : CoreNo) (vd va : VReg) (s : State) : Host.Outcome State Fault Refusal :=
  .next (s.vec n (fun c => .ok (c.lane1 vd va f32Exp2)))

/-- LOG2 (R94, R126). -/
def execLog2 (n : CoreNo) (vd va : VReg) (s : State) : Host.Outcome State Fault Refusal :=
  .next (s.vec n (fun c => .ok (c.lane1 vd va f32Log2)))

/-- EXP2B (R94): in place over a range of blotter rows; a range of no row or past row 127 is no legal word (BAD_INSTR). -/
def execExp2b (n : CoreNo) (vm : VReg) (rowFirst : BitVec 7) (rowCount : Byte) (region : BitVec 2) (k : W32) (s : State) :
    Host.Outcome State Fault Refusal :=
  .next (s.vec n (fun c =>
    if rowCount = 0 ∨ 128 < rowFirst.toNat + rowCount.toNat then .error errBadInstr
    else .ok ((List.range rowCount.toNat).foldl (fun c i => c.exp2Row vm region.toNat k (rowFirst.toNat + i)) c)))

end Sys2Proof.Machine
end

