-- ==== Sys2Proof/Machine/Dispatch.lean ====
section
/-! DEFINITION. One arm per command (the host reads it arm by arm). -/

namespace Sys2Proof.Machine

/-- The effect of a command on everything but the queue. -/
def exec (i : Instr) (s : State) : Host.Outcome State Fault Refusal :=
  match i with
  | .nop n => Sys2Proof.Machine.execNop n s
  | .end_ n => Sys2Proof.Machine.execEnd n s
  | .li n sd imm => Sys2Proof.Machine.execLi n sd imm s
  | .add n sd sa sb => Sys2Proof.Machine.execAdd n sd sa sb s
  | .addi n sd sa imm => Sys2Proof.Machine.execAddi n sd sa imm s
  | .sub n sd sa sb => Sys2Proof.Machine.execSub n sd sa sb s
  | .and_ n sd sa sb => Sys2Proof.Machine.execAnd n sd sa sb s
  | .or_ n sd sa sb => Sys2Proof.Machine.execOr n sd sa sb s
  | .xor_ n sd sa sb => Sys2Proof.Machine.execXor n sd sa sb s
  | .shl n sd sa sh => Sys2Proof.Machine.execShl n sd sa sh s
  | .shr n sd sa sh => Sys2Proof.Machine.execShr n sd sa sh s
  | .mul n sd sa sb => Sys2Proof.Machine.execMul n sd sa sb s
  | .beq n sa sb target => Sys2Proof.Machine.execBeq n sa sb target s
  | .bne n sa sb target => Sys2Proof.Machine.execBne n sa sb target s
  | .blt n sa sb target => Sys2Proof.Machine.execBlt n sa sb target s
  | .bge n sa sb target => Sys2Proof.Machine.execBge n sa sb target s
  | .jmp n target => Sys2Proof.Machine.execJmp n target s
  | .lds n sd sa imm => Sys2Proof.Machine.execLds n sd sa imm s
  | .sts n sa sb imm => Sys2Proof.Machine.execSts n sa sb imm s
  | .rdtime n sd => Sys2Proof.Machine.execRdtime n sd s
  | .rdid n sd => Sys2Proof.Machine.execRdid n sd s
  | .bkpt n => Sys2Proof.Machine.execBkpt n s
  | .seed n sa => Sys2Proof.Machine.execSeed n sa s
  | .signal n sa event => Sys2Proof.Machine.execSignal n sa event s
  | .barrier n id home count => Sys2Proof.Machine.execBarrier n id home count s
  | .barrierArrival n idx => Sys2Proof.Machine.execBarrierArrival n idx s
  | .barrierRelease n idx => Sys2Proof.Machine.execBarrierRelease n idx s
  | .waitin n tag src count => Sys2Proof.Machine.execWaitin n tag src count s
  | .fence n => Sys2Proof.Machine.execFence n s
  | .mma n d => Sys2Proof.Machine.execMma n d s
  | .epi n d => Sys2Proof.Machine.execEpi n d s
  | .zero n slots => Sys2Proof.Machine.execZero n slots s
  | .chain n d => Sys2Proof.Machine.execChain n d s
  | .attnFwd n d => Sys2Proof.Machine.execAttnFwd n d s
  | .attnDec n d => Sys2Proof.Machine.execAttnDec n d s
  | .attnBwd n d => Sys2Proof.Machine.execAttnBwd n d s
  | .attnMerge n d => Sys2Proof.Machine.execAttnMerge n d s
  | .cstepPut n d => Sys2Proof.Machine.execCstepPut n d s
  | .cstepTake n d => Sys2Proof.Machine.execCstepTake n d s
  | .ccount n d => Sys2Proof.Machine.execCcount n d s
  | .collWaitPoll n => Sys2Proof.Machine.execCollWaitPoll n s
  | .collDeadline n => Sys2Proof.Machine.execCollDeadline n s
  | .vadd n vd va vb => Sys2Proof.Machine.execVadd n vd va vb s
  | .vsub n vd va vb => Sys2Proof.Machine.execVsub n vd va vb s
  | .vmul n vd va vb => Sys2Proof.Machine.execVmul n vd va vb s
  | .vfma n vd va vb vc => Sys2Proof.Machine.execVfma n vd va vb vc s
  | .vmax n vd va vb => Sys2Proof.Machine.execVmax n vd va vb s
  | .vmin n vd va vb => Sys2Proof.Machine.execVmin n vd va vb s
  | .vabs n vd va => Sys2Proof.Machine.execVabs n vd va s
  | .vneg n vd va => Sys2Proof.Machine.execVneg n vd va s
  | .vcmpgt n vd va vb => Sys2Proof.Machine.execVcmpgt n vd va vb s
  | .vsel n vd va vb vc => Sys2Proof.Machine.execVsel n vd va vb vc s
  | .vredsum n vd va => Sys2Proof.Machine.execVredsum n vd va s
  | .vredmax n vd va => Sys2Proof.Machine.execVredmax n vd va s
  | .vld n vd addr fmt => Sys2Proof.Machine.execVld n vd addr fmt s
  | .vst n va addr fmt rnd => Sys2Proof.Machine.execVst n va addr fmt rnd s
  | .vldb n vd brow breg => Sys2Proof.Machine.execVldb n vd brow breg s
  | .vstb n va brow breg => Sys2Proof.Machine.execVstb n va brow breg s
  | .vcvt n vd va fmt rnd => Sys2Proof.Machine.execVcvt n vd va fmt rnd s
  | .vexpo n vd va => Sys2Proof.Machine.execVexpo n vd va s
  | .vldexp n vd va vb => Sys2Proof.Machine.execVldexp n vd va vb s
  | .vmovs n vd ss => Sys2Proof.Machine.execVmovs n vd ss s
  | .vext n ss va => Sys2Proof.Machine.execVext n ss va s
  | .exp2 n vd va => Sys2Proof.Machine.execExp2 n vd va s
  | .log2 n vd va => Sys2Proof.Machine.execLog2 n vd va s
  | .exp2b n vm rowFirst rowCount region k => Sys2Proof.Machine.execExp2b n vm rowFirst rowCount region k s
  | .load n m st len => Sys2Proof.Machine.execLoad n m st len s
  | .store n m st len => Sys2Proof.Machine.execStore n m st len s
  | .load2d n st => Sys2Proof.Machine.execLoad2d n st s
  | .store2d n st => Sys2Proof.Machine.execStore2d n st s
  | .send n st len tag dst dst2 => Sys2Proof.Machine.execSend n st len tag dst dst2 s
  | .recv n st len tag src => Sys2Proof.Machine.execRecv n st len tag src s
  | .streamLd n st len wide => Sys2Proof.Machine.execStreamLd n st len wide s
  | .gather n st => Sys2Proof.Machine.execGather n st s
  | .scatter n st => Sys2Proof.Machine.execScatter n st s
  | .rotpre n sa imm len => Sys2Proof.Machine.execRotpre n sa imm len s
  | .waitflag n sa sb imm ge => Sys2Proof.Machine.execWaitflag n sa sb imm ge s
  | .waitflagPoll n => Sys2Proof.Machine.execWaitflagPoll n s
  | .setflag n sa sb imm => Sys2Proof.Machine.execSetflag n sa sb imm s
  | .inboundDataArrival n idx => Sys2Proof.Machine.execInboundDataArrival n idx s
  | .transferAck n => Sys2Proof.Machine.execTransferAck n s
  | .rotaryFillArrival n idx => Sys2Proof.Machine.execRotaryFillArrival n idx s
  | .phaseEnd n => Sys2Proof.Machine.execPhaseEnd n s
  | .phaseTurnEnd n => Sys2Proof.Machine.execPhaseTurnEnd n s
  | .groupTokenGrant n => Sys2Proof.Machine.execGroupTokenGrant n s
  | .coreHang n => Sys2Proof.Machine.execCoreHang n s
  | .coreStart n priv => Sys2Proof.Machine.execCoreStart n priv s
  | .coreHalt n => Sys2Proof.Machine.execCoreHalt n s
  | .haltComplete n => Sys2Proof.Machine.execHaltComplete n s
  | .coreResume n => Sys2Proof.Machine.execCoreResume n s
  | .softReset n => Sys2Proof.Machine.execSoftReset n s
  | .softResetComplete n => Sys2Proof.Machine.execSoftResetComplete n s
  | .rotInvalidate n => Sys2Proof.Machine.execRotInvalidate n s
  | .progLoad n v => Sys2Proof.Machine.execProgLoad n v s
  | .progLoadComplete n => Sys2Proof.Machine.execProgLoadComplete n s
  | .coreEventCtrlWrite n v => Sys2Proof.Machine.execCoreEventCtrlWrite n v s
  | .coreRngSeedWrite n v => Sys2Proof.Machine.execCoreRngSeedWrite n v s
  | .coreFolioWrite n v => Sys2Proof.Machine.execCoreFolioWrite n v s
  | .registerWrite r v => Sys2Proof.Machine.execRegisterWrite r v s
  | .glbTimeLoRead who => Sys2Proof.Machine.execGlbTimeLoRead who s
  | .coreCut e => Sys2Proof.Machine.execCoreCut e s
  | .hxCcmd k mode rs1 rs2 => Sys2Proof.Machine.execHxCcmd k mode rs1 rs2 s
  | .hxWaitev k mode rs1 => Sys2Proof.Machine.execHxWaitev k mode rs1 s
  | .hxWaitevWake k => Sys2Proof.Machine.execHxWaitevWake k s
  | .hxPtest k mode rs1 => Sys2Proof.Machine.execHxPtest k mode rs1 s
  | .hxFset k mode rs1 => Sys2Proof.Machine.execHxFset k mode rs1 s
  | .rubricLoad k mode addr size => Sys2Proof.Machine.execRubricLoad k mode addr size s
  | .rubricStore k mode addr size v => Sys2Proof.Machine.execRubricStore k mode addr size v s
  | .rubricFetch k mode addr => Sys2Proof.Machine.execRubricFetch k mode addr s
  | .timePllLock => Sys2Proof.Machine.execTimePllLock s
  | .holdoverEntry => Sys2Proof.Machine.execHoldoverEntry s
  | .syncReqSend => Sys2Proof.Machine.execSyncReqSend s
  | .syncReq p f => Sys2Proof.Machine.execSyncReq p f s
  | .syncResp p f => Sys2Proof.Machine.execSyncResp p f s
  | .announceSend => Sys2Proof.Machine.execAnnounceSend s
  | .announce p f => Sys2Proof.Machine.execAnnounce p f s
  | .announceExpiry p => Sys2Proof.Machine.execAnnounceExpiry p s
  | .rootStep up => Sys2Proof.Machine.execRootStep up s
  | .rootStepLock => Sys2Proof.Machine.execRootStepLock s
  | .bar2Read fn off len => Sys2Proof.Machine.execBar2Read fn off len s
  | .bar2Write fn off data poisoned => Sys2Proof.Machine.execBar2Write fn off data poisoned s
  | .rulingPoll p => Sys2Proof.Machine.execRulingPoll p s
  | .rulingDeadline p idx => Sys2Proof.Machine.execRulingDeadline p idx s
  | .migration idx => Sys2Proof.Machine.execMigration idx s
  | .flashProgramFail src => Sys2Proof.Machine.execFlashProgramFail src s
  | .frameReturn f => Sys2Proof.Machine.execFrameReturn f s
  | .folioOpen src => Sys2Proof.Machine.execFolioOpen src s
  | .folioExtend src => Sys2Proof.Machine.execFolioExtend src s
  | .folioSeal src => Sys2Proof.Machine.execFolioSeal src s
  | .folioApplyComplete a => Sys2Proof.Machine.execFolioApplyComplete a s
  | .subtreeDecrement => Sys2Proof.Machine.execSubtreeDecrement s
  | .folioScrape src => Sys2Proof.Machine.execFolioScrape src s
  | .folioInspect src => Sys2Proof.Machine.execFolioInspect src s
  | .snapOpen src => Sys2Proof.Machine.execSnapOpen src s
  | .snapClose src => Sys2Proof.Machine.execSnapClose src s
  | .folioResolve src => Sys2Proof.Machine.execFolioResolve src s
  | .folioWrite p handle addr data poisoned => Sys2Proof.Machine.execFolioWrite p handle addr data poisoned s
  | .prepare m index => Sys2Proof.Machine.execPrepare m index s
  | .vote m member yes code time => Sys2Proof.Machine.execVote m member yes code time s
  | .decision m index sealed code noIndex => Sys2Proof.Machine.execDecision m index sealed code noIndex s
  | .decisionAck m member => Sys2Proof.Machine.execDecisionAck m member s
  | .spanDeadline id => Sys2Proof.Machine.execSpanDeadline id s
  | .coordAckTimeout id => Sys2Proof.Machine.execCoordAckTimeout id s
  | .inDoubtQuery id => Sys2Proof.Machine.execInDoubtQuery id s
  | .decisionQuery m index asker => Sys2Proof.Machine.execDecisionQuery m index asker s
  | .folioInDoubt id => Sys2Proof.Machine.execFolioInDoubt id s
  | .cacheCreate src => Sys2Proof.Machine.execCacheCreate src s
  | .cacheRelease src => Sys2Proof.Machine.execCacheRelease src s
  | .cacheAppend src => Sys2Proof.Machine.execCacheAppend src s
  | .spillBatchEnd p tier => Sys2Proof.Machine.execSpillBatchEnd p tier s
  | .spillWaitTimeout w => Sys2Proof.Machine.execSpillWaitTimeout w s
  | .cacheShare src => Sys2Proof.Machine.execCacheShare src s
  | .cacheMass src => Sys2Proof.Machine.execCacheMass src s
  | .cacheRebase src => Sys2Proof.Machine.execCacheRebase src s
  | .codexCreateIndex src => Sys2Proof.Machine.execCodexCreateIndex src s
  | .codexDropIndex src => Sys2Proof.Machine.execCodexDropIndex src s
  | .codexInsert src => Sys2Proof.Machine.execCodexInsert src s
  | .codexDelete src => Sys2Proof.Machine.execCodexDelete src s
  | .codexQuery src => Sys2Proof.Machine.execCodexQuery src s
  | .walkRoundReturn w => Sys2Proof.Machine.execWalkRoundReturn w s
  | .rerankComplete w => Sys2Proof.Machine.execRerankComplete w s
  | .queryDeadline w => Sys2Proof.Machine.execQueryDeadline w s
  | .codexDropSubgraph src => Sys2Proof.Machine.execCodexDropSubgraph src s
  | .subgraphSplice x g => Sys2Proof.Machine.execSubgraphSplice x g s
  | .indexFree x => Sys2Proof.Machine.execIndexFree x s
  | .nodeRepair idx => Sys2Proof.Machine.execNodeRepair idx s
  | .repairRetry idx => Sys2Proof.Machine.execRepairRetry idx s
  | .settleSweep x node => Sys2Proof.Machine.execSettleSweep x node s
  | .writebackProgram idx => Sys2Proof.Machine.execWritebackProgram idx s
  | .ringEnable r => Sys2Proof.Machine.execRingEnable r s
  | .ringDisable r => Sys2Proof.Machine.execRingDisable r s
  | .ringStop r => Sys2Proof.Machine.execRingStop r s
  | .ringStopped r => Sys2Proof.Machine.execRingStopped r s
  | .ringEpochWrite r v => Sys2Proof.Machine.execRingEpochWrite r v s
  | .ringSqTailWrite r v => Sys2Proof.Machine.execRingSqTailWrite r v s
  | .quireHeaderArrival p body => Sys2Proof.Machine.execQuireHeaderArrival p body s
  | .quireChunkArrival p body => Sys2Proof.Machine.execQuireChunkArrival p body s
  | .landingCredit r epoch slot j => Sys2Proof.Machine.execLandingCredit r epoch slot j s
  | .releasePoll r => Sys2Proof.Machine.execReleasePoll r s
  | .ringBroken r => Sys2Proof.Machine.execRingBroken r s
  | .multicastRead m set member addr lines => Sys2Proof.Machine.execMulticastRead m set member addr lines s
  | .detachWaitExpiry m set => Sys2Proof.Machine.execDetachWaitExpiry m set s
  | .dataGroup p g => Sys2Proof.Machine.execDataGroup p g s
  | .lctl p flit => Sys2Proof.Machine.execLctl p flit s
  | .replayTimeout p => Sys2Proof.Machine.execReplayTimeout p s
  | .nakRepeat p => Sys2Proof.Machine.execNakRepeat p s
  | .lctlSend p => Sys2Proof.Machine.execLctlSend p s
  | .groupSend p => Sys2Proof.Machine.execGroupSend p s
  | .hello p flit => Sys2Proof.Machine.execHello p flit s
  | .helloSend p => Sys2Proof.Machine.execHelloSend p s
  | .lightDetect p => Sys2Proof.Machine.execLightDetect p s
  | .trainingComplete p => Sys2Proof.Machine.execTrainingComplete p s
  | .trainingTimeout p => Sys2Proof.Machine.execTrainingTimeout p s
  | .trainingRetry p => Sys2Proof.Machine.execTrainingRetry p s
  | .handshakeTimeout p => Sys2Proof.Machine.execHandshakeTimeout p s
  | .keyingComplete p => Sys2Proof.Machine.execKeyingComplete p s
  | .keyingTimeout p => Sys2Proof.Machine.execKeyingTimeout p s
  | .portLoss p => Sys2Proof.Machine.execPortLoss p s
  | .portEnable p v => Sys2Proof.Machine.execPortEnable p v s
  | .portRetrain p => Sys2Proof.Machine.execPortRetrain p s
  | .portClearErrors p => Sys2Proof.Machine.execPortClearErrors p s
  | .chunkReceive p body => Sys2Proof.Machine.execChunkReceive p body s
  | .chunkReport p id chunk good => Sys2Proof.Machine.execChunkReport p id chunk good s
  | .departMessage p => Sys2Proof.Machine.execDepartMessage p s
  | .ethLinkUp p => Sys2Proof.Machine.execEthLinkUp p s
  | .ethFrameReceive p frame => Sys2Proof.Machine.execEthFrameReceive p frame s
  | .ethTxPost p qp tail => Sys2Proof.Machine.execEthTxPost p qp tail s
  | .ethFrameSent p qp => Sys2Proof.Machine.execEthFrameSent p qp s
  | .ethRxPost p qp tail => Sys2Proof.Machine.execEthRxPost p qp tail s
  | .portClassify p => Sys2Proof.Machine.execPortClassify p s
  | .partitionForm p => Sys2Proof.Machine.execPartitionForm p s
  | .formBind p drbgOk => Sys2Proof.Machine.execFormBind p drbgOk s
  | .partitionReform p => Sys2Proof.Machine.execPartitionReform p s
  | .partitionDissolve p => Sys2Proof.Machine.execPartitionDissolve p s
  | .dieOut c => Sys2Proof.Machine.execDieOut c s
  | .clearCuts => Sys2Proof.Machine.execClearCuts s
  | .collMessage p body => Sys2Proof.Machine.execCollMessage p body s
  | .countMessage p body => Sys2Proof.Machine.execCountMessage p body s
  | .sqDoorbell q v => Sys2Proof.Machine.execSqDoorbell q v s
  | .sqDisable q => Sys2Proof.Machine.execSqDisable q s
  | .cqDoorbell c v => Sys2Proof.Machine.execCqDoorbell c v s
  | .orderFetch => Sys2Proof.Machine.execOrderFetch s
  | .workOrderNop k => Sys2Proof.Machine.execWorkOrderNop k s
  | .memoryMap k => Sys2Proof.Machine.execMemoryMap k s
  | .memoryUnmap k => Sys2Proof.Machine.execMemoryUnmap k s
  | .memoryMigrate k => Sys2Proof.Machine.execMemoryMigrate k s
  | .memoryPin k => Sys2Proof.Machine.execMemoryPin k s
  | .memoryUnpin k => Sys2Proof.Machine.execMemoryUnpin k s
  | .memoryAlias k => Sys2Proof.Machine.execMemoryAlias k s
  | .copy k => Sys2Proof.Machine.execCopy k s
  | .runtime k => Sys2Proof.Machine.execRuntime k s
  | .runtimeReply p idx code info payload => Sys2Proof.Machine.execRuntimeReply p idx code info payload s
  | .partitionRun k => Sys2Proof.Machine.execPartitionRun k s
  | .partitionDrain k => Sys2Proof.Machine.execPartitionDrain k s
  | .drainComplete p => Sys2Proof.Machine.execDrainComplete p s
  | .drainTimeout p => Sys2Proof.Machine.execDrainTimeout p s
  | .partitionReset k => Sys2Proof.Machine.execPartitionReset k s
  | .slotRelease p slot v => Sys2Proof.Machine.execSlotRelease p slot v s
  | .cqCoalesceTimer c => Sys2Proof.Machine.execCqCoalesceTimer c s
  | .vfFlr f => Sys2Proof.Machine.execVfFlr f s
  | .pfFlr => Sys2Proof.Machine.execPfFlr s
  | .hotReset => Sys2Proof.Machine.execHotReset s
  | .surpriseLinkDown => Sys2Proof.Machine.execSurpriseLinkDown s
  | .wmpRead path req => Sys2Proof.Machine.execWmpRead path req s
  | .wmpWrite path req => Sys2Proof.Machine.execWmpWrite path req s
  | .wmpNext path req => Sys2Proof.Machine.execWmpNext path req s
  | .mailboxGo ch => Sys2Proof.Machine.execMailboxGo ch s
  | .storeCommitComplete good => Sys2Proof.Machine.execStoreCommitComplete good s
  | .stagingTimeout idx => Sys2Proof.Machine.execStagingTimeout idx s
  | .wardenWatchdog => Sys2Proof.Machine.execWardenWatchdog s
  | .wardenRestart newOk oldOk => Sys2Proof.Machine.execWardenRestart newOk oldOk s
  | .plcaFallback => Sys2Proof.Machine.execPlcaFallback s
  | .setdasa at_ addr => Sys2Proof.Machine.execSetdasa at_ addr s
  | .entdaa addr => Sys2Proof.Machine.execEntdaa addr s
  | .mctpControl bus cmd => Sys2Proof.Machine.execMctpControl bus cmd s
  | .restoreDefaults v => Sys2Proof.Machine.execRestoreDefaults v s
  | .stateRequestBringup => Sys2Proof.Machine.execStateRequestBringup s
  | .bringupComplete r => Sys2Proof.Machine.execBringupComplete r s
  | .boardMemoryInit c f => Sys2Proof.Machine.execBoardMemoryInit c f s
  | .stateRequestStandby => Sys2Proof.Machine.execStateRequestStandby s
  | .stateRequestQuiescing => Sys2Proof.Machine.execStateRequestQuiescing s
  | .stateRequestReady => Sys2Proof.Machine.execStateRequestReady s
  | .quiesceDone => Sys2Proof.Machine.execQuiesceDone s
  | .safeRemove => Sys2Proof.Machine.execSafeRemove s
  | .rootPllLoss => Sys2Proof.Machine.execRootPllLoss s
  | .pathError link flits => Sys2Proof.Machine.execPathError link flits s
  | .scrubRead addr found => Sys2Proof.Machine.execScrubRead addr found s
  | .governorTick pIn demand => Sys2Proof.Machine.execGovernorTick pIn demand s
  | .startAdmit => Sys2Proof.Machine.execStartAdmit s
  | .slewHold => Sys2Proof.Machine.execSlewHold s
  | .inputFault => Sys2Proof.Machine.execInputFault s
  | .inputRecovered => Sys2Proof.Machine.execInputRecovered s
  | .inputOvervoltage => Sys2Proof.Machine.execInputOvervoltage s
  | .powerLimitCheck mean => Sys2Proof.Machine.execPowerLimitCheck mean s
  | .gatingRelease => Sys2Proof.Machine.execGatingRelease s
  | .temperatureReport t => Sys2Proof.Machine.execTemperatureReport t s
  | .powerStateEntry u => Sys2Proof.Machine.execPowerStateEntry u s
  | .powerStateWake u => Sys2Proof.Machine.execPowerStateWake u s
  | .earlyWake u => Sys2Proof.Machine.execEarlyWake u s
  | .prechargeContact => Sys2Proof.Machine.execPrechargeContact s
  | .softStartDone => Sys2Proof.Machine.execSoftStartDone s
  | .standbyRailsGood => Sys2Proof.Machine.execStandbyRailsGood s
  | .wardenReady newOk oldOk => Sys2Proof.Machine.execWardenReady newOk oldOk s
  | .attentionButton => Sys2Proof.Machine.execAttentionButton s
  | .buttonDelayExpiry => Sys2Proof.Machine.execButtonDelayExpiry s
  | .presenceClose pins => Sys2Proof.Machine.execPresenceClose pins s
  | .surpriseRemoval lowInput => Sys2Proof.Machine.execSurpriseRemoval lowInput s
  | .getVersion path => Sys2Proof.Machine.execGetVersion path s
  | .getCapabilities path => Sys2Proof.Machine.execGetCapabilities path s
  | .negotiateAlgorithms path ok => Sys2Proof.Machine.execNegotiateAlgorithms path ok s
  | .getDigests path => Sys2Proof.Machine.execGetDigests path s
  | .getCertificate path slot => Sys2Proof.Machine.execGetCertificate path slot s
  | .challenge path slot => Sys2Proof.Machine.execChallenge path slot s
  | .getMeasurements path index => Sys2Proof.Machine.execGetMeasurements path index s
  | .keyExchange path => Sys2Proof.Machine.execKeyExchange path s
  | .finish path id ok => Sys2Proof.Machine.execFinish path id ok s
  | .keyUpdate path id => Sys2Proof.Machine.execKeyUpdate path id s
  | .heartbeat path id => Sys2Proof.Machine.execHeartbeat path id s
  | .endSession path id => Sys2Proof.Machine.execEndSession path id s
  | .chunkSend path data last => Sys2Proof.Machine.execChunkSend path data last s
  | .chunkGet path len => Sys2Proof.Machine.execChunkGet path len s
  | .sessionLost path id => Sys2Proof.Machine.execSessionLost path id s
  | .debugNonceRead => Sys2Proof.Machine.execDebugNonceRead s
  | .debugTokenWrite token => Sys2Proof.Machine.execDebugTokenWrite token s
  | .lifecycleEnd v => Sys2Proof.Machine.execLifecycleEnd v s
  | .commitSvn v => Sys2Proof.Machine.execCommitSvn v s
  | .revokeSlot idx => Sys2Proof.Machine.execRevokeSlot idx s
  | .restartWarden v => Sys2Proof.Machine.execRestartWarden v s
  | .queryDeviceIdentifiers path => Sys2Proof.Machine.execQueryDeviceIdentifiers path s
  | .getFirmwareParameters path => Sys2Proof.Machine.execGetFirmwareParameters path s
  | .requestUpdate path => Sys2Proof.Machine.execRequestUpdate path s
  | .passComponentTable path comp last => Sys2Proof.Machine.execPassComponentTable path comp last s
  | .updateComponent path comp size => Sys2Proof.Machine.execUpdateComponent path comp size s
  | .requestFirmwareData path data => Sys2Proof.Machine.execRequestFirmwareData path data s
  | .transferComplete path => Sys2Proof.Machine.execTransferComplete path s
  | .verifyComplete path => Sys2Proof.Machine.execVerifyComplete path s
  | .applyComplete path => Sys2Proof.Machine.execApplyComplete path s
  | .activateFirmware path => Sys2Proof.Machine.execActivateFirmware path s
  | .getStatus path => Sys2Proof.Machine.execGetStatus path s
  | .cancelUpdateComponent path => Sys2Proof.Machine.execCancelUpdateComponent path s
  | .cancelUpdate path => Sys2Proof.Machine.execCancelUpdate path s
  | .pmcFreeze => Sys2Proof.Machine.execPmcFreeze s
  | .pmcUnfreeze => Sys2Proof.Machine.execPmcUnfreeze s
  | .pmcSnapshot => Sys2Proof.Machine.execPmcSnapshot s
  | .pmcCounterWrite c v => Sys2Proof.Machine.execPmcCounterWrite c v s
  | .inputRestored => Sys2Proof.Machine.execInputRestored s
  | .prechargeBreak => Sys2Proof.Machine.execPrechargeBreak s
  | .conventionalReset => Sys2Proof.Machine.execConventionalReset s
  | .indicatorCommand pwr att => Sys2Proof.Machine.execIndicatorCommand pwr att s
  | .lossOfMemorySideDie die => Sys2Proof.Machine.execLossOfMemorySideDie die s
  | .decisionAnswerExpiry globalId index => Sys2Proof.Machine.execDecisionAnswerExpiry globalId index s

end Sys2Proof.Machine
end

