-- ==== Sys2Proof/Machine/Operands.lean ====
section
/-! DEFINITION. The operand fields of a core instruction word (R77, R82, R83, R87, R93 to R95): each by its bits, and for each class
the bits that are RSV. -/

namespace Sys2Proof.Machine

/-- Field [lo + n - 1 : lo] of an instruction word. -/
def wfield (w : W128) (lo n : Nat) : Nat := bits w.toNat lo n

/-- A scalar register named by 5 bits. -/
def wS (w : W128) (lo : Nat) : SReg := Fin.ofNat 32 (wfield w lo 5)

/-- A vector register named by 8 bits. -/
def wV (w : W128) (lo : Nat) : VReg := Fin.ofNat 256 (wfield w lo 8)

/-- A core named by 7 bits. -/
def wCore (w : W128) (lo : Nat) : CoreNo := Fin.ofNat 128 (wfield w lo 7)

/-- R77: class, op and the six mod bits. -/
def wClass (w : W128) : Nat := wfield w 0 4
def wOp (w : W128) : Nat := wfield w 4 6
def wMod (w : W128) : Nat := wfield w 10 6

/-- R82: the immediate and the branch target of the control class. -/
def wImm64 (w : W128) : W64 := BitVec.ofNat 64 (wfield w 64 64)
def wTarget (w : W128) : BitVec 11 := BitVec.ofNat 11 (wfield w 32 11)

/-- R87: the descriptor address; mod[10] = 1 adds the base scalar. -/
def wDesc (w : W128) : DescArg := ⟨if bitOf (wMod w) 0 then some (wS w 16) else none, BitVec.ofNat 22 (wfield w 32 22)⟩

/-- R93: the second vector source; mod[10] = 1 broadcasts ss. -/
def wVb (w : W128) : VSrc := if bitOf (wMod w) 0 then .bcast (wS w 48) else .reg (wV w 32)

/-- R93: the store address of VLD and VST; mod[11] = 1 adds ss. -/
def wAddr (w : W128) : StAddr := ⟨if bitOf (wMod w) 1 then some (wS w 48) else none, BitVec.ofNat 22 (wfield w 64 22)⟩

/-- R93: the format and rounding fields. -/
def wFmt (w : W128) : Byte := BitVec.ofNat 8 (wfield w 56 8)
def wRnd (w : W128) : BitVec 2 := BitVec.ofNat 2 (wfield w 54 2)

/-- R93: the blotter row and region. -/
def wBrow (w : W128) : BitVec 7 := BitVec.ofNat 7 (wfield w 96 7)
def wBreg (w : W128) : BitVec 2 := BitVec.ofNat 2 (wfield w 103 2)

/-- R95: store address, length, offset and memory operand of the transfer class. -/
def wSt (w : W128) : BitVec 22 := BitVec.ofNat 22 (wfield w 32 22)
def wLen (w : W128) : BitVec 21 := BitVec.ofNat 21 (wfield w 64 21)
def wImm32 (w : W128) : W32 := BitVec.ofNat 32 (wfield w 96 32)
def wMem (w : W128) : MemArg := ⟨wS w 16, wImm32 w, if bitOf w.toNat 26 then some (wS w 21) else none⟩
def wTag (w : W128) : Byte := BitVec.ofNat 8 (wfield w 96 8)

/-- R82, R83, R87, R93 to R95: the stretches (low bit, width) of a class and op that are marked RSV. -/
def wReserved : Nat → Nat → List (Nat × Nat)
  | 0, _ => [(31, 1), (43, 21)]
  | 1, _ => [(21, 3), (39, 1), (64, 64)]
  | 3, _ => [(53, 1), (86, 10), (105, 23)]
  | 4, _ => [(47, 1), (58, 6), (96, 32)]
  | 7, op => [(54, 10), (85, 11)] ++ (if op = 4 ∨ op = 5 then [(118, 10)] else [])
  | _, _ => [(21, 11), (62, 66)]

/-- R77: the mod bits an op defines, as a mask of [15:10]. -/
def wModMask : Nat → Nat → Nat
  | 2, op => if op < 2 then 1 else 0
  | 3, op => if op < 6 ∨ op = 8 ∨ op = 9 ∨ op = 0x12 then 1 else if op = 0x0C ∨ op = 0x0D then 2 else 0
  | 5, _ => 1
  | 6, _ => 1
  | 7, op => if op = 6 ∨ op = 0x0A then 1 else 0
  | 8, _ => 1
  | _, _ => 0

/-- R77: no RSV field and no undefined mod bit is set. -/
def wLegal (w : W128) : Bool :=
  (wReserved (wClass w) (wOp w)).all (fun f => decide (wfield w f.1 f.2 = 0)) &&
    decide (wMod w &&& (63 - wModMask (wClass w) (wOp w)) = 0)

end Sys2Proof.Machine
end

