-- ==== Sys2Proof/Machine/Fetch.lean ====
section
/-! DEFINITION. The sequencers of the cores: fetching the word at CORE_PC, decoding it by its class (R77, R78) and issuing it
(R79). What the block does at a tick with no command waiting. -/

namespace Sys2Proof.Machine

/-- R82: the control class. -/
def decControl (n : CoreNo) (w : W128) : Option Instr :=
  let sd := wS w 16
  let sa := wS w 21
  let sb := wS w 26
  let imm := wImm64 w
  let t := wTarget w
  match wOp w with
  | 0x00 => some (.nop n)
  | 0x01 => some (.end_ n)
  | 0x02 => some (.li n sd imm)
  | 0x03 => some (.add n sd sa sb)
  | 0x04 => some (.addi n sd sa imm)
  | 0x05 => some (.sub n sd sa sb)
  | 0x06 => some (.and_ n sd sa sb)
  | 0x07 => some (.or_ n sd sa sb)
  | 0x08 => some (.xor_ n sd sa sb)
  | 0x09 => some (.shl n sd sa (imm.setWidth 6))
  | 0x0A => some (.shr n sd sa (imm.setWidth 6))
  | 0x0B => some (.mul n sd sa sb)
  | 0x0C => some (.beq n sa sb t)
  | 0x0D => some (.bne n sa sb t)
  | 0x0E => some (.blt n sa sb t)
  | 0x0F => some (.bge n sa sb t)
  | 0x10 => some (.jmp n t)
  | 0x11 => some (.lds n sd sa imm)
  | 0x12 => some (.sts n sa sb imm)
  | 0x13 => some (.rdtime n sd)
  | 0x14 => some (.rdid n sd)
  | 0x15 => some (.bkpt n)
  | 0x16 => some (.seed n sa)
  | _ => none

/-- R83: the synchronisation class; a BARRIER's tag[7:4] is 0. -/
def decSync (n : CoreNo) (w : W128) : Option Instr :=
  let tag := BitVec.ofNat 8 (wfield w 24 8)
  let count := BitVec.ofNat 8 (wfield w 40 8)
  match wOp w with
  | 0x00 => some (.signal n (wS w 16) (BitVec.ofNat 16 (wfield w 48 16)))
  | 0x01 => if wfield w 28 4 = 0 then some (.barrier n (tag.setWidth 4) (wCore w 32) count) else none
  | 0x02 => some (.waitin n tag (wCore w 32) count)
  | 0x03 => some (.fence n)
  | _ => none

/-- R87: the matrix class. -/
def decMatrix (n : CoreNo) (w : W128) : Option Instr :=
  match wOp w with
  | 0x00 => some (.mma n (wDesc w))
  | 0x01 => some (.epi n (wDesc w))
  | 0x02 => some (.zero n (BitVec.ofNat 8 (wfield w 54 8)))
  | _ => none

/-- R93: the vector class. -/
def decVector (n : CoreNo) (w : W128) : Option Instr :=
  let vd := wV w 16
  let va := wV w 24
  let vc := wV w 40
  let ss := wS w 48
  match wOp w with
  | 0x00 => some (.vadd n vd va (wVb w))
  | 0x01 => some (.vsub n vd va (wVb w))
  | 0x02 => some (.vmul n vd va (wVb w))
  | 0x03 => some (.vfma n vd va (wVb w) vc)
  | 0x04 => some (.vmax n vd va (wVb w))
  | 0x05 => some (.vmin n vd va (wVb w))
  | 0x06 => some (.vabs n vd va)
  | 0x07 => some (.vneg n vd va)
  | 0x08 => some (.vcmpgt n vd va (wVb w))
  | 0x09 => some (.vsel n vd va (wVb w) vc)
  | 0x0A => some (.vredsum n vd va)
  | 0x0B => some (.vredmax n vd va)
  | 0x0C => some (.vld n vd (wAddr w) (wFmt w))
  | 0x0D => some (.vst n va (wAddr w) (wFmt w) (wRnd w))
  | 0x0E => some (.vldb n vd (wBrow w) (wBreg w))
  | 0x0F => some (.vstb n va (wBrow w) (wBreg w))
  | 0x10 => some (.vcvt n vd va (wFmt w) (wRnd w))
  | 0x11 => some (.vexpo n vd va)
  | 0x12 => some (.vldexp n vd va (wVb w))
  | 0x13 => some (.vmovs n vd ss)
  | 0x14 => some (.vext n ss va)
  | _ => none

/-- R94: the special-function class. -/
def decSpecial (n : CoreNo) (w : W128) : Option Instr :=
  match wOp w with
  | 0x00 => some (.exp2 n (wV w 16) (wV w 24))
  | 0x01 => some (.log2 n (wV w 16) (wV w 24))
  | 0x02 => some (.exp2b n (wV w 32) (BitVec.ofNat 7 (wfield w 40 7)) (BitVec.ofNat 8 (wfield w 48 8))
      (BitVec.ofNat 2 (wfield w 56 2)) (BitVec.ofNat 32 (wfield w 64 32)))
  | _ => none

/-- R92: the attention class. -/
def decAttention (n : CoreNo) (w : W128) : Option Instr :=
  match wOp w with
  | 0x00 => some (.attnFwd n (wDesc w))
  | 0x01 => some (.attnBwd n (wDesc w))
  | 0x02 => some (.attnDec n (wDesc w))
  | 0x03 => some (.attnMerge n (wDesc w))
  | _ => none

/-- R95: the transfer class. -/
def decTransfer (n : CoreNo) (w : W128) : Option Instr :=
  match wOp w with
  | 0x00 => some (.load n (wMem w) (wSt w) (wLen w))
  | 0x01 => some (.store n (wMem w) (wSt w) (wLen w))
  | 0x02 => some (.load2d n (wSt w))
  | 0x03 => some (.store2d n (wSt w))
  | 0x04 => some (.send n (wSt w) (wLen w) (wTag w) (wCore w 104) (wCore w 111))
  | 0x05 => some (.recv n (wSt w) (wLen w) (wTag w) (wCore w 104))
  | 0x06 => some (.streamLd n (wSt w) (wLen w) (bitOf (wMod w) 0))
  | 0x07 => some (.gather n (wSt w))
  | 0x08 => some (.scatter n (wSt w))
  | 0x09 => some (.rotpre n (wS w 16) (wImm32 w) (wLen w))
  | 0x0A => some (.waitflag n (wS w 16) (wS w 27) (wImm32 w) (bitOf (wMod w) 0))
  | 0x0B => some (.setflag n (wS w 16) (wS w 27) (wImm32 w))
  | _ => none

/-- R377: byte [2] of the descriptor a CSTEP names says TAKE (2); any other descriptor is judged as a PUT. -/
def Core.stepTakes (c : Core) (d : DescArg) : Bool :=
  match c.descAddr d with
  | .ok a => decide (c.stLe (a + 2) 1 = 2)
  | .error _ => false

/-- R92: the collective step class. -/
def decCollective (c : Core) (n : CoreNo) (w : W128) : Option Instr :=
  match wOp w with
  | 0x00 => if c.stepTakes (wDesc w) then some (.cstepTake n (wDesc w)) else some (.cstepPut n (wDesc w))
  | 0x01 => some (.ccount n (wDesc w))
  | _ => none

/-- R77, R78: the instruction that a word of core `n` stands for; none where the word is BAD_INSTR. -/
def decodeCore (c : Core) (n : CoreNo) (w : W128) : Option Instr :=
  if !wLegal w then none
  else match wClass w with
    | 0 => decControl n w
    | 1 => decSync n w
    | 2 => decMatrix n w
    | 3 => decVector n w
    | 4 => decSpecial n w
    | 5 => if wOp w = 0 then some (.chain n (wDesc w)) else none
    | 6 => decAttention n w
    | 7 => decTransfer n w
    | 8 => decCollective c n w
    | _ => none

/-- The word at CORE_PC. -/
def Core.fetchWord (c : Core) : W128 := c.mem.prog.get c.pcIndex

/-- R68: what an uncorrectable error does to the SRAM it is in: a program word is marked, a rotary line invalidated (and so
filled again), a granule of any other store poisoned. -/
def Core.sramErr (c : Core) (e : SramErr) : Core :=
  match e with
  | .prog i => { c with mem := { c.mem with progBad := c.mem.progBad.set i 1 } }
  | .store g => c.stMark (64 * g) true
  | .acc g => { c with mem := { c.mem with accPoison := c.mem.accPoison.set g 1 } }
  | .blot g => { c with mem := { c.mem with blotPoison := c.mem.blotPoison.set g 1 } }
  | .vec g => { c with mem := { c.mem with vecPoison := c.mem.vecPoison.set g 1 } }
  | .rot a => { c with rot := Tab.set [] c.rot (rotSet a) ((Tab.get [] c.rot (rotSet a)).filter (fun l => decide (l.addr ≠ a))) }

/-- R459: the record of an uncorrectable error of a core's SRAM (log 151): none for a program word, whose report is
PROGRAM_POISON. -/
def State.sramReport (s : State) (n : CoreNo) (e : SramErr) : State :=
  let rec_ (a : Nat) : State :=
    s.report ⟨0x0202, (dieOfCore n).val, partByte (s.partOfCore n), unitCore n, .core, memDetail a 0xFE 0 0 0⟩
  match e with
  | .prog _ => s
  | .store g => rec_ (64 * g)
  | .acc g => rec_ (64 * g)
  | .blot g => rec_ (64 * g)
  | .vec g => rec_ (64 * g)
  | .rot a => rec_ a

/-- R68, R462: a RUNNING core meets the uncorrectable errors of its SRAMs (log 151, DESIGN CHOICE: all of them at the next tick), and
counts them. -/
def State.meetSram (s : State) (n : CoreNo) : State :=
  ((s.core n).latent.foldl (fun t e => (t.modCore n (fun c => c.sramErr e)).sramReport n e)
    (s.modCore n (fun c => { c with latent := [] }))).coreSram n (s.core n).latent.length 0

/-- R77, R79: the sequencer of a core that can issue meets its SRAM errors and issues the word at CORE_PC; an illegal word
faults with BAD_INSTR. -/
def State.sequence (s0 : State) (n : CoreNo) : State :=
  let s := if (s0.core n).canIssue && (s0.core n).latent ≠ [] then s0.meetSram n else s0
  let c := s.core n
  if !c.canIssue then s
  else match decodeCore c n c.fetchWord with
    | some i => s.after (exec i s)
    | none => s.issue n .current (fun s => s.coreFault n errBadInstr)

/-- A tick with no command waiting (log 60, DESIGN CHOICE): global time counts where its PLL is locked (R40), the counters count
the tick (R486), then the sequencer of every core, in ascending linear number, issues one instruction if it can. -/
def State.tick (s : State) : State :=
  let s1 := if s.clock.timeLock then s.modClock (fun c => { c with time := c.time + 1 }) else s
  (List.finRange 128).foldl State.sequence s1.countTick

end Sys2Proof.Machine
end

