-- ==== Sys2Proof/Safety.lean ====
section
/-! DEFINITION. What counts as a safe run, in the terms the statements use: the canonical forms of memory and of the folio tables, and when a core can issue an
instruction. -/

namespace Sys2Proof.Machine

/-- The canonical form of unified memory: its bytes, its poison marks and its marks of errors not yet found (R234, R454). -/
def Memory.wf (m : MemState) : Bool := Cells.wf m.cells && Cells.wf m.poison && Cells.wf m.latent

/-- The canonical form of the folio unit's two tables: its slots and the open snapshots. -/
def FolioState.wf (f : FolioState) : Bool := Tab.wf Folio.reset f.slots && Tab.wf none f.snaps

/-- The invariant every step keeps: unified memory and the folio unit's tables are in canonical form. -/
def State.Inv (s : State) : Prop := Memory.wf s.mem = true ∧ FolioState.wf s.fol = true

/-- The phase a class of instructions executes in (R64, R78). -/
def InstrClass.inPhase (k : InstrClass) (p : Phase) : Bool :=
  match k with
  | .current => true
  | .compute => decide (p = .compute)
  | .transfer => decide (p = .transfer)

/-- Core `n` executes an instruction of class `k` now: it runs and waits for nothing, the instruction's index is below 2,048
(R79), its word is not marked (R68), and the core is in the instruction's phase (R64). -/
def State.ready (s : State) (n : CoreNo) (k : InstrClass) : Bool :=
  (s.core n).canIssue && decide ((s.core n).pcIndex < 2048) && decide ((s.core n).mem.progBad.get (s.core n).pcIndex ≠ 1) &&
    k.inPhase (s.core n).phase

end Sys2Proof.Machine
end

