-- ==== Sys2Proof/Certificates/Slice0/Obligations.lean ====
section
/-! DEFINITION. The statements for the provers: what the commands do, by family, in the order of the chapters of the spec, and what every step
keeps. A statement that cites a section rests on the model's reading of it; the log entries its operations name say where the model chose. -/

open Sys2Proof Sys2Proof.Machine

/-! Compute cores: control and synchronisation (chapter 4) -/

/-- R82: what the operations of the control class write. A core that can issue retires the instruction with sd ← its result; the
register's poison bit is the sources' (R80). BKPT asks for a halt once the phase completes; SEED loads the stochastic-rounding state, a 0
loading the constant. -/
def Obligations.ScalarResults : Prop :=
  ∀ (s : State) (n : CoreNo), s.ready n .current = true → ∀ (sd sa sb : SReg) (imm : W64) (sh : BitVec 6),
    let c := s.core n
    let done (v : W64) (bad : Bool) : Host.Outcome State Fault Refusal := .next ((s.setCore n (c.sset sd v bad)).retire n)
    exec (.nop n) s = .next (s.retire n) ∧
    exec (.li n sd imm) s = done imm false ∧
    exec (.add n sd sa sb) s = done (c.sget sa + c.sget sb) (c.sbad sa || c.sbad sb) ∧
    exec (.addi n sd sa imm) s = done (c.sget sa + imm) (c.sbad sa) ∧
    exec (.sub n sd sa sb) s = done (c.sget sa - c.sget sb) (c.sbad sa || c.sbad sb) ∧
    exec (.and_ n sd sa sb) s = done (c.sget sa &&& c.sget sb) (c.sbad sa || c.sbad sb) ∧
    exec (.or_ n sd sa sb) s = done (c.sget sa ||| c.sget sb) (c.sbad sa || c.sbad sb) ∧
    exec (.xor_ n sd sa sb) s = done (c.sget sa ^^^ c.sget sb) (c.sbad sa || c.sbad sb) ∧
    exec (.shl n sd sa sh) s = done (c.sget sa <<< sh.toNat) (c.sbad sa) ∧
    exec (.shr n sd sa sh) s = done (c.sget sa >>> sh.toNat) (c.sbad sa) ∧
    exec (.mul n sd sa sb) s = done (BitVec.ofNat 64 ((c.sget sa).toNat * (c.sget sb).toNat)) (c.sbad sa || c.sbad sb) ∧
    exec (.rdtime n sd) s = done s.clock.time false ∧
    exec (.rdid n sd) s = done (BitVec.ofNat 64 (s.coreId n)) false ∧
    exec (.bkpt n) s = .next ((s.retire n).modCore n (fun c => { c with flags := { c.flags with haltReq := true } })) ∧
    exec (.seed n sa) s = .next ((s.setCore n { c with regs := { c.regs with
      rngState := if c.sget sa = 0 then 0x9E3779B97F4A7C15 else c.sget sa } }).retire n)

/-- R80: s0 reads as 0 and discards writes; a write of another register changes it alone, with its poison bit, and nothing else of the core. -/
def Obligations.ScalarRegisters : Prop :=
  ∀ (c : Core) (sd r : SReg) (v : W64) (bad : Bool), Cells.wf c.sregs = true → Cells.wf c.spoison = true →
    ((c.sset sd v bad).sget r = if r = 0 then 0 else if r = sd then v else c.sget r) ∧
    ((c.sset sd v bad).sbad r = if r = 0 then false else if r = sd then bad else c.sbad r) ∧
    ((c.sset sd v bad) = { c with sregs := (c.sset sd v bad).sregs, spoison := (c.sset sd v bad).spoison })

/-- R79: an instruction that retires moves CORE_PC to the next word. Of the core nothing else changes but its performance counters;
every other core and every other part of the state stay as they were. -/
def Obligations.RetireFrame : Prop :=
  ∀ (s : State) (n : CoreNo),
    ((s.retire n).core n).regs = { (s.core n).regs with pc := (s.core n).regs.pc + 16 } ∧
    (s.retire n).core n = { s.core n with regs := ((s.retire n).core n).regs, counters := ((s.retire n).core n).counters } ∧
    (∀ m, m ≠ n → (s.retire n).core m = s.core m) ∧
    s.retire n = { s with cores := (s.retire n).cores }

/-- R82: a branch goes to its target when its condition holds and to the next word otherwise; R80: a poisoned operand faults the core
with POISON_BRANCH. -/
def Obligations.Branches : Prop :=
  ∀ (s : State) (n : CoreNo), s.ready n .current = true → ∀ (sa sb : SReg) (t : BitVec 11),
    let c := s.core n
    let go : State := (s.modCore n (fun c => { c with regs := { c.regs with pc := BitVec.ofNat 64 (16 * t.toNat) } })).countCore n 0x1C 1
    let outcome (taken : Bool) : Host.Outcome State Fault Refusal := .next (if taken then go else s.retire n)
    exec (.jmp n t) s = .next go ∧
    (c.sbad sa = false → c.sbad sb = false →
      exec (.beq n sa sb t) s = outcome (decide (c.sget sa = c.sget sb)) ∧
      exec (.bne n sa sb t) s = outcome (decide (c.sget sa ≠ c.sget sb)) ∧
      exec (.blt n sa sb t) s = outcome (decide ((c.sget sa).toInt < (c.sget sb).toInt)) ∧
      exec (.bge n sa sb t) s = outcome (decide ((c.sget sb).toInt ≤ (c.sget sa).toInt))) ∧
    ((c.sbad sa || c.sbad sb) = true →
      exec (.beq n sa sb t) s = .next (s.coreFault n errPoison) ∧
      exec (.bne n sa sb t) s = .next (s.coreFault n errPoison) ∧
      exec (.blt n sa sb t) s = .next (s.coreFault n errPoison) ∧
      exec (.bge n sa sb t) s = .next (s.coreFault n errPoison))

/-- R82, R81, R80: LDS reads and STS writes the aligned 64-bit word at sa + imm; beyond the store the core faults with
OPERAND_OVERFLOW, a poisoned base with POISON_BRANCH; poison travels with the word. -/
def Obligations.StoreWords : Prop :=
  ∀ (s : State) (n : CoreNo), s.ready n .current = true → ∀ (sd sa sb : SReg) (imm : W64),
    let c := s.core n
    let a := (c.sget sa + imm).toNat / 8 * 8
    (c.sbad sa = true →
      exec (.lds n sd sa imm) s = .next (s.coreFault n errPoison) ∧ exec (.sts n sa sb imm) s = .next (s.coreFault n errPoison)) ∧
    (c.sbad sa = false → storeSize < a + 8 →
      exec (.lds n sd sa imm) s = .next (s.coreFault n (errStore (a + 8))) ∧
      exec (.sts n sa sb imm) s = .next (s.coreFault n (errStore (a + 8)))) ∧
    (c.sbad sa = false → a + 8 ≤ storeSize →
      exec (.lds n sd sa imm) s =
        .next ((s.setCore n ((c.sset sd (BitVec.ofNat 64 (c.stLe a 8)) (c.granBad a)).seen (c.granBad a))).retire n) ∧
      exec (.sts n sa sb imm) s =
        .next ((s.setCore n ((c.stWrite a (leBytes 8 (c.sget sb).toNat) (fun _ => c.sbad sb)).seen (c.sbad sb))).retire n))

/-- R84: SIGNAL and END post a core event when every store and send of the core is complete. SIGNAL writes CORE_EVENT, END leaves it; SIGNAL
counts, END does not; both set pending, END also ended; where irq_en is set the local interrupt of the rubric core named in the target is
raised. Nothing else of the state changes by the post; END then enters IDLE, where a cut that waits takes effect. -/
def Obligations.CoreEvents : Prop :=
  (∀ (s : State) (n : CoreNo), s.ready n .current = true → ∀ (sa : SReg) (ev : W16),
    let c := s.core n
    (s.xferDone n = true →
      exec (.signal n sa ev) s = .next (((s.setCore n { c with ev := { c.ev with
        value := (c.sget sa).setWidth 48, event := ev, count := c.ev.count + 1, valuePoison := c.sbad sa } }).retire n).postEvent n false) ∧
      exec (.end_ n) s = .next ((((s.dropToken n).retire n).modCore n (fun c =>
        { c.applyInval with mode := .idle, phase := .none, nextPhase := .none })).postEvent n true |>.atBoundary n)) ∧
    (s.xferDone n = false → exec (.signal n sa ev) s = .next s ∧ exec (.end_ n) s = .next s)) ∧
  (∀ (s : State) (n : CoreNo) (ended : Bool),
    (s.postEvent n ended).core n = { s.core n with ev := { (s.core n).ev with pending := true, ended := (s.core n).ev.ended || ended } } ∧
    (∀ m, m ≠ n → (s.postEvent n ended).core m = s.core m) ∧
    (∀ k : Fin 24, (s.postEvent n ended).rub k =
      if (s.core n).ev.irqEn = true ∧ (s.core n).ev.target.toNat = k.val then { s.rub k with irq := true } else s.rub k) ∧
    s.postEvent n ended = { s with cores := (s.postEvent n ended).cores, rubric := (s.postEvent n ended).rubric })

/-- R83, R85, R86: a BARRIER of 2 to 128 participants at a home in the partition's rectangle sends one arrival with the core's parity of
the barrier, flips that parity alone and waits for its release, the pc and all memory as they were; another count faults with BAD_INSTR, a
home outside with PART_SHAPE, and nothing is sent. WAITIN retires when its units are there and waits otherwise; a count of 0 faults. FENCE
retires and ends the phase under way. Each arrival on its way, in any order, is counted at its home: the first of an id and parity sets the
count, one that names another count faults its sender with BARRIER_COUNT and is not counted, the last sends a release to every core that
arrived and forgets the barrier, any other is added; other barriers stay. Each release on its way ends the wait it is for: the core retires
its BARRIER; any other core, and a release nobody waits for, changes nothing but the releases. -/
def Obligations.Synchronisation : Prop :=
  (∀ (s : State) (n : CoreNo), s.ready n .current = true → ∀ (id : BitVec 4) (home : CoreNo) (count tag : Byte) (src : CoreNo),
    let c := s.core n
    let par := decide (c.parity.get id.toNat = 1)
    (count.toNat < 2 ∨ 128 < count.toNat → exec (.barrier n id home count) s = .next (s.coreFault n errBadInstr)) ∧
    (2 ≤ count.toNat → count.toNat ≤ 128 → s.sameRect n home = false → exec (.barrier n id home count) s = .next (s.coreFault n (coreErr 0x0405))) ∧
    (2 ≤ count.toNat → count.toNat ≤ 128 → s.sameRect n home = true →
      ∃ t, exec (.barrier n id home count) s = .next t ∧
        t.mesh.arrivals = s.mesh.arrivals ++ [⟨n, home, id.toNat, par, count.toNat⟩] ∧ t.mesh.releases = s.mesh.releases ∧
        (t.core n).wait = some (.barrier home id.toNat par) ∧ (t.core n).mode = .running ∧
        (t.core n).parity = c.parity.set id.toNat (if par then 0 else 1) ∧
        (t.core n).regs = c.regs ∧ (t.core n).sregs = c.sregs ∧ (t.core n).mem = c.mem ∧ t.mem = s.mem) ∧
    (count = 0 → exec (.waitin n tag src count) s = .next (s.coreFault n errBadInstr)) ∧
    (count ≠ 0 → count.toNat ≤ c.inUnits src tag.toNat → exec (.waitin n tag src count) s = .next (s.retire n)) ∧
    (count ≠ 0 → c.inUnits src tag.toNat < count.toNat → ∃ t, exec (.waitin n tag src count) s = .next t ∧
      (t.core n).wait = some (.waitin src tag.toNat count.toNat) ∧ (t.core n).regs = c.regs ∧ (t.core n).inbound = c.inbound ∧ t.mem = s.mem) ∧
    (c.phase = .none → exec (.fence n) s = .next (s.retire n)) ∧
    (c.phase ≠ .none → exec (.fence n) s = .next ((s.retire n).endPhase n .none))) ∧
  (∀ (s : State) (n : CoreNo) (i : Nat),
    (takeNth (fun a : MeshArrival => decide (a.home = n)) i s.mesh.arrivals = none → exec (.barrierArrival n i) s = .next s) ∧
    (∀ (a : MeshArrival) (rest : List MeshArrival),
      takeNth (fun a : MeshArrival => decide (a.home = n)) i s.mesh.arrivals = some (a, rest) →
      let isB (b : Barrier) : Bool := decide (b.id = a.id) && decide (b.parity = a.parity)
      let bs := (s.core n).barriers
      let others := bs.filter (fun b => !isB b)
      let u : State := { s with mesh := { s.mesh with arrivals := rest } }
      (bs.find? isB = none → a.count ≠ 1 → exec (.barrierArrival n i) s =
        .next (u.setCore n { s.core n with barriers := others ++ [⟨a.id, a.parity, a.count, [a.src]⟩] })) ∧
      (∀ b, bs.find? isB = some b →
        (b.count ≠ a.count → exec (.barrierArrival n i) s = .next (u.coreFault a.src (coreErr 0x010D))) ∧
        (b.count = a.count → b.arrived.length + 1 ≠ b.count → exec (.barrierArrival n i) s =
          .next (u.setCore n { s.core n with barriers := others ++ [{ b with arrived := b.arrived ++ [a.src] }] })) ∧
        (b.count = a.count → b.arrived.length + 1 = b.count → exec (.barrierArrival n i) s =
          .next { u.setCore n { s.core n with barriers := others } with
            mesh := { u.mesh with releases := s.mesh.releases ++ (b.arrived ++ [a.src]).map (fun d => ⟨d, n, a.id, a.parity⟩) } })))) ∧
  (∀ (s : State) (n : CoreNo) (i : Nat),
    (takeNth (fun a : MeshRelease => decide (a.dst = n)) i s.mesh.releases = none → exec (.barrierRelease n i) s = .next s) ∧
    (∀ (r : MeshRelease) (rest : List MeshRelease), takeNth (fun a : MeshRelease => decide (a.dst = n)) i s.mesh.releases = some (r, rest) →
      let u : State := { s with mesh := { s.mesh with releases := rest } }
      ((s.core n).mode = .running → (s.core n).wait = some (.barrier r.home r.id r.parity) →
        exec (.barrierRelease n i) s = .next ((u.retire n).endWait n) ∧
        (((u.retire n).endWait n).core n).wait = none ∧ (((u.retire n).endWait n).core n).regs.pc = (s.core n).regs.pc + 16) ∧
      ((s.core n).mode ≠ .running ∨ (s.core n).wait ≠ some (.barrier r.home r.id r.parity) → exec (.barrierRelease n i) s = .next u)))

/-! Compute cores: matrix, chain, attention, vector and special functions (chapters 4 to 7) -/

/-- R87, R89, R59: MMA and EPI read the descriptor whole: a misaligned descriptor address faults with MISALIGNED, one beyond the store with
OPERAND_OVERFLOW, a poisoned one with POISON_BRANCH. EPI runs the epilogue alone, MMA prologue, K steps and epilogue once its rotary lines
are present; with lines missing nothing runs: the core stalls and asks for at most 32. A run that ends whole retires: the core holds what the
run left in its stores, CORE_PC names the next instruction, and unified memory and every other core are as they were; one that fails faults
the core with what it left. ZERO retires with the named slots and their poison cleared and nothing else of the stores changed. -/
def Obligations.MatrixClass : Prop :=
  ∀ (s : State) (n : CoreNo), s.ready n .compute = true → ∀ (d : DescArg) (slots : Byte),
    let c := s.core n
    (∀ e, c.descAddr d = .error e → exec (.mma n d) s = .next (s.coreFault n e) ∧ exec (.epi n d) s = .next (s.coreFault n e)) ∧
    (∀ a e, c.descAddr d = .ok a → c.readMat a = .error e →
      exec (.mma n d) s = .next (s.coreFault n e) ∧ exec (.epi n d) s = .next (s.coreFault n e)) ∧
    (∀ a m, c.descAddr d = .ok a → c.readMat a = .ok m →
      let q := (s.matRun n).exec m false []
      let r := (s.matRun n).exec m true []
      (q.2 = none → exec (.epi n d) s =
        .next ((({ s with draws := q.1.draws }.setCore n q.1.core).countCore n 0x0D q.1.sat).retire n)) ∧
      (∀ e, q.2 = some e → exec (.epi n d) s =
        .next ((({ s with draws := q.1.draws }.setCore n q.1.core).countCore n 0x0D q.1.sat).coreFault n e)) ∧
      ((∀ l ∈ c.matLines m, (c.rotLine l).isSome = true) → r.2 = none → ∃ t, exec (.mma n d) s = .next t ∧
        (t.core n).mode = r.1.core.mode ∧ (t.core n).regs = { r.1.core.regs with pc := r.1.core.regs.pc + 16 } ∧
        (t.core n).mem = r.1.core.mem ∧ (t.core n).sregs = r.1.core.sregs ∧ (t.core n).rotHeld = [] ∧ t.draws = r.1.draws ∧
        t.mem = s.mem ∧ ∀ k, k ≠ n → t.core k = s.core k) ∧
      ((∃ l ∈ c.matLines m, (c.rotLine l).isSome = false) → ∃ t, exec (.mma n d) s = .next t ∧ (t.core n).flags.rotStall = true ∧
        (t.core n).rotFills = ((c.matLines m).filter (fun l => (c.rotLine l).isNone)).take 32 ∧ (t.core n).mem = c.mem ∧ (t.core n).regs = c.regs ∧
        t.mem = s.mem) ∧
      exec (.mma n d) s = .next (s.withRot n (c.matLines m) (fun s =>
        if ((s.matRun n).exec m true []).2.isSome then s.finishMat n ((s.matRun n).exec m true [])
        else ((s.finishMat n ((s.matRun n).exec m true [])).countCore n 0x07 m.macs.1).countCore n 0x08 m.macs.2))) ∧
    (∃ t, exec (.zero n slots) s = .next (t.retire n) ∧
      (∀ k < 8, ∀ i < 32768, (t.core n).mem.acc.get (32768 * k + i) = if slots.getLsbD k then 0 else c.mem.acc.get (32768 * k + i)) ∧
      (∀ k < 8, ∀ i < 2048, (t.core n).mem.accPoison.get (2048 * k + i) = if slots.getLsbD k then 0 else c.mem.accPoison.get (2048 * k + i)) ∧
      t = s.setCore n { c with mem := { c.mem with acc := (t.core n).mem.acc, accPoison := (t.core n).mem.accPoison } })

/-- R91, R151, R153: CHAIN reads its descriptor and its steps' descriptors whole: beyond the store it faults with OPERAND_OVERFLOW, poisoned
with POISON_BRANCH; a malformed one is rejected with TILE_SHAPE before any effect. A legal chain whose rotary lines are present runs its
steps one after another: if every one ends whole it retires, with CORE_PC at the next instruction and unified memory as it was. -/
def Obligations.ChainClass : Prop :=
  ∀ (s : State) (n : CoreNo), s.ready n .compute = true → ∀ (d : DescArg),
    let c := s.core n
    (∀ e, c.descAddr d = .error e → exec (.chain n d) s = .next (s.coreFault n e)) ∧
    (∀ a, c.descAddr d = .ok a →
      (storeSize < a + 64 → exec (.chain n d) s = .next (s.coreFault n (errStore (a + 64)))) ∧
      (a + 64 ≤ storeSize → c.stBad a 64 = true → exec (.chain n d) s = .next (s.coreFault n errPoison)) ∧
      (a + 64 ≤ storeSize → c.stBad a 64 = false → chainSteps (c.stRead a 64) = none →
        exec (.chain n d) s = .next (s.coreFault n (errShape 0 0))) ∧
      (a + 64 ≤ storeSize → c.stBad a 64 = false → ∀ ts e, chainSteps (c.stRead a 64) = some ts → c.readSteps ts = .error e →
        exec (.chain n d) s = .next (s.coreFault n e)) ∧
      (a + 64 ≤ storeSize → c.stBad a 64 = false → ∀ ts l0, chainSteps (c.stRead a 64) = some ts → c.readSteps ts = .ok l0 →
        let l := linkSteps none l0
        chainBad none l = false → chainFuse l = none →
        (∀ x ∈ l, ∀ k ∈ c.matLines x.2, (c.rotLine k).isSome = true) →
        let r := (s.matRun n).steps [] 0 (l.map (·.2))
        (r.2.1 = none → ∃ t, exec (.chain n d) s = .next t ∧ (t.core n).mode = r.1.core.mode ∧
          (t.core n).regs = { r.1.core.regs with pc := r.1.core.regs.pc + 16 } ∧ (t.core n).mem = r.1.core.mem ∧
          (t.core n).sregs = r.1.core.sregs ∧ (t.core n).rotHeld = [] ∧ t.draws = r.1.draws ∧ t.mem = s.mem ∧ ∀ k, k ≠ n → t.core k = s.core k) ∧
        (∀ e, r.2.1 = some e → ∃ t, exec (.chain n d) s = .next t ∧ (t.core n).mem = r.1.core.mem ∧ t.mem = s.mem)))

/-- R87, R92, R158, R174, R181, R184: an attention instruction reads its descriptor whole: beyond the store it faults with
OPERAND_OVERFLOW, poisoned with POISON_BRANCH, rejected with TILE_SHAPE. A legal one whose rotary lines are present runs its sequence: a run
that ends whole retires, with the core's stores as the run left them, CORE_PC at the next instruction, and unified memory and every other
core as they were. -/
def Obligations.AttentionClass : Prop :=
  ∀ (s : State) (n : CoreNo), s.ready n .compute = true → ∀ (d : DescArg) (a : Nat), (s.core n).descAddr d = .ok a →
    let c := s.core n
    let whole (i : Instr) (r : AttnRun × Option CoreErr) : Prop :=
      r.2 = none → ∃ t, exec i s = .next t ∧ (t.core n).mode = r.1.x.core.mode ∧
        (t.core n).regs = { r.1.x.core.regs with pc := r.1.x.core.regs.pc + 16 } ∧ (t.core n).mem = r.1.x.core.mem ∧
        t.draws = r.1.x.draws ∧ t.mem = s.mem ∧ ∀ k, k ≠ n → t.core k = s.core k
    (storeSize < a + 64 → exec (.attnMerge n d) s = .next (s.coreFault n (errStore (a + 64)))) ∧
    (a + 64 ≤ storeSize → c.stBad a 64 = true → exec (.attnMerge n d) s = .next (s.coreFault n errPoison)) ∧
    (storeSize < a + 128 →
      exec (.attnFwd n d) s = .next (s.coreFault n (errStore (a + 128))) ∧
      exec (.attnDec n d) s = .next (s.coreFault n (errStore (a + 128))) ∧
      exec (.attnBwd n d) s = .next (s.coreFault n (errStore (a + 128)))) ∧
    (a + 64 ≤ storeSize → c.stBad a 64 = false →
      exec (.attnMerge n d) s = .next (s.finishAttn n ((s.attnRun n).mergeAll (MergeDesc.ofBytes (c.stRead a 64)) a)) ∧
      whole (.attnMerge n d) ((s.attnRun n).mergeAll (MergeDesc.ofBytes (c.stRead a 64)) a)) ∧
    (a + 128 ≤ storeSize → c.stBad a 128 = true →
      exec (.attnFwd n d) s = .next (s.coreFault n errPoison) ∧
      exec (.attnDec n d) s = .next (s.coreFault n errPoison) ∧
      exec (.attnBwd n d) s = .next (s.coreFault n errPoison)) ∧
    (a + 128 ≤ storeSize → c.stBad a 128 = false →
      (∀ dec x, x = AttnDesc.ofBytes dec (c.stRead a 128) →
        (attnLegal x (c.blockList x) = false →
          exec (if dec then .attnDec n d else .attnFwd n d) s = .next (s.coreFault n (errShape 0 0))) ∧
        (attnLegal x (c.blockList x) = true →
          exec (if dec then .attnDec n d else .attnFwd n d) s =
            .next (s.withRot n (c.attnLines x) (fun s => s.finishAttn n ((s.attnRun n).forward x dec a))) ∧
          ((∀ l ∈ c.attnLines x, (c.rotLine l).isSome = true) →
            whole (if dec then .attnDec n d else .attnFwd n d) ((s.attnRun n).forward x dec a)))) ∧
      (∀ x, x = BwdDesc.ofBytes (c.stRead a 128) →
        (bwdLegal x (c.tileList x) = false → exec (.attnBwd n d) s = .next (s.coreFault n (errShape 0 0))) ∧
        (bwdLegal x (c.tileList x) = true →
          exec (.attnBwd n d) s = .next (s.withRot n (c.bwdLines x) (fun s => s.finishAttn n ((s.attnRun n).backward x a))) ∧
          ((∀ l ∈ c.bwdLines x, (c.rotLine l).isSome = true) → whole (.attnBwd n d) ((s.attnRun n).backward x a)))))

/-- R93, R94: a lane operation writes its result to vd and marks the lane groups its sources mark; moves copy a register, a blotter row
or a scalar; each retires. -/
def Obligations.VectorLanes : Prop :=
  ∀ (s : State) (n : CoreNo), s.ready n .compute = true → ∀ (vd va vc : VReg) (vb : VSrc) (ss : SReg) (row : BitVec 7) (reg : BitVec 2),
    let c := s.core n
    let done (c : Core) : Host.Outcome State Fault Refusal := .next ((s.setCore n c).retire n)
    let two (f : W32 → W32 → W32) : Host.Outcome State Fault Refusal :=
      done (c.vout vd (List.zipWith f (c.vget va) (c.vsrc vb)) (orMarks (c.vbad va) (c.vsrcBad vb)))
    let one (f : W32 → W32) : Host.Outcome State Fault Refusal := done (c.vout vd ((c.vget va).map f) (c.vbad va))
    exec (.vadd n vd va vb) s = two f32Add ∧
    exec (.vsub n vd va vb) s = two f32Sub ∧
    exec (.vmul n vd va vb) s = two f32Mul ∧
    exec (.vmax n vd va vb) s = two f32Max ∧
    exec (.vmin n vd va vb) s = two f32Min ∧
    exec (.vcmpgt n vd va vb) s = two f32CmpGt ∧
    exec (.vldexp n vd va vb) s = two ldexpLane ∧
    exec (.vabs n vd va) s = one f32Abs ∧
    exec (.vneg n vd va) s = one f32Neg ∧
    exec (.vexpo n vd va) s = one f32Expo ∧
    exec (.exp2 n vd va) s = one f32Exp2 ∧
    exec (.log2 n vd va) s = one f32Log2 ∧
    exec (.vfma n vd va vb vc) s = done (c.lane3 vd va vb vc f32Fma) ∧
    exec (.vsel n vd va vb vc) s = done (c.lane3 vd va vb vc (fun a b z => if (valOf z).isZero then b else a)) ∧
    exec (.vredsum n vd va) s = done (c.vout vd (treeFold f32Add 8 (c.vget va) :: List.replicate 255 0)
      ((c.vbad va).any id :: List.replicate 15 false)) ∧
    exec (.vredmax n vd va) s = done (c.vout vd (treeFold f32Max 8 (c.vget va) :: List.replicate 255 0)
      ((c.vbad va).any id :: List.replicate 15 false)) ∧
    exec (.vldb n vd row reg) s = done (c.vout vd (c.bget row.toNat reg.toNat) (c.bbad row.toNat reg.toNat)) ∧
    exec (.vstb n va row reg) s = done ((c.bset row.toNat reg.toNat (c.vget va) (c.vbad va)).seen ((c.vbad va).any id)) ∧
    exec (.vmovs n vd ss) s = done (c.vout vd (List.replicate 256 ((c.sget ss).setWidth 32)) (List.replicate 16 (c.sbad ss))) ∧
    exec (.vext n ss va) s = done ((c.sset ss (((c.vget va).headD 0).setWidth 64) ((c.vbad va).headD false)).seen ((c.vbad va).headD false))

/-- R93: VLD, VST and VCVT convert 256 elements of an allowed format at a 64 B aligned address of the store; a format or rounding that is
not allowed faults with TILE_SHAPE, a misaligned address with MISALIGNED, one beyond the store with OPERAND_OVERFLOW. R94: EXP2B works in
place on its rows. The address is legal exactly when its base is not poisoned, it is 64 B aligned and its elements end within the 3 MiB
store; the first rule broken, in this order, names the fault. -/
def Obligations.VectorMemory : Prop :=
  (∀ (s : State) (n : CoreNo), s.ready n .compute = true → ∀ (vd va : VReg) (addr : StAddr) (fmt : Byte) (rnd : BitVec 2),
    let c := s.core n
    (vecFmt fmt = none →
      exec (.vld n vd addr fmt) s = .next (s.coreFault n (errShape 0 8)) ∧
      exec (.vst n va addr fmt rnd) s = .next (s.coreFault n (errShape 0 8)) ∧
      exec (.vcvt n vd va fmt rnd) s = .next (s.coreFault n (errShape 0 8))) ∧
    (vecRnd rnd = none →
      exec (.vst n va addr fmt rnd) s = .next (s.coreFault n (errShape 0 8)) ∧
      exec (.vcvt n vd va fmt rnd) s = .next (s.coreFault n (errShape 0 8))) ∧
    (∀ f, vecFmt fmt = some f → ∀ e, c.vecAddr addr (f.bytesFor 256) = .error e → exec (.vld n vd addr fmt) s = .next (s.coreFault n e)) ∧
    (∀ f a, vecFmt fmt = some f → c.vecAddr addr (f.bytesFor 256) = .ok a →
      exec (.vld n vd addr fmt) s = .next ((s.setCore n (c.vout vd ((List.range 256).map (fun i => widen f (getElem c.mem.store f a i)))
        ((List.range 16).map (fun g => c.stBad (a + g * f.bytesFor 16) (f.bytesFor 16))))).retire n)) ∧
    (∀ f r, vecFmt fmt = some f → vecRnd rnd = some r → let q := convertList f r c.regs.rngState (c.vget va)
      (∀ e, c.vecAddr addr (f.bytesFor 256) = .error e → exec (.vst n va addr fmt rnd) s = .next (s.coreFault n e)) ∧
      (∀ a, c.vecAddr addr (f.bytesFor 256) = .ok a →
        exec (.vst n va addr fmt rnd) s = .next (((s.setCore n
          ((({ c with regs := { c.regs with rngState := q.2.2 } }).stWrite a (packElems f q.1) (fun i =>
            (((c.vbad va).drop (i * (64 / f.bytesFor 16))).take (64 / f.bytesFor 16)).any id)).seen ((c.vbad va).any id))).countCore n 0x0D q.2.1).retire n)) ∧
      exec (.vcvt n vd va fmt rnd) s = .next (((s.setCore n
        (({ c with regs := { c.regs with rngState := q.2.2 } }).vout vd (q.1.map (widen f)) (c.vbad va))).countCore n 0x0D q.2.1).retire n)) ∧
    (∀ (vm : VReg) (first : BitVec 7) (count : Byte) (region : BitVec 2) (k : W32), 1 ≤ count.toNat → first.toNat + count.toNat ≤ 128 →
      exec (.exp2b n vm first count region k) s = .next ((s.setCore n ((List.range count.toNat).foldl (fun c i =>
        c.exp2Row vm region.toNat k (first.toNat + i)) c)).retire n))) ∧
  (∀ (c : Core) (x : StAddr) (bytes : Nat),
    let base : W64 := match x.base with
      | some r => c.sget r
      | none => 0
    let bad : Bool := match x.base with
      | some r => c.sbad r
      | none => false
    let a := (base + x.addr.setWidth 64).toNat
    (bad = true → c.vecAddr x bytes = .error errPoison) ∧
    (bad = false → a % 64 ≠ 0 → c.vecAddr x bytes = .error errMisaligned) ∧
    (bad = false → a % 64 = 0 → 0x300000 < a + bytes → c.vecAddr x bytes = .error (errStore (a + bytes))) ∧
    (bad = false → a % 64 = 0 → a + bytes ≤ 0x300000 → c.vecAddr x bytes = .ok a))

/-! Compute cores: transfers, streams, flags, collective steps (chapters 4, 15) -/

/-- R95, R101: what stops a LOAD or a STORE before any effect, in this order: a length off the list (BAD_INSTR), a poisoned base or context
scalar (POISON_BRANCH), an address that is not 64 B aligned (MISALIGNED); a load under a closed snapshot fails with OLD_SNAPSHOT (R254). A
load whose pages all translate within the operand store retires with the granules read and their marks in the store; a transfer beyond the
store faults with OPERAND_OVERFLOW. A store retires when its runs went out, and faults with the error that stopped them; within one page
that translates, what goes out is the bytes of the store and the marks of its granules, as the core's folio has it (R240). -/
def Obligations.LoadStore : Prop :=
  ∀ (s : State) (n : CoreNo), s.ready n .transfer = true → ∀ (m : MemArg) (st : BitVec 22) (len : BitVec 21),
    let c := s.core n
    let a := (c.sget m.sa + m.imm.signExtend 64).toNat
    let bad : Bool := match m.ctx with
      | some sc => c.sbad m.sa || c.sbad sc
      | none => c.sbad m.sa
    let legal := len.toNat % 64 = 0 ∧ 64 ≤ len.toNat ∧ len.toNat ≤ 1048576
    let space : Nat × Nat := match m.ctx with
      | none => (0, 0)
      | some sc => (1, (c.sget sc).toNat % 65536)
    let done (u : State) : Host.Outcome State Fault Refusal := .next ((u.countCore n 0x1B (len.toNat / 64)).retire n)
    (¬ legal → exec (.load n m st len) s = .next (s.coreFault n errBadInstr) ∧ exec (.store n m st len) s = .next (s.coreFault n errBadInstr)) ∧
    (legal → bad = true →
      exec (.load n m st len) s = .next (s.coreFault n errPoison) ∧ exec (.store n m st len) s = .next (s.coreFault n errPoison)) ∧
    (legal → bad = false → (a % 64 ≠ 0 ∨ st.toNat % 64 ≠ 0) →
      exec (.load n m st len) s = .next (s.coreFault n errMisaligned) ∧ exec (.store n m st len) s = .next (s.coreFault n errMisaligned)) ∧
    (legal → bad = false → a % 64 = 0 → st.toNat % 64 = 0 →
      (s.snapGone n = true → exec (.load n m st len) s = .next (s.coreFault n (coreErr 0x0304))) ∧
      (storeSize < st.toNat + len.toNat → exec (.store n m st len) s = .next (s.coreFault n (errStore (st.toNat + len.toNat))) ∧
        (s.snapGone n = false → exec (.load n m st len) s = .next (s.coreFault n (errStore (st.toNat + len.toNat))))) ∧
      (s.snapGone n = false → st.toNat + len.toNat ≤ storeSize → ∀ ts,
        s.translateAll (s.coreReq n space.1 space.2 a 0) (pagePieces a len.toNat) = .ok ts →
        let q := s.coreReq n space.1 space.2 a 0
        let u := (s.readPath n q (pagePieces a len.toNat) ts).touchTrans 0 (some q.part) ts
        let gs := u.transGrans q.view ts
        let marks := gs.map (fun g => g.poison)
        exec (.load n m st len) s = done ((u.modCore n (fun c =>
          (c.stWrite st.toNat (gs.flatMap (fun g => granBytes g.data)) (fun i => marks.getD i false)).seen (marks.any id))).countCore n 0x1A
          (marks.filter id).length)) ∧
      (∀ u, s.storeRuns n space.1 space.2 [⟨a, st.toNat, len.toNat⟩] = (u, none) → exec (.store n m st len) s = done u) ∧
      (∀ u e, s.storeRuns n space.1 space.2 [⟨a, st.toNat, len.toNat⟩] = (u, some e) →
        exec (.store n m st len) s = .next (u.coreFault n e)) ∧
      (st.toNat + len.toNat ≤ storeSize → pagePieces a len.toNat = [(a, len.toNat)] → ∀ x u,
        s.translate (s.coreReq n space.1 space.2 a 1) = .ok x →
        (s.writePath n (s.coreReq n space.1 space.2 a 1) x len.toNat).coreStore n
          (transPieces [(x, len.toNat)] (c.stRead st.toNat len.toNat) (fun i => c.granBad (st.toNat + 64 * i))) = .ok u →
        exec (.store n m st len) s = done (u.modCore n (fun c => c.seen (c.stBad st.toNat len.toNat)))))

/-- R98, R99: the descriptor forms: a misaligned, overflowing, poisoned or rejected descriptor faults the core; a legal one runs row by row
(LOAD2D, STORE2D) or id by id from the head of the stream queue (GATHER, SCATTER), whose ids are consumed. The instruction retires when all
its rows or elements were transferred, and faults with the error of the first that failed; a load or a gather under a closed snapshot fails
with OLD_SNAPSHOT (R254), its queue untouched. -/
def Obligations.Descriptors : Prop :=
  ∀ (s : State) (n : CoreNo), s.ready n .transfer = true → ∀ (st : BitVec 22),
    let c := s.core n
    let done (d : XferDesc) (u : State) : Host.Outcome State Fault Refusal := .next ((u.countCore n 0x1B (d.num * d.size / 64)).retire n)
    let taken (d : XferDesc) : State := s.modCore n (fun c => { c with streamq := c.streamq.drop d.num })
    (∀ e, c.readXfer st.toNat 3 0 65536 (2 ^ 20) = .error e → exec (.load2d n st) s = .next (s.coreFault n e)) ∧
    (∀ e, c.readXfer st.toNat 3 1 65536 (2 ^ 20) = .error e → exec (.store2d n st) s = .next (s.coreFault n e)) ∧
    (∀ e, c.readStream st.toNat 0 = .error e → exec (.gather n st) s = .next (s.coreFault n e)) ∧
    (∀ e, c.readStream st.toNat 1 = .error e → exec (.scatter n st) s = .next (s.coreFault n e)) ∧
    (∀ d, c.readXfer st.toNat 3 0 65536 (2 ^ 20) = .ok d →
      (s.snapGone n = true → exec (.load2d n st) s = .next (s.coreFault n (coreErr 0x0304))) ∧
      (s.snapGone n = false →
        (∀ u, s.loadRuns n d.space d.ctx d.runs d.runs = (u, none) → exec (.load2d n st) s = done d u) ∧
        (∀ u e, s.loadRuns n d.space d.ctx d.runs d.runs = (u, some e) → exec (.load2d n st) s = .next (u.coreFault n e)))) ∧
    (∀ d, c.readXfer st.toNat 3 1 65536 (2 ^ 20) = .ok d →
      (∀ u, s.storeRuns n d.space d.ctx d.runs = (u, none) → exec (.store2d n st) s = done d u) ∧
      (∀ u e, s.storeRuns n d.space d.ctx d.runs = (u, some e) → exec (.store2d n st) s = .next (u.coreFault n e))) ∧
    (∀ d ids, c.readStream st.toNat 0 = .ok (d, ids) →
      (s.snapGone n = true → exec (.gather n st) s = .next (s.coreFault n (coreErr 0x0304))) ∧
      (s.snapGone n = false →
        (∀ u, (taken d).loadRuns n d.space d.ctx (d.elems ids) (d.elems ids) = (u, none) → exec (.gather n st) s = done d u) ∧
        (∀ u e, (taken d).loadRuns n d.space d.ctx (d.elems ids) (d.elems ids) = (u, some e) → exec (.gather n st) s = .next (u.coreFault n e)))) ∧
    (∀ d ids, c.readStream st.toNat 1 = .ok (d, ids) →
      (∀ u, (taken d).storeRuns n d.space d.ctx (d.elems ids) = (u, none) → exec (.scatter n st) s = done d u) ∧
      (∀ u e, (taken d).storeRuns n d.space d.ctx (d.elems ids) = (u, some e) → exec (.scatter n st) s = .next (u.coreFault n e)))

/-- R62, R95, R97, R99: STREAM.LD appends its ids to the stream queue and faults with STREAM_OVERFLOW past 4,096 entries; SEND puts its
units on the mesh for every core of its rectangle and retires when all of them take data, PART_SHAPE stopping one whose rectangle leaves the
partition and DEST_DOWN one that reaches a core that takes none; RECV takes the units of its stream and retires with the last, waiting for
those still to come. A length off the list faults with BAD_INSTR, a store address that is not 64 B aligned (SEND, RECV) with MISALIGNED, a
stretch beyond the operand store with OPERAND_OVERFLOW. The cores of a multicast before the one that is down get their data (log 159, the
model's choice). -/
def Obligations.Streams : Prop :=
  ∀ (s : State) (n : CoreNo), s.ready n .transfer = true → ∀ (st : BitVec 22) (len : BitVec 21) (tag : Byte) (wide : Bool) (a b : CoreNo),
    let c := s.core n
    let legal := len.toNat % 64 = 0 ∧ 64 ≤ len.toNat ∧ len.toNat ≤ 1048576
    let done (u : State) : Host.Outcome State Fault Refusal := .next ((u.countCore n 0x1B (len.toNat / 64)).retire n)
    let ids := c.streamIds st.toNat len.toNat wide
    (¬ legal → exec (.streamLd n st len wide) s = .next (s.coreFault n errBadInstr) ∧
      exec (.send n st len tag a b) s = .next (s.coreFault n errBadInstr) ∧ exec (.recv n st len tag a) s = .next (s.coreFault n errBadInstr)) ∧
    (legal → st.toNat % 64 ≠ 0 → exec (.send n st len tag a b) s = .next (s.coreFault n errMisaligned) ∧
      exec (.recv n st len tag a) s = .next (s.coreFault n errMisaligned)) ∧
    (legal → storeSize < st.toNat + len.toNat →
      exec (.streamLd n st len wide) s = .next (s.coreFault n (errStore (st.toNat + len.toNat))) ∧
      (st.toNat % 64 = 0 → exec (.send n st len tag a b) s = .next (s.coreFault n (errStore (st.toNat + len.toNat))) ∧
        exec (.recv n st len tag a) s = .next (s.coreFault n (errStore (st.toNat + len.toNat))))) ∧
    (legal → st.toNat + len.toNat ≤ storeSize →
      (4096 < c.streamq.length + ids.length → exec (.streamLd n st len wide) s =
        .next (s.coreFault n ⟨0x0106, 4, false, 0, ids.length, 4096 - c.streamq.length, none⟩)) ∧
      (c.streamq.length + ids.length ≤ 4096 → exec (.streamLd n st len wide) s =
        done (s.setCore n ({ c with streamq := c.streamq ++ ids }.seen (c.stBad st.toNat len.toNat)))) ∧
      (st.toNat % 64 = 0 →
        (∀ d ∈ rectCores a b, s.sameRect n d = false → exec (.send n st len tag a b) s = .next (s.coreFault n (coreErr 0x0405))) ∧
        ((∀ d ∈ rectCores a b, s.sameRect n d = true) →
          let us := c.units st.toNat len.toNat
          let u := s.modCore n (fun c => c.seen (us.any (·.2)))
          let sent (l : List CoreNo) : State := { u with mesh := { u.mesh with sends := u.mesh.sends ++ l.map (fun d => ⟨n, d, tag.toNat, us⟩) } }
          ((∀ d ∈ rectCores a b, (s.core d).accepts = true) → exec (.send n st len tag a b) s = done (sent (rectCores a b))) ∧
          (∀ l d r, rectCores a b = l ++ d :: r → (∀ k ∈ l, (s.core k).accepts = true) → (s.core d).accepts = false →
            exec (.send n st len tag a b) s = .next ((sent l).coreFault n (coreErr 0x010B)))) ∧
        (∀ c1 at_ left, c.takeUnits a tag.toNat st.toNat (len.toNat / 64) = (c1, at_, left) →
          (left = 0 → exec (.recv n st len tag a) s = done (s.setCore n c1)) ∧
          (left ≠ 0 → exec (.recv n st len tag a) s = .next ((s.setCore n c1).beginWait n (.recv a tag.toNat at_ left))))))

/-- R61, R62, R97: data on its way to a core, that of any of its sends, lands at the end of the core's inbound queue in the order of its
stream, as much as 512 units have room for; the rest stays on the mesh. A core that takes no data (OFF, CUT, in soft reset) drops it. An
acknowledgement ends the oldest store that waits on no intent. -/
def Obligations.Arrivals : Prop :=
  ∀ (s : State) (n : CoreNo),
    (∀ (i : Nat), takeNth (fun m : MeshSend => decide (m.dst = n)) i s.mesh.sends = none → exec (.inboundDataArrival n i) s = .next s) ∧
    (∀ (i : Nat) (x y : MeshSend × List MeshSend), takeNth (fun m : MeshSend => decide (m.dst = n)) i s.mesh.sends = some x →
      takeNth (fun m : MeshSend => decide (m.dst = n) && decide (m.src = x.1.src) && decide (m.tag = x.1.tag)) 0 s.mesh.sends = some y →
      let room := 512 - (s.core n).inbound.length
      ((s.core n).accepts = false → ∃ t, exec (.inboundDataArrival n i) s = .next t ∧ t = { s with mesh := t.mesh } ∧ t.mesh.sends = y.2) ∧
      ((s.core n).accepts = true → (s.core n).wait = none → ∃ t, exec (.inboundDataArrival n i) s = .next t ∧
        t.core n = { s.core n with inbound := (s.core n).inbound ++ (y.1.data.take room).map (fun u => ⟨y.1.src, y.1.tag, u.1, u.2⟩) } ∧
        (y.1.data.length ≤ room → t.mesh.sends = y.2) ∧
        (room < y.1.data.length → t.mesh.sends = { y.1 with data := y.1.data.drop room } :: y.2) ∧
        (∀ k, k ≠ n → t.core k = s.core k) ∧ t.mem = s.mem) ∧
      (∀ w, (s.core n).accepts = true → (s.core n).wait = some w → y.1.data.length ≤ room → exec (.inboundDataArrival n i) s =
        .next ((({ s with mesh := { s.mesh with sends := y.2 } } : State).modCore n (fun c => { c with
          inbound := c.inbound ++ y.1.data.map (fun u => ⟨y.1.src, y.1.tag, u.1, u.2⟩) })).wakeInbound n))) ∧
    (∀ (o : OutStore) (rest : List OutStore), takeNth (fun o : OutStore => !o.held) 0 (s.core n).outStores = some (o, rest) →
      exec (.transferAck n) s = .next (s.modCore n (fun c => { c with outStores := rest }))) ∧
    (takeNth (fun o : OutStore => !o.held) 0 (s.core n).outStores = none → exec (.transferAck n) s = .next s)

/-- R59, R60: an instruction that reads rotary lines runs when all are present; otherwise nothing of it runs: at most 32 missing lines are
asked for, and the operand path stalls. ROTPRE fills the lines of its stretch at CORE_ROT_BASE + sa + imm and retires, or faults with the
error of the line that failed; its illegal forms fault first. A missed line that arrives, in any order, is held with its mark, and the
operand path goes on with the last one; one that fails translation, or is read under a closed snapshot, faults the core. An invalidate
empties the cache at once, or is noted until the next phase boundary of a RUNNING core. -/
def Obligations.RotaryCache : Prop :=
  ∀ (s : State) (n : CoreNo),
    (∀ (lines : List Nat) (body : State → State),
      ((∀ l ∈ lines, ((s.core n).rotLine l).isSome = true) →
        (s.withRot n lines body).mem = (body s).mem ∧ ∀ m, m ≠ n → (s.withRot n lines body).core m = (body s).core m) ∧
      ((∃ l ∈ lines, ((s.core n).rotLine l).isSome = false) →
        ((s.withRot n lines body).core n).flags.rotStall = true ∧ ((s.withRot n lines body).core n).rotFills ≠ [] ∧
        ((s.withRot n lines body).core n).rotFills.length ≤ 32 ∧ ((s.withRot n lines body).core n).mem = (s.core n).mem ∧
        ((s.withRot n lines body).core n).regs = (s.core n).regs ∧ (s.withRot n lines body).mem = s.mem)) ∧
    (s.ready n .transfer = true → ∀ (sa : SReg) (imm : W32) (len : BitVec 21),
      let legal := len.toNat % 64 = 0 ∧ 64 ≤ len.toNat ∧ len.toNat ≤ 1048576
      let fill := s.rotFillAll n (linesOf ((s.core n).regs.rotBase + (s.core n).sget sa + imm.signExtend 64).toNat len.toNat)
      (¬ legal → exec (.rotpre n sa imm len) s = .next (s.coreFault n errBadInstr)) ∧
      (legal → (s.core n).sbad sa = true → exec (.rotpre n sa imm len) s = .next (s.coreFault n errPoison)) ∧
      (legal → (s.core n).sbad sa = false → s.snapGone n = true → exec (.rotpre n sa imm len) s = .next (s.coreFault n (coreErr 0x0304))) ∧
      (legal → (s.core n).sbad sa = false → s.snapGone n = false →
        (∀ u, fill = (u, none) → exec (.rotpre n sa imm len) s = .next ((u.countCore n 0x1B (len.toNat / 64)).retire n)) ∧
        (∀ u e, fill = (u, some e) → exec (.rotpre n sa imm len) s = .next (u.coreFault n e)))) ∧
    (∀ (i l : Nat) (rest : List Nat), takeNth (fun _ : Nat => true) i (s.core n).rotFills = some (l, rest) →
      (s.snapGone n = true → exec (.rotaryFillArrival n i) s = .next (s.coreFault n (coreErr 0x0304))) ∧
      (s.snapGone n = false →
        (∀ e, s.readRotLine n l = .error e →
          exec (.rotaryFillArrival n i) s = .next ((s.pfRecord (s.core n).part e).coreFault n (errPage e))) ∧
        (∀ s1 x, s.readRotLine n l = .ok (s1, x) →
          ∃ t, exec (.rotaryFillArrival n i) s = .next t ∧ (t.core n).rotFills = rest ∧ (t.core n).flags.rotStall = decide (rest ≠ []) ∧
            (t.core n).rotHeld = (s1.core n).rotHeld ++ [x] ∧ (t.core n).rot = ((s1.core n).rotUse x).rot ∧ t.mem = s1.mem ∧
            (∀ k, k ≠ n → t.core k = s1.core k)))) ∧
    (∀ i, (s.core n).rotFills.length ≤ i → exec (.rotaryFillArrival n i) s = .next s) ∧
    ((s.core n).mode ≠ .running → exec (.rotInvalidate n) s =
      .next (s.modCore n (fun c => { c with rot := [], flags := { c.flags with invalBusy := false } }))) ∧
    ((s.core n).mode = .running → exec (.rotInvalidate n) s =
      .next (s.modCore n (fun c => { c with flags := { c.flags with invalBusy := true } })))

/-- R95, R96: WAITFLAG reads its 64-bit word at once, and retires when it meets the condition: equal, or with ge unsigned greater or equal;
otherwise the core waits, and each later poll does the same. A word that does not translate, or a closed snapshot (R254), faults the core.
SETFLAG writes its word and retires, but only when every earlier store and send is complete: it is unissued until then. A poisoned address
scalar or a misaligned address faults the core; a poisoned value or word faults a WAITFLAG with POISON_BRANCH (log 157, the model's
choice). -/
def Obligations.Flags : Prop :=
  ∀ (s : State) (n : CoreNo),
    let polled (a : Nat) (ge : Bool) (v : W64) (i : Instr) : Prop :=
      let q := s.coreReq n 0 0 a 0
      (s.snapGone n = true → exec i s = .next (s.coreFault n (coreErr 0x0304))) ∧
      (s.snapGone n = false → ∀ e, s.translate q = .error e → exec i s = .next ((s.pfRecord q.part e).coreFault n (errPage e))) ∧
      (s.snapGone n = false → ∀ x, s.translate q = .ok x →
        let u := (s.readPath n q [(a, 8)] [(x, 8)]).touch 0 (some q.part) x.ua 8
        let w := u.readLe q.view x.ua 8
        let bad := w.2 || bitOf x.entry 4
        let met : Bool := if ge then decide (v.toNat ≤ w.1) else decide (w.1 = v.toNat)
        (bad = true → exec i s = .next (u.coreFault n errPoison)) ∧
        (bad = false → met = true → exec i s = .next ((u.retire n).endWait n)) ∧
        (bad = false → met = false → (u.core n).wait ≠ some (.flag a ge v) → exec i s = .next (u.beginWait n (.flag a ge v))) ∧
        (bad = false → met = false → (u.core n).wait = some (.flag a ge v) → exec i s = .next u))
    (s.ready n .transfer = true → ∀ (sa sb : SReg) (imm : W32) (ge : Bool),
      let c := s.core n
      let a := (c.sget sa + imm.signExtend 64).toNat
      let q := s.coreReq n 0 0 a 1
      (c.sbad sa = true →
        exec (.waitflag n sa sb imm ge) s = .next (s.coreFault n errPoison) ∧ exec (.setflag n sa sb imm) s = .next (s.coreFault n errPoison)) ∧
      (c.sbad sb = true → exec (.waitflag n sa sb imm ge) s = .next (s.coreFault n errPoison)) ∧
      (c.sbad sa = false → a % 8 ≠ 0 → exec (.setflag n sa sb imm) s = .next (s.coreFault n errMisaligned) ∧
        (c.sbad sb = false → exec (.waitflag n sa sb imm ge) s = .next (s.coreFault n errMisaligned))) ∧
      (c.sbad sa = false → c.sbad sb = false → a % 8 = 0 → polled a ge (c.sget sb) (.waitflag n sa sb imm ge)) ∧
      (c.sbad sa = false → a % 8 = 0 → s.xferDone n = false → exec (.setflag n sa sb imm) s = .next s) ∧
      (c.sbad sa = false → a % 8 = 0 → s.xferDone n = true →
        (∀ e, s.translate q = .error e → exec (.setflag n sa sb imm) s = .next ((s.pfRecord q.part e).coreFault n (errPage e))) ∧
        (∀ x, s.translate q = .ok x →
          (∀ e, (s.writePath n q x 8).coreStore n [⟨x.ua, leBytes 8 (c.sget sb).toNat, c.sbad sb⟩] = .error e →
            exec (.setflag n sa sb imm) s = .next (s.coreFault n e)) ∧
          (∀ u, (s.writePath n q x 8).coreStore n [⟨x.ua, leBytes 8 (c.sget sb).toNat, c.sbad sb⟩] = .ok u →
            exec (.setflag n sa sb imm) s = .next ((u.countCore n 0x1B 1).retire n))))) ∧
    (∀ a ge v, (s.core n).mode = .running → (s.core n).wait = some (.flag a ge v) → polled a ge v (.waitflagPoll n))

/-- R87, R377 to R380, R386: a collective step reads its 64 B descriptor. A PUT whose fields fit its group sends its bytes to the rank it
names, through the transport of this module when the rank is here and by a fabric message otherwise, and retires when the message could be
accepted. A TAKE takes its sources in order while their ready entries hold the call's number: with the last it ends, retiring with its bytes
counted (after its laggard record when asked for one); at a source not ready it waits. A CCOUNT sends its count to every rank, and when every
rank's entry holds the call's number it writes the received counts and both running sums and retires; else it waits. A poll of a waiting TAKE
goes on from the first source not taken, one of a waiting CCOUNT looks at all entries again. A deadline that passes faults the core with
COLL_TIMEOUT, naming the first rank not ready. A descriptor off the format faults with BAD_ORDER. -/
def Obligations.CollectiveSteps : Prop :=
  ∀ (s : State) (n : CoreNo),
    let takes (b : List Byte) (g : Group) (first : Nat) (i : Instr) : Prop :=
      let d := StepDesc.ofBytes b
      ∀ (us : Nat → State) (k : Nat), us first = s → first ≤ k → k ≤ d.count →
        (∀ j, first ≤ j → j < k → (∃ x, (us j).takeReady n g d j = .ok (some x)) ∧ (us j).takeSource n g d j = (us (j + 1), none)) →
        (k = d.count → bitOf d.flags 4 = false →
          exec i s = .next ((((us k).countCore n 0x1B (d.count * d.bytes / 64)).retire n).endWait n)) ∧
        (k = d.count → bitOf d.flags 4 = true → exec i s = .next ((us k).endTake n g d)) ∧
        (k < d.count → (us k).takeReady n g d k = .ok none →
          ((us k).core n).wait = none → exec i s = .next ((us k).beginWait n (.take b (List.range k)))) ∧
        (k < d.count → (us k).takeReady n g d k = .ok none →
          ((us k).core n).wait ≠ none → exec i s = .next ((us k).modCore n (fun c => { c with wait := some (.take b (List.range k)) })))
    let counted (u : State) (b : List Byte) (g : Group) (i : Instr) : Prop :=
      ∀ cs, (List.range g.n).mapM (fun r => u.countReady n g (BitVec.ofNat 64 (leField b 24 8)) r) = .ok cs →
        let rc := cs.map (fun c => c.getD 0)
        let sc := (List.range g.n).map (fun j => (u.core n).stLe (leField b 4 4 + 4 * j) 4)
        (cs.any Option.isNone = false → exec i s = .next (((u.modCore n (fun c =>
          (c.stWrite (leField b 8 4) ((rc ++ runningSums rc ++ runningSums sc).flatMap (fun v => leBytes 4 v))
            ((u.core n).countsBad (leField b 4 4) (leField b 8 4) g.n)).seen ((u.core n).stBad (leField b 4 4) (4 * g.n)))).retire n).endWait n)) ∧
        (cs.any Option.isNone = true → ∃ t, exec i s = .next t ∧ (t.core n).wait = some (.ccount b ((List.range g.n).filter
          (fun r => (cs.getD r none).isSome))) ∧ (t.core n).regs = (u.core n).regs ∧ (t.core n).mem = (u.core n).mem ∧ t.mem = u.mem)
    (s.ready n .transfer = true → ∀ (a : DescArg) (at_ : Nat), (s.core n).descAddr a = .ok at_ → at_ + 64 ≤ storeSize →
      (s.core n).stBad at_ 64 = false →
      let b := (s.core n).stRead at_ 64
      let d := StepDesc.ofBytes b
      (stepOk b 1 = false → exec (.cstepPut n a) s = .next (s.coreFault n errBadOrder)) ∧
      (stepOk b 2 = false → exec (.cstepTake n a) s = .next (s.coreFault n errBadOrder)) ∧
      (countOk b = false → exec (.ccount n a) s = .next (s.coreFault n errBadOrder)) ∧
      (∀ g rk, stepOk b 1 = true → s.groupAt n d.group = .ok g → d.rank < g.n → d.slot < g.slots → d.off + d.bytes ≤ g.slotBytes →
        (d.srcMem = true ∨ (d.st % 64 = 0 ∧ d.st + d.bytes ≤ storeSize)) → s.rankAt n d.group d.rank = .ok rk →
        let src : TxSrc := if d.srcMem then .memory n (s.core n).part d.mem else .store n d.st
        let lead : CollLead := ⟨d.group, g.epoch, g.rank, d.slot, 0, d.off, 0, d.cseq⟩
        ∀ u, (u.core n).mode ≠ .faulted →
          ((rk.port = none ∧ rk.addr = s.address ∧ (s.part (partOf rk.part)).mode ≠ .unformed ∧
              s.sendLocal (partOf rk.part) lead.bytes d.bytes src = .ok u) ∨
            (∃ l port, rk.port = some l ∧ s.offer l = .ok port ∧ s.sendMessage (.core n (s.core n).regs.pc) (s.core n).part port 2
              ⟨2, d.flags % 4, 0, 0, rk.addr, 0, rk.part, ceilDiv d.bytes 65536, d.bytes, 0, [], lead.bytes⟩ src = .ok u)) →
          exec (.cstepPut n a) s = .next (((u.modCore n (fun c => if d.srcMem then c else c.seen (c.stBad d.st d.bytes))).countCore n 0x1B
            (d.bytes / 64)).retire n)) ∧
      (∀ g, stepOk b 2 = true → s.groupAt n d.group = .ok g → d.rank < g.n → d.count ≤ g.n → d.slot < g.slots →
        d.off + d.bytes ≤ g.slotBytes → d.st % 64 = 0 → d.st + (d.count - 1) * d.stride + d.bytes ≤ storeSize → takes b g 0 (.cstepTake n a)) ∧
      (∀ g rks, countOk b = true → s.groupAt n (leField b 16 8) = .ok g → leField b 4 4 % 4 = 0 → leField b 8 4 % 4 = 0 →
        leField b 4 4 + 4 * g.n ≤ storeSize → leField b 8 4 + 12 * g.n ≤ storeSize →
        (List.range g.n).mapM (fun r => s.rankAt n (leField b 16 8) r) = .ok rks →
        let u := (rks.zipIdx).foldl (fun (t : State) rk => if (t.core n).mode = .faulted then t else t.sendColl n rk.1
          ⟨leField b 16 8, g.epoch, g.rank, 0, 1, 0, (t.core n).stLe (leField b 4 4 + 4 * rk.2) 4, BitVec.ofNat 64 (leField b 24 8)⟩ 0 64 .zeros) s
        (u.core n).mode ≠ .faulted → counted u b g (.ccount n a))) ∧
    (∀ b seen g, (s.core n).mode = .running → (s.core n).wait = some (.take b seen) → s.groupAt n (leField b 32 8) = .ok g →
      seen.length ≤ (StepDesc.ofBytes b).count → takes b g seen.length (.collWaitPoll n)) ∧
    (∀ b seen g, (s.core n).mode = .running → (s.core n).wait = some (.ccount b seen) → s.groupAt n (leField b 16 8) = .ok g →
      counted s b g (.collWaitPoll n)) ∧
    (∀ w, (s.core n).mode = .running → (s.core n).wait = some w → w.deadline ≠ 0 → w.deadline < s.now →
      exec (.collDeadline n) s = .next (s.coreFault n { coreErr 0x040E with
        detail := some (u64s [(s.core n).regs.pc.toNat, s.firstMissing n w]) }))

/-! Compute cores: phases, control, registers (chapter 3) -/

/-- R64, R65, R66: an instruction of the other class asks the phase to end; a phase ends when its loads, stores and sends are complete, its
token passed on and a pending invalidate taken, and a cut that waits takes effect with it (R462); the turn leads to the next phase, a
transfer phase of a group only with the token; the free token of a group goes to the next requester, which enters its transfer phase. -/
def Obligations.Phases : Prop :=
  ∀ (s : State) (n : CoreNo),
    (∀ body, (s.core n).canIssue = true → (s.core n).pcIndex < 2048 → (s.core n).mem.progBad.get (s.core n).pcIndex ≠ 1 →
      ((s.core n).phase = .compute → s.issue n .transfer body = s.endPhase n .transfer) ∧
      ((s.core n).phase = .transfer → s.issue n .compute body = s.endPhase n .compute)) ∧
    ((s.core n).mode = .running → (s.core n).flags.ending = true → (s.core n).wait = none → (s.core n).flags.rotStall = false →
      s.xferDone n = true →
      exec (.phaseEnd n) s = .next (((s.dropToken n).modCore n (fun c => { c.applyInval with
        phase := .turn, flags := { c.applyInval.flags with ending := false } })).atBoundary n) ∧
      ((s.core n).flags.cutReq = false → (s.core n).flags.invalBusy = false → exec (.phaseEnd n) s =
        .next ((s.dropToken n).modCore n (fun c => { c with phase := .turn, flags := { c.flags with ending := false } })))) ∧
    ((s.core n).flags.ending = true → s.xferDone n = false → exec (.phaseEnd n) s = .next s) ∧
    ((s.core n).mode = .running → (s.core n).phase = .turn →
      ((s.core n).nextPhase = .transfer → s.groupSize n = 1 ∨ s.holdsToken n = true → exec (.phaseTurnEnd n) s =
        .next (s.modCore n (fun c => { c with phase := .transfer, nextPhase := .none }))) ∧
      ((s.core n).nextPhase = .transfer → s.groupSize n ≠ 1 → s.holdsToken n = false → exec (.phaseTurnEnd n) s =
        .next (s.modCore n (fun c => { c with phase := .none, nextPhase := .none, flags := { c.flags with tokenWait := true } }))) ∧
      ((s.core n).nextPhase = .compute → exec (.phaseTurnEnd n) s =
        .next ((s.dropBallast n).modCore n (fun c => { c with phase := c.nextPhase, nextPhase := .none }))) ∧
      ((s.core n).nextPhase = .none → exec (.phaseTurnEnd n) s =
        .next (s.modCore n (fun c => { c with phase := .none, nextPhase := .none })))) ∧
    (∀ m rest, s.tokenFree n = true → s.tokenQueue n = m :: rest → ∃ t, exec (.groupTokenGrant n) s = .next t ∧
      t.mesh.holder = Tab.set none s.mesh.holder (s.groupKey n) (some m) ∧
      t.core m = { s.core m with phase := .transfer, flags := { (s.core m).flags with tokenWait := false } } ∧
      (∀ k, k ≠ m → t.core k = s.core k) ∧ t.mem = s.mem) ∧
    (s.tokenFree n = false ∨ s.tokenQueue n = [] → exec (.groupTokenGrant n) s = .next s)

/-- R71, R72, R76, R436, R462: the core state machine. Commands not accepted in the core's state set cmd_drop and do nothing else; an
accepted start runs when that of its group fits under the governor (log 183) and no start is held, and is held otherwise. A core counts the errors of its SRAM; at a
limit it is cut out: at once outside RUNNING, else at its next phase boundary. The watchdog of a RUNNING core that has none set to 0 ends
it with HANG. -/
def Obligations.CoreControl : Prop :=
  ∀ (s : State) (n : CoreNo) (priv : BitVec 2),
    let c := s.core n
    let drop : State := s.modCore n (fun c => { c with flags := { c.flags with cmdDrop := true } })
    (c.startOk = true → s.heldStarts = [] → s.groupFits n = true →
      exec (.coreStart n priv) s = .next ((s.addDemand (startCharge s.clock.rootStep)).modCore n (fun c => c.start priv))) ∧
    (c.startOk = true → (∀ h ∈ s.heldStarts, h.1 ≠ n) → (s.heldStarts ≠ [] ∨ s.groupFits n = false) →
      exec (.coreStart n priv) s = .next { s with power := { s.power with held := s.power.held ++ [.start n priv] } }) ∧
    (c.startOk = false → exec (.coreStart n priv) s = .next drop) ∧
    exec (.coreHalt n) s = .next (if c.mode = .running then s.modCore n (fun c => { c with flags := { c.flags with haltReq := true } }) else drop) ∧
    exec (.coreResume n) s = .next (if c.mode = .halted then s.modCore n (fun c => { c with mode := .running }) else drop) ∧
    (c.mode = .running → c.flags.haltReq = true → c.wait = none → c.flags.rotStall = false → s.xferDone n = true →
      exec (.haltComplete n) s = .next (((s.dropToken n).modCore n (fun c => { c.applyInval with
        mode := .halted, phase := .none, nextPhase := .none,
        flags := { c.applyInval.flags with haltReq := false, ending := false, tokenWait := false } })).atBoundary n) ∧
      (c.flags.cutReq = false → c.flags.invalBusy = false → exec (.haltComplete n) s = .next ((s.dropToken n).modCore n (fun c => { c with
        mode := .halted, phase := .none, nextPhase := .none,
        flags := { c.flags with haltReq := false, ending := false, tokenWait := false } })))) ∧
    (c.mode = .off ∨ c.mode = .cut → exec (.softReset n) s = .next drop) ∧
    (c.mode ≠ .off → c.mode ≠ .cut → exec (.softReset n) s = .next ((s.dropToken n).modCore n (fun c => { c with
      softReset := true, wait := none, rotFills := [], rotHeld := [],
      flags := { c.flags with tokenWait := false, rotStall := false, haltReq := false, ending := false } }))) ∧
    (c.softReset = true → s.xferDone n = true → c.load = none →
      exec (.softResetComplete n) s = .next ((s.modCore n Core.resetStores).atBoundary n)) ∧
    (c.softReset = true → s.xferDone n = true → c.load = none → c.flags.cutReq = false → ∃ t, exec (.softResetComplete n) s = .next t ∧
      (t.core n).mode = .idle ∧ (t.core n).mem = CoreStores.reset ∧ (t.core n).inbound = [] ∧ (t.core n).streamq = [] ∧
      (t.core n).fault = CoreFault.reset ∧ (t.core n).rot = [] ∧ (t.core n).softReset = false ∧ (t.core n).parity = c.parity ∧ t.mem = s.mem) ∧
    (c.mode = .running → c.regs.wdogEn = true → c.regs.wdogTimeout ≠ 0 → exec (.coreHang n) s = .next (s.coreFault n (coreErr 0x0109))) ∧
    (∀ lost fixed : Nat, c.mode ≠ .cut → c.mode ≠ .off →
      let u := (s.countSram (unitCore n) lost fixed).countCore n 0x19 fixed
      let limit : Bool := decide (s.dictVal 0x7010 1 ≤ (u.sramOf (unitCore n)).lost) || decide (s.dictVal 0x7010 2 ≤ (u.sramOf (unitCore n)).fixed)
      (limit = false → exec (.coreCut ⟨.core n, lost, fixed⟩) s = .next u) ∧
      (limit = true → c.mode = .running → exec (.coreCut ⟨.core n, lost, fixed⟩) s =
        .next (u.modCore n (fun c => { c with flags := { c.flags with cutReq := true } }))) ∧
      (limit = true → c.mode ≠ .running → exec (.coreCut ⟨.core n, lost, fixed⟩) s = .next (u.cutCore n))) ∧
    (∀ lost fixed : Nat, c.mode = .cut ∨ c.mode = .off → exec (.coreCut ⟨.core n, lost, fixed⟩) s = .next s)

/-- R73, R103, R118, R240, R254: the registers a RUNNING core does not take a write of set wr_drop; in another state they take it.
CORE_PROG_CTRL starts a load within the program buffer, refuses one beyond it with err, and keeps the fields of a write without load; while a
load is under way, or in a state that takes none, it drops the write but for the clear of err. A load that completes puts its words, as the
core's own reads see them, and their marks into the program buffer; one whose source does not translate, or whose snapshot is closed, sets
err, leaves its words undefined (free values) and is reported. A target of CORE_EVENT_CTRL outside the partition keeps the old one. -/
def Obligations.CoreRegisters : Prop :=
  ∀ (s : State) (n : CoreNo),
    let c := s.core n
    (∀ v : W64, c.mode = .running → exec (.coreRngSeedWrite n v) s = .next (s.modCore n Core.dropWr) ∧
      exec (.coreFolioWrite n v) s = .next (s.modCore n Core.dropWr)) ∧
    (∀ v : W64, c.mode ≠ .running →
      exec (.coreRngSeedWrite n v) s = .next (s.modCore n (fun c => { c with regs := { c.regs with rngSeed := v, rngState := loadSeed v } })) ∧
      exec (.coreFolioWrite n v) s = .next (s.modCore n (fun c => { c with regs := { c.regs with
        folio := BitVec.ofNat 64 (bits v.toNat 0 15 + bits v.toNat 16 27 * 2 ^ 16) } }))) ∧
    (∀ v : W32,
      let first := bits v.toNat 0 11
      let count := bits v.toNat 11 12
      let err := c.regs.progErr && !bitOf v.toNat 25
      let idle := c.mode = .idle ∨ c.mode = .halted ∨ c.mode = .faulted
      let took (e : Bool) (l : Option ProgLoad) : State := s.modCore n (fun c => { c with
        regs := { c.regs with progFirst := BitVec.ofNat 11 first, progCount := BitVec.ofNat 12 count, progErr := e }, load := l })
      (c.load.isSome = true ∨ (bitOf v.toNat 23 = true ∧ ¬ idle) → exec (.progLoad n v) s =
        .next (s.modCore n (fun c => { c with regs := { c.regs with progErr := err } }.dropWr))) ∧
      (c.load = none → bitOf v.toNat 23 = false → exec (.progLoad n v) s = .next (took err none)) ∧
      (c.load = none → bitOf v.toNat 23 = true → idle → count ≠ 0 → first + count ≤ 2048 →
        exec (.progLoad n v) s = .next (took err (some ⟨first, count, c.regs.progSrc.toNat⟩))) ∧
      (c.load = none → bitOf v.toNat 23 = true → idle → count = 0 ∨ 2048 < first + count → exec (.progLoad n v) s = .next (took true none))) ∧
    (∀ l, c.load = some l → let s0 := s.modCore n (fun c => { c with load := none })
      let q := s.coreReq n 0 0 l.src 0
      let failed (report : State → State) : Prop := ∃ ws : List W128, ws.length = l.count ∧ exec (.progLoadComplete n) s =
        .next (report ({ s0 with draws := s.draws + l.count }.modCore n (fun c =>
          { c.loadWords l.first (ws.map (fun w => (w, false))) with regs := { c.regs with progErr := true } })))
      (s.snapGone n = false → ∀ ts, s0.translateAll q (pagePieces l.src (16 * l.count)) = .ok ts →
        let s1 := (s0.readPath n q (pagePieces l.src (16 * l.count)) ts).touchTrans 0 (some q.part) ts
        let gs := s1.transGrans q.view ts
        exec (.progLoadComplete n) s = .next (s1.modCore n (fun c => c.loadWords l.first ((List.range l.count).map (fun i =>
          (BitVec.ofNat 128 (leField ((gs.flatMap (fun g => granBytes g.data)).drop (l.src % 64)) (16 * i) 16),
            match gs[(l.src % 64 + 16 * i) / 64]? with
            | some g => g.poison
            | none => false)))))) ∧
      (s.snapGone n = true → failed (fun t => t.report ⟨0x0304, (dieOfCore n).val, q.part.val, unitCore n, .operation, []⟩)) ∧
      (s.snapGone n = false → ∀ e, s0.translateAll q (pagePieces l.src (16 * l.count)) = .error e →
        failed (fun t => t.reportPF q.part (dieOfCore n).val (unitCore n) .operation e))) ∧
    (∀ v : W32, ∃ t, exec (.coreEventCtrlWrite n v) s = .next t ∧ (t.core n).ev.irqEn = bitOf v.toNat 18 ∧
      (t.core n).ev.pending = (c.ev.pending && !bitOf v.toNat 16) ∧ (t.core n).ev.ended = (c.ev.ended && !bitOf v.toNat 17) ∧
      (t.core n).ev.value = c.ev.value ∧ (t.core n).ev.count = c.ev.count ∧
      (s.rubricInPart n (bits v.toNat 19 5) = false → (t.core n).ev.target = c.ev.target ∧ (t.core n).flags.wrDrop = true) ∧
      (s.rubricInPart n (bits v.toNat 19 5) = true → (t.core n).ev.target = BitVec.ofNat 5 (bits v.toNat 19 5)))


/-! Time, power, registers (chapters 2, 13, 18, 21) -/

/-- R40, R41, R43, R322, R334, R342, R343: the time PLL, the exchange of TIME flits, the announcements on every port that is UP, and the latch
of the high half of GLB_TIME. A TIME flit goes out at once, or waits at its port while groups are to be replayed (R329); one that arrives
with a correct lcrc on an UP port is taken when it is authenticated and fresh (on a port that encrypts), and quarantines the port when its
tag fails. -/
def Obligations.GlobalTime : Prop :=
  ∀ (s : State),
    let sent (t : State) (p : PortNo) (k : Byte) : Prop := ∃ f, .flits p [f] ∈ t.out ∧ flitType f = some .time ∧ (flitBody f).take 1 = [k]
    let heard (p : PortNo) (m : TimeMsg) (k : Nat) : Prop := (s.port p).mode = .up ∧ flitOk m.flit = true ∧ flitType m.flit = some .time ∧
      leField (flitBody m.flit) 0 1 = k
    let good (p : PortNo) (m : TimeMsg) : Prop := (s.port p).encOn = false ∨
      (bodyTagOk m.flit ((s.port p).rxKey (flitPhase m.flit)) = true ∧ (s.port p).fresher (bodyUctr (flitBody m.flit)) = true)
    let seen (p : PortNo) (m : TimeMsg) : State :=
      if (s.port p).encOn then s.setPort p { s.port p with uctrRx := some (bodyUctr (flitBody m.flit)) } else s
    (s.modu.state ≠ .off ∨ s.plug.standbyRails = true → exec .timePllLock s = .next { s with clock := { s.clock with timeLock := true } }) ∧
    (s.modu.state = .off → s.plug.standbyRails = false → exec .timePllLock s = .next s) ∧
    (∀ p, s.link.time.parent = some p → (s.port p).mode = .up → (s.port p).resend = 0 →
      ∃ t, exec .syncReqSend s = .next t ∧ t.link.time = { s.link.time with tseq := s.link.time.tseq + 1, request := some (s.link.time.tseq + 1) } ∧
        t.clock = s.clock ∧ t.mem = s.mem ∧ sent t p 0) ∧
    (∀ p, s.link.time.parent = some p → (s.port p).mode = .up → (s.port p).resend ≠ 0 →
      ∃ t, exec .syncReqSend s = .next t ∧ .syncReq ∈ (t.port p).due ∧ t.link.time = s.link.time ∧ t.clock = s.clock ∧ t.out = s.out) ∧
    ((∀ p, s.link.time.parent = some p → (s.port p).mode ≠ .up) → exec .syncReqSend s = .next s) ∧
    (∀ p m, heard p m 0 → good p m → (s.port p).resend = 0 → ∃ t, exec (.syncReq p m) s = .next t ∧ t.clock = s.clock ∧
      t.link.time = s.link.time ∧ t.mem = s.mem ∧ sent t p 1) ∧
    (∀ p m, heard p m 0 → good p m → (s.port p).resend ≠ 0 → ∃ t, exec (.syncReq p m) s = .next t ∧
      .syncResp (flitBody m.flit) s.clock.time m.frac ∈ (t.port p).due ∧ t.clock = s.clock ∧ t.link.time = s.link.time ∧ t.out = s.out) ∧
    (∀ p m, heard p m 1 → good p m → s.link.time.parent = some p → s.link.time.request = some (BitVec.ofNat 16 (leField (flitBody m.flit) 12 2)) →
      ∃ t, exec (.syncResp p m) s = .next t ∧ t.clock.holdover = false ∧ t.link.time.request = none ∧ t.link.time.lastValid = t.clock.time ∧
        (s.modu.state ≠ .bringup → t.clock.time = s.clock.time) ∧
        (t.clock.synced = true → s.link.time.hops.toNat ≤ 6 ∧ t.link.time.good = 8)) ∧
    (∀ p m, heard p m 1 → good p m → s.link.time.parent ≠ some p ∨ s.link.time.request ≠ some (BitVec.ofNat 16 (leField (flitBody m.flit) 12 2)) →
      exec (.syncResp p m) s = .next (seen p m)) ∧
    (∀ p m, heard p m 2 → good p m → (s.port p).held = false →
      exec (.announce p m) s = .next ((s.setPort p { (seen p m).port p with heard := some ⟨BitVec.ofNat 8 (leField (flitBody m.flit) 2 1),
        BitVec.ofNat 64 (leField (flitBody m.flit) 4 8), BitVec.ofNat 8 (leField (flitBody m.flit) 1 1), s.clock.time⟩ }).chooseRoot)) ∧
    (∀ p m, heard p m 2 → good p m → (s.port p).held = true → exec (.announce p m) s = .next (seen p m)) ∧
    (∀ p m k, heard p m k → (s.port p).encOn = true → bodyTagOk m.flit ((s.port p).rxKey (flitPhase m.flit)) = false →
      (k = 0 → exec (.syncReq p m) s = .next (s.authFail p)) ∧ (k = 1 → exec (.syncResp p m) s = .next (s.authFail p)) ∧
      (k = 2 → exec (.announce p m) s = .next (s.authFail p))) ∧
    (∀ p m, flitOk m.flit = false →
      exec (.syncReq p m) s = .next s ∧ exec (.syncResp p m) s = .next s ∧ exec (.announce p m) s = .next s) ∧
    (∀ p a, (s.port p).heard = some a → a.time.toNat + 12000000 < s.clock.time.toNat →
      exec (.announceExpiry p) s = .next ((s.setPort p { s.port p with heard := none }).chooseRoot)) ∧
    (∃ t, exec .announceSend s = .next t ∧ t.clock = s.clock ∧ t.link.time = s.link.time ∧ t.mem = s.mem ∧
      ((∀ i < 30, (s.port (portOf i)).mode ≠ .up) → t = s) ∧
      ∀ p : PortNo, p.val < 30 → (s.port p).mode = .up → ((s.port p).resend = 0 → sent t p 2) ∧ ((s.port p).resend ≠ 0 → .announce ∈ (t.port p).due)) ∧
    (∀ who, s.plug.mainOn = true → ∃ t, exec (.glbTimeLoRead who) s = .next t ∧
      t.out = s.out ++ [.readData who (BitVec.ofNat 64 (s.clock.time.toNat % 2 ^ 32))] ∧
      (t.timeHigh who).2 = s.clock.time.toNat / 2 ^ 32 ∧ t.clock = s.clock)

/-- R42: without a valid time message for 10 ms the module enters holdover: synced is cleared, holdover and sync_lost are set, and the rate
adjustment is kept with all else of the clock; the time root itself waits for none (R343). A valid response ends the holdover; outside
BRINGUP global time does not step by it (R41). -/
def Obligations.Holdover : Prop :=
  ∀ (s : State),
    (s.link.time.isRoot = false → s.clock.holdover = false → s.link.time.lastValid.toNat + 12000000 ≤ s.clock.time.toNat →
      ∃ t, exec .holdoverEntry s = .next t ∧ t.clock = { s.clock with synced := false, holdover := true, syncLost := true } ∧ t.mem = s.mem) ∧
    (s.link.time.isRoot = true ∨ s.clock.holdover = true ∨ s.clock.time.toNat < s.link.time.lastValid.toNat + 12000000 → exec .holdoverEntry s = .next s) ∧
    (∀ p m, (s.port p).mode = .up → flitOk m.flit = true → flitType m.flit = some .time → leField (flitBody m.flit) 0 1 = 1 →
      ((s.port p).encOn = false ∨
        (bodyTagOk m.flit ((s.port p).rxKey (flitPhase m.flit)) = true ∧ (s.port p).fresher (bodyUctr (flitBody m.flit)) = true)) →
      s.link.time.parent = some p → s.link.time.request = some (BitVec.ofNat 16 (leField (flitBody m.flit) 12 2)) →
      ∃ t, exec (.syncResp p m) s = .next t ∧ t.clock.holdover = false ∧ t.clock.syncLost = s.clock.syncLost ∧ t.link.time.lastValid = t.clock.time ∧
        (s.modu.state ≠ .bringup → t.clock.time = s.clock.time))

/-- R435: while the governor runs, G moves toward the demand by at most the slew limit at each tick. R442: a root step asked for sets out one
step toward the goal, unless one is under way; the clocks change at the lock of the second PLL; a step up is a rise (of a size that is free,
log 1), which waits while it does not fit (R436). Held starts are admitted group by group when the whole group fits, each core that may
still start then running; a hold past 10 ms is noted once per second. -/
def Obligations.Governor : Prop :=
  ∀ (s : State),
    (∀ pIn demand, s.power.governor = true → s.power.levelFrac < 1000 → ∃ t, exec (.governorTick pIn demand) s = .next t ∧
      let old := 1000 * s.power.level.toNat + s.power.levelFrac
      let new := 1000 * t.power.level.toNat + t.power.levelFrac
      let goal := 1000 * demand.toNat
      let slew := s.dictVal 0x2101 1
      (old ≤ goal → new = min goal (old + slew)) ∧ (goal ≤ old → new = max goal (old - slew)) ∧ t.clock = s.clock ∧ t.mem = s.mem) ∧
    (s.clock.stepBusy = true → ∃ t, exec .rootStepLock s = .next t ∧
      t.clock.rootStep = s.clock.stepTarget ∧ t.clock.stepCount = s.clock.stepCount + 1 ∧ t.clock.time = s.clock.time) ∧
    (∀ pIn demand, s.power.governor = false → exec (.governorTick pIn demand) s = .next s) ∧
    (s.clock.stepBusy = false → exec .rootStepLock s = .next s) ∧
    (∀ up, s.clock.stepBusy = true → ∃ t, exec (.rootStep up) s = .next t ∧ t.clock = s.clock ∧
      t.power.wantBase = (if up then BitVec.ofNat 2 (s.rootGoal - 1) else BitVec.ofNat 2 (min 2 (s.rootGoal + 1)))) ∧
    (s.clock.stepBusy = false → s.plug.mainOn = true → s.clock.rootStep = 0 → ∃ t, exec (.rootStep false) s = .next t ∧
      t.clock = { s.clock with stepBusy := true, stepTarget := 1 }) ∧
    (∀ up, s.clock.stepBusy = false → s.plug.mainOn = true →
      let u : State := { s with power := { s.power with wantBase := if up then BitVec.ofNat 2 (s.rootGoal - 1) else BitVec.ofNat 2 (min 2 (s.rootGoal + 1)) } }
      let rise := Config.freeNat s.draws
      (s.clock.rootStep.toNat < u.rootGoal → ∃ t, exec (.rootStep up) s = .next t ∧
        t.clock = { s.clock with stepBusy := true, stepTarget := BitVec.ofNat 2 (s.clock.rootStep.toNat + 1) }) ∧
      (u.rootGoal < s.clock.rootStep.toNat → s.power.held = [] → s.power.demand + rise ≤ 10 * s.power.level.toNat + 10 * s.dictVal 0x2101 2 →
        ∃ t, exec (.rootStep up) s = .next t ∧ t.power.demand = s.power.demand + rise ∧
          t.clock = { s.clock with stepBusy := true, stepTarget := BitVec.ofNat 2 (s.clock.rootStep.toNat - 1) }) ∧
      (u.rootGoal < s.clock.rootStep.toNat → .rootUp ∉ s.power.held →
        s.power.held ≠ [] ∨ 10 * s.power.level.toNat + 10 * s.dictVal 0x2101 2 < s.power.demand + rise →
        ∃ t, exec (.rootStep up) s = .next t ∧ t.power.held = s.power.held ++ [.rootUp] ∧ t.clock = s.clock)) ∧
    (s.heldGroup = [] → .rootUp ∈ s.power.held → s.clock.stepBusy = false → s.rootGoal < s.clock.rootStep.toNat →
      ∃ t, exec .startAdmit s = .next t ∧ .rootUp ∉ t.power.held ∧
        t.clock = { s.clock with stepBusy := true, stepTarget := BitVec.ofNat 2 (s.clock.rootStep.toNat - 1) }) ∧
    (∀ n priv, s.power.held = [.start n priv] → (s.core n).regs.groupLog2 = 0 → (s.core n).startOk = true → s.fitsRise (startCharge s.clock.rootStep) = true →
      ∃ t, exec .startAdmit s = .next t ∧ t.power.held = [] ∧ t.power.demand = s.power.demand + startCharge s.clock.rootStep ∧
        t.core n = (s.core n).start priv) ∧
    (s.heldGroup ≠ [] → s.fitsRise (s.heldGroup.length * startCharge s.clock.rootStep) = true → ∃ t, exec .startAdmit s = .next t ∧
      t.power.demand = s.power.demand + s.heldGroup.length * startCharge s.clock.rootStep ∧
      t.power.held = s.power.held.filter (fun h => match h with
        | .start n _ => !s.heldGroup.any (fun x => decide (x.1 = n))
        | .rootUp => true) ∧
      (∀ n, (∀ x ∈ s.heldGroup, x.1 ≠ n) → t.core n = s.core n) ∧ t.mem = s.mem) ∧
    (s.power.held ≠ [] → s.log.lastSlewHold = none → ∃ t, exec .slewHold s = .next t ∧ t.power.slewEvent = true ∧
      t.log.lastSlewHold = some s.clock.time.toNat ∧ t.power.held = s.power.held)

/-- R434, R443, R444: the input, the power limit and the temperature. -/
def Obligations.PowerLimits : Prop :=
  ∀ (s : State),
    (s.modu.state ≠ .off → s.power.inputFault = false → ∃ t, exec .inputFault s = .next t ∧ t.power.inputFault = true ∧ 2 ≤ t.rootGoal) ∧
    (s.power.inputFault = true → ∃ t, exec .inputRecovered s = .next t ∧ t.power.inputFault = false) ∧
    (s.plug.precharge = true → ∃ t, exec .inputOvervoltage s = .next t ∧ t.plug.overvoltage = true ∧ t.plug.mainOn = false ∧
      t.plug.standbyRails = false ∧ t.modu.state = .off) ∧
    (s.plug.overvoltage = true → exec .inputRestored s = .next { s with plug := { s.plug with overvoltage := false } }) ∧
    (∀ mean, s.plug.mainOn = true → s.dictVal 0x2100 1 < mean.toNat → s.clock.rootStep = 2 →
      exec (.powerLimitCheck mean) s = .next { s with power := { s.power with gateLimit := true } }) ∧
    (∀ mean, s.plug.mainOn = true → s.dictVal 0x2100 1 < mean.toNat → s.clock.rootStep ≠ 2 → s.clock.stepBusy = false →
      ∃ t, exec (.powerLimitCheck mean) s = .next t ∧ t.power.wantLimit.toNat = min 2 (s.rootGoal + 1)) ∧
    (s.power.gateLimit = true → ∃ t, exec .gatingRelease s = .next t ∧ t.power.gateLimit = false ∧ t.power.wantLimit = 0) ∧
    (∀ r : TempReport, s.plug.mainOn = true → s.dictVal 0x2120 2 ≤ max (max r.cMax.toNat r.mMax.toNat) (max r.xMax.toNat r.hbmMax.toNat) →
      ∃ t, exec (.temperatureReport r) s = .next t ∧ t.plug.mainOn = false ∧ t.power.throttleEvent = true ∧
        t.mem = { MemState.reset with retireList := t.mem.retireList }) ∧
    (∀ r : TempReport, s.plug.mainOn = true → max (max r.cMax.toNat r.mMax.toNat) (max r.xMax.toNat r.hbmMax.toNat) < s.dictVal 0x2120 2 →
      max (max r.cMax.toNat r.mMax.toNat) (max r.xMax.toNat r.hbmMax.toNat) < s.dictVal 0x2120 1 → s.power.throttle = false →
      ∃ t, exec (.temperatureReport r) s = .next t ∧ t.power.cMax = r.cMax ∧ t.power.hbmMax = r.hbmMax ∧ t.power.msAbove = 0 ∧
        t.modu.state = s.modu.state ∧ t.power.inletOver = decide (s.dictVal 0x2120 3 < r.inlet.toNat))

/-- R439 to R441: a unit that may rest enters the state chosen for it; a wake ends it, and an early wake is counted. -/
def Obligations.PowerStates : Prop :=
  ∀ (s : State) (u : Sys2Proof.PUnit),
    (s.plug.mainOn = true → s.mayRest u = true → s.power.asleep.any (fun a => decide (a.unit = u)) = false →
      (s.restChoice u = none → exec (.powerStateEntry u) s = .next s) ∧
      (∀ x w, s.restChoice u = some (x, w) → ∃ t, exec (.powerStateEntry u) s = .next t ∧ t.power.asleep = s.power.asleep ++ [⟨u, x, w⟩] ∧
        t.mem = s.mem ∧ ∀ n, (∀ c, u = .die c → n ∉ coresOfDie c) → t.core n = s.core n)) ∧
    (s.power.asleep.any (fun a => decide (a.unit = u)) = true →
      (∃ t, exec (.powerStateWake u) s = .next t ∧ t.power.asleep = s.power.asleep.filter (fun a => decide (a.unit ≠ u)) ∧ t.mem = s.mem) ∧
      (∃ t, exec (.earlyWake u) s = .next t ∧ t.power.asleep = s.power.asleep.filter (fun a => decide (a.unit ≠ u)) ∧
        t.power.earlyWakes = s.power.earlyWakes + 1 ∧ t.mem = s.mem)) ∧
    (s.power.asleep.any (fun a => decide (a.unit = u)) = false → exec (.powerStateWake u) s = .next s ∧ exec (.earlyWake u) s = .next s)

/-- R8, R9, R102: a register write acts only while the main domain is up, and then as the register takes it; a read-only register keeps its
value (those of a core, the port map, the time root, the pending bits, the sequence number and the time of a freeze); the core arguments take
theirs, and a one written to the fault valid bit clears it. -/
def Obligations.RegisterWrites : Prop :=
  ∀ (s : State) (v : W64),
    (∀ r, s.plug.mainOn = false → exec (.registerWrite r v) s = .next s) ∧
    (s.plug.mainOn = true →
      (∀ n r, r ∈ [CoreReg.pc, .id, .rngState, .faultPc, .faultTile, .faultNeed, .faultHave, .event] → exec (.registerWrite (.core n r) v) s = .next s) ∧
      (∀ r, exec (.registerWrite r v) s = .next (s.regWrite r v.toNat 0)) ∧
      (∀ l f w, ∀ r ∈ [RegId.portMap l, .timeRoot, .pba f w, .pmc .seq, .pmc .freezeTime], exec (.registerWrite r v) s = .next s) ∧
      (∀ n i, exec (.registerWrite (.core n (.arg i)) v) s = .next (s.setCore n { s.core n with regs :=
        if i = 0 then { (s.core n).regs with arg0 := v } else if i = 1 then { (s.core n).regs with arg1 := v }
        else { (s.core n).regs with arg2 := v } })) ∧
      (∀ n, exec (.registerWrite (.core n .faultCode) v) s = .next (s.setCore n { s.core n with fault :=
        { (s.core n).fault with valid := (s.core n).fault.valid && !bitOf v.toNat 31 } })))

/-! Module states, hot plug, losses, partitions, rubric cores (chapters 3, 14, 18, 19, 22, 23) -/

/-- R497: a request for a state is accepted in the pairs of the table, with the action the table names; in every other state it answers STATE
and changes nothing. A press of the attention button during BRINGUP is held; a surprise removal leads to OFF; a critical temperature in
BRINGUP leads to FAULTED. -/
def Obligations.StateRequests : Prop :=
  ∀ (s : State),
    (s.modu.state ≠ .standby → s.modu.state ≠ .safeRemove → s.modu.state ≠ .faulted → exec .stateRequestBringup s = .next (s.emit (.status 0x18))) ∧
    (s.sec.lifecycle = 3 → exec .stateRequestBringup s = .next (s.emit (.status 0x18))) ∧
    (s.modu.state = .standby → s.sec.lifecycle ≠ 3 → s.plug.presence = false →
      exec .stateRequestBringup s = .next ({ s with plug := { s.plug with waitingBringup := true } }.emit (.status 0))) ∧
    (s.modu.state = .standby ∨ s.modu.state = .safeRemove ∨ s.modu.state = .faulted → s.sec.lifecycle ≠ 3 → s.plug.presence = true →
      ∃ t, exec .stateRequestBringup s = .next t ∧ t.modu.state = .bringup ∧ t.plug.mainOn = true ∧ t.modu.bringupCount = s.modu.bringupCount + 1 ∧
        t.clock.rootLock = true) ∧
    (s.modu.state ≠ .ready → s.modu.state ≠ .safeRemove → s.modu.state ≠ .faulted → exec .stateRequestStandby s = .next (s.emit (.status 0x18))) ∧
    (s.modu.state = .ready → ∃ t, exec .stateRequestStandby s = .next t ∧ t.modu.state = .standby ∧ t.plug.mainOn = false) ∧
    (s.modu.state = .safeRemove → ∃ t, exec .stateRequestStandby s = .next t ∧ t.modu.state = .standby ∧ t.plug.ledBlue = false ∧ t.mem = s.mem) ∧
    (s.modu.state = .faulted → ∃ t, exec .stateRequestStandby s = .next t ∧ t.modu.state = .standby ∧ t.plug.mainOn = false) ∧
    (s.modu.state ≠ .ready → s.modu.state ≠ .active → exec .stateRequestQuiescing s = .next (s.emit (.status 0x18))) ∧
    (s.modu.state = .ready ∨ s.modu.state = .active → ∃ t, exec .stateRequestQuiescing s = .next t ∧
      t.modu.state = .quiescing ∧ t.modu.quiesce = .quiesce ∧ t.plug.buttonPending = false ∧ t.mem = s.mem) ∧
    (s.modu.state ≠ .quiescing ∨ s.modu.quiesce ≠ .quiesce → exec .stateRequestReady s = .next (s.emit (.status 0x18))) ∧
    (s.modu.state = .quiescing → s.modu.quiesce = .quiesce → ∃ t, exec .stateRequestReady s = .next t ∧ t.modu.quiesce = .none ∧
      t.modu.state = (if allParts.any (fun p => decide ((s.part p).mode = .running)) then .active else .ready)) ∧
    (s.modu.state = .bringup → exec .attentionButton s = .next { s with plug := { s.plug with buttonHeld := true } }) ∧
    (∀ low, s.plug.mainOn = true → ∃ t, exec (.surpriseRemoval low) s = .next t ∧ t.modu.state = .off) ∧
    (∀ r : TempReport, s.plug.mainOn = true → s.modu.state = .bringup →
      s.dictVal 0x2120 2 ≤ max (max r.cMax.toNat r.mMax.toNat) (max r.xMax.toNat r.hbmMax.toNat) → ∃ t, exec (.temperatureReport r) s = .next t ∧ t.modu.state = .faulted)

/-- R447, R498 to R501: the steps of a quiesce, the end of bring-up in each of its outcomes, and the initialisation of board memory. -/
def Obligations.ModuleStates : Prop :=
  ∀ (s : State),
    (s.modu.state = .quiescing → s.modu.quiesce = .quiesce → ∃ t, exec .quiesceDone s = .next t ∧ t.modu.quiesce = .departed) ∧
    (s.modu.state = .quiescing → s.modu.quiesce = .departed → ∃ t, exec .safeRemove s = .next t ∧
      t.modu.state = .safeRemove ∧ t.plug.mainOn = false ∧ t.plug.ledBlue = true ∧ t.modu.quiesce = .none) ∧
    (∀ r c, s.modu.state = .bringup → s.verifyMain = .error c → ∃ t, exec (.bringupComplete r) s = .next t ∧
      t.modu.state = .standby ∧ t.plug.mainOn = false ∧ t.modu.bringupResult = BitVec.ofNat 16 c) ∧
    (∀ r imgs, s.modu.state = .bringup → s.verifyMain = .ok imgs → (r.fatal = true ∨ r.badDies = 0xFF) → ∃ t, exec (.bringupComplete r) s = .next t ∧
      t.modu.state = .faulted ∧ t.modu.bringupResult = 0x0904) ∧
    (∀ r imgs, s.modu.state = .bringup → s.verifyMain = .ok imgs → r.fatal = false → r.badDies ≠ 0xFF → ∃ t, exec (.bringupComplete r) s = .next t ∧
      t.modu.state = .ready ∧ t.modu.dieOut = r.badDies ∧ t.dieMap.c = ~~~r.badDies ∧ t.modu.bringupResult = 0 ∧ t.host.linkUp = r.pcieUp) ∧
    (∀ c f, s.plug.mainOn = true → s.mem.waits = [] → ∃ t, exec (.boardMemoryInit c f) s = .next t ∧
      Tab.get none t.mem.boardInit c.val = some (max ((Tab.get none s.mem.boardInit c.val).getD 0) (min f.toNat (shareFrames s.variant 1))))

/-- R465, R467: the loss of root PLL lock, the loss of a memory-side or I/O die, and PATH_ERROR on an edge port or a perimeter segment take a
powered module to FAULTED. -/
def Obligations.FaultedEntry : Prop :=
  ∀ (s : State), s.plug.mainOn = true → s.modu.state ≠ .faulted → s.modu.state ≠ .off →
    (∃ t, exec .rootPllLoss s = .next t ∧ t.modu.state = .faulted) ∧
    (∀ die : Byte, 8 ≤ die.toNat → die.toNat < 14 → ∃ t, exec (.lossOfMemorySideDie die) s = .next t ∧ t.modu.state = .faulted) ∧
    (∀ c flits, ∃ t, exec (.pathError (.edge c) flits) s = .next t ∧ t.modu.state = .faulted) ∧
    (∀ k flits, ∃ t, exec (.pathError (.segment k) flits) s = .next t ∧ t.modu.state = .faulted)

/-- R446 to R448, R511 to R514: insertion and removal, the attention button and the front indicators. -/
def Obligations.HotPlug : Prop :=
  ∀ (s : State),
    (s.plug.overvoltage = false → exec .prechargeContact s = .next { s with plug := { s.plug with precharge := true } }) ∧
    (s.plug.precharge = true → s.plug.overvoltage = false → exec .softStartDone s = .next { s with plug := { s.plug with softStart := true } }) ∧
    (s.plug.softStart = true → s.plug.standbyRails = false → ∃ t, exec .standbyRailsGood s = .next t ∧ t.plug.standbyRails = true ∧
      (∀ i b, s.pickImage 1 = .ok (i, b) → t.ward.recovery = false ∧ t.sec.nonce = Config.random s.draws) ∧
      (∀ c, s.pickImage 1 = .error c → t.ward.recovery = true)) ∧
    (∀ a b, s.plug.standbyRails = true → s.plug.wardenUp = false → ∃ t, exec (.wardenReady a b) s = .next t ∧ t.ward.up = true ∧ t.plug.wardenUp = true ∧
      (s.ward.recovery = true → t.modu.state = s.modu.state)) ∧
    (s.modu.state = .bringup → exec .attentionButton s = .next { s with plug := { s.plug with buttonHeld := true } }) ∧
    ((s.modu.state = .ready ∨ s.modu.state = .active) → s.plug.buttonPending = false →
      exec .attentionButton s = .next ({ s with plug := { s.plug with buttonPending := true, ledBlink := true } }.emit .attentionEvent)) ∧
    ((s.modu.state = .ready ∨ s.modu.state = .active) → s.plug.buttonPending = true → ∃ t, exec .buttonDelayExpiry s = .next t ∧
      t.modu.state = .quiescing ∧ t.plug.buttonPending = false ∧ t.plug.ledBlink = false) ∧
    (∀ pins, s.plug.wardenUp = true → s.plug.slot = none → s.plug.waitingBringup = false →
      exec (.presenceClose pins) s = .next { s with plug := { s.plug with presence := true, slotPins := pins, slot := some pins } }) ∧
    (∀ low, s.plug.mainOn = true → ∃ t, exec (.surpriseRemoval low) s = .next t ∧ t.modu.state = .off ∧ t.plug.mainOn = false ∧
      t.plug.transmittersOff = true ∧ t.power.fastFalls = s.power.fastFalls + 1 ∧ t.mem.cells = [] ∧ t.log.persisted = s.log.persisted ∧
      t.modu.cutMap = s.modu.cutMap) ∧
    (s.plug.mainOn = false → exec .prechargeBreak s = .next (s.powerOff PlugState.reset)) ∧
    (∀ pwr att, ∃ t, exec (.indicatorCommand pwr att) s = .next t ∧ t.plug.ledAttention = att ∧ t.plug.pwrInd = pwr ∧
      t.plug.ledPower = (if s.plug.ledBlink then s.plug.ledPower else pwr) ∧ t.mem = s.mem ∧ t.modu = s.modu)

/-- R362, R364, R365, R366: forming, re-forming and dissolving a partition, in the states that take them and in those that refuse; *clear_cuts*
is noted for the next bring-up. The HBM of the dies that join holds no byte but 0 where no image of their frame tables is placed; a
partition bound, or re-formed without a die that joins, has its quotas checked against its capacity, which leaves the state as it is where
each tier's quotas fit (R224; that the check follows a formation is the model's, log 174). -/
def Obligations.Partitions : Prop :=
  ∀ (s : State) (p : PartNo),
    ((s.part p).mode ≠ .unformed → exec (.partitionForm p) s = .next (s.emit (.status 0x18))) ∧
    ((s.part p).mode = .unformed → (s.part p).forming = none → s.legalMask p (s.part p).maskNext = false →
      exec (.partitionForm p) s = .next ((s.setPart p { s.part p with formResult := 0x0405 }).emit (.status 0x14))) ∧
    ((s.part p).mode = .unformed → (s.part p).forming = none → s.legalMask p (s.part p).maskNext = true → ∃ t, exec (.partitionForm p) s = .next t ∧
      (t.part p).forming = some (s.part p).maskNext ∧
      ((∀ c ∈ maskDies (s.part p).maskNext, ∀ i ∈ [0, 1, 2], Tab.get 0 s.mem.ftBase (shareKeyOf i c) = 0) →
        ∀ e ∈ t.mem.cells, inShares (maskDies (s.part p).maskNext) 0 1 e.1 = false)) ∧
    ((s.part p).mode = .unformed → ∀ m, (s.part p).forming = some m → ∃ t, exec (.formBind p false) s = .next t ∧
      (t.part p).mode = .unformed ∧ (t.part p).formResult = 0x0806 ∧ (t.part p).forming = none) ∧
    ((s.part p).mode = .unformed → ∀ m, (s.part p).forming = some m → ∃ t : State, exec (.formBind p true) s = .next (t.quotaChecks p) ∧
      (t.part p).mode = .idle ∧ (t.part p).dies = m ∧ (t.part p).forming = none ∧ (t.part p).keyInstalled = true ∧
      ((∀ i ∈ [0, 1, 2], t.quotaFits p i) → exec (.formBind p true) s = .next t)) ∧
    ((s.part p).maskNext = (s.part p).dies → exec (.partitionReform p) s = .next (s.emit (.status 0x18))) ∧
    ((s.part p).mode = .idle → (s.part p).forming = none → (s.part p).maskNext ≠ (s.part p).dies → s.legalMask p (s.part p).maskNext = true →
      (maskDies ((s.part p).maskNext &&& ~~~(s.part p).dies) ≠ [] → ∃ t, exec (.partitionReform p) s = .next t ∧
        (t.part p).mode = .idle ∧ (t.part p).forming = some (s.part p).maskNext) ∧
      (maskDies ((s.part p).maskNext &&& ~~~(s.part p).dies) = [] → ∃ t : State, exec (.partitionReform p) s = .next ((t.quotaChecks p).emit (.status 0)) ∧
        (t.part p).mode = .idle ∧ (t.part p).dies = (s.part p).dies &&& (s.part p).maskNext ∧ (t.part p).formResult = 0 ∧
        ((∀ i ∈ [0, 1, 2], t.quotaFits p i) → exec (.partitionReform p) s = .next (t.emit (.status 0))))) ∧
    ((s.part p).mode ≠ .idle → exec (.partitionDissolve p) s = .next (s.emit (.status 0x18))) ∧
    ((s.part p).mode = .idle → s.openCount p = 0 → s.liveCtxs p = [] → s.liveIndexes p = [] → ∃ t, exec (.partitionDissolve p) s = .next t ∧
      (t.part p).mode = .unformed ∧ (t.part p).dies = 0 ∧ (t.part p).keyInstalled = false) ∧
    exec .clearCuts s = .next { s with modu := { s.modu with clearCuts := true } }

/-- R366, R367, R467: a compute die leaves service: its cores are OFF or CUT, its bit leaves the die map; a mesh link's error takes its die
with it. -/
def Obligations.DieLeaves : Prop :=
  ∀ (s : State) (c : CDie),
    (s.dieMap.c.getLsbD c.val = false → exec (.dieOut c) s = .next s) ∧
    (s.dieMap.c.getLsbD c.val = true → s.partOfDie c = none → ∃ t, exec (.dieOut c) s = .next t ∧
      t.dieMap.c.getLsbD c.val = false ∧ t.dieMap.changed = true ∧ t.modu.dieOut.getLsbD c.val = true ∧
      (∀ n ∈ coresOfDie c, (t.core n).mode = .off ∨ (t.core n).mode = .cut) ∧ ∀ n, n ∉ coresOfDie c → t.core n = s.core n) ∧
    (s.plug.mainOn = true → ∀ n flits, s.dieMap.c.getLsbD (dieOfCore n).val = true → s.partOfDie (dieOfCore n) = none →
      ∃ t, exec (.pathError (.mesh n) flits) s = .next t ∧ t.dieMap.c.getLsbD (dieOfCore n).val = false)

/-! Rubric cores, partition orders, the host interface (chapters 3, 16, 22) -/

/-- R104: the HX instructions: permitted in M, HS and VS (HX.PTEST in every mode), else an illegal-instruction exception. -/
def Obligations.HxInstructions : Prop :=
  ∀ (s : State) (k : Fin 24) (mode : RvMode) (a : W64), s.hartUp k = true →
    (hxMode mode = false → ∀ b, (∃ t, exec (.hxCcmd k mode a b) s = .next t ∧ ((t.rub k).trap.map (·.cause)) = some 2 ∧ t.cores = s.cores ∧ t.mem = s.mem) ∧
      (∃ t, exec (.hxWaitev k mode a) s = .next t ∧ ((t.rub k).trap.map (·.cause)) = some 2 ∧ (t.rub k).waitLimit = (s.rub k).waitLimit) ∧
      (∃ t, exec (.hxFset k mode a) s = .next t ∧ ((t.rub k).trap.map (·.cause)) = some 2 ∧ (t.rub k).storeBind = (s.rub k).storeBind)) ∧
    (hxMode mode = true →
      (exec (.hxFset k mode 0) s = .next (s.setRub k { s.rub k with storeBind := 0, loadBind := 0, rd := BitVec.ofNat 64 (s.rub k).storeBind.toNat })) ∧
      (bits a.toNat 62 2 = 2 → exec (.hxFset k mode a) s =
        .next (s.setRub k { s.rub k with storeBind := a, rd := BitVec.ofNat 64 (s.rub k).storeBind.toNat })) ∧
      (bits a.toNat 62 2 = 1 → exec (.hxFset k mode a) s =
        .next (s.setRub k { s.rub k with loadBind := a, rd := BitVec.ofNat 64 (s.rub k).loadBind.toNat })) ∧
      (a ≠ 0 → bits a.toNat 62 2 ≠ 1 → bits a.toNat 62 2 ≠ 2 → ∃ t, exec (.hxFset k mode a) s = .next t ∧ ((t.rub k).trap.map (·.cause)) = some 2 ∧
        (t.rub k).storeBind = (s.rub k).storeBind ∧ (t.rub k).loadBind = (s.rub k).loadBind) ∧
      (∀ n : CoreNo, allCores.find? (fun n => (s.core n).ev.pending && (s.core n).ev.irqEn && decide ((s.core n).ev.target.toNat = k.val)) = some n →
        exec (.hxWaitev k mode a) s = .next (s.setRub k { s.rub k with rd := BitVec.ofNat 64 n.val })) ∧
      (allCores.find? (fun n => (s.core n).ev.pending && (s.core n).ev.irqEn && decide ((s.core n).ev.target.toNat = k.val)) = none →
        (a ≠ 0 ∧ a.toNat ≤ s.clock.time.toNat → exec (.hxWaitev k mode a) s = .next (s.setRub k { s.rub k with rd := BitVec.ofNat 64 (2 ^ 64 - 1) })) ∧
        (a = 0 ∨ s.clock.time.toNat < a.toNat → exec (.hxWaitev k mode a) s = .next (s.setRub k { s.rub k with waitLimit := some a }))) ∧
      (∀ b, a.toNat < 2 ^ 48 → s.foreign k mode a.toNat 16 = false → s.hartFault a.toNat 16 0 = none → s.hartSnapGone k = false → s.mem.latent = [] →
        (s.readUa (s.hartView k) a.toNat 16).2 = false →
        let mask : BitVec 128 := BitVec.ofNat 128 (ofLeBytes (s.readUa (s.hartView k) a.toNat 16).1)
        let r := s.ccmd k (modePriv mode) mask (bits b.toNat 0 4)
        exec (.hxCcmd k mode a b) s = .next (r.1.setRub k { r.1.rub k with rd := BitVec.ofNat 64 (r.2.1 + 256 * r.2.2) }))) ∧
    (a.toNat < 2 ^ 48 → s.foreign k mode a.toNat 1 = false → s.hartFault a.toNat 1 0 = none → s.hartSnapGone k = false → s.mem.latent = [] →
      exec (.hxPtest k mode a) s = .next (s.setRub k { s.rub k with rd := if (s.gran (s.hartView k) (a.toNat / 64)).poison then 1 else 0 }))

/-- R104, R105, R102: a wait ends with the value of its cause; loads, stores and fetches of unified memory, with the access fault of their
kind where a granule is poisoned or nothing is there; a fetched word of the custom opcodes that R104 does not permit raises the
illegal-instruction exception, and a read of the time CSR gives global time (its encoding is the RISC-V standard's, log 166). -/
def Obligations.RubricAccesses : Prop :=
  ∀ (s : State) (k : Fin 24) (mode : RvMode) (a : W64) (z : RvSize),
    (∀ l v, (s.rub k).waitLimit = some l → s.waitEnds k l = some v →
      exec (.hxWaitevWake k) s = .next (s.setRub k { s.rub k with rd := BitVec.ofNat 64 v, waitLimit := none })) ∧
    (s.hartUp k = true → 2 ^ 48 ≤ a.toNat → exec (.rubricFetch k mode a) s = .next (s.setRub k { s.rub k with trap := some ⟨1, a⟩ })) ∧
    (s.hartUp k = true → a.toNat < 2 ^ 48 → s.mem.latent = [] → s.hartSnapGone k = false →
      (s.foreign k mode a.toNat (sizeBytes z) = true → exec (.rubricLoad k mode a z) s = .next (s.setRub k { s.rub k with trap := some ⟨5, a⟩ }) ∧
        ∀ v, exec (.rubricStore k mode a z v) s = .next (s.setRub k { s.rub k with trap := some ⟨7, a⟩ })) ∧
      (s.foreign k mode a.toNat (sizeBytes z) = false → s.hartFault a.toNat (sizeBytes z) 0 = none →
        ((s.readUa (s.hartView k) a.toNat (sizeBytes z)).2 = false → exec (.rubricLoad k mode a z) s =
          .next (s.setRub k { s.rub k with rd := BitVec.ofNat 64 (ofLeBytes (s.readUa (s.hartView k) a.toNat (sizeBytes z)).1) })) ∧
        ((s.readUa (s.hartView k) a.toNat (sizeBytes z)).2 = true → ∃ t, exec (.rubricLoad k mode a z) s = .next t ∧
          (t.rub k).trap = some ⟨5, a⟩ ∧ (t.rub k).rd = (s.rub k).rd ∧ t.mem = s.mem)) ∧
      (s.foreign k mode a.toNat (sizeBytes z) = false → s.hartFault a.toNat (sizeBytes z) 1 = none → (s.rub k).storeBind = 0 → (s.rub k).loadBind = 0 →
        ∀ v, exec (.rubricStore k mode a z v) s = .next (s.plainWrite (.hart k) (piecesOf a.toNat (leBytes (sizeBytes z) v.toNat) (fun _ => false)))) ∧
      (s.foreign k mode a.toNat 2 = false → s.hartFault a.toNat 2 2 = none →
        let w := ofLeBytes (s.readUa .plain a.toNat 4).1
        ((s.readUa .plain a.toNat 2).2 = true →
          exec (.rubricFetch k mode a) s = .next ((s.setRub k { s.rub k with trap := some ⟨1, a⟩ }).sharedCodeLost (a.toNat / 64))) ∧
        ((s.readUa .plain a.toNat 2).2 = false →
          (bits w 0 7 = 0x2B ∨ (bits w 0 7 = 0x0B ∧ (bits w 25 7 ≠ 0 ∨ bits w 12 3 = 0 ∨ 4 < bits w 12 3 ∨ (bits w 12 3 ≠ 3 ∧ hxMode mode = false))) →
            ∃ t, exec (.rubricFetch k mode a) s = .next t ∧ ((t.rub k).trap.map (·.cause)) = some 2 ∧ (t.rub k).rd = (s.rub k).rd ∧ t.mem = s.mem ∧ t.cores = s.cores) ∧
          (bits w 0 7 = 0x0B → bits w 25 7 = 0 → bits w 12 3 = 3 ∨ (hxMode mode = true ∧ 1 ≤ bits w 12 3 ∧ bits w 12 3 ≤ 4) →
            exec (.rubricFetch k mode a) s = .next s) ∧
          (bits w 0 7 = 0x73 → bits w 15 5 = 0 → 2 ≤ bits w 12 3 % 4 → bits w 20 12 = 0xC01 →
            exec (.rubricFetch k mode a) s = .next (s.setRub k { s.rub k with rd := s.clock.time })) ∧
          (bits w 0 7 ≠ 0x2B → bits w 0 7 ≠ 0x0B → bits w 0 7 ≠ 0x73 → exec (.rubricFetch k mode a) s = .next s))))

/-- R404, R502 to R504: RUN, DRAIN and RESET, the end of a drain and its timeout after *quiesce_timeout* ms; an order in the wrong state ends with STATE_REJECT naming
the state it requires. -/
def Obligations.PartitionOrders : Prop :=
  ∀ (s : State) (k : Nat) (o : Order),
    (s.partitionOrder k 1 = some o → (s.part o.target).mode ≠ .idle → exec (.partitionRun k) s = .next ((s.beginOrder o.id).endOrder o (Done.reject 2 1))) ∧
    (s.partitionOrder k 1 = some o → (s.part o.target).mode = .idle → s.rootsValid o.target = true → ∃ t, exec (.partitionRun k) s = .next t ∧
      (t.part o.target).mode = .running ∧ t.mem = s.mem ∧ t.cores = s.cores) ∧
    (s.partitionOrder k 2 = some o → (s.part o.target).mode ≠ .running → exec (.partitionDrain k) s = .next ((s.beginOrder o.id).endOrder o (Done.reject 2 2))) ∧
    (s.partitionOrder k 2 = some o → (s.part o.target).mode = .running → ∃ t, exec (.partitionDrain k) s = .next t ∧
      (t.part o.target).mode = .draining ∧ t.mem = s.mem ∧ t.cores = s.cores ∧ Tab.get none t.modu.drainStart o.target.val = some s.clock.time) ∧
    (∀ p, (s.part p).mode = .draining → s.drained p = true → ∃ t, exec (.drainComplete p) s = .next t ∧ (t.part p).mode = .idle ∧ t.mem = s.mem ∧ t.cores = s.cores) ∧
    (∀ p, (s.part p).mode = .draining → s.drained p = false → exec (.drainComplete p) s = .next s) ∧
    (∀ p, (s.part p).mode ≠ .draining → exec (.drainTimeout p) s = .next s) ∧
    (∀ p t, Tab.get none s.modu.drainStart p.val = some t → s.clock.time.toNat < t.toNat + s.dictVal 0x2100 3 * msTicks →
      exec (.drainTimeout p) s = .next s) ∧
    (∀ p, (s.part p).mode = .draining →
      (∀ t, Tab.get none s.modu.drainStart p.val = some t → t.toNat + s.dictVal 0x2100 3 * msTicks ≤ s.clock.time.toNat) →
      exec (.drainTimeout p) s = .next (((s.resetCores ((s.coresOf p).filter (fun n =>
      decide ((s.core n).mode = .running) || decide ((s.core n).mode = .halted)))).stopRings (s.ringsOf p)).abortFolios p)) ∧
    (s.partitionOrder k 3 = some o → (s.part o.target).mode = .unformed → exec (.partitionReset k) s = .next ((s.beginOrder o.id).endOrder o (Done.reject 2 7))) ∧
    (s.partitionOrder k 3 = some o → (s.part o.target).mode ≠ .unformed → ∃ t, exec (.partitionReset k) s = .next t ∧ (t.part o.target).mode = .idle)

/-- R394, R395, R406 to R408: doorbells, releases, the coalescing timer, and the resets of the host interface. -/
def Obligations.HostQueues : Prop :=
  ∀ (s : State), s.plug.mainOn = true →
    (∀ q v, bits v.toNat 0 12 < (s.sq q.val).size → ∃ t, exec (.sqDoorbell q v) s = .next t ∧ t.host.sqs =
      Tab.set SQ.reset s.host.sqs q.val { s.sq q.val with tail := BitVec.ofNat 12 (bits v.toNat 0 12) } ∧ t.log = s.log ∧ t.mem = s.mem) ∧
    (∀ q v, (s.sq q.val).size ≤ bits v.toNat 0 12 → ∃ t, exec (.sqDoorbell q v) s = .next t ∧ t.host.sqs =
      Tab.set SQ.reset s.host.sqs q.val { s.sq q.val with err := true } ∧ t.mem = s.mem) ∧
    (∀ q, exec (.sqDisable q) s = .next (s.setSq q.val { s.sq q.val with enable := false })) ∧
    (∀ c v, (s.cq c.val).size ≤ bits v.toNat 0 16 → exec (.cqDoorbell c v) s = .next (s.setCq c.val { s.cq c.val with headErr := true })) ∧
    (∀ c v, bits v.toNat 0 16 < (s.cq c.val).size → (s.cq c.val).held = [] →
      (bits v.toNat 0 16 + (s.cq c.val).size - (s.cq c.val).head.toNat) % (s.cq c.val).size ≤
        ((s.cq c.val).tail.toNat + (s.cq c.val).size - (s.cq c.val).head.toNat) % (s.cq c.val).size →
      exec (.cqDoorbell c v) s = .next (s.setCq c.val { s.cq c.val with head := BitVec.ofNat 16 (bits v.toNat 0 16) })) ∧
    (∀ p slot v, (s.rslot p slot.val).state = .ready → bitOf v.toNat 31 = true → bits v.toNat 0 16 = (s.rslot p slot.val).gen.toNat →
      exec (.slotRelease p slot v) s = .next (s.setRslot p slot.val { s.rslot p slot.val with state := .released })) ∧
    (∀ p slot v, (s.rslot p slot.val).state ≠ .ready → ∃ t, exec (.slotRelease p slot v) s = .next t ∧ t.host.slots = s.host.slots ∧
      t.host.releaseIgnored = s.host.releaseIgnored + 1) ∧
    (∀ c, (s.cq c.val).irqEn = true → 0 < (s.cq c.val).unsignalled → exec (.cqCoalesceTimer c) s =
      .next ((s.setCq c.val { s.cq c.val with unsignalled := 0 }).raiseVector (s.cq c.val).function.toNat (s.cq c.val).vector.toNat)) ∧
    (∀ f : Fin 8, ∃ t, exec (.vfFlr f) s = .next t ∧ t.mem = s.mem ∧ (∀ e ∈ t.host.sqs, e.2.function.toNat = f.val + 1 → e.2.enable = false) ∧
      ∀ e ∈ t.host.cqs, e.2.function.toNat = f.val + 1 → e.2.enable = false) ∧
    (∀ c ∈ [Instr.pfFlr, .hotReset, .surpriseLinkDown, .conventionalReset], ∃ t, exec c s = .next t ∧ t.host.sqs = [] ∧ t.host.cqs = [] ∧
      t.host.msixPending = [] ∧ t.host.irq = IrqCfg.reset ∧ t.mem = s.mem ∧ t.fol = s.fol ∧ t.host.hostMem = s.host.hostMem ∧
      t.host.linkUp = (match c with
        | .pfFlr => s.host.linkUp
        | .surpriseLinkDown => false
        | _ => true))

/-- R393, R397 to R400, R404: fetching and checking an order, NOP, the runtime's mailbox, and BAR2. -/
def Obligations.OrderFlow : Prop :=
  ∀ (s : State),
    (s.plug.mainOn = true → s.modu.state = .ready ∨ s.modu.state = .active → ∀ p k, s.nextSq = some (p, k) →
      let q := s.sq k
      let a := q.base.toNat + 128 * q.head.toNat
      let bad := hostMarked s.host.hostBad a 128 || hostMarked s.host.hostPoison a 128
      let e := s.hostRead a 128
      let s1 := s.passHead p k
      (∀ d, s1.checkOrder q e bad = .error d → exec .orderFetch s = .next (s1.rejectOrder p k e d)) ∧
      (∀ cls op b, s1.checkOrder q e bad = .ok (cls, op, b) → ∃ t o, exec .orderFetch s = .next t ∧ t.host.orders = s.host.orders ++ [o] ∧
        o.cls = BitVec.ofNat 8 cls ∧ o.op = BitVec.ofNat 8 op ∧ o.block = b ∧ o.part = p ∧ o.started = false ∧ t.host.nextOrder = s.host.nextOrder + 1)) ∧
    (∀ k o, s.readyOrder k 1 0 = some o → ∃ t, exec (.workOrderNop k) s = .next t ∧ (∀ x ∈ t.host.orders, x.id ≠ o.id) ∧ t.mem = s.mem ∧ t.cores = s.cores) ∧
    (∀ k o, s.host.orders[k]? = some o → o.cls = 7 → (s.readyOrder k 7 o.op).isSome = true → ∃ t, exec (.runtime k) s = .next t ∧
      Tab.get [] t.host.mailboxes o.part.val = Tab.get [] s.host.mailboxes o.part.val ++ [(o.id, o.block)] ∧ t.mem = s.mem) ∧
    (∀ p i code info pay m o, (Tab.get [] s.host.mailboxes p.val)[i]? = some m → s.orderById m.1 = some o → ∃ t, exec (.runtimeReply p i code info pay) s = .next t ∧
      (∀ x ∈ t.host.orders, x.id ≠ o.id) ∧ t.mem = s.mem) ∧
    (∀ fn off len, s.plug.mainOn = false → exec (.bar2Read fn off len) s = .next (s.emit .bar2Unsupported) ∧ ∀ data b, exec (.bar2Write fn off data b) s = .next s) ∧
    (s.plug.mainOn = true → s.mem.latent = [] → ∀ off : W64,
      (∀ len, off.toNat + len ≤ 2 ^ 36 → s.checkUas (s.host.bar2Base.toNat * 2 ^ 36 + off.toNat) len 0 = none →
        let r := s.readUa .plain (s.host.bar2Base.toNat * 2 ^ 36 + off.toNat) len
        (r.2 = false → exec (.bar2Read 0 off len) s = .next (s.emit (.bar2Data r.1 false))) ∧
        (r.2 = true → ∃ t pre, exec (.bar2Read 0 off len) s = .next t ∧ t.out = pre ++ [.bar2Data r.1 true] ∧ t.mem = s.mem)) ∧
      (∀ data b, off.toNat + data.length ≤ 2 ^ 36 → s.checkUas (s.host.bar2Base.toNat * 2 ^ 36 + off.toNat) data.length 1 = none →
        exec (.bar2Write 0 off data b) s = .next (s.plainWrite .bar2 (piecesOf (s.host.bar2Base.toNat * 2 ^ 36 + off.toNat) data (fun _ => b)))))

/-! Unified memory: MEMORY and COPY orders, the ruling, migrations, frames, scrubbing (chapters 9, 16, 20) -/

/-- R397, R400, R402, R403, R500: a MEMORY order whose pages are as its op asks ends with its folio's seal, code 0 and its record, and with
its writes when it joins an OPEN one; joined to a DOOMED folio its writes are dropped (R245; what the record counts then is the model's, log
175); else it ends with the code of what stops it, or waits (on a spill of its tier, on board memory). Charges that wait are tried again after it
when it has returned frames (R278), which changes nothing when none waits. A COPY runs once, and ends when the last write of it has been
performed: one of a single page moves its bytes with their poison, either way. -/
def Obligations.MemoryOrders : Prop :=
  ∀ (s : State) (k : Nat) (o : Order),
    (∀ c op, (c, op) ∈ [(Instr.memoryMap k, 1), (.memoryUnmap k, 2), (.memoryMigrate k, 3), (.memoryPin k, 4), (.memoryUnpin k, 5), (.memoryAlias k, 6)] →
      (s.readyOrder k 5 (BitVec.ofNat 8 op) = none → exec c s = .next s) ∧
      (s.readyOrder k 5 (BitVec.ofNat 8 op) = some o →
        let s1 := s.beginOrder o.id
        let j : Job := ⟨o.part, o.block, .order { o with started := true }⟩
        let join := bitOf (j.fld 3 1) 0
        let record (code epoch : Nat) (r : MemRes) : List Byte :=
          leBytes 2 code ++ leBytes 1 op ++ leBytes 1 0 ++ leBytes 4 r.done ++ leBytes 4 r.skipped ++ leBytes 4 epoch ++ leBytes 8 0 ++ List.replicate 40 0
        let doomed := s1.joinsDoomed j.part join (BitVec.ofNat 64 (j.fld 8 8))
        j.fld 2 1 = op →
        (doomed = true → exec c s = .next ((s1.endRecord j (j.fld 16 8) { Done.of 0 with payload := record 0 0 ⟨0, 0⟩ }).retryFreed s)) ∧
        (doomed = false →
          (∀ x r, s1.memoryBody j = .ok (x, r) → join = false → (x.finish true).2.1 = 0 → exec c s = .next (((x.finish true).1.endRecord j (j.fld 16 8)
            { Done.of 0 with payload := record 0 (x.finish true).2.2.toNat r, info := BitVec.ofNat 32 r.done }).retryFreed s)) ∧
          (∀ x r, s1.memoryBody j = .ok (x, r) → join = true → x.f.mode = .opened → exec c s = .next ((x.done.endRecord j (j.fld 16 8)
            { Done.of 0 with payload := record 0 0 r, info := BitVec.ofNat 32 r.done }).retryFreed s)) ∧
          (∀ x r, s1.memoryBody j = .ok (x, r) → exec c s = .next ((s1.finishMemory j x r).retryFreed s)) ∧
          (∀ n v, s1.memoryBody j = .error (.code n v) → ∃ t : State, exec c s = .next (t.retryFreed s) ∧ t = s1.endRecord j (j.fld 16 8)
            { Done.of n with payload := memRecord (n % 2 ^ 16) (j.fld 2 1) ⟨0, 0⟩ 0 v } ∧ t.fol = s.fol ∧ t.parts = s.parts) ∧
          (∀ f, s1.memoryBody j = .error (.fault f) → exec c s = .next ((s1.refuseMemory j (.fault f)).retryFreed s)) ∧
          (∀ t, s1.memoryBody j = .error (.spill t) → (s1.batchOf j.part t).isSome = true →
            exec c s = .next ((s1.addWait (j.waitAs 5 (some t))).retryFreed s)) ∧
          (∀ t s2, s1.memoryBody j = .error (.spill t) → (s1.batchOf j.part t).isSome = false → s1.startSpill j.part t = some s2 →
            exec c s = .next (((s2.addWait (j.waitAs 5 (some t))).pump).retryFreed s)) ∧
          (s1.memoryBody j = .error .uninit → exec c s = .next ((s1.addWait (j.waitAs 5 none)).retryFreed s))))) ∧
    (∀ t u : State, t.mem.waits = [] → t.retryFreed u = t) ∧
    (s.readyOrder k 6 o.op = some o → o.cls = 6 → exec (.copy k) s =
      .next ((s.beginOrder o.id).runCopy ⟨o.part, o.block, .order o⟩ o.id)) ∧
    (s.readyOrder k 6 o.op = some o → o.cls = 6 → s.mem.latent = [] → s.mem.held = [] →
      let s1 := s.beginOrder o.id
      let j : Job := ⟨o.part, o.block, .order o⟩
      let n := j.fld 24 4
      ∀ ts, copyPieces (j.fld 16 8) n = [(0, n)] → bitOf (j.fld 3 1) 1 = false →
        (j.fld 2 1 = 0 → s1.translateAll (s1.copyReq j 0 1) (pagePieces (j.fld 16 8) n) = .ok ts → n % 64 = 0 →
          (∀ i < n / 64, hostMarked s.host.hostBad (j.fld 8 8 + 64 * i) 64 = false) →
          let t := s1.plainWrite (.copy o.id) (transPieces ts (s1.hostRead (j.fld 8 8) n) (fun i => hostMarked s.host.hostPoison (j.fld 8 8 + 64 * i) 64))
          t.mem.held = [] → exec (.copy k) s = .next (t.endOrder o { Done.of 0 with info := BitVec.ofNat 32 n })) ∧
        (j.fld 2 1 = 1 → s1.translateAll (s1.copyReq j 0 0) (pagePieces (j.fld 16 8) n) = .ok ts →
          (∀ x ∈ ts, ∀ g ∈ gransOf x.1.ua x.2, (s1.gran .plain g).poison = false) →
          exec (.copy k) s = .next ((s1.hostWrite (j.fld 8 8) (s1.readTrans .plain ts).1 (fun _ => false)).endOrder o
            { Done.of 0 with info := BitVec.ofNat 32 n }))) ∧
    (s.host.orders[k]? = some o → o.cls = 6 → o.started = true →
      (s.mem.held.any (fun w => decide (w.who = .copy o.id)) = true → exec (.copy k) s = .next s) ∧
      (s.mem.held.any (fun w => decide (w.who = .copy o.id)) = false → exec (.copy k) s =
        .next (s.endOrder o { Done.of 0 with info := BitVec.ofNat 32 (leField o.block 24 4) })))

/-- R217, R220, R229, R230, R309, R453, R454: the ruling's poll and deadlines, migrations, failed programs, frames that return, the write-back
area, and patrol reads. A ruling keeps the pages of its entries until their layer has passed (R281; DEDUCED, log 173); a frame retired has
the quotas of its tier checked (R224); after frames have returned the charges that wait are tried again (R278). -/
def Obligations.MemoryEvents : Prop :=
  ∀ (s : State) (p : PartNo) (i : Nat),
    ((s.preg p).ruleEnable = false → exec (.rulingPoll p) s = .next s) ∧
    (∀ b, (s.preg p).ruleEnable = true → s.mem.latent = [] → s.dvRead p (masterMig (s.home p)) (s.preg p).ruleCur.toNat 8 = .ok (b, false) →
      let cur : W32 := BitVec.ofNat 32 (leField b 0 4)
      exec (.rulingPoll p) s = .next (((s.modRuling p (fun r => { r with resident := r.resident.filter (fun e =>
        !serialAfter cur e.layer) })).startEntries p cur 65536).pump)) ∧
    (∀ b, (s.preg p).ruleEnable = true → s.mem.latent = [] → s.dvRead p (masterMig (s.home p)) (s.preg p).ruleCur.toNat 8 = .ok (b, true) →
      exec (.rulingPoll p) s = .next s) ∧
    (∀ e, (s.ruling p).started[i]? = some e →
      (s.clock.time.toNat ≤ e.deadline.toNat → exec (.rulingDeadline p i) s = .next s) ∧
      (e.deadline.toNat < s.clock.time.toNat → e.hasFallback = false →
        (e.missed = true → exec (.rulingDeadline p i) s = .next s) ∧
        (e.missed = false → ∃ t, exec (.rulingDeadline p i) s = .next t ∧ (t.preg p).ruleMiss = true ∧
          (t.ruling p).started = (s.ruling p).started.set i { e with missed := true } ∧
          (t.ruling p).missed = (if e.layer ∈ (s.ruling p).missed then (s.ruling p).missed else (s.ruling p).missed ++ [e.layer]) ∧
          t.mem.cells = s.mem.cells ∧ t.fol = s.fol ∧ t.cores = s.cores)) ∧
      (e.deadline.toNat < s.clock.time.toNat → e.hasFallback = true → exec (.rulingDeadline p i) s =
        .next (((((s.countDie (s.home p).val ⟨0x10, 1, 0, 2, 2, some p, none, none⟩).countApprox (s.home p).val).modPreg p (fun r =>
          { r with ruleFallback := true })).endEntry p e.idx 2).pump))) ∧
    (∀ g x, s.mem.migrations[i]? = some g → g.owner = .refresh →
      let s0 := s.modMem (fun m => { m with migrations := m.migrations.eraseIdx i })
      s0.migrationFolio g = .ok (x, false) → (x.finish false).2.1 = 0 → exec (.migration i) s =
        .next ((((x.finish false).1.countDie (mdieOf (dieOfFrame (g.frames.headD (0, 0)).2)).val ⟨0x0A, 1, 0, 2, 2, some g.part, none, none⟩).pump).retryFreed s)) ∧
    (∀ g bad x nf, s.mem.migrations[i]? = some g → g.frames.find? (fun f => decide (tierOfFrame f.2 = some 2) && decide (f.1 ≠ f.2)) = some bad →
      g.tries < 3 → (FX.fresh (s.retireFrame bad.2) g.part true).alloc g.part 2 0 (s.frame bad.2).classB false (s.frame bad.2).weight = .ok (x, nf) →
      let g1 : Migration := { g with tries := g.tries + 1, frames := g.frames.map (fun f => if f = bad then (f.1, nf) else f) }
      exec (.flashProgramFail (.move i)) s =
        .next (((x.s.modMem (fun m => { m with migrations := m.migrations.set i g1 })).quotaCheck g.part 2).retryFreed s)) ∧
    (∀ w, s.mem.wb[i]? = some w → exec (.flashProgramFail (.writeback i)) s = .next (s.refreshFrame w.part w.frame) ∧
      (w.since.toNat + s.dictVal (0x6100 + w.part.val) 4 * msTicks ≤ s.clock.time.toNat → ∃ t, exec (.writebackProgram i) s = .next t ∧
        t.mem = { s.mem with wb := s.mem.wb.eraseIdx i }) ∧
      (s.clock.time.toNat < w.since.toNat + s.dictVal (0x6100 + w.part.val) 4 * msTicks →
        4 * s.wbCount w.part ≤ 3 * s.dictVal (0x6100 + w.part.val) 3 → exec (.writebackProgram i) s = .next s)) ∧
    (∀ (f : W32) tier ep, tierOfFrame f.toNat = some tier → Tab.get none s.mem.retireAt f.toNat = some ep →
      ((s.frame f.toNat).state ≠ 2 → exec (.frameReturn f) s = .next s) ∧
      (∀ sid q, (sid, some q) ∈ s.fol.snaps → serialAfter ep q.epoch = true → exec (.frameReturn f) s = .next s) ∧
      ((s.frame f.toNat).state = 2 → (∀ sid q, (sid, some q) ∈ s.fol.snaps → serialAfter ep q.epoch = false) →
        (f.toNat ∉ Tab.get [] s.mem.retireList (mdieOf (dieOfFrame f.toNat)).val → exec (.frameReturn f) s =
          .next (if (s.frame f.toNat).classB then (s.freeFrame f.toNat).retryTier (partOf (s.frame f.toNat).part) tier else (s.freeFrame f.toNat).pump)) ∧
        (f.toNat ∈ Tab.get [] s.mem.retireList (mdieOf (dieOfFrame f.toNat)).val → exec (.frameReturn f) s =
          .next ((s.retireFrame f.toNat).quotaCheck (partOf (s.frame f.toNat).part) tier)))) ∧
    (∀ (a : W64), s.plug.mainOn = true → s.implemented (a.toNat / 65536) = true → s.Inv →
      (∃ t, exec (.scrubRead a .clean) s = .next t ∧ t.mem = s.mem ∧ t.log = s.log) ∧
      (∀ n, tierOfFrame (a.toNat / 65536) = some 0 → ∃ t : State, exec (.scrubRead a (.lost n)) s = .next (t.sharedCodeLost (a.toNat / 64)) ∧
        (t.homeGran (a.toNat / 64)).poison = true ∧ t.mem.cells = s.mem.cells ∧ t.fol = s.fol))

/-! Folios (chapter 10) -/

/-- R238, R246, R248, R249, R254 to R258: opening, extending, sealing, scraping, inspecting and resolving a local folio, snapshots, bound
writes, and the decrement of a replaced subtree. -/
def Obligations.Folios : Prop :=
  ∀ (s : State) (src : CmdSrc) (s1 : State) (j : Job), FolioState.wf s.fol = true →
    (s.takeFolio src 1 = (s1, some j) → bitOf (j.fld 3 1) 0 = false →
      (s1.freeSlot = none ∨ s1.dictVal (0x4300 + j.part.val) 1 ≤ s1.openCount j.part → exec (.folioOpen src) s = .next (s1.endFolio j (.plain 0x0308 0))) ∧
      (∀ id, s1.freeSlot = some id → s1.openCount j.part < s1.dictVal (0x4300 + j.part.val) 1 → ∃ t, exec (.folioOpen src) s = .next t ∧
        t.fol = { s1.fol with slots := Tab.set Folio.reset s1.fol.slots id { Folio.reset with
          gen := (s1.slot id).gen + 1, mode := .opened, part := j.part, tolerant := bitOf (j.fld 3 1) 1,
          deadline := BitVec.ofNat 64 (j.fld 12 8), resultAddr := BitVec.ofNat 64 (j.fld 44 8) } })) ∧
    (s.takeFolio src 2 = (s1, some j) →
      let id := handleSlot j.handle
      (s1.named j.part j.handle = false → exec (.folioExtend src) s = .next (s1.endClosed j)) ∧
      (s1.named j.part j.handle = true → (s1.slot id).mode = .opened → (s1.slot id).deadline.toNat ≤ j.fld 12 8 → ∃ t, exec (.folioExtend src) s = .next t ∧
        t.fol = { s1.fol with slots := Tab.set Folio.reset s1.fol.slots id { s1.slot id with deadline := BitVec.ofNat 64 (j.fld 12 8) } })) ∧
    (s.takeFolio src 3 = (s1, some j) → s1.named j.part j.handle = true →
      let id := handleSlot j.handle
      let x := (FX.ofSlot (s1.awaitEnd id j) id).judge
      ((s1.slot id).mode = .opened → (s1.slot id).span = none →
        (x.f.poisoned = 0 ∨ x.f.tolerant = true → ∃ t : State, exec (.folioSeal src) s = .next (t.retryFreed s) ∧ (t.slot id).mode = .sealed ∧ (t.slot id).sealEpoch = s1.fol.epoch + 1 ∧
          t.fol.epoch = s1.fol.epoch + 1) ∧
        (x.f.poisoned ≠ 0 → x.f.tolerant = false → ∃ t : State, exec (.folioSeal src) s = .next (t.retryFreed s) ∧ (t.slot id).mode = .free ∧ t.fol.epoch = s1.fol.epoch)) ∧
      ((s1.slot id).mode = .doomed → exec (.folioSeal src) s = .next (((s1.awaitEnd id j).scrapePart id (s1.slot id).cause).retryFreed s)) ∧
      ((s1.slot id).mode = .opened → (s1.slot id).span.isSome = true → exec (.folioSeal src) s = .next (((s1.awaitEnd id j).completePart id).retryFreed s))) ∧
    (∀ (id : BitVec 14) lost, ((s.slot id.toNat).mode ≠ .sealed → exec (.folioApplyComplete ⟨id, lost⟩) s = .next s) ∧
      ((s.slot id.toNat).mode = .sealed → ∃ t, exec (.folioApplyComplete ⟨id, lost⟩) s = .next t ∧ (t.slot id.toNat).mode = .free ∧
        (t.slot id.toNat).gen = (s.slot id.toNat).gen ∧ t.fol.epoch = s.fol.epoch)) ∧
    (s.takeFolio src 4 = (s1, some j) → s1.named j.part j.handle = true → (s1.slot (handleSlot j.handle)).mode = .opened →
      (s1.slot (handleSlot j.handle)).span = none → ∃ t : State, exec (.folioScrape src) s = .next (t.retryFreed s) ∧ (t.slot (handleSlot j.handle)).mode = .free ∧ t.fol.epoch = s1.fol.epoch) ∧
    (s.takeFolio src 5 = (s1, some j) → ∃ t, exec (.folioInspect src) s = .next t ∧ t.fol = s1.fol ∧ t.parts = s1.parts) ∧
    (s.takeFolio src 6 = (s1, some j) →
      let e : W32 := if j.fld 40 4 = 0xFFFFFFFF then s1.fol.epoch else BitVec.ofNat 32 (j.fld 40 4)
      ∀ sid, (s1.snapsOf j.part).length < s1.dictVal (0x4300 + j.part.val) 4 → (List.range 1024).find? (fun i => decide (Tab.get none s1.fol.snaps i = none)) = some sid →
        (s1.inReach e = true → serialAfter (s1.floor j.part) e = false → ∃ t, exec (.snapOpen src) s = .next t ∧
          t.fol = { s1.fol with snaps := Tab.set none s1.fol.snaps sid (some ⟨j.part, e⟩) }) ∧
        (s1.inReach e = false ∨ serialAfter (s1.floor j.part) e = true → exec (.snapOpen src) s = .next (s1.endFolio j (.plain 0x0304 0)))) ∧
    (∀ sn, s.takeFolio src 7 = (s1, some j) → Tab.get none s1.fol.snaps (bits (j.fld 4 8) 0 10) = some sn → sn.part = j.part → ∃ t, exec (.snapClose src) s = .next t ∧
      Tab.get none t.fol.snaps (bits (j.fld 4 8) 0 10) = none ∧ t.fol.slots = s1.fol.slots ∧ t.fol.epoch = s1.fol.epoch) ∧
    (s.takeFolio src 8 = (s1, some j) → s1.named j.part j.handle = true → (s1.slot (handleSlot j.handle)).mode = .inDoubt →
      (bitOf (j.fld 3 1) 2 = true → ∃ t, exec (.folioResolve src) s = .next t ∧ (t.slot (handleSlot j.handle)).mode = .sealed ∧ t.fol.epoch = s1.fol.epoch + 1) ∧
      (bitOf (j.fld 3 1) 2 = false → ∃ t : State, exec (.folioResolve src) s = .next (t.retryFreed s) ∧ (t.slot (handleSlot j.handle)).mode = .free ∧ t.fol.epoch = s1.fol.epoch)) ∧
    (∀ p handle addr data poisoned,
      (s.named p handle = false → exec (.folioWrite p handle addr data poisoned) s = .next (s.emit (.engineCode p 0x0306))) ∧
      (∀ ts, s.named p handle = true → (s.slot (handleSlot handle)).mode = .opened →
        s.translateAll (s.engineReq p addr.toNat 1 (masterMig (s.home p))) (pagePieces addr.toNat data.length) = .ok ts →
        exec (.folioWrite p handle addr data poisoned) s =
          .next ((FX.ofSlot s (handleSlot handle)).write true (transPieces ts data (fun _ => poisoned))).done)) ∧
    (∀ table level e rest, s.mem.subtrees = (table, level, e) :: rest → ∃ t, exec .subtreeDecrement s = .next t ∧ t.fol = s.fol ∧
      t.mem.subtrees = rest ++ (if level = 3 then [] else (((List.range 4096).map (fun i => s.mem.cells.getLE (table + 8 * i) 8)).filter (fun v =>
        bitOf v 0)).map (fun v => (nextTable v, level + 1, e))))

/-! Spanning folios (chapter 10) -/

/-- R251 to R253, R257, R258: a spanning OPEN, PREPARE and its vote, the coordinator's count and decision, acknowledgements, and the deadlines of
a spanning folio. A message from another module that is not addressed to this module and a partition formed here is discarded and counted (R351);
one toward a module whose ports are all held ends with PORT_HELD (R358); charges that wait are tried again after a part has scraped (R278). -/
def Obligations.Spanning : Prop :=
  ∀ (s : State), FolioState.wf s.fol = true → ∀ (m : SpanMsg) (i : Nat),
    (∀ v, m.via = some v → s.addressed v.dst v.part.toNat = false → let t := s.countPort v.port 0x11 1 0
      exec (.prepare m i) s = .next (t.retryFreed s) ∧ exec (.decisionQuery m i 0) s = .next t ∧
      (∀ sealed code no, exec (.decision m i sealed code no) s = .next (t.retryFreed s)) ∧
      (∀ k yes code time, exec (.vote m k yes code time) s = .next (t.retryFreed s)) ∧ ∀ k, exec (.decisionAck m k) s = .next (t.retryFreed s)) ∧
    ((∀ v, m.via = some v → s.addressed v.dst v.part.toNat = true) →
      (s.partSlot m.globalId i = none →
        (s.scrapedPart m.globalId i = none → exec (.prepare m i) s =
            .next ((s.emit (.folio m.globalId 0 i none (.vote false 0x0306 s.clock.time))).retryFreed s) ∧
          ∀ sealed code no, exec (.decision m i sealed code no) s = .next ((s.emit (.folio m.globalId 0 i none .ack)).retryFreed s)) ∧
        (∀ e, s.scrapedPart m.globalId i = some e → exec (.prepare m i) s =
            .next ((s.emit (.folio m.globalId 0 i none (.vote false e.code s.clock.time))).retryFreed s) ∧
          (s.keptDecision m.globalId i = none → ∀ sealed code no, exec (.decision m i sealed code no) s =
            .next (((s.keepDecision ⟨m.globalId, i, sealed, code, no, e.deadline⟩).emit (.folio m.globalId 0 i none .ack)).retryFreed s)))) ∧
      (∀ id f sp, s.partSlot m.globalId i = some (id, f) → f.span = some sp → sp.myIndex ≠ 0 → sp.voted = false →
        let tell (msg : FolioMsg) : Out := match sp.members[0]?, sp.members[sp.myIndex]? with
          | some x, some me => if x.module ≠ s.address ∧ s.heldToward x.module = true then .engineCode (partOf me.part.toNat) 0x040C
              else .folio sp.globalId 0 sp.myIndex (some x) msg
          | x, _ => .folio sp.globalId 0 sp.myIndex x msg
        (f.mode = .complete → sp.late = false → (FX.ofSlot (s.modSpan id (fun x => { x with prepareSeen := true })) id).judge.f.poisoned = 0 →
          ∃ t : State, exec (.prepare m i) s = .next (t.retryFreed s) ∧ (t.slot id).mode = .prepared ∧ (t.slot id).pages = f.pages ∧
            t.out = s.out ++ [tell (.vote true 0 s.clock.time)]) ∧
        (f.mode = .doomed → ∃ t : State, exec (.prepare m i) s = .next (t.retryFreed s) ∧
            t.out = s.out ++ [tell (.vote false f.cause s.clock.time)])) ∧
      (∀ id f sp (k : Nat) (code : W16) (time : W64), s.partSlot m.globalId 0 = some (id, f) → f.span = some sp → sp.decision = none → k < sp.members.length →
        sp.votes.any (fun v => decide (v.member = k)) = false → 1 < sp.members.length →
        let vs (yes : Bool) := sp.votes ++ [⟨k, yes, code, time⟩]
        let s1 (yes : Bool) := s.modSpan id (fun x => { x with votes := x.votes ++ [⟨k, yes, code, time⟩] })
        let all (yes : Bool) : Prop := ∀ q, q < sp.members.length → (vs yes).any (fun v => decide (v.member = q)) = true
        (∀ yes q, q < sp.members.length → (vs yes).any (fun v => decide (v.member = q)) = false →
          exec (.vote m k yes code time) s = .next ((s1 yes).retryFreed s)) ∧
        (all true → (∀ v ∈ vs true, v.yes = true ∧ v.time ≤ f.deadline) →
          s.clock.time ≤ f.deadline → exec (.vote m k true code time) s = .next (((s1 true).decideSpan id true 0 0).retryFreed s)) ∧
        (∀ yes, all yes → f.deadline < s.clock.time → exec (.vote m k yes code time) s = .next (((s1 yes).decideSpan id false 0x0305 0).retryFreed s)) ∧
        (∀ yes v q, all yes → s.clock.time ≤ f.deadline → (∀ v ∈ vs yes, v.time ≤ f.deadline) → q < sp.members.length →
          (vs yes).find? (fun v => decide (v.member = q) && !v.yes) = some v → (∀ r < q, (vs yes).find? (fun v => decide (v.member = r) && !v.yes) = none) →
          exec (.vote m k yes code time) s = .next (((s1 yes).decideSpan id false v.code v.member).retryFreed s))) ∧
      (∀ id f sp, s.partSlot m.globalId i = some (id, f) → f.span = some sp → sp.decision = none → sp.myIndex ≠ 0 → f.mode = .prepared → ∀ code no,
        (∃ t : State, exec (.decision m i true code no) s = .next (t.retryFreed s) ∧ (t.slot id).mode = .sealed ∧ t.fol.epoch = s.fol.epoch + 1) ∧
        (∃ t : State, exec (.decision m i false code no) s = .next (t.retryFreed s) ∧ (t.slot id).mode = .free ∧ t.fol.epoch = s.fol.epoch)) ∧
      (∀ id f sp k, s.partSlot m.globalId 0 = some (id, f) → f.span = some sp →
        (sp.decision = none → exec (.decisionAck m k) s = .next s) ∧
        (∀ d, sp.decision = some d → k ∉ sp.acks →
          let s1 := s.modSpan id (fun _ => { sp with acks := sp.acks ++ [k] })
          exec (.decisionAck m k) s =
            .next ((if ({ sp with acks := sp.acks ++ [k] } : Span).allAcked then s1.coordAct id else s1).retryFreed s))) ∧
      (∀ k asker, s.keptDecision m.globalId i = some k → exec (.decisionQuery m i asker) s =
        .next (s.emit (.folio m.globalId asker i none (.decision k.sealed k.code k.noIndex)))) ∧
      (∀ id f asker, s.keptDecision m.globalId 0 = none → s.partSlot m.globalId 0 = some (id, f) → f.deadline < s.clock.time → exec (.decisionQuery m 0 asker) s =
        .next ((s.decideSpan id false 0x0305 0).emit (.folio m.globalId asker 0 none (.decision false 0x0305 0))))) ∧
    (∀ src s1 j bs id, s.takeFolio src 1 = (s1, some j) → bitOf (j.fld 3 1) 0 = true →
      s1.dvRead j.part (masterMig (s1.home j.part)) (j.fld 32 8) (8 * j.fld 28 2) = .ok (bs, false) →
      (∀ q < j.fld 28 2, zeroFrom bs (8 * q + 5) 3 = true) → s1.freeSlot = some id → s1.openCount j.part < s1.dictVal (0x4300 + j.part.val) 1 →
      ∃ t sp, exec (.folioOpen src) s = .next t ∧ t.slot id = { Folio.reset with
          gen := (s1.slot id).gen + 1, mode := .opened, part := j.part, tolerant := bitOf (j.fld 3 1) 1,
          deadline := BitVec.ofNat 64 (j.fld 12 8), resultAddr := BitVec.ofNat 64 (j.fld 44 8), span := some sp } ∧
        sp.globalId = BitVec.ofNat 64 (j.fld 20 8) ∧ sp.myIndex = j.fld 30 2 ∧ sp.decision = none ∧ sp.voted = false ∧ sp.votes = [] ∧
        sp.members = (List.range (j.fld 28 2)).map (fun q => ⟨BitVec.ofNat 32 (leField bs (8 * q) 4), BitVec.ofNat 8 (leField bs (8 * q + 4) 1)⟩)) ∧
    (∀ (id : BitVec 14) sp, (s.slot id.toNat).span = some sp →
      (s.clock.time ≤ (s.slot id.toNat).deadline → exec (.spanDeadline id) s = .next s) ∧
      ((s.slot id.toNat).deadline < s.clock.time → sp.decision = none → sp.myIndex = 0 → 1 < sp.members.length →
        exec (.spanDeadline id) s = .next ((s.decideSpan id.toNat false 0x0305 0).retryFreed s)) ∧
      ((s.slot id.toNat).deadline < s.clock.time → sp.decision = none → sp.myIndex ≠ 0 → (s.slot id.toNat).mode = .opened →
        exec (.spanDeadline id) s = .next (let t := s.modSpan id.toNat (fun x => { x with late := true })
          if sp.prepareSeen then t.answerPart id.toNat else t)) ∧
      (sp.myIndex = 0 → sp.decision.isSome = true → sp.decidedAt.toNat + 10 * msTicks ≤ s.clock.time.toNat →
        exec (.coordAckTimeout id) s = .next ((s.coordAct id.toNat).retryFreed s)) ∧
      ((s.slot id.toNat).mode = .prepared → sp.decision = none → sp.myIndex ≠ 0 →
        (sp.queried = false → (s.slot id.toNat).deadline.toNat + 100 * usTicks ≤ s.clock.time.toNat →
          (∀ x ∈ sp.members, x.module = s.address ∨ s.heldToward x.module = false) → ∃ t, exec (.inDoubtQuery id) s = .next t ∧ t.mem = s.mem ∧
          t.out = s.out ++ ((List.range sp.members.length).filter (fun k => decide (k ≠ sp.myIndex))).map (fun k =>
            .folio sp.globalId k sp.myIndex sp.members[k]? .query)) ∧
        ((s.slot id.toNat).deadline.toNat + 10 * msTicks ≤ s.clock.time.toNat → ∃ t, exec (.folioInDoubt id) s = .next t ∧
          t.slot id.toNat = { s.slot id.toNat with mode := .inDoubt } ∧ t.mem = s.mem))) ∧
    (∃ t, exec (.decisionAnswerExpiry m.globalId i) s = .next t ∧ t.fol.slots = s.fol.slots ∧ ∀ k, k ∈ t.fol.kept ↔
      k ∈ s.fol.kept ∧ ¬ (k.globalId = m.globalId ∧ k.index = i ∧ k.deadline.toNat + 10 * msTicks ≤ s.clock.time.toNat))

/-! The key-value cache (chapter 11) -/

/-- R225, R257, R267, R268, R278: a cache order whose context and pages are as its op asks ends with its folio's seal, code 0 and its record, or
with its writes when it joins a folio that is not DOOMED; else it ends with the code of what stops it, or waits; a 257th submission is
dropped; the end of a spill batch tries the waiting charges again, and a wait that lasts too long is refused. -/
def Obligations.Caches : Prop :=
  ∀ (s : State),
    (∀ src c op t j, (c, op) ∈ [(Instr.cacheCreate src, 1), (.cacheRelease src, 2), (.cacheAppend src, 3), (.cacheShare src, 4), (.cacheMass src, 5), (.cacheRebase src, 6)] →
      (∀ p a, src = .submit p a → s.cacheQueued p < 256) →
      s.takeJob src 3 op 64 cacheFormOk (fun g => { g with inkErr := true }) = (t, some j) →
      let join := bitOf (j.fld 3 1) 0
      let record (code epoch : Nat) (r : CacheRes) : List Byte := leBytes 2 code ++ leBytes 1 (j.fld 2 1) ++ leBytes 1 r.flags ++ leBytes 2 (j.fld 4 2) ++
        leBytes 2 r.stream ++ leBytes 8 r.page ++ leBytes 4 r.opened ++ leBytes 4 r.copied ++ leBytes 4 r.released ++ leBytes 4 epoch ++ List.replicate 32 0
      (∀ x r, t.cacheBody j = .ok (x, r) → join = false → (x.finish true).2.1 = 0 → exec c s = .next (((x.finish true).1.endRecord j (j.fld 16 8)
        { Done.of 0 with payload := record 0 (x.finish true).2.2.toNat r }).retryFreed s)) ∧
      (∀ x r, t.cacheBody j = .ok (x, r) → join = true → x.f.mode ≠ .doomed → exec c s = .next ((x.done.endRecord j (j.fld 16 8)
        { Done.of 0 with payload := record 0 0 r }).retryFreed s)) ∧
      (∀ x r, t.cacheBody j = .ok (x, r) → exec c s = .next ((t.finishCache j x r).retryFreed s)) ∧
      (∀ n v, t.cacheBody j = .error (.code n v) → ∃ u : State, exec c s = .next (u.retryFreed s) ∧ u = t.refuseCache j (.code n v) ∧ u.fol = t.fol ∧
        (n ≠ 0x0503 → n < 2 ^ 16 →
          u = t.endRecord j (j.fld 16 8) { Done.of n with payload := record n 0 CacheRes.none })) ∧
      (∀ st pg n v, t.cacheBody j = .error (.at_ st pg (.code n v)) → n ≠ 0x0503 → n < 2 ^ 16 →
        exec c s = .next ((t.endRecord j (j.fld 16 8) { Done.of n with payload := record n 0 { CacheRes.none with stream := st, page := pg } }).retryFreed s)) ∧
      (∀ k, t.cacheBody j = .error (.spill k) → (t.batchOf j.part k).isSome = true → exec c s = .next ((t.addWait (j.waitAs 3 (some k))).retryFreed s))) ∧
    (∀ p a c, c ∈ [Instr.cacheCreate (.submit p a), .cacheRelease (.submit p a), .cacheAppend (.submit p a), .cacheShare (.submit p a), .cacheMass (.submit p a),
      .cacheRebase (.submit p a)] → 256 ≤ s.cacheQueued p → ∃ t, exec c s = .next t ∧ (t.preg p).inkOrdDrop = true ∧ t.mem.cells = s.mem.cells ∧ t.fol = s.fol) ∧
    (∀ p (tier : Fin 2), s.batchOf p tier.val = none → exec (.spillBatchEnd p tier) s = .next s) ∧
    (∀ p (tier : Fin 2) b, s.batchOf p tier.val = some b → (b.left ≠ 0 → exec (.spillBatchEnd p tier) s = .next s) ∧
      (b.left = 0 → exec (.spillBatchEnd p tier) s = .next ((s.modMem (fun m => { m with
          batches := m.batches.filter (fun x => decide (x.part ≠ p) || decide (x.tier ≠ tier.val)),
          lastBatch := Tab.set none m.lastBatch (4 * p.val + tier.val) (some (b.sealed, s.clock.time)) })).retryTier p tier.val))) ∧
    (∀ i x k, s.mem.waits[i]? = some x → x.tier = some k →
      (s.waitOver x.part k = false → exec (.spillWaitTimeout (.order i)) s = .next s) ∧
      (s.waitOver x.part k = true → exec (.spillWaitTimeout (.order i)) s =
        .next ((s.modMem (fun m => { m with waits := m.waits.eraseIdx i })).refuseWait x.cls
          ((s.modMem (fun m => { m with waits := m.waits.eraseIdx i })).jobOf x.part x.block x.order)))) ∧
    (∀ i x, s.mem.moves[i]? = some x →
      (x.waited = false ∨ s.waitOver x.part x.tier = false → exec (.spillWaitTimeout (.move i)) s = .next s) ∧
      (x.waited = true → s.waitOver x.part x.tier = true → exec (.spillWaitTimeout (.move i)) s = .next ((s.advanceMove i).moveEnded x.owner 1 false).pump))

/-! The codex (chapter 12) -/

/-- R299 to R314: edits of the codex in their folios, queries and the rounds of their walks, the re-rank and its record, deadlines and fallbacks,
repairs, the splice of a dropped subgraph and the sweep of old epochs. Writes joined to a DOOMED folio are dropped without a fault (R245; that the
record says code 0 is the model's, log 175). -/
def Obligations.Codex : Prop :=
  ∀ (s : State),
    (∀ src c op (body : Job → FX → Except OrdErr (FX × CodexRes)) t j,
      (c, op, body) ∈ [(Instr.codexCreateIndex src, 1, fun j x => (x.createIndex j).map (fun y => (y, CodexRes.none))),
        (.codexDropIndex src, 2, fun j x => (x.dropIndex j).map (fun y => (y, CodexRes.none))),
        (.codexInsert src, 3, fun j x => x.insertVectors j), (.codexDelete src, 4, fun j x => x.deleteItems j),
        (.codexDropSubgraph src, 6, fun j x => (x.dropSubgraph j).map (fun y => (y, CodexRes.none)))] →
      s.codexJob src op = (t, some j) →
      (t.joinsDoomed j.part (bitOf (j.fld 3 1) 0) (BitVec.ofNat 64 (j.fld 8 8)) = true → exec c s = .next (t.endCodex j (Done.of 0) CodexRes.none)) ∧
      (t.joinsDoomed j.part (bitOf (j.fld 3 1) 0) (BitVec.ofNat 64 (j.fld 8 8)) = false → (∀ e, t.orderFolio j.part (bitOf (j.fld 3 1) 0) (BitVec.ofNat 64 (j.fld 8 8)) true = .error e → exec c s = .next (t.refuseCodex j CodexRes.none e)) ∧
      (∀ x0, t.orderFolio j.part (bitOf (j.fld 3 1) 0) (BitVec.ofNat 64 (j.fld 8 8)) true = .ok x0 →
        (∀ e, body j x0 = .error e → exec c s = .next (t.refuseCodex j CodexRes.none e)) ∧
        (∀ x r, body j x0 = .ok (x, r) → bitOf (j.fld 3 1) 0 = false → exec c s = .next ((x.finish false).1.endCodex j (Done.of (x.finish false).2.1.toNat)
          (if (x.finish false).2.1 = 0 then { r with epoch := (x.finish false).2.2.toNat } else CodexRes.none))) ∧
        (∀ x r, body j x0 = .ok (x, r) → bitOf (j.fld 3 1) 0 = false → (x.finish false).2.1 = 0 → exec c s =
          .next ((x.finish false).1.endCodex j (Done.of 0) { r with epoch := (x.finish false).2.2.toNat })) ∧
        (∀ x r, body j x0 = .ok (x, r) → bitOf (j.fld 3 1) 0 = true → x.f.mode = .opened → exec c s = .next (x.done.endCodex j (Done.of 0) r))))) ∧
    (∀ p a c, c ∈ [Instr.codexCreateIndex (.submit p a), .codexDropIndex (.submit p a), .codexInsert (.submit p a), .codexDelete (.submit p a), .codexQuery (.submit p a),
      .codexDropSubgraph (.submit p a)] → 256 ≤ s.codexQueued p → ∃ t, exec c s = .next t ∧ (t.preg p).codexOrdDrop = true ∧ t.mem.cells = s.mem.cells ∧ t.fol = s.fol) ∧
    (∀ src t j, s.codexJob src 5 = (t, some j) →
      (∀ e, t.admitQuery j = .error e → exec (.codexQuery src) s =
        .next (t.refuseCodex j { CodexRes.none with epoch := (t.queryEpoch j).toNat } e)) ∧
      (∀ w y u, t.admitQuery j = .ok (w, y, u) → y.f 4 1 = 0 → exec (.codexQuery src) s = .next ((((u.countDie (u.home j.part).val
        ⟨0x12, 1, 0, 2, 2, some j.part, none, none⟩).countApprox (u.home j.part).val).modMem (fun q => { q with walks := q.walks ++ [w] })).pumpWalks)) ∧
      (∀ w y u, t.admitQuery j = .ok (w, y, u) → y.f 4 1 ≠ 0 → exec (.codexQuery src) s =
        .next (((u.countDie (u.home j.part).val ⟨0x12, 1, 0, 2, 2, some j.part, none, none⟩).modMem (fun q => { q with walks := q.walks ++ [w] })).pumpWalks))) ∧
    (∀ i w, s.mem.walks[i]? = some w →
      (w.phase ≠ .walking → exec (.walkRoundReturn i) s = .next s) ∧
      (w.phase = .walking → s.overdue w = true → s.queryFallback w = true → exec (.walkRoundReturn i) s = .next ((s.fallBack i w).pumpWalks)) ∧
      (w.phase = .walking → s.overdue w = false ∨ s.queryFallback w = false → s.inReach w.epoch = false → exec (.walkRoundReturn i) s =
        .next ((s.failWalk i w (.code 0x0304 0)).pumpWalks)) ∧
      (∀ a st, w.phase = .walking → s.overdue w = false ∨ s.queryFallback w = false → s.inReach w.epoch = true → s.ixAddr w.part (leField w.block 4 1) = some a →
        let y : Ix := ⟨leField w.block 4 1, a, (FX.fresh s w.part true).read a 256⟩
        (FX.fresh s w.part true).walkMerge w.part y w.req w.st = .ok st → ∃ t, exec (.walkRoundReturn i) s = .next t ∧
          t.mem = { s.mem with walks := s.mem.walks.set i (({ w with st := st } : Walk).advance (y.f 7 1)) } ∧ t.fol = s.fol) ∧
      (w.phase = .rerank → exec (.rerankComplete i) s = .next ((s.finishQuery i w).pumpWalks)) ∧
      (w.phase = .rerank → s.overdue w = true → s.queryFallback w = true → exec (.rerankComplete i) s = .next ((s.fallBack i w).pumpWalks)) ∧
      (∀ a rows sc, w.phase = .rerank → s.overdue w = false → s.inReach w.epoch = true → s.ixAddr w.part (leField w.block 4 1) = some a →
        let x := FX.fresh s w.part true
        let y : Ix := ⟨leField w.block 4 1, a, x.read a 256⟩
        let m := (s.home w.part).val
        x.queryRows w.part y w.block = .ok (rows, false) → w.st.allowed.mapM (fun c => x.scoreItem w.part y rows c) = .ok sc →
        w.req.k ≤ w.st.allowed.length → leField w.block 104 8 = 0 → w.st.widened = false →
        let top := (sortBy Scored.before (sc.filterMap id)).take w.req.k
        exec (.rerankComplete i) s = .next (((((s.dropWalk i).countLate w).endCodex (s.walkJob w) (Done.of 0)
          { w.res false with flags := 0, poisoned := w.st.poisoned + (sc.length - (sc.filterMap id).length),
                             entries := top.map (fun q => resultEntry y q.n q.dist q.score) }).queryStatus (s.walkJob w) 1).pumpWalks)) ∧
      (w.phase ≠ .rerank → exec (.rerankComplete i) s = .next s) ∧
      (s.clock.time.toNat ≤ leField w.block 112 8 → exec (.queryDeadline i) s = .next s) ∧
      (leField w.block 112 8 < s.clock.time.toNat → (s.queryFallback w = true → exec (.queryDeadline i) s = .next ((s.fallBack i w).pumpWalks)) ∧
        (s.queryFallback w = false → exec (.queryDeadline i) s = .next (s.setWalk i { w with late := true })))) ∧
    (∀ (i : W16) a, s.ixAddr 0 i.toNat = some a →
      let p := partOf (leField ((FX.fresh s 0 true).read a 256) 5 1)
      let x := FX.fresh s p true
      (∀ g : W32, s.mem.walks.any (fun w => decide (leField w.block 4 1 = i.toNat) && decide (leField w.block 32 4 = g.toNat)) = true →
        exec (.subgraphSplice i g) s = .next s) ∧
      (∀ (g : W32) y sub x1 x2, s.mem.walks.any (fun w => decide (leField w.block 4 1 = i.toNat) && decide (leField w.block 32 4 = g.toNat)) = false →
        x.ix p i.toNat = .ok y → g.toNat < y.f 80 4 → x.area p (y.subAddr g.toNat) 32 = .ok sub → bitOf (leField sub.1 15 1) 1 = true →
        x.areaWrite p (y.groupAddr (leField sub.1 10 5) + 10) (leBytes 5 (if y.f 120 8 = 2 ^ 64 - 1 then 2 ^ 40 - 1 else y.f 120 8)) (fun _ => false) = .ok x1 →
        x1.areaWrite p (y.subAddr g.toNat) (List.replicate 32 0) (fun _ => false) = .ok x2 → exec (.subgraphSplice i g) s =
          .next ((((x2.setIx y 120 8 (leField sub.1 5 5)).setIx y 104 8 (y.f 104 8 - leField sub.1 16 8)).finish false).1)) ∧
      (leField (x.read a 256) 2 1 = 2 → s.walksIndex i.toNat = false → exec (.indexFree i) s = .next ((x.writeOwn (a + 2) [0]).finish false).1) ∧
      (leField (x.read a 256) 2 1 ≠ 2 ∨ s.walksIndex i.toNat = true → exec (.indexFree i) s = .next s) ∧
      (∀ (node : W32) y sb ua, x.ix p i.toNat = .ok y → node.toNat < y.f 88 8 → x.itemState p y node.toNat = .ok (sb, false) →
        bitOf (leField sb 8 1) 0 = true → bitOf (leField sb 8 1) 2 = false → bitOf (leField sb 8 1) 1 = false →
        2 ^ 30 ≤ (s.fol.epoch - BitVec.ofNat 32 (leField sb 0 4)).toNat → x.areaUa p (y.stateAddr node.toNat + 8) = .ok ua →
        exec (.settleSweep i node) s = .next (s.plainWrite (.engine masterMargin) (piecesOf ua [BitVec.ofNat 8 (leField sb 8 1 ||| 4)] (fun _ => false))))) ∧
    (∀ i q, s.mem.repairs[i]? = some q →
      (q.retryAt = none → exec (.nodeRepair i) s = .next (s.runRepair i) ∧ exec (.repairRetry i) s = .next s) ∧
      (∀ t, q.retryAt = some t → exec (.nodeRepair i) s = .next s ∧ (s.clock.time.toNat < t.toNat → exec (.repairRetry i) s = .next s) ∧
        (t.toNat ≤ s.clock.time.toNat → exec (.repairRetry i) s = .next (s.runRepair i))))

/-! Rings and multicast sets (chapter 8) -/

/-- R190 to R195, R203, R204: the states of a ring, its epoch and send list, credits and releases, and the arrival of a quire's header and
chunks. -/
def Obligations.Rings : Prop :=
  ∀ (s : State) (r : Fin 16),
    ((s.ring r).mode = .disabled ∨ (s.ring r).mode = .stopped →
      exec (.ringEnable r) s = .next (((s.modRing r (fun x => { x with mode := .running, enable := true })).grantSlots r).ringSend r) ∧
      ∀ v, ∃ t, exec (.ringEpochWrite r v) s = .next t ∧ (t.ring r).epoch = v ∧ (t.ring r).landed = 0 ∧ (t.ring r).credits = [] ∧ (t.ring r).mode = (s.ring r).mode ∧
        (t.ring r).slots = (List.range (s.ring r).slots.length).map (fun k => LandSlot.granted (BitVec.ofNat 32 k)) ∧ t.link.ports = s.link.ports) ∧
    ((s.ring r).mode ≠ .disabled → (s.ring r).mode ≠ .stopped → exec (.ringEnable r) s = .next s ∧ ∀ v, exec (.ringEpochWrite r v) s = .next s) ∧
    ((s.ring r).mode = .stopped → exec (.ringDisable r) s = .next (s.modRing r (fun x => { x with mode := .disabled, enable := false }))) ∧
    ((s.ring r).mode ≠ .stopped → exec (.ringDisable r) s = .next s) ∧
    ((s.ring r).mode = .running ∨ (s.ring r).mode = .broken → ∃ t, exec (.ringStop r) s = .next t ∧ (t.ring r).mode = .stopping ∧ t.fol = s.fol) ∧
    ((s.ring r).mode = .stopping → exec (.ringStopped r) s = .next (s.modRing r (fun x => { x with mode := .stopped }))) ∧
    ((s.ring r).mode ≠ .stopping → exec (.ringStopped r) s = .next s) ∧
    (∀ v, (s.ring r).mode ≠ .running → exec (.ringSqTailWrite r v) s = .next (s.modRing r (fun x => { x with sqTail := v }))) ∧
    (∀ v, (s.ring r).mode = .running → exec (.ringSqTailWrite r v) s = .next ((s.modRing r (fun x => { x with sqTail := v })).ringSend r)) ∧
    (∀ e k j, (e ≠ (s.ring r).epoch → exec (.landingCredit r e k j) s = .next s) ∧
      (e = (s.ring r).epoch → (s.ring r).mode ≠ .running → ∃ t, exec (.landingCredit r e k j) s = .next t ∧
        (t.ring r).credits = (s.ring r).credits.filter (fun c => decide (c.1 ≠ k)) ++ [(k, j)]) ∧
      (e = (s.ring r).epoch → (s.ring r).mode = .running → exec (.landingCredit r e k j) s = .next ((s.modRing r (fun x =>
        { x with credits := x.credits.filter (fun c => decide (c.1 ≠ k)) ++ [(k, j)] })).ringSend r))) ∧
    (exec (.releasePoll r) s = .next ((List.range (s.ring r).slots.length).foldl (fun t k => t.releaseSlot r k) s)) ∧
    (∀ k x rec b bad, (s.ring r).slots[k]? = some x → s.landRec (s.ring r) k = .ok rec → x.mode = .ready →
      s.readVa (s.ringReq (s.ring r) (leField rec 32 8) 0) 8 = .ok (b, bad) →
      (ofLeBytes b ≠ x.seq.toNat + 1 → s.releaseSlot r k = s) ∧
      (ofLeBytes b = x.seq.toNat + 1 → s.releaseSlot r k =
        ((((s.disarmLanding rec).setLandSlot r k (LandSlot.granted (x.seq + BitVec.ofNat 32 (s.ring r).count))).writeLand r k)).sendCredit r k)) ∧
    (∀ p, (((namedPorts (s.ring r).succ) ++ (namedPorts (s.ring r).pred)).map s.physOf).find? (fun p => decide ((s.port p).mode ≠ .up)) = some p →
      exec (.ringBroken r) s = .next (s.breakRing r p) ∧
      ((s.ring r).mode ≠ .running → exec (.ringBroken r) s = .next (s.modRing r (fun x => { x with linkLost := true })))) ∧
    (∀ p body, (leField body 2 1 ≠ 1 → exec (.quireHeaderArrival p body) s = .next s) ∧
      (leField body 2 1 = 1 → headerOk body = false ∨ (s.port p).admits 1 = false → exec (.quireHeaderArrival p body) s = .next s) ∧
      (let src : W32 := BitVec.ofNat 32 (leField body 8 4)
       let id : W32 := BitVec.ofNat 32 (leField body 4 4)
       let lead := (body.drop 64).take (leField body 20 2)
       let dest := leField body 40 2
       let add (t : State) (g : RxTarget) : State := t.modLink (fun l => { l with rx := l.rx.filter (fun y => decide (y.src ≠ src) || decide (y.id ≠ id)) ++
         [⟨src, id, 1, bitOf (leField body 3 1) 1, leField body 16 1, leField body 17 1, leField body 18 2, leField body 24 4, [], [], g⟩] })
       leField body 2 1 = 1 → headerOk body = true → (s.port p).admits 1 = true → s.rxMsg src id = none → leField lead 12 1 = r.val →
         s.relaySide r p lead = none →
         (s.forUs body = false → exec (.quireHeaderArrival p body) s = .next (s.countPort p 0x11 1 1)) ∧
         (s.forUs body = true →
           (lead.length ≠ 256 ∨ leField lead 252 4 ≠ crcOf (lead.take 252) ∨ (s.ring r).mode ≠ .running ∨ s.logicalOf p ∉ (s.ring r).fromPred →
             exec (.quireHeaderArrival p body) s = .next (add (s.dropQuire r false) .dropped)) ∧
           (lead.length = 256 → leField lead 252 4 = crcOf (lead.take 252) → leField lead 0 1 = 1 ∨ leField lead 0 1 = 2 → leField lead 1 1 = 1 →
             (s.ring r).mode = .running → s.logicalOf p ∈ (s.ring r).fromPred →
             (leField lead 8 4 ≠ (s.ring r).epoch.toNat → exec (.quireHeaderArrival p body) s = .next (add (s.dropQuire r true) .dropped)) ∧
             (leField lead 8 4 = (s.ring r).epoch.toNat → ∀ x rec, (s.ring r).slots[leField lead 44 4 % (s.ring r).count]? = some x →
               s.landRec (s.ring r) (leField lead 44 4 % (s.ring r).count) = .ok rec →
               (x.mode = .ready ∨ x.seq.toNat ≠ leField lead 44 4 ∨ leField rec 4 2 < dest + leField lead 6 2 →
                 exec (.quireHeaderArrival p body) s = .next (add (s.dropQuire r false) .dropped)) ∧
               (x.mode ≠ .ready → x.seq.toNat = leField lead 44 4 → dest + leField lead 6 2 ≤ leField rec 4 2 →
                 exec (.quireHeaderArrival p body) s = .next (add
                   (s.setLandSlot r (leField lead 44 4 % (s.ring r).count) { x with headers := x.headers ++ [(dest, lead)] })
                   (.ring r (leField lead 44 4 % (s.ring r).count) x.seq dest))))))) ∧
      (s.rxMsg (BitVec.ofNat 32 (leField body 8 4)) (BitVec.ofNat 32 (leField body 4 4)) = none → exec (.quireChunkArrival p body) s = .next s) ∧
      (∀ m, s.rxMsg (BitVec.ofNat 32 (leField body 8 4)) (BitVec.ofNat 32 (leField body 4 4)) = some m → m.mtype = 1 → (s.port p).admits 1 = true →
        leField body 2 2 < m.total →
        (∀ n ps, m.target = .relay n ps → exec (.quireChunkArrival p body) s = .next (s.relayChunk ps (leField body 2 2) body)) ∧
        (∀ n k seq dest, m.target = .ring n k seq dest →
          let c := chunkOf (s.openChunk m body)
          let s1 := s.emit (.chunkReport p m.src m.id c.index true)
          (c.index ∈ m.got → exec (.quireChunkArrival p body) s = .next s1) ∧
          (c.index ∉ m.got → ∀ u, (s1.landQuire n k seq dest c = (u, false) →
              exec (.quireChunkArrival p body) s = .next (u.setRx { m with target := .dropped, got := m.got ++ [c.index] })) ∧
            (s1.landQuire n k seq dest c = (u, true) →
              (m.got.length + 1 < m.total → exec (.quireChunkArrival p body) s = .next ((u.setRx { m with got := m.got ++ [c.index] }).ringSend n)) ∧
              (m.got.length + 1 = m.total → exec (.quireChunkArrival p body) s =
                .next (((u.dropRx m.src m.id).quireLanded n k).ringSend n)))))))

/-- R198, R199: a line read by a member of an armed set is fetched by the first, served from the buffer for those behind, held when the slowest
is 256 KiB behind, and an order that differs detaches; a read of a member that waits waits behind it; a wait of detach_wait detaches the
slowest. -/
def Obligations.Multicast : Prop :=
  ∀ (s : State) (m : MDie) (set : Fin 16) (i : Fin 32) (addr : W64),
    ((s.mcastSet m set.val).window = none → ∀ n, exec (.multicastRead m set i addr n) s = .next s) ∧
    (∀ w, (s.mcastSet m set.val).window = some w → ∀ n,
      (addr.toNat / 64 * 64 < w.1 ∨ w.1 + 65536 * w.2 < addr.toNat / 64 * 64 + 64 * n → exec (.multicastRead m set i addr n) s = .next s) ∧
      (w.1 ≤ addr.toNat / 64 * 64 → addr.toNat / 64 * 64 + 64 * n ≤ w.1 + 65536 * w.2 → (s.mcastSet m set.val).waits i = true →
        let x : McastSet := { s.mcastSet m set.val with held := (s.mcastSet m set.val).held ++ [⟨i, addr.toNat / 64 * 64, n, s.clock.time⟩] }
        exec (.multicastRead m set i addr n) s = .next ((s.setMcast m set.val x).mcastResume m set.val (x.heldLines + 1)))) ∧
    (∀ w, (s.mcastSet m set.val).window = some w → (s.mcastSet m set.val).held = [] → w.1 ≤ addr.toNat / 64 * 64 →
        addr.toNat / 64 * 64 + 64 ≤ w.1 + 65536 * w.2 →
      let x := s.mcastSet m set.val
      let a := addr.toNat / 64 * 64
      (x.attached.getLsbD i.val = false → ∃ t, exec (.multicastRead m set i addr 1) s = .next t ∧ t.mcastSet m set.val = x ∧ t.mem = s.mem) ∧
      (x.attached.getLsbD i.val = true → x.counts[i.val] = x.lead → x.lead < x.slowest + 4096 → ∃ t, exec (.multicastRead m set i addr 1) s = .next t ∧
        t.mcastSet m set.val = { x with counts := x.counts.set i.val (x.lead + 1), lines := x.lines ++ [a], lead := x.lead + 1 } ∧ t.mem = s.mem) ∧
      (x.attached.getLsbD i.val = true → x.counts[i.val] ≠ x.lead → x.lines[x.counts[i.val]]? = some a → ∃ t, exec (.multicastRead m set i addr 1) s = .next t ∧
        t.mcastSet m set.val = { x with counts := x.counts.set i.val (x.counts[i.val] + 1) } ∧ t.mem = s.mem) ∧
      (x.attached.getLsbD i.val = true → x.counts[i.val] ≠ x.lead → x.lines[x.counts[i.val]]? ≠ some a → ∃ t, exec (.multicastRead m set i addr 1) s = .next t ∧
        t.mcastSet m set.val = { x with attached := x.attached &&& ~~~(BitVec.ofNat 32 (2 ^ i.val)) } ∧ t.mem = s.mem) ∧
      (x.attached.getLsbD i.val = true → x.counts[i.val] = x.lead → x.slowest + 4096 ≤ x.lead →
        exec (.multicastRead m set i addr 1) s = .next (s.setMcast m set.val { x with held := [⟨i, a, 1, s.clock.time⟩] }))) ∧
    ((s.mcastSet m set.val).held = [] → exec (.detachWaitExpiry m set) s = .next s) ∧
    (∀ h r, (s.mcastSet m set.val).held = h :: r →
      (s.clock.time.toNat < h.since.toNat + (s.mcastSet m set.val).detachWait.toNat * usTicks → exec (.detachWaitExpiry m set) s = .next s) ∧
      (h.since.toNat + (s.mcastSet m set.val).detachWait.toNat * usTicks ≤ s.clock.time.toNat →
        let x := s.mcastSet m set.val
        let gone := (List.finRange 32).filter (fun k => x.attached.getLsbD k.val && decide (x.counts[k.val] = x.slowest))
        let mask : W32 := BitVec.ofNat 32 (sumNat (gone.map (fun k => 2 ^ k.val)))
        exec (.detachWaitExpiry m set) s = .next ((gone.foldl (fun t k => t.countDie m.val ⟨0x08, 1, 0, 0, 0, s.partOfCore (mcastCore m k.val), some h.addr, none⟩)
          (s.setMcast m set.val { x with attached := x.attached &&& ~~~mask })).mcastResume m set.val (x.heldLines + 1))))

/-! Ports (chapters 14 and 15) -/

/-- R320, R322 to R329, R331, R333, R334: flits that arrive: groups accepted in order or discarded with a NAK, tags that fail, LCTL and HELLO
flits; and what a port sends: LCTL and HELLO flits, at once or at the next group boundary while groups are to be replayed; at a boundary a
replayed group, a due flit, a new group or IDLE; a replay after a timeout. -/
def Obligations.LinkLayer : Prop :=
  ∀ (s : State) (p : PortNo),
    (∀ g : FlitBurst,
      let fs := dataFlits g
      let s1 := (s.countFec p g).modPort p (fun x => { x with badTypes := x.badTypes + oddFlits g })
      (fs = [] ∨ (s.port p).takesData (burstLane g) = false → exec (.dataGroup p g) s = .next s1) ∧
      (fs ≠ [] → (s.port p).takesData (burstLane g) = true →
        ((fs.all (fun f => f.2) = false ∨ groupInOrder (fs.map (fun f => f.1)) = false ∨ flitSeq ((fs.map (fun f => f.1)).headD []) ≠ (s.port p).rxNext) →
          ∃ t, exec (.dataGroup p g) s = .next t ∧ (t.port p).wantNak = true ∧ (t.port p).rxNext = (s.port p).rxNext ∧ (t.port p).rx = (s.port p).rx ∧
            (t.port p).freed = (s.port p).freed.set (burstLane g).val ((s.port p).freed[(burstLane g).val] + BitVec.ofNat 32 fs.length) ∧ t.mem = s.mem) ∧
        (fs.all (fun f => f.2) = true → groupInOrder (fs.map (fun f => f.1)) = true → flitSeq ((fs.map (fun f => f.1)).headD []) = (s.port p).rxNext →
          ((s.port p).groupAuthentic (fs.map (fun f => f.1)) = true → exec (.dataGroup p g) s = .next (s1.takeGroup p (fs.map (fun f => f.1)))) ∧
          ((s.port p).groupAuthentic (fs.map (fun f => f.1)) = false → ∃ t, exec (.dataGroup p g) s = .next t ∧ (t.port p).authFail = true ∧
            ((s.port p).mode ≠ .up → (t.port p).mode = .quarantine))))) ∧
    (∀ f : List Byte,
      ((s.port p).linked = false ∨ flitOk f = false → exec (.lctl p f) s = .next s ∧ exec (.hello p f) s = .next s) ∧
      ((s.port p).linked = true → flitOk f = true →
        (flitType f = none → exec (.lctl p f) s = .next (s.modPort p (fun x => { x with badTypes := x.badTypes + 1 })) ∧
          exec (.hello p f) s = .next (s.modPort p (fun x => { x with badTypes := x.badTypes + 1 }))) ∧
        (∀ u, flitType f = some u → (u ≠ .lctl → exec (.lctl p f) s = .next s) ∧ (u ≠ .hello → exec (.hello p f) s = .next s)) ∧
        (flitType f = some .lctl → (s.port p).encOn = true →
          (bodyTagOk f ((s.port p).rxKey (flitPhase f)) = false → ∃ t, exec (.lctl p f) s = .next t ∧ (t.port p).authFail = true ∧
            ((s.port p).mode ≠ .up → (t.port p).mode = .quarantine)) ∧
          (bodyTagOk f ((s.port p).rxKey (flitPhase f)) = true →
            (∀ v, (s.port p).uctrRx = some v → (bodyUctr (flitBody f)).toNat ≤ v.toNat → exec (.lctl p f) s = .next s) ∧
            ((∀ v, (s.port p).uctrRx = some v → v.toNat < (bodyUctr (flitBody f)).toNat) → exec (.lctl p f) s =
              .next ((s.modPort p (fun x => { x with uctrRx := some (bodyUctr (flitBody f)) })).takeLctl p (lctlOf (flitBody f)))))) ∧
        (flitType f = some .lctl → (s.port p).encOn = false →
          let b := lctlOf (flitBody f)
          exec (.lctl p f) s = .next (s.takeLctl p b) ∧
          (b.nak = none → ∃ t, exec (.lctl p f) s = .next t ∧ (t.port p).credit = b.credit ∧
            (b.ack = none → (t.port p).replay = (s.port p).replay) ∧
            (∀ a k, b.ack = some a → (s.port p).replay.findIdx? (fun g => decide (g.gseq = a)) = some k → (t.port p).replay = (s.port p).replay.drop (k + 1) ∧
              (t.port p).tries = 0)) ∧
          (∀ n, b.ack = none → b.nak = some n →
            ((s.port p).replay.findIdx? (fun g => decide (g.gseq = n)) = none → ∃ t, exec (.lctl p f) s = .next t ∧ (t.port p).badNaks = (s.port p).badNaks + 1 ∧
              (t.port p).credit = b.credit ∧ (t.port p).resend = (s.port p).resend) ∧
            (∀ k, (s.port p).replay.findIdx? (fun g => decide (g.gseq = n)) = some (k + 1) → ∃ t, exec (.lctl p f) s = .next t ∧
              (t.port p).resend = (s.port p).replay.length - (k + 1) ∧ (t.port p).credit = b.credit ∧ (t.port p).replayEvent = true))) ∧
        (flitType f = some .hello →
          ((s.port p).mode ≠ .handshake → exec (.hello p f) s = .next (s.modPort p (fun x => { x with peer := some (beaconOf (flitBody f)) }))) ∧
          ((s.port p).mode = .handshake →
            (leField (flitBody f) 0 1 = 1 → (s.port p).encReq = true ∨ bitOf (leField (flitBody f) 2 1) 0 = true → ∃ t, exec (.hello p f) s = .next t ∧
              (t.port p).mode = .keying) ∧
            (leField (flitBody f) 0 1 = 1 → (s.port p).encReq = false → bitOf (leField (flitBody f) 2 1) 0 = false → ∃ t, exec (.hello p f) s = .next t ∧
              (t.port p).mode = .up ∧ (t.port p).txNext = 0 ∧ (t.port p).rxNext = 0) ∧
            (leField (flitBody f) 0 1 ≠ 1 → ∃ t, exec (.hello p f) s = .next t ∧ (t.port p).mode = .quarantine ∧ (t.port p).verMismatch = true))))) ∧
    ((s.port p).linked = true → (s.port p).replay ≠ [] →
      ((s.port p).tries < 8 → ∃ t, exec (.replayTimeout p) s = .next t ∧ (t.port p).tries = (s.port p).tries + 1 ∧ (t.port p).resend = (s.port p).replay.length ∧
        (t.port p).replayEvent = true) ∧
      (8 ≤ (s.port p).tries → exec (.replayTimeout p) s = .next (s.leavePort p .down))) ∧
    ((s.port p).linked = false ∨ (s.port p).replay = [] → exec (.replayTimeout p) s = .next s) ∧
    ((s.port p).linked = false → exec (.helloSend p) s = .next s ∧ exec (.lctlSend p) s = .next s ∧ exec (.groupSend p) s = .next s) ∧
    ((s.port p).linked = false ∨ (s.port p).wantNak = false → exec (.nakRepeat p) s = .next s) ∧
    ((s.port p).linked = true →
      let x := s.port p
      (x.resend = 0 → (∃ t f, exec (.lctlSend p) s = .next t ∧ Out.flits p [f] ∈ t.out ∧ flitType f = some .lctl ∧
          (flitBody f).take 24 = leBytes 2 (if x.rxAny then (x.rxNext - 1).toNat + 2 ^ 15 else 0) ++
            leBytes 2 (if x.wantNak then x.rxNext.toNat + 2 ^ 15 else 0) ++ leBytes 4 0 ++ x.freed.toList.flatMap (fun v => leBytes 4 v.toNat) ∧
          (t.port p).accepted = 0 ∧ t.mem = s.mem ∧ (x.wantNak = true → exec (.nakRepeat p) s = .next t)) ∧
        (∃ line out, exec (.helloSend p) s = .next { s.setPort p { x with line := line } with out := s.out ++ out } ∧
          Out.flits p [flitOf (flitHead .hello 0 0 0 false x.keyPhase) (s.helloBody p)] ∈ out)) ∧
      (x.resend ≠ 0 → exec (.lctlSend p) s = .next (s.modPort p (fun x => if .lctl ∈ x.due then x else { x with due := x.due ++ [.lctl] })) ∧
        exec (.helloSend p) s = .next (s.modPort p (fun x => if .hello ∈ x.due then x else { x with due := x.due ++ [.hello] })) ∧
        (x.wantNak = true → exec (.nakRepeat p) s = .next (s.modPort p (fun x => if .lctl ∈ x.due then x else { x with due := x.due ++ [.lctl] }))))) ∧
    ((s.port p).linked = true →
      let x := s.port p
      let idles (e : Host.Outcome State Fault Refusal) : Prop := ∃ t, e = .next t ∧
        Out.flits p [flitOf (flitHead .idle 0 0 0 false x.keyPhase) (List.replicate 244 0)] ∈ t.out ∧ t.mem = s.mem ∧
        ∃ line, t.port p = { x with line := line }
      (∀ g, 0 < x.resend → x.replay[x.replay.length - x.resend]? = some g →
        (g.flits.length ≤ x.room g.lane → ∃ t, exec (.groupSend p) s = .next t ∧ Out.flits p g.flits ∈ t.out ∧ (t.port p).resend = x.resend - 1 ∧
          (t.port p).replay = x.replay ∧ t.mem = s.mem) ∧
        (x.room g.lane < g.flits.length → x.due = [] → idles (exec (.groupSend p) s))) ∧
      (x.resend = 0 →
        (∀ d r, x.due = d :: r → exec (.groupSend p) s = .next ((s.modPort p (fun x => { x with due := r })).sendDue p d)) ∧
        (x.due = [] → x.mode = .handshake ∨ x.stopped = true → idles (exec (.groupSend p) s)) ∧
        (x.due = [] → x.mode ≠ .handshake → x.stopped = false →
          (0 < x.groupSize 0 → x.encOn = false → ∃ t, exec (.groupSend p) s = .next t ∧ (t.port p).txNext = x.txNext + 1 ∧
            (t.port p).queue = x.queue.set 0 (x.queue[0].drop (244 * x.groupSize 0 - 16)) ∧
            ∃ fs, Out.flits p fs ∈ t.out ∧ (t.port p).replay = x.replay ++ [⟨x.txNext, 0, fs⟩]) ∧
          (0 < x.groupSize 0 → exec (.groupSend p) s = .next (s.sendGroup p 0)) ∧
          (x.groupSize 0 = 0 → x.mode ≠ .up ∨ x.held = true → idles (exec (.groupSend p) s)) ∧
          (x.groupSize 0 = 0 → x.mode = .up → x.held = false →
            (∀ y l, x.pickLane 64 = (y, some l) → exec (.groupSend p) s = .next ((s.setPort p y).sendGroup p l)) ∧
            (∀ y, x.pickLane 64 = (y, none) → idles (exec (.groupSend p) s))))))

/-- R330, R332, R337, R340, R345, R346, R357, R375, R447: the states of a port, chunks and their reports, collective messages, Ethernet frames and
queue pairs, and the class of a port. -/
def Obligations.Ports : Prop :=
  ∀ (s : State) (p : PortNo),
    (p.val < 30 → (s.port p).mode = .down → (s.port p).enable = true → (s.port p).retrying = false → ∃ t, exec (.lightDetect p) s = .next t ∧ (t.port p).mode = .training) ∧
    ((s.port p).mode = .training → (∃ t, exec (.trainingComplete p) s = .next t ∧ (t.port p).mode = .handshake) ∧
      (∃ t, exec (.trainingTimeout p) s = .next t ∧ (t.port p).mode = .down ∧ (t.port p).retrying = true ∧ t.mem = s.mem)) ∧
    ((s.port p).mode = .down → (s.port p).retrying = true → ∃ t, exec (.trainingRetry p) s = .next t ∧ (t.port p).mode = .training ∧ (t.port p).retrying = false) ∧
    ((s.port p).mode = .handshake → ∃ t, exec (.handshakeTimeout p) s = .next t ∧ (t.port p).mode = .down ∧ t.mem = s.mem) ∧
    ((s.port p).mode = .keying → (∃ t, exec (.keyingComplete p) s = .next t ∧ (t.port p).mode = .up ∧ (t.port p).encOn = true ∧ (t.port p).txNext = 0 ∧
        ∃ x ∈ t.sec.sessions, x.path = .link p ∧ x.finished = true) ∧
      (∃ t, exec (.keyingTimeout p) s = .next t ∧ (t.port p).mode = .quarantine ∧ t.mem = s.mem)) ∧
    ((s.port p).mode = .disabled ∨ (s.port p).mode = .down → exec (.portLoss p) s = .next s) ∧
    ((s.port p).mode ≠ .disabled → (s.port p).mode ≠ .down → exec (.portLoss p) s = .next (s.leavePort p .down)) ∧
    ((s.port p).mode ≠ .up → (s.port p).mode ≠ .disabled → (∃ t, exec (.portRetrain p) s = .next t ∧ (t.port p).mode = .down ∧ (t.port p).replay = [] ∧ t.mem = s.mem) ∧
      (∀ v : W32, bitOf v.toNat 0 = false → bitOf v.toNat 2 = false → bitOf v.toNat 5 = false → ∃ t, exec (.portEnable p v) s = .next t ∧ (t.port p).mode = .disabled ∧
        (t.port p).enable = false ∧ t.mem = s.mem)) ∧
    ((s.port p).mode = .disabled → exec (.portRetrain p) s = .next s ∧ ∀ v : W32, bitOf v.toNat 0 = true → bitOf v.toNat 2 = false → bitOf v.toNat 5 = false →
      ∃ t, exec (.portEnable p v) s = .next t ∧ (t.port p).mode = .down ∧ (t.port p).enable = true ∧ (t.port p).encReq = bitOf v.toNat 1) ∧
    (∃ t, exec (.portClearErrors p) s = .next t ∧ t.port p = { s.port p with fecCorr := 0, fecUncorr := 0, replays := 0 }) ∧
    ((s.port p).mode = .up → exec (.departMessage p) s = .next (s.leavePort p .down)) ∧
    ((s.port p).mode ≠ .up → exec (.departMessage p) s = .next s) ∧
    (∀ body, (s.rxMsg (BitVec.ofNat 32 (leField body 8 4)) (BitVec.ofNat 32 (leField body 4 4)) = none → exec (.chunkReceive p body) s = .next s) ∧
      (∀ m, s.rxMsg (BitVec.ofNat 32 (leField body 8 4)) (BitVec.ofNat 32 (leField body 4 4)) = some m →
        ((s.port p).admits m.mtype = false ∨ m.total ≤ leField body 2 2 → exec (.chunkReceive p body) s = .next s) ∧
        ((s.port p).admits m.mtype = true → leField body 2 2 < m.total →
          (∀ n ps, m.target = .relay n ps → exec (.chunkReceive p body) s = .next (s.relayChunk ps (leField body 2 2) body)) ∧
          (m.target = .other →
            let c := chunkOf (s.openChunk m body)
            let s1 := s.emit (.chunkReport p m.src m.id c.index true)
            (chunkOk (s.openChunk m body) = true →
              (c.index ∈ m.got → exec (.chunkReceive p body) s = .next s1) ∧
              (c.index ∉ m.got → m.got.length + 1 ≠ m.total → exec (.chunkReceive p body) s = .next (s1.setRx { m with got := m.got ++ [c.index] })) ∧
              (c.index ∉ m.got → m.got.length + 1 = m.total → exec (.chunkReceive p body) s = .next (s1.dropRx m.src m.id))) ∧
            (chunkOk (s.openChunk m body) = false → (s.port p).minor ≠ 0 →
              (((m.bad ++ [leField body 2 2]).filter (fun i => decide (i = leField body 2 2))).length ≤ 3 → ∃ t, exec (.chunkReceive p body) s = .next t ∧
                t.out = s.out ++ [.chunkReport p m.src m.id (leField body 2 2) false] ∧ t.mem = s.mem ∧
                t.link = { s.link with rx := s.link.rx.map (fun x => if x.src = m.src ∧ x.id = m.id then { m with bad := m.bad ++ [leField body 2 2] } else x) }) ∧
              (3 < ((m.bad ++ [leField body 2 2]).filter (fun i => decide (i = leField body 2 2))).length → ∃ t, exec (.chunkReceive p body) s = .next t ∧
                t.link = { s.link with rx := s.link.rx.filter (fun x => decide (x.src ≠ m.src) || decide (x.id ≠ m.id)) }))))) ∧
      (leField body 0 1 = 1 → leField body 2 1 = 2 → exec (.collMessage p body) s = .next (s.acceptRecords p body (body.length + 1)).1) ∧
      (leField body 0 1 = 1 → leField body 2 1 = 3 → exec (.countMessage p body) s = .next (s.acceptRecords p body (body.length + 1)).1) ∧
      (leField body 0 1 ≠ 1 → exec (.collMessage p body) s = .next s ∧ exec (.countMessage p body) s = .next s)) ∧
    (∀ id c good, s.txMsg id = none → exec (.chunkReport p id c good) s = .next s) ∧
    (∀ id c m k, s.txMsg id = some m → m.chunks[c]? = some k → exec (.chunkReport p id c true) s =
      .next ((s.modTx id (fun m => { m with chunks := m.chunks.set c { k with good := true } })).completeTx id)) ∧
    (∀ id c m k, s.txMsg id = some m → m.chunks[c]? = some k →
      (m.ports.any (fun q => (s.port q).held) = true → exec (.chunkReport p id c false) s = .next (s.failMessage id 0x040C)) ∧
      (m.ports.any (fun q => (s.port q).held) = false → (s.port p).minor ≠ 0 →
        (3 ≤ k.tries → exec (.chunkReport p id c false) s = .next (s.failCheck p id)) ∧
        (k.tries < 3 → ∀ t, ((s.noteResend p).modTx id (fun m => { m with chunks := m.chunks.set c { k with tries := k.tries + 1 } })).sendChunk m c = .ok t →
          exec (.chunkReport p id c false) s = .next t))) ∧
    (30 ≤ p.val → (s.port p).enable = true → (s.port p).mode = .down → ∃ t, exec (.ethLinkUp p) s = .next t ∧ (t.port p).mode = .ethUp) ∧
    (30 ≤ p.val → (s.port p).mode = .ethUp → ∀ frame,
      (ethOk frame = false → ∃ t, exec (.ethFrameReceive p frame) s = .next t ∧ t.mem = s.mem ∧ t.link = s.link) ∧
      (ethOk frame = true → isPfc (ethParse frame).data = true → exec (.ethFrameReceive p frame) s =
        .next ((s.countEth 0x13 none).modPort p (fun x => { x with paused := Vector.ofFn (fun i => match pfcQuanta (ethParse frame).data i.val with
          | some q => BitVec.ofNat 64 (s.clock.time.toNat + ceilDiv (768 * q) 1000)
          | none => x.paused[i]) }))) ∧
      (∀ q, ethOk frame = true → s.ethSteer p (ethParse frame) = [q] → exec (.ethFrameReceive p frame) s = .next ((s.countEth 0x13 none).ethDeliver p q (ethParse frame)))) ∧
    (30 ≤ p.val → ∀ q (v : W16), exec (.ethTxPost p q v) s = .next (s.setEth p q { s.eth p q with txTail := BitVec.ofNat 16 (v.toNat % (s.eth p q).size) }) ∧
      exec (.ethRxPost p q v) s = .next (s.setEth p q { s.eth p q with rxTail := BitVec.ofNat 16 (v.toNat % (s.eth p q).size) })) ∧
    (30 ≤ p.val → (s.port p).mode = .ethUp → ∀ q, (s.eth p q).enable = true → (s.eth p q).txHead ≠ (s.eth p q).txTail → 
      let m := masterTransport 1
      let x := s.eth p q
      let d := x.txBase.toNat + 32 * x.txHead.toNat
      let next : W16 := BitVec.ofNat 16 ((x.txHead.toNat + 1) % x.size)
      ∀ b bad, s.dvRead x.owner m d 32 = .ok (b, bad) →
        (txDescOk b = false → exec (.ethFrameSent p q) s = .next ((s.report ⟨0x0503, dieX1, x.owner.val, unitPort p, .operation, []⟩).setEth p q { x with txHead := next })) ∧
        (txDescOk b = true → leField b 8 2 < 60 ∨ 9212 < leField b 8 2 → exec (.ethFrameSent p q) s = .next (s.setEth p q { x with txHead := next })) ∧
        (txDescOk b = true → 60 ≤ leField b 8 2 → leField b 8 2 ≤ 9212 →
          (s.clock.time.toNat < ((s.port p).paused.toList.getD (leField b 13 1) 0).toNat → exec (.ethFrameSent p q) s = .next s) ∧
          (((s.port p).paused.toList.getD (leField b 13 1) 0).toNat ≤ s.clock.time.toNat → ∀ data, s.dvRead x.owner m (leField b 0 8) (leField b 8 2) = .ok (data, false) →
            bitOf (leField b 12 1) 0 = false → exec (.ethFrameSent p q) s =
              .next ((((s.countEth 0x12 (some x.owner)).emit (.ethFrame p (ethFrame data (if bitOf (leField b 12 1) 1 then some (leField b 14 2) else none) false) false)).dvWrite
                x.owner m (d + 12) (leBytes 1 (leField b 12 1 % 4 + 4))).setEth p q { x with txHead := next })))) ∧
    (p.val < 30 → exec (.ethLinkUp p) s = .next s ∧ (∀ f, exec (.ethFrameReceive p f) s = .next s) ∧
      ∀ q v, exec (.ethTxPost p q v) s = .next s ∧ exec (.ethRxPost p q v) s = .next s ∧ exec (.ethFrameSent p q) s = .next s) ∧
    (p.val < 30 → s.slotTooHigh = false → s.planLoaded = false → ∃ t, exec (.portClassify p) s = .next t ∧ (t.port p).wire = .noPlan ∧ (t.port p).held = false ∧ t.mem = s.mem) ∧
    (30 ≤ p.val → exec (.portClassify p) s = .next s)

/-! Management (chapter 17) -/

/-- R411, R414, R415, R418 to R426, R429: WMP requests, the mailbox, the store's commits, staging, the warden's restarts and the side-band
buses. -/
def Obligations.Management : Prop :=
  ∀ (s : State),
    (∀ path m c, c ∈ [Instr.wmpRead path m, .wmpWrite path m, .wmpNext path m] →
      (s.wmpUp path = false → exec c s = .next s) ∧
      (s.wmpUp path = true → WmpReq.parse path m = none → ∃ t, exec c s = .next t ∧ t.ward = { s.ward with wmpErrors := s.ward.wmpErrors + 1 } ∧ t.out = s.out ∧ t.dict = s.dict) ∧
      (∀ q, s.wmpUp path = true → WmpReq.parse path m = some q → s.ward.recovery = false → q.version = 1 → q.op = 1 ∨ q.op = 2 ∨ q.op = 3 →
        (∀ k, s.keptFor path q.seq = some k → exec c s = .next (s.sendWmp path k.resp)) ∧
        (s.keptFor path q.seq = none → s.inService path q.seq = true → exec c s = .next s) ∧
        (s.keptFor path q.seq = none → s.inService path q.seq = false →
          (∀ e, q.op = 1 → q.entry false = .error e → exec c s = .next (s.answerWmp q.path q.seq ((WmpResp.plain q.index q.sub e).bytes 1 q.seq))) ∧
          (∀ r, q.op = 1 → q.entry false = .ok r → q.ty ≠ 0 → q.ty ≠ r.ty.code →
            exec c s = .next (s.answerWmp q.path q.seq ((WmpResp.plain q.index q.sub wmpType).bytes 1 q.seq))) ∧
          (∀ r, q.op = 1 → q.entry false = .ok r → q.ty = 0 ∨ q.ty = r.ty.code → s.mainDown q.index r = false → s.queueFull = false →
            q.offset < ((s.beforeRead q.index q.sub).entryBytes q.index q.sub r).length → exec c s = .next ((s.beforeRead q.index q.sub).answerWmp q.path q.seq
              ((WmpResp.mk wmpOk q.index q.sub r.ty.code q.offset ((s.beforeRead q.index q.sub).entryBytes q.index q.sub r).length
                ((((s.beforeRead q.index q.sub).entryBytes q.index q.sub r).drop q.offset).take 1024)).bytes 1 q.seq))) ∧
          (∀ e, q.op = 2 → q.entry true = .error e → exec c s = .next (s.answerWmp q.path q.seq ((WmpResp.plain q.index q.sub e).bytes 2 q.seq))) ∧
          (∀ r, q.op = 2 → q.entry true = .ok r → q.offset = 0 → q.last = true → s.stagedElsewhere q = false →
            (s.writeStatus q r q.value ≠ wmpOk → exec c s = .next (s.answerWmp q.path q.seq ((WmpResp.plain q.index q.sub (s.writeStatus q r q.value)).bytes 2 q.seq))) ∧
            (s.writeStatus q r q.value = wmpOk → s.queueFull = false → r.acc.of (domainOf q.path) = .rwp →
              exec c s = .next (s.joinCommit ⟨some q.path, q.seq, q.index, q.sub, ofLeBytes q.value, false⟩))) ∧
          (q.op = 3 → exec c s = .next (s.wmpNextOp q))))) ∧
    (∀ ch : Fin 2, (s.ward.mailboxes[ch.val].busy = true → exec (.mailboxGo ch) s =
        .next (s.modWard (fun w => { w with mailboxes := w.mailboxes.set ch.val { s.ward.mailboxes[ch.val] with goDrop := true } }))) ∧
      (s.ward.mailboxes[ch.val].busy = false → 1024 < s.ward.mailboxes[ch.val].req.getLE 10 2 → exec (.mailboxGo ch) s =
        .next (s.modWard (fun w => { w with mailboxes := w.mailboxes.set ch.val { s.ward.mailboxes[ch.val] with err := true } }))) ∧
      (s.ward.mailboxes[ch.val].busy = false → s.ward.mailboxes[ch.val].req.getLE 10 2 ≤ 1024 → s.wmpUp (.mailbox ch) = true →
        let m := s.ward.mailboxes[ch.val].req.getList 0 (24 + s.ward.mailboxes[ch.val].req.getLE 10 2)
        let t := (s.modWard (fun w => { w with mailboxes := w.mailboxes.set ch.val { s.ward.mailboxes[ch.val] with busy := true } })).wmpRequest (.mailbox ch) m
        (WmpReq.parse (.mailbox ch) m = none → ∃ u, exec (.mailboxGo ch) s = .next u ∧ u.ward.mailboxes[ch.val].err = true ∧
          u.ward.wmpErrors = s.ward.wmpErrors + 1) ∧
        ((WmpReq.parse (.mailbox ch) m).isSome = true → t.inService (.mailbox ch) (leField m 4 2) = true → exec (.mailboxGo ch) s = .next t) ∧
        ((WmpReq.parse (.mailbox ch) m).isSome = true → t.inService (.mailbox ch) (leField m 4 2) = false → exec (.mailboxGo ch) s =
          .next (t.modWard (fun w => { w with mailboxes := w.mailboxes.set ch.val { w.mailboxes[ch.val] with busy := false } }))))) ∧
    (∀ good, s.ward.commitNow = [] → exec (.storeCommitComplete good) s = .next s) ∧
    (s.ward.commitNow ≠ [] → s.ward.up = true →
      (∃ t, exec (.storeCommitComplete false) s = .next t ∧ t.dict = s.dict ∧ t.ward.store = s.ward.store ∧ t.ward.commitNow = s.ward.commitNext ∧ t.ward.oldGood = false) ∧
      (∃ t, exec (.storeCommitComplete true) s = .next t ∧ t.ward.older = s.ward.store ∧ t.ward.oldGood = true)) ∧
    (∀ i, exec (.stagingTimeout i) s = .next (s.modWard (fun w => { w with staging := w.staging.eraseIdx i }))) ∧
    (s.ward.up = true → ∃ t, exec .wardenWatchdog s = .next t ∧ t.ward.up = false ∧ t.ward.staging = [] ∧ t.ward.kept = [] ∧ t.ward.store = s.ward.store ∧
      t.cores = s.cores ∧ t.mem = s.mem ∧ t.modu = s.modu ∧ t.clock = s.clock ∧ t.link = s.link) ∧
    (s.ward.up = false → exec .wardenWatchdog s = .next s) ∧
    (∀ a b, s.ward.up = true ∨ s.plug.wardenUp = false → exec (.wardenRestart a b) s = .next s) ∧
    (∀ a b, s.ward.up = false → s.plug.wardenUp = true → s.ward.quiet = false → s.ward.recovery = false → ∃ t, exec (.wardenRestart a b) s = .next t ∧ t.ward.up = true) ∧
    (s.plug.standbyRails = true → ∃ t, exec .plcaFallback s = .next t ∧ t.ward = { s.ward with plcaFallback := true, plcaFallbacks := s.ward.plcaFallbacks + 1 } ∧ t.mem = s.mem) ∧
    (∀ x y, s.ward.up = true → x = s.i3cStatic → exec (.setdasa x y) s = .next (s.modWard (fun w => { w with i3cAddr := some y }))) ∧
    (∀ x y, x ≠ s.i3cStatic → exec (.setdasa x y) s = .next s) ∧
    (∀ y, s.ward.up = true → (s.ward.i3cAddr = none → exec (.entdaa y) s = .next (s.modWard (fun w => { w with i3cAddr := some y }))) ∧
      (s.ward.i3cAddr ≠ none → exec (.entdaa y) s = .next s)) ∧
    (s.ward.up = true → ∀ e : Byte, ∃ t, exec (.mctpControl .i3c (.setEid e)) s = .next t ∧ t.out = s.out ++ [.mctp .i3c e []] ∧
      Tab.get none t.ward.mctpEid 0 = some e) ∧
    (s.ward.up = true → exec (.mctpControl .i3c .types) s = .next (s.emit (.mctp .i3c ((Tab.get none s.ward.mctpEid 0).getD 0) mctpTypes))) ∧
    (∀ v : Byte, (v ≠ 0x5A → exec (.restoreDefaults v) s = .next (s.emit (.status wmpRange))) ∧
      (v = 0x5A → s.modu.state = .standby ∨ s.modu.state = .ready → exec (.restoreDefaults v) s = .next (s.joinCommit ⟨none, 0, 0x1F01, 0, 0x5A, true⟩)) ∧
      (v = 0x5A → s.modu.state = .active → exec (.restoreDefaults v) s = .next (s.emit (.status wmpState))))

/-! Security (chapter 21) -/

/-- R474 to R478, R481: the SPDM responder: each request in its place is answered, one out of place is refused, and the sessions begin, go on
and end. -/
def Obligations.Spdm : Prop :=
  ∀ (s : State) (path : SpdmPath), s.spdmUp path = true →
    (exec (.getVersion path) s = .next ((s.setConn ⟨path, 1, [], []⟩).spdmReply path .version)) ∧
    (∀ c n, (c, n) ∈ [(Instr.getCapabilities path, 1), (.negotiateAlgorithms path true, 2), (.getDigests path, 3), (.getCertificate path 0, 3), (.challenge path 0, 3),
        (.getMeasurements path 0xFF, 3), (.keyExchange path, 3), (.finish path 0 true, 3), (.chunkSend path [] true, 2), (.chunkGet path 1, 2)] →
      (s.conn path).stage < n → exec c s = .next (s.spdmReply path (.error .unexpectedRequest))) ∧
    (1 ≤ (s.conn path).stage → exec (.getCapabilities path) s = .next ((s.setConn { s.conn path with stage := 2 }).spdmReply path .capabilities)) ∧
    (2 ≤ (s.conn path).stage → (exec (.negotiateAlgorithms path true) s = .next ((s.setConn { s.conn path with stage := 3 }).spdmReply path .algorithms)) ∧
      (exec (.negotiateAlgorithms path false) s = .next (s.spdmReply path (.error .invalidRequest))) ∧
      (∀ data, (exec (.chunkSend path data false) s = .next ((s.setConn { s.conn path with chunk := (s.conn path).chunk ++ data }).spdmReply path .chunkSendAck))) ∧
      (∀ n, (s.conn path).reply ≠ [] → exec (.chunkGet path n) s = .next ((s.setConn { s.conn path with reply := (s.conn path).reply.drop n }).spdmReply path
        (.chunkResponse ((s.conn path).reply.take n) (decide ((s.conn path).reply.length ≤ n)))))) ∧
    (3 ≤ (s.conn path).stage →
      (exec (.getDigests path) s = .next (s.spdmReply path (.digests ([0, 1].map (fun i => Config.sha384 ((s.certChain i).getD [])))))) ∧
      (∀ i b, s.certChain i = some b → exec (.getCertificate path i) s = .next ((s.setConn { s.conn path with reply := b }).spdmReply path (.certificate i b)) ∧
        exec (.challenge path i) s = .next (s.spdmReply path (.challengeAuth i s.measured))) ∧
      (∀ i, 2 ≤ i → exec (.getCertificate path i) s = .next (s.spdmReply path (.error .invalidRequest)) ∧ exec (.challenge path i) s = .next (s.spdmReply path (.error .invalidRequest))) ∧
      (exec (.getMeasurements path 0) s = .next (s.spdmReply path (.measurements 17 []))) ∧
      (exec (.getMeasurements path 0xFF) s = .next (s.spdmReply path (.measurements 17 s.measured))) ∧
      (∀ i : Fin 9, exec (.getMeasurements path (BitVec.ofNat 8 (i.val + 1))) s = .next (s.spdmReply path (.measurements 1 [(i.val + 1, Tab.get 0 s.sec.measure (i.val + 1))]))) ∧
      (s.sessionRoom path = false → exec (.keyExchange path) s = .next (s.spdmReply path (.error .sessionLimit))) ∧
      (s.sessionRoom path = true → ∃ t, exec (.keyExchange path) s = .next t ∧ t.sec.sessions = s.sec.sessions ++ [⟨path, s.newSession path, false, 0, s.clock.time.toNat⟩] ∧
        t.out = s.out ++ [.spdm path (.keyExchange (s.newSession path))]) ∧
      (∀ id x, s.session path id = some x → x.finished = false →
        (exec (.finish path id true) s = .next ((s.touchSession path id (fun y => { y with finished := true })).spdmReply path (.finish id))) ∧
        (exec (.finish path id false) s = .next ((s.dropSession path id).spdmReply path (.error .invalidRequest))))) ∧
    (∀ id x, s.session path id = some x → x.finished = true →
      (∃ t, exec (.keyUpdate path id) s = .next t ∧ t.out = s.out ++ [.spdm path (.keyUpdateAck id (x.keyGen + 1))] ∧ t.mem = s.mem ∧
        t.session path id = some { x with keyGen := x.keyGen + 1, time := s.clock.time.toNat } ∧
        ∀ p, path = .link p → (s.port p).encOn = true → (t.port p).txSpare = some (Config.linkBlock s.draws (s.port p).sendsHigh)) ∧
      (exec (.heartbeat path id) s = .next ((s.touchSession path id (fun y => y)).spdmReply path (.heartbeatAck id))) ∧
      (exec (.endSession path id) s = .next ((s.dropSession path id).spdmReply path (.endSessionAck id)))) ∧
    (∀ id, s.session path id = none → exec (.sessionLost path id) s = .next s ∧ exec (.heartbeat path id) s = .next (s.spdmReply path (.error .unexpectedRequest))) ∧
    (∀ id x, s.session path id = some x →
      (s.clock.time.toNat < x.time + 3 * secTicks → exec (.sessionLost path id) s = .next s) ∧
      (x.time + 3 * secTicks ≤ s.clock.time.toNat → ∃ t, exec (.sessionLost path id) s = .next t ∧ t.mem = s.mem ∧
        ∀ y ∈ t.sec.sessions, y.path = path → y.id ≠ id))

/-- R470, R471, R473, R482 to R484, R486, R487, R491 to R493, R508: debug nonces and tokens, the life cycle, minimum versions, key slots, the warden's
restart, the counters' freeze, snapshot and writes, and the cycle counters on a tick (the model's choice, log 15). -/
def Obligations.SecurityCounters : Prop :=
  ∀ (s : State),
    (s.ward.up = true → exec .debugNonceRead s = .next (s.drawNonce.emit (.nonce (Config.random s.draws))) ∧ s.drawNonce.sec.nonce = Config.random s.draws ∧
      s.drawNonce.draws = s.draws + 1) ∧
    (∀ token, (s.modu.state ≠ .standby → exec (.debugTokenWrite token) s = .next (s.emit (.status wmpState))) ∧
      (s.modu.state = .standby → s.tokenOk (Signed.ofBytes token) = true → ∃ t, exec (.debugTokenWrite token) s = .next t ∧
        t.sec.debugNext = (BitVec.ofNat 8 (leField (Signed.ofBytes token).body 40 8) &&& scopeMask) ∧ t.sec.debugScope = s.sec.debugScope ∧ t.out = s.out ++ [.status wmpOk]) ∧
      (s.modu.state = .standby → s.tokenOk (Signed.ofBytes token) = false → ∃ t, exec (.debugTokenWrite token) s = .next t ∧ t.sec = s.sec)) ∧
    (∀ v : Byte, (v = 0xA5 → s.modu.state = .standby → ∃ t, exec (.lifecycleEnd v) s = .next t ∧ t.sec.lifecycle = 3 ∧ t.sec.debugScope = 0 ∧
        t.sec.debugNext = 0 ∧ t.sec.sessions = [] ∧ t.mem = s.mem) ∧
      (v ≠ 0xA5 → exec (.lifecycleEnd v) s = .next (s.emit (.status wmpRange))) ∧
      (v = 0xA5 → s.modu.state ≠ .standby → exec (.lifecycleEnd v) s = .next (s.emit (.status wmpState)))) ∧
    (∃ t, exec (.commitSvn 1) s = .next t ∧ ∀ i : Fin 5, s.sec.svnMin[i.val] ≤ t.sec.svnMin[i.val] ∧
      (Tab.get Image.absent s.sec.running (i.val + 1)).security ≤ t.sec.svnMin[i.val]) ∧
    (∀ i : Byte, 3 < i.toNat ∨ s.sec.running.any (fun e => decide (e.2.slot.toNat = i.toNat)) = true → exec (.revokeSlot i) s = .next (s.emit (.status wmpRange))) ∧
    (∀ i : Byte, i.toNat ≤ 3 → s.sec.running.any (fun e => decide (e.2.slot.toNat = i.toNat)) = false → ∃ t, exec (.revokeSlot i) s = .next t ∧
      t.sec.revoked.getLsbD i.toNat = true ∧ (∀ k, s.sec.revoked.getLsbD k = true → t.sec.revoked.getLsbD k = true)) ∧
    (∀ v : Byte, (v ≠ 0x5A → exec (.restartWarden v) s = .next (s.emit (.status wmpRange))) ∧
      (v = 0x5A → s.sec.update.state = 4 → exec (.restartWarden v) s = .next (s.emit (.status wmpState))) ∧
      (v = 0x5A → s.sec.update.state ≠ 4 → ∃ t, exec (.restartWarden v) s = .next t ∧ t.ward.up = false ∧ t.ward.quiet = true ∧ t.mem = s.mem ∧ t.cores = s.cores)) ∧
    (s.plug.mainOn = true →
      (s.pmc.frozen = false → exec .pmcFreeze s = .next (s.modPmc (fun c => { c with frozen := true, freezeTime := s.clock.time }))) ∧
      (s.pmc.frozen = true → exec .pmcFreeze s = .next s) ∧
      (exec .pmcUnfreeze s = .next (s.modPmc (fun c => { c with frozen := false }))) ∧
      (s.snapFault s.pmc.snapAddr.toNat 17216 = none → ∃ t, exec .pmcSnapshot s = .next t ∧ t.pmc.snapSeq = s.pmc.snapSeq + 1 ∧ t.pmc.snapErr = s.pmc.snapErr ∧
        t.pmc.frozen = (s.pmc.frozen || !s.pmc.resume)) ∧
      (∀ f, s.snapFault s.pmc.snapAddr.toNat 17216 = some f → ∃ t, exec .pmcSnapshot s = .next t ∧ t.pmc.snapErr = true ∧ t.pmc.frozen = true ∧ t.pmc.snapSeq = s.pmc.snapSeq ∧
        t.mem = s.mem) ∧
      (∀ n (k : Fin 8) (v : W64), (s.core n).mode ≠ .off → ∃ t, exec (.pmcCounterWrite (.core n k) v) s = .next t ∧ t.mem = s.mem ∧
        (t.core n).counters = Tab.set Counter.reset (s.core n).counters k.val { (s.core n).counter k.val with value := v.setWidth 48, sat := false }) ∧
      (∀ (d : Fin 6) (k : Fin 16) (v : W64), ∃ t, exec (.pmcCounterWrite (.die d k) v) s = .next t ∧ t.mem = s.mem ∧
        t.pmc.dies[d.val].counters = Tab.set Counter.dieReset s.pmc.dies[d.val].counters k.val { s.pmc.dies[d.val].counter k.val with value := v.setWidth 48, sat := false }) ∧
      (s.pmc.frozen = false → ∀ n, (s.core n).mode ≠ .off → (s.core n).mode ≠ .cut →
        (s.countTick.core n).cycles = (s.core n).cycles + BitVec.ofNat 64 s.cclks ∧ (s.countTick.core n).mem = (s.core n).mem) ∧
      (s.pmc.frozen = true → s.countTick.cores = s.cores ∧ s.countTick.pmc = s.pmc))

/-! Firmware update (chapter 23) -/

/-- R472, R506 to R508: the PLDM commands: one agent, a component received, verified, applied to bank A with the old image kept in bank B, and
activated for the next restart. -/
def Obligations.Pldm : Prop :=
  ∀ (s : State) (path : PldmPath), s.pldmUp path = true →
    (exec (.queryDeviceIdentifiers path) s = .next (s.pldmSay path (.identifiers Config.vendor Config.uuid))) ∧
    (exec (.getStatus path) s = .next (s.pldmSay path (.status s.sec.update.state))) ∧
    (exec (.getFirmwareParameters path) s = .next (s.pldmSay path (.parameters ([1, 2, 3, 4, 5].map (fun c => (c, (Tab.get Image.absent s.sec.running c).build)))
      (s.sec.update.pending.map (fun c => (c, (s.bankImage c 0).build)))))) ∧
    (s.pldmSecured path = true → s.sec.update.agent = none → ∃ t, exec (.requestUpdate path) s = .next t ∧ t.sec.update =
      { s.sec.update with agent := some path, state := 1, table := [], applied := [], scratch := [] } ∧ t.out = s.out ++ [.pldm path (.done .success)]) ∧
    (s.pldmSecured path = true → s.sec.update.agent ≠ none → exec (.requestUpdate path) s = .next (s.pldmDone path .alreadyInUpdateMode)) ∧
    (∀ c, c ∈ [Instr.requestUpdate path, .passComponentTable path 1 true, .updateComponent path 1 0, .transferComplete path, .verifyComplete path, .applyComplete path,
      .activateFirmware path, .cancelUpdateComponent path, .cancelUpdate path] → s.pldmSecured path = false → exec c s = .next (s.pldmDone path .unsecured)) ∧
    (s.pldmSecured path = true → s.sec.update.agent = some path →
      (s.sec.update.state = 1 →
        (∀ comp last, 1 ≤ comp → comp ≤ 5 → exec (.passComponentTable path comp last) s =
          .next ((s.modUpdate (fun u => { u with table := u.table ++ [comp] })).pldmDone path .success)) ∧
        (∀ comp (size : W32), s.sec.update.table.contains comp = true → exec (.updateComponent path comp size) s =
          .next (((s.modUpdate (fun v => { v with state := 2, component := comp, scratch := [], size := size.toNat })).pldmDone path .success).askData path)) ∧
        (s.sec.update.applied ≠ [] → ∃ t, exec (.activateFirmware path) s = .next t ∧ t.sec.update.agent = none ∧ t.sec.update.state = 5 ∧ t.sec.running = s.sec.running ∧
          (∀ c ∈ s.sec.update.applied, c ∈ t.sec.update.pending)) ∧
        (s.sec.update.applied = [] → exec (.activateFirmware path) s = .next (s.pldmDone path .incomplete))) ∧
      (s.sec.update.state = 2 →
        (∀ data, data ≠ [] → data.length ≤ pldmLimit path → s.sec.update.scratch.length + data.length ≤ s.sec.update.size → exec (.requestFirmwareData path data) s =
          .next ((s.modUpdate (fun v => { v with scratch := v.scratch ++ data })).askData path)) ∧
        (s.sec.update.scratch.length = s.sec.update.size → exec (.transferComplete path) s = .next ((s.modUpdate (fun v => { v with state := 3 })).pldmDone path .success)) ∧
        (s.sec.update.scratch.length ≠ s.sec.update.size → exec (.transferComplete path) s = .next (s.pldmDone path .incomplete))) ∧
      (s.sec.update.state = 3 →
        (s.receivedOk = true → exec (.verifyComplete path) s = .next ((s.modUpdate (fun v => { v with state := 4 })).pldmDone path .success)) ∧
        (s.receivedOk = false → exec (.verifyComplete path) s = .next (s.pldmDone path .verifyFailed))) ∧
      (s.sec.update.state = 4 → ∃ t, exec (.applyComplete path) s = .next t ∧ t.sec.update.state = 1 ∧ t.sec.running = s.sec.running ∧
        t.sec.images = Tab.set Image.absent (Tab.set Image.absent s.sec.images (2 * s.sec.update.component + 1) (s.bankImage s.sec.update.component 0))
          (2 * s.sec.update.component) (Signed.ofBytes s.sec.update.scratch).image) ∧
      (s.sec.update.state = 2 ∨ s.sec.update.state = 3 ∨ s.sec.update.state = 4 → exec (.cancelUpdateComponent path) s =
        .next ((s.modUpdate (fun v => { v with state := 1, scratch := [], size := 0 })).pldmDone path .success)) ∧
      (∃ t, exec (.cancelUpdate path) s = .next t ∧ t.sec.update.agent = none ∧ t.sec.update.pending = s.sec.update.pending ∧ t.sec.images = s.sec.images))

/-- R120, R125: exp2 and log2 on the special inputs, on the inputs whose result is exact, and on every other input by the algorithms of R122
and R126 (their polynomials over the table entries are `exp2Poly` and `log2Frac`). -/
def Obligations.SpecialFunctionTables : Prop :=
  ∀ (x : W32),
    (valOf x = .nan → f32Exp2 x = 0x7FC00000 ∧ f32Log2 x = 0x7FC00000) ∧
    (∀ neg, valOf x = .inf neg → f32Exp2 x = (if neg then 0 else 0x7F800000) ∧ f32Log2 x = (if neg then 0x7FC00000 else 0x7F800000)) ∧
    (∀ neg m e, valOf x = .fin neg m e →
      let q : ℚ := (if neg then -1 else 1) * m * (2 : ℚ) ^ e
      (128 ≤ q → f32Exp2 x = 0x7F800000) ∧
      (q < -150 → f32Exp2 x = 0) ∧
      (∀ n : ℤ, -149 ≤ n → n ≤ 127 → q = n → ∃ k g, valOf (f32Exp2 x) = .fin false k g ∧ (k : ℚ) * 2 ^ g = 2 ^ n) ∧
      (-150 ≤ q → q < 128 → (∀ n : ℤ, -149 ≤ n → q ≠ n) → f32Exp2 x =
        toF32 (.fin false (exp2Poly ⌊256 * Int.fract q⌋.toNat ⌊2 ^ 32 * Int.fract (256 * Int.fract q)⌋.toNat) (⌊q⌋ - 31))) ∧
      (q = 0 → f32Log2 x = 0xFF800000) ∧
      (q < 0 → f32Log2 x = 0x7FC00000) ∧
      (∀ n : ℤ, -149 ≤ n → n ≤ 127 → q = 2 ^ n → ∃ b k g, valOf (f32Log2 x) = .fin b k g ∧ ((if b then -1 else 1) * k * 2 ^ g : ℚ) = n) ∧
      (∀ (n : ℤ) (r : Nat), 0 < r → r < 2 ^ 23 → q = (1 + r / 2 ^ 23) * 2 ^ n →
        let s : ℤ := n * 2 ^ 32 + (log2Frac (r / 2 ^ 15) (r % 2 ^ 15 * 2 ^ 17) : Nat)
        f32Log2 x = toF32 (.fin (decide (s < 0)) s.natAbs (-32))))

/-- R73: a write to CORE_RNG_SEED, CORE_ROT_BASE or CORE_GROUP while the core is RUNNING is dropped and sets wr_drop; while it is not, it takes
effect. Every other RW field takes effect on the write, RUNNING or not: wdog_en, start_pc, the watchdog's timeout, the arguments, irq_en and a
target inside the partition, and, with no load in progress (R103), the program source. CORE_FOLIO has a rule of its own (R240). -/
def Obligations.CoreWritesWhileRunning : Prop :=
  ∀ (s : State) (n : CoreNo) (v : W64), s.plug.mainOn = true →
    ((s.core n).mode = .running → ∀ r, r ∈ [CoreReg.rngSeed, .rotBase, .group] →
      exec (.registerWrite (.core n r) v) s = .next (s.setCore n { s.core n with flags := { (s.core n).flags with wrDrop := true } })) ∧
    ((s.core n).mode ≠ .running →
      exec (.registerWrite (.core n .rngSeed) v) s = .next (s.setCore n { s.core n with regs := { (s.core n).regs with
        rngSeed := v, rngState := if v = 0 then 0x9E3779B97F4A7C15 else v } }) ∧
      exec (.registerWrite (.core n .rotBase) v) s = .next (s.setCore n { s.core n with regs := { (s.core n).regs with
        rotBase := v &&& 0x000FFFFFFFFF0000 } }) ∧
      (v.toNat % 4 ≠ 3 → exec (.registerWrite (.core n .group) v) s = .next (s.setCore n { s.core n with regs := { (s.core n).regs with
        groupLog2 := v.setWidth 2 } }))) ∧
    (v.toNat < 32 → v.toNat % 16 = 0 → exec (.registerWrite (.core n .ctrl) v) s = .next (s.setCore n { s.core n with regs := { (s.core n).regs with
      wdogEn := decide (v.toNat = 16) } })) ∧
    (exec (.registerWrite (.core n .startPc) v) s = .next (s.setCore n { s.core n with regs := { (s.core n).regs with
      startPc := v.setWidth 16 &&& 0x7FF0 } })) ∧
    (exec (.registerWrite (.core n .wdog) v) s = .next (s.setCore n { s.core n with regs := { (s.core n).regs with wdogTimeout := v.setWidth 24 } })) ∧
    (exec (.registerWrite (.core n (.arg 0)) v) s = .next (s.setCore n { s.core n with regs := { (s.core n).regs with arg0 := v } })) ∧
    (exec (.registerWrite (.core n (.arg 1)) v) s = .next (s.setCore n { s.core n with regs := { (s.core n).regs with arg1 := v } })) ∧
    (exec (.registerWrite (.core n (.arg 2)) v) s = .next (s.setCore n { s.core n with regs := { (s.core n).regs with arg2 := v } })) ∧
    ((s.core n).load = none → exec (.registerWrite (.core n .progSrc) v) s = .next (s.setCore n { s.core n with regs := { (s.core n).regs with
      progSrc := v &&& 0x000FFFFFFFFFFFC0 } })) ∧
    (∃ t, exec (.registerWrite (.core n .eventCtrl) v) s = .next t ∧ (t.core n).ev.irqEn = v.getLsbD 18 ∧ (t.core n).regs = (s.core n).regs ∧
      (s.rubricInPart n (v.toNat / 2 ^ 19 % 32) = true → (t.core n).ev.target = (v >>> 19).setWidth 5) ∧
      (s.rubricInPart n (v.toNat / 2 ^ 19 % 32) = false → (t.core n).ev.target = (s.core n).ev.target ∧ (t.core n).flags.wrDrop = true))

/-- R234, R235: unified memory is read and written by granules of 64 bytes with a poison mark. A granule written whole reads as written, with
the mark it was written with; every other granule, and every byte outside it, reads as before; the canonical form stays. A poisoned granule
keeps its bytes. -/
def Obligations.UnifiedMemory : Prop :=
  ∀ (s : State) (g k : Nat) (x : Gran), Memory.wf s.mem = true →
    ((s.setHomeGran g x).homeGran k = if k = g then x else s.homeGran k) ∧
    (∀ a, (a < 64 * g ∨ 64 * g + 64 ≤ a) → (s.setHomeGran g x).mem.cells.get a = s.mem.cells.get a) ∧
    Memory.wf (s.setHomeGran g x).mem = true ∧
    ((s.poisonGran g).homeGran k = if k = g then ⟨(s.homeGran g).data, true⟩ else s.homeGran k) ∧
    Memory.wf (s.poisonGran g).mem = true ∧
    (∀ f, Memory.wf (s.zeroFrame f).mem = true ∧ (s.zeroFrame f).homeGran k = if k / 1024 = f then ⟨0, false⟩ else s.homeGran k)

/-! Core faults and the whole machine (chapters 2, 3, 17, 22) -/

/-- R70, R74, R75, R76, R462: a core fault of the instruction at `pc` stops the core: it enters FAULTED in no phase and waiting for nothing, its
fault registers name the code, the resource, the tile, what was needed and what there was, and the program-buffer offset; its stores and scalar
registers keep their contents, every other core and unified memory are as they were. A cut that waits takes effect with it: the core is CUT. A
core that is FAULTED, CUT or OFF only reports. -/
def Obligations.CoreFaults : Prop :=
  ∀ (s : State) (n : CoreNo) (pc : W64) (e : CoreErr),
    ((s.core n).mode = .faulted ∨ (s.core n).mode = .cut ∨ (s.core n).mode = .off →
      s.coreFaultAt n pc e = s.report (s.coreRecord n pc e) ∧ ∀ m, (s.coreFaultAt n pc e).core m = s.core m) ∧
    ((s.core n).mode ≠ .faulted → (s.core n).mode ≠ .cut → (s.core n).mode ≠ .off →
      (let c := (s.coreFaultAt n pc e).core n
       c.mode = (if (s.core n).flags.cutReq then .cut else .faulted) ∧ c.phase = .none ∧ c.wait = none ∧
        c.fault = ⟨BitVec.ofNat 16 e.code, BitVec.ofNat 3 e.resource, e.multi, true, pc,
          BitVec.ofNat 32 e.tile, BitVec.ofNat 32 e.need, BitVec.ofNat 32 e.have_⟩ ∧
        c.mem = (s.core n).mem ∧ c.sregs = (s.core n).sregs ∧ c.regs = (s.core n).regs) ∧
      (∀ m, m ≠ n → (s.coreFaultAt n pc e).core m = s.core m) ∧
      (s.coreFaultAt n pc e).mem = s.mem ∧ (s.coreFaultAt n pc e).fol = s.fol ∧ (s.coreFaultAt n pc e).modu =
        (if (s.core n).flags.cutReq then { s.modu with cutMap := s.modu.cutMap ||| BitVec.ofNat 128 (2 ^ n.val) } else s.modu))

/-- A step takes the command at the front of the queue and runs it on the state with the queue's rest; with none waiting the block ticks
(the model's choice, log 60). -/
def Obligations.StepFront : Prop :=
  (∀ (c : Instr) (s : State), step { s with pending := c :: s.pending } = exec c s) ∧
  (∀ s : State, s.pending = [] → step s = .next s.tick)

/-- R40, R71, R417, R487, R496, R505: the machine at power-on from OFF: no command waits; global time is 0; the module is OFF with its main
domain down; every core is IDLE at the offset 0 with no fault; no partition is formed; every port is DOWN; nothing is recorded; every
counter is 0; every entry of the dictionary reads as its default; memory lists nothing and the invariant
holds. -/
def Obligations.ResetValues : Prop :=
  State.reset.pending = [] ∧ State.reset.clock.time = 0 ∧ State.reset.modu.state = .off ∧ State.reset.mainOn = false ∧ State.reset.ward.up = false ∧
  (∀ n : CoreNo, (State.reset.core n).mode = .idle ∧ (State.reset.core n).regs.pc = 0 ∧ (State.reset.core n).fault.valid = false ∧
    (∀ r, (State.reset.core n).sget r = 0) ∧ ∀ k, ((State.reset.core n).counter k).value = 0) ∧
  (∀ p : PartNo, (State.reset.part p).mode = .unformed ∧ (State.reset.part p).dies = 0) ∧
  (∀ p : PortNo, (State.reset.port p).mode = .down) ∧
  State.reset.log.ring = [] ∧ State.reset.log.persisted = [] ∧
  (∀ i j r, dictRow i j = some r → State.reset.dictVal i j = r.dflt) ∧
  State.reset.mem.cells = [] ∧ State.reset.Inv

/-- Every step keeps the invariant: whatever command is at the front of the queue, and for a tick, unified memory and the folio unit's tables
stay in canonical form. -/
def Obligations.StepKeepsInvariant : Prop :=
  ∀ (s t : State), s.Inv → step s = .next t → t.Inv
end

