-- ==== Sys2Proof/Laws/Cells.lean ====
section
/-! SUPPORT. Laws of sparse storage: what a read after a write gives, and that every operation keeps the canonical form. -/

namespace Sys2Proof.Machine

/-! The canonical form, as propositions -/

theorem Tab.wf_iff {α : Type} [DecidableEq α] (d : α) (m : Tab α) :
    Tab.wf d m = true ↔ m.Pairwise (fun p q => p.1 < q.1) ∧ ∀ p ∈ m, p.2 ≠ d := by
  simp [Tab.wf, Bool.and_eq_true]

theorem Cells.wf_iff {w : Nat} (m : Cells w) :
    Cells.wf m = true ↔ m.Pairwise (fun p q => p.1 < q.1) ∧ ∀ p ∈ m, p.2 ≠ 0 := Tab.wf_iff 0 m

@[simp] theorem Tab.wf_nil {α : Type} [DecidableEq α] (d : α) : Tab.wf d ([] : Tab α) = true := by simp [Tab.wf]

@[simp] theorem Cells.wf_nil {w : Nat} : Cells.wf ([] : Cells w) = true := Tab.wf_nil 0

/-- A sublist of a canonical table is canonical. -/
theorem Tab.wf_sublist {α : Type} [DecidableEq α] {d : α} {m n : Tab α} (h : Tab.wf d m = true) (hs : n.Sublist m) : Tab.wf d n = true := by
  rw [Tab.wf_iff] at *
  exact ⟨h.1.sublist hs, fun p hp => h.2 p (hs.subset hp)⟩

theorem Cells.wf_filter {w : Nat} {m : Cells w} (h : m.wf = true) (p : Nat × BitVec w → Bool) : Cells.wf (m.filter p) = true :=
  Tab.wf_sublist h List.filter_sublist

theorem Cells.wf_clearRange {w : Nat} {m : Cells w} (h : m.wf = true) (a n : Nat) : (m.clearRange a n).wf = true :=
  Cells.wf_filter h _

/-! Writing one key -/

theorem Tab.mem_set {α : Type} [DecidableEq α] (d : α) (m : Tab α) (a : Nat) (v : α) (q : Nat × α) (h : q ∈ Tab.set d m a v) :
    q ∈ m ∨ (q = (a, v) ∧ v ≠ d) := by
  induction m with
  | nil =>
    simp only [Tab.set] at h
    split at h
    · cases h
    · rw [List.mem_singleton] at h; exact .inr ⟨h, by assumption⟩
  | cons e r ih =>
    obtain ⟨k, x⟩ := e
    simp only [Tab.set] at h
    split at h
    · split at h
      · exact .inl h
      · rcases List.mem_cons.1 h with h | h
        · exact .inr ⟨h, by assumption⟩
        · exact .inl h
    · split at h
      · split at h
        · exact .inl (List.mem_cons_of_mem _ h)
        · rcases List.mem_cons.1 h with h | h
          · exact .inr ⟨h, by assumption⟩
          · exact .inl (List.mem_cons_of_mem _ h)
      · rcases List.mem_cons.1 h with h | h
        · exact .inl (h ▸ List.mem_cons_self)
        · rcases ih h with h | h
          · exact .inl (List.mem_cons_of_mem _ h)
          · exact .inr h

theorem Tab.wf_set {α : Type} [DecidableEq α] {d : α} {m : Tab α} (h : Tab.wf d m = true) (a : Nat) (v : α) :
    Tab.wf d (Tab.set d m a v) = true := by
  induction m with
  | nil =>
    simp only [Tab.set]
    split
    · simp
    · rw [Tab.wf_iff]; simpa using ‹_›
  | cons e r ih =>
    obtain ⟨k, x⟩ := e
    have hc := (Tab.wf_iff d _).1 h
    have hr : Tab.wf d r = true := Tab.wf_sublist h (List.sublist_cons_self _ _)
    have hk := (List.pairwise_cons.1 hc.1).1
    simp only [Tab.set]
    split
    · split
      · exact h
      · rw [Tab.wf_iff]
        refine ⟨List.pairwise_cons.2 ⟨fun q hq => ?_, hc.1⟩, fun q hq => ?_⟩
        · rcases List.mem_cons.1 hq with rfl | hq
          · assumption
          · exact lt_trans (by assumption) (hk q hq)
        · rcases List.mem_cons.1 hq with rfl | hq
          · assumption
          · exact hc.2 q hq
    · split
      · subst_vars
        split
        · exact hr
        · rw [Tab.wf_iff]
          refine ⟨List.pairwise_cons.2 ⟨hk, (List.pairwise_cons.1 hc.1).2⟩, fun q hq => ?_⟩
          rcases List.mem_cons.1 hq with rfl | hq
          · assumption
          · exact hc.2 q (List.mem_cons_of_mem _ hq)
      · have hi := (Tab.wf_iff d _).1 (ih hr)
        rw [Tab.wf_iff]
        refine ⟨List.pairwise_cons.2 ⟨fun q hq => ?_, hi.1⟩, fun q hq => ?_⟩
        · rcases Tab.mem_set d r a v q hq with hq | ⟨rfl, _⟩
          · exact hk q hq
          · show k < a; omega
        · rcases List.mem_cons.1 hq with rfl | hq
          · exact hc.2 _ List.mem_cons_self
          · exact hi.2 q hq

theorem Cells.wf_set {w : Nat} {m : Cells w} (h : m.wf = true) (a : Nat) (v : BitVec w) : (m.set a v).wf = true := Tab.wf_set h a v

/-- A table reads what was last written, in any form, when that is not the unlisted value. -/
theorem Tab.get_set_listed {α : Type} [DecidableEq α] {d v : α} (hv : v ≠ d) (m : Tab α) (a : Nat) : Tab.get d (Tab.set d m a v) a = v := by
  induction m with
  | nil => simp [Tab.set, Tab.get, hv]
  | cons q r ih =>
    obtain ⟨k, x⟩ := q
    simp only [Tab.set, if_neg hv]
    split
    · simp [Tab.get]
    · split
      · simp [Tab.get]
      · simp only [Tab.get]; rw [if_neg (by assumption)]; exact ih

/-- A read after a write (keys rising). -/
theorem Tab.get_set {α : Type} [DecidableEq α] {d : α} {m : Tab α} (h : Tab.wf d m = true) (a b : Nat) (v : α) :
    Tab.get d (Tab.set d m a v) b = if b = a then v else Tab.get d m b := by
  have none_below : ∀ (r : Tab α) (b : Nat), (∀ q ∈ r, b < q.1) → Tab.get d r b = d := by
    intro r b hr
    induction r with
    | nil => rfl
    | cons e r ih =>
      have := hr e List.mem_cons_self
      simp only [Tab.get]
      rw [if_neg (by omega)]
      exact ih (fun q hq => hr q (List.mem_cons_of_mem _ hq))
  induction m with
  | nil =>
    simp only [Tab.set]
    split
    · subst_vars; simp [Tab.get]
    · simp [Tab.get]
  | cons e r ih =>
    obtain ⟨k, x⟩ := e
    have hc := (Tab.wf_iff d _).1 h
    have hr : Tab.wf d r = true := Tab.wf_sublist h (List.sublist_cons_self _ _)
    have hk := (List.pairwise_cons.1 hc.1).1
    simp only [Tab.set]
    split
    · split
      · split
        · subst_vars
          exact none_below _ _ (fun q hq => by
            rcases List.mem_cons.1 hq with rfl | hq
            · assumption
            · exact lt_trans (by assumption) (hk q hq))
        · rfl
      · simp only [Tab.get]
    · split
      · subst_vars
        split
        · subst_vars
          by_cases hb : b = k
          · subst hb; simp only [if_true]; exact none_below _ _ hk
          · simp [Tab.get, hb]
        · by_cases hb : b = k <;> simp [Tab.get, hb]
      · simp only [Tab.get, ih hr]
        by_cases hb : b = k
        · subst hb; rw [if_pos rfl, if_pos rfl, if_neg (by omega)]
        · simp [hb]

theorem Cells.get_set {w : Nat} {m : Cells w} (h : m.wf = true) (a b : Nat) (v : BitVec w) :
    (m.set a v).get b = if b = a then v else m.get b := Tab.get_set h a b v

/-! Stretches -/

theorem Cells.wf_setList {w : Nat} (vs : List (BitVec w)) : ∀ {m : Cells w} (_ : m.wf = true) (a : Nat), (m.setList a vs).wf = true := by
  induction vs with
  | nil => intro m h a; exact h
  | cons v vs ih => intro m h a; exact ih (Cells.wf_set h a v) (a + 1)

theorem Cells.wf_setLE (n : Nat) : ∀ {m : Cells 8} (_ : m.wf = true) (a v : Nat), (m.setLE a n v).wf = true := by
  induction n with
  | zero => intro m h a v; exact h
  | succ n ih => intro m h a v; exact ih (Cells.wf_set h a _) (a + 1) (v / 256)

theorem Cells.wf_foldl_set {w : Nat} {β : Type} (l : List β) (k : β → Nat) (v : β → BitVec w) :
    ∀ {m : Cells w} (_ : m.wf = true), Cells.wf (l.foldl (fun ps e => Cells.set ps (k e) (v e)) m) = true := by
  induction l with
  | nil => intro m h; exact h
  | cons e l ih => intro m h; exact ih (Cells.wf_set h _ _)

theorem Cells.wf_slice {w : Nat} {m : Cells w} (h : m.wf = true) (a n : Nat) : (m.slice a n).wf = true := by
  have hf := (Cells.wf_iff _).1 (Cells.wf_filter h (fun p => decide (a ≤ p.1) && decide (p.1 < a + n)))
  rw [Cells.wf_iff]
  refine ⟨?_, ?_⟩
  · unfold Cells.slice
    rw [List.pairwise_map]
    refine hf.1.imp_of_mem (fun {p q} hp hq hpq => ?_)
    have h1 := (List.mem_filter.1 hp).2
    simp only [Bool.and_eq_true, decide_eq_true_eq] at h1
    show p.1 - a < q.1 - a
    omega
  · intro p hp
    obtain ⟨q, hq, rfl⟩ := List.mem_map.1 hp
    exact hf.2 q hq

theorem Cells.wf_splice {w : Nat} {m sl : Cells w} (h : m.wf = true) (hs : sl.wf = true) (a n : Nat) : (m.splice a n sl).wf = true := by
  have h1 := (Cells.wf_iff _).1 (Cells.wf_filter h (fun p => decide (p.1 < a)))
  have h2 := (Cells.wf_iff _).1 (Cells.wf_filter hs (fun p => decide (p.1 < n)))
  have h3 := (Cells.wf_iff _).1 (Cells.wf_filter h (fun p => decide (a + n ≤ p.1)))
  rw [Cells.wf_iff]
  unfold Cells.splice
  refine ⟨List.pairwise_append.2 ⟨List.pairwise_append.2 ⟨h1.1, ?_, ?_⟩, h3.1, ?_⟩, ?_⟩
  · rw [List.pairwise_map]
    exact h2.1.imp (fun {p q} hpq => by show p.1 + a < q.1 + a; omega)
  · intro p hp q hq
    obtain ⟨r, hr, rfl⟩ := List.mem_map.1 hq
    have := (List.mem_filter.1 hp).2
    simp only [decide_eq_true_eq] at this
    show p.1 < r.1 + a
    omega
  · intro p hp q hq
    have h4 := (List.mem_filter.1 hq).2
    simp only [decide_eq_true_eq] at h4
    rcases List.mem_append.1 hp with hp | hp
    · have := (List.mem_filter.1 hp).2
      simp only [decide_eq_true_eq] at this
      omega
    · obtain ⟨r, hr, rfl⟩ := List.mem_map.1 hp
      have := (List.mem_filter.1 hr).2
      simp only [decide_eq_true_eq] at this
      show r.1 + a < q.1
      omega
  · intro p hp
    rcases List.mem_append.1 hp with hp | hp
    · rcases List.mem_append.1 hp with hp | hp
      · exact h1.2 p hp
      · obtain ⟨r, hr, rfl⟩ := List.mem_map.1 hp
        exact h2.2 r hr
    · exact h3.2 p hp

theorem wf_sparseFrom {w : Nat} (vs : List (BitVec w)) : ∀ i, (∀ p ∈ sparseFrom i vs, i ≤ p.1) ∧ Cells.wf (sparseFrom i vs) = true := by
  induction vs with
  | nil => intro i; simp [sparseFrom]
  | cons v vs ih =>
    intro i
    have h := ih (i + 1)
    have hw := (Cells.wf_iff _).1 h.2
    simp only [sparseFrom]
    split
    · exact ⟨fun p hp => by have := h.1 p hp; omega, h.2⟩
    · refine ⟨fun p hp => ?_, ?_⟩
      · rcases List.mem_cons.1 hp with rfl | hp
        · exact le_refl _
        · have := h.1 p hp; omega
      · rw [Cells.wf_iff]
        refine ⟨List.pairwise_cons.2 ⟨fun q hq => by have := h.1 q hq; show i < q.1; omega, hw.1⟩, fun q hq => ?_⟩
        rcases List.mem_cons.1 hq with rfl | hq
        · assumption
        · exact hw.2 q hq

theorem Cells.wf_put {w : Nat} {m : Cells w} (h : m.wf = true) (a : Nat) (vs : List (BitVec w)) : (m.put a vs).wf = true :=
  Cells.wf_splice h (wf_sparseFrom vs 0).2 _ _

theorem Cells.wf_fill {w : Nat} {m : Cells w} (h : m.wf = true) (a n : Nat) (v : BitVec w) : (m.fill a n v).wf = true := by
  unfold Cells.fill
  split
  · exact Cells.wf_clearRange h a n
  · refine Cells.wf_splice h ?_ _ _
    rw [Cells.wf_iff]
    refine ⟨?_, ?_⟩
    · rw [List.pairwise_map]; exact List.pairwise_lt_range
    · intro p hp
      obtain ⟨i, _, rfl⟩ := List.mem_map.1 hp
      assumption

theorem Cells.wf_fillWith {w : Nat} {m : Cells w} (h : m.wf = true) (a n : Nat) (f : Nat → BitVec w) : (m.fillWith a n f).wf = true := by
  refine Cells.wf_splice h ?_ a n
  rw [Cells.wf_iff]
  refine ⟨List.Pairwise.sublist List.filter_sublist ?_, fun p hp => by simpa using (List.mem_filter.1 hp).2⟩
  rw [List.pairwise_map]
  exact List.pairwise_lt_range

/-- Replacing values and dropping the zeros keeps the canonical form. -/
theorem Cells.wf_remap {w : Nat} {m : Cells w} (h : m.wf = true) (f : Nat × BitVec w → Nat × BitVec w) (hf : ∀ e, (f e).1 = e.1) :
    Cells.wf ((m.map f).filter (fun e => decide (e.2 ≠ 0))) = true := by
  have hm := (Cells.wf_iff _).1 h
  rw [Cells.wf_iff]
  refine ⟨List.Pairwise.sublist List.filter_sublist ?_, fun p hp => ?_⟩
  · rw [List.pairwise_map]
    exact hm.1.imp (fun {p q} hpq => by rw [hf, hf]; exact hpq)
  · simpa using (List.mem_filter.1 hp).2

/-- A cleared stretch reads as 0, every other key as before. -/
theorem Cells.get_clearRange {w : Nat} (m : Cells w) (a n b : Nat) : (m.clearRange a n).get b = if a ≤ b ∧ b < a + n then 0 else m.get b := by
  induction m with
  | nil => simp [Cells.clearRange, Cells.get, Tab.get]
  | cons e r ih =>
    obtain ⟨k, x⟩ := e
    simp only [Cells.clearRange, Cells.get] at *
    simp only [List.filter_cons]
    split
    · rename_i h
      simp only [Tab.get, ih]
      by_cases hb : b = k
      · subst hb; rw [if_pos rfl, if_pos rfl, if_neg]; simp at h; omega
      · simp [hb]
    · rename_i h
      simp only [Tab.get, ih]
      by_cases hb : b = k
      · subst hb
        have : a ≤ b ∧ b < a + n := by simpa using h
        simp [this]
      · simp [hb]

end Sys2Proof.Machine
end

