-- ==== Sys2Proof/Laws/State.lean ====
section
/-! SUPPORT. What each update of the state leaves in each of its fields: one lemma per field per update. -/

namespace Sys2Proof.Machine

/-! State.setCore -/

@[simp] theorem State.setCore_pending (s : State) (n : CoreNo) (c : Core) : (s.setCore n c).pending = s.pending := rfl
@[simp] theorem State.setCore_draws (s : State) (n : CoreNo) (c : Core) : (s.setCore n c).draws = s.draws := rfl
@[simp] theorem State.setCore_variant (s : State) (n : CoreNo) (c : Core) : (s.setCore n c).variant = s.variant := rfl
@[simp] theorem State.setCore_rubric (s : State) (n : CoreNo) (c : Core) : (s.setCore n c).rubric = s.rubric := rfl
@[simp] theorem State.setCore_mesh (s : State) (n : CoreNo) (c : Core) : (s.setCore n c).mesh = s.mesh := rfl
@[simp] theorem State.setCore_mem (s : State) (n : CoreNo) (c : Core) : (s.setCore n c).mem = s.mem := rfl
@[simp] theorem State.setCore_xlate (s : State) (n : CoreNo) (c : Core) : (s.setCore n c).xlate = s.xlate := rfl
@[simp] theorem State.setCore_fol (s : State) (n : CoreNo) (c : Core) : (s.setCore n c).fol = s.fol := rfl
@[simp] theorem State.setCore_host (s : State) (n : CoreNo) (c : Core) : (s.setCore n c).host = s.host := rfl
@[simp] theorem State.setCore_clock (s : State) (n : CoreNo) (c : Core) : (s.setCore n c).clock = s.clock := rfl
@[simp] theorem State.setCore_dieMap (s : State) (n : CoreNo) (c : Core) : (s.setCore n c).dieMap = s.dieMap := rfl
@[simp] theorem State.setCore_parts (s : State) (n : CoreNo) (c : Core) : (s.setCore n c).parts = s.parts := rfl
@[simp] theorem State.setCore_log (s : State) (n : CoreNo) (c : Core) : (s.setCore n c).log = s.log := rfl
@[simp] theorem State.setCore_power (s : State) (n : CoreNo) (c : Core) : (s.setCore n c).power = s.power := rfl
@[simp] theorem State.setCore_plug (s : State) (n : CoreNo) (c : Core) : (s.setCore n c).plug = s.plug := rfl
@[simp] theorem State.setCore_modu (s : State) (n : CoreNo) (c : Core) : (s.setCore n c).modu = s.modu := rfl
@[simp] theorem State.setCore_link (s : State) (n : CoreNo) (c : Core) : (s.setCore n c).link = s.link := rfl
@[simp] theorem State.setCore_dict (s : State) (n : CoreNo) (c : Core) : (s.setCore n c).dict = s.dict := rfl
@[simp] theorem State.setCore_ward (s : State) (n : CoreNo) (c : Core) : (s.setCore n c).ward = s.ward := rfl
@[simp] theorem State.setCore_sec (s : State) (n : CoreNo) (c : Core) : (s.setCore n c).sec = s.sec := rfl
@[simp] theorem State.setCore_pmc (s : State) (n : CoreNo) (c : Core) : (s.setCore n c).pmc = s.pmc := rfl
@[simp] theorem State.setCore_out (s : State) (n : CoreNo) (c : Core) : (s.setCore n c).out = s.out := rfl

/-! State.modCore -/

@[simp] theorem State.modCore_pending (s : State) (n : CoreNo) (f : Core → Core) : (s.modCore n f).pending = s.pending := rfl
@[simp] theorem State.modCore_draws (s : State) (n : CoreNo) (f : Core → Core) : (s.modCore n f).draws = s.draws := rfl
@[simp] theorem State.modCore_variant (s : State) (n : CoreNo) (f : Core → Core) : (s.modCore n f).variant = s.variant := rfl
@[simp] theorem State.modCore_rubric (s : State) (n : CoreNo) (f : Core → Core) : (s.modCore n f).rubric = s.rubric := rfl
@[simp] theorem State.modCore_mesh (s : State) (n : CoreNo) (f : Core → Core) : (s.modCore n f).mesh = s.mesh := rfl
@[simp] theorem State.modCore_mem (s : State) (n : CoreNo) (f : Core → Core) : (s.modCore n f).mem = s.mem := rfl
@[simp] theorem State.modCore_xlate (s : State) (n : CoreNo) (f : Core → Core) : (s.modCore n f).xlate = s.xlate := rfl
@[simp] theorem State.modCore_fol (s : State) (n : CoreNo) (f : Core → Core) : (s.modCore n f).fol = s.fol := rfl
@[simp] theorem State.modCore_host (s : State) (n : CoreNo) (f : Core → Core) : (s.modCore n f).host = s.host := rfl
@[simp] theorem State.modCore_clock (s : State) (n : CoreNo) (f : Core → Core) : (s.modCore n f).clock = s.clock := rfl
@[simp] theorem State.modCore_dieMap (s : State) (n : CoreNo) (f : Core → Core) : (s.modCore n f).dieMap = s.dieMap := rfl
@[simp] theorem State.modCore_parts (s : State) (n : CoreNo) (f : Core → Core) : (s.modCore n f).parts = s.parts := rfl
@[simp] theorem State.modCore_log (s : State) (n : CoreNo) (f : Core → Core) : (s.modCore n f).log = s.log := rfl
@[simp] theorem State.modCore_power (s : State) (n : CoreNo) (f : Core → Core) : (s.modCore n f).power = s.power := rfl
@[simp] theorem State.modCore_plug (s : State) (n : CoreNo) (f : Core → Core) : (s.modCore n f).plug = s.plug := rfl
@[simp] theorem State.modCore_modu (s : State) (n : CoreNo) (f : Core → Core) : (s.modCore n f).modu = s.modu := rfl
@[simp] theorem State.modCore_link (s : State) (n : CoreNo) (f : Core → Core) : (s.modCore n f).link = s.link := rfl
@[simp] theorem State.modCore_dict (s : State) (n : CoreNo) (f : Core → Core) : (s.modCore n f).dict = s.dict := rfl
@[simp] theorem State.modCore_ward (s : State) (n : CoreNo) (f : Core → Core) : (s.modCore n f).ward = s.ward := rfl
@[simp] theorem State.modCore_sec (s : State) (n : CoreNo) (f : Core → Core) : (s.modCore n f).sec = s.sec := rfl
@[simp] theorem State.modCore_pmc (s : State) (n : CoreNo) (f : Core → Core) : (s.modCore n f).pmc = s.pmc := rfl
@[simp] theorem State.modCore_out (s : State) (n : CoreNo) (f : Core → Core) : (s.modCore n f).out = s.out := rfl

/-! State.setRub -/

@[simp] theorem State.setRub_pending (s : State) (k : Fin 24) (r : Rubric) : (s.setRub k r).pending = s.pending := rfl
@[simp] theorem State.setRub_draws (s : State) (k : Fin 24) (r : Rubric) : (s.setRub k r).draws = s.draws := rfl
@[simp] theorem State.setRub_variant (s : State) (k : Fin 24) (r : Rubric) : (s.setRub k r).variant = s.variant := rfl
@[simp] theorem State.setRub_cores (s : State) (k : Fin 24) (r : Rubric) : (s.setRub k r).cores = s.cores := rfl
@[simp] theorem State.setRub_mesh (s : State) (k : Fin 24) (r : Rubric) : (s.setRub k r).mesh = s.mesh := rfl
@[simp] theorem State.setRub_mem (s : State) (k : Fin 24) (r : Rubric) : (s.setRub k r).mem = s.mem := rfl
@[simp] theorem State.setRub_xlate (s : State) (k : Fin 24) (r : Rubric) : (s.setRub k r).xlate = s.xlate := rfl
@[simp] theorem State.setRub_fol (s : State) (k : Fin 24) (r : Rubric) : (s.setRub k r).fol = s.fol := rfl
@[simp] theorem State.setRub_host (s : State) (k : Fin 24) (r : Rubric) : (s.setRub k r).host = s.host := rfl
@[simp] theorem State.setRub_clock (s : State) (k : Fin 24) (r : Rubric) : (s.setRub k r).clock = s.clock := rfl
@[simp] theorem State.setRub_dieMap (s : State) (k : Fin 24) (r : Rubric) : (s.setRub k r).dieMap = s.dieMap := rfl
@[simp] theorem State.setRub_parts (s : State) (k : Fin 24) (r : Rubric) : (s.setRub k r).parts = s.parts := rfl
@[simp] theorem State.setRub_log (s : State) (k : Fin 24) (r : Rubric) : (s.setRub k r).log = s.log := rfl
@[simp] theorem State.setRub_power (s : State) (k : Fin 24) (r : Rubric) : (s.setRub k r).power = s.power := rfl
@[simp] theorem State.setRub_plug (s : State) (k : Fin 24) (r : Rubric) : (s.setRub k r).plug = s.plug := rfl
@[simp] theorem State.setRub_modu (s : State) (k : Fin 24) (r : Rubric) : (s.setRub k r).modu = s.modu := rfl
@[simp] theorem State.setRub_link (s : State) (k : Fin 24) (r : Rubric) : (s.setRub k r).link = s.link := rfl
@[simp] theorem State.setRub_dict (s : State) (k : Fin 24) (r : Rubric) : (s.setRub k r).dict = s.dict := rfl
@[simp] theorem State.setRub_ward (s : State) (k : Fin 24) (r : Rubric) : (s.setRub k r).ward = s.ward := rfl
@[simp] theorem State.setRub_sec (s : State) (k : Fin 24) (r : Rubric) : (s.setRub k r).sec = s.sec := rfl
@[simp] theorem State.setRub_pmc (s : State) (k : Fin 24) (r : Rubric) : (s.setRub k r).pmc = s.pmc := rfl
@[simp] theorem State.setRub_out (s : State) (k : Fin 24) (r : Rubric) : (s.setRub k r).out = s.out := rfl

/-! State.modRub -/

@[simp] theorem State.modRub_pending (s : State) (k : Fin 24) (f : Rubric → Rubric) : (s.modRub k f).pending = s.pending := rfl
@[simp] theorem State.modRub_draws (s : State) (k : Fin 24) (f : Rubric → Rubric) : (s.modRub k f).draws = s.draws := rfl
@[simp] theorem State.modRub_variant (s : State) (k : Fin 24) (f : Rubric → Rubric) : (s.modRub k f).variant = s.variant := rfl
@[simp] theorem State.modRub_cores (s : State) (k : Fin 24) (f : Rubric → Rubric) : (s.modRub k f).cores = s.cores := rfl
@[simp] theorem State.modRub_mesh (s : State) (k : Fin 24) (f : Rubric → Rubric) : (s.modRub k f).mesh = s.mesh := rfl
@[simp] theorem State.modRub_mem (s : State) (k : Fin 24) (f : Rubric → Rubric) : (s.modRub k f).mem = s.mem := rfl
@[simp] theorem State.modRub_xlate (s : State) (k : Fin 24) (f : Rubric → Rubric) : (s.modRub k f).xlate = s.xlate := rfl
@[simp] theorem State.modRub_fol (s : State) (k : Fin 24) (f : Rubric → Rubric) : (s.modRub k f).fol = s.fol := rfl
@[simp] theorem State.modRub_host (s : State) (k : Fin 24) (f : Rubric → Rubric) : (s.modRub k f).host = s.host := rfl
@[simp] theorem State.modRub_clock (s : State) (k : Fin 24) (f : Rubric → Rubric) : (s.modRub k f).clock = s.clock := rfl
@[simp] theorem State.modRub_dieMap (s : State) (k : Fin 24) (f : Rubric → Rubric) : (s.modRub k f).dieMap = s.dieMap := rfl
@[simp] theorem State.modRub_parts (s : State) (k : Fin 24) (f : Rubric → Rubric) : (s.modRub k f).parts = s.parts := rfl
@[simp] theorem State.modRub_log (s : State) (k : Fin 24) (f : Rubric → Rubric) : (s.modRub k f).log = s.log := rfl
@[simp] theorem State.modRub_power (s : State) (k : Fin 24) (f : Rubric → Rubric) : (s.modRub k f).power = s.power := rfl
@[simp] theorem State.modRub_plug (s : State) (k : Fin 24) (f : Rubric → Rubric) : (s.modRub k f).plug = s.plug := rfl
@[simp] theorem State.modRub_modu (s : State) (k : Fin 24) (f : Rubric → Rubric) : (s.modRub k f).modu = s.modu := rfl
@[simp] theorem State.modRub_link (s : State) (k : Fin 24) (f : Rubric → Rubric) : (s.modRub k f).link = s.link := rfl
@[simp] theorem State.modRub_dict (s : State) (k : Fin 24) (f : Rubric → Rubric) : (s.modRub k f).dict = s.dict := rfl
@[simp] theorem State.modRub_ward (s : State) (k : Fin 24) (f : Rubric → Rubric) : (s.modRub k f).ward = s.ward := rfl
@[simp] theorem State.modRub_sec (s : State) (k : Fin 24) (f : Rubric → Rubric) : (s.modRub k f).sec = s.sec := rfl
@[simp] theorem State.modRub_pmc (s : State) (k : Fin 24) (f : Rubric → Rubric) : (s.modRub k f).pmc = s.pmc := rfl
@[simp] theorem State.modRub_out (s : State) (k : Fin 24) (f : Rubric → Rubric) : (s.modRub k f).out = s.out := rfl

/-! State.setPart -/

@[simp] theorem State.setPart_pending (s : State) (p : PartNo) (x : Part) : (s.setPart p x).pending = s.pending := rfl
@[simp] theorem State.setPart_draws (s : State) (p : PartNo) (x : Part) : (s.setPart p x).draws = s.draws := rfl
@[simp] theorem State.setPart_variant (s : State) (p : PartNo) (x : Part) : (s.setPart p x).variant = s.variant := rfl
@[simp] theorem State.setPart_cores (s : State) (p : PartNo) (x : Part) : (s.setPart p x).cores = s.cores := rfl
@[simp] theorem State.setPart_rubric (s : State) (p : PartNo) (x : Part) : (s.setPart p x).rubric = s.rubric := rfl
@[simp] theorem State.setPart_mesh (s : State) (p : PartNo) (x : Part) : (s.setPart p x).mesh = s.mesh := rfl
@[simp] theorem State.setPart_mem (s : State) (p : PartNo) (x : Part) : (s.setPart p x).mem = s.mem := rfl
@[simp] theorem State.setPart_xlate (s : State) (p : PartNo) (x : Part) : (s.setPart p x).xlate = s.xlate := rfl
@[simp] theorem State.setPart_fol (s : State) (p : PartNo) (x : Part) : (s.setPart p x).fol = s.fol := rfl
@[simp] theorem State.setPart_host (s : State) (p : PartNo) (x : Part) : (s.setPart p x).host = s.host := rfl
@[simp] theorem State.setPart_clock (s : State) (p : PartNo) (x : Part) : (s.setPart p x).clock = s.clock := rfl
@[simp] theorem State.setPart_dieMap (s : State) (p : PartNo) (x : Part) : (s.setPart p x).dieMap = s.dieMap := rfl
@[simp] theorem State.setPart_log (s : State) (p : PartNo) (x : Part) : (s.setPart p x).log = s.log := rfl
@[simp] theorem State.setPart_power (s : State) (p : PartNo) (x : Part) : (s.setPart p x).power = s.power := rfl
@[simp] theorem State.setPart_plug (s : State) (p : PartNo) (x : Part) : (s.setPart p x).plug = s.plug := rfl
@[simp] theorem State.setPart_modu (s : State) (p : PartNo) (x : Part) : (s.setPart p x).modu = s.modu := rfl
@[simp] theorem State.setPart_link (s : State) (p : PartNo) (x : Part) : (s.setPart p x).link = s.link := rfl
@[simp] theorem State.setPart_dict (s : State) (p : PartNo) (x : Part) : (s.setPart p x).dict = s.dict := rfl
@[simp] theorem State.setPart_ward (s : State) (p : PartNo) (x : Part) : (s.setPart p x).ward = s.ward := rfl
@[simp] theorem State.setPart_sec (s : State) (p : PartNo) (x : Part) : (s.setPart p x).sec = s.sec := rfl
@[simp] theorem State.setPart_pmc (s : State) (p : PartNo) (x : Part) : (s.setPart p x).pmc = s.pmc := rfl
@[simp] theorem State.setPart_out (s : State) (p : PartNo) (x : Part) : (s.setPart p x).out = s.out := rfl

/-! State.modPart -/

@[simp] theorem State.modPart_pending (s : State) (p : PartNo) (f : Part → Part) : (s.modPart p f).pending = s.pending := rfl
@[simp] theorem State.modPart_draws (s : State) (p : PartNo) (f : Part → Part) : (s.modPart p f).draws = s.draws := rfl
@[simp] theorem State.modPart_variant (s : State) (p : PartNo) (f : Part → Part) : (s.modPart p f).variant = s.variant := rfl
@[simp] theorem State.modPart_cores (s : State) (p : PartNo) (f : Part → Part) : (s.modPart p f).cores = s.cores := rfl
@[simp] theorem State.modPart_rubric (s : State) (p : PartNo) (f : Part → Part) : (s.modPart p f).rubric = s.rubric := rfl
@[simp] theorem State.modPart_mesh (s : State) (p : PartNo) (f : Part → Part) : (s.modPart p f).mesh = s.mesh := rfl
@[simp] theorem State.modPart_mem (s : State) (p : PartNo) (f : Part → Part) : (s.modPart p f).mem = s.mem := rfl
@[simp] theorem State.modPart_xlate (s : State) (p : PartNo) (f : Part → Part) : (s.modPart p f).xlate = s.xlate := rfl
@[simp] theorem State.modPart_fol (s : State) (p : PartNo) (f : Part → Part) : (s.modPart p f).fol = s.fol := rfl
@[simp] theorem State.modPart_host (s : State) (p : PartNo) (f : Part → Part) : (s.modPart p f).host = s.host := rfl
@[simp] theorem State.modPart_clock (s : State) (p : PartNo) (f : Part → Part) : (s.modPart p f).clock = s.clock := rfl
@[simp] theorem State.modPart_dieMap (s : State) (p : PartNo) (f : Part → Part) : (s.modPart p f).dieMap = s.dieMap := rfl
@[simp] theorem State.modPart_log (s : State) (p : PartNo) (f : Part → Part) : (s.modPart p f).log = s.log := rfl
@[simp] theorem State.modPart_power (s : State) (p : PartNo) (f : Part → Part) : (s.modPart p f).power = s.power := rfl
@[simp] theorem State.modPart_plug (s : State) (p : PartNo) (f : Part → Part) : (s.modPart p f).plug = s.plug := rfl
@[simp] theorem State.modPart_modu (s : State) (p : PartNo) (f : Part → Part) : (s.modPart p f).modu = s.modu := rfl
@[simp] theorem State.modPart_link (s : State) (p : PartNo) (f : Part → Part) : (s.modPart p f).link = s.link := rfl
@[simp] theorem State.modPart_dict (s : State) (p : PartNo) (f : Part → Part) : (s.modPart p f).dict = s.dict := rfl
@[simp] theorem State.modPart_ward (s : State) (p : PartNo) (f : Part → Part) : (s.modPart p f).ward = s.ward := rfl
@[simp] theorem State.modPart_sec (s : State) (p : PartNo) (f : Part → Part) : (s.modPart p f).sec = s.sec := rfl
@[simp] theorem State.modPart_pmc (s : State) (p : PartNo) (f : Part → Part) : (s.modPart p f).pmc = s.pmc := rfl
@[simp] theorem State.modPart_out (s : State) (p : PartNo) (f : Part → Part) : (s.modPart p f).out = s.out := rfl

/-! State.modMem -/

@[simp] theorem State.modMem_pending (s : State) (f : MemState → MemState) : (s.modMem f).pending = s.pending := rfl
@[simp] theorem State.modMem_draws (s : State) (f : MemState → MemState) : (s.modMem f).draws = s.draws := rfl
@[simp] theorem State.modMem_variant (s : State) (f : MemState → MemState) : (s.modMem f).variant = s.variant := rfl
@[simp] theorem State.modMem_cores (s : State) (f : MemState → MemState) : (s.modMem f).cores = s.cores := rfl
@[simp] theorem State.modMem_rubric (s : State) (f : MemState → MemState) : (s.modMem f).rubric = s.rubric := rfl
@[simp] theorem State.modMem_mesh (s : State) (f : MemState → MemState) : (s.modMem f).mesh = s.mesh := rfl
@[simp] theorem State.modMem_fol (s : State) (f : MemState → MemState) : (s.modMem f).fol = s.fol := rfl
@[simp] theorem State.modMem_host (s : State) (f : MemState → MemState) : (s.modMem f).host = s.host := rfl
@[simp] theorem State.modMem_clock (s : State) (f : MemState → MemState) : (s.modMem f).clock = s.clock := rfl
@[simp] theorem State.modMem_xlate (s : State) (f : MemState → MemState) : (s.modMem f).xlate = s.xlate := rfl
@[simp] theorem State.modMem_dieMap (s : State) (f : MemState → MemState) : (s.modMem f).dieMap = s.dieMap := rfl
@[simp] theorem State.modMem_parts (s : State) (f : MemState → MemState) : (s.modMem f).parts = s.parts := rfl
@[simp] theorem State.modMem_log (s : State) (f : MemState → MemState) : (s.modMem f).log = s.log := rfl
@[simp] theorem State.modMem_power (s : State) (f : MemState → MemState) : (s.modMem f).power = s.power := rfl
@[simp] theorem State.modMem_plug (s : State) (f : MemState → MemState) : (s.modMem f).plug = s.plug := rfl
@[simp] theorem State.modMem_modu (s : State) (f : MemState → MemState) : (s.modMem f).modu = s.modu := rfl
@[simp] theorem State.modMem_link (s : State) (f : MemState → MemState) : (s.modMem f).link = s.link := rfl
@[simp] theorem State.modMem_dict (s : State) (f : MemState → MemState) : (s.modMem f).dict = s.dict := rfl
@[simp] theorem State.modMem_ward (s : State) (f : MemState → MemState) : (s.modMem f).ward = s.ward := rfl
@[simp] theorem State.modMem_sec (s : State) (f : MemState → MemState) : (s.modMem f).sec = s.sec := rfl
@[simp] theorem State.modMem_pmc (s : State) (f : MemState → MemState) : (s.modMem f).pmc = s.pmc := rfl
@[simp] theorem State.modMem_out (s : State) (f : MemState → MemState) : (s.modMem f).out = s.out := rfl

/-! State.modPreg -/

@[simp] theorem State.modPreg_pending (s : State) (p : PartNo) (f : PartRegs → PartRegs) : (s.modPreg p f).pending = s.pending := rfl
@[simp] theorem State.modPreg_draws (s : State) (p : PartNo) (f : PartRegs → PartRegs) : (s.modPreg p f).draws = s.draws := rfl
@[simp] theorem State.modPreg_variant (s : State) (p : PartNo) (f : PartRegs → PartRegs) : (s.modPreg p f).variant = s.variant := rfl
@[simp] theorem State.modPreg_cores (s : State) (p : PartNo) (f : PartRegs → PartRegs) : (s.modPreg p f).cores = s.cores := rfl
@[simp] theorem State.modPreg_rubric (s : State) (p : PartNo) (f : PartRegs → PartRegs) : (s.modPreg p f).rubric = s.rubric := rfl
@[simp] theorem State.modPreg_mesh (s : State) (p : PartNo) (f : PartRegs → PartRegs) : (s.modPreg p f).mesh = s.mesh := rfl
@[simp] theorem State.modPreg_fol (s : State) (p : PartNo) (f : PartRegs → PartRegs) : (s.modPreg p f).fol = s.fol := rfl
@[simp] theorem State.modPreg_host (s : State) (p : PartNo) (f : PartRegs → PartRegs) : (s.modPreg p f).host = s.host := rfl
@[simp] theorem State.modPreg_clock (s : State) (p : PartNo) (f : PartRegs → PartRegs) : (s.modPreg p f).clock = s.clock := rfl
@[simp] theorem State.modPreg_xlate (s : State) (p : PartNo) (f : PartRegs → PartRegs) : (s.modPreg p f).xlate = s.xlate := rfl
@[simp] theorem State.modPreg_dieMap (s : State) (p : PartNo) (f : PartRegs → PartRegs) : (s.modPreg p f).dieMap = s.dieMap := rfl
@[simp] theorem State.modPreg_parts (s : State) (p : PartNo) (f : PartRegs → PartRegs) : (s.modPreg p f).parts = s.parts := rfl
@[simp] theorem State.modPreg_log (s : State) (p : PartNo) (f : PartRegs → PartRegs) : (s.modPreg p f).log = s.log := rfl
@[simp] theorem State.modPreg_power (s : State) (p : PartNo) (f : PartRegs → PartRegs) : (s.modPreg p f).power = s.power := rfl
@[simp] theorem State.modPreg_plug (s : State) (p : PartNo) (f : PartRegs → PartRegs) : (s.modPreg p f).plug = s.plug := rfl
@[simp] theorem State.modPreg_modu (s : State) (p : PartNo) (f : PartRegs → PartRegs) : (s.modPreg p f).modu = s.modu := rfl
@[simp] theorem State.modPreg_link (s : State) (p : PartNo) (f : PartRegs → PartRegs) : (s.modPreg p f).link = s.link := rfl
@[simp] theorem State.modPreg_dict (s : State) (p : PartNo) (f : PartRegs → PartRegs) : (s.modPreg p f).dict = s.dict := rfl
@[simp] theorem State.modPreg_ward (s : State) (p : PartNo) (f : PartRegs → PartRegs) : (s.modPreg p f).ward = s.ward := rfl
@[simp] theorem State.modPreg_sec (s : State) (p : PartNo) (f : PartRegs → PartRegs) : (s.modPreg p f).sec = s.sec := rfl
@[simp] theorem State.modPreg_pmc (s : State) (p : PartNo) (f : PartRegs → PartRegs) : (s.modPreg p f).pmc = s.pmc := rfl
@[simp] theorem State.modPreg_out (s : State) (p : PartNo) (f : PartRegs → PartRegs) : (s.modPreg p f).out = s.out := rfl

/-! State.modRuling -/

@[simp] theorem State.modRuling_pending (s : State) (p : PartNo) (f : Ruling → Ruling) : (s.modRuling p f).pending = s.pending := rfl
@[simp] theorem State.modRuling_draws (s : State) (p : PartNo) (f : Ruling → Ruling) : (s.modRuling p f).draws = s.draws := rfl
@[simp] theorem State.modRuling_variant (s : State) (p : PartNo) (f : Ruling → Ruling) : (s.modRuling p f).variant = s.variant := rfl
@[simp] theorem State.modRuling_cores (s : State) (p : PartNo) (f : Ruling → Ruling) : (s.modRuling p f).cores = s.cores := rfl
@[simp] theorem State.modRuling_rubric (s : State) (p : PartNo) (f : Ruling → Ruling) : (s.modRuling p f).rubric = s.rubric := rfl
@[simp] theorem State.modRuling_mesh (s : State) (p : PartNo) (f : Ruling → Ruling) : (s.modRuling p f).mesh = s.mesh := rfl
@[simp] theorem State.modRuling_fol (s : State) (p : PartNo) (f : Ruling → Ruling) : (s.modRuling p f).fol = s.fol := rfl
@[simp] theorem State.modRuling_host (s : State) (p : PartNo) (f : Ruling → Ruling) : (s.modRuling p f).host = s.host := rfl
@[simp] theorem State.modRuling_clock (s : State) (p : PartNo) (f : Ruling → Ruling) : (s.modRuling p f).clock = s.clock := rfl
@[simp] theorem State.modRuling_xlate (s : State) (p : PartNo) (f : Ruling → Ruling) : (s.modRuling p f).xlate = s.xlate := rfl
@[simp] theorem State.modRuling_dieMap (s : State) (p : PartNo) (f : Ruling → Ruling) : (s.modRuling p f).dieMap = s.dieMap := rfl
@[simp] theorem State.modRuling_parts (s : State) (p : PartNo) (f : Ruling → Ruling) : (s.modRuling p f).parts = s.parts := rfl
@[simp] theorem State.modRuling_log (s : State) (p : PartNo) (f : Ruling → Ruling) : (s.modRuling p f).log = s.log := rfl
@[simp] theorem State.modRuling_power (s : State) (p : PartNo) (f : Ruling → Ruling) : (s.modRuling p f).power = s.power := rfl
@[simp] theorem State.modRuling_plug (s : State) (p : PartNo) (f : Ruling → Ruling) : (s.modRuling p f).plug = s.plug := rfl
@[simp] theorem State.modRuling_modu (s : State) (p : PartNo) (f : Ruling → Ruling) : (s.modRuling p f).modu = s.modu := rfl
@[simp] theorem State.modRuling_link (s : State) (p : PartNo) (f : Ruling → Ruling) : (s.modRuling p f).link = s.link := rfl
@[simp] theorem State.modRuling_dict (s : State) (p : PartNo) (f : Ruling → Ruling) : (s.modRuling p f).dict = s.dict := rfl
@[simp] theorem State.modRuling_ward (s : State) (p : PartNo) (f : Ruling → Ruling) : (s.modRuling p f).ward = s.ward := rfl
@[simp] theorem State.modRuling_sec (s : State) (p : PartNo) (f : Ruling → Ruling) : (s.modRuling p f).sec = s.sec := rfl
@[simp] theorem State.modRuling_pmc (s : State) (p : PartNo) (f : Ruling → Ruling) : (s.modRuling p f).pmc = s.pmc := rfl
@[simp] theorem State.modRuling_out (s : State) (p : PartNo) (f : Ruling → Ruling) : (s.modRuling p f).out = s.out := rfl

/-! State.modHost -/

@[simp] theorem State.modHost_pending (s : State) (f : HostState → HostState) : (s.modHost f).pending = s.pending := rfl
@[simp] theorem State.modHost_draws (s : State) (f : HostState → HostState) : (s.modHost f).draws = s.draws := rfl
@[simp] theorem State.modHost_variant (s : State) (f : HostState → HostState) : (s.modHost f).variant = s.variant := rfl
@[simp] theorem State.modHost_cores (s : State) (f : HostState → HostState) : (s.modHost f).cores = s.cores := rfl
@[simp] theorem State.modHost_rubric (s : State) (f : HostState → HostState) : (s.modHost f).rubric = s.rubric := rfl
@[simp] theorem State.modHost_mesh (s : State) (f : HostState → HostState) : (s.modHost f).mesh = s.mesh := rfl
@[simp] theorem State.modHost_mem (s : State) (f : HostState → HostState) : (s.modHost f).mem = s.mem := rfl
@[simp] theorem State.modHost_xlate (s : State) (f : HostState → HostState) : (s.modHost f).xlate = s.xlate := rfl
@[simp] theorem State.modHost_fol (s : State) (f : HostState → HostState) : (s.modHost f).fol = s.fol := rfl
@[simp] theorem State.modHost_clock (s : State) (f : HostState → HostState) : (s.modHost f).clock = s.clock := rfl
@[simp] theorem State.modHost_dieMap (s : State) (f : HostState → HostState) : (s.modHost f).dieMap = s.dieMap := rfl
@[simp] theorem State.modHost_parts (s : State) (f : HostState → HostState) : (s.modHost f).parts = s.parts := rfl
@[simp] theorem State.modHost_log (s : State) (f : HostState → HostState) : (s.modHost f).log = s.log := rfl
@[simp] theorem State.modHost_power (s : State) (f : HostState → HostState) : (s.modHost f).power = s.power := rfl
@[simp] theorem State.modHost_plug (s : State) (f : HostState → HostState) : (s.modHost f).plug = s.plug := rfl
@[simp] theorem State.modHost_modu (s : State) (f : HostState → HostState) : (s.modHost f).modu = s.modu := rfl
@[simp] theorem State.modHost_link (s : State) (f : HostState → HostState) : (s.modHost f).link = s.link := rfl
@[simp] theorem State.modHost_dict (s : State) (f : HostState → HostState) : (s.modHost f).dict = s.dict := rfl
@[simp] theorem State.modHost_ward (s : State) (f : HostState → HostState) : (s.modHost f).ward = s.ward := rfl
@[simp] theorem State.modHost_sec (s : State) (f : HostState → HostState) : (s.modHost f).sec = s.sec := rfl
@[simp] theorem State.modHost_pmc (s : State) (f : HostState → HostState) : (s.modHost f).pmc = s.pmc := rfl
@[simp] theorem State.modHost_out (s : State) (f : HostState → HostState) : (s.modHost f).out = s.out := rfl

/-! State.modClock -/

@[simp] theorem State.modClock_pending (s : State) (f : ClockState → ClockState) : (s.modClock f).pending = s.pending := rfl
@[simp] theorem State.modClock_draws (s : State) (f : ClockState → ClockState) : (s.modClock f).draws = s.draws := rfl
@[simp] theorem State.modClock_variant (s : State) (f : ClockState → ClockState) : (s.modClock f).variant = s.variant := rfl
@[simp] theorem State.modClock_cores (s : State) (f : ClockState → ClockState) : (s.modClock f).cores = s.cores := rfl
@[simp] theorem State.modClock_rubric (s : State) (f : ClockState → ClockState) : (s.modClock f).rubric = s.rubric := rfl
@[simp] theorem State.modClock_mesh (s : State) (f : ClockState → ClockState) : (s.modClock f).mesh = s.mesh := rfl
@[simp] theorem State.modClock_mem (s : State) (f : ClockState → ClockState) : (s.modClock f).mem = s.mem := rfl
@[simp] theorem State.modClock_xlate (s : State) (f : ClockState → ClockState) : (s.modClock f).xlate = s.xlate := rfl
@[simp] theorem State.modClock_fol (s : State) (f : ClockState → ClockState) : (s.modClock f).fol = s.fol := rfl
@[simp] theorem State.modClock_host (s : State) (f : ClockState → ClockState) : (s.modClock f).host = s.host := rfl
@[simp] theorem State.modClock_dieMap (s : State) (f : ClockState → ClockState) : (s.modClock f).dieMap = s.dieMap := rfl
@[simp] theorem State.modClock_parts (s : State) (f : ClockState → ClockState) : (s.modClock f).parts = s.parts := rfl
@[simp] theorem State.modClock_log (s : State) (f : ClockState → ClockState) : (s.modClock f).log = s.log := rfl
@[simp] theorem State.modClock_power (s : State) (f : ClockState → ClockState) : (s.modClock f).power = s.power := rfl
@[simp] theorem State.modClock_plug (s : State) (f : ClockState → ClockState) : (s.modClock f).plug = s.plug := rfl
@[simp] theorem State.modClock_modu (s : State) (f : ClockState → ClockState) : (s.modClock f).modu = s.modu := rfl
@[simp] theorem State.modClock_link (s : State) (f : ClockState → ClockState) : (s.modClock f).link = s.link := rfl
@[simp] theorem State.modClock_dict (s : State) (f : ClockState → ClockState) : (s.modClock f).dict = s.dict := rfl
@[simp] theorem State.modClock_ward (s : State) (f : ClockState → ClockState) : (s.modClock f).ward = s.ward := rfl
@[simp] theorem State.modClock_sec (s : State) (f : ClockState → ClockState) : (s.modClock f).sec = s.sec := rfl
@[simp] theorem State.modClock_pmc (s : State) (f : ClockState → ClockState) : (s.modClock f).pmc = s.pmc := rfl
@[simp] theorem State.modClock_out (s : State) (f : ClockState → ClockState) : (s.modClock f).out = s.out := rfl

/-! State.modLink -/

@[simp] theorem State.modLink_pending (s : State) (f : LinkState → LinkState) : (s.modLink f).pending = s.pending := rfl
@[simp] theorem State.modLink_draws (s : State) (f : LinkState → LinkState) : (s.modLink f).draws = s.draws := rfl
@[simp] theorem State.modLink_variant (s : State) (f : LinkState → LinkState) : (s.modLink f).variant = s.variant := rfl
@[simp] theorem State.modLink_cores (s : State) (f : LinkState → LinkState) : (s.modLink f).cores = s.cores := rfl
@[simp] theorem State.modLink_rubric (s : State) (f : LinkState → LinkState) : (s.modLink f).rubric = s.rubric := rfl
@[simp] theorem State.modLink_mesh (s : State) (f : LinkState → LinkState) : (s.modLink f).mesh = s.mesh := rfl
@[simp] theorem State.modLink_mem (s : State) (f : LinkState → LinkState) : (s.modLink f).mem = s.mem := rfl
@[simp] theorem State.modLink_xlate (s : State) (f : LinkState → LinkState) : (s.modLink f).xlate = s.xlate := rfl
@[simp] theorem State.modLink_fol (s : State) (f : LinkState → LinkState) : (s.modLink f).fol = s.fol := rfl
@[simp] theorem State.modLink_host (s : State) (f : LinkState → LinkState) : (s.modLink f).host = s.host := rfl
@[simp] theorem State.modLink_clock (s : State) (f : LinkState → LinkState) : (s.modLink f).clock = s.clock := rfl
@[simp] theorem State.modLink_dieMap (s : State) (f : LinkState → LinkState) : (s.modLink f).dieMap = s.dieMap := rfl
@[simp] theorem State.modLink_parts (s : State) (f : LinkState → LinkState) : (s.modLink f).parts = s.parts := rfl
@[simp] theorem State.modLink_log (s : State) (f : LinkState → LinkState) : (s.modLink f).log = s.log := rfl
@[simp] theorem State.modLink_power (s : State) (f : LinkState → LinkState) : (s.modLink f).power = s.power := rfl
@[simp] theorem State.modLink_plug (s : State) (f : LinkState → LinkState) : (s.modLink f).plug = s.plug := rfl
@[simp] theorem State.modLink_modu (s : State) (f : LinkState → LinkState) : (s.modLink f).modu = s.modu := rfl
@[simp] theorem State.modLink_dict (s : State) (f : LinkState → LinkState) : (s.modLink f).dict = s.dict := rfl
@[simp] theorem State.modLink_ward (s : State) (f : LinkState → LinkState) : (s.modLink f).ward = s.ward := rfl
@[simp] theorem State.modLink_sec (s : State) (f : LinkState → LinkState) : (s.modLink f).sec = s.sec := rfl
@[simp] theorem State.modLink_pmc (s : State) (f : LinkState → LinkState) : (s.modLink f).pmc = s.pmc := rfl
@[simp] theorem State.modLink_out (s : State) (f : LinkState → LinkState) : (s.modLink f).out = s.out := rfl

/-! State.setPort -/

@[simp] theorem State.setPort_pending (s : State) (p : PortNo) (x : Port) : (s.setPort p x).pending = s.pending := rfl
@[simp] theorem State.setPort_draws (s : State) (p : PortNo) (x : Port) : (s.setPort p x).draws = s.draws := rfl
@[simp] theorem State.setPort_variant (s : State) (p : PortNo) (x : Port) : (s.setPort p x).variant = s.variant := rfl
@[simp] theorem State.setPort_cores (s : State) (p : PortNo) (x : Port) : (s.setPort p x).cores = s.cores := rfl
@[simp] theorem State.setPort_rubric (s : State) (p : PortNo) (x : Port) : (s.setPort p x).rubric = s.rubric := rfl
@[simp] theorem State.setPort_mesh (s : State) (p : PortNo) (x : Port) : (s.setPort p x).mesh = s.mesh := rfl
@[simp] theorem State.setPort_mem (s : State) (p : PortNo) (x : Port) : (s.setPort p x).mem = s.mem := rfl
@[simp] theorem State.setPort_xlate (s : State) (p : PortNo) (x : Port) : (s.setPort p x).xlate = s.xlate := rfl
@[simp] theorem State.setPort_fol (s : State) (p : PortNo) (x : Port) : (s.setPort p x).fol = s.fol := rfl
@[simp] theorem State.setPort_host (s : State) (p : PortNo) (x : Port) : (s.setPort p x).host = s.host := rfl
@[simp] theorem State.setPort_clock (s : State) (p : PortNo) (x : Port) : (s.setPort p x).clock = s.clock := rfl
@[simp] theorem State.setPort_dieMap (s : State) (p : PortNo) (x : Port) : (s.setPort p x).dieMap = s.dieMap := rfl
@[simp] theorem State.setPort_parts (s : State) (p : PortNo) (x : Port) : (s.setPort p x).parts = s.parts := rfl
@[simp] theorem State.setPort_log (s : State) (p : PortNo) (x : Port) : (s.setPort p x).log = s.log := rfl
@[simp] theorem State.setPort_power (s : State) (p : PortNo) (x : Port) : (s.setPort p x).power = s.power := rfl
@[simp] theorem State.setPort_plug (s : State) (p : PortNo) (x : Port) : (s.setPort p x).plug = s.plug := rfl
@[simp] theorem State.setPort_modu (s : State) (p : PortNo) (x : Port) : (s.setPort p x).modu = s.modu := rfl
@[simp] theorem State.setPort_dict (s : State) (p : PortNo) (x : Port) : (s.setPort p x).dict = s.dict := rfl
@[simp] theorem State.setPort_ward (s : State) (p : PortNo) (x : Port) : (s.setPort p x).ward = s.ward := rfl
@[simp] theorem State.setPort_sec (s : State) (p : PortNo) (x : Port) : (s.setPort p x).sec = s.sec := rfl
@[simp] theorem State.setPort_pmc (s : State) (p : PortNo) (x : Port) : (s.setPort p x).pmc = s.pmc := rfl
@[simp] theorem State.setPort_out (s : State) (p : PortNo) (x : Port) : (s.setPort p x).out = s.out := rfl

/-! State.modPort -/

@[simp] theorem State.modPort_pending (s : State) (p : PortNo) (f : Port → Port) : (s.modPort p f).pending = s.pending := rfl
@[simp] theorem State.modPort_draws (s : State) (p : PortNo) (f : Port → Port) : (s.modPort p f).draws = s.draws := rfl
@[simp] theorem State.modPort_variant (s : State) (p : PortNo) (f : Port → Port) : (s.modPort p f).variant = s.variant := rfl
@[simp] theorem State.modPort_cores (s : State) (p : PortNo) (f : Port → Port) : (s.modPort p f).cores = s.cores := rfl
@[simp] theorem State.modPort_rubric (s : State) (p : PortNo) (f : Port → Port) : (s.modPort p f).rubric = s.rubric := rfl
@[simp] theorem State.modPort_mesh (s : State) (p : PortNo) (f : Port → Port) : (s.modPort p f).mesh = s.mesh := rfl
@[simp] theorem State.modPort_mem (s : State) (p : PortNo) (f : Port → Port) : (s.modPort p f).mem = s.mem := rfl
@[simp] theorem State.modPort_xlate (s : State) (p : PortNo) (f : Port → Port) : (s.modPort p f).xlate = s.xlate := rfl
@[simp] theorem State.modPort_fol (s : State) (p : PortNo) (f : Port → Port) : (s.modPort p f).fol = s.fol := rfl
@[simp] theorem State.modPort_host (s : State) (p : PortNo) (f : Port → Port) : (s.modPort p f).host = s.host := rfl
@[simp] theorem State.modPort_clock (s : State) (p : PortNo) (f : Port → Port) : (s.modPort p f).clock = s.clock := rfl
@[simp] theorem State.modPort_dieMap (s : State) (p : PortNo) (f : Port → Port) : (s.modPort p f).dieMap = s.dieMap := rfl
@[simp] theorem State.modPort_parts (s : State) (p : PortNo) (f : Port → Port) : (s.modPort p f).parts = s.parts := rfl
@[simp] theorem State.modPort_log (s : State) (p : PortNo) (f : Port → Port) : (s.modPort p f).log = s.log := rfl
@[simp] theorem State.modPort_power (s : State) (p : PortNo) (f : Port → Port) : (s.modPort p f).power = s.power := rfl
@[simp] theorem State.modPort_plug (s : State) (p : PortNo) (f : Port → Port) : (s.modPort p f).plug = s.plug := rfl
@[simp] theorem State.modPort_modu (s : State) (p : PortNo) (f : Port → Port) : (s.modPort p f).modu = s.modu := rfl
@[simp] theorem State.modPort_dict (s : State) (p : PortNo) (f : Port → Port) : (s.modPort p f).dict = s.dict := rfl
@[simp] theorem State.modPort_ward (s : State) (p : PortNo) (f : Port → Port) : (s.modPort p f).ward = s.ward := rfl
@[simp] theorem State.modPort_sec (s : State) (p : PortNo) (f : Port → Port) : (s.modPort p f).sec = s.sec := rfl
@[simp] theorem State.modPort_pmc (s : State) (p : PortNo) (f : Port → Port) : (s.modPort p f).pmc = s.pmc := rfl
@[simp] theorem State.modPort_out (s : State) (p : PortNo) (f : Port → Port) : (s.modPort p f).out = s.out := rfl

/-! State.setRing -/

@[simp] theorem State.setRing_pending (s : State) (n : Fin 16) (x : Ring) : (s.setRing n x).pending = s.pending := rfl
@[simp] theorem State.setRing_draws (s : State) (n : Fin 16) (x : Ring) : (s.setRing n x).draws = s.draws := rfl
@[simp] theorem State.setRing_variant (s : State) (n : Fin 16) (x : Ring) : (s.setRing n x).variant = s.variant := rfl
@[simp] theorem State.setRing_cores (s : State) (n : Fin 16) (x : Ring) : (s.setRing n x).cores = s.cores := rfl
@[simp] theorem State.setRing_rubric (s : State) (n : Fin 16) (x : Ring) : (s.setRing n x).rubric = s.rubric := rfl
@[simp] theorem State.setRing_mesh (s : State) (n : Fin 16) (x : Ring) : (s.setRing n x).mesh = s.mesh := rfl
@[simp] theorem State.setRing_mem (s : State) (n : Fin 16) (x : Ring) : (s.setRing n x).mem = s.mem := rfl
@[simp] theorem State.setRing_xlate (s : State) (n : Fin 16) (x : Ring) : (s.setRing n x).xlate = s.xlate := rfl
@[simp] theorem State.setRing_fol (s : State) (n : Fin 16) (x : Ring) : (s.setRing n x).fol = s.fol := rfl
@[simp] theorem State.setRing_host (s : State) (n : Fin 16) (x : Ring) : (s.setRing n x).host = s.host := rfl
@[simp] theorem State.setRing_clock (s : State) (n : Fin 16) (x : Ring) : (s.setRing n x).clock = s.clock := rfl
@[simp] theorem State.setRing_dieMap (s : State) (n : Fin 16) (x : Ring) : (s.setRing n x).dieMap = s.dieMap := rfl
@[simp] theorem State.setRing_parts (s : State) (n : Fin 16) (x : Ring) : (s.setRing n x).parts = s.parts := rfl
@[simp] theorem State.setRing_log (s : State) (n : Fin 16) (x : Ring) : (s.setRing n x).log = s.log := rfl
@[simp] theorem State.setRing_power (s : State) (n : Fin 16) (x : Ring) : (s.setRing n x).power = s.power := rfl
@[simp] theorem State.setRing_plug (s : State) (n : Fin 16) (x : Ring) : (s.setRing n x).plug = s.plug := rfl
@[simp] theorem State.setRing_modu (s : State) (n : Fin 16) (x : Ring) : (s.setRing n x).modu = s.modu := rfl
@[simp] theorem State.setRing_dict (s : State) (n : Fin 16) (x : Ring) : (s.setRing n x).dict = s.dict := rfl
@[simp] theorem State.setRing_ward (s : State) (n : Fin 16) (x : Ring) : (s.setRing n x).ward = s.ward := rfl
@[simp] theorem State.setRing_sec (s : State) (n : Fin 16) (x : Ring) : (s.setRing n x).sec = s.sec := rfl
@[simp] theorem State.setRing_pmc (s : State) (n : Fin 16) (x : Ring) : (s.setRing n x).pmc = s.pmc := rfl
@[simp] theorem State.setRing_out (s : State) (n : Fin 16) (x : Ring) : (s.setRing n x).out = s.out := rfl

/-! State.modRing -/

@[simp] theorem State.modRing_pending (s : State) (n : Fin 16) (f : Ring → Ring) : (s.modRing n f).pending = s.pending := rfl
@[simp] theorem State.modRing_draws (s : State) (n : Fin 16) (f : Ring → Ring) : (s.modRing n f).draws = s.draws := rfl
@[simp] theorem State.modRing_variant (s : State) (n : Fin 16) (f : Ring → Ring) : (s.modRing n f).variant = s.variant := rfl
@[simp] theorem State.modRing_cores (s : State) (n : Fin 16) (f : Ring → Ring) : (s.modRing n f).cores = s.cores := rfl
@[simp] theorem State.modRing_rubric (s : State) (n : Fin 16) (f : Ring → Ring) : (s.modRing n f).rubric = s.rubric := rfl
@[simp] theorem State.modRing_mesh (s : State) (n : Fin 16) (f : Ring → Ring) : (s.modRing n f).mesh = s.mesh := rfl
@[simp] theorem State.modRing_mem (s : State) (n : Fin 16) (f : Ring → Ring) : (s.modRing n f).mem = s.mem := rfl
@[simp] theorem State.modRing_xlate (s : State) (n : Fin 16) (f : Ring → Ring) : (s.modRing n f).xlate = s.xlate := rfl
@[simp] theorem State.modRing_fol (s : State) (n : Fin 16) (f : Ring → Ring) : (s.modRing n f).fol = s.fol := rfl
@[simp] theorem State.modRing_host (s : State) (n : Fin 16) (f : Ring → Ring) : (s.modRing n f).host = s.host := rfl
@[simp] theorem State.modRing_clock (s : State) (n : Fin 16) (f : Ring → Ring) : (s.modRing n f).clock = s.clock := rfl
@[simp] theorem State.modRing_dieMap (s : State) (n : Fin 16) (f : Ring → Ring) : (s.modRing n f).dieMap = s.dieMap := rfl
@[simp] theorem State.modRing_parts (s : State) (n : Fin 16) (f : Ring → Ring) : (s.modRing n f).parts = s.parts := rfl
@[simp] theorem State.modRing_log (s : State) (n : Fin 16) (f : Ring → Ring) : (s.modRing n f).log = s.log := rfl
@[simp] theorem State.modRing_power (s : State) (n : Fin 16) (f : Ring → Ring) : (s.modRing n f).power = s.power := rfl
@[simp] theorem State.modRing_plug (s : State) (n : Fin 16) (f : Ring → Ring) : (s.modRing n f).plug = s.plug := rfl
@[simp] theorem State.modRing_modu (s : State) (n : Fin 16) (f : Ring → Ring) : (s.modRing n f).modu = s.modu := rfl
@[simp] theorem State.modRing_dict (s : State) (n : Fin 16) (f : Ring → Ring) : (s.modRing n f).dict = s.dict := rfl
@[simp] theorem State.modRing_ward (s : State) (n : Fin 16) (f : Ring → Ring) : (s.modRing n f).ward = s.ward := rfl
@[simp] theorem State.modRing_sec (s : State) (n : Fin 16) (f : Ring → Ring) : (s.modRing n f).sec = s.sec := rfl
@[simp] theorem State.modRing_pmc (s : State) (n : Fin 16) (f : Ring → Ring) : (s.modRing n f).pmc = s.pmc := rfl
@[simp] theorem State.modRing_out (s : State) (n : Fin 16) (f : Ring → Ring) : (s.modRing n f).out = s.out := rfl

/-! State.modTime -/

@[simp] theorem State.modTime_pending (s : State) (f : TimeState → TimeState) : (s.modTime f).pending = s.pending := rfl
@[simp] theorem State.modTime_draws (s : State) (f : TimeState → TimeState) : (s.modTime f).draws = s.draws := rfl
@[simp] theorem State.modTime_variant (s : State) (f : TimeState → TimeState) : (s.modTime f).variant = s.variant := rfl
@[simp] theorem State.modTime_cores (s : State) (f : TimeState → TimeState) : (s.modTime f).cores = s.cores := rfl
@[simp] theorem State.modTime_rubric (s : State) (f : TimeState → TimeState) : (s.modTime f).rubric = s.rubric := rfl
@[simp] theorem State.modTime_mesh (s : State) (f : TimeState → TimeState) : (s.modTime f).mesh = s.mesh := rfl
@[simp] theorem State.modTime_mem (s : State) (f : TimeState → TimeState) : (s.modTime f).mem = s.mem := rfl
@[simp] theorem State.modTime_xlate (s : State) (f : TimeState → TimeState) : (s.modTime f).xlate = s.xlate := rfl
@[simp] theorem State.modTime_fol (s : State) (f : TimeState → TimeState) : (s.modTime f).fol = s.fol := rfl
@[simp] theorem State.modTime_host (s : State) (f : TimeState → TimeState) : (s.modTime f).host = s.host := rfl
@[simp] theorem State.modTime_clock (s : State) (f : TimeState → TimeState) : (s.modTime f).clock = s.clock := rfl
@[simp] theorem State.modTime_dieMap (s : State) (f : TimeState → TimeState) : (s.modTime f).dieMap = s.dieMap := rfl
@[simp] theorem State.modTime_parts (s : State) (f : TimeState → TimeState) : (s.modTime f).parts = s.parts := rfl
@[simp] theorem State.modTime_log (s : State) (f : TimeState → TimeState) : (s.modTime f).log = s.log := rfl
@[simp] theorem State.modTime_power (s : State) (f : TimeState → TimeState) : (s.modTime f).power = s.power := rfl
@[simp] theorem State.modTime_plug (s : State) (f : TimeState → TimeState) : (s.modTime f).plug = s.plug := rfl
@[simp] theorem State.modTime_modu (s : State) (f : TimeState → TimeState) : (s.modTime f).modu = s.modu := rfl
@[simp] theorem State.modTime_dict (s : State) (f : TimeState → TimeState) : (s.modTime f).dict = s.dict := rfl
@[simp] theorem State.modTime_ward (s : State) (f : TimeState → TimeState) : (s.modTime f).ward = s.ward := rfl
@[simp] theorem State.modTime_sec (s : State) (f : TimeState → TimeState) : (s.modTime f).sec = s.sec := rfl
@[simp] theorem State.modTime_pmc (s : State) (f : TimeState → TimeState) : (s.modTime f).pmc = s.pmc := rfl
@[simp] theorem State.modTime_out (s : State) (f : TimeState → TimeState) : (s.modTime f).out = s.out := rfl

/-! State.modModu -/

@[simp] theorem State.modModu_pending (s : State) (f : ModuleState → ModuleState) : (s.modModu f).pending = s.pending := rfl
@[simp] theorem State.modModu_draws (s : State) (f : ModuleState → ModuleState) : (s.modModu f).draws = s.draws := rfl
@[simp] theorem State.modModu_variant (s : State) (f : ModuleState → ModuleState) : (s.modModu f).variant = s.variant := rfl
@[simp] theorem State.modModu_cores (s : State) (f : ModuleState → ModuleState) : (s.modModu f).cores = s.cores := rfl
@[simp] theorem State.modModu_rubric (s : State) (f : ModuleState → ModuleState) : (s.modModu f).rubric = s.rubric := rfl
@[simp] theorem State.modModu_mesh (s : State) (f : ModuleState → ModuleState) : (s.modModu f).mesh = s.mesh := rfl
@[simp] theorem State.modModu_mem (s : State) (f : ModuleState → ModuleState) : (s.modModu f).mem = s.mem := rfl
@[simp] theorem State.modModu_xlate (s : State) (f : ModuleState → ModuleState) : (s.modModu f).xlate = s.xlate := rfl
@[simp] theorem State.modModu_fol (s : State) (f : ModuleState → ModuleState) : (s.modModu f).fol = s.fol := rfl
@[simp] theorem State.modModu_host (s : State) (f : ModuleState → ModuleState) : (s.modModu f).host = s.host := rfl
@[simp] theorem State.modModu_clock (s : State) (f : ModuleState → ModuleState) : (s.modModu f).clock = s.clock := rfl
@[simp] theorem State.modModu_dieMap (s : State) (f : ModuleState → ModuleState) : (s.modModu f).dieMap = s.dieMap := rfl
@[simp] theorem State.modModu_parts (s : State) (f : ModuleState → ModuleState) : (s.modModu f).parts = s.parts := rfl
@[simp] theorem State.modModu_log (s : State) (f : ModuleState → ModuleState) : (s.modModu f).log = s.log := rfl
@[simp] theorem State.modModu_power (s : State) (f : ModuleState → ModuleState) : (s.modModu f).power = s.power := rfl
@[simp] theorem State.modModu_plug (s : State) (f : ModuleState → ModuleState) : (s.modModu f).plug = s.plug := rfl
@[simp] theorem State.modModu_link (s : State) (f : ModuleState → ModuleState) : (s.modModu f).link = s.link := rfl
@[simp] theorem State.modModu_dict (s : State) (f : ModuleState → ModuleState) : (s.modModu f).dict = s.dict := rfl
@[simp] theorem State.modModu_ward (s : State) (f : ModuleState → ModuleState) : (s.modModu f).ward = s.ward := rfl
@[simp] theorem State.modModu_sec (s : State) (f : ModuleState → ModuleState) : (s.modModu f).sec = s.sec := rfl
@[simp] theorem State.modModu_pmc (s : State) (f : ModuleState → ModuleState) : (s.modModu f).pmc = s.pmc := rfl
@[simp] theorem State.modModu_out (s : State) (f : ModuleState → ModuleState) : (s.modModu f).out = s.out := rfl

/-! State.modPmc -/

@[simp] theorem State.modPmc_pending (s : State) (f : PmcState → PmcState) : (s.modPmc f).pending = s.pending := rfl
@[simp] theorem State.modPmc_draws (s : State) (f : PmcState → PmcState) : (s.modPmc f).draws = s.draws := rfl
@[simp] theorem State.modPmc_variant (s : State) (f : PmcState → PmcState) : (s.modPmc f).variant = s.variant := rfl
@[simp] theorem State.modPmc_cores (s : State) (f : PmcState → PmcState) : (s.modPmc f).cores = s.cores := rfl
@[simp] theorem State.modPmc_rubric (s : State) (f : PmcState → PmcState) : (s.modPmc f).rubric = s.rubric := rfl
@[simp] theorem State.modPmc_mesh (s : State) (f : PmcState → PmcState) : (s.modPmc f).mesh = s.mesh := rfl
@[simp] theorem State.modPmc_mem (s : State) (f : PmcState → PmcState) : (s.modPmc f).mem = s.mem := rfl
@[simp] theorem State.modPmc_xlate (s : State) (f : PmcState → PmcState) : (s.modPmc f).xlate = s.xlate := rfl
@[simp] theorem State.modPmc_fol (s : State) (f : PmcState → PmcState) : (s.modPmc f).fol = s.fol := rfl
@[simp] theorem State.modPmc_host (s : State) (f : PmcState → PmcState) : (s.modPmc f).host = s.host := rfl
@[simp] theorem State.modPmc_clock (s : State) (f : PmcState → PmcState) : (s.modPmc f).clock = s.clock := rfl
@[simp] theorem State.modPmc_dieMap (s : State) (f : PmcState → PmcState) : (s.modPmc f).dieMap = s.dieMap := rfl
@[simp] theorem State.modPmc_parts (s : State) (f : PmcState → PmcState) : (s.modPmc f).parts = s.parts := rfl
@[simp] theorem State.modPmc_log (s : State) (f : PmcState → PmcState) : (s.modPmc f).log = s.log := rfl
@[simp] theorem State.modPmc_power (s : State) (f : PmcState → PmcState) : (s.modPmc f).power = s.power := rfl
@[simp] theorem State.modPmc_plug (s : State) (f : PmcState → PmcState) : (s.modPmc f).plug = s.plug := rfl
@[simp] theorem State.modPmc_modu (s : State) (f : PmcState → PmcState) : (s.modPmc f).modu = s.modu := rfl
@[simp] theorem State.modPmc_link (s : State) (f : PmcState → PmcState) : (s.modPmc f).link = s.link := rfl
@[simp] theorem State.modPmc_dict (s : State) (f : PmcState → PmcState) : (s.modPmc f).dict = s.dict := rfl
@[simp] theorem State.modPmc_ward (s : State) (f : PmcState → PmcState) : (s.modPmc f).ward = s.ward := rfl
@[simp] theorem State.modPmc_sec (s : State) (f : PmcState → PmcState) : (s.modPmc f).sec = s.sec := rfl
@[simp] theorem State.modPmc_out (s : State) (f : PmcState → PmcState) : (s.modPmc f).out = s.out := rfl

/-! State.modWard -/

@[simp] theorem State.modWard_pending (s : State) (f : WardenState → WardenState) : (s.modWard f).pending = s.pending := rfl
@[simp] theorem State.modWard_draws (s : State) (f : WardenState → WardenState) : (s.modWard f).draws = s.draws := rfl
@[simp] theorem State.modWard_variant (s : State) (f : WardenState → WardenState) : (s.modWard f).variant = s.variant := rfl
@[simp] theorem State.modWard_cores (s : State) (f : WardenState → WardenState) : (s.modWard f).cores = s.cores := rfl
@[simp] theorem State.modWard_rubric (s : State) (f : WardenState → WardenState) : (s.modWard f).rubric = s.rubric := rfl
@[simp] theorem State.modWard_mesh (s : State) (f : WardenState → WardenState) : (s.modWard f).mesh = s.mesh := rfl
@[simp] theorem State.modWard_mem (s : State) (f : WardenState → WardenState) : (s.modWard f).mem = s.mem := rfl
@[simp] theorem State.modWard_xlate (s : State) (f : WardenState → WardenState) : (s.modWard f).xlate = s.xlate := rfl
@[simp] theorem State.modWard_fol (s : State) (f : WardenState → WardenState) : (s.modWard f).fol = s.fol := rfl
@[simp] theorem State.modWard_host (s : State) (f : WardenState → WardenState) : (s.modWard f).host = s.host := rfl
@[simp] theorem State.modWard_clock (s : State) (f : WardenState → WardenState) : (s.modWard f).clock = s.clock := rfl
@[simp] theorem State.modWard_dieMap (s : State) (f : WardenState → WardenState) : (s.modWard f).dieMap = s.dieMap := rfl
@[simp] theorem State.modWard_parts (s : State) (f : WardenState → WardenState) : (s.modWard f).parts = s.parts := rfl
@[simp] theorem State.modWard_log (s : State) (f : WardenState → WardenState) : (s.modWard f).log = s.log := rfl
@[simp] theorem State.modWard_power (s : State) (f : WardenState → WardenState) : (s.modWard f).power = s.power := rfl
@[simp] theorem State.modWard_plug (s : State) (f : WardenState → WardenState) : (s.modWard f).plug = s.plug := rfl
@[simp] theorem State.modWard_modu (s : State) (f : WardenState → WardenState) : (s.modWard f).modu = s.modu := rfl
@[simp] theorem State.modWard_link (s : State) (f : WardenState → WardenState) : (s.modWard f).link = s.link := rfl
@[simp] theorem State.modWard_dict (s : State) (f : WardenState → WardenState) : (s.modWard f).dict = s.dict := rfl
@[simp] theorem State.modWard_sec (s : State) (f : WardenState → WardenState) : (s.modWard f).sec = s.sec := rfl
@[simp] theorem State.modWard_pmc (s : State) (f : WardenState → WardenState) : (s.modWard f).pmc = s.pmc := rfl
@[simp] theorem State.modWard_out (s : State) (f : WardenState → WardenState) : (s.modWard f).out = s.out := rfl

/-! State.modSec -/

@[simp] theorem State.modSec_pending (s : State) (f : SecState → SecState) : (s.modSec f).pending = s.pending := rfl
@[simp] theorem State.modSec_draws (s : State) (f : SecState → SecState) : (s.modSec f).draws = s.draws := rfl
@[simp] theorem State.modSec_variant (s : State) (f : SecState → SecState) : (s.modSec f).variant = s.variant := rfl
@[simp] theorem State.modSec_cores (s : State) (f : SecState → SecState) : (s.modSec f).cores = s.cores := rfl
@[simp] theorem State.modSec_rubric (s : State) (f : SecState → SecState) : (s.modSec f).rubric = s.rubric := rfl
@[simp] theorem State.modSec_mesh (s : State) (f : SecState → SecState) : (s.modSec f).mesh = s.mesh := rfl
@[simp] theorem State.modSec_mem (s : State) (f : SecState → SecState) : (s.modSec f).mem = s.mem := rfl
@[simp] theorem State.modSec_xlate (s : State) (f : SecState → SecState) : (s.modSec f).xlate = s.xlate := rfl
@[simp] theorem State.modSec_fol (s : State) (f : SecState → SecState) : (s.modSec f).fol = s.fol := rfl
@[simp] theorem State.modSec_host (s : State) (f : SecState → SecState) : (s.modSec f).host = s.host := rfl
@[simp] theorem State.modSec_clock (s : State) (f : SecState → SecState) : (s.modSec f).clock = s.clock := rfl
@[simp] theorem State.modSec_dieMap (s : State) (f : SecState → SecState) : (s.modSec f).dieMap = s.dieMap := rfl
@[simp] theorem State.modSec_parts (s : State) (f : SecState → SecState) : (s.modSec f).parts = s.parts := rfl
@[simp] theorem State.modSec_log (s : State) (f : SecState → SecState) : (s.modSec f).log = s.log := rfl
@[simp] theorem State.modSec_power (s : State) (f : SecState → SecState) : (s.modSec f).power = s.power := rfl
@[simp] theorem State.modSec_plug (s : State) (f : SecState → SecState) : (s.modSec f).plug = s.plug := rfl
@[simp] theorem State.modSec_modu (s : State) (f : SecState → SecState) : (s.modSec f).modu = s.modu := rfl
@[simp] theorem State.modSec_link (s : State) (f : SecState → SecState) : (s.modSec f).link = s.link := rfl
@[simp] theorem State.modSec_dict (s : State) (f : SecState → SecState) : (s.modSec f).dict = s.dict := rfl
@[simp] theorem State.modSec_ward (s : State) (f : SecState → SecState) : (s.modSec f).ward = s.ward := rfl
@[simp] theorem State.modSec_pmc (s : State) (f : SecState → SecState) : (s.modSec f).pmc = s.pmc := rfl
@[simp] theorem State.modSec_out (s : State) (f : SecState → SecState) : (s.modSec f).out = s.out := rfl

/-! State.modPower -/

@[simp] theorem State.modPower_pending (s : State) (f : PowerState → PowerState) : (s.modPower f).pending = s.pending := rfl
@[simp] theorem State.modPower_draws (s : State) (f : PowerState → PowerState) : (s.modPower f).draws = s.draws := rfl
@[simp] theorem State.modPower_variant (s : State) (f : PowerState → PowerState) : (s.modPower f).variant = s.variant := rfl
@[simp] theorem State.modPower_cores (s : State) (f : PowerState → PowerState) : (s.modPower f).cores = s.cores := rfl
@[simp] theorem State.modPower_rubric (s : State) (f : PowerState → PowerState) : (s.modPower f).rubric = s.rubric := rfl
@[simp] theorem State.modPower_mesh (s : State) (f : PowerState → PowerState) : (s.modPower f).mesh = s.mesh := rfl
@[simp] theorem State.modPower_mem (s : State) (f : PowerState → PowerState) : (s.modPower f).mem = s.mem := rfl
@[simp] theorem State.modPower_xlate (s : State) (f : PowerState → PowerState) : (s.modPower f).xlate = s.xlate := rfl
@[simp] theorem State.modPower_fol (s : State) (f : PowerState → PowerState) : (s.modPower f).fol = s.fol := rfl
@[simp] theorem State.modPower_host (s : State) (f : PowerState → PowerState) : (s.modPower f).host = s.host := rfl
@[simp] theorem State.modPower_clock (s : State) (f : PowerState → PowerState) : (s.modPower f).clock = s.clock := rfl
@[simp] theorem State.modPower_dieMap (s : State) (f : PowerState → PowerState) : (s.modPower f).dieMap = s.dieMap := rfl
@[simp] theorem State.modPower_parts (s : State) (f : PowerState → PowerState) : (s.modPower f).parts = s.parts := rfl
@[simp] theorem State.modPower_log (s : State) (f : PowerState → PowerState) : (s.modPower f).log = s.log := rfl
@[simp] theorem State.modPower_plug (s : State) (f : PowerState → PowerState) : (s.modPower f).plug = s.plug := rfl
@[simp] theorem State.modPower_modu (s : State) (f : PowerState → PowerState) : (s.modPower f).modu = s.modu := rfl
@[simp] theorem State.modPower_link (s : State) (f : PowerState → PowerState) : (s.modPower f).link = s.link := rfl
@[simp] theorem State.modPower_dict (s : State) (f : PowerState → PowerState) : (s.modPower f).dict = s.dict := rfl
@[simp] theorem State.modPower_ward (s : State) (f : PowerState → PowerState) : (s.modPower f).ward = s.ward := rfl
@[simp] theorem State.modPower_sec (s : State) (f : PowerState → PowerState) : (s.modPower f).sec = s.sec := rfl
@[simp] theorem State.modPower_pmc (s : State) (f : PowerState → PowerState) : (s.modPower f).pmc = s.pmc := rfl
@[simp] theorem State.modPower_out (s : State) (f : PowerState → PowerState) : (s.modPower f).out = s.out := rfl

/-! State.modPlug -/

@[simp] theorem State.modPlug_pending (s : State) (f : PlugState → PlugState) : (s.modPlug f).pending = s.pending := rfl
@[simp] theorem State.modPlug_draws (s : State) (f : PlugState → PlugState) : (s.modPlug f).draws = s.draws := rfl
@[simp] theorem State.modPlug_variant (s : State) (f : PlugState → PlugState) : (s.modPlug f).variant = s.variant := rfl
@[simp] theorem State.modPlug_cores (s : State) (f : PlugState → PlugState) : (s.modPlug f).cores = s.cores := rfl
@[simp] theorem State.modPlug_rubric (s : State) (f : PlugState → PlugState) : (s.modPlug f).rubric = s.rubric := rfl
@[simp] theorem State.modPlug_mesh (s : State) (f : PlugState → PlugState) : (s.modPlug f).mesh = s.mesh := rfl
@[simp] theorem State.modPlug_mem (s : State) (f : PlugState → PlugState) : (s.modPlug f).mem = s.mem := rfl
@[simp] theorem State.modPlug_xlate (s : State) (f : PlugState → PlugState) : (s.modPlug f).xlate = s.xlate := rfl
@[simp] theorem State.modPlug_fol (s : State) (f : PlugState → PlugState) : (s.modPlug f).fol = s.fol := rfl
@[simp] theorem State.modPlug_host (s : State) (f : PlugState → PlugState) : (s.modPlug f).host = s.host := rfl
@[simp] theorem State.modPlug_clock (s : State) (f : PlugState → PlugState) : (s.modPlug f).clock = s.clock := rfl
@[simp] theorem State.modPlug_dieMap (s : State) (f : PlugState → PlugState) : (s.modPlug f).dieMap = s.dieMap := rfl
@[simp] theorem State.modPlug_parts (s : State) (f : PlugState → PlugState) : (s.modPlug f).parts = s.parts := rfl
@[simp] theorem State.modPlug_log (s : State) (f : PlugState → PlugState) : (s.modPlug f).log = s.log := rfl
@[simp] theorem State.modPlug_power (s : State) (f : PlugState → PlugState) : (s.modPlug f).power = s.power := rfl
@[simp] theorem State.modPlug_modu (s : State) (f : PlugState → PlugState) : (s.modPlug f).modu = s.modu := rfl
@[simp] theorem State.modPlug_link (s : State) (f : PlugState → PlugState) : (s.modPlug f).link = s.link := rfl
@[simp] theorem State.modPlug_dict (s : State) (f : PlugState → PlugState) : (s.modPlug f).dict = s.dict := rfl
@[simp] theorem State.modPlug_ward (s : State) (f : PlugState → PlugState) : (s.modPlug f).ward = s.ward := rfl
@[simp] theorem State.modPlug_sec (s : State) (f : PlugState → PlugState) : (s.modPlug f).sec = s.sec := rfl
@[simp] theorem State.modPlug_pmc (s : State) (f : PlugState → PlugState) : (s.modPlug f).pmc = s.pmc := rfl
@[simp] theorem State.modPlug_out (s : State) (f : PlugState → PlugState) : (s.modPlug f).out = s.out := rfl

/-! State.emit -/

@[simp] theorem State.emit_pending (s : State) (o : Out) : (s.emit o).pending = s.pending := rfl
@[simp] theorem State.emit_draws (s : State) (o : Out) : (s.emit o).draws = s.draws := rfl
@[simp] theorem State.emit_variant (s : State) (o : Out) : (s.emit o).variant = s.variant := rfl
@[simp] theorem State.emit_cores (s : State) (o : Out) : (s.emit o).cores = s.cores := rfl
@[simp] theorem State.emit_rubric (s : State) (o : Out) : (s.emit o).rubric = s.rubric := rfl
@[simp] theorem State.emit_mesh (s : State) (o : Out) : (s.emit o).mesh = s.mesh := rfl
@[simp] theorem State.emit_mem (s : State) (o : Out) : (s.emit o).mem = s.mem := rfl
@[simp] theorem State.emit_xlate (s : State) (o : Out) : (s.emit o).xlate = s.xlate := rfl
@[simp] theorem State.emit_fol (s : State) (o : Out) : (s.emit o).fol = s.fol := rfl
@[simp] theorem State.emit_host (s : State) (o : Out) : (s.emit o).host = s.host := rfl
@[simp] theorem State.emit_clock (s : State) (o : Out) : (s.emit o).clock = s.clock := rfl
@[simp] theorem State.emit_dieMap (s : State) (o : Out) : (s.emit o).dieMap = s.dieMap := rfl
@[simp] theorem State.emit_parts (s : State) (o : Out) : (s.emit o).parts = s.parts := rfl
@[simp] theorem State.emit_log (s : State) (o : Out) : (s.emit o).log = s.log := rfl
@[simp] theorem State.emit_power (s : State) (o : Out) : (s.emit o).power = s.power := rfl
@[simp] theorem State.emit_plug (s : State) (o : Out) : (s.emit o).plug = s.plug := rfl
@[simp] theorem State.emit_modu (s : State) (o : Out) : (s.emit o).modu = s.modu := rfl
@[simp] theorem State.emit_link (s : State) (o : Out) : (s.emit o).link = s.link := rfl
@[simp] theorem State.emit_dict (s : State) (o : Out) : (s.emit o).dict = s.dict := rfl
@[simp] theorem State.emit_ward (s : State) (o : Out) : (s.emit o).ward = s.ward := rfl
@[simp] theorem State.emit_sec (s : State) (o : Out) : (s.emit o).sec = s.sec := rfl
@[simp] theorem State.emit_pmc (s : State) (o : Out) : (s.emit o).pmc = s.pmc := rfl

/-! State.draw -/

@[simp] theorem State.draw_pending (s : State) : (s.draw).pending = s.pending := rfl
@[simp] theorem State.draw_variant (s : State) : (s.draw).variant = s.variant := rfl
@[simp] theorem State.draw_cores (s : State) : (s.draw).cores = s.cores := rfl
@[simp] theorem State.draw_rubric (s : State) : (s.draw).rubric = s.rubric := rfl
@[simp] theorem State.draw_mesh (s : State) : (s.draw).mesh = s.mesh := rfl
@[simp] theorem State.draw_mem (s : State) : (s.draw).mem = s.mem := rfl
@[simp] theorem State.draw_xlate (s : State) : (s.draw).xlate = s.xlate := rfl
@[simp] theorem State.draw_fol (s : State) : (s.draw).fol = s.fol := rfl
@[simp] theorem State.draw_host (s : State) : (s.draw).host = s.host := rfl
@[simp] theorem State.draw_clock (s : State) : (s.draw).clock = s.clock := rfl
@[simp] theorem State.draw_dieMap (s : State) : (s.draw).dieMap = s.dieMap := rfl
@[simp] theorem State.draw_parts (s : State) : (s.draw).parts = s.parts := rfl
@[simp] theorem State.draw_log (s : State) : (s.draw).log = s.log := rfl
@[simp] theorem State.draw_power (s : State) : (s.draw).power = s.power := rfl
@[simp] theorem State.draw_plug (s : State) : (s.draw).plug = s.plug := rfl
@[simp] theorem State.draw_modu (s : State) : (s.draw).modu = s.modu := rfl
@[simp] theorem State.draw_link (s : State) : (s.draw).link = s.link := rfl
@[simp] theorem State.draw_dict (s : State) : (s.draw).dict = s.dict := rfl
@[simp] theorem State.draw_ward (s : State) : (s.draw).ward = s.ward := rfl
@[simp] theorem State.draw_sec (s : State) : (s.draw).sec = s.sec := rfl
@[simp] theorem State.draw_pmc (s : State) : (s.draw).pmc = s.pmc := rfl
@[simp] theorem State.draw_out (s : State) : (s.draw).out = s.out := rfl

/-! State.setDict -/

@[simp] theorem State.setDict_pending (s : State) (idx sub v : Nat) : (s.setDict idx sub v).pending = s.pending := rfl
@[simp] theorem State.setDict_draws (s : State) (idx sub v : Nat) : (s.setDict idx sub v).draws = s.draws := rfl
@[simp] theorem State.setDict_variant (s : State) (idx sub v : Nat) : (s.setDict idx sub v).variant = s.variant := rfl
@[simp] theorem State.setDict_cores (s : State) (idx sub v : Nat) : (s.setDict idx sub v).cores = s.cores := rfl
@[simp] theorem State.setDict_rubric (s : State) (idx sub v : Nat) : (s.setDict idx sub v).rubric = s.rubric := rfl
@[simp] theorem State.setDict_mesh (s : State) (idx sub v : Nat) : (s.setDict idx sub v).mesh = s.mesh := rfl
@[simp] theorem State.setDict_mem (s : State) (idx sub v : Nat) : (s.setDict idx sub v).mem = s.mem := rfl
@[simp] theorem State.setDict_xlate (s : State) (idx sub v : Nat) : (s.setDict idx sub v).xlate = s.xlate := rfl
@[simp] theorem State.setDict_fol (s : State) (idx sub v : Nat) : (s.setDict idx sub v).fol = s.fol := rfl
@[simp] theorem State.setDict_host (s : State) (idx sub v : Nat) : (s.setDict idx sub v).host = s.host := rfl
@[simp] theorem State.setDict_clock (s : State) (idx sub v : Nat) : (s.setDict idx sub v).clock = s.clock := rfl
@[simp] theorem State.setDict_dieMap (s : State) (idx sub v : Nat) : (s.setDict idx sub v).dieMap = s.dieMap := rfl
@[simp] theorem State.setDict_parts (s : State) (idx sub v : Nat) : (s.setDict idx sub v).parts = s.parts := rfl
@[simp] theorem State.setDict_log (s : State) (idx sub v : Nat) : (s.setDict idx sub v).log = s.log := rfl
@[simp] theorem State.setDict_power (s : State) (idx sub v : Nat) : (s.setDict idx sub v).power = s.power := rfl
@[simp] theorem State.setDict_plug (s : State) (idx sub v : Nat) : (s.setDict idx sub v).plug = s.plug := rfl
@[simp] theorem State.setDict_modu (s : State) (idx sub v : Nat) : (s.setDict idx sub v).modu = s.modu := rfl
@[simp] theorem State.setDict_link (s : State) (idx sub v : Nat) : (s.setDict idx sub v).link = s.link := rfl
@[simp] theorem State.setDict_ward (s : State) (idx sub v : Nat) : (s.setDict idx sub v).ward = s.ward := rfl
@[simp] theorem State.setDict_sec (s : State) (idx sub v : Nat) : (s.setDict idx sub v).sec = s.sec := rfl
@[simp] theorem State.setDict_pmc (s : State) (idx sub v : Nat) : (s.setDict idx sub v).pmc = s.pmc := rfl
@[simp] theorem State.setDict_out (s : State) (idx sub v : Nat) : (s.setDict idx sub v).out = s.out := rfl

/-! The field an update changes -/

@[simp] theorem State.modMem_mem (s : State) (f : MemState → MemState) : (s.modMem f).mem = f s.mem := rfl
@[simp] theorem State.modHost_host (s : State) (f : HostState → HostState) : (s.modHost f).host = f s.host := rfl
@[simp] theorem State.modClock_clock (s : State) (f : ClockState → ClockState) : (s.modClock f).clock = f s.clock := rfl
@[simp] theorem State.modLink_link (s : State) (f : LinkState → LinkState) : (s.modLink f).link = f s.link := rfl
@[simp] theorem State.modModu_modu (s : State) (f : ModuleState → ModuleState) : (s.modModu f).modu = f s.modu := rfl
@[simp] theorem State.modPmc_pmc (s : State) (f : PmcState → PmcState) : (s.modPmc f).pmc = f s.pmc := rfl
@[simp] theorem State.modWard_ward (s : State) (f : WardenState → WardenState) : (s.modWard f).ward = f s.ward := rfl
@[simp] theorem State.modSec_sec (s : State) (f : SecState → SecState) : (s.modSec f).sec = f s.sec := rfl
@[simp] theorem State.modPower_power (s : State) (f : PowerState → PowerState) : (s.modPower f).power = f s.power := rfl
@[simp] theorem State.modPlug_plug (s : State) (f : PlugState → PlugState) : (s.modPlug f).plug = f s.plug := rfl
@[simp] theorem State.modTime_time (s : State) (f : TimeState → TimeState) : (s.modTime f).link.time = f s.link.time := rfl
@[simp] theorem State.emit_out (s : State) (o : Out) : (s.emit o).out = s.out ++ [o] := rfl
@[simp] theorem State.draw_draws (s : State) : s.draw.draws = s.draws + 1 := rfl

/-! Reads of a core, a rubric core, a partition, a port or a ring after a write of one -/

@[simp] theorem State.core_setCore (s : State) (n m : CoreNo) (c : Core) :
    (s.setCore n c).core m = if n = m then c else s.core m := by
  simp only [State.core, State.setCore, Vector.getElem_set, Fin.ext_iff]

@[simp] theorem State.core_modCore (s : State) (n m : CoreNo) (f : Core → Core) :
    (s.modCore n f).core m = if n = m then f (s.core n) else s.core m := State.core_setCore s n m _

@[simp] theorem State.rub_setRub (s : State) (k j : Fin 24) (r : Rubric) :
    (s.setRub k r).rub j = if k = j then r else s.rub j := by
  simp only [State.rub, State.setRub, Vector.getElem_set, Fin.ext_iff]

@[simp] theorem State.rub_modRub (s : State) (k j : Fin 24) (f : Rubric → Rubric) :
    (s.modRub k f).rub j = if k = j then f (s.rub k) else s.rub j := State.rub_setRub s k j _

@[simp] theorem State.part_setPart (s : State) (p q : PartNo) (x : Part) :
    (s.setPart p x).part q = if p = q then x else s.part q := by
  simp only [State.part, State.setPart, Vector.getElem_set, Fin.ext_iff]

@[simp] theorem State.part_modPart (s : State) (p q : PartNo) (f : Part → Part) :
    (s.modPart p f).part q = if p = q then f (s.part p) else s.part q := State.part_setPart s p q _

@[simp] theorem State.port_setPort (s : State) (p q : PortNo) (x : Port) :
    (s.setPort p x).port q = if p = q then x else s.port q := by
  simp only [State.port, State.setPort, State.modLink, Vector.getElem_set, Fin.ext_iff]

@[simp] theorem State.port_modPort (s : State) (p q : PortNo) (f : Port → Port) :
    (s.modPort p f).port q = if p = q then f (s.port p) else s.port q := State.port_setPort s p q _

@[simp] theorem State.ring_setRing (s : State) (p q : Fin 16) (x : Ring) :
    (s.setRing p x).ring q = if p = q then x else s.ring q := by
  simp only [State.ring, State.setRing, State.modLink, Vector.getElem_set, Fin.ext_iff]

@[simp] theorem State.ring_modRing (s : State) (p q : Fin 16) (f : Ring → Ring) :
    (s.modRing p f).ring q = if p = q then f (s.ring p) else s.ring q := State.ring_setRing s p q _

/-! State.forget -/

@[simp] theorem State.forget_pending (s : State) (ua n : Nat) : (s.forget ua n).pending = s.pending := rfl
@[simp] theorem State.forget_draws (s : State) (ua n : Nat) : (s.forget ua n).draws = s.draws := rfl
@[simp] theorem State.forget_variant (s : State) (ua n : Nat) : (s.forget ua n).variant = s.variant := rfl
@[simp] theorem State.forget_cores (s : State) (ua n : Nat) : (s.forget ua n).cores = s.cores := rfl
@[simp] theorem State.forget_rubric (s : State) (ua n : Nat) : (s.forget ua n).rubric = s.rubric := rfl
@[simp] theorem State.forget_mesh (s : State) (ua n : Nat) : (s.forget ua n).mesh = s.mesh := rfl
@[simp] theorem State.forget_mem (s : State) (ua n : Nat) : (s.forget ua n).mem = s.mem := rfl
@[simp] theorem State.forget_fol (s : State) (ua n : Nat) : (s.forget ua n).fol = s.fol := rfl
@[simp] theorem State.forget_host (s : State) (ua n : Nat) : (s.forget ua n).host = s.host := rfl
@[simp] theorem State.forget_clock (s : State) (ua n : Nat) : (s.forget ua n).clock = s.clock := rfl
@[simp] theorem State.forget_dieMap (s : State) (ua n : Nat) : (s.forget ua n).dieMap = s.dieMap := rfl
@[simp] theorem State.forget_parts (s : State) (ua n : Nat) : (s.forget ua n).parts = s.parts := rfl
@[simp] theorem State.forget_log (s : State) (ua n : Nat) : (s.forget ua n).log = s.log := rfl
@[simp] theorem State.forget_power (s : State) (ua n : Nat) : (s.forget ua n).power = s.power := rfl
@[simp] theorem State.forget_plug (s : State) (ua n : Nat) : (s.forget ua n).plug = s.plug := rfl
@[simp] theorem State.forget_modu (s : State) (ua n : Nat) : (s.forget ua n).modu = s.modu := rfl
@[simp] theorem State.forget_link (s : State) (ua n : Nat) : (s.forget ua n).link = s.link := rfl
@[simp] theorem State.forget_dict (s : State) (ua n : Nat) : (s.forget ua n).dict = s.dict := rfl
@[simp] theorem State.forget_ward (s : State) (ua n : Nat) : (s.forget ua n).ward = s.ward := rfl
@[simp] theorem State.forget_sec (s : State) (ua n : Nat) : (s.forget ua n).sec = s.sec := rfl
@[simp] theorem State.forget_pmc (s : State) (ua n : Nat) : (s.forget ua n).pmc = s.pmc := rfl
@[simp] theorem State.forget_out (s : State) (ua n : Nat) : (s.forget ua n).out = s.out := rfl

end Sys2Proof.Machine
end

