-- ==== Sys2Proof/Laws/Report.lean ====
section
/-! SUPPORT. What a fault record, a notification and an interrupt can change: the log, the warden's counts, the host's pending bits and
what is sent out, and nothing else. -/

namespace Sys2Proof.Machine

/-- The parts of the state that a record never changes. -/
def State.core0 (s : State) : State := { s with log := LogState.reset, ward := WardenState.reset, host := HostState.reset, out := [] }

theorem State.raiseVector_core0 (s : State) (fn v : Nat) : (s.raiseVector fn v).core0 = s.core0 := by
  unfold State.raiseVector; dsimp only; split <;> rfl

theorem State.partitionEvent_core0 (s : State) (p : PartNo) : (s.partitionEvent p).core0 = s.core0 := by
  unfold State.partitionEvent; dsimp only
  split
  · split
    · rw [State.raiseVector_core0]; rfl
    · rfl
  · rfl

theorem State.notifyTarget_core0 (s : State) (t i j : Nat) (v : List Byte) : (s.notifyTarget t i j v).core0 = s.core0 := by
  unfold State.notifyTarget
  split
  · rfl
  · extract_lets sec r0 r
    split <;> rfl

theorem State.notify_core0 (s : State) (i j : Nat) (v : List Byte) : (s.notify i j v).core0 = s.core0 :=
  ((State.notifyTarget_core0 _ 1 i j v).trans (State.notifyTarget_core0 s 0 i j v) : _)

theorem State.logRecord_core0 (s : State) (r : Report) (d : Nat) : (s.logRecord r d).core0 = s.core0 := by
  unfold State.logRecord
  extract_lets seq pers rec0 k unread lg z1 z2 z3 z4 z5
  have h2 : State.core0 z3 = s.core0 := State.notify_core0 z2 _ _ _
  have h3 : State.core0 z4 = s.core0 := h2
  have h4 : State.core0 z5 = s.core0 := by
    show State.core0 (if _ then _ else _) = _
    split
    · rw [State.raiseVector_core0]; exact h3
    · exact h3
  split
  · rw [State.partitionEvent_core0]; exact h4
  · exact h4

/-- A record changes nothing but the log, the notifications and the interrupt it raises. -/
theorem State.report_core0 (s : State) (r : Report) : (s.report r).core0 = s.core0 := by
  unfold State.report
  extract_lets key sec u0 u
  split
  · rfl
  · exact State.logRecord_core0 _ _ _

@[simp] theorem State.report_pending (s : State) (r : Report) : (s.report r).pending = s.pending :=
  (congrArg (fun t : State => t.pending) (State.report_core0 s r) :)

@[simp] theorem State.report_draws (s : State) (r : Report) : (s.report r).draws = s.draws :=
  (congrArg (fun t : State => t.draws) (State.report_core0 s r) :)

@[simp] theorem State.report_variant (s : State) (r : Report) : (s.report r).variant = s.variant :=
  (congrArg (fun t : State => t.variant) (State.report_core0 s r) :)

@[simp] theorem State.report_cores (s : State) (r : Report) : (s.report r).cores = s.cores :=
  (congrArg (fun t : State => t.cores) (State.report_core0 s r) :)

@[simp] theorem State.report_rubric (s : State) (r : Report) : (s.report r).rubric = s.rubric :=
  (congrArg (fun t : State => t.rubric) (State.report_core0 s r) :)

@[simp] theorem State.report_mesh (s : State) (r : Report) : (s.report r).mesh = s.mesh :=
  (congrArg (fun t : State => t.mesh) (State.report_core0 s r) :)

@[simp] theorem State.report_mem (s : State) (r : Report) : (s.report r).mem = s.mem :=
  (congrArg (fun t : State => t.mem) (State.report_core0 s r) :)

@[simp] theorem State.report_fol (s : State) (r : Report) : (s.report r).fol = s.fol :=
  (congrArg (fun t : State => t.fol) (State.report_core0 s r) :)

@[simp] theorem State.report_clock (s : State) (r : Report) : (s.report r).clock = s.clock :=
  (congrArg (fun t : State => t.clock) (State.report_core0 s r) :)

@[simp] theorem State.report_dieMap (s : State) (r : Report) : (s.report r).dieMap = s.dieMap :=
  (congrArg (fun t : State => t.dieMap) (State.report_core0 s r) :)

@[simp] theorem State.report_parts (s : State) (r : Report) : (s.report r).parts = s.parts :=
  (congrArg (fun t : State => t.parts) (State.report_core0 s r) :)

@[simp] theorem State.report_power (s : State) (r : Report) : (s.report r).power = s.power :=
  (congrArg (fun t : State => t.power) (State.report_core0 s r) :)

@[simp] theorem State.report_plug (s : State) (r : Report) : (s.report r).plug = s.plug :=
  (congrArg (fun t : State => t.plug) (State.report_core0 s r) :)

@[simp] theorem State.report_modu (s : State) (r : Report) : (s.report r).modu = s.modu :=
  (congrArg (fun t : State => t.modu) (State.report_core0 s r) :)

@[simp] theorem State.report_link (s : State) (r : Report) : (s.report r).link = s.link :=
  (congrArg (fun t : State => t.link) (State.report_core0 s r) :)

@[simp] theorem State.report_dict (s : State) (r : Report) : (s.report r).dict = s.dict :=
  (congrArg (fun t : State => t.dict) (State.report_core0 s r) :)

@[simp] theorem State.report_sec (s : State) (r : Report) : (s.report r).sec = s.sec :=
  (congrArg (fun t : State => t.sec) (State.report_core0 s r) :)

@[simp] theorem State.report_pmc (s : State) (r : Report) : (s.report r).pmc = s.pmc :=
  (congrArg (fun t : State => t.pmc) (State.report_core0 s r) :)

@[simp] theorem State.report_core (s : State) (r : Report) (n : CoreNo) : (s.report r).core n = s.core n := by
  unfold State.core; rw [State.report_cores]

@[simp] theorem State.report_rub (s : State) (r : Report) (k : Fin 24) : (s.report r).rub k = s.rub k := by
  unfold State.rub; rw [State.report_rubric]

@[simp] theorem State.report_part (s : State) (r : Report) (p : PartNo) : (s.report r).part p = s.part p := by
  unfold State.part; rw [State.report_parts]

/-! States of the module and of partitions (R407, R428, R496, R502) -/

theorem State.setModState_state (s : State) (m : ModState) : (s.setModState m).modu = { s.modu with state := m } := by
  unfold State.setModState
  split
  · rename_i h; rw [← h]
  · extract_lets s1 s2 s3
    have h3 : s3.core0 = s2.core0 := by
      show State.core0 (if _ then _ else _) = _
      split
      · exact State.raiseVector_core0 _ _ _
      · rfl
    exact (congrArg (fun t : State => t.modu) ((State.notify_core0 s3 _ _ _).trans h3) :)

/-- The parts of the state that a change of the module's state leaves alone. -/
theorem State.setModState_core0 (s : State) (m : ModState) : (s.setModState m).core0 = (s.modModu (fun u => { u with state := m })).core0 := by
  unfold State.setModState
  split
  · rename_i h
    have : s.modModu (fun u => { u with state := m }) = s := by rw [← h]; rfl
    rw [this]
  · extract_lets s1 s2 s3
    have h3 : s3.core0 = s2.core0 := by
      show State.core0 (if _ then _ else _) = _
      split
      · exact State.raiseVector_core0 _ _ _
      · rfl
    exact (State.notify_core0 s3 _ _ _).trans h3

theorem State.raiseVector_linkUp (s : State) (fn v : Nat) : (s.raiseVector fn v).host.linkUp = s.host.linkUp := by
  unfold State.raiseVector; dsimp only; split <;> rfl

theorem State.notifyTarget_host (s : State) (t i j : Nat) (v : List Byte) : (s.notifyTarget t i j v).host = s.host := by
  unfold State.notifyTarget
  split
  · rfl
  · extract_lets sec r0 r
    split <;> rfl

@[simp] theorem State.notify_host (s : State) (i j : Nat) (v : List Byte) : (s.notify i j v).host = s.host :=
  ((State.notifyTarget_host _ 1 i j v).trans (State.notifyTarget_host s 0 i j v) : _)

theorem State.notifyTarget_up (s : State) (t i j : Nat) (v : List Byte) : (s.notifyTarget t i j v).ward.up = s.ward.up := by
  unfold State.notifyTarget
  split
  · rfl
  · extract_lets sec r0 r
    split <;> rfl

@[simp] theorem State.notify_up (s : State) (i j : Nat) (v : List Byte) : (s.notify i j v).ward.up = s.ward.up :=
  ((State.notifyTarget_up _ 1 i j v).trans (State.notifyTarget_up s 0 i j v) : _)

theorem State.setModState_up (s : State) (m : ModState) : (s.setModState m).ward.up = s.ward.up := by
  unfold State.setModState
  split
  · rfl
  · extract_lets s1 s2 s3
    rw [State.notify_up]
    show (State.ward (if _ then _ else _)).up = _
    split
    · unfold State.raiseVector; dsimp only; split <;> rfl
    · rfl

theorem State.setModState_linkUp (s : State) (m : ModState) : (s.setModState m).host.linkUp = s.host.linkUp := by
  unfold State.setModState
  split
  · rfl
  · extract_lets s1 s2 s3
    rw [State.notify_host]
    show (State.host (if _ then _ else _)).linkUp = _
    split
    · rw [State.raiseVector_linkUp]; rfl
    · rfl

@[simp] theorem State.setModState_pending (s : State) (m : ModState) : (s.setModState m).pending = s.pending :=
  (congrArg (fun t : State => t.pending) (State.setModState_core0 s m) :)

@[simp] theorem State.setModState_draws (s : State) (m : ModState) : (s.setModState m).draws = s.draws :=
  (congrArg (fun t : State => t.draws) (State.setModState_core0 s m) :)

@[simp] theorem State.setModState_variant (s : State) (m : ModState) : (s.setModState m).variant = s.variant :=
  (congrArg (fun t : State => t.variant) (State.setModState_core0 s m) :)

@[simp] theorem State.setModState_cores (s : State) (m : ModState) : (s.setModState m).cores = s.cores :=
  (congrArg (fun t : State => t.cores) (State.setModState_core0 s m) :)

@[simp] theorem State.setModState_rubric (s : State) (m : ModState) : (s.setModState m).rubric = s.rubric :=
  (congrArg (fun t : State => t.rubric) (State.setModState_core0 s m) :)

@[simp] theorem State.setModState_mesh (s : State) (m : ModState) : (s.setModState m).mesh = s.mesh :=
  (congrArg (fun t : State => t.mesh) (State.setModState_core0 s m) :)

@[simp] theorem State.setModState_mem (s : State) (m : ModState) : (s.setModState m).mem = s.mem :=
  (congrArg (fun t : State => t.mem) (State.setModState_core0 s m) :)

@[simp] theorem State.setModState_fol (s : State) (m : ModState) : (s.setModState m).fol = s.fol :=
  (congrArg (fun t : State => t.fol) (State.setModState_core0 s m) :)

@[simp] theorem State.setModState_clock (s : State) (m : ModState) : (s.setModState m).clock = s.clock :=
  (congrArg (fun t : State => t.clock) (State.setModState_core0 s m) :)

@[simp] theorem State.setModState_dieMap (s : State) (m : ModState) : (s.setModState m).dieMap = s.dieMap :=
  (congrArg (fun t : State => t.dieMap) (State.setModState_core0 s m) :)

@[simp] theorem State.setModState_parts (s : State) (m : ModState) : (s.setModState m).parts = s.parts :=
  (congrArg (fun t : State => t.parts) (State.setModState_core0 s m) :)

@[simp] theorem State.setModState_power (s : State) (m : ModState) : (s.setModState m).power = s.power :=
  (congrArg (fun t : State => t.power) (State.setModState_core0 s m) :)

@[simp] theorem State.setModState_plug (s : State) (m : ModState) : (s.setModState m).plug = s.plug :=
  (congrArg (fun t : State => t.plug) (State.setModState_core0 s m) :)

@[simp] theorem State.setModState_link (s : State) (m : ModState) : (s.setModState m).link = s.link :=
  (congrArg (fun t : State => t.link) (State.setModState_core0 s m) :)

@[simp] theorem State.setModState_dict (s : State) (m : ModState) : (s.setModState m).dict = s.dict :=
  (congrArg (fun t : State => t.dict) (State.setModState_core0 s m) :)

@[simp] theorem State.setModState_sec (s : State) (m : ModState) : (s.setModState m).sec = s.sec :=
  (congrArg (fun t : State => t.sec) (State.setModState_core0 s m) :)

@[simp] theorem State.setModState_pmc (s : State) (m : ModState) : (s.setModState m).pmc = s.pmc :=
  (congrArg (fun t : State => t.pmc) (State.setModState_core0 s m) :)

/-- A change of a partition's state changes that state, and, where a partition begins or ends RUNNING, the module's. -/
theorem State.setPartMode_part (s : State) (p q : PartNo) (m : PartMode) :
    (s.setPartMode p m).part q = if q = p then { s.part p with mode := m } else s.part q := by
  have auto : ∀ t : State, t.autoState.part q = t.part q := by
    intro t
    unfold State.autoState
    dsimp only
    split
    · unfold State.part; rw [State.setModState_parts]
    · split
      · unfold State.part; rw [State.setModState_parts]
      · rfl
  have ev : ∀ t : State, (t.partitionEvent p).part q = t.part q := fun t => (congrArg (fun u : State => u.part q) (State.partitionEvent_core0 t p) :)
  unfold State.setPartMode
  split
  · rename_i h
    split
    · subst_vars; rfl
    · rfl
  · rw [auto, ev, State.part_modPart]
    by_cases h : q = p
    · subst h; simp
    · rw [if_neg h, if_neg (fun e => h e.symm)]

@[simp] theorem State.raiseVector_ward (s : State) (fn v : Nat) : (s.raiseVector fn v).ward = s.ward := by
  unfold State.raiseVector; dsimp only; split <;> rfl

@[simp] theorem State.partitionEvent_ward (s : State) (p : PartNo) : (s.partitionEvent p).ward = s.ward := by
  unfold State.partitionEvent; dsimp only
  split
  · split
    · rw [State.raiseVector_ward]; rfl
    · rfl
  · rfl

@[simp] theorem State.report_up (s : State) (r : Report) : (s.report r).ward.up = s.ward.up := by
  unfold State.report
  extract_lets key sec u0 u
  split
  · rfl
  · unfold State.logRecord
    extract_lets seq pers rec0 k unread lg z1 z2 z3 z4 z5
    have h3 : z3.ward.up = s.ward.up := State.notify_up z2 _ _ _
    have h5 : z5.ward.up = s.ward.up := by
      show (State.ward (if _ then _ else _)).up = _
      split
      · rw [State.raiseVector_ward]; exact h3
      · exact h3
    split
    · rw [State.partitionEvent_ward]; exact h5
    · exact h5

end Sys2Proof.Machine
end

