-- ==== Sys2Proof/Laws/Core.lean ====
section
/-! SUPPORT. Laws of a compute core: scalar registers, issue, retirement and faults. -/

namespace Sys2Proof.Machine

/-! Scalar registers (R80) -/

@[simp] theorem Core.sget_zero (c : Core) : c.sget 0 = 0 := rfl

@[simp] theorem Core.sset_zero (c : Core) (v : W64) (b : Bool) : c.sset 0 v b = c := rfl

/-! Issue (R64, R79) -/

/-- An instruction of a class whose phase the core is in takes its effect at once. -/
theorem State.issue_ready {s : State} {n : CoreNo} {k : InstrClass} (h : s.ready n k = true) (body : State → State) :
    s.issue n k body = body s := by
  simp only [State.ready, Bool.and_eq_true, decide_eq_true_eq] at h
  obtain ⟨⟨⟨h1, h2⟩, h3⟩, h4⟩ := h
  unfold State.issue
  simp only [h1, Bool.not_true, Bool.false_eq_true, if_false]
  rw [if_neg (by omega), if_neg h3]
  unfold State.inPhase
  unfold InstrClass.inPhase at h4
  cases k <;> cases hp : (s.core n).phase <;> simp_all

/-- A core that cannot issue is left alone. -/
theorem State.issue_idle {s : State} {n : CoreNo} (h : (s.core n).canIssue = false) (k : InstrClass) (body : State → State) :
    s.issue n k body = s := by
  unfold State.issue; simp [h]

@[simp] theorem State.finishCore_ok (s : State) (n : CoreNo) (c : Core) : s.finishCore n (.ok c) = (s.setCore n c).retire n := rfl

@[simp] theorem State.finishCore_error (s : State) (n : CoreNo) (e : CoreErr) : s.finishCore n (.error e) = s.coreFault n e := rfl

/-! Counting and retirement (R79, R495) -/

/-- Replacing a core by itself changes nothing. -/
theorem State.setCore_self (s : State) (n : CoreNo) : s.setCore n (s.core n) = s := by
  have h : s.cores.set n.val (s.cores[n.val]) n.isLt = s.cores := by
    apply Vector.ext
    intro i hi
    rw [Vector.getElem_set]
    split
    · subst_vars; rfl
    · rfl
  show { s with cores := s.cores.set n.val (s.cores[n.val]) n.isLt } = s
  rw [h]

/-- Counting an event of a core changes the counters of that core alone. -/
theorem State.countCore_spec (s : State) (n : CoreNo) (ev inc : Nat) :
    ∃ cs, s.countCore n ev inc = s.setCore n { s.core n with counters := cs } := by
  unfold State.countCore
  split
  · exact ⟨(s.core n).counters, (State.setCore_self s n).symm⟩
  · exact ⟨_, rfl⟩

/-- Everything retirement does: CORE_PC moves to the next word, and the core's counters may count. -/
theorem State.retire_spec (s : State) (n : CoreNo) :
    ∃ cs, s.retire n = s.setCore n { s.core n with regs := { (s.core n).regs with pc := (s.core n).regs.pc + 16 }, counters := cs } := by
  unfold State.retire
  obtain ⟨cs, h⟩ := State.countCore_spec (s.modCore n (fun c => { c with regs := { c.regs with pc := c.regs.pc + 16 } })) n 0x1C 1
  refine ⟨cs, h.trans ?_⟩
  simp [State.modCore, State.setCore, State.core]

/-- What posting an event changes: the event flags of the core and the interrupt of one rubric core (R84). -/
theorem State.postEvent_spec (s : State) (n : CoreNo) (ended : Bool) :
    ∃ rb, s.postEvent n ended = { s.modCore n (fun c => { c with ev := { c.ev with pending := true, ended := c.ev.ended || ended } }) with rubric := rb } := by
  unfold State.postEvent
  dsimp only
  split
  · split
    · exact ⟨_, rfl⟩
    · exact ⟨_, rfl⟩
  · exact ⟨_, rfl⟩

/-- What passing the token on changes: the mesh alone (R66). -/
theorem State.dropToken_spec (s : State) (n : CoreNo) : ∃ m, s.dropToken n = { s with mesh := m } := by
  unfold State.dropToken
  split
  · exact ⟨_, rfl⟩
  · exact ⟨s.mesh, rfl⟩

/-- Only the mesh's token tables change when the token is passed on (R66). -/
theorem State.dropToken_tables (s : State) (n : CoreNo) :
    ∃ h l, s.dropToken n = { s with mesh := { s.mesh with holder := h, lastHolder := l } } := by
  unfold State.dropToken
  split
  · exact ⟨_, _, rfl⟩
  · exact ⟨s.mesh.holder, s.mesh.lastHolder, rfl⟩

/-- What beginning a wait changes: the wait of the core, and the mesh's token (R67). -/
theorem State.beginWait_spec (s : State) (n : CoreNo) (w : CoreWait) :
    ∃ h l, s.beginWait n w = { s.setCore n { s.core n with wait := some w } with mesh := { s.mesh with holder := h, lastHolder := l } } := by
  unfold State.beginWait State.dropToken
  dsimp only
  split
  · split
    · exact ⟨_, _, rfl⟩
    · exact ⟨s.mesh.holder, s.mesh.lastHolder, rfl⟩
  · exact ⟨s.mesh.holder, s.mesh.lastHolder, rfl⟩

/-- What ending a wait changes: the wait of the core and its request for the token (R67). -/
theorem State.endWait_spec (s : State) (n : CoreNo) :
    ∃ b, s.endWait n = s.setCore n { s.core n with wait := none, flags := { (s.core n).flags with tokenWait := b } } := ⟨_, rfl⟩

/-! The runs of the matrix and attention classes (R59, R87) -/

/-- Using lines of the rotary cache changes the cache alone (R59). -/
theorem Core.useLines_spec (lines : List Nat) : ∀ c : Core, ∃ rot, lines.foldl (fun (x : Core) l => match x.rotLine l with
    | some y => x.rotUse y
    | none => x) c = { c with rot := rot } := by
  induction lines with
  | nil => exact fun c => ⟨c.rot, rfl⟩
  | cons l r ih =>
    intro c
    rw [List.foldl_cons]
    cases c.rotLine l with
    | none => exact ih c
    | some y => exact ih (c.rotUse y)

/-- R59: with every line present the body runs, and of its result only the core's rotary cache changes. -/
theorem State.withRot_present {s : State} {n : CoreNo} {lines : List Nat} (h : ∀ l ∈ lines, ((s.core n).rotLine l).isSome = true)
    (body : State → State) :
    ∃ rot, s.withRot n lines body = (body s).setCore n { (body s).core n with rot := rot, rotHeld := [] } := by
  have h1 : lines.filter (fun l => ((s.core n).rotLine l).isNone) = [] :=
    List.filter_eq_nil_iff.2 (fun l hl => by simp [Option.isNone_iff_eq_none, Option.ne_none_iff_isSome, h l hl])
  obtain ⟨rot, h2⟩ := Core.useLines_spec lines ((body s).core n)
  refine ⟨rot, ?_⟩
  unfold State.withRot
  simp only [h1, List.take_nil, ne_eq, not_true_eq_false, if_false]
  exact congrArg (fun c : Core => (body s).setCore n { c with rotHeld := [] }) h2

/-- R59: with a line missing nothing of the body runs: the core stalls and asks for the first 32 missing lines. -/
theorem State.withRot_missing {s : State} {n : CoreNo} {lines : List Nat} {l : Nat} (hl : l ∈ lines) (h : ((s.core n).rotLine l).isSome = false)
    (body : State → State) :
    ∃ cs, s.withRot n lines body = s.setCore n { s.core n with
      rotFills := (lines.filter (fun l => ((s.core n).rotLine l).isNone)).take 32,
      flags := { (s.core n).flags with rotStall := true }, counters := cs } := by
  have h1 : (lines.filter (fun l => ((s.core n).rotLine l).isNone)).take 32 ≠ [] := by
    intro h2
    rw [List.take_eq_nil_iff] at h2
    rcases h2 with h2 | h2
    · exact absurd h2 (by norm_num)
    · have := List.filter_eq_nil_iff.1 h2 l hl
      simp only [Option.isSome_eq_false_iff] at h
      exact this h
  unfold State.withRot
  dsimp only
  rw [if_pos h1]
  obtain ⟨cs, h3⟩ := State.countCore_spec (s.modCore n (fun c => { c with
    rotFills := (lines.filter (fun l => ((s.core n).rotLine l).isNone)).take 32, flags := { c.flags with rotStall := true } })) n 0x0B
    ((lines.filter (fun l => ((s.core n).rotLine l).isNone)).take 32).length
  refine ⟨cs, h3.trans ?_⟩
  simp [State.modCore, State.setCore, State.core]

/-- A matrix run that ends whole retires: the core as the run left it, CORE_PC at the next instruction. -/
theorem State.finishMat_ok {s : State} {n : CoreNo} {r : MatRun × Option CoreErr} (h : r.2 = none) :
    ∃ cs, s.finishMat n r = ({ s with draws := r.1.draws } : State).setCore n
      { r.1.core with regs := { r.1.core.regs with pc := r.1.core.regs.pc + 16 }, counters := cs } := by
  unfold State.finishMat
  rw [h]
  dsimp only
  obtain ⟨c1, h1⟩ := State.countCore_spec (({ s with draws := r.1.draws } : State).setCore n r.1.core) n 0x0D r.1.sat
  rw [h1]
  obtain ⟨c2, h2⟩ := State.retire_spec ((({ s with draws := r.1.draws } : State).setCore n r.1.core).setCore n
    { (({ s with draws := r.1.draws } : State).setCore n r.1.core).core n with counters := c1 }) n
  refine ⟨c2, h2.trans ?_⟩
  simp [State.setCore, State.core]

/-- An attention run that ends whole retires: the core as the run left it, CORE_PC at the next instruction. -/
theorem State.finishAttn_ok {s : State} {n : CoreNo} {r : AttnRun × Option CoreErr} (h : r.2 = none) :
    ∃ cs, s.finishAttn n r = ({ s with draws := r.1.x.draws } : State).setCore n
      { r.1.x.core with regs := { r.1.x.core.regs with pc := r.1.x.core.regs.pc + 16 }, counters := cs } := by
  unfold State.finishAttn
  rw [h]
  dsimp only
  generalize hu : ({ s with draws := r.1.x.draws } : State).setCore n r.1.x.core = u
  have count (t : State) (ht : ∃ cs, t = u.setCore n { u.core n with counters := cs }) (ev k : Nat) :
      ∃ cs, t.countCore n ev k = u.setCore n { u.core n with counters := cs } := by
    obtain ⟨c1, rfl⟩ := ht
    obtain ⟨c2, h2⟩ := State.countCore_spec (u.setCore n { u.core n with counters := c1 }) n ev k
    exact ⟨c2, h2.trans (by simp [State.setCore, State.core])⟩
  obtain ⟨c1, h1⟩ := count _ (count _ (count _ (count _ (count u ⟨(u.core n).counters, (State.setCore_self u n).symm⟩ 0x0D r.1.x.sat)
    0x0E r.1.run) 0x0F r.1.skip) 0x10 r.1.masked) 0x11 r.1.ds
  rw [h1]
  obtain ⟨c2, h2⟩ := State.retire_spec (u.setCore n { u.core n with counters := c1 }) n
  refine ⟨c2, h2.trans ?_⟩
  subst hu
  simp [State.setCore, State.core]

/-! Core faults (R74, R75, R462) -/

/-- Passing the token on changes no core and no memory. -/
theorem State.dropToken_core (s : State) (n k : CoreNo) : (s.dropToken n).core k = s.core k := by
  obtain ⟨m, h⟩ := State.dropToken_spec s n; rw [h]; rfl

/-- What a core fault leaves of a core's stores and of memory: all of it, whether or not a cut takes effect with it. -/
theorem State.coreFaultAt_mem (s : State) (n : CoreNo) (pc : W64) (e : CoreErr) :
    ((s.coreFaultAt n pc e).core n).mem = (s.core n).mem ∧ (s.coreFaultAt n pc e).mem = s.mem ∧ (s.coreFaultAt n pc e).fol = s.fol := by
  have hi : ∀ c : Core, c.applyInval.mem = c.mem := by intro c; unfold Core.applyInval; split <;> rfl
  have hd := State.dropToken_spec s n
  obtain ⟨ms, hd⟩ := hd
  have hb : ∀ t : State, ((t.atBoundary n).core n).mem = (t.core n).mem ∧ (t.atBoundary n).mem = t.mem ∧ (t.atBoundary n).fol = t.fol := by
    intro t
    unfold State.atBoundary
    split
    · obtain ⟨m2, h2⟩ := State.dropToken_spec (t.detachCore n) n
      unfold State.cutCore State.cutRecord
      rw [h2]
      refine ⟨?_, ?_, ?_⟩
      · rw [State.report_core]
        show (State.core _ n).mem = _
        simp [State.core, State.draw, State.modCore, State.setCore, State.detachCore]
      · rw [State.report_mem]; rfl
      · rw [State.report_fol]; rfl
    · exact ⟨rfl, rfl, rfl⟩
  unfold State.coreFaultAt
  dsimp only
  split
  · rw [State.report_core, State.report_mem, State.report_fol]; exact ⟨rfl, rfl, rfl⟩
  · obtain ⟨h1, h2, h3⟩ := hb (((s.dropToken n).modCore n (fun c => { c.applyInval with
      mode := .faulted, phase := .none, nextPhase := .none, wait := none, rotFills := [], rotHeld := [],
      fault := ⟨BitVec.ofNat 16 e.code, BitVec.ofNat 3 e.resource, e.multi, true, pc, BitVec.ofNat 32 e.tile, BitVec.ofNat 32 e.need, BitVec.ofNat 32 e.have_⟩,
      flags := { c.applyInval.flags with tokenWait := false, rotStall := false, haltReq := false, ending := false } })).report (s.coreRecord n pc e))
    refine ⟨h1.trans ?_, h2.trans ?_, h3.trans ?_⟩
    · rw [State.report_core, State.core_modCore, if_pos rfl, State.dropToken_core]; exact hi _
    · rw [State.report_mem, hd]; rfl
    · rw [State.report_fol, hd]; rfl

end Sys2Proof.Machine
end

