-- ==== Sys2Proof/Laws/Counters.lean ====
section
/-! SUPPORT. What a tick does to the counters and what it leaves. -/

namespace Sys2Proof.Machine

@[simp] theorem State.countTick_mem (s : State) : s.countTick.mem = s.mem := by
  unfold State.countTick; split <;> rfl

@[simp] theorem State.countTick_fol (s : State) : s.countTick.fol = s.fol := by
  unfold State.countTick; split <;> rfl

@[simp] theorem State.countTick_pending (s : State) : s.countTick.pending = s.pending := by
  unfold State.countTick; split <;> rfl

/-- R491: frozen counters stand. -/
theorem State.countTick_frozen (s : State) (h : s.pmc.frozen = true) : s.countTick.cores = s.cores ∧ s.countTick.pmc = s.pmc := by
  unfold State.countTick; rw [h]; split <;> exact ⟨rfl, rfl⟩

theorem State.countTick_core (s : State) (n : CoreNo) (h0 : s.mainOn = true) (h : s.pmc.frozen = false) :
    s.countTick.core n = (s.core n).countTick s.cclks (s.ringWaits n) (fun i => Config.freeNat (s.draws + 256 + 8 * n.val + i)) := by
  have e : s.countTick.cores = s.tickCores := by
    unfold State.countTick
    rw [if_neg (by rw [h0]; simp)]
    exact if_neg (by rw [h]; simp)
  unfold State.core
  simp only [e, State.tickCores, Vector.getElem_ofFn]
  rfl

/-- R487: a tick changes of a core its counters alone. -/
theorem Core.countTick_frame (c : Core) (k : Nat) (r : Bool) (f : Nat → Nat) :
    c.countTick k r f = { c with cycles := (c.countTick k r f).cycles, counters := (c.countTick k r f).counters } := by
  unfold Core.countTick; split <;> rfl

theorem Core.countTick_cycles (c : Core) (k : Nat) (r : Bool) (f : Nat → Nat) (h1 : c.mode ≠ .off) (h2 : c.mode ≠ .cut) :
    (c.countTick k r f).cycles = c.cycles + BitVec.ofNat 64 k := by
  unfold Core.countTick
  rw [if_neg (by rintro (x | x); exact h1 x; exact h2 x)]

end Sys2Proof.Machine
end

