-- ==== Sys2Proof/Laws/Flits.lean ====
section
/-! SUPPORT. Laws of flits: little-endian fields, the header and body of a flit (R322), the flits that a port sends. -/

namespace Sys2Proof.Machine

@[simp] theorem leBytes_length (n v : Nat) : (leBytes n v).length = n := by
  induction n generalizing v with
  | zero => rfl
  | succ n ih => simp [leBytes, ih]

/-- Little-endian bytes spell the number they were made of. -/
theorem ofLeBytes_leBytes (n v : Nat) : ofLeBytes (leBytes n v) = v % 256 ^ n := by
  induction n generalizing v with
  | zero => simp [leBytes, ofLeBytes, Nat.mod_one]
  | succ n ih =>
    have h : v % 256 ^ (n + 1) = v % 256 + 256 * (v / 256 % 256 ^ n) := by rw [Nat.pow_succ', Nat.mod_mul]
    rw [h, leBytes, ofLeBytes, ih]
    rfl

/-- Bytes spell a number below 256 to their count. -/
theorem ofLeBytes_lt (bs : List Byte) : ofLeBytes bs < 256 ^ bs.length := by
  induction bs with
  | nil => simp [ofLeBytes]
  | cons b r ih =>
    have := b.isLt
    rw [ofLeBytes, List.length_cons, Nat.pow_succ]
    omega

/-- A field of `n` bytes is below 256 to the n. -/
theorem leField_lt (b : List Byte) (o n : Nat) : leField b o n < 256 ^ n := by
  unfold leField
  refine lt_of_lt_of_le (ofLeBytes_lt _) (Nat.pow_le_pow_right (by decide) ?_)
  rw [List.length_take]
  exact Nat.min_le_left _ _

@[simp] theorem flitHead_length (t : FlitType) (lane : Fin 4) (g : BitVec 12) (i : Nat) (e k : Bool) : (flitHead t lane g i e k).length = 4 :=
  leBytes_length _ _

/-- R322: the body of a flit is what it was made of. -/
theorem flitBody_flitOf {h b : List Byte} (hh : h.length = 4) (hb : b.length = 244) : flitBody (flitOf h b) = b := by
  unfold flitBody flitOf
  rw [List.append_assoc, List.drop_append_of_le_length (by omega), List.drop_eq_nil_of_le (by omega), List.nil_append,
    List.take_append_of_le_length (by omega), List.take_of_length_le (by omega)]

/-- R323: the type of a flit is the one in its header. -/
theorem flitType_flitOf (t : FlitType) (lane : Fin 4) (g : BitVec 12) (i : Nat) (e k : Bool) (b : List Byte) (hi : i < 8) :
    flitType (flitOf (flitHead t lane g i e k) b) = some t := by
  unfold flitType
  have h1 : leField (flitOf (flitHead t lane g i e k) b) 0 4 =
      t.code + 8 * lane.val + 32 * g.toNat + 2 ^ 17 * i + flagAt e 20 + flagAt k 21 := by
    unfold leField flitOf
    rw [List.drop_zero, List.append_assoc, List.take_append_of_le_length (by simp), List.take_of_length_le (by simp)]
    unfold flitHead
    rw [ofLeBytes_leBytes, Nat.mod_eq_of_lt]
    have := lane.isLt
    have := g.isLt
    cases t <;> cases e <;> cases k <;> simp only [FlitType.code, flagAt] <;> norm_num <;> omega
  rw [h1]
  have h2 : bits (t.code + 8 * lane.val + 32 * g.toNat + 2 ^ 17 * i + flagAt e 20 + flagAt k 21) 0 3 = t.code := by
    unfold bits
    rw [Nat.shiftRight_zero]
    cases t <;> cases e <;> cases k <;> simp only [FlitType.code, flagAt] <;> norm_num <;> omega
  rw [h2]
  cases t <;> rfl

@[simp] theorem gcmTag_length (k : BitVec 256) (iv a c : List Byte) : (gcmTag k iv a c).length = 16 := by
  simp [gcmTag, beBytes]

/-- R327: a sealed body fills the flit. -/
@[simp] theorem sealBody_length (f : List Byte) (u : W64) (k : Option (BitVec 288)) : (sealBody f u k).length = 244 := by
  have h (b : List Byte) : (b.take 212 ++ leBytes 8 u.toNat ++ List.replicate 8 0).length = (b.take 212).length + 16 := by simp
  unfold sealBody
  dsimp only
  rw [List.length_append, h, List.length_take, List.length_append, List.length_replicate]
  cases k with
  | none => rw [List.length_replicate]; omega
  | some k => unfold bodyTag; rw [gcmTag_length]; omega

/-- R327: a sealed body begins with its fields. -/
theorem sealBody_take {f : List Byte} {n : Nat} (h1 : n ≤ f.length) (h2 : n ≤ 212) (u : W64) (k : Option (BitVec 288)) :
    (sealBody f u k).take n = f.take n := by
  unfold sealBody
  dsimp only
  rw [List.append_assoc, List.append_assoc, List.take_append_of_le_length (by rw [List.length_take, List.length_append]; omega),
    List.take_take, Nat.min_eq_left h2, List.take_append_of_le_length h1]

/-- R322: a bit of the CRC-64 keeps it below 2^64. -/
theorem crc64Bit_lt {c : Nat} (h : c < 2 ^ 64) : crc64Bit c < 2 ^ 64 := by
  unfold crc64Bit
  split
  · exact Nat.xor_lt_two_pow (Nat.mod_lt _ (by decide)) (by decide)
  · rename_i h1
    rw [Nat.testBit_eq_decide_div_mod_eq, decide_eq_true_eq] at h1
    omega

/-- R322: the lcrc of any bytes fits its field. -/
theorem crc64_lt (bs : List Byte) : crc64 bs < 2 ^ 64 := by
  have hb (b : Byte) (c : Nat) (h : c < 2 ^ 64) : crc64Byte c b < 2 ^ 64 := by
    have h8 (l : List Nat) : ∀ x < 2 ^ 64, l.foldl (fun x _ => crc64Bit x) x < 2 ^ 64 := by
      induction l with
      | nil => exact fun x hx => hx
      | cons a r ih => exact fun x hx => ih _ (crc64Bit_lt hx)
    refine h8 _ _ (Nat.xor_lt_two_pow h ?_)
    rw [Nat.shiftLeft_eq]
    have := b.isLt
    omega
  have hl (l : List Byte) : ∀ c < 2 ^ 64, l.foldl crc64Byte c < 2 ^ 64 := by
    induction l with
    | nil => exact fun c hc => hc
    | cons b r ih => exact fun c hc => ih _ (hb b c hc)
  exact Nat.xor_lt_two_pow (hl _ _ (by decide)) (by decide)

/-- R322: a flit that is made is correct. -/
theorem flitOk_flitOf {h b : List Byte} (hh : h.length = 4) (hb : b.length = 244) : flitOk (flitOf h b) = true := by
  have h1 : (flitOf h b).take 248 = h ++ b := by
    unfold flitOf
    rw [List.take_append_of_le_length (by simp; omega), List.take_of_length_le (by simp; omega)]
  have h2 : leField (flitOf h b) 248 8 = crc64 (h ++ b) := by
    unfold leField flitOf
    rw [List.drop_append_of_le_length (by simp; omega), List.drop_eq_nil_of_le (by simp; omega), List.nil_append,
      List.take_of_length_le (by simp), ofLeBytes_leBytes, Nat.mod_eq_of_lt]
    exact crc64_lt _
  simp [flitOk, h1, h2]
  simp [flitOf, hh, hb]

/-- R322: the header of a flit that is made. -/
theorem leField_flitOf {h : List Byte} (hh : h.length = 4) (b : List Byte) : leField (flitOf h b) 0 4 = ofLeBytes h := by
  unfold leField flitOf
  rw [List.drop_zero, List.append_assoc, List.take_append_of_le_length (by omega), List.take_of_length_le (by omega)]

/-- A field that lies in the first of two runs of bytes. -/
theorem leField_append {b : List Byte} {o n : Nat} (h : o + n ≤ b.length) (r : List Byte) : leField (b ++ r) o n = leField b o n := by
  unfold leField
  rw [List.drop_append_of_le_length (by omega), List.take_append_of_le_length (by rw [List.length_drop]; omega)]

/-- R295: a CRC-32C fits its field. -/
theorem crcOf_lt (bs : List Byte) : crcOf bs < 2 ^ 32 := by
  have h1 (c : Nat) (h : c < 2 ^ 32) : crcBit 0x82F63B78 c < 2 ^ 32 := by
    unfold crcBit
    split
    · exact Nat.xor_lt_two_pow (by omega) (by decide)
    · omega
  have hb (b : Byte) (c : Nat) (h : c < 2 ^ 32) : crcByte 0x82F63B78 c b < 2 ^ 32 := by
    have h8 (l : List Nat) : ∀ x < 2 ^ 32, l.foldl (fun x _ => crcBit 0x82F63B78 x) x < 2 ^ 32 := by
      induction l with
      | nil => exact fun x hx => hx
      | cons a r ih => exact fun x hx => ih _ (h1 x hx)
    exact h8 _ _ (Nat.xor_lt_two_pow h (lt_trans b.isLt (by decide)))
  have hl (l : List Byte) : ∀ c < 2 ^ 32, l.foldl (crcByte 0x82F63B78) c < 2 ^ 32 := by
    induction l with
    | nil => exact fun c hc => hc
    | cons b r ih => exact fun c hc => ih _ (hb b c hc)
  exact Nat.xor_lt_two_pow (hl _ _ (by decide)) (by decide)

/-- R295, R335: bytes followed by their check hold it in the field after them. -/
theorem leField_crcOf {b : List Byte} {n : Nat} (h : b.length = n) (d r : List Byte) : leField (b ++ leBytes 4 (crcOf d) ++ r) n 4 = crcOf d := by
  unfold leField
  rw [List.append_assoc, List.drop_append_of_le_length (by omega), List.drop_eq_nil_of_le (by omega), List.nil_append,
    List.take_append_of_le_length (by simp), List.take_of_length_le (by simp), ofLeBytes_leBytes, Nat.mod_eq_of_lt]
  exact crcOf_lt d

/-- R327: what a sealed body holds before its tag. -/
def sealPlain (f : List Byte) (u : W64) : List Byte := (f ++ List.replicate 212 0).take 212 ++ leBytes 8 u.toNat ++ List.replicate 8 0

theorem sealPlain_length (f : List Byte) (u : W64) : (sealPlain f u).length = 228 := by
  simp only [sealPlain, List.length_append, List.length_take, List.length_replicate, leBytes_length]
  omega

theorem sealBody_eq (f : List Byte) (u : W64) (k : BitVec 288) : sealBody f u (some k) = sealPlain f u ++ bodyTag k (sealPlain f u) := rfl

/-- R333: the tag is over bytes [227:0] alone. -/
theorem bodyTag_append {b : List Byte} (hb : b.length = 228) (k : BitVec 288) (t : List Byte) : bodyTag k (b ++ t) = bodyTag k b := by
  have h1 : bodyUctr (b ++ t) = bodyUctr b := by
    unfold bodyUctr leField
    rw [List.drop_append_of_le_length (by omega), List.take_append_of_le_length (by rw [List.length_drop]; omega)]
  unfold bodyTag
  rw [h1, List.take_append_of_le_length (by omega)]

/-- R333: the flit of a sealed body verifies under its key, and under no other tag. -/
theorem bodyTagOk_flitOf {h : List Byte} (hh : h.length = 4) (f : List Byte) (u : W64) (k : BitVec 288) (t : List Byte) (ht : t.length = 16) :
    bodyTagOk (flitOf h (sealPlain f u ++ t)) k = decide (t = bodyTag k (sealPlain f u)) := by
  have hp := sealPlain_length f u
  unfold bodyTagOk
  rw [flitBody_flitOf hh (by rw [List.length_append, hp, ht]), bodyTag_append hp, List.drop_append_of_le_length (by omega),
    List.drop_eq_nil_of_le (by omega), List.nil_append]

/-- R324, R333: a group of one flit verifies under its tag and under no other. -/
theorem groupTagOk_flitOf {h ct t : List Byte} (hh : h.length = 4) (hc : ct.length = 228) (ht : t.length = 16) (b : BitVec 288) (n : Nat) :
    groupTagOk [flitOf h (ct ++ t)] b n = decide (t = gcmTag (blockKey b) (groupIv b n) h ct) := by
  have h1 : flitBody (flitOf h (ct ++ t)) = ct ++ t := flitBody_flitOf hh (by rw [List.length_append, hc, ht])
  have h2 : (flitOf h (ct ++ t)).take 4 = h := by
    unfold flitOf
    rw [List.append_assoc, List.take_append_of_le_length (by omega), List.take_of_length_le (by omega)]
  unfold groupTagOk groupTag groupSealed groupBody
  simp only [List.flatMap_cons, List.flatMap_nil, List.append_nil, h1, h2, List.length_singleton]
  rw [List.drop_append_of_le_length (by omega), List.drop_eq_nil_of_le (by omega), List.nil_append,
    List.take_append_of_le_length (by omega), List.take_of_length_le (by omega)]

/-- What sending flits does: their output, in whole codewords, and the port's part of a codeword. -/
theorem State.sendFlits_spec (s : State) (p : PortNo) (fs : List (List Byte)) :
    ∃ line out, s.sendFlits p fs = { s.setPort p { s.port p with line := line } with out := s.out ++ out } ∧ .flits p fs ∈ out := by
  have key : ∀ (l : List Nat) (w : Nat → List (List Nat)) (t : State), ∃ out,
      l.foldl (fun t i => t.emit (.codeword p (w i))) t = { t with out := t.out ++ out } := by
    intro l w
    induction l with
    | nil => exact fun t => ⟨[], by simp⟩
    | cons i r ih =>
      intro t
      obtain ⟨out, h⟩ := ih (t.emit (.codeword p (w i)))
      refine ⟨.codeword p (w i) :: out, ?_⟩
      rw [List.foldl_cons, h]
      simp [State.emit]
  unfold State.sendFlits
  dsimp only
  generalize (s.port p).line ++ fs.flatMap flitBlocks = bs
  obtain ⟨out, h⟩ := key (List.range (bs.length / 20)) (fun i => codewordLanes ((bs.drop (20 * i)).take 20))
    ((s.modPort p (fun x => { x with line := bs.drop (20 * (bs.length / 20)) })).emit (.flits p fs))
  refine ⟨bs.drop (20 * (bs.length / 20)), .flits p fs :: out, h.trans ?_, by simp⟩
  have e : (s.out ++ [.flits p fs]) ++ out = s.out ++ (.flits p fs :: out) := by simp
  exact congrArg (fun o => { s.setPort p { s.port p with line := bs.drop (20 * (bs.length / 20)) } with out := o }) e

/-- Setting a port twice leaves the second value. -/
theorem State.setPort_setPort (s : State) (p : PortNo) (x y : Port) : (s.setPort p x).setPort p y = s.setPort p y := by
  simp [State.setPort, State.modLink]

/-- What sending a sealed flit does (R327, R333): the port's counter and its line, and one flit of its type and fields. -/
theorem State.sendSealed_spec (s : State) (p : PortNo) (t : FlitType) (fields : List Byte) :
    ∃ u line out f, s.sendSealed p t fields = { s.setPort p { s.port p with uctrTx := u, line := line } with out := s.out ++ out } ∧
      .flits p [f] ∈ out ∧ flitType f = some t ∧ (∀ n, n ≤ fields.length → n ≤ 212 → (flitBody f).take n = fields.take n) := by
  unfold State.sendSealed
  dsimp only
  obtain ⟨line, out, h1, h2⟩ := State.sendFlits_spec
    (s.setPort p { s.port p with uctrTx := if (s.port p).encOn then (s.port p).uctrTx + 1 else (s.port p).uctrTx }) p
    [flitOf (flitHead t 0 0 0 false (s.port p).keyPhase) (sealBody fields (s.port p).uctrTx (s.port p).txKey)]
  refine ⟨if (s.port p).encOn then (s.port p).uctrTx + 1 else (s.port p).uctrTx, line, out,
    flitOf (flitHead t 0 0 0 false (s.port p).keyPhase) (sealBody fields (s.port p).uctrTx (s.port p).txKey), h1.trans ?_, h2, flitType_flitOf t 0 0 0 false _ _ (by decide), fun n ha hb => ?_⟩
  · rw [State.setPort_setPort, State.port_setPort, if_pos rfl]
    rfl
  · rw [flitBody_flitOf (flitHead_length _ _ _ _ _ _) (sealBody_length _ _ _), sealBody_take ha hb]

end Sys2Proof.Machine
end

