-- ==== Sys2Proof/Laws/Host.lean ====
section
/-! SUPPORT. What ending an order, and posting its completion, can change: the host interface, the log, the warden's counts and what is
sent out; of the host interface, neither the submission queues nor (but for the order itself) the orders under way. -/

namespace Sys2Proof.Machine

/-! What a record leaves of the host interface -/

/-- The parts of the host interface that a record or an interrupt never changes. -/
def HostState.core0 (h : HostState) : HostState :=
  { h with irq := IrqCfg.reset, windows := Vector.replicate 8 PartWindow.reset, msixPending := [] }

theorem State.raiseVector_host0 (s : State) (fn v : Nat) : (s.raiseVector fn v).host.core0 = s.host.core0 := by
  unfold State.raiseVector; dsimp only; split <;> rfl

theorem State.partitionEvent_host0 (s : State) (p : PartNo) : (s.partitionEvent p).host.core0 = s.host.core0 := by
  unfold State.partitionEvent; dsimp only
  split
  · split
    · rw [State.raiseVector_host0]; rfl
    · rfl
  · rfl

theorem State.report_host0 (s : State) (r : Report) : (s.report r).host.core0 = s.host.core0 := by
  unfold State.report
  extract_lets key sec u0 u
  split
  · rfl
  · unfold State.logRecord
    extract_lets seq pers rec0 k unread lg z1 z2 z3 z4 z5
    have h3 : z3.host.core0 = s.host.core0 := by
      have : z3.host = z2.host := State.notify_host z2 _ _ _
      rw [this]
    have h5 : z5.host.core0 = s.host.core0 := by
      show (State.host (if _ then _ else _)).core0 = _
      split
      · rw [State.raiseVector_host0]; exact h3
      · exact h3
    split
    · rw [State.partitionEvent_host0]; exact h5
    · exact h5

@[simp] theorem State.report_orders (s : State) (r : Report) : (s.report r).host.orders = s.host.orders :=
  (congrArg (fun h : HostState => h.orders) (State.report_host0 s r) :)

@[simp] theorem State.report_sqs (s : State) (r : Report) : (s.report r).host.sqs = s.host.sqs :=
  (congrArg (fun h : HostState => h.sqs) (State.report_host0 s r) :)

@[simp] theorem State.report_nextOrder (s : State) (r : Report) : (s.report r).host.nextOrder = s.host.nextOrder :=
  (congrArg (fun h : HostState => h.nextOrder) (State.report_host0 s r) :)

/-! Completions (R395, R396) -/

/-- Posting a completion changes only host memory, the completion queue and the interrupts. -/
theorem State.fireCq_keep (s : State) (c : Nat) : (s.fireCq c).core0 = s.core0 ∧ (s.fireCq c).host.orders = s.host.orders ∧
    (s.fireCq c).host.sqs = s.host.sqs ∧ (s.fireCq c).host.nextOrder = s.host.nextOrder := by
  unfold State.fireCq
  have h0 := fun u : State => State.raiseVector_host0 u (s.cq c).function.toNat (s.cq c).vector.toNat
  refine ⟨(State.raiseVector_core0 _ _ _).trans rfl, ?_, ?_, ?_⟩
  · exact (congrArg (fun h : HostState => h.orders) (h0 _) :)
  · exact (congrArg (fun h : HostState => h.sqs) (h0 _) :)
  · exact (congrArg (fun h : HostState => h.nextOrder) (h0 _) :)

theorem State.hostWrite_keep (s : State) (a : Nat) (bs : List Byte) (bad : Nat → Bool) : (s.hostWrite a bs bad).core0 = s.core0 ∧
    (s.hostWrite a bs bad).host.orders = s.host.orders ∧ (s.hostWrite a bs bad).host.sqs = s.host.sqs ∧
    (s.hostWrite a bs bad).host.nextOrder = s.host.nextOrder := by
  refine ⟨?_, ?_, ?_, ?_⟩ <;> simp only [State.hostWrite, State.core0, State.modHost]

theorem State.postCq_keep (s : State) (c : Nat) (x : Completion) : (s.postCq c x).core0 = s.core0 ∧ (s.postCq c x).host.orders = s.host.orders ∧
    (s.postCq c x).host.sqs = s.host.sqs ∧ (s.postCq c x).host.nextOrder = s.host.nextOrder := by
  unfold State.postCq
  dsimp only
  split
  · exact ⟨rfl, rfl, rfl, rfl⟩
  · unfold State.writeCq
    extract_lets q t s1 s2
    have h1 : s1.core0 = s.core0 ∧ s1.host.orders = s.host.orders ∧ s1.host.sqs = s.host.sqs ∧ s1.host.nextOrder = s.host.nextOrder :=
      State.hostWrite_keep s _ _ _
    clear_value s1
    have h2 : s2.core0 = s1.core0 ∧ s2.host.orders = s1.host.orders ∧ s2.host.sqs = s1.host.sqs ∧ s2.host.nextOrder = s1.host.nextOrder :=
      ⟨rfl, rfl, rfl, rfl⟩
    clear_value s2
    rw [h1.1, h1.2.1, h1.2.2.1, h1.2.2.2] at h2
    split
    · obtain ⟨a, b, c, d⟩ := State.fireCq_keep s2 c
      exact ⟨a.trans h2.1, b.trans h2.2.1, c.trans h2.2.2.1, d.trans h2.2.2.2⟩
    · exact h2

theorem State.recordOrder_keep (s : State) (p : PartNo) (cls : Byte) (tag : W64) (d : Done) : (s.recordOrder p cls tag d).core0 = s.core0 ∧
    (s.recordOrder p cls tag d).host.orders = s.host.orders ∧ (s.recordOrder p cls tag d).host.sqs = s.host.sqs ∧
    (s.recordOrder p cls tag d).host.nextOrder = s.host.nextOrder := by
  unfold State.recordOrder
  split
  · exact ⟨rfl, rfl, rfl, rfl⟩
  · exact ⟨State.report_core0 _ _, State.report_orders _ _, State.report_sqs _ _, State.report_nextOrder _ _⟩

/-- Everything the end of an order changes outside the log, the warden's counts, the host interface and what is sent out: nothing; and of
the orders under way it removes its own. -/
theorem State.endOrder_keep (s : State) (o : Order) (d : Done) : (s.endOrder o d).core0 = s.core0 ∧
    (s.endOrder o d).host.orders = s.host.orders.filter (fun x => decide (x.id ≠ o.id)) ∧ (s.endOrder o d).host.sqs = s.host.sqs := by
  unfold State.endOrder
  extract_lets s0 s1 i x s2
  split
  · exact ⟨rfl, rfl, rfl⟩
  · obtain ⟨a, b, c, _⟩ := State.recordOrder_keep s0 o.part o.cls o.tag d
    have h2 : s2.core0 = s.core0 ∧ s2.host.orders = s.host.orders.filter (fun x => decide (x.id ≠ o.id)) ∧ s2.host.sqs = s.host.sqs := by
      show State.core0 (if _ then _ else _) = _ ∧ (State.host (if _ then _ else _)).orders = _ ∧ (State.host (if _ then _ else _)).sqs = _
      split
      · exact ⟨a.trans rfl, b.trans rfl, c.trans rfl⟩
      · split
        · exact ⟨a.trans rfl, b.trans rfl, c.trans rfl⟩
        · exact ⟨a.trans rfl, b.trans rfl, c.trans rfl⟩
    obtain ⟨a, b, c, _⟩ := State.postCq_keep s2 (s2.sq o.sq).cq.toNat ⟨o.tag, BitVec.ofNat 16 o.sq, d.code, o.slot, o.gen, d.scope, d.mask, d.info, o.irq⟩
    exact ⟨a.trans h2.1, b.trans h2.2.1, c.trans h2.2.2⟩

@[simp] theorem State.endOrder_pending (s : State) (o : Order) (d : Done) : (s.endOrder o d).pending = s.pending :=
  (congrArg (fun t : State => t.pending) (State.endOrder_keep s o d).1 :)

@[simp] theorem State.endOrder_draws (s : State) (o : Order) (d : Done) : (s.endOrder o d).draws = s.draws :=
  (congrArg (fun t : State => t.draws) (State.endOrder_keep s o d).1 :)

@[simp] theorem State.endOrder_variant (s : State) (o : Order) (d : Done) : (s.endOrder o d).variant = s.variant :=
  (congrArg (fun t : State => t.variant) (State.endOrder_keep s o d).1 :)

@[simp] theorem State.endOrder_cores (s : State) (o : Order) (d : Done) : (s.endOrder o d).cores = s.cores :=
  (congrArg (fun t : State => t.cores) (State.endOrder_keep s o d).1 :)

@[simp] theorem State.endOrder_rubric (s : State) (o : Order) (d : Done) : (s.endOrder o d).rubric = s.rubric :=
  (congrArg (fun t : State => t.rubric) (State.endOrder_keep s o d).1 :)

@[simp] theorem State.endOrder_mesh (s : State) (o : Order) (d : Done) : (s.endOrder o d).mesh = s.mesh :=
  (congrArg (fun t : State => t.mesh) (State.endOrder_keep s o d).1 :)

@[simp] theorem State.endOrder_mem (s : State) (o : Order) (d : Done) : (s.endOrder o d).mem = s.mem :=
  (congrArg (fun t : State => t.mem) (State.endOrder_keep s o d).1 :)

@[simp] theorem State.endOrder_fol (s : State) (o : Order) (d : Done) : (s.endOrder o d).fol = s.fol :=
  (congrArg (fun t : State => t.fol) (State.endOrder_keep s o d).1 :)

@[simp] theorem State.endOrder_clock (s : State) (o : Order) (d : Done) : (s.endOrder o d).clock = s.clock :=
  (congrArg (fun t : State => t.clock) (State.endOrder_keep s o d).1 :)

@[simp] theorem State.endOrder_dieMap (s : State) (o : Order) (d : Done) : (s.endOrder o d).dieMap = s.dieMap :=
  (congrArg (fun t : State => t.dieMap) (State.endOrder_keep s o d).1 :)

@[simp] theorem State.endOrder_parts (s : State) (o : Order) (d : Done) : (s.endOrder o d).parts = s.parts :=
  (congrArg (fun t : State => t.parts) (State.endOrder_keep s o d).1 :)

@[simp] theorem State.endOrder_power (s : State) (o : Order) (d : Done) : (s.endOrder o d).power = s.power :=
  (congrArg (fun t : State => t.power) (State.endOrder_keep s o d).1 :)

@[simp] theorem State.endOrder_plug (s : State) (o : Order) (d : Done) : (s.endOrder o d).plug = s.plug :=
  (congrArg (fun t : State => t.plug) (State.endOrder_keep s o d).1 :)

@[simp] theorem State.endOrder_modu (s : State) (o : Order) (d : Done) : (s.endOrder o d).modu = s.modu :=
  (congrArg (fun t : State => t.modu) (State.endOrder_keep s o d).1 :)

@[simp] theorem State.endOrder_link (s : State) (o : Order) (d : Done) : (s.endOrder o d).link = s.link :=
  (congrArg (fun t : State => t.link) (State.endOrder_keep s o d).1 :)

@[simp] theorem State.endOrder_dict (s : State) (o : Order) (d : Done) : (s.endOrder o d).dict = s.dict :=
  (congrArg (fun t : State => t.dict) (State.endOrder_keep s o d).1 :)

@[simp] theorem State.endOrder_sec (s : State) (o : Order) (d : Done) : (s.endOrder o d).sec = s.sec :=
  (congrArg (fun t : State => t.sec) (State.endOrder_keep s o d).1 :)

@[simp] theorem State.endOrder_pmc (s : State) (o : Order) (d : Done) : (s.endOrder o d).pmc = s.pmc :=
  (congrArg (fun t : State => t.pmc) (State.endOrder_keep s o d).1 :)

end Sys2Proof.Machine
end

