-- ==== Sys2Proof/Laws/Folio.lean ====
section
/-! SUPPORT. What the operations of unified memory leave of the folio unit, and what sealing and ending a folio do to its slots and to the
epoch. -/

namespace Sys2Proof.Machine

/-- A fold of updates keeps what each update keeps. -/
theorem foldl_keeps {α β γ : Type} (g : α → β) (f : α → γ → α) (hf : ∀ t x, g (f t x) = g t) (l : List γ) (s : α) : g (l.foldl f s) = g s := by
  induction l generalizing s with
  | nil => rfl
  | cons x r ih => rw [List.foldl_cons, ih, hf]

/-! Updates that leave the folio unit alone -/

@[simp] theorem State.countDie_fol (s : State) (d : Nat) (e : DieEvent) : (s.countDie d e).fol = s.fol := by
  unfold State.countDie; split
  · rfl
  · split <;> rfl

@[simp] theorem State.disarmAt_fol (s : State) (a : Nat) : (s.disarmAt a).fol = s.fol := by unfold State.disarmAt; split <;> rfl

@[simp] theorem State.setHomeGran_fol (s : State) (g : Nat) (x : Gran) : (s.setHomeGran g x).fol = s.fol := by
  rw [← State.disarmAt_fol s (64 * g)]; unfold State.setHomeGran; exact State.modMem_fol _ _

@[simp] theorem State.poisonGran_fol (s : State) (g : Nat) : (s.poisonGran g).fol = s.fol := rfl

@[simp] theorem State.listRetire_fol (s : State) (f : Nat) : (s.listRetire f).fol = s.fol := by
  unfold State.listRetire; dsimp only
  split
  · rfl
  · split
    · rfl
    · simp

@[simp] theorem State.touchGran_fol (s : State) (k : Nat) (p : Option PartNo) (g : Nat) : (s.touchGran k p g).fol = s.fol := by
  unfold State.touchGran
  split
  · rfl
  · extract_lets f ev ev1 u hbm s0 s1 s2 s3
    have h0 : s0.fol = s.fol := by show State.fol (if _ then _ else _) = _; split <;> rfl
    have h3 : s3.fol = s.fol := by
      show (State.countDie _ _ _).fol = _
      rw [State.countDie_fol, State.report_fol]
      exact h0
    split
    · rw [State.listRetire_fol]; exact h3
    · exact h3

@[simp] theorem State.touch_fol (s : State) (k : Nat) (p : Option PartNo) (a n : Nat) : (s.touch k p a n).fol = s.fol := by
  unfold State.touch
  split
  · rfl
  · exact foldl_keeps State.fol _ (fun t x => State.touchGran_fol t k p x) _ _

@[simp] theorem State.writeHome_fol (s : State) (p : Piece) : (s.writeHome p).fol = s.fol := by
  unfold State.writeHome
  dsimp only
  split
  · exact State.setHomeGran_fol _ _ _
  · rw [State.setHomeGran_fol, State.touchGran_fol]

@[simp] theorem State.writeHomes_fol (s : State) (ps : List Piece) : (s.writeHomes ps).fol = s.fol :=
  foldl_keeps State.fol _ State.writeHome_fol ps s

@[simp] theorem State.plainWrite_fol (s : State) (w : Writer) (ps : List Piece) : (s.plainWrite w ps).fol = s.fol := by
  unfold State.plainWrite
  refine foldl_keeps State.fol _ (fun t p => ?_) ps s
  split
  · rfl
  · exact State.writeHome_fol t p

@[simp] theorem State.tablePoison_fol (s : State) (p : Option PartNo) (a : Nat) : (s.tablePoison p a).fol = s.fol := State.report_fol _ _

@[simp] theorem State.pfRecord_fol (s : State) (p : PartNo) (f : PFault) : (s.pfRecord p f).fol = s.fol := by
  unfold State.pfRecord; split
  · exact State.tablePoison_fol _ _ _
  · rfl

@[simp] theorem State.reportPF_fol (s : State) (p : PartNo) (d u : Nat) (l : Level) (f : PFault) : (s.reportPF p d u l f).fol = s.fol := by
  unfold State.reportPF; rw [State.report_fol, State.pfRecord_fol]

@[simp] theorem State.dvWrite_fol (s : State) (p : PartNo) (m a : Nat) (bs : List Byte) : (s.dvWrite p m a bs).fol = s.fol := by
  unfold State.dvWrite; split
  · exact State.reportPF_fol _ _ _ _ _ _
  · exact State.plainWrite_fol _ _ _

@[simp] theorem State.endJob_fol (s : State) (j : Job) (d : Done) : (s.endJob j d).fol = s.fol := by
  unfold State.endJob; split
  · exact State.endOrder_fol _ _ _
  · rfl

@[simp] theorem State.endRecord_fol (s : State) (j : Job) (a : Nat) (d : Done) : (s.endRecord j a d).fol = s.fol := by
  unfold State.endRecord; dsimp only
  rw [State.endJob_fol]
  split
  · rfl
  · exact State.dvWrite_fol _ _ _ _ _

@[simp] theorem State.endFolio_fol (s : State) (j : Job) (r : FolioRecord) : (s.endFolio j r).fol = s.fol := State.endRecord_fol _ _ _ _

@[simp] theorem State.setFrame_fol (s : State) (f : Nat) (e : FrameEnt) : (s.setFrame f e).fol = s.fol := by
  unfold State.setFrame; dsimp only; split <;> rfl

@[simp] theorem State.freeFrame_fol (s : State) (f : Nat) : (s.freeFrame f).fol = s.fol := by
  unfold State.freeFrame; split
  · rfl
  · exact State.setFrame_fol _ _ _

@[simp] theorem State.refFrame_fol (s : State) (f : Nat) (up : Bool) : (s.refFrame f up).fol = s.fol := by
  unfold State.refFrame; dsimp only; split
  · exact State.setFrame_fol _ _ _
  · split
    · exact State.setFrame_fol _ _ _
    · exact State.setFrame_fol _ _ _

@[simp] theorem State.refBy_fol (f n : Nat) (up : Bool) : ∀ s : State, (s.refBy f n up).fol = s.fol := by
  induction n with
  | zero => intro s; rfl
  | succ n ih => intro s; unfold State.refBy; rw [ih, State.refFrame_fol]

@[simp] theorem State.buffer_fol (s : State) (p : PartNo) (g : Nat) : (s.buffer p g).fol = s.fol := by
  unfold State.buffer; dsimp only
  split
  · rfl
  · split <;> rfl

@[simp] theorem State.performHeld_fol (s : State) (m : List (Nat × Nat)) (w : HeldWrite) : (s.performHeld m w).fol = s.fol := by
  unfold State.performHeld
  extract_lets f s1
  have h : s1.fol = s.fol := State.writeHomes_fol _ _
  split
  · exact h
  · exact h

@[simp] theorem State.release_fol (s : State) (ps : List Nat) (m : List (Nat × Nat)) : (s.release ps m).fol = s.fol := by
  unfold State.release; dsimp only
  rw [foldl_keeps State.fol _ (fun t w => State.performHeld_fol t m w)]
  rfl

@[simp] theorem State.tellWaiters_fol (s : State) (f : Folio) (r : FolioRecord) : (s.tellWaiters f r).fol = s.fol := by
  unfold State.tellWaiters
  extract_lets wr
  have hw : ∀ t a, (wr t a).fol = t.fol := by
    intro t a
    show State.fol (if _ then _ else _) = _
    split
    · rfl
    · exact State.dvWrite_fol _ _ _ _ _
  split
  · exact hw _ _
  · refine foldl_keeps State.fol _ (fun t w => ?_) _ _
    dsimp only
    split
    · exact hw _ _
    · split
      · exact hw _ _
      · rw [State.endOrder_fol]; exact hw _ _

/-! Updates that leave the slots and the epoch alone -/

/-- The folio unit's slots and epoch, which snapshots and pre-images do not touch. -/
def FolioState.core0 (f : FolioState) : Tab Folio × W32 := (f.slots, f.epoch)

theorem State.closeSnap_core (s : State) (i : Nat) (old : Bool) : (s.closeSnap i old).fol.core0 = s.fol.core0 := by
  unfold State.closeSnap; split
  · rfl
  · dsimp only; split <;> rfl

theorem State.keepPre_core (p : PartNo) (e : W32) (g n : Nat) : ∀ s : State, (s.keepPre p e g n).fol.core0 = s.fol.core0 := by
  induction n with
  | zero => intro s; rfl
  | succ n ih =>
    intro s
    unfold State.keepPre
    split
    · rfl
    · split
      · rw [ih, State.closeSnap_core]
      · rfl

theorem State.closeOld_core (s : State) : s.closeOld.fol.core0 = s.fol.core0 :=
  foldl_keeps (fun t : State => t.fol.core0) (fun (t : State) (e : Nat × Option Snap) => t.closeSnap e.1 true)
    (fun t e => State.closeSnap_core t e.1 true) _ s

theorem FX.put_s (x : FX) (p : Piece) : (x.put p).s.fol = x.s.fol ∧ (x.put p).id = x.id ∧ (x.put p).f.gen = x.f.gen ∧ (x.put p).f.span = x.f.span := by
  unfold FX.put; split
  · exact ⟨State.writeHome_fol _ _, rfl, rfl, rfl⟩
  · exact ⟨rfl, rfl, rfl, rfl⟩

/-- The seal point: the epoch advances by one, the folio is SEALED at it; the other slots are not touched. -/
theorem FX.sealPoint_facts (x : FX) : x.sealPoint.s.fol.epoch = x.s.fol.epoch + 1 ∧ x.sealPoint.s.fol.slots = x.s.fol.slots ∧
    x.sealPoint.id = x.id ∧ x.sealPoint.f.mode = .sealed ∧ x.sealPoint.f.sealEpoch = x.s.fol.epoch + 1 ∧ x.sealPoint.f.gen = x.f.gen := by
  unfold FX.sealPoint
  extract_lets e y0 y s1 s2 src s3 s4 s5 s6 s7 s8
  have hy : y.s.fol = x.s.fol := (foldl_keeps (fun z : FX => z.s.fol) _ (fun z a => (FX.put_s z _).1) _ _).trans
    (foldl_keeps (fun z : FX => z.s.fol) _ (fun z a => (FX.put_s z _).1) _ _)
  have hi : y.id = x.id := (foldl_keeps FX.id _ (fun z a => (FX.put_s z _).2.1) _ _).trans
    (foldl_keeps FX.id _ (fun z a => (FX.put_s z _).2.1) _ _)
  have hg : y.f.gen = x.f.gen := (foldl_keeps (fun z : FX => z.f.gen) _ (fun z a => (FX.put_s z _).2.2.1) _ _).trans
    (foldl_keeps (fun z : FX => z.f.gen) _ (fun z a => (FX.put_s z _).2.2.1) _ _)
  have h1 : s1.fol.core0 = x.s.fol.core0 := by
    rw [← hy]
    exact foldl_keeps (fun t : State => t.fol.core0) _ (fun t j => State.keepPre_core _ _ _ _ t) _ _
  have h2 : s2.fol = s1.fol := foldl_keeps State.fol _ (fun t j => by rw [State.buffer_fol, State.setHomeGran_fol]) _ _
  have h4 : s4.fol = s3.fol := foldl_keeps State.fol _ (fun t d => State.refBy_fol _ _ _ t) _ _
  have h5 : s5.fol = s4.fol := foldl_keeps State.fol _ (fun t d => State.setFrame_fol _ _ _) _ _
  have h7 : s7.fol.core0 = s6.fol.core0 := State.closeOld_core s6
  have h8 : s8.fol = s7.fol := State.countDie_fol _ _ _
  have h6 : s6.fol = s5.fol := rfl
  have h3 : s3.fol.core0 = (x.s.fol.slots, e) := by
    show (s2.fol.slots, e) = _
    rw [h2]; exact congrArg (fun t => (t.1, e)) h1
  have h : s8.fol.core0 = (x.s.fol.slots, e) := by rw [h8, h7, h6, h5, h4, h3]
  exact ⟨congrArg Prod.snd h, congrArg Prod.fst h, hi, rfl, rfl, hg⟩

theorem FX.judge_keep (x : FX) : x.judge.s = x.s ∧ x.judge.id = x.id ∧ x.judge.f.gen = x.f.gen ∧ x.judge.f.mode = x.f.mode := ⟨rfl, rfl, rfl, rfl⟩

/-- A scrape leaves the folio unit alone but for the folio at work. -/
theorem FX.scrapeBody_fol (x : FX) (c : W16) : (x.scrapeBody c).s.fol = x.s.fol ∧ (x.scrapeBody c).id = x.id ∧ (x.scrapeBody c).f.gen = x.f.gen := by
  unfold FX.scrapeBody
  extract_lets s0 s1 s2
  refine ⟨?_, rfl, rfl⟩
  have h0 : s0.fol = x.s.fol := foldl_keeps State.fol _ (fun t f => by split <;> simp) _ _
  have h1 : s1.fol = s0.fol := foldl_keeps State.fol _ (by intros; rfl) _ _
  show (State.countDie _ _ _).fol = _
  rw [State.countDie_fol, h1, h0]

/-! Slots -/

theorem FolioState.wf_iff (f : FolioState) : FolioState.wf f = true ↔ Tab.wf Folio.reset f.slots = true ∧ Tab.wf none f.snaps = true := by
  simp [FolioState.wf]

/-- A slot that takes a folio in use reads as that folio. -/
theorem State.slot_setSlot_used (s : State) (id : Nat) (f : Folio) (h : f.mode ≠ .free) : (s.setSlot id f).slot id = f :=
  Tab.get_set_listed (by rintro rfl; exact h rfl) _ _

/-- With the slots in canonical form, a slot reads as it was set. -/
theorem State.slot_setSlot {s : State} (h : Tab.wf Folio.reset s.fol.slots = true) (id k : Nat) (f : Folio) :
    (s.setSlot id f).slot k = if k = id then f else s.slot k := Tab.get_set h id k f

/-- R246 step 6: the end of a folio frees its slot and keeps its generation; every other slot and the epoch stay. -/
theorem State.endSlot_facts {s : State} (h : Tab.wf Folio.reset s.fol.slots = true) (id code outcome : Nat) (other : Option Nat) :
    ((s.endSlot id code outcome other).slot id) = { Folio.reset with gen := (s.slot id).gen } ∧
    (∀ k, k ≠ id → (s.endSlot id code outcome other).slot k = s.slot k) ∧
    (s.endSlot id code outcome other).fol = { s.fol with slots := (s.endSlot id code outcome other).fol.slots } ∧
    Tab.wf Folio.reset (s.endSlot id code outcome other).fol.slots = true := by
  unfold State.endSlot
  extract_lets f s1
  have h0 : Tab.wf Folio.reset (s.setSlot id { f with pages := [] }).fol.slots = true := Tab.wf_set h _ _
  have h1 : s1.fol = (s.setSlot id { f with pages := [] }).fol := State.release_fol _ _ _
  have h2 : ∀ r, (s1.tellWaiters f r).fol = (s.setSlot id { f with pages := [] }).fol := fun r => (State.tellWaiters_fol _ _ _).trans h1
  have h3 : ∀ r, Tab.wf Folio.reset (s1.tellWaiters f r).fol.slots = true := fun r => by rw [h2]; exact h0
  refine ⟨?_, fun k hk => ?_, ?_, Tab.wf_set (h3 _) _ _⟩
  · rw [State.slot_setSlot (h3 _), if_pos rfl]
  · rw [State.slot_setSlot (h3 _), if_neg hk]
    show Tab.get _ (State.fol _).slots k = _
    rw [h2]
    exact (State.slot_setSlot h id k _).trans (if_neg hk)
  · unfold State.setSlot
    dsimp only
    rw [h2]
    rfl

/-- In canonical form a listed key reads as it is listed. -/
theorem Tab.get_of_mem {α : Type} [DecidableEq α] {d : α} {m : Tab α} (h : Tab.wf d m = true) {a : Nat} {v : α} (hm : (a, v) ∈ m) :
    Tab.get d m a = v := by
  have key : ∀ l : Tab α, l.Pairwise (fun p q => p.1 < q.1) → (a, v) ∈ l → Tab.get d l a = v := by
    intro l
    induction l with
    | nil => intro _ h; cases h
    | cons x r ih =>
      obtain ⟨k, y⟩ := x
      intro h1 h2
      rw [List.pairwise_cons] at h1
      rcases List.mem_cons.1 h2 with h2 | h2
      · cases h2; simp [Tab.get]
      · have h3 := h1.1 _ h2
        have h4 : a ≠ k := by intro e; dsimp only at h3; omega
        rw [show Tab.get d ((k, y) :: r) a = Tab.get d r a by simp [Tab.get, h4]]
        exact ih h1.2 h2
  have h1 := (Tab.wf_iff d m).1 h
  exact key m h1.1 hm

/-- With the slots in canonical form, the slot that holds a part reads as that part. -/
theorem State.slot_of_part {s : State} (h : FolioState.wf s.fol = true) {gid : W64} {i id : Nat} {f : Folio} (hp : s.partSlot gid i = some (id, f)) :
    s.slot id = f ∧ f.mode ≠ .free := by
  unfold State.partSlot at hp
  have h1 := List.mem_of_find?_eq_some hp
  unfold State.liveSlots at h1
  rw [List.mem_filter] at h1
  exact ⟨Tab.get_of_mem ((FolioState.wf_iff _).1 h).1 h1.1, by simpa using h1.2⟩

/-- A change of the spanning side of a slot. -/
theorem State.slot_modSpan {s : State} (h : FolioState.wf s.fol = true) (id : Nat) (g : Span → Span) :
    (s.modSpan id g).slot id = { s.slot id with span := (s.slot id).span.map g } := by
  unfold State.modSpan
  dsimp only
  rw [State.slot_setSlot ((FolioState.wf_iff _).1 h).1, if_pos rfl]

theorem State.modSpan_wf {s : State} (h : FolioState.wf s.fol = true) (id : Nat) (g : Span → Span) : FolioState.wf (s.modSpan id g).fol = true := by
  have h := (FolioState.wf_iff _).1 h
  exact (FolioState.wf_iff _).2 ⟨Tab.wf_set h.1 _ _, h.2⟩

theorem State.slot_tell (s : State) (sp : Span) (d : Nat) (m : FolioMsg) (i : Nat) : (s.tellMember sp d m).slot i = s.slot i := by
  unfold State.tellMember
  split
  · split <;> rfl
  · rfl

/-- R248: a scrape frees the slot and leaves the epoch. -/
theorem State.scrapeSlot_facts {s : State} (h : Tab.wf Folio.reset s.fol.slots = true) (id : Nat) (c : W16) (o : Option Nat) :
    ((s.scrapeSlot id c o).slot id).mode = .free ∧ (s.scrapeSlot id c o).fol.epoch = s.fol.epoch := by
  unfold State.scrapeSlot
  extract_lets x
  have hx : x.s.fol = s.fol := (FX.scrapeBody_fol _ _).1
  have hi : x.id = some id := (FX.scrapeBody_fol _ _).2.1
  clear_value x
  have hb : x.back = x.s.setSlot id x.f := by unfold FX.back; rw [hi]
  rw [hb]
  have hw : Tab.wf Folio.reset (x.s.setSlot id x.f).fol.slots = true := by
    show Tab.wf _ (Tab.set _ x.s.fol.slots _ _) = true
    rw [hx]; exact Tab.wf_set h _ _
  obtain ⟨a, -, b, -⟩ := State.endSlot_facts hw id c.toNat 2 o
  rw [a, b]
  exact ⟨rfl, by show x.s.fol.epoch = _; rw [hx]⟩

/-- R246: a folio put back past its seal point is SEALED at the next epoch. -/
theorem FX.sealBack_facts (s : State) (id : Nat) (x : FX) (hx : x.s.fol = s.fol) (hi : x.id = some id) :
    (x.sealPoint.back.slot id).mode = .sealed ∧ (x.sealPoint.back.slot id).sealEpoch = s.fol.epoch + 1 ∧ x.sealPoint.back.fol.epoch = s.fol.epoch + 1 := by
  obtain ⟨a, b, c, d, e, f⟩ := FX.sealPoint_facts x
  have hb : x.sealPoint.back = x.sealPoint.s.setSlot id x.sealPoint.f := by unfold FX.back; rw [c, hi]
  rw [hb, State.slot_setSlot_used _ _ _ (by rw [d]; simp)]
  refine ⟨d, e.trans (by rw [hx]), ?_⟩
  show x.sealPoint.s.fol.epoch = _
  rw [a, hx]

end Sys2Proof.Machine
end

