-- ==== Sys2Proof/Laws/Memory.lean ====
section
/-! SUPPORT. Laws of unified memory: every operation that writes it keeps its canonical form; a granule reads as it was written and a
write leaves every other granule alone. -/

namespace Sys2Proof.Machine

theorem Memory.wf_iff (m : MemState) : Memory.wf m = true ↔ m.cells.wf = true ∧ m.poison.wf = true ∧ m.latent.wf = true := by
  simp [Memory.wf, and_assoc]

/-- A change of the memory system that touches none of the three tables. -/
theorem Memory.wf_of_eq {m n : MemState} (h : Memory.wf m = true) (h1 : n.cells = m.cells) (h2 : n.poison = m.poison) (h3 : n.latent = m.latent) :
    Memory.wf n = true := by
  rw [Memory.wf_iff] at *; rw [h1, h2, h3]; exact h

theorem State.disarmAt_mem (s : State) (ua : Nat) : (s.disarmAt ua).mem = s.mem := by
  unfold State.disarmAt; split <;> rfl

theorem State.setHomeGran_mem (s : State) (g : Nat) (x : Gran) : (s.setHomeGran g x).mem =
    { s.mem with cells := s.mem.cells.setLE (64 * g) 64 x.data.toNat, poison := s.mem.poison.set g (BitVec.ofBool x.poison),
                 latent := s.mem.latent.set g 0 } := by
  rw [← State.disarmAt_mem s (64 * g)]; rfl

theorem State.setHomeGran_wf {s : State} (h : Memory.wf s.mem = true) (g : Nat) (x : Gran) : Memory.wf (s.setHomeGran g x).mem = true := by
  have h := (Memory.wf_iff _).1 h
  have h1 := fun a n => Cells.wf_setLE n h.1 a x.data.toNat
  have h2 := Cells.wf_set h.2.1 g (BitVec.ofBool x.poison)
  have h3 := Cells.wf_set h.2.2 g 0
  rw [State.setHomeGran_mem, Memory.wf_iff]
  generalize 64 = n
  exact ⟨h1 _ n, h2, h3⟩

theorem State.poisonGran_wf {s : State} (h : Memory.wf s.mem = true) (g : Nat) : Memory.wf (s.poisonGran g).mem = true := by
  have h := (Memory.wf_iff _).1 h
  exact (Memory.wf_iff _).2 ⟨h.1, Cells.wf_set h.2.1 _ _, Cells.wf_set h.2.2 _ _⟩

theorem State.zeroFrame_mem (s : State) (f : Nat) : (s.zeroFrame f).mem =
    { s.mem with cells := s.mem.cells.clearRange (65536 * f) 65536, poison := s.mem.poison.clearRange (1024 * f) 1024,
                 latent := s.mem.latent.clearRange (1024 * f) 1024 } := by
  have e : ((s.disarmAt (65536 * f)).forget (65536 * f) 65536).mem = s.mem := by rw [State.forget_mem, State.disarmAt_mem]
  unfold State.zeroFrame State.modMem
  rw [e]

theorem State.zeroFrame_wf {s : State} (h : Memory.wf s.mem = true) (f : Nat) : Memory.wf (s.zeroFrame f).mem = true := by
  have h := (Memory.wf_iff _).1 h
  rw [State.zeroFrame_mem]
  exact (Memory.wf_iff _).2 ⟨Cells.wf_clearRange h.1 _ _, Cells.wf_clearRange h.2.1 _ _, Cells.wf_clearRange h.2.2 _ _⟩

theorem State.copyFrame_wf {s : State} (h : Memory.wf s.mem = true) (src dst : Nat) : Memory.wf (s.copyFrame src dst).mem = true := by
  have h := (Memory.wf_iff _).1 h
  have e : ((s.disarmAt (65536 * dst)).forget (65536 * dst) 65536).mem = s.mem := by rw [State.forget_mem, State.disarmAt_mem]
  unfold State.copyFrame State.modMem
  dsimp only
  rw [e]
  exact (Memory.wf_iff _).2 ⟨Cells.wf_splice h.1 (Cells.wf_slice h.1 _ _) _ _,
    Cells.wf_foldl_set _ _ _ (Cells.wf_clearRange h.2.1 _ _), Cells.wf_clearRange h.2.2 _ _⟩

theorem State.setFrame_wf {s : State} (h : Memory.wf s.mem = true) (f : Nat) (e : FrameEnt) : Memory.wf (s.setFrame f e).mem = true := by
  have h := (Memory.wf_iff _).1 h
  unfold State.setFrame
  dsimp only
  split
  · exact (Memory.wf_iff _).2 h
  · exact (Memory.wf_iff _).2 ⟨Cells.wf_setLE _ h.1 _ _, Cells.wf_set h.2.1 _ _, h.2.2⟩

/-- A fold of changes keeps the canonical form when each of them does. -/
theorem foldl_wf {β : Type} (f : State → β → State) (hf : ∀ t b, Memory.wf t.mem = true → Memory.wf (f t b).mem = true) (l : List β) :
    ∀ {s : State}, Memory.wf s.mem = true → Memory.wf (l.foldl f s).mem = true := by
  induction l with
  | nil => exact fun h => h
  | cons b r ih => exact fun h => ih (hf _ b h)

theorem State.imageTable_wf {s : State} (h : Memory.wf s.mem = true) (tier : Nat) (c : CDie) : Memory.wf (s.imageTable tier c).mem = true := by
  have h := (Memory.wf_iff _).1 h
  have key (l : List (Nat × W32)) (b : Nat) : ∀ m : Cells 8, m.wf = true →
      Cells.wf (l.foldl (fun m e => m.setLE (b + 4 * frameIndex e.1) 4 e.2.toNat) m) = true := by
    induction l with
    | nil => exact fun m hm => hm
    | cons e r ih => exact fun m hm => ih _ (Cells.wf_setLE _ hm _ _)
  unfold State.imageTable
  dsimp only
  split
  · exact (Memory.wf_iff _).2 h
  · exact (Memory.wf_iff _).2 ⟨key _ _ _ (Cells.wf_clearRange h.1 _ _), Cells.wf_clearRange h.2.1 _ _, Cells.wf_clearRange h.2.2 _ _⟩

theorem State.fillFrame_wf {s : State} (h : Memory.wf s.mem = true) (f : Nat) (bs : List Byte) (bad : List Nat) :
    Memory.wf (s.fillFrame f bs bad).mem = true := by
  have h := (Memory.wf_iff _).1 h
  refine foldl_wf _ (fun t g ht => State.poisonGran_wf ht _) bad ((Memory.wf_iff _).2 ⟨Cells.wf_splice h.1 ?_ _ _,
    Cells.wf_clearRange h.2.1 _ _, Cells.wf_clearRange h.2.2 _ _⟩)
  rw [Cells.wf_iff]
  refine ⟨?_, fun p hp => ?_⟩
  · rw [List.pairwise_map]
    refine List.Pairwise.sublist List.filter_sublist ?_
    have hz := List.pairwise_lt_range (n := (bs.take 65536).length)
    rw [List.range_eq_range', ← List.zipIdx_map_snd 0 (bs.take 65536), List.pairwise_map] at hz
    exact hz
  · obtain ⟨b, hb, rfl⟩ := List.mem_map.1 hp
    simpa using (List.mem_filter.1 hb).2

theorem State.zeroShares_wf {s : State} (h : Memory.wf s.mem = true) (ds : List CDie) : Memory.wf (s.zeroShares ds).mem = true := by
  have h := (Memory.wf_iff _).1 h
  exact (Memory.wf_iff _).2 ⟨Cells.wf_filter h.1 _, Cells.wf_filter h.2.1 _, Cells.wf_filter h.2.2 _⟩

theorem State.loseBytes_wf {s : State} (h : Memory.wf s.mem = true) (tier : Nat) (c : CDie) : Memory.wf (s.loseBytes tier c).mem = true := by
  have h := (Memory.wf_iff _).1 h
  rw [Memory.wf_iff]
  simp only [State.loseBytes, State.modMem]
  exact ⟨Cells.wf_fillWith h.1 _ _ _, h.2⟩

theorem State.scrambleShares_wf {s : State} (h : Memory.wf s.mem = true) (ds : List CDie) : Memory.wf (s.scrambleShares ds).mem = true :=
  foldl_wf _ (fun _ _ ht => State.loseBytes_wf (State.loseBytes_wf ht _ _) _ _) ds h

theorem State.loseShare_wf {s : State} (h : Memory.wf s.mem = true) (c : CDie) : Memory.wf (s.loseShare c).mem = true := by
  refine foldl_wf _ (fun t tier ht => ?_) [0, 1, 2] h
  have hu := (Memory.wf_iff _).1 (State.loseBytes_wf ht tier c)
  rw [Memory.wf_iff]
  dsimp only
  generalize t.loseBytes tier c = u at hu
  simp only [State.modMem]
  exact ⟨hu.1, Cells.wf_fillWith hu.2.1 _ _ _, Cells.wf_fillWith hu.2.2 _ _ _⟩

/-! Bytes of a stretch -/

theorem Cells.get_setLE (n : Nat) : ∀ {m : Cells 8} (_ : m.wf = true) (a v b : Nat),
    (m.setLE a n v).get b = if a ≤ b ∧ b < a + n then BitVec.ofNat 8 (v / 256 ^ (b - a)) else m.get b := by
  induction n with
  | zero => intro m h a v b; simp only [Cells.setLE]; rw [if_neg (by omega)]
  | succ n ih =>
    intro m h a v b
    simp only [Cells.setLE]
    rw [ih (Cells.wf_set h a _), Cells.get_set h]
    by_cases hb : b = a
    · subst hb
      rw [if_neg (by omega), if_pos rfl, if_pos (by omega)]
      simp
    · by_cases hc : a + 1 ≤ b ∧ b < a + 1 + n
      · rw [if_pos hc, if_pos (by omega), show b - a = b - (a + 1) + 1 by omega, pow_succ', Nat.div_div_eq_div_mul]
      · rw [if_neg hc, if_neg hb, if_neg (by omega)]

theorem Cells.getLE_congr {m k : Cells 8} (n : Nat) : ∀ (a : Nat) (_ : ∀ b, a ≤ b → b < a + n → m.get b = k.get b), m.getLE a n = k.getLE a n := by
  induction n with
  | zero => intro a _; rfl
  | succ n ih =>
    intro a h
    simp only [Cells.getLE]
    rw [h a (le_refl _) (by omega), ih (a + 1) (fun b h1 h2 => h b (by omega) (by omega))]

theorem Cells.getLE_eq {m : Cells 8} (n : Nat) : ∀ (a v : Nat) (_ : ∀ i, i < n → m.get (a + i) = BitVec.ofNat 8 (v / 256 ^ i)),
    m.getLE a n = v % 256 ^ n := by
  induction n with
  | zero => intro a v _; simp [Cells.getLE, Nat.mod_one]
  | succ n ih =>
    intro a v h
    simp only [Cells.getLE]
    have h0 : m.get a = BitVec.ofNat 8 v := by simpa using h 0 (by omega)
    rw [h0, ih (a + 1) (v / 256) (fun i hi => ?_)]
    · rw [BitVec.toNat_ofNat, pow_succ' 256, show (2 : Nat) ^ 8 = 256 from rfl, ← Nat.mod_mul]
    · rw [show a + 1 + i = a + (i + 1) by omega, h (i + 1) (by omega), pow_succ', Nat.div_div_eq_div_mul]

theorem Cells.getLE_setLE_self {m : Cells 8} (h : m.wf = true) (a n v : Nat) : (m.setLE a n v).getLE a n = v % 256 ^ n := by
  refine Cells.getLE_eq n a v (fun i hi => ?_)
  rw [Cells.get_setLE n h, if_pos (by omega), show a + i - a = i by omega]

theorem Cells.getLE_setLE_other {m : Cells 8} (h : m.wf = true) (a n v b k : Nat) (hd : b + k ≤ a ∨ a + n ≤ b) :
    (m.setLE a n v).getLE b k = m.getLE b k := by
  refine Cells.getLE_congr k b (fun c h1 h2 => ?_)
  rw [Cells.get_setLE n h, if_neg (by omega)]

/-! Granules (R234, R235) -/

theorem pow256 (n : Nat) : 256 ^ n = 2 ^ (8 * n) := (pow_mul 2 8 n).symm

theorem granLt (d : BitVec 512) : d.toNat % 256 ^ 64 = d.toNat := by
  have h : ∀ (w n : Nat) (d : BitVec w), w = 8 * n → d.toNat % 256 ^ n = d.toNat := by
    intro w n d hw
    subst hw
    rw [pow256]
    exact Nat.mod_eq_of_lt d.isLt
  exact h 512 64 d rfl

theorem State.homeGran_congr {s t : State} {g : Nat} (h1 : t.mem.cells.getLE (64 * g) 64 = s.mem.cells.getLE (64 * g) 64)
    (h2 : t.mem.poison.get g = s.mem.poison.get g) (h3 : t.mem.latent.get g = s.mem.latent.get g) : t.homeGran g = s.homeGran g := by
  unfold State.homeGran; rw [h1, h2, h3]

/-- R235: a granule written whole reads as written, its mark anew; every other granule reads as before. -/
theorem State.homeGran_setHomeGran {s : State} (h : Memory.wf s.mem = true) (g k : Nat) (x : Gran) :
    (s.setHomeGran g x).homeGran k = if k = g then x else s.homeGran k := by
  have h := (Memory.wf_iff _).1 h
  unfold State.homeGran
  rw [State.setHomeGran_mem]
  dsimp only
  rw [Cells.get_set h.2.1, Cells.get_set h.2.2]
  by_cases hk : k = g
  · subst hk
    rw [if_pos rfl, if_pos rfl, if_pos rfl, Cells.getLE_setLE_self h.1]
    obtain ⟨d, p⟩ := x
    have hd : d.toNat % 256 ^ 64 = d.toNat := granLt d
    rw [hd]
    cases p <;> simp
  · rw [if_neg hk, if_neg hk, if_neg hk, Cells.getLE_setLE_other h.1 _ _ _ _ _ (by omega)]

end Sys2Proof.Machine
end

