-- ==== Sys2Proof/Laws/Ring.lean ====
section
/-! SUPPORT. Laws of the ring unit: a write of memory leaves of the ports, rings and messages everything but the multicast sets (R200), and
what a landing record's write and a new epoch leave (R194, R203). -/

namespace Sys2Proof.Machine

/-- The ports, rings and messages, without the multicast sets. -/
def State.wires (s : State) : LinkState := { s.link with mcast := [] }

/-- Equal wires have equal rings. -/
theorem State.rings_of_wires {s t : State} (h : t.wires = s.wires) : t.link.rings = s.link.rings := by
  have e := congrArg LinkState.rings h
  exact e

/-- Equal wires have equal ports. -/
theorem State.ports_of_wires {s t : State} (h : t.wires = s.wires) : t.link.ports = s.link.ports := by
  have e := congrArg LinkState.ports h
  exact e

theorem State.ring_of_wires {s t : State} (h : t.wires = s.wires) (n : Fin 16) : t.ring n = s.ring n := by
  unfold State.ring; rw [State.rings_of_wires h]

theorem State.port_of_wires {s t : State} (h : t.wires = s.wires) (p : PortNo) : t.port p = s.port p := by
  unfold State.port; rw [State.ports_of_wires h]

@[simp] theorem State.countDie_link (s : State) (d : Nat) (e : DieEvent) : (s.countDie d e).link = s.link := by
  unfold State.countDie; split
  · rfl
  · split <;> rfl

@[simp] theorem State.disarmAt_wires (s : State) (a : Nat) : (s.disarmAt a).wires = s.wires := by
  unfold State.disarmAt; split <;> rfl

@[simp] theorem State.setHomeGran_wires (s : State) (g : Nat) (x : Gran) : (s.setHomeGran g x).wires = s.wires := by
  have h : (s.setHomeGran g x).link = (s.disarmAt (64 * g)).link := by unfold State.setHomeGran; rw [State.modMem_link]; rfl
  have e := State.disarmAt_wires s (64 * g)
  unfold State.wires at e ⊢
  rw [h, e]

@[simp] theorem State.listRetire_link (s : State) (f : Nat) : (s.listRetire f).link = s.link := by
  unfold State.listRetire; dsimp only
  split
  · rfl
  · split
    · rfl
    · rw [State.report_link]

@[simp] theorem State.touchGran_link (s : State) (k : Nat) (p : Option PartNo) (g : Nat) : (s.touchGran k p g).link = s.link := by
  unfold State.touchGran
  split
  · rfl
  · extract_lets f ev ev1 u hbm s0 s1 s2 s3
    have h0 : s0.link = s.link := by show State.link (if _ then _ else _) = _; split <;> rfl
    have h3 : s3.link = s.link := by
      show (State.countDie _ _ _).link = _
      rw [State.countDie_link, State.report_link]
      exact h0
    split
    · rw [State.listRetire_link]; exact h3
    · exact h3

@[simp] theorem State.writeHome_wires (s : State) (p : Piece) : (s.writeHome p).wires = s.wires := by
  unfold State.writeHome
  dsimp only
  split
  · exact State.setHomeGran_wires _ _ _
  · rw [State.setHomeGran_wires]; unfold State.wires; rw [State.touchGran_link]

@[simp] theorem State.plainWrite_wires (s : State) (w : Writer) (ps : List Piece) : (s.plainWrite w ps).wires = s.wires := by
  unfold State.plainWrite
  refine foldl_keeps State.wires _ (fun t p => ?_) ps s
  split
  · rfl
  · exact State.writeHome_wires t p

@[simp] theorem State.reportPF_link (s : State) (p : PartNo) (d u : Nat) (l : Level) (f : PFault) : (s.reportPF p d u l f).link = s.link := by
  unfold State.reportPF; rw [State.report_link]
  unfold State.pfRecord; split
  · unfold State.tablePoison; exact State.report_link _ _
  · rfl

@[simp] theorem State.dvWrite_wires (s : State) (p : PartNo) (m a : Nat) (bs : List Byte) : (s.dvWrite p m a bs).wires = s.wires := by
  unfold State.dvWrite; split
  · unfold State.wires; rw [State.reportPF_link]
  · exact State.plainWrite_wires _ _ _

@[simp] theorem State.writeLand_wires (s : State) (n : Fin 16) (k : Nat) : (s.writeLand n k).wires = s.wires := by
  unfold State.writeLand
  dsimp only
  split
  · rfl
  · rw [State.dvWrite_wires, State.dvWrite_wires]

/-- R194, R203: a new epoch sets the ring's epoch, landing number, credits and slots, and leaves the rest of the ring. -/
theorem State.newEpoch_ring (s : State) (r : Fin 16) (v : W32) :
    (s.newEpoch r v).ring r = { s.ring r with
      epoch := v, landed := 0, credits := [],
      slots := (List.range (s.ring r).slots.length).map (fun k => LandSlot.granted (BitVec.ofNat 32 k)) } := by
  unfold State.newEpoch
  extract_lets ks drop t
  have h1 : drop.ring r = s.ring r := by
    unfold State.ring
    rw [show drop.link.rings = s.link.rings from foldl_keeps (fun t : State => t.link.rings) _ (by intros; rfl) _ _]
  rw [State.ring_of_wires (foldl_keeps State.wires _ (fun t k => State.writeLand_wires t r k) ks t)]
  show State.ring (State.modRing _ _ _) r = _
  rw [State.ring_modRing, if_pos rfl, h1]

end Sys2Proof.Machine
end

