-- ==== Sys2Proof/WellFormed.lean ====
section
/-! DEFINITION. Which commands keep the ranges that the manual gives their operands and the operand types do not: what a program
word, a host or a link can send within the manual's formats. `exec` has a meaning for every command, well formed or not. -/

namespace Sys2Proof

/-- R95: a transfer length: a multiple of 64 from 64 B to 1 MiB. -/
def xferLenOk (len : BitVec 21) : Bool := decide (len.toNat % 64 = 0) && decide (64 ≤ len.toNat) && decide (len.toNat ≤ 1048576)

/-- R93: the formats of VLD, VST and VCVT: FP8, BF16, FP16 and FP32. -/
def vecFmtOk (fmt : Byte) : Bool :=
  decide (fmt = 0x01) || decide (fmt = 0x02) || decide (fmt = 0x06) || decide (fmt = 0x07) || decide (fmt = 0x09)

/-- The ranges of R83, R93, R94, R95, R322, R324, R393, R457 and R489. -/
def wellFormed (i : Instr) : Bool :=
  match i with
  | .barrier _n _id _home count => decide (2 ≤ count.toNat) && decide (count.toNat ≤ 128)
  | .waitin _n _tag _src count => decide (count ≠ 0)
  | .vld _n _vd _addr fmt => vecFmtOk fmt
  | .vst _n _va _addr fmt rnd => vecFmtOk fmt && decide (rnd ≠ 3)
  | .vcvt _n _vd _va fmt rnd => vecFmtOk fmt && decide (rnd ≠ 3)
  | .exp2b _n _vm first count _region _k => decide (1 ≤ count.toNat) && decide (first.toNat + count.toNat ≤ 128)
  | .load _n _m _st len => xferLenOk len
  | .store _n _m _st len => xferLenOk len
  | .send _n _st len _tag _dst _dst2 => xferLenOk len
  | .recv _n _st len _tag _src => xferLenOk len
  | .streamLd _n _st len _wide => xferLenOk len
  | .rotpre _n _sa _imm len => xferLenOk len
  | .coreStart _n priv => decide (priv ≠ 3)
  | .glbTimeLoRead who => match who with
    | .host fn => decide (fn.toNat ≤ 8)
    | .hart _ => true
  | .syncReq _p f => decide (f.flit.length = 256)
  | .syncResp _p f => decide (f.flit.length = 256)
  | .announce _p f => decide (f.flit.length = 256)
  | .bar2Read fn _off len => decide (fn.toNat ≤ 8) && decide (len ≠ 0)
  | .bar2Write fn _off data _poisoned => decide (fn.toNat ≤ 8) && decide (data ≠ [])
  | .dataGroup _p g => decide (1 ≤ g.flits.length) && decide (g.flits.length ≤ 8) && g.flits.all (fun f => decide (f.length = 256))
  | .lctl _p flit => decide (flit.length = 256)
  | .hello _p flit => decide (flit.length = 256)
  | .lossOfMemorySideDie die => decide (8 ≤ die.toNat) && decide (die.toNat ≤ 13)
  | .nop _ | .end_ _ | .li _ _ _ | .add _ _ _ _ | .addi _ _ _ _ | .sub _ _ _ _ | .and_ _ _ _ _ | .or_ _ _ _ _ | .xor_ _ _ _ _
  | .shl _ _ _ _ | .shr _ _ _ _ | .mul _ _ _ _ | .beq _ _ _ _ | .bne _ _ _ _ | .blt _ _ _ _ | .bge _ _ _ _ | .jmp _ _
  | .lds _ _ _ _ | .sts _ _ _ _ | .rdtime _ _ | .rdid _ _ | .bkpt _ | .seed _ _ | .signal _ _ _ | .barrierArrival _ _
  | .barrierRelease _ _ | .fence _ | .mma _ _ | .epi _ _ | .zero _ _ | .chain _ _ | .attnFwd _ _ | .attnDec _ _ | .attnBwd _ _
  | .attnMerge _ _ | .cstepPut _ _ | .cstepTake _ _ | .ccount _ _ | .collWaitPoll _ | .collDeadline _ | .vadd _ _ _ _
  | .vsub _ _ _ _ | .vmul _ _ _ _ | .vfma _ _ _ _ _ | .vmax _ _ _ _ | .vmin _ _ _ _ | .vabs _ _ _ | .vneg _ _ _
  | .vcmpgt _ _ _ _ | .vsel _ _ _ _ _ | .vredsum _ _ _ | .vredmax _ _ _ | .vldb _ _ _ _ | .vstb _ _ _ _ | .vexpo _ _ _
  | .vldexp _ _ _ _ | .vmovs _ _ _ | .vext _ _ _ | .exp2 _ _ _ | .log2 _ _ _ | .load2d _ _ | .store2d _ _ | .gather _ _
  | .scatter _ _ | .waitflag _ _ _ _ _ | .waitflagPoll _ | .setflag _ _ _ _ | .inboundDataArrival _ _ | .transferAck _
  | .rotaryFillArrival _ _ | .phaseEnd _ | .phaseTurnEnd _ | .groupTokenGrant _ | .coreHang _ | .coreHalt _ | .haltComplete _
  | .coreResume _ | .softReset _ | .softResetComplete _ | .rotInvalidate _ | .progLoad _ _ | .progLoadComplete _
  | .coreEventCtrlWrite _ _ | .coreRngSeedWrite _ _ | .coreFolioWrite _ _ | .registerWrite _ _ | .coreCut _ | .hxCcmd _ _ _ _
  | .hxWaitev _ _ _ | .hxWaitevWake _ | .hxPtest _ _ _ | .hxFset _ _ _ | .rubricLoad _ _ _ _ | .rubricStore _ _ _ _ _
  | .rubricFetch _ _ _ | .timePllLock | .holdoverEntry | .syncReqSend | .announceSend | .announceExpiry _ | .rootStep _
  | .rootStepLock | .rulingPoll _ | .rulingDeadline _ _ | .migration _ | .flashProgramFail _ | .frameReturn _ | .folioOpen _
  | .folioExtend _ | .folioSeal _ | .folioApplyComplete _ | .subtreeDecrement | .folioScrape _ | .folioInspect _ | .snapOpen _
  | .snapClose _ | .folioResolve _ | .folioWrite _ _ _ _ _ | .prepare _ _ | .vote _ _ _ _ _ | .decision _ _ _ _ _
  | .decisionAck _ _ | .spanDeadline _ | .coordAckTimeout _ | .inDoubtQuery _ | .decisionQuery _ _ _ | .folioInDoubt _
  | .cacheCreate _ | .cacheRelease _ | .cacheAppend _ | .spillBatchEnd _ _ | .spillWaitTimeout _ | .cacheShare _ | .cacheMass _
  | .cacheRebase _ | .codexCreateIndex _ | .codexDropIndex _ | .codexInsert _ | .codexDelete _ | .codexQuery _
  | .walkRoundReturn _ | .rerankComplete _ | .queryDeadline _ | .codexDropSubgraph _ | .subgraphSplice _ _ | .indexFree _
  | .nodeRepair _ | .repairRetry _ | .settleSweep _ _ | .writebackProgram _ | .ringEnable _ | .ringDisable _ | .ringStop _
  | .ringStopped _ | .ringEpochWrite _ _ | .ringSqTailWrite _ _ | .quireHeaderArrival _ _ | .quireChunkArrival _ _
  | .landingCredit _ _ _ _ | .releasePoll _ | .ringBroken _ | .multicastRead _ _ _ _ _ | .detachWaitExpiry _ _
  | .replayTimeout _ | .nakRepeat _ | .lctlSend _ | .groupSend _ | .helloSend _ | .lightDetect _ | .trainingComplete _
  | .trainingTimeout _ | .trainingRetry _ | .handshakeTimeout _ | .keyingComplete _ | .keyingTimeout _ | .portLoss _
  | .portEnable _ _ | .portRetrain _ | .portClearErrors _ | .chunkReceive _ _ | .chunkReport _ _ _ _ | .departMessage _
  | .ethLinkUp _ | .ethFrameReceive _ _ | .ethTxPost _ _ _ | .ethFrameSent _ _ | .ethRxPost _ _ _ | .portClassify _
  | .partitionForm _ | .formBind _ _ | .partitionReform _ | .partitionDissolve _ | .dieOut _ | .clearCuts | .collMessage _ _
  | .countMessage _ _ | .sqDoorbell _ _ | .sqDisable _ | .cqDoorbell _ _ | .orderFetch | .workOrderNop _ | .memoryMap _
  | .memoryUnmap _ | .memoryMigrate _ | .memoryPin _ | .memoryUnpin _ | .memoryAlias _ | .copy _ | .runtime _
  | .runtimeReply _ _ _ _ _ | .partitionRun _ | .partitionDrain _ | .drainComplete _ | .drainTimeout _ | .partitionReset _
  | .slotRelease _ _ _ | .cqCoalesceTimer _ | .vfFlr _ | .pfFlr | .hotReset | .surpriseLinkDown | .wmpRead _ _ | .wmpWrite _ _
  | .wmpNext _ _ | .mailboxGo _ | .storeCommitComplete _ | .stagingTimeout _ | .wardenWatchdog | .wardenRestart _ _
  | .plcaFallback | .setdasa _ _ | .entdaa _ | .mctpControl _ _ | .restoreDefaults _ | .stateRequestBringup
  | .bringupComplete _ | .boardMemoryInit _ _ | .stateRequestStandby | .stateRequestQuiescing | .stateRequestReady
  | .quiesceDone | .safeRemove | .rootPllLoss | .pathError _ _ | .scrubRead _ _ | .governorTick _ _ | .startAdmit | .slewHold
  | .inputFault | .inputRecovered | .inputOvervoltage | .powerLimitCheck _ | .gatingRelease | .temperatureReport _
  | .powerStateEntry _ | .powerStateWake _ | .earlyWake _ | .prechargeContact | .softStartDone | .standbyRailsGood
  | .wardenReady _ _ | .attentionButton | .buttonDelayExpiry | .presenceClose _ | .surpriseRemoval _ | .getVersion _
  | .getCapabilities _ | .negotiateAlgorithms _ _ | .getDigests _ | .getCertificate _ _ | .challenge _ _ | .getMeasurements _ _
  | .keyExchange _ | .finish _ _ _ | .keyUpdate _ _ | .heartbeat _ _ | .endSession _ _ | .chunkSend _ _ _ | .chunkGet _ _
  | .sessionLost _ _ | .debugNonceRead | .debugTokenWrite _ | .lifecycleEnd _ | .commitSvn _ | .revokeSlot _ | .restartWarden _
  | .queryDeviceIdentifiers _ | .getFirmwareParameters _ | .requestUpdate _ | .passComponentTable _ _ _
  | .updateComponent _ _ _ | .requestFirmwareData _ _ | .transferComplete _ | .verifyComplete _ | .applyComplete _
  | .activateFirmware _ | .getStatus _ | .cancelUpdateComponent _ | .cancelUpdate _ | .pmcFreeze | .pmcUnfreeze | .pmcSnapshot
  | .pmcCounterWrite _ _ | .inputRestored | .prechargeBreak | .conventionalReset | .indicatorCommand _ _
  | .decisionAnswerExpiry _ _ => true

end Sys2Proof
end

