-- ==== Sys2Proof/Tests/Slice0.lean ====
section
/-! SUPPORT. Small checks: an ill-formed term for each check of WellFormed, words of the encoding tables of chapter 4 written out bit by bit, values worked
out by hand from the rules, and for every statement with hypotheses a concrete state and operands that meet them, clause by clause. -/

namespace Sys2Proof.Tests

open Sys2Proof.Machine

set_option Elab.async false

/-! The states the checks use. -/

/-- The block with its main domain up, in READY. -/
def on : State := { State.reset with
  plug := { PlugState.reset with precharge := true, softStart := true, standbyRails := true, wardenUp := true, presence := true, slot := some 0, mainOn := true },
  modu := { ModuleState.reset with state := .ready }, ward := { WardenState.reset with up := true } }

/-- Core 0 changed by `f`. -/
def core0 (f : Core → Core) : State := on.modCore 0 f

/-- A running core in a phase. -/
def inPhase (p : Phase) (c : Core) : Core := { c with mode := .running, phase := p }

/-- Core 0 in its compute phase, s1 poisoned. -/
def comp : State := core0 (fun c => (inPhase .compute c).sset 1 5 true)

/-- Core 0 in its transfer phase, s1 poisoned. -/
def tran : State := core0 (fun c => (inPhase .transfer c).sset 1 5 true)

/-- A result that is a value. -/
def isOk {ε α : Type} : Except ε α → Bool
  | .ok _ => true
  | .error _ => false

/-- Partition 0 of die 0, IDLE. -/
def withPart (s : State) : State := s.setPart 0 { Part.reset with mode := .idle, dies := 1 }

/-- Bytes in the store of core 0. -/
def store (a : Nat) (b : List Byte) (s : State) : State := s.modCore 0 (fun c => c.stWrite a b (fun _ => false))

/-- Bytes in the store of core 0, poisoned. -/
def storeBad (a : Nat) (b : List Byte) (s : State) : State := s.modCore 0 (fun c => c.stWrite a b (fun _ => true))

/-- `n` zero bytes. -/
def zeros (n : Nat) : List Byte := List.replicate n 0

/-- A page table of partition 0 that maps device-virtual page 0 to HBM frame 4, writable. -/
def mapped (s : State) : State := (withPart s).modMem (fun m => { m with
  cells := [(0x10000, 1), (0x10002, 2), (0x20000, 1), (0x20002, 3), (0x30000, 3), (0x30002, 4)],
  ptRoot := [(0, 0x10001)] })

/-! WellFormed: for each check a term it refuses, beside one it takes. -/

theorem test_wf_barrier_low : wellFormed (.barrier 0 0 0 1) = false ∧ wellFormed (.barrier 0 0 0 2) = true := by decide
theorem test_wf_barrier_high : wellFormed (.barrier 0 0 0 129) = false ∧ wellFormed (.barrier 0 0 0 128) = true := by decide
theorem test_wf_waitin : wellFormed (.waitin 0 0 0 0) = false ∧ wellFormed (.waitin 0 0 0 1) = true := by decide
theorem test_wf_vld : wellFormed (.vld 0 0 ⟨none, 0⟩ 8) = false ∧ wellFormed (.vld 0 0 ⟨none, 0⟩ 9) = true := by decide
theorem test_wf_vst_format : wellFormed (.vst 0 0 ⟨none, 0⟩ 3 0) = false ∧ wellFormed (.vst 0 0 ⟨none, 0⟩ 6 0) = true := by decide
theorem test_wf_vst_rounding : wellFormed (.vst 0 0 ⟨none, 0⟩ 6 3) = false ∧ wellFormed (.vst 0 0 ⟨none, 0⟩ 6 2) = true := by decide
theorem test_wf_vcvt_format : wellFormed (.vcvt 0 0 0 0 0) = false ∧ wellFormed (.vcvt 0 0 0 1 0) = true := by decide
theorem test_wf_vcvt_rounding : wellFormed (.vcvt 0 0 0 7 3) = false ∧ wellFormed (.vcvt 0 0 0 7 1) = true := by decide
theorem test_wf_exp2b_none : wellFormed (.exp2b 0 0 0 0 0 0) = false ∧ wellFormed (.exp2b 0 0 0 1 0 0) = true := by decide
theorem test_wf_exp2b_past : wellFormed (.exp2b 0 0 1 128 0 0) = false ∧ wellFormed (.exp2b 0 0 0 128 0 0) = true := by decide
theorem test_wf_load : wellFormed (.load 0 ⟨0, 0, none⟩ 0 32) = false ∧ wellFormed (.load 0 ⟨0, 0, none⟩ 0 64) = true := by decide
theorem test_wf_store : wellFormed (.store 0 ⟨0, 0, none⟩ 0 0x100040) = false ∧ wellFormed (.store 0 ⟨0, 0, none⟩ 0 0x100000) = true := by decide
theorem test_wf_send : wellFormed (.send 0 0 0 0 0 0) = false ∧ wellFormed (.send 0 0 64 0 0 0) = true := by decide
theorem test_wf_recv : wellFormed (.recv 0 0 65 0 0) = false ∧ wellFormed (.recv 0 0 128 0 0) = true := by decide
theorem test_wf_streamLd : wellFormed (.streamLd 0 0 0 false) = false ∧ wellFormed (.streamLd 0 0 64 false) = true := by decide
theorem test_wf_rotpre : wellFormed (.rotpre 0 0 0 63) = false ∧ wellFormed (.rotpre 0 0 0 64) = true := by decide
theorem test_wf_coreStart : wellFormed (.coreStart 0 3) = false ∧ wellFormed (.coreStart 0 2) = true := by decide
theorem test_wf_glbTimeLoRead : wellFormed (.glbTimeLoRead (.host 9)) = false ∧ wellFormed (.glbTimeLoRead (.host 8)) = true := by decide
theorem test_wf_syncReq : wellFormed (.syncReq 0 ⟨zeros 255, 0⟩) = false ∧ wellFormed (.syncReq 0 ⟨zeros 256, 0⟩) = true := by decide +kernel
theorem test_wf_syncResp : wellFormed (.syncResp 0 ⟨[], 0⟩) = false ∧ wellFormed (.syncResp 0 ⟨zeros 256, 0⟩) = true := by decide +kernel
theorem test_wf_announce : wellFormed (.announce 0 ⟨zeros 257, 0⟩) = false ∧ wellFormed (.announce 0 ⟨zeros 256, 0⟩) = true := by decide +kernel
theorem test_wf_bar2Read_function : wellFormed (.bar2Read 9 0 1) = false ∧ wellFormed (.bar2Read 8 0 1) = true := by decide
theorem test_wf_bar2Read_length : wellFormed (.bar2Read 0 0 0) = false := by decide
theorem test_wf_bar2Write_function : wellFormed (.bar2Write 9 0 [0] false) = false ∧ wellFormed (.bar2Write 8 0 [0] false) = true := by decide
theorem test_wf_bar2Write_data : wellFormed (.bar2Write 0 0 [] false) = false := by decide
theorem test_wf_dataGroup_none : wellFormed (.dataGroup 0 ⟨[], 0, []⟩) = false := by decide +kernel
theorem test_wf_dataGroup_nine : wellFormed (.dataGroup 0 ⟨List.replicate 9 (zeros 256), 0, []⟩) = false ∧
    wellFormed (.dataGroup 0 ⟨List.replicate 8 (zeros 256), 0, []⟩) = true := by decide +kernel
theorem test_wf_dataGroup_flit : wellFormed (.dataGroup 0 ⟨[zeros 255], 0, []⟩) = false := by decide +kernel
theorem test_wf_lctl : wellFormed (.lctl 0 (zeros 255)) = false ∧ wellFormed (.lctl 0 (zeros 256)) = true := by decide +kernel
theorem test_wf_hello : wellFormed (.hello 0 (zeros 257)) = false ∧ wellFormed (.hello 0 (zeros 256)) = true := by decide +kernel
theorem test_wf_lossOfMemorySideDie : wellFormed (.lossOfMemorySideDie 7) = false ∧ wellFormed (.lossOfMemorySideDie 14) = false ∧
    wellFormed (.lossOfMemorySideDie 13) = true := by decide

/-! Core words written out from the field tables of R77, R82, R83, R87, R93, R94 and R95: from the top, operands, mod, op, class. -/

/-- What core 0 reads from a word. -/
def dec (w : Nat) : Option Instr := decodeCore Core.reset 0 (BitVec.ofNat 128 w)

/-- ADD s3, s1, s2: sb = 2, sa = 1, sd = 3, op 3, class 0. -/
theorem test_word_add : dec (0b0 * 2 ^ 31 + 0b00010 * 2 ^ 26 + 0b00001 * 2 ^ 21 + 0b00011 * 2 ^ 16 + 0b000000 * 2 ^ 10 + 0b000011 * 2 ^ 4 + 0b0000) =
    some (.add 0 3 1 2) := by decide +kernel
/-- BNE s1, s2 to index 2,047: the target in [42:32]. -/
theorem test_word_bne : dec (0b11111111111 * 2 ^ 32 + 0b00010 * 2 ^ 26 + 0b00001 * 2 ^ 21 + 0b001101 * 2 ^ 4) = some (.bne 0 1 2 2047) := by decide +kernel
/-- ADDI s31, s1, -1: the immediate in [127:64]. -/
theorem test_word_addi : dec (0xFFFFFFFFFFFFFFFF * 2 ^ 64 + 0b00001 * 2 ^ 21 + 0b11111 * 2 ^ 16 + 0b000100 * 2 ^ 4) = some (.addi 0 31 1 (-1)) := by decide +kernel
/-- BARRIER 5 of 128 at core 127: count in [47:40], core in [38:32], the id in [27:24]. -/
theorem test_word_barrier : dec (0b10000000 * 2 ^ 40 + 0b1111111 * 2 ^ 32 + 0b0101 * 2 ^ 24 + 0b000001 * 2 ^ 4 + 0b0001) = some (.barrier 0 5 127 128) := by decide +kernel
/-- MMA with a base scalar s3: mod[10] = 1, desc in [53:32]. -/
theorem test_word_mma : dec (0b0000000000000001000000 * 2 ^ 32 + 0b00011 * 2 ^ 16 + 0b000001 * 2 ^ 10 + 0b000000 * 2 ^ 4 + 0b0010) = some (.mma 0 ⟨some 3, 64⟩) := by
  decide +kernel
/-- VADD v4, v2, broadcast s9: ss in [52:48], mod[10] = 1. -/
theorem test_word_vadd : dec (0b01001 * 2 ^ 48 + 0b00000010 * 2 ^ 24 + 0b00000100 * 2 ^ 16 + 0b000001 * 2 ^ 10 + 0b0011) = some (.vadd 0 4 2 (.bcast 9)) := by decide +kernel
/-- VST v2 to 128 in FP8 E4M3 rounding stochastically: addr in [85:64], fmt in [63:56], rnd in [55:54]. -/
theorem test_word_vst : dec (0b0000000000000010000000 * 2 ^ 64 + 0b00000001 * 2 ^ 56 + 0b10 * 2 ^ 54 + 0b00000010 * 2 ^ 24 + 0b001101 * 2 ^ 4 + 0b0011) =
    some (.vst 0 2 ⟨none, 128⟩ 1 2) := by decide +kernel
/-- EXP2B of rows 5 to 7 of region 2 by v6, times 1.0. -/
theorem test_word_exp2b : dec (0x3F800000 * 2 ^ 64 + 0b10 * 2 ^ 56 + 0b00000011 * 2 ^ 48 + 0b0000101 * 2 ^ 40 + 0b00000110 * 2 ^ 32 + 0b000010 * 2 ^ 4 + 0b0100) =
    some (.exp2b 0 6 5 3 2 0x3F800000) := by decide +kernel
/-- CHAIN at 4096; ATTN.DEC at 64. -/
theorem test_word_chain : dec (4096 * 2 ^ 32 + 0b0101) = some (.chain 0 ⟨none, 4096⟩) ∧ dec (64 * 2 ^ 32 + 0b000010 * 2 ^ 4 + 0b0110) = some (.attnDec 0 ⟨none, 64⟩) := by
  decide +kernel
/-- LOAD of 64 bytes from context sc = s2 at s1 + 128 to 192: space in [26]. -/
theorem test_word_load : dec (128 * 2 ^ 96 + 64 * 2 ^ 64 + 192 * 2 ^ 32 + 0b1 * 2 ^ 26 + 0b00010 * 2 ^ 21 + 0b00001 * 2 ^ 16 + 0b0111) =
    some (.load 0 ⟨1, 128, some 2⟩ 192 64) := by decide +kernel
/-- SEND to the rectangle of cores 1 and 18 under tag 7: tag, core and core2 replace the offset. -/
theorem test_word_send : dec (0b0010010 * 2 ^ 111 + 0b0000001 * 2 ^ 104 + 0b00000111 * 2 ^ 96 + 64 * 2 ^ 64 + 0b000100 * 2 ^ 4 + 0b0111) =
    some (.send 0 0 64 7 1 18) := by decide +kernel
/-- A CSTEP whose descriptor does not say TAKE is a PUT; CCOUNT. -/
theorem test_word_collective : dec (64 * 2 ^ 32 + 0b1000) = some (.cstepPut 0 ⟨none, 64⟩) ∧ dec (0b000001 * 2 ^ 4 + 0b1000) = some (.ccount 0 ⟨none, 0⟩) := by decide +kernel
/-- R77: an unassigned class, an unassigned op, a mod bit NOP does not define, an RSV bit of the control class. -/
theorem test_word_bad : dec 9 = none ∧ dec (0x17 * 2 ^ 4) = none ∧ dec (1 * 2 ^ 10) = none ∧ dec (1 * 2 ^ 31) = none := by decide +kernel

/-! Values worked out by hand from the rules. -/

/-- R82: addition wraps modulo 2^64. -/
theorem test_addi_wraps : ((match exec (.addi 0 3 0 (-1)) comp with
  | .next t => match exec (.addi 0 4 3 1) t with
    | .next u => ((t.core 0).sget 3, (u.core 0).sget 4, (u.core 0).regs.pc)
    | _ => (0, 1, 0)
  | _ => (0, 1, 0)) : W64 × W64 × W64) = (0xFFFFFFFFFFFFFFFF, 0, 32) := by decide +kernel
/-- R82: BLT compares signed values: -1 < 0. -/
theorem test_blt_signed : (match exec (.li 0 2 (-1)) comp with
  | .next t => match exec (.blt 0 2 0 7) t with
    | .next u => (u.core 0).regs.pc
    | _ => 0
  | _ => 0) = 112 := by decide +kernel
/-- R82: SHR shifts in zeros. -/
theorem test_shr_logical : (match exec (.li 0 2 (-1)) comp with
  | .next t => match exec (.shr 0 3 2 63) t with
    | .next u => (u.core 0).sget 3
    | _ => 0
  | _ => 0) = 1 := by decide +kernel
/-- R81: a word stored at 8 is read at 8, and its low byte lies first. -/
theorem test_sts_lds : (match exec (.li 0 2 0x0102) comp with
  | .next t => match exec (.sts 0 0 2 8) t with
    | .next u => match exec (.lds 0 3 0 8) u with
      | .next v => ((v.core 0).sget 3, (v.core 0).mem.store.get 8, (v.core 0).mem.store.get 9)
      | _ => (0, 0, 0)
    | _ => (0, 0, 0)
  | _ => (0, 0, 0)) = (0x0102, 0x02, 0x01) := by decide +kernel
/-- FP32: 1 + 2^-24 ties to the even neighbour 1; 1 + 2^-23 is exact; 1 - 1 is +0. -/
theorem test_f32_add : f32Add 0x3F800000 0x33800000 = 0x3F800000 ∧ f32Add 0x3F800000 0x34000000 = 0x3F800001 ∧ f32Add 0x3F800000 0xBF800000 = 0 := by decide +kernel
/-- FP32: a fused product keeps what a rounded one loses: (1 + 2^-23)^2 - (1 + 2^-22) = 2^-46. -/
theorem test_f32_fma : f32Fma 0x3F800001 0x3F800001 0xBF800002 = 0x28800000 := by decide +kernel
/-- R120: exp2 of 3 is 8, of -149 the least subnormal, of 128 infinity. -/
theorem test_exp2 : f32Exp2 0x40400000 = 0x41000000 ∧ f32Exp2 0xC3150000 = 1 ∧ f32Exp2 0x43000000 = 0x7F800000 := by decide +kernel
/-- R125: log2 of 8 is 3, of 0 minus infinity, of -1 not a number. -/
theorem test_log2 : f32Log2 0x41000000 = 0x40400000 ∧ f32Log2 0 = 0xFF800000 ∧ f32Log2 0xBF800000 = 0x7FC00000 := by decide +kernel
/-- The check value of CRC-32C: the nine ASCII digits 1 to 9. -/
theorem test_crc32c : crc32c [0x31, 0x32, 0x33, 0x34, 0x35, 0x36, 0x37, 0x38, 0x39] = 0xE3069283 := by decide +kernel
/-- R322: the check value of the CRC-64 with this polynomial, all ones in and out: the nine ASCII digits 1 to 9. -/
theorem test_crc64 : crc64 [0x31, 0x32, 0x33, 0x34, 0x35, 0x36, 0x37, 0x38, 0x39] = 0x62EC59E3F1A4F00A := by decide +kernel
/-- R320: in the field of the code, x times x^9 is x^3 + 1. -/
theorem test_gfMul : gfMul 2 512 = 9 ∧ gfMul 512 2 = 9 := by decide +kernel
/-- R84: END posts a core event and leaves the core IDLE. -/
theorem test_end : (match exec (.end_ 0) comp with
  | .next t => ((t.core 0).mode, (t.core 0).ev.pending, (t.core 0).ev.ended, (t.core 0).ev.count)
  | _ => (.off, false, false, 0)) = (.idle, true, true, 0) := by decide +kernel
/-- The queue is first in, first out: the second of two writes of an argument stands. -/
theorem test_queue_order : (match step { on with pending := [.registerWrite (.core 0 (.arg 0)) 1, .registerWrite (.core 0 (.arg 0)) 2] } with
  | .next t => match step t with
    | .next u => ((t.core 0).regs.arg0, (u.core 0).regs.arg0, u.pending.length)
    | _ => (0, 0, 9)
  | _ => (0, 0, 9)) = (1, 2, 0) := by decide +kernel
/-- The table gives its rows no bits: no word spells a command, and the queue stays. -/
theorem test_table_word : decodeTableWord 16 0 = none ∧ (State.reset.withFetchWord 16 0).pending = [] := by decide +kernel

/-! Witnesses of the statements about cores -/

theorem witness_ScalarResults : comp.ready 0 .current = true ∧ tran.ready 0 .current = true := by decide +kernel

theorem witness_ScalarRegisters : Cells.wf Core.reset.sregs = true ∧ Cells.wf Core.reset.spoison = true ∧
    Cells.wf (comp.core 0).sregs = true ∧ Cells.wf (comp.core 0).spoison = true := by decide +kernel

theorem witness_Branches : comp.ready 0 .current = true ∧ (comp.core 0).sbad 0 = false ∧ (comp.core 0).sbad 2 = false ∧
    ((comp.core 0).sbad 1 || (comp.core 0).sbad 2) = true := by decide +kernel

/-- A poisoned base; the first address beyond the store; the last word of the store. -/
theorem witness_StoreWords : comp.ready 0 .current = true ∧ (comp.core 0).sbad 1 = true ∧ (comp.core 0).sbad 0 = false ∧
    storeSize < ((comp.core 0).sget 0 + 0x300000).toNat / 8 * 8 + 8 ∧ ((comp.core 0).sget 0 + 0x2FFFFF).toNat / 8 * 8 + 8 ≤ storeSize := by
  decide +kernel

/-- A core with a store that is not complete. -/
def storing : State := core0 (fun c => { inPhase .transfer c with outStores := [⟨false⟩] })

theorem witness_CoreEvents : comp.ready 0 .current = true ∧ comp.xferDone 0 = true ∧ storing.ready 0 .current = true ∧ storing.xferDone 0 = false ∧
    ((core0 (fun c => { c with ev := { c.ev with irqEn := true, target := 3 } })).core 0).ev.target.toNat = (3 : Fin 24).val := by decide +kernel

/-- Core 0 running, outside any phase. -/
def calm : State := core0 (inPhase .none)
/-- Core 5 with one arrival of a barrier of `count` on its way. -/
def arrivesFirst (count : Nat) : State := { on with mesh := { on.mesh with arrivals := [⟨1, 6, 0, false, 2⟩, ⟨2, 5, 1, false, count⟩] } }
/-- A barrier of two cores whose first has arrived, the second's arrival under way. -/
def barrierHome (count : Nat) : State := { on.modCore 5 (fun c => { c with barriers := [⟨1, false, 3, [0]⟩] }) with
  mesh := { on.mesh with arrivals := [⟨2, 5, 1, false, count⟩] } }
/-- The same, the second arrival the last. -/
def barrierLast : State := { on.modCore 5 (fun c => { c with barriers := [⟨1, false, 2, [0]⟩] }) with
  mesh := { on.mesh with arrivals := [⟨2, 5, 1, false, 2⟩] } }
/-- A core that waits at a barrier, its release under way. -/
def released : State := { core0 (fun c => { inPhase .compute c with wait := some (.barrier 5 1 false) }) with
  mesh := { on.mesh with releases := [⟨0, 5, 1, false⟩] } }
/-- A core with one unit of stream (2, 7) in its inbound queue. -/
def inbound1 : State := core0 (fun c => { inPhase .compute c with inbound := [⟨2, 7, 0, false⟩] })

theorem witness_Synchronisation :
    (comp.ready 0 .current = true ∧ (1 : Byte).toNat < 2 ∧ 128 < (129 : Byte).toNat ∧ 2 ≤ (2 : Byte).toNat ∧ (128 : Byte).toNat ≤ 128 ∧
      comp.sameRect 0 5 = false) ∧
    ((withPart comp).ready 0 .current = true ∧ (withPart comp).sameRect 0 1 = true) ∧
    (inbound1.ready 0 .current = true ∧ (1 : Byte) ≠ 0 ∧ (1 : Byte).toNat ≤ (inbound1.core 0).inUnits 2 (7 : Byte).toNat ∧
      (inbound1.core 0).inUnits 2 (7 : Byte).toNat < (2 : Byte).toNat ∧ (inbound1.core 0).phase ≠ .none) ∧
    (calm.ready 0 .current = true ∧ (calm.core 0).phase = .none) ∧
    takeNth (fun a : MeshArrival => decide (a.home = 5)) 0 on.mesh.arrivals = none ∧
    (takeNth (fun a : MeshArrival => decide (a.home = 5)) 0 (arrivesFirst 2).mesh.arrivals = some (⟨2, 5, 1, false, 2⟩, [⟨1, 6, 0, false, 2⟩]) ∧
      ((arrivesFirst 2).core 5).barriers.find? (fun b => decide (b.id = 1) && decide (b.parity = false)) = none) ∧
    (takeNth (fun a : MeshArrival => decide (a.home = 5)) 0 (barrierHome 2).mesh.arrivals = some (⟨2, 5, 1, false, 2⟩, []) ∧
      ((barrierHome 2).core 5).barriers.find? (fun b => decide (b.id = 1) && decide (b.parity = false)) = some ⟨1, false, 3, [0]⟩ ∧ 3 ≠ 2) ∧
    (takeNth (fun a : MeshArrival => decide (a.home = 5)) 0 (barrierHome 3).mesh.arrivals = some (⟨2, 5, 1, false, 3⟩, []) ∧
      ((barrierHome 3).core 5).barriers.find? (fun b => decide (b.id = 1) && decide (b.parity = false)) = some ⟨1, false, 3, [0]⟩ ∧
      [0].length + 1 ≠ 3) ∧
    (takeNth (fun a : MeshArrival => decide (a.home = 5)) 0 barrierLast.mesh.arrivals = some (⟨2, 5, 1, false, 2⟩, []) ∧
      (barrierLast.core 5).barriers.find? (fun b => decide (b.id = 1) && decide (b.parity = false)) = some ⟨1, false, 2, [0]⟩ ∧ [0].length + 1 = 2) ∧
    takeNth (fun a : MeshRelease => decide (a.dst = 0)) 0 on.mesh.releases = none ∧
    (takeNth (fun a : MeshRelease => decide (a.dst = 0)) 0 released.mesh.releases = some (⟨0, 5, 1, false⟩, []) ∧ (released.core 0).mode = .running ∧
      (released.core 0).wait = some (.barrier 5 1 false)) ∧
    (takeNth (fun a : MeshRelease => decide (a.dst = 0)) 0 { on with mesh := released.mesh }.mesh.releases = some (⟨0, 5, 1, false⟩, []) ∧
      (on.core 0).mode ≠ .running) := by
  decide +kernel

/-- The address of a descriptor in the fields of an instruction. -/
def desc (a : BitVec 22) : DescArg := ⟨none, a⟩

/-- A matrix descriptor of one tile, row, column and element, BF16, K 64, the prologue `pro`. -/
def matBytes (pro : Byte) : List Byte :=
  [1, 1, 6, 6, 6, 0, 1, 1, 1, 0, pro, 0, 1, 0, 1, 0, 64, 0, 1, 0, 0, 0x10, 0, 0, 0, 0x20, 0, 0, 0, 0x30, 0, 0, 2, 0, 2, 0, 8, 0] ++ zeros 90
/-- Core 0 with a matrix descriptor at 0. -/
def matCore (pro : Byte) : State := store 0 (matBytes pro) comp
/-- The descriptor at 0 of core 0. -/
def matAt (s : State) : MatDesc := match (s.core 0).readMat 0 with
  | .ok m => m
  | .error _ => MatDesc.ofBytes []

theorem witness_MatrixClass : comp.ready 0 .compute = true ∧
    (comp.core 0).descAddr (desc 32) = .error errMisaligned ∧ (comp.core 0).descAddr ⟨some 1, 0⟩ = .error errPoison ∧
    (comp.core 0).descAddr (desc 0x2FFFC0) = .ok 0x2FFFC0 ∧ (comp.core 0).readMat 0x2FFFC0 = .error (errStore 0x300040) ∧
    (comp.core 0).descAddr (desc 0x2FFF80) = .ok 0x2FFF80 ∧ isOk ((comp.core 0).readMat 0x2FFF80) = true ∧
    (isOk ((comp.core 0).readMat 0) = true ∧ ((comp.matRun 0).exec (matAt comp) false []).2.isSome = true) := by decide +kernel

/-- A legal descriptor: it runs whole; with a rotary prologue its lines are missing. -/
theorem witness_MatrixClass_runs : (matCore 0).ready 0 .compute = true ∧ isOk (((matCore 0).core 0).readMat 0) = true ∧
    (((matCore 0).matRun 0).exec (matAt (matCore 0)) false []).2 = none ∧
    (∀ l ∈ ((matCore 0).core 0).matLines (matAt (matCore 0)), (((matCore 0).core 0).rotLine l).isSome = true) ∧
    (((matCore 0).matRun 0).exec (matAt (matCore 0)) true []).2 = none ∧ (matCore 4).ready 0 .compute = true ∧
    isOk (((matCore 4).core 0).readMat 0) = true ∧
    (∃ l ∈ ((matCore 4).core 0).matLines (matAt (matCore 4)), (((matCore 4).core 0).rotLine l).isSome = false) := by decide +kernel

/-- A chain of two steps at 256 and 512. -/
def chainBytes : List Byte := [2, 1, 2, 0, 0, 0, 0, 0] ++ [0, 1, 0, 0, 0, 0xFF, 0, 0] ++ [0, 2, 0, 0, 0, 0xFF, 0, 0] ++ zeros 40
/-- The chain in the store of core 0. -/
def chained : State := store 0 chainBytes comp
/-- The same, its two descriptors legal. -/
def chainLegal : State := store 512 (matBytes 0) (store 256 (matBytes 0) chained)
/-- The same, a descriptor of the steps poisoned. -/
def chainPoison : State := storeBad 512 (zeros 64) chained
/-- Its steps. -/
def chainTwo : List ChainStep := [⟨256, 0, 0xFF⟩, ⟨512, 0, 0xFF⟩]
/-- Its steps and their descriptors. -/
def chainRead (s : State) : List (ChainStep × MatDesc) := match (s.core 0).readSteps chainTwo with
  | .ok l => l
  | .error _ => []

theorem witness_ChainClass : comp.ready 0 .compute = true ∧ (comp.core 0).descAddr (desc 32) = .error errMisaligned ∧
    (comp.core 0).descAddr (desc 0x300000) = .ok 0x300000 ∧ storeSize < 0x300000 + 64 ∧
    (0 + 64 ≤ storeSize ∧ ((storeBad 0 (zeros 64) comp).core 0).stBad 0 64 = true ∧ ((storeBad 0 (zeros 64) comp)).ready 0 .compute = true) ∧
    ((comp.core 0).descAddr (desc 0) = .ok 0 ∧ (comp.core 0).stBad 0 64 = false ∧ chainSteps ((comp.core 0).stRead 0 64) = none) ∧
    (chainPoison.ready 0 .compute = true ∧ (chainPoison.core 0).stBad 0 64 = false ∧ chainSteps ((chainPoison.core 0).stRead 0 64) = some chainTwo ∧
      isOk ((chainPoison.core 0).readSteps chainTwo) = false) ∧
    (chained.ready 0 .compute = true ∧ (chained.core 0).descAddr (desc 0) = .ok 0 ∧ (chained.core 0).stBad 0 64 = false ∧
      chainSteps ((chained.core 0).stRead 0 64) = some chainTwo ∧ (chained.core 0).readSteps chainTwo = .ok (chainRead chained) ∧
      chainBad none (linkSteps none (chainRead chained)) = false ∧ chainFuse (linkSteps none (chainRead chained)) = none ∧
      (linkSteps none (chainRead chained)).flatMap (fun x => (chained.core 0).matLines x.2) = [] ∧
      ((chained.matRun 0).steps [] 0 ((linkSteps none (chainRead chained)).map (·.2))).2.1.isSome = true) := by decide +kernel

theorem witness_ChainClass_runs : chainLegal.ready 0 .compute = true ∧ (chainLegal.core 0).descAddr (desc 0) = .ok 0 ∧
    (chainLegal.core 0).stBad 0 64 = false ∧ chainSteps ((chainLegal.core 0).stRead 0 64) = some chainTwo ∧
    (chainLegal.core 0).readSteps chainTwo = .ok (chainRead chainLegal) ∧ chainBad none (linkSteps none (chainRead chainLegal)) = false ∧
    chainFuse (linkSteps none (chainRead chainLegal)) = none ∧
    (linkSteps none (chainRead chainLegal)).flatMap (fun x => (chainLegal.core 0).matLines x.2) = [] ∧
    ((chainLegal.matRun 0).steps [] 0 ((linkSteps none (chainRead chainLegal)).map (·.2))).2.1 = none := by decide +kernel

/-- An ATTN.FWD descriptor: one block, one row. -/
def fwdBytes : List Byte := [5, 1, 1, 1, 1, 1, 0, 0, 1, 1, 1, 0, 0, 0, 0x80, 0x3F] ++ zeros 16 ++ [0x80] ++ zeros 95
/-- The same with no block: not legal. -/
def fwdNone : List Byte := [5, 1, 1, 1, 1, 1, 0, 0, 0, 1, 1, 0, 0, 0, 0x80, 0x3F] ++ zeros 112
/-- An ATTN.BWD descriptor of one query tile, and the tile. -/
def bwdBytes : List Byte := [6, 1, 1, 1, 1, 1, 0, 0, 1, 6, 0, 0, 0, 0, 0x80, 0x3F] ++ zeros 32 ++ [0x80] ++ zeros 79 ++ zeros 30 ++ [1, 1] ++ zeros 32
/-- A merge descriptor of one partial of one row. -/
def mergeBytes : List Byte := [7, 1, 1, 0, 1, 1, 6, 0, 0, 0, 0x80, 0x3F, 0, 0x10, 0, 0, 0, 0x20, 0, 0, 2, 0, 0, 0, 0, 0x30, 0, 0] ++ zeros 36
/-- Core 0 with a descriptor at 0. -/
def attn (b : List Byte) : State := store 0 b comp
/-- The checks of a forward descriptor. -/
def fwdLegal (dec : Bool) (s : State) : Bool :=
  attnLegal (AttnDesc.ofBytes dec ((s.core 0).stRead 0 128)) ((s.core 0).blockList (AttnDesc.ofBytes dec ((s.core 0).stRead 0 128)))
/-- The checks of a backward descriptor. -/
def backLegal (s : State) : Bool :=
  bwdLegal (BwdDesc.ofBytes ((s.core 0).stRead 0 128)) ((s.core 0).tileList (BwdDesc.ofBytes ((s.core 0).stRead 0 128)))

theorem witness_AttentionClass : comp.ready 0 .compute = true ∧ (comp.core 0).descAddr (desc 0x300000) = .ok 0x300000 ∧ storeSize < 0x300000 + 64 ∧
    ((comp.core 0).descAddr (desc 0) = .ok 0 ∧ 0 + 64 ≤ storeSize ∧ (comp.core 0).stBad 0 64 = false ∧ 0 + 128 ≤ storeSize) ∧
    ((storeBad 0 (zeros 128) comp).ready 0 .compute = true ∧ ((storeBad 0 (zeros 128) comp).core 0).stBad 0 128 = true) ∧
    ((attn fwdNone).ready 0 .compute = true ∧ ((attn fwdNone).core 0).stBad 0 128 = false ∧ fwdLegal true (attn fwdNone) = false ∧
      fwdLegal false (attn fwdNone) = false ∧ backLegal (attn fwdNone) = false) ∧
    ((attn fwdBytes).ready 0 .compute = true ∧ ((attn fwdBytes).core 0).stBad 0 128 = false ∧ fwdLegal true (attn fwdBytes) = true ∧
      fwdLegal false (attn fwdBytes) = true) ∧
    ((attn bwdBytes).ready 0 .compute = true ∧ ((attn bwdBytes).core 0).stBad 0 128 = false ∧ backLegal (attn bwdBytes) = true) := by
  decide +kernel

/-- The runs of the legal descriptors end whole, and the lines of all three are there. -/
theorem witness_AttentionClass_runs :
    (let x := AttnDesc.ofBytes false (((attn fwdBytes).core 0).stRead 0 128)
     ((attn fwdBytes).core 0).attnLines x = [] ∧ (((attn fwdBytes).attnRun 0).forward x false 0).2 = none) ∧
    (let x := AttnDesc.ofBytes true (((attn fwdBytes).core 0).stRead 0 128)
     ((attn fwdBytes).core 0).attnLines x = [] ∧ (((attn fwdBytes).attnRun 0).forward x true 0).2 = none) ∧
    (let x := BwdDesc.ofBytes (((attn bwdBytes).core 0).stRead 0 128)
     ((attn bwdBytes).core 0).bwdLines x = [] ∧ (((attn bwdBytes).attnRun 0).backward x 0).2 = none) ∧
    (((attn mergeBytes).attnRun 0).mergeAll (MergeDesc.ofBytes (((attn mergeBytes).core 0).stRead 0 64)) 0).2 = none := by decide +kernel

theorem witness_VectorLanes : comp.ready 0 .compute = true := by decide +kernel

/-- fp32: the last address that fits and the first that does not; a format and a rounding that are not allowed. -/
theorem witness_VectorMemory : comp.ready 0 .compute = true ∧ vecFmt 0x55 = none ∧ vecRnd 3 = none ∧ vecFmt 9 = some .fp32 ∧ vecRnd 0 = some .rne ∧
    (comp.core 0).vecAddr ⟨some 1, 0⟩ 1024 = .error errPoison ∧ (comp.core 0).vecAddr ⟨none, 32⟩ 1024 = .error errMisaligned ∧
    (comp.core 0).vecAddr ⟨none, 0x2FFC40⟩ 1024 = .error (errStore 0x300040) ∧ (comp.core 0).vecAddr ⟨none, 0x2FFC00⟩ 1024 = .ok 0x2FFC00 ∧
    ElemFmt.fp32.bytesFor 256 = 1024 ∧ (1 ≤ (1 : Byte).toNat ∧ (127 : BitVec 7).toNat + (1 : Byte).toNat ≤ 128) := by decide +kernel

/-- Core 0 bound to a snapshot that is not open. -/
def snapGoneCore : State := tran.modCore 0 (fun c => { c with regs := { c.regs with folio := 0x40000000000 } })

/-- Lengths at the edges of the list; a poisoned base; a misaligned address. -/
theorem witness_LoadStore : tran.ready 0 .transfer = true ∧
    ¬ ((0x20 : BitVec 21).toNat % 64 = 0) ∧ ¬ (64 ≤ (0 : BitVec 21).toNat) ∧ ¬ ((0x100040 : BitVec 21).toNat ≤ 1048576) ∧
    ((0x100000 : BitVec 21).toNat % 64 = 0 ∧ 64 ≤ (0x100000 : BitVec 21).toNat ∧ (0x100000 : BitVec 21).toNat ≤ 1048576) ∧
    ((64 : BitVec 21).toNat % 64 = 0 ∧ 64 ≤ (64 : BitVec 21).toNat) ∧ (tran.core 0).sbad 1 = true ∧ (tran.core 0).sbad 2 = false ∧
    ((tran.core 0).sget 2 + (32 : W32).signExtend 64).toNat % 64 ≠ 0 ∧ ((tran.core 0).sget 2 + (64 : W32).signExtend 64).toNat % 64 = 0 ∧
    (0 : BitVec 22).toNat % 64 = 0 ∧ tran.snapGone 0 = false ∧ snapGoneCore.ready 0 .transfer = true ∧ snapGoneCore.snapGone 0 = true ∧
    storeSize < (0x2FFFC0 : BitVec 22).toNat + (128 : BitVec 21).toNat ∧ (0x2FFFC0 : BitVec 22).toNat + (64 : BitVec 21).toNat ≤ storeSize := by
  decide +kernel

/-- The last granule of page 0, which is mapped; the first of page 1, which is not. -/
theorem witness_LoadStore_pages : (mapped tran).ready 0 .transfer = true ∧ (mapped tran).snapGone 0 = false ∧
    pagePieces 0xFFC0 64 = [(0xFFC0, 64)] ∧
    isOk ((mapped tran).translateAll ((mapped tran).coreReq 0 0 0 0xFFC0 0) (pagePieces 0xFFC0 64)) = true ∧
    ((mapped tran).storeRuns 0 0 0 [⟨0xFFC0, 0, 64⟩]).2 = none ∧ ((mapped tran).storeRuns 0 0 0 [⟨0x10000, 0, 64⟩]).2.isSome = true ∧
    (match (mapped tran).translate ((mapped tran).coreReq 0 0 0 0xFFC0 1) with
      | .ok x => isOk (((mapped tran).writePath 0 ((mapped tran).coreReq 0 0 0 0xFFC0 1) x 64).coreStore 0
          (transPieces [(x, 64)] (((mapped tran).core 0).stRead 0 64) (fun i => ((mapped tran).core 0).granBad (0 + 64 * i))))
      | .error _ => false) = true := by decide +kernel

/-- A transfer descriptor: one row of 64 bytes at 0. -/
def xferBytes (kind dir : Byte) : List Byte := [kind, 1, dir] ++ zeros 13 ++ [1, 0, 0, 0, 64] ++ zeros 43
/-- Core 0 with a descriptor at 0 and one id in its stream queue. -/
def xfer (kind dir : Byte) : State := (store 0 (xferBytes kind dir) tran).modCore 0 (fun c => { c with streamq := [⟨3, false⟩] })

/-- The same under a snapshot that is not open. -/
def snapGoneXfer (kind : Byte) : State := (xfer kind 0).modCore 0 (fun c => { c with regs := { c.regs with folio := 0x40000000000 } })

theorem witness_Descriptors : tran.ready 0 .transfer = true ∧
    (tran.core 0).readXfer 32 3 0 65536 (2 ^ 20) = .error errMisaligned ∧ (tran.core 0).readXfer 0 3 1 65536 (2 ^ 20) = .error errBadOrder ∧
    (tran.core 0).readStream 0 0 = .error errBadOrder ∧ (tran.core 0).readStream 0 1 = .error errBadOrder ∧
    (snapGoneXfer 3).ready 0 .transfer = true ∧ (snapGoneXfer 3).snapGone 0 = true ∧
    isOk (((snapGoneXfer 3).core 0).readXfer 0 3 0 65536 (2 ^ 20)) = true ∧ isOk (((snapGoneXfer 4).core 0).readStream 0 0) = true := by decide +kernel

/-- What the rows of a descriptor at 0 end in: load or store. -/
def rowsEnd (s : State) (dir : Nat) : Option Bool := match (s.core 0).readXfer 0 3 dir 65536 (2 ^ 20) with
  | .ok d => some (if dir = 0 then (s.loadRuns 0 d.space d.ctx d.runs d.runs).2 else (s.storeRuns 0 d.space d.ctx d.runs).2).isNone
  | .error _ => none
/-- What the elements of a descriptor at 0 end in. -/
def elemsEnd (s : State) (dir : Nat) : Option Bool := match (s.core 0).readStream 0 dir with
  | .ok (d, ids) =>
    let u := s.modCore 0 (fun c => { c with streamq := c.streamq.drop d.num })
    some (if dir = 0 then (u.loadRuns 0 d.space d.ctx (d.elems ids) (d.elems ids)).2 else (u.storeRuns 0 d.space d.ctx (d.elems ids)).2).isNone
  | .error _ => none

/-- Each of the four, with its page mapped and not. -/
theorem witness_Descriptors_run : ((mapped (xfer 3 0)).ready 0 .transfer = true ∧ (mapped (xfer 3 0)).snapGone 0 = false ∧ (xfer 3 0).snapGone 0 = false) ∧
    rowsEnd (mapped (xfer 3 0)) 0 = some true ∧ rowsEnd (xfer 3 0) 0 = some false ∧ rowsEnd (mapped (xfer 3 1)) 1 = some true ∧
    rowsEnd (xfer 3 1) 1 = some false ∧ elemsEnd (mapped (xfer 4 0)) 0 = some true ∧ elemsEnd (xfer 4 0) 0 = some false ∧
    elemsEnd (mapped (xfer 4 1)) 1 = some true ∧ elemsEnd (xfer 4 1) 1 = some false := by decide +kernel

/-- Core 0 whose stream queue holds `n` ids. -/
def streamed (n : Nat) : State := tran.modCore 0 (fun c => { c with streamq := List.replicate n ⟨0, false⟩ })
/-- Core 0 with one unit of stream (0, 7) in its inbound queue. -/
def inbound0 : State := tran.modCore 0 (fun c => { c with inbound := [⟨0, 7, 5, false⟩] })

/-- A core of a formed partition, its neighbour in soft reset. -/
def halfDown : State := (withPart tran).modCore 1 (fun c => { c with softReset := true })

/-- The stream queue filled to 4,096 ids, and one past it. -/
theorem witness_Streams : (streamed 4080).ready 0 .transfer = true ∧
    ¬ ((0x20 : BitVec 21).toNat % 64 = 0) ∧ ((64 : BitVec 21).toNat % 64 = 0 ∧ 64 ≤ (64 : BitVec 21).toNat ∧ (64 : BitVec 21).toNat ≤ 1048576 ∧
      (0 : BitVec 22).toNat + (64 : BitVec 21).toNat ≤ storeSize) ∧ (32 : BitVec 22).toNat % 64 ≠ 0 ∧
    storeSize < (0x300000 : BitVec 22).toNat + (64 : BitVec 21).toNat ∧
    ((streamed 4080).core 0).streamq.length + (((streamed 4080).core 0).streamIds 0 64 false).length = 4096 ∧
    (streamed 4081).ready 0 .transfer = true ∧ 4096 < ((streamed 4081).core 0).streamq.length + (((streamed 4081).core 0).streamIds 0 64 false).length ∧
    (tran.ready 0 .transfer = true ∧ ∃ d ∈ rectCores 0 1, tran.sameRect 0 d = false) ∧
    ((withPart tran).ready 0 .transfer = true ∧ (∀ d ∈ rectCores 0 1, (withPart tran).sameRect 0 d = true) ∧
      ∀ d ∈ rectCores 0 1, ((withPart tran).core d).accepts = true) ∧
    (halfDown.ready 0 .transfer = true ∧ (∀ d ∈ rectCores 0 1, halfDown.sameRect 0 d = true) ∧ rectCores 0 1 = [0] ++ 1 :: [] ∧
      (halfDown.core 0).accepts = true ∧ (halfDown.core 1).accepts = false) ∧
    (inbound0.ready 0 .transfer = true ∧ ((inbound0.core 0).takeUnits 0 7 0 1).2.2 = 0 ∧ ((tran.core 0).takeUnits 0 7 0 1).2.2 ≠ 0) := by decide +kernel

/-- Core 0 with 511 units in its inbound queue and one more on the mesh. -/
def arriving : State := { core0 (fun c => { c with inbound := List.replicate 511 ⟨1, 7, 0, false⟩, outStores := [⟨false⟩, ⟨true⟩] }) with
  mesh := { on.mesh with sends := [⟨1, 0, 7, [(0, false)]⟩] } }

/-- The same with a full inbound queue. -/
def arrivingFull : State := arriving.modCore 0 (fun c => { c with inbound := List.replicate 512 ⟨1, 7, 0, false⟩ })
/-- The same to a core that is OFF. -/
def arrivingOff : State := arriving.modCore 0 (fun c => { c with mode := .off })
/-- The same to a core that waits for two units. -/
def arrivingWait : State := arriving.modCore 0 (fun c => { c with mode := .running, wait := some (.waitin 1 7 2) })

theorem witness_Arrivals :
    (let x := takeNth (fun m : MeshSend => decide (m.dst = 0)) 0 arriving.mesh.sends
     x = some (⟨1, 0, 7, [(0, false)]⟩, []) ∧ takeNth (fun m : MeshSend => decide (m.dst = 0) && decide (m.src = 1) && decide (m.tag = 7)) 0 arriving.mesh.sends = x) ∧
    takeNth (fun m : MeshSend => decide (m.dst = 0)) 1 arriving.mesh.sends = none ∧ (arriving.core 0).accepts = true ∧ (arriving.core 0).wait = none ∧
    [((0 : BitVec 512), false)].length ≤ 512 - (arriving.core 0).inbound.length ∧ 512 - (arrivingFull.core 0).inbound.length < 1 ∧
    (arrivingFull.core 0).accepts = true ∧ (arrivingOff.core 0).accepts = false ∧
    ((arrivingWait.core 0).accepts = true ∧ (arrivingWait.core 0).wait = some (.waitin 1 7 2)) ∧
    takeNth (fun o : OutStore => !o.held) 0 (arriving.core 0).outStores = some (⟨false⟩, [⟨true⟩]) ∧
    takeNth (fun o : OutStore => !o.held) 0 (on.core 0).outStores = none := by decide +kernel

/-- Core 0 with the rotary line 0 present and a fill of line 64 under way. -/
def rotary : State := (mapped tran).modCore 0 (fun c => { c.rotUse ⟨0, 0, false⟩ with rotFills := [64] })

/-- The same without a page table; and under a snapshot that is not open. -/
def rotaryLost : State := tran.modCore 0 (fun c => { c with rotFills := [64] })
def rotaryGone : State := snapGoneCore.modCore 0 (fun c => { c with rotFills := [64] })

theorem witness_RotaryCache : (∀ l ∈ [0], ((rotary.core 0).rotLine l).isSome = true) ∧ (∃ l ∈ [0, 128], ((rotary.core 0).rotLine l).isSome = false) ∧
    tran.ready 0 .transfer = true ∧ (tran.core 0).sbad 1 = true ∧ (tran.core 0).sbad 2 = false ∧ tran.snapGone 0 = false ∧
    (snapGoneCore.ready 0 .transfer = true ∧ snapGoneCore.snapGone 0 = true ∧ (snapGoneCore.core 0).sbad 2 = false) ∧
    (rotary.ready 0 .transfer = true ∧ rotary.snapGone 0 = false ∧ (rotary.rotFillAll 0 (linesOf 0 64)).2 = none ∧
      (tran.rotFillAll 0 (linesOf 0 64)).2.isSome = true) ∧
    takeNth (fun _ : Nat => true) 0 (rotary.core 0).rotFills = some (64, []) ∧ isOk (rotary.readRotLine 0 64) = true ∧
    ((rotaryLost.core 0).rotFills = [64] ∧ rotaryLost.snapGone 0 = false ∧ isOk (rotaryLost.readRotLine 0 64) = false) ∧
    ((rotaryGone.core 0).rotFills = [64] ∧ rotaryGone.snapGone 0 = true) ∧ (rotary.core 0).rotFills.length ≤ 1 ∧
    (on.core 0).mode ≠ .running ∧ (tran.core 0).mode = .running := by
  decide +kernel

/-- Core 0 waiting for a flag. -/
def flagged : State := tran.modCore 0 (fun c => { c with wait := some (.flag 8 true 1) })
/-- Core 0 with a page table, in its transfer phase. -/
def flagTran : State := mapped tran
/-- The same, bound to a folio slot that is not open; and the page's granule 0 poisoned. -/
def flagClosed : State := flagTran.modCore 0 (fun c => { c with regs := { c.regs with folio := 0x4001 } })
def flagBad : State := flagTran.modMem (fun m => { m with cells := m.cells, poison := Cells.set m.poison (0x40000 / 64) 1 })
/-- Core 0 with a store that is not complete, in its transfer phase. -/
def flagBusy : State := tran.modCore 0 (fun c => { c with outStores := [⟨false⟩] })

/-- What a poll of the word at 8 by core 0 finds: whether it is bad, and whether it meets `v`. -/
def polled (s : State) (v : Nat) : Option (Bool × Bool) := match s.translate (s.coreReq 0 0 0 8 0) with
  | .ok x =>
    let q := s.coreReq 0 0 0 8 0
    let u := (s.readPath 0 q [(8, 8)] [(x, 8)]).touch 0 (some q.part) x.ua 8
    some ((u.readLe q.view x.ua 8).2 || bitOf x.entry 4, decide ((u.readLe q.view x.ua 8).1 = v))
  | .error _ => none

/-- A page that is not mapped, a poisoned word, one that meets its value and one that does not. -/
theorem witness_Flags : tran.ready 0 .transfer = true ∧ (tran.core 0).sbad 1 = true ∧ (tran.core 0).sbad 2 = false ∧
    ((tran.core 0).sget 2 + (4 : W32).signExtend 64).toNat % 8 ≠ 0 ∧ ((tran.core 0).sget 2 + (8 : W32).signExtend 64).toNat % 8 = 0 ∧
    (snapGoneCore.ready 0 .transfer = true ∧ snapGoneCore.snapGone 0 = true ∧ (snapGoneCore.core 0).sbad 2 = false) ∧ tran.snapGone 0 = false ∧
    isOk (tran.translate (tran.coreReq 0 0 0 8 0)) = false ∧ isOk (tran.translate (tran.coreReq 0 0 0 8 1)) = false ∧
    (flagTran.ready 0 .transfer = true ∧ flagTran.snapGone 0 = false ∧ polled flagTran 0 = some (false, true) ∧
      polled flagTran 5 = some (false, false) ∧ (flagTran.core 0).wait = none ∧ polled flagBad 0 = some (true, true)) ∧
    (flagBusy.ready 0 .transfer = true ∧ flagBusy.xferDone 0 = false ∧ (flagBusy.core 0).sbad 2 = false) ∧ tran.xferDone 0 = true ∧
    (flagTran.xferDone 0 = true ∧ flagTran.translate (flagTran.coreReq 0 0 0 8 1) = .ok ⟨0x40008, 0x40003, 0x30000⟩ ∧
      isOk (flagTran.coreStore 0 [⟨0x40008, leBytes 8 0, false⟩]) = true) ∧
    (flagClosed.ready 0 .transfer = true ∧ isOk (flagClosed.translate (flagClosed.coreReq 0 0 0 8 1)) = true ∧
      isOk (flagClosed.coreStore 0 [⟨0x40008, leBytes 8 0, false⟩]) = false) ∧
    ((flagged.core 0).mode = .running ∧ (flagged.core 0).wait = some (.flag 8 true 1) ∧ (mapped flagged).snapGone 0 = false ∧
      polled (mapped flagged) 1 = some (false, false)) := by decide +kernel

/-- A group of two ranks at the start of device-virtual page 0: both of this module; rank 0's ready entry and rank 1's count entry hold call 0. -/
def grouped : State := (mapped tran).modMem (fun m => { m with cells := m.cells ++ [(0x40000, 0x62), (0x40001, 1), (0x40002, 2), (0x40006, 1),
  (0x4000E, 1), (0x40019, 4), (0x40045, 0xFF), (0x4004D, 0xFF), (0x40400, 1), (0x40430, 1)] })
/-- A step descriptor of one source of 64 bytes at 0x1000 of the store: its operation, flags, rank, slot, call and deadline. -/
def stepBytes (op flags rank : Byte) (cseq deadline : Byte) : List Byte :=
  [0x60, 1, op, flags, rank, 0, 1, 0, 0, 0, 0, 0, 0, 0x10, 0, 0, 0, 0, 0, 0, 64] ++ zeros 19 ++ [cseq] ++ zeros 7 ++ [deadline] ++ zeros 15
/-- A count descriptor for call `cseq`, its counts at 0, its sums at 0x1000. -/
def countBytes (cseq : Byte) : List Byte := [0x61, 1, 0, 0, 0, 0, 0, 0, 0, 0x10] ++ zeros 14 ++ [cseq] ++ zeros 39
/-- Core 0 of the group with a descriptor at 64. -/
def stepping (b : List Byte) : State := store 64 b grouped
/-- The group at 0, as core 0 reads it. -/
def groupOf0 (s : State) : Option Group := match s.groupAt 0 0 with
  | .ok g => some g
  | .error _ => none
/-- Whether the ready entry of the one source of a TAKE holds its call. -/
def sourceReady (s : State) (b : List Byte) : Option Bool := match groupOf0 s with
  | some g => match s.takeReady 0 g (StepDesc.ofBytes b) 0 with
    | .ok x => some x.isSome
    | .error _ => none
  | none => none
/-- What taking its one source ends in. -/
def sourceTaken (s : State) (b : List Byte) : Bool := (groupOf0 s).any (fun g => (s.takeSource 0 g (StepDesc.ofBytes b) 0).2.isNone)
/-- How many count entries of call `cseq` are there. -/
def countsThere (s : State) (cseq : W64) : Option Nat := match groupOf0 s with
  | some g => match (List.range g.n).mapM (fun r => s.countReady 0 g cseq r) with
    | .ok cs => some (cs.filter Option.isSome).length
    | .error _ => none
  | none => none
/-- Core 0 of the group after its counts are sent. -/
def countsSent (s : State) (b : List Byte) : State := match groupOf0 s with
  | some g => (List.range g.n).foldl (fun (t : State) j => match s.rankAt 0 0 j with
    | .ok rk => t.sendColl 0 rk ⟨0, g.epoch, g.rank, 0, 1, 0, (t.core 0).stLe (leField b 4 4 + 4 * j) 4, BitVec.ofNat 64 (leField b 24 8)⟩ 0 64 .zeros
    | .error _ => t) s
  | none => s
/-- Core 0 that waits in a TAKE of `b`, at time 10. -/
def taking (b : List Byte) : State :=
  { (stepping b).modCore 0 (fun c => { c with wait := some (.take b []) }) with clock := { on.clock with time := 10 } }
/-- Core 0 that waits in a CCOUNT of `b`. -/
def countWait (b : List Byte) : State := (stepping b).modCore 0 (fun c => { c with wait := some (.ccount b []) })

theorem witness_CollectiveSteps : (tran.ready 0 .transfer = true ∧ (tran.core 0).descAddr (desc 0x2FFFC0) = .ok 0x2FFFC0 ∧ 0x2FFFC0 + 64 ≤ storeSize ∧
      (tran.core 0).stBad 0x2FFFC0 64 = false ∧ stepOk (zeros 64) 1 = false ∧ stepOk (zeros 64) 2 = false ∧ countOk (zeros 64) = false) ∧
    (∀ b ∈ [stepBytes 1 0 1 0 0, stepBytes 2 0 0 0 0, stepBytes 2 16 0 0 0, stepBytes 2 0 1 0 0, countBytes 0, countBytes 7],
      (stepping b).ready 0 .transfer = true ∧ ((stepping b).core 0).stRead 64 64 = b ∧ (groupOf0 (stepping b)).isSome = true) := by decide +kernel

/-- A PUT to a rank of this module. -/
theorem witness_CollectiveSteps_put : stepOk (stepBytes 1 0 1 0 0) 1 = true ∧ (stepping (stepBytes 1 0 1 0 0)).address = 0 ∧
    ((stepping (stepBytes 1 0 1 0 0)).part 0).mode ≠ .unformed ∧
    (((stepping (stepBytes 1 0 1 0 0)).rankAt 0 0 1).map (fun rk => decide (rk = GroupRank.mk 0 0 none))).toOption = some true ∧
    (((stepping (stepBytes 1 0 1 0 0)).sendLocal 0 (CollLead.mk 0 0 0 0 0 0 0 0).bytes 64 (.store 0 0x1000)).map
      (fun u => decide ((u.core 0).mode ≠ .faulted))).toOption = some true := by decide +kernel

/-- A TAKE whose source is ready, without and with a laggard record, one whose source is not, first and while it waits; its deadline passed. -/
theorem witness_CollectiveSteps_take : (∀ b ∈ [stepBytes 2 0 0 0 0, stepBytes 2 16 0 0 0], stepOk b 2 = true ∧ sourceReady (stepping b) b = some true ∧
      sourceTaken (stepping b) b = true ∧ (StepDesc.ofBytes b).count = 1) ∧
    (bitOf (StepDesc.ofBytes (stepBytes 2 0 0 0 0)).flags 4 = false ∧ bitOf (StepDesc.ofBytes (stepBytes 2 16 0 0 0)).flags 4 = true) ∧
    (sourceReady (stepping (stepBytes 2 0 1 0 0)) (stepBytes 2 0 1 0 0) = some false ∧ ((stepping (stepBytes 2 0 1 0 0)).core 0).wait = none) ∧
    (∀ b ∈ [stepBytes 2 0 0 0 0, stepBytes 2 0 1 0 9], ((taking b).core 0).mode = .running ∧ ((taking b).core 0).wait = some (.take b []) ∧
      (groupOf0 (taking b)).isSome = true) ∧
    sourceReady (taking (stepBytes 2 0 0 0 0)) (stepBytes 2 0 0 0 0) = some true ∧
    sourceReady (taking (stepBytes 2 0 1 0 9)) (stepBytes 2 0 1 0 9) = some false ∧
    ((CoreWait.take (stepBytes 2 0 1 0 9) []).deadline ≠ 0 ∧ (CoreWait.take (stepBytes 2 0 1 0 9) []).deadline < (taking (stepBytes 2 0 1 0 9)).now) := by
  decide +kernel

/-- A CCOUNT that finds every entry and one that finds some, first and while it waits. -/
theorem witness_CollectiveSteps_count : countOk (countBytes 0) = true ∧ countOk (countBytes 7) = true ∧
    (let u := countsSent (stepping (countBytes 0)) (countBytes 0)
     (u.core 0).mode ≠ .faulted ∧ countsThere u 0 = some 2) ∧
    (let u := countsSent (stepping (countBytes 7)) (countBytes 7)
     (u.core 0).mode ≠ .faulted ∧ countsThere u 7 = some 1) ∧
    (((countWait (countBytes 0)).core 0).mode = .running ∧ ((countWait (countBytes 0)).core 0).wait = some (.ccount (countBytes 0) []) ∧
      countsThere (countWait (countBytes 0)) 0 = some 1 ∧ countsThere (countsSent (countWait (countBytes 0)) (countBytes 0)) 0 = some 2) := by decide +kernel

/-- Core 0 in a compute phase that ends. -/
def ending : State := core0 (fun c => { inPhase .compute c with flags := { c.flags with ending := true } })
/-- The same with a cut that waits and a pending invalidate. -/
def endingCut : State := ending.modCore 0 (fun c => { c with flags := { c.flags with cutReq := true, invalBusy := true } })
/-- Core 0 in a phase that ends, a store not complete. -/
def endingBusy : State := core0 (fun c => { inPhase .transfer c with flags := { c.flags with ending := true }, outStores := [⟨false⟩] })
/-- Core 0 in the turn to a transfer phase. -/
def turning : State := core0 (fun c => { inPhase .turn c with nextPhase := .transfer })
/-- Core 0 in the turn to `p`. -/
def turningTo (p : Phase) : State := core0 (fun c => { inPhase .turn c with nextPhase := p })
/-- The same in a group of two. -/
def turningPair : State := [0, 1, 2, 3].foldl (fun s n => s.modCore n (fun c => { c with regs := { c.regs with groupLog2 := 1 } })) turning
/-- The same with the token. -/
def turningHolder : State := { turningPair with mesh := { turningPair.mesh with holder := Tab.set none turningPair.mesh.holder (turningPair.groupKey 0) (some 0) } }
/-- Core 1 of a group of two waits for the token. -/
def tokenWaits : State := turningPair.modCore 1 (fun c => { c with mode := .running, flags := { c.flags with tokenWait := true } })

theorem witness_Phases :
    ((comp.core 0).canIssue = true ∧ (comp.core 0).pcIndex < 2048 ∧ (comp.core 0).mem.progBad.get (comp.core 0).pcIndex ≠ 1 ∧ (comp.core 0).phase = .compute) ∧
    ((tran.core 0).canIssue = true ∧ (tran.core 0).pcIndex < 2048 ∧ (tran.core 0).mem.progBad.get (tran.core 0).pcIndex ≠ 1 ∧ (tran.core 0).phase = .transfer) ∧
    ((ending.core 0).mode = .running ∧ (ending.core 0).flags.ending = true ∧ (ending.core 0).wait = none ∧ (ending.core 0).flags.rotStall = false ∧
      (ending.core 0).flags.cutReq = false ∧ (ending.core 0).flags.invalBusy = false ∧ ending.xferDone 0 = true) ∧
    ((endingCut.core 0).mode = .running ∧ (endingCut.core 0).flags.ending = true ∧ (endingCut.core 0).wait = none ∧ endingCut.xferDone 0 = true ∧
      (endingCut.core 0).flags.rotStall = false) ∧
    ((endingBusy.core 0).flags.ending = true ∧ endingBusy.xferDone 0 = false) ∧
    ((turning.core 0).mode = .running ∧ (turning.core 0).phase = .turn ∧ (turning.core 0).nextPhase = .transfer ∧ turning.groupSize 0 = 1) ∧
    (((turningTo .compute).core 0).nextPhase = .compute ∧ ((turningTo .none).core 0).nextPhase = .none ∧
      ((turningTo .none).core 0).phase = .turn) ∧
    ((turningPair.core 0).mode = .running ∧ (turningPair.core 0).phase = .turn ∧ (turningPair.core 0).nextPhase = .transfer ∧ turningPair.groupSize 0 ≠ 1 ∧
      turningPair.holdsToken 0 = false) ∧ (turningHolder.groupSize 0 ≠ 1 ∧ turningHolder.holdsToken 0 = true) ∧
    (tokenWaits.tokenFree 0 = true ∧ tokenWaits.tokenQueue 0 = [1]) ∧ (turningHolder.tokenFree 1 = false ∧ turningPair.tokenQueue 0 = []) := by decide +kernel

/-- Core 0 in the mode `m`. -/
def moded (m : CoreMode) : State := core0 (fun c => { c with mode := m })
/-- Core 0 under a halt request, its watchdog armed. -/
def halting : State := core0 (fun c => { inPhase .compute c with flags := { c.flags with haltReq := true }, regs := { c.regs with wdogEn := true, wdogTimeout := 1 } })
/-- Core 0 under a soft reset. -/
def softly : State := core0 (fun c => { c with softReset := true })
/-- The governor's level above the demand of a start. -/
def powered : State := { on with power := { on.power with level := 60000 } }

/-- The governor's level below the demand. -/
def busy : State := { on with power := { on.power with demand := 1000000 } }
/-- A start of core 3 held by the governor. -/
def startHeld : State := { on with power := { on.power with held := [.start 3 0] } }

theorem witness_CoreControl : ((powered.core 0).startOk = true ∧ powered.heldStarts = [] ∧ powered.groupFits 0 = true) ∧
    ((busy.core 0).startOk = true ∧ (∀ h ∈ busy.heldStarts, h.1 ≠ 0) ∧ busy.groupFits 0 = false) ∧
    ((∀ h ∈ startHeld.heldStarts, h.1 ≠ 0) ∧ startHeld.heldStarts ≠ []) ∧ (comp.core 0).startOk = false ∧
    ((halting.core 0).mode = .running ∧ (halting.core 0).flags.haltReq = true ∧ (halting.core 0).wait = none ∧ (halting.core 0).flags.rotStall = false ∧
      (halting.core 0).flags.cutReq = false ∧ (halting.core 0).flags.invalBusy = false ∧ halting.xferDone 0 = true ∧ (halting.core 0).regs.wdogEn = true ∧
      (halting.core 0).regs.wdogTimeout ≠ 0) ∧
    ((on.core 0).mode ≠ .off ∧ (on.core 0).mode ≠ .cut ∧ (on.core 0).mode = .idle) ∧
    ((softly.core 0).softReset = true ∧ softly.xferDone 0 = true ∧ (softly.core 0).load = none ∧ (softly.core 0).flags.cutReq = false) ∧
    (((moded .halted).core 0).mode = .halted ∧ ((moded .faulted).core 0).mode = .faulted ∧ ((moded .cut).core 0).mode = .cut ∧ ((moded .off).core 0).mode = .off) := by
  decide +kernel

/-- One error below a limit of CORE_CUT and one that reaches it, of a core that runs and of one that does not. -/
theorem witness_CoreControl_cut :
    let u (s : State) (lost fixed : Nat) : State := (s.countSram (unitCore 0) lost fixed).countCore 0 0x19 fixed
    let limit (s : State) (lost fixed : Nat) : Bool := decide (s.dictVal 0x7010 1 ≤ ((u s lost fixed).sramOf (unitCore 0)).lost) ||
      decide (s.dictVal 0x7010 2 ≤ ((u s lost fixed).sramOf (unitCore 0)).fixed)
    limit on (on.dictVal 0x7010 1 - 1) 0 = false ∧ limit on (on.dictVal 0x7010 1) 0 = true ∧ limit comp 0 (comp.dictVal 0x7010 2) = true ∧
    limit comp 0 (comp.dictVal 0x7010 2 - 1) = false ∧ (comp.core 0).mode = .running ∧ (on.core 0).mode = .idle := by decide +kernel

/-- A load of one instruction from device-virtual `src` under way. -/
def loading (src : Nat) : State := mapped (core0 (fun c => { c with load := some ⟨0, 1, src⟩ }))
/-- The translations a load takes. -/
def loadOk (s : State) (src : Nat) : Bool := isOk ((s.modCore 0 (fun c => { c with load := none })).translateAll
  (s.coreReq 0 0 0 src 0) (pagePieces src 16))

/-- A load of a core under a snapshot that is not open. -/
def loadingGone : State := (loading 0).modCore 0 (fun c => { c with regs := { c.regs with folio := 0x40000000000 } })

/-- A load to the end of the program buffer and one past it; a target in the partition and one outside it. -/
theorem witness_CoreRegisters : (comp.core 0).mode = .running ∧ (on.core 0).mode ≠ .running ∧
    ((on.core 0).mode = .idle ∧ (on.core 0).load = none ∧ bitOf (0x800FFF : W32).toNat 23 = true ∧ bits (0x800FFF : W32).toNat 11 12 ≠ 0 ∧
      bits (0x800FFF : W32).toNat 0 11 + bits (0x800FFF : W32).toNat 11 12 ≤ 2048) ∧
    (bitOf (0x8017FF : W32).toNat 23 = true ∧ 2048 < bits (0x8017FF : W32).toNat 0 11 + bits (0x8017FF : W32).toNat 11 12) ∧
    (bitOf (0x800000 : W32).toNat 23 = true ∧ bits (0x800000 : W32).toNat 11 12 = 0) ∧ bitOf (0x000FFF : W32).toNat 23 = false ∧
    ((loading 0).core 0).load.isSome = true ∧ (comp.core 0).load = none ∧
    (((loading 0).core 0).load = some ⟨0, 1, 0⟩ ∧ (loading 0).snapGone 0 = false ∧ loadOk (loading 0) 0 = true) ∧
    (((loading 0x10000).core 0).load = some ⟨0, 1, 0x10000⟩ ∧ (loading 0x10000).snapGone 0 = false ∧ loadOk (loading 0x10000) 0x10000 = false) ∧
    ((loadingGone.core 0).load = some ⟨0, 1, 0⟩ ∧ loadingGone.snapGone 0 = true) ∧
    (withPart on).rubricInPart 0 (bits (0x100000 : W32).toNat 19 5) = true ∧
    (withPart on).rubricInPart 0 (bits (0x180000 : W32).toNat 19 5) = false := by decide +kernel

/-! Witnesses: time, power, registers, module states, partitions -/

/-- Port 0 UP and the path to the time root, a request of number 0 outstanding, an announcement heard at time 0. -/
def timed (enc : Bool) (t : W64) : State := { on.setPort 0 { on.port 0 with mode := .up, encOn := enc, heard := some ⟨1, 1, 0, 0⟩ } with
  link := { (on.setPort 0 { on.port 0 with mode := .up, encOn := enc, heard := some ⟨1, 1, 0, 0⟩ }).link with
    time := { TimeState.reset with parent := some 0, request := some 0, lastValid := 0 } }, clock := { on.clock with time := t } }
/-- The same while two groups are to be replayed. -/
def timedReplay : State := (timed false 0).setPort 0 { (timed false 0).port 0 with resend := 2 }
/-- The same, held. -/
def timedHeld : State := (timed false 0).setPort 0 { (timed false 0).port 0 with held := true }
/-- The header of a TIME flit. -/
def timeHead : List Byte := flitHead .time 0 0 0 false false
/-- One of kind `k`, the tag `t`. -/
def timeTagged (k : Byte) (t : List Byte) : TimeMsg := ⟨flitOf timeHead (sealPlain [k] 1 ++ t), 0⟩
/-- A TIME flit of kind `k` in the clear. -/
def timeOf (k : Byte) : TimeMsg := timeTagged k (zeros 16)
/-- The tag of kind `k` under a key. -/
def timeTag (k : Byte) (key : BitVec 288) : List Byte := bodyTag key (sealPlain [k] 1)
/-- A tag with every lowest bit changed. -/
def flipped (t : List Byte) : List Byte := t.map (fun b => b ^^^ 1)

/-- A changed tag is another. -/
theorem flipped_ne {t : List Byte} (h : t.length = 16) : flipped t ≠ t := by
  cases t with
  | nil => simp at h
  | cons b r => exact fun e => absurd (List.cons.inj e).1 (by clear h e; revert b; decide)

/-- R327: a tagged TIME flit is correct and of its kind. -/
theorem timeTagged_heard (k : Byte) {t : List Byte} (ht : t.length = 16) : flitOk (timeTagged k t).flit = true ∧
    flitType (timeTagged k t).flit = some .time ∧ leField (flitBody (timeTagged k t).flit) 0 1 = k.toNat ∧ flitPhase (timeTagged k t).flit = false := by
  have hb : (sealPlain [k] 1 ++ t).length = 244 := by rw [List.length_append, sealPlain_length, ht]
  refine ⟨flitOk_flitOf (by decide) hb, flitType_flitOf _ _ _ _ _ _ _ (by decide), ?_, ?_⟩
  · unfold timeTagged
    rw [flitBody_flitOf (by decide) hb]
    have h : sealPlain [k] 1 ++ t = k :: ((((([] : List Byte) ++ List.replicate 212 0).take 211 ++ leBytes 8 (1 : W64).toNat) ++ List.replicate 8 0) ++ t) := rfl
    rw [h]
    simp only [leField, List.drop_zero, List.take_succ_cons, List.take_zero, ofLeBytes, Nat.mul_zero, Nat.add_zero]
  · unfold timeTagged flitPhase
    rw [leField_flitOf (by decide)]
    decide

/-- An encrypted flit of each kind that verifies and is fresh, and one whose tag fails. -/
theorem witness_GlobalTime_sealed (k : Byte) : let x := (timed true 0).port 0
    x.mode = .up ∧ x.encOn = true ∧ flitOk (timeTagged k (timeTag k (x.rxKey false))).flit = true ∧
    bodyTagOk (timeTagged k (timeTag k (x.rxKey false))).flit (x.rxKey (flitPhase (timeTagged k (timeTag k (x.rxKey false))).flit)) = true ∧
    x.fresher (bodyUctr (flitBody (timeTagged k (timeTag k (x.rxKey false))).flit)) = true ∧
    bodyTagOk (timeTagged k (flipped (timeTag k (x.rxKey false)))).flit
      (x.rxKey (flitPhase (timeTagged k (flipped (timeTag k (x.rxKey false)))).flit)) = false := by
  intro x
  have h16 : (timeTag k (x.rxKey false)).length = 16 := by
    unfold timeTag bodyTag
    exact gcmTag_length _ _ _ _
  have hf : (flipped (timeTag k (x.rxKey false))).length = 16 := by simp [flipped, h16]
  refine ⟨rfl, rfl, (timeTagged_heard k h16).1, ?_, rfl, ?_⟩
  · rw [(timeTagged_heard k h16).2.2.2]
    exact (bodyTagOk_flitOf (by decide) _ _ _ _ h16).trans (decide_eq_true rfl)
  · rw [(timeTagged_heard k hf).2.2.2]
    exact (bodyTagOk_flitOf (by decide) _ _ _ _ hf).trans (decide_eq_false (flipped_ne h16))

/-- A flit of each kind in the clear. -/
theorem witness_GlobalTime_clear (k : Byte) : flitOk (timeOf k).flit = true ∧ flitType (timeOf k).flit = some .time ∧
    leField (flitBody (timeOf k).flit) 0 1 = k.toNat := by
  have h := timeTagged_heard k (t := zeros 16) (by decide)
  exact ⟨h.1, h.2.1, h.2.2.1⟩

theorem witness_GlobalTime : on.modu.state ≠ .off ∧ State.reset.modu.state = .off ∧ State.reset.plug.standbyRails = false ∧
    ((timed false 0).link.time.parent = some 0 ∧ ((timed false 0).port 0).mode = .up ∧ ((timed false 0).port 0).resend = 0 ∧
      (timedReplay.port 0).resend ≠ 0 ∧ (timedReplay.port 0).mode = .up ∧ timedReplay.link.time.parent = some 0) ∧
    (∀ p, on.link.time.parent = some p → (on.port p).mode ≠ .up) ∧
    (((timed false 0).port 0).encOn = false ∧
      (timed false 0).link.time.request = some (BitVec.ofNat 16 (leField (flitBody (timeOf 1).flit) 12 2)) ∧ ((timed false 0).port 0).held = false) ∧
    (on.link.time.parent ≠ some 0 ∧ (timedHeld.port 0).held = true ∧ (timedHeld.port 0).mode = .up) ∧ flitOk [] = false ∧
    (((timed false 12000001).port 0).heard = some ⟨1, 1, 0, 0⟩ ∧ (0 : W64).toNat + 12000000 < (timed false 12000001).clock.time.toNat) ∧
    (∀ i < 30, (on.port (portOf i)).mode ≠ .up) ∧ on.plug.mainOn = true := by decide +kernel

/-- 10 ms to the tick, and one tick less; the response is that of `witness_GlobalTime_clear`. -/
theorem witness_Holdover : ((timed false 12000000).link.time.isRoot = false ∧ (timed false 12000000).clock.holdover = false ∧
      (timed false 12000000).link.time.lastValid.toNat + 12000000 ≤ (timed false 12000000).clock.time.toNat) ∧
    (timed false 11999999).clock.time.toNat < (timed false 11999999).link.time.lastValid.toNat + 12000000 ∧
    ((timed false 0).port 0).mode = .up ∧ ((timed false 0).port 0).encOn = false ∧ (timed false 0).link.time.parent = some 0 ∧
    (timed false 0).link.time.request = some (BitVec.ofNat 16 (leField (flitBody (timeOf 1).flit) 12 2)) := by decide +kernel

/-- The block with power and clocks as given. -/
def powerWith (f : PowerState → PowerState) (g : ClockState → ClockState) : State := { on with power := f on.power, clock := g on.clock }

theorem witness_Governor : ((powerWith (fun p => { p with governor := true, levelFrac := 999 }) id).power.governor = true ∧
      (powerWith (fun p => { p with governor := true, levelFrac := 999 }) id).power.levelFrac < 1000) ∧
    (powerWith id (fun c => { c with stepBusy := true })).clock.stepBusy = true ∧
    (on.power.governor = false ∧ on.clock.stepBusy = false ∧ on.plug.mainOn = true ∧
      (powerWith id (fun c => { c with rootStep := 0 })).clock.rootStep = 0) ∧
    ((powerWith (fun p => { p with held := [.rootUp] }) (fun c => { c with rootStep := 2 })).heldGroup = [] ∧
      .rootUp ∈ (powerWith (fun p => { p with held := [.rootUp] }) (fun c => { c with rootStep := 2 })).power.held ∧
      (powerWith (fun p => { p with held := [.rootUp], wantBase := 0 }) (fun c => { c with rootStep := 2 })).rootGoal < 2) ∧
    ((powerWith (fun p => { p with held := [.start 0 0], level := 60000 }) id).power.held = [.start 0 0] ∧ (on.core 0).regs.groupLog2 = 0 ∧
      (on.core 0).startOk = true ∧ (powerWith (fun p => { p with held := [.start 0 0], level := 60000 }) id).fitsRise
        (startCharge (powerWith (fun p => { p with held := [.start 0 0], level := 60000 }) id).clock.rootStep) = true) ∧
    ((powerWith (fun p => { p with held := [.rootUp] }) id).power.held ≠ [] ∧ on.log.lastSlewHold = none) := by decide +kernel

/-- A step down and a step up by which the goal passes the root step; a start held before it, and one that fits. Whether the free size of a
rise fits is not known (log 1): the two clauses that turn on it together take every size. -/
theorem witness_Governor_steps : (on.clock.rootStep.toNat < (powerWith (fun p => { p with wantBase := BitVec.ofNat 2 (min 2 (on.rootGoal + 1)) }) id).rootGoal) ∧
    (powerWith (fun p => { p with wantBase := BitVec.ofNat 2 (on.rootGoal - 1) }) (fun c => { c with rootStep := 2 })).rootGoal < 2 ∧ on.power.held = [] ∧
    (let s := powerWith (fun p => { p with held := [.start 3 0], level := 60000 }) (fun c => { c with rootStep := 2 })
     (HeldAction.rootUp ∉ s.power.held ∧ s.power.held ≠ []) ∧ s.heldGroup ≠ [] ∧
     s.fitsRise (s.heldGroup.length * startCharge s.clock.rootStep) = true) := by decide +kernel

/-- A temperature report: the hottest die at `t`. -/
def report (t : Byte) : TempReport := ⟨t, 0, 0, 0, 0, 0⟩

theorem witness_PowerLimits : (on.modu.state ≠ .off ∧ on.power.inputFault = false) ∧
    (powerWith (fun p => { p with inputFault := true }) id).power.inputFault = true ∧ on.plug.precharge = true ∧
    ({ on with plug := { on.plug with overvoltage := true } } : State).plug.overvoltage = true ∧ on.plug.mainOn = true ∧
    on.dictVal 0x2100 1 < (0xFFFF : W16).toNat ∧ (powerWith id (fun c => { c with rootStep := 2 })).clock.rootStep = 2 ∧ on.clock.rootStep ≠ 2 ∧
    on.clock.stepBusy = false ∧ (powerWith (fun p => { p with gateLimit := true }) id).power.gateLimit = true ∧
    on.dictVal 0x2120 2 ≤ max (max (report 255).cMax.toNat 0) (max 0 0) ∧
    max (max (report 20).cMax.toNat 0) (max 0 0) < on.dictVal 0x2120 2 ∧ max (max (report 20).cMax.toNat 0) (max 0 0) < on.dictVal 0x2120 1 ∧
    on.power.throttle = false := by decide +kernel

/-- Die 0 in the die map; core 0 asleep. -/
def sleepy : State := { on with dieMap := ⟨0xFF, 0xF, 3, false⟩, power := { on.power with asleep := [⟨.core 0, .c1, none⟩] } }

theorem witness_PowerStates :
    (sleepy.plug.mainOn = true ∧ sleepy.mayRest (.core 1) = true ∧ sleepy.power.asleep.any (fun a => decide (a.unit = .core 1)) = false ∧
      sleepy.restChoice (.core 1) = some (.c1, none)) ∧
    (sleepy.mayRest (.die 0) = true ∧ sleepy.power.asleep.any (fun a => decide (a.unit = .die 0)) = false ∧ sleepy.restChoice (.die 0) = none) ∧
    sleepy.power.asleep.any (fun a => decide (a.unit = .core 0)) = true := by decide +kernel

theorem witness_RegisterWrites : State.reset.plug.mainOn = false ∧ on.plug.mainOn = true := by decide +kernel

/-- The block in a module state. -/
def modIn (m : ModState) (q : QuiesceStep) : State := { on with modu := { on.modu with state := m, quiesce := q } }

theorem witness_StateRequests : ((modIn .ready .none).modu.state ≠ .standby ∧ (modIn .ready .none).modu.state ≠ .safeRemove ∧
      (modIn .ready .none).modu.state ≠ .faulted) ∧
    ({ on with sec := { on.sec with lifecycle := 3 } } : State).sec.lifecycle = 3 ∧
    (({ modIn .standby .none with plug := { on.plug with presence := false } } : State).modu.state = .standby ∧ on.sec.lifecycle ≠ 3 ∧
      ({ modIn .standby .none with plug := { on.plug with presence := false } } : State).plug.presence = false) ∧
    ((modIn .standby .none).modu.state = .standby ∧ (modIn .safeRemove .none).modu.state = .safeRemove ∧ (modIn .faulted .none).modu.state = .faulted ∧
      on.plug.presence = true) ∧
    ((modIn .active .none).modu.state ≠ .ready ∧ (modIn .active .none).modu.state ≠ .safeRemove ∧ (modIn .active .none).modu.state ≠ .faulted) ∧
    ((modIn .standby .none).modu.state ≠ .ready ∧ (modIn .standby .none).modu.state ≠ .active) ∧
    ((modIn .quiescing .quiesce).modu.state = .quiescing ∧ (modIn .quiescing .quiesce).modu.quiesce = .quiesce) ∧
    (modIn .quiescing .departed).modu.quiesce ≠ .quiesce ∧
    ((modIn .bringup .none).modu.state = .bringup ∧ (modIn .bringup .none).plug.mainOn = true ∧
      (modIn .bringup .none).dictVal 0x2120 2 ≤ max (max (report 255).cMax.toNat 0) (max 0 0)) := by decide +kernel

/-- BRINGUP with an empty boot flash. -/
def noImages : State := { modIn .bringup .none with sec := { on.sec with images := [] } }

theorem witness_ModuleStates : ((modIn .quiescing .quiesce).modu.state = .quiescing ∧ (modIn .quiescing .quiesce).modu.quiesce = .quiesce) ∧
    (modIn .quiescing .departed).modu.quiesce = .departed ∧
    (noImages.modu.state = .bringup ∧ noImages.verifyMain = .error 0x0801) ∧
    ((modIn .bringup .none).modu.state = .bringup ∧ isOk (modIn .bringup .none).verifyMain = true) ∧
    ((⟨0, 0xFF, 0, false, true⟩ : BringupOutcome).badDies = 0xFF ∧ (⟨0, 0, 0, true, true⟩ : BringupOutcome).fatal = true ∧
      (⟨0, 0xFE, 0, false, true⟩ : BringupOutcome).fatal = false ∧ (⟨0, 0xFE, 0, false, true⟩ : BringupOutcome).badDies ≠ 0xFF) ∧
    (on.plug.mainOn = true ∧ on.mem.waits = []) := by decide +kernel

theorem witness_FaultedEntry : on.plug.mainOn = true ∧ on.modu.state ≠ .faulted ∧ on.modu.state ≠ .off ∧ 8 ≤ (8 : Byte).toNat ∧ (13 : Byte).toNat < 14 := by
  decide +kernel

/-- The plug in a state. -/
def plugged (f : PlugState → PlugState) : State := { on with plug := f on.plug }

theorem witness_HotPlug : (on.plug.overvoltage = false ∧ on.plug.precharge = true) ∧
    ((plugged (fun p => { p with standbyRails := false })).plug.softStart = true ∧ (plugged (fun p => { p with standbyRails := false })).plug.standbyRails = false ∧
      isOk ((plugged (fun p => { p with standbyRails := false })).pickImage 1) = true) ∧
    (noImages.pickImage 1 = .error 0x0801) ∧
    ((plugged (fun p => { p with wardenUp := false })).plug.standbyRails = true ∧ (plugged (fun p => { p with wardenUp := false })).plug.wardenUp = false) ∧
    (modIn .bringup .none).modu.state = .bringup ∧ ((modIn .active .none).modu.state = .active ∧ (modIn .active .none).plug.buttonPending = false) ∧
    (on.modu.state = .ready ∧ (plugged (fun p => { p with buttonPending := true })).plug.buttonPending = true) ∧
    (on.plug.wardenUp = true ∧ (plugged (fun p => { p with slot := none })).plug.slot = none ∧ on.plug.waitingBringup = false) ∧
    on.plug.mainOn = true ∧ State.reset.plug.mainOn = false := by decide +kernel

/-- Partition 0 forming the mask `m`, proposed as `m`. -/
def proposing (mode : PartMode) (dies m : BitVec 8) (f : Option (BitVec 8)) : State := { on.setPart 0 { Part.reset with
  mode := mode, dies := dies, maskNext := m, forming := f } with dieMap := ⟨0xFF, 0xF, 3, false⟩ }

/-- Masks that are no rectangle, one die, two dies and all dies. -/
theorem witness_Partitions : ((proposing .idle 1 1 none).part 0).mode ≠ .unformed ∧
    (((proposing .unformed 0 5 none).part 0).mode = .unformed ∧ ((proposing .unformed 0 5 none).part 0).forming = none ∧
      (proposing .unformed 0 5 none).legalMask 0 5 = false) ∧
    (((proposing .unformed 0 0xFF none).part 0).mode = .unformed ∧ (proposing .unformed 0 0xFF none).legalMask 0 0xFF = true) ∧
    ((proposing .unformed 0 1 (some 1)).part 0).forming = some 1 ∧
    ((proposing .idle 1 1 none).part 0).maskNext = ((proposing .idle 1 1 none).part 0).dies ∧
    (((proposing .idle 3 1 none).part 0).mode = .idle ∧ ((proposing .idle 3 1 none).part 0).forming = none ∧
      ((proposing .idle 3 1 none).part 0).maskNext ≠ ((proposing .idle 3 1 none).part 0).dies ∧ (proposing .idle 3 1 none).legalMask 0 1 = true ∧
      maskDies (1 &&& ~~~(3 : BitVec 8)) = []) ∧
    ((proposing .idle 1 3 none).legalMask 0 3 = true ∧ maskDies (3 &&& ~~~(1 : BitVec 8)) ≠ []) ∧
    ((proposing .running 1 1 none).part 0).mode ≠ .idle ∧
    ((proposing .idle 1 1 none).openCount 0 = 0 ∧ (proposing .idle 1 1 none).liveCtxs 0 = [] ∧ (proposing .idle 1 1 none).liveIndexes 0 = []) := by
  decide +kernel

theorem witness_DieLeaves : on.dieMap.c.getLsbD (0 : CDie).val = false ∧
    (sleepy.dieMap.c.getLsbD (0 : CDie).val = true ∧ sleepy.partOfDie 0 = none ∧ sleepy.plug.mainOn = true ∧
      sleepy.dieMap.c.getLsbD (dieOfCore 0).val = true ∧ sleepy.partOfDie (dieOfCore 0) = none) := by decide +kernel

/-! Witnesses: rubric cores and the host interface -/

/-- Core 5 with a pending event for rubric core 0; time 10. -/
def eventFor0 : State := on.modCore 5 (fun c => { c with ev := { c.ev with pending := true, irqEn := true, target := 0 } })
/-- The block at time 10. -/
def at10 : State := { on with clock := { on.clock with time := 10 } }
/-- The first core with a pending event for rubric core 0. -/
def firstEvent (s : State) : Option CoreNo :=
  allCores.find? (fun n => (s.core n).ev.pending && (s.core n).ev.irqEn && decide ((s.core n).ev.target.toNat = (0 : Fin 24).val))

theorem witness_HxInstructions : on.hartUp 0 = true ∧ hxMode .vu = false ∧ hxMode .u = false ∧ hxMode .m = true ∧ hxMode .vs = true ∧
    bits (0x8000000000000005 : W64).toNat 62 2 = 2 ∧ bits (0x4000000000000005 : W64).toNat 62 2 = 1 ∧
    (eventFor0.hartUp 0 = true ∧ firstEvent eventFor0 = some 5) ∧
    (at10.hartUp 0 = true ∧ firstEvent at10 = none ∧ (10 : W64) ≠ 0 ∧ (10 : W64).toNat ≤ at10.clock.time.toNat ∧ at10.clock.time.toNat < (11 : W64).toNat) ∧
    ((0 : W64).toNat < 2 ^ 48 ∧ on.foreign 0 .m 0 16 = false ∧ on.hartFault 0 16 0 = none ∧ on.hartSnapGone 0 = false ∧ on.mem.latent = [] ∧
      (on.readUa (on.hartView 0) 0 16).2 = false) ∧
    (on.foreign 0 .m 0 1 = false ∧ on.hartFault 0 1 0 = none) := by decide +kernel

/-- Rubric core 0 waits, without end and to time 10. -/
def waitsFor (s : State) (l : W64) : State := s.setRub 0 { s.rub 0 with waitLimit := some l }
/-- The first granule of memory is poisoned. -/
def bad0 : State := on.modMem (fun m => { m with poison := [(0, 1)] })

theorem witness_RubricAccesses :
    (((waitsFor eventFor0 0).rub 0).waitLimit = some 0 ∧ (waitsFor eventFor0 0).waitEnds 0 0 = some 5) ∧
    (((waitsFor at10 10).rub 0).waitLimit = some 10 ∧ (waitsFor at10 10).waitEnds 0 10 = some (2 ^ 64 - 1)) ∧
    (on.hartUp 0 = true ∧ 2 ^ 48 ≤ (0x1000000000000 : W64).toNat ∧ (0 : W64).toNat < 2 ^ 48 ∧ on.mem.latent = [] ∧ on.hartSnapGone 0 = false) ∧
    on.foreign 0 .vs 0 (sizeBytes .d) = true ∧
    (on.foreign 0 .m 0 (sizeBytes .d) = false ∧ on.hartFault 0 (sizeBytes .d) 0 = none ∧ (on.readUa (on.hartView 0) 0 (sizeBytes .d)).2 = false) ∧
    (bad0.hartUp 0 = true ∧ bad0.mem.latent = [] ∧ bad0.hartSnapGone 0 = false ∧ bad0.foreign 0 .m 0 (sizeBytes .d) = false ∧
      bad0.hartFault 0 (sizeBytes .d) 0 = none ∧ (bad0.readUa (bad0.hartView 0) 0 (sizeBytes .d)).2 = true) ∧
    (on.hartFault 0 (sizeBytes .d) 1 = none ∧ (on.rub 0).storeBind = 0 ∧ (on.rub 0).loadBind = 0) ∧
    (on.foreign 0 .m 0 2 = false ∧ on.hartFault 0 2 2 = none) := by decide +kernel

/-- A word of code at 0. -/
def code (w : Nat) : State := on.modMem (fun m => { m with cells := Cells.setList [] 0 (leBytes 4 w) })
/-- An HX.CCMD in a frame of partition 0. -/
def ownCode : State := (withPart (code 0x100B)).modMem (fun m => { m with frames := [(0, 0x10000)] })
/-- What rubric core 0 fetches from 0. -/
def fetched0 (s : State) : Nat := ofLeBytes (s.readUa .plain 0 4).1

/-- Words of each kind: custom-1, custom-0 with a bad funct7, a bad funct3 or in a mode that bars it, HX.PTEST and HX.CCMD, rdtime, another. -/
theorem witness_RubricAccesses_fetch : (∀ w ∈ [0x2B, 0x0200000B, 0x0B, 0x500B, 0x300B, 0x100B, 0xC0102573, 0x13], fetched0 (code w) = w ∧ (code w).hartUp 0 = true ∧
      (code w).mem.latent = [] ∧ (code w).hartSnapGone 0 = false ∧ (code w).foreign 0 .m 0 2 = false ∧
      (code w).hartFault 0 2 2 = none ∧ ((code w).readUa .plain 0 2).2 = false) ∧
    (bits 0x0200000B 0 7 = 0x0B ∧ bits 0x0200000B 25 7 ≠ 0 ∧ bits 0x0B 12 3 = 0 ∧ 4 < bits 0x500B 12 3 ∧ bits 0x100B 12 3 ≠ 3 ∧ hxMode .u = false ∧
      ownCode.hartUp 0 = true ∧ ownCode.foreign 0 .u 0 2 = false ∧ ownCode.hartFault 0 2 2 = none ∧ fetched0 ownCode = 0x100B) ∧
    (bits 0x300B 25 7 = 0 ∧ bits 0x300B 12 3 = 3 ∧ hxMode .m = true ∧ 1 ≤ bits 0x100B 12 3) ∧
    (bits 0xC0102573 0 7 = 0x73 ∧ bits 0xC0102573 15 5 = 0 ∧ 2 ≤ bits 0xC0102573 12 3 % 4 ∧ bits 0xC0102573 20 12 = 0xC01) ∧ bits 0x13 0 7 = 0x13 ∧
    (bad0.readUa .plain 0 2).2 = true := by decide +kernel

/-- An order of a class and operation, with its block. -/
def order (cls op : Byte) (block : List Byte) : Order := ⟨1, 0, 0, 0, cls, op, block, 0xFFFF, 0, 0, false, false, false, false⟩
/-- A PARTITION order of partition 0. -/
def partOrder (op : Byte) : Order := order 8 op (zeros 64)
/-- The order waits, partition 0 in a state. -/
def ordered (o : Order) (m : PartMode) : State := { (mapped on).setPart 0 { Part.reset with mode := m, dies := 1 } with host := { on.host with orders := [o] } }

/-- Partition 0 drains since time 5, at time `t`. -/
def drainingAt (t : W64) : State := { ordered (partOrder 2) .draining with
  modu := { on.modu with drainStart := Tab.set none on.modu.drainStart 0 (some 5) }, clock := { on.clock with time := t } }

/-- The quiesce time to the tick, and one tick less; no drain. -/
theorem witness_PartitionOrders_timeout : ((drainingAt (BitVec.ofNat 64 (5 + on.dictVal 0x2100 3 * msTicks))).part 0).mode = .draining ∧
    Tab.get none (drainingAt 5).modu.drainStart 0 = some 5 ∧ (drainingAt 5).dictVal 0x2100 3 = on.dictVal 0x2100 3 ∧
    5 + on.dictVal 0x2100 3 * msTicks ≤ (drainingAt (BitVec.ofNat 64 (5 + on.dictVal 0x2100 3 * msTicks))).clock.time.toNat ∧
    (drainingAt (BitVec.ofNat 64 (4 + on.dictVal 0x2100 3 * msTicks))).clock.time.toNat < 5 + on.dictVal 0x2100 3 * msTicks ∧
    (on.part 0).mode ≠ .draining := by decide +kernel

theorem witness_PartitionOrders :
    ((ordered (partOrder 1) .running).partitionOrder 0 1 = some (partOrder 1) ∧ ((ordered (partOrder 1) .running).part (partOrder 1).target).mode ≠ .idle) ∧
    ((ordered (partOrder 1) .idle).partitionOrder 0 1 = some (partOrder 1) ∧ ((ordered (partOrder 1) .idle).part (partOrder 1).target).mode = .idle ∧
      (ordered (partOrder 1) .idle).rootsValid (partOrder 1).target = true) ∧
    ((ordered (partOrder 2) .idle).partitionOrder 0 2 = some (partOrder 2) ∧ ((ordered (partOrder 2) .idle).part (partOrder 2).target).mode ≠ .running) ∧
    ((ordered (partOrder 2) .running).partitionOrder 0 2 = some (partOrder 2) ∧ ((ordered (partOrder 2) .running).part (partOrder 2).target).mode = .running) ∧
    (((ordered (partOrder 2) .draining).part 0).mode = .draining ∧ (ordered (partOrder 2) .draining).drained 0 = true) ∧
    ((((ordered (partOrder 2) .draining).modCore 0 (inPhase .compute)).part 0).mode = .draining ∧
      ((ordered (partOrder 2) .draining).modCore 0 (inPhase .compute)).drained 0 = false) ∧
    ((ordered (partOrder 3) .unformed).partitionOrder 0 3 = some (partOrder 3) ∧ ((ordered (partOrder 3) .unformed).part (partOrder 3).target).mode = .unformed) ∧
    ((ordered (partOrder 3) .idle).partitionOrder 0 3 = some (partOrder 3) ∧ ((ordered (partOrder 3) .idle).part (partOrder 3).target).mode ≠ .unformed) := by
  decide +kernel

/-- A READY slot of generation 3; a completion queue with its interrupt on and one completion unsignalled. -/
def hosted : State := { on with host := { on.host with
  slots := Tab.set Slot.reset [] (slotKey 0 0) { Slot.reset with state := .ready, gen := 3 }
  cqs := [(0, { CQ.reset with irqEn := true, unsignalled := 1, tail := 2 })] } }

/-- The index of a doorbell at its edges: 15 and 16 of 16 entries; a head between head and tail. -/
theorem witness_HostQueues : on.plug.mainOn = true ∧ bits (15 : W32).toNat 0 12 < (on.sq 0).size ∧ (on.sq 0).size ≤ bits (16 : W32).toNat 0 12 ∧
    (on.cq 0).size ≤ bits (16 : W32).toNat 0 16 ∧
    (hosted.plug.mainOn = true ∧ bits (2 : W32).toNat 0 16 < (hosted.cq 0).size ∧ (hosted.cq 0).held = [] ∧
      (bits (2 : W32).toNat 0 16 + (hosted.cq 0).size - (hosted.cq 0).head.toNat) % (hosted.cq 0).size ≤
        ((hosted.cq 0).tail.toNat + (hosted.cq 0).size - (hosted.cq 0).head.toNat) % (hosted.cq 0).size) ∧
    ((hosted.rslot 0 (0 : Fin 4096).val).state = .ready ∧ bitOf (0x80000003 : W32).toNat 31 = true ∧
      bits (0x80000003 : W32).toNat 0 16 = (hosted.rslot 0 (0 : Fin 4096).val).gen.toNat) ∧
    (hosted.rslot 0 (1 : Fin 4096).val).state ≠ .ready ∧ ((hosted.cq 0).irqEn = true ∧ 0 < (hosted.cq 0).unsignalled) := by decide +kernel

/-- Submission queue 0 with one order at host address 0: a NOP, or no order at all. -/
def queued (nop : Bool) : State := { (mapped on) with host := { on.host with
  sqs := [(0, { SQ.reset with enable := true, tail := 1 })], cqs := [(0, { CQ.reset with enable := true })]
  hostMem := if nop then [(0, 0x70), (1, 1), (2, 1), (4, 0xFF), (5, 0xFF)] else [] } }
/-- The check of the order at the head of queue 0. -/
def headCheck (s : State) : Except Done (Nat × Nat × List Byte) :=
  (s.passHead 0 0).checkOrder (s.sq 0) (s.hostRead 0 128) (hostMarked s.host.hostBad 0 128 || hostMarked s.host.hostPoison 0 128)
/-- A RUNTIME order taken, its message in the mailbox. -/
def mailed : State := { ordered (order 7 0 (zeros 96)) .running with host := { (ordered (order 7 0 (zeros 96)) .running).host with mailboxes := [(0, [(1, zeros 96)])] } }
/-- A window over an allocated frame 0. -/
def window : State := on.modMem (fun m => { m with frames := [(0, 0x10000)] })

theorem witness_OrderFlow : ((queued true).plug.mainOn = true ∧ (queued true).modu.state = .ready ∧ (queued true).nextSq = some (0, 0) ∧
      isOk (headCheck (queued true)) = true) ∧
    ((queued false).nextSq = some (0, 0) ∧ isOk (headCheck (queued false)) = false) ∧
    (ordered (order 1 0 []) .idle).readyOrder 0 1 0 = some (order 1 0 []) ∧
    ((ordered (order 7 0 (zeros 96)) .running).host.orders[0]? = some (order 7 0 (zeros 96)) ∧ (order 7 0 (zeros 96)).cls = 7 ∧
      ((ordered (order 7 0 (zeros 96)) .running).readyOrder 0 7 0).isSome = true) ∧
    ((Tab.get [] mailed.host.mailboxes (0 : PartNo).val)[0]? = some (1, zeros 96) ∧ mailed.orderById 1 = some (order 7 0 (zeros 96))) ∧
    State.reset.plug.mainOn = false ∧
    (window.plug.mainOn = true ∧ window.mem.latent = [] ∧ (0 : W64).toNat + 64 ≤ 2 ^ 36 ∧ window.checkUas (window.host.bar2Base.toNat * 2 ^ 36) 64 0 = none ∧
      window.checkUas (window.host.bar2Base.toNat * 2 ^ 36) 64 1 = none ∧ (window.readUa .plain (window.host.bar2Base.toNat * 2 ^ 36) 64).2 = false) ∧
    ((window.poisonGran 0).checkUas (window.host.bar2Base.toNat * 2 ^ 36) 64 0 = none ∧ (window.poisonGran 0).mem.latent = [] ∧
      ((window.poisonGran 0).readUa .plain (window.host.bar2Base.toNat * 2 ^ 36) 64).2 = true) := by decide +kernel

/-! Witnesses: memory, folios, the cache -/

/-- A MEMORY order of one page. -/
def memBlock (op flags tier page : Byte) : List Byte := [0x23, 1, op, flags, tier] ++ zeros 21 ++ [page] ++ zeros 5 ++ [1] ++ zeros 31
/-- The order waits; partition 0 has page 0 mapped. -/
def memOrder (op flags tier page : Byte) : State := ordered (order 5 op (memBlock op flags tier page)) .idle
/-- What the order comes to. -/
def memResult (s : State) (o : Order) : Except OrdErr (FX × MemRes) := (s.beginOrder 1).memoryBody ⟨o.part, o.block, .order { o with started := true }⟩
/-- The kind of a result: 0 a value, 1 a code, 2 a translation fault, 3 a spill, 4 uninitialised, 5 another. -/
def kindOf {α : Type} : Except OrdErr α → Nat
  | .ok _ => 0
  | .error (.code _ _) => 1
  | .error (.fault _) => 2
  | .error (.spill _) => 3
  | .error .uninit => 4
  | .error _ => 5
/-- No room for class B in HBM, and what may be spilled: page 0 of stream 0 of context 0, FULL. -/
def spilling (s : State) (b : Bool) : State := { s with dict := [(dictKey 0x4100 2, some 0)], mem := { s.mem with
  batches := if b then [⟨0, 0, 1, 0⟩] else [],
  ctxBase := [(0, 0x50001)], frames := [(0xB, 0x210001)],
  cells := s.mem.cells ++ [(0x50000, 0x41), (0x50002, 1), (0x50003, 1), (0x50006, 1), (0x50008, 1), (0x50012, 6), (0x60000, 1), (0x60002, 7), (0x60078, 1),
    (0x6007A, 8), (0x70000, 1), (0x70002, 9), (0x87E00, 1), (0x87E02, 0xA), (0x90000, 3), (0x90002, 0xB), (0xA0000, 3), (0xA0002, 0xC), (0xC0012, 3)] } }
/-- A COPY order, not started or started, its last write waiting or not. -/
def copying (started held : Bool) : State := { ordered { order 6 0 (zeros 64) with started := started } .idle with
  mem := { (mapped on).mem with held := if held then [⟨.copy 1, 4, 0, [], false⟩] else [] } }

/-- Slot 0 of the folio unit. -/
def folioOf (m : FolioMode) : Folio := { Folio.reset with gen := 1, mode := m, part := 0 }
/-- The handle of slot 0. -/
def handle0 : W64 := 0x8000000000010000
/-- A MEMORY order of page 0 that joins the folio of slot 0. -/
def joinBlock : List Byte := [0x23, 1, 4, 1, 0, 0, 0, 0, 0, 0, 1, 0, 0, 0, 0, 0x80] ++ zeros 16 ++ [1] ++ zeros 31
/-- The order waits, slot 0 in a mode. -/
def joining (m : FolioMode) : State :=
  { ordered (order 5 4 joinBlock) .idle with fol := { on.fol with slots := Tab.set Folio.reset [] 0 (folioOf m) } }
/-- The job of a MEMORY order. -/
def memJob (o : Order) : Job := ⟨o.part, o.block, .order { o with started := true }⟩
/-- A COPY of one granule of page 0, from the host or to it. -/
def copyBlock (op : Byte) : List Byte := [0x24, 1, op] ++ zeros 21 ++ [64] ++ zeros 39
/-- The COPY waits. -/
def copyOrder (op : Byte) : State := ordered (order 6 op (copyBlock op)) .idle

theorem witness_MemoryOrders : on.readyOrder 0 5 (BitVec.ofNat 8 1) = none ∧
    ((memOrder 4 0 0 0).readyOrder 0 5 (BitVec.ofNat 8 4) = some (order 5 4 (memBlock 4 0 0 0)) ∧ kindOf (memResult (memOrder 4 0 0 0) (order 5 4 (memBlock 4 0 0 0))) = 0) ∧
    ((memOrder 1 0 0 0).readyOrder 0 5 (BitVec.ofNat 8 1) = some (order 5 1 (memBlock 1 0 0 0)) ∧ kindOf (memResult (memOrder 1 0 0 0) (order 5 1 (memBlock 1 0 0 0))) = 1) ∧
    kindOf (memResult ((memOrder 4 0 0 0).modMem (fun m => { m with ptRoot := [] })) (order 5 4 (memBlock 4 0 0 0))) = 2 ∧
    (kindOf (memResult (spilling (memOrder 1 8 0 1) true) (order 5 1 (memBlock 1 8 0 1))) = 3 ∧
      (((spilling (memOrder 1 8 0 1) true).beginOrder 1).batchOf 0 0).isSome = true) ∧
    (kindOf (memResult (spilling (memOrder 1 8 0 1) false) (order 5 1 (memBlock 1 8 0 1))) = 3 ∧
      (((spilling (memOrder 1 8 0 1) false).beginOrder 1).batchOf 0 0).isSome = false ∧
      (((spilling (memOrder 1 8 0 1) false).beginOrder 1).startSpill 0 0).isSome = true) ∧
    kindOf (memResult (memOrder 1 0 1 1) (order 5 1 (memBlock 1 0 1 1))) = 4 ∧
    (copying false false).readyOrder 0 6 0 = some (order 6 0 (zeros 64)) ∧
    ((copying true true).host.orders[0]? = some { order 6 0 (zeros 64) with started := true } ∧
      (copying true true).mem.held.any (fun w => decide (w.who = .copy 1)) = true ∧ (copying true false).mem.held.any (fun w => decide (w.who = .copy 1)) = false) := by
  decide +kernel

/-- Not joined, joined to an OPEN and to a DOOMED folio; the folio of a MEMORY order of its own seals. -/
theorem witness_MemoryOrders_folio :
    ((memJob (order 5 4 (memBlock 4 0 0 0))).fld 2 1 = 4 ∧ bitOf ((memJob (order 5 4 (memBlock 4 0 0 0))).fld 3 1) 0 = false ∧
      ((memOrder 4 0 0 0).beginOrder 1).joinsDoomed 0 false 0 = false ∧
      (((memOrder 4 0 0 0).beginOrder 1).memoryBody (memJob (order 5 4 (memBlock 4 0 0 0)))).toOption.map (fun r => (r.1.finish true).2.1) = some 0) ∧
    ((memJob (order 5 4 joinBlock)).fld 2 1 = 4 ∧ bitOf ((memJob (order 5 4 joinBlock)).fld 3 1) 0 = true ∧
      BitVec.ofNat 64 ((memJob (order 5 4 joinBlock)).fld 8 8) = handle0 ∧ (joining .opened).readyOrder 0 5 4 = some (order 5 4 joinBlock) ∧
      ((joining .opened).beginOrder 1).joinsDoomed 0 true handle0 = false ∧ ((joining .doomed).beginOrder 1).joinsDoomed 0 true handle0 = true ∧
      (((joining .opened).beginOrder 1).memoryBody (memJob (order 5 4 joinBlock))).toOption.map (fun r => decide (r.1.f.mode = .opened)) = some true) ∧
    on.mem.waits = [] := by decide +kernel

/-- A COPY of one piece each way. -/
theorem witness_MemoryOrders_copy :
    (∀ op ∈ [(0 : Byte), 1], let s := copyOrder op
      let s1 := s.beginOrder 1
      let j : Job := ⟨0, copyBlock op, .order (order 6 op (copyBlock op))⟩
      s.readyOrder 0 6 op = some (order 6 op (copyBlock op)) ∧ s.mem.latent = [] ∧ s.mem.held = [] ∧ j.fld 24 4 = 64 ∧
      copyPieces (j.fld 16 8) 64 = [(0, 64)] ∧ bitOf (j.fld 3 1) 1 = false ∧ j.fld 2 1 = op.toNat ∧
      s1.translateAll (s1.copyReq j 0 (1 - op.toNat)) (pagePieces 0 64) = .ok [(⟨0x40000, 0x40003, 0x30000⟩, 64)] ∧
      hostMarked s.host.hostBad 0 64 = false ∧ (s1.plainWrite (.copy 1) (transPieces [(⟨0x40000, 0x40003, 0x30000⟩, 64)] (s1.hostRead 0 64)
        (fun i => hostMarked s.host.hostPoison (64 * i) 64))).mem.held = [] ∧
      ∀ g ∈ gransOf 0x40000 64, (s1.gran .plain g).poison = false) := by decide +kernel

/-- The ruling of partition 0 on, its cursor word at device-virtual 0. -/
def ruled : State := (mapped on).modPreg 0 (fun r => { r with ruleEnable := true })
/-- An entry of layer 1, deadline 10. -/
def started1 (fallback missed : Bool) : RuleEntry := ⟨0, 1, 10, fallback, 0, .dv, 0, 1, 1, missed⟩
/-- An entry started, deadline 10, at time `t`; its layer missed or not. -/
def entered (fallback missed : Bool) (t : W64) : State := { (mapped on).modRuling 0 (fun r => { r with
  started := [started1 fallback missed] }) with clock := { on.clock with time := t } }
/-- A migration of device-virtual page 0 of partition 0 from frame 4 to frame 4, or to flash frame 0x40000000, by a refresh. -/
def migrating (f : Nat) : State := (mapped on).modMem (fun m => { m with
  migrations := [⟨0, .dv, 0, [(4, f)], 0, 0, .refresh⟩], frames := [(4, 0x10001), (0x40000000, 0x10001)] })
/-- A migration's folio. -/
def migrated (s : State) (g : Migration) : Except OrdErr (FX × Bool) := (s.modMem (fun m => { m with migrations := m.migrations.eraseIdx 0 })).migrationFolio g
/-- A page in the write-back area since time 0, at time `t`. -/
def backed (t : W64) : State := { (mapped on).modMem (fun m => { m with wb := [⟨0, 0x40000000, [], 0⟩] }) with clock := { on.clock with time := t } }
/-- Frame 4 RETIRING since epoch 5, a snapshot of epoch `e` open; listed for retirement or not. -/
def retiring (e : W32) (listed : Bool) : State := { (mapped on) with
  mem := { (mapped on).mem with frames := [(4, 0x20000)], retireAt := [(4, some 5)], retireList := if listed then [(0, [4])] else [] },
  fol := { on.fol with snaps := [(0, some ⟨0, e⟩)] } }

theorem witness_MemoryEvents : (on.preg 0).ruleEnable = false ∧
    ((ruled.preg 0).ruleEnable = true ∧ isOk (ruled.dvRead 0 (masterMig (ruled.home 0)) (ruled.preg 0).ruleCur.toNat 8) = true) ∧
    (((entered false false 10).ruling 0).started[0]? = some (started1 false false) ∧ (entered false false 10).clock.time.toNat ≤ (10 : W64).toNat) ∧
    (((entered false true 11).ruling 0).started[0]? = some (started1 false true) ∧ (10 : W64).toNat < (entered false true 11).clock.time.toNat) ∧
    ((entered false false 11).ruling 0).started[0]? = some (started1 false false) ∧
    ((entered true false 11).ruling 0).started[0]? = some (started1 true false) ∧
    ((ruled.poisonGran 0x1000).preg 0).ruleEnable = true ∧ (ruled.poisonGran 0x1000).mem.latent = [] ∧
    ((ruled.poisonGran 0x1000).dvRead 0 (masterMig (ruled.home 0)) 0 8).toOption.map (·.2) = some true ∧
    ((migrating 4).mem.migrations[0]? = some ⟨0, .dv, 0, [(4, 4)], 0, 0, .refresh⟩ ∧
      (match migrated (migrating 4) ⟨0, .dv, 0, [(4, 4)], 0, 0, .refresh⟩ with
        | .ok (x, false) => decide ((x.finish false).2.1 = 0)
        | _ => false) = true) ∧
    ((migrating 0x40000000).mem.migrations[0]? = some ⟨0, .dv, 0, [(4, 0x40000000)], 0, 0, .refresh⟩ ∧
      [(4, 0x40000000)].find? (fun f => decide (tierOfFrame f.2 = some 2) && decide (f.1 ≠ f.2)) = some (4, 0x40000000) ∧ 0 < 3 ∧
      isOk ((FX.fresh ((migrating 0x40000000).retireFrame 0x40000000) 0 true).alloc 0 2 0 ((migrating 0x40000000).frame 0x40000000).classB false
        ((migrating 0x40000000).frame 0x40000000).weight) = true) ∧
    ((backed 0).mem.wb[0]? = some ⟨0, 0x40000000, [], 0⟩ ∧ (0 : W64).toNat + (backed (-1)).dictVal (0x6100 + (0 : PartNo).val) 4 * msTicks ≤ (backed (-1)).clock.time.toNat ∧
      (backed 0).clock.time.toNat < (0 : W64).toNat + (backed 0).dictVal (0x6100 + (0 : PartNo).val) 4 * msTicks ∧
      4 * (backed 0).wbCount 0 ≤ 3 * (backed 0).dictVal (0x6100 + (0 : PartNo).val) 3) ∧
    (tierOfFrame (4 : W32).toNat = some 0 ∧ Tab.get none (retiring 4 false).mem.retireAt (4 : W32).toNat = some 5 ∧ ((retiring 4 false).frame 4).state = 2 ∧
      (0, some ⟨0, 4⟩) ∈ (retiring 4 false).fol.snaps ∧ serialAfter 5 4 = true ∧ serialAfter 5 5 = false ∧ (retiring 5 false).fol.snaps = [(0, some ⟨0, 5⟩)] ∧
      4 ∉ Tab.get [] (retiring 5 false).mem.retireList (mdieOf (dieOfFrame 4)).val ∧ 4 ∈ Tab.get [] (retiring 5 true).mem.retireList (mdieOf (dieOfFrame 4)).val ∧
      (((retiring 4 false).modMem (fun m => { m with frames := [] })).frame 4).state ≠ 2) ∧
    (on.plug.mainOn = true ∧ on.implemented ((0 : W64).toNat / 65536) = true ∧ tierOfFrame ((0 : W64).toNat / 65536) = some 0 ∧
      Memory.wf on.mem = true ∧ FolioState.wf on.fol = true) := by decide +kernel

/-- A FOLIO order of partition 0; `handle` names slot 0 of generation 1. -/
def folBlock (op flags : Byte) (handle : Bool) : List Byte := [0x30, 1, op, flags] ++ (if handle then [0, 0, 1, 0, 0, 0, 0, 0x80] else zeros 8) ++ zeros 52
/-- The FOLIO order waits; slot 0 as given. -/
def folioOrder (op flags : Byte) (handle : Bool) (f : Folio) : State :=
  { ordered (order 2 op (folBlock op flags handle)) .idle with fol := { on.fol with slots := Tab.set Folio.reset [] 0 f } }
/-- Its command source. -/
def src0 : CmdSrc := .order 0
/-- The state and the job a FOLIO order is taken with. -/
def taken (s : State) (op : Nat) : Option Job := (s.takeFolio src0 op).2
/-- The state it is taken in. -/
def after (s : State) (op : Nat) : State := (s.takeFolio src0 op).1
/-- A page journalled with a poisoned granule. -/
def badFolio : Folio := { folioOf .opened with journal := [⟨0x1000, 0, 0, false, true⟩], pages := [4] }

theorem witness_Folios : FolioState.wf (folioOrder 1 0 false Folio.reset).fol = true ∧ FolioState.wf (folioOrder 2 0 true (folioOf .opened)).fol = true ∧
    ((taken (folioOrder 1 0 false Folio.reset) 1).isSome = true ∧ (taken (folioOrder 1 0 false Folio.reset) 1).all (fun j => !bitOf (j.fld 3 1) 0) = true ∧
      (after (folioOrder 1 0 false Folio.reset) 1).freeSlot = some 0 ∧
      (after (folioOrder 1 0 false Folio.reset) 1).openCount 0 < (after (folioOrder 1 0 false Folio.reset) 1).dictVal (0x4300 + (0 : PartNo).val) 1) ∧
    (({ after (folioOrder 1 0 false (folioOf .opened)) 1 with dict := [(dictKey 0x4300 1, some 1)] } : State).dictVal (0x4300 + (0 : PartNo).val) 1 ≤
      ({ after (folioOrder 1 0 false (folioOf .opened)) 1 with dict := [(dictKey 0x4300 1, some 1)] } : State).openCount 0) ∧
    ((taken (folioOrder 2 0 false (folioOf .opened)) 2).isSome = true ∧ (after (folioOrder 2 0 false (folioOf .opened)) 2).named 0 0 = false) ∧
    ((taken (folioOrder 2 0 true (folioOf .opened)) 2).all (fun j => decide (j.handle = handle0) && decide ((folioOf .opened).deadline.toNat ≤ j.fld 12 8)) = true ∧
      (taken (folioOrder 2 0 true (folioOf .opened)) 2).isSome = true ∧
      (after (folioOrder 2 0 true (folioOf .opened)) 2).named 0 handle0 = true ∧ ((after (folioOrder 2 0 true (folioOf .opened)) 2).slot (handleSlot handle0)).mode = .opened) ∧
    ((taken (folioOrder 3 0 true (folioOf .opened)) 3).isSome = true ∧ (after (folioOrder 3 0 true (folioOf .opened)) 3).named 0 handle0 = true ∧
      ((after (folioOrder 3 0 true (folioOf .opened)) 3).slot 0).span = none ∧
      (taken (folioOrder 3 0 true (folioOf .opened)) 3).all (fun j => decide ((FX.ofSlot ((after (folioOrder 3 0 true (folioOf .opened)) 3).awaitEnd 0 j) 0).judge.f.poisoned = 0)) = true) ∧
    ((taken (folioOrder 3 0 true badFolio) 3).isSome = true ∧ (after (folioOrder 3 0 true badFolio) 3).named 0 handle0 = true ∧
      (taken (folioOrder 3 0 true badFolio) 3).all (fun j => decide ((FX.ofSlot ((after (folioOrder 3 0 true badFolio) 3).awaitEnd 0 j) 0).judge.f.poisoned ≠ 0)) = true) ∧
    ((taken (folioOrder 3 0 true (folioOf .doomed)) 3).isSome = true ∧ ((after (folioOrder 3 0 true (folioOf .doomed)) 3).slot 0).mode = .doomed) ∧
    (((after (folioOrder 3 0 true { folioOf .opened with span := some ⟨1, [], 0, [], none, 0, 0, 0, [], false, false, false, false⟩ }) 3).slot 0).span.isSome = true) ∧
    (((folioOrder 1 0 false (folioOf .opened)).slot (0 : BitVec 14).toNat).mode ≠ .sealed ∧ ((folioOrder 1 0 false (folioOf .sealed)).slot (0 : BitVec 14).toNat).mode = .sealed) ∧
    ((taken (folioOrder 4 0 true (folioOf .opened)) 4).isSome = true ∧ (after (folioOrder 4 0 true (folioOf .opened)) 4).named 0 handle0 = true) ∧
    (taken (folioOrder 5 0 true (folioOf .opened)) 5).isSome = true ∧
    ((taken (folioOrder 6 0 false Folio.reset) 6).isSome = true ∧ ((after (folioOrder 6 0 false Folio.reset) 6).snapsOf 0).length < on.dictVal (0x4300 + (0 : PartNo).val) 4 ∧
      (List.range 1024).find? (fun i => decide (Tab.get none (after (folioOrder 6 0 false Folio.reset) 6).fol.snaps i = none)) = some 0 ∧
      (after (folioOrder 6 0 false Folio.reset) 6).inReach 0 = true ∧ serialAfter ((after (folioOrder 6 0 false Folio.reset) 6).floor 0) 0 = false ∧
      on.inReach 0xC0000001 = true ∧ on.inReach 0xC0000000 = false) ∧
    ((taken ({ folioOrder 7 0 false Folio.reset with fol := { on.fol with snaps := [(0, some ⟨0, 0⟩)] } }) 7).isSome = true ∧
      Tab.get none ([(0, some ⟨0, 0⟩)] : Tab (Option Snap)) 0 = some ⟨0, 0⟩) ∧
    ((taken (folioOrder 8 4 true (folioOf .inDoubt)) 8).isSome = true ∧ (after (folioOrder 8 4 true (folioOf .inDoubt)) 8).named 0 handle0 = true ∧
      (taken (folioOrder 8 4 true (folioOf .inDoubt)) 8).all (fun j => bitOf (j.fld 3 1) 2) = true ∧
      (taken (folioOrder 8 0 true (folioOf .inDoubt)) 8).all (fun j => !bitOf (j.fld 3 1) 2) = true) ∧
    (on.named 0 handle0 = false ∧ (folioOrder 1 0 false (folioOf .opened)).named 0 handle0 = true ∧
      isOk ((folioOrder 1 0 false (folioOf .opened)).translateAll ((folioOrder 1 0 false (folioOf .opened)).engineReq 0 0 1
        (masterMig ((folioOrder 1 0 false (folioOf .opened)).home 0))) (pagePieces 0 64)) = true) ∧
    (on.modMem (fun m => { m with subtrees := [(0x30000, 3, 1)] })).mem.subtrees = [(0x30000, 3, 1)] := by decide +kernel

/-! Witnesses: spanning folios, the cache, the codex -/

/-- The part of a spanning folio of two members. -/
def part (my : Nat) : Span := ⟨1, [⟨0, 0⟩, ⟨1, 0⟩], my, [], none, 0, 0, 0, [], false, false, false, false⟩
/-- Slot 0 holds a part; its deadline is 100; the time is `t`. -/
def spanned (m : FolioMode) (sp : Span) (t : W64) : State := { on with
  fol := { on.fol with slots := Tab.set Folio.reset [] 0 { folioOf m with deadline := 100, cause := 0x0305, span := some sp } }, clock := { on.clock with time := t } }
/-- What slot 0 holds. -/
def spanSlot (s : State) (i : Nat) : Option Span := (s.partSlot 1 i).bind (fun e => e.2.span)

/-- A message of folio 1 from another module, addressed to partition 0 of module `dst`. -/
def fromAway (dst : W32) : SpanMsg := ⟨1, some ⟨0, dst, 0⟩⟩
/-- The votes of both members: the second's as given. -/
def bothVotes (yes : Bool) : List Vote := [⟨0, true, 0, 50⟩, ⟨1, yes, 5, 100⟩]
/-- A spanning OPEN of two members whose list is at device-virtual 64. -/
def spanBlock : List Byte := [0x30, 1, 1, 1] ++ zeros 16 ++ [1] ++ zeros 7 ++ [2, 0, 0, 0, 64] ++ zeros 31
/-- The order waits. -/
def spanOrder : State := ordered (order 2 1 spanBlock) .idle

/-- A message that is not for this module, and one that is; the OPEN of a part; the edges of the deadlines. -/
theorem witness_Spanning_more :
    (on.addressed 1 0 = false ∧ (withPart on).addressed 0 0 = true) ∧
    ((spanned .opened (part 1) 101).slot (0 : BitVec 14).toNat).mode = .opened ∧
    ((bothVotes false).find? (fun v => decide (v.member = 1) && !v.yes) = some ⟨1, false, 5, 100⟩ ∧
      (bothVotes false).find? (fun v => decide (v.member = 0) && !v.yes) = none ∧ ∀ v ∈ bothVotes false, v.time ≤ (100 : W64)) ∧
    ((part 0).votes ++ [(⟨0, true, 0, 50⟩ : Vote)]).any (fun v => decide (v.member = 1)) = false ∧
    ((spanned .prepared (part 0) 101).keptDecision 1 0 = none ∧ ((spanned .prepared (part 0) 101).partSlot 1 0).isSome = true) ∧
    ((taken spanOrder 1).isSome = true ∧ (taken spanOrder 1).all (fun j => bitOf (j.fld 3 1) 0 && decide (j.fld 28 2 = 2) && decide (j.fld 32 8 = 64)) = true ∧
      (after spanOrder 1).dvRead 0 (masterMig ((after spanOrder 1).home 0)) 64 16 = .ok (zeros 16, false) ∧
      (∀ q < 2, zeroFrom (zeros 16) (8 * q + 5) 3 = true) ∧ (after spanOrder 1).freeSlot = some 0 ∧
      (after spanOrder 1).openCount 0 < (after spanOrder 1).dictVal (0x4300 + (0 : PartNo).val) 1) ∧
    (∀ x ∈ (part 1).members, x.module = on.address ∨ on.heldToward x.module = false) := by decide +kernel

theorem witness_Spanning : FolioState.wf (spanned .complete (part 1) 0).fol = true ∧
    (on.partSlot 1 1 = none ∧ on.fol.scrapedParts.find? (fun e => decide (e.globalId = 1) && decide (e.index = 1)) = none ∧
      ([⟨1, 1, 5, 0⟩] : List ScrapedPart).find? (fun e => decide (e.globalId = 1) && decide (e.index = 1)) = some ⟨1, 1, 5, 0⟩) ∧
    (((spanned .complete (part 1) 0).partSlot 1 1).map (fun e => e.2.mode) = some .complete ∧ spanSlot (spanned .complete (part 1) 0) 1 = some (part 1) ∧
      (part 1).myIndex ≠ 0 ∧ (part 1).voted = false ∧ (part 1).late = false ∧
      (FX.ofSlot ((spanned .complete (part 1) 0).modSpan 0 (fun x => { x with prepareSeen := true })) 0).judge.f.poisoned = 0) ∧
    ((spanned .doomed (part 1) 0).partSlot 1 1).map (fun e => e.2.mode) = some .doomed ∧
    (spanSlot (spanned .prepared (part 0) 0) 0 = some (part 0) ∧ (part 0).decision = none ∧ 1 < (part 0).members.length ∧
      (part 0).votes.any (fun v => decide (v.member = 1)) = false ∧ ([⟨1, true, 0, 50⟩] : List Vote).any (fun v => decide (v.member = 0)) = false) ∧
    (spanSlot (spanned .prepared { part 0 with votes := [⟨0, true, 0, 50⟩] } 100) 0 = some { part 0 with votes := [⟨0, true, 0, 50⟩] } ∧
      (∀ k < 2, ([⟨0, true, 0, 50⟩, ⟨1, true, 0, 100⟩] : List Vote).any (fun v => decide (v.member = k)) = true) ∧
      (∀ v ∈ ([⟨0, true, 0, 50⟩, ⟨1, true, 0, 100⟩] : List Vote), v.yes = true ∧ v.time ≤ (100 : W64)) ∧
      (spanned .prepared (part 0) 100).clock.time ≤ ((spanned .prepared (part 0) 100).slot 0).deadline) ∧
    ((spanned .prepared (part 0) 101).slot 0).deadline < (spanned .prepared (part 0) 101).clock.time ∧
    (((spanned .prepared (part 1) 0).partSlot 1 1).map (fun e => e.2.mode) = some .prepared ∧ (part 1).decision = none) ∧
    (spanSlot (spanned .sealed { part 0 with decision := some true } 0) 0 = some { part 0 with decision := some true } ∧ 1 ∉ (part 0).acks) ∧
    ((spanned .sealed { part 0 with decision := some true } (BitVec.ofNat 64 (10 * msTicks))).slot (0 : BitVec 14).toNat).span = some { part 0 with decision := some true } ∧
    (part 0).decidedAt.toNat + 10 * msTicks ≤ (spanned .sealed (part 0) (BitVec.ofNat 64 (10 * msTicks))).clock.time.toNat ∧
    ((spanned .prepared (part 1) (BitVec.ofNat 64 (100 + 10 * msTicks))).slot (0 : BitVec 14).toNat).mode = .prepared ∧ (part 1).queried = false ∧
    ((spanned .prepared (part 1) 0).slot (0 : BitVec 14).toNat).deadline.toNat + 100 * usTicks ≤ 100 + 10 * msTicks ∧
    ([⟨1, 0, true, 0, 0, 0⟩] : List Kept).find? (fun k => decide (k.globalId = 1) && decide (k.index = 0)) = some ⟨1, 0, true, 0, 0, 0⟩ := by decide +kernel

/-- A cache order: release, create, or append of one token at place 256. -/
def cacheBlock (op : Byte) : List Byte :=
  [0x40, 1, op] ++ zeros 23 ++ [1, 0, 1] ++ zeros 4 ++ [if op = 3 then 1 else 0] ++ zeros 18 ++ [if op = 3 then 6 else 0] ++ zeros 11
/-- The order waits; context 0 of partition 0 is live where `ctx` is set. -/
def cacheOrder (op : Byte) (ctx b : Bool) : State := if ctx then spilling (ordered (order 3 op (cacheBlock op)) .running) b else ordered (order 3 op (cacheBlock op)) .running
/-- What the order comes to. -/
def cacheResult (s : State) (op : Nat) : Nat := match s.takeJob src0 3 op 64 cacheFormOk (fun g => { g with inkErr := true }) with
  | (t, some j) => kindOf (t.cacheBody j)
  | (_, none) => 9
/-- `n` cache orders of partition 0 wait. -/
def cacheWaits (n : Nat) : State := (mapped on).modMem (fun m => { m with
  waits := List.replicate n ⟨0, 3, 1, [], none, some 0⟩, cells := m.cells ++ [(0x40000, 0x40), (0x40001, 1), (0x40002, 2)] })
/-- A spill batch of partition 0 in HBM with `n` pages left; the last batch ended at 0, the time is `t`; a move waits for room. -/
def batched (n : Nat) (some_ : Bool) (t : W64) : State := { (on.modMem (fun m => { m with
  batches := if some_ then [⟨0, 0, n, 0⟩] else [],
  lastBatch := [(0, some (1, 0))], waits := [⟨0, 5, 1, zeros 64, none, some 0⟩],
  moves := [⟨0, .dv, 0, 1, 1, 0, .refresh, none, true⟩] })) with clock := { on.clock with time := t } }

/-- The finish of a cache order's folio. -/
def cacheSeal (s : State) (op : Nat) : Option Nat := match s.takeJob src0 3 op 64 cacheFormOk (fun g => { g with inkErr := true }) with
  | (t, some j) => match t.cacheBody j with
    | .ok (x, _) => some (x.finish true).2.1.toNat
    | .error _ => none
  | (_, none) => none
/-- A RELEASE of context 0 that joins the folio of slot 0, in a mode. -/
def cacheJoin (m : FolioMode) : State :=
  { spilling (ordered (order 3 2 ([0x40, 1, 2, 1, 0, 0, 0, 0, 0, 0, 1, 0, 0, 0, 0, 0x80] ++ zeros 10 ++ [1, 0, 1] ++ zeros 35)) .running) true with
    fol := { on.fol with slots := Tab.set Folio.reset [] 0 (folioOf m) } }

/-- An append of one token at place 5 of an empty page. -/
def gapBlock : List Byte := [0x40, 1, 3] ++ zeros 23 ++ [1, 0, 1, 0, 0, 0, 5] ++ zeros 19 ++ [6] ++ zeros 11
/-- The page and the code of a cache order that ends at a page. -/
def pageEnd (s : State) (op : Nat) : Option (Nat × Nat × Nat) := match s.takeJob src0 3 op 64 cacheFormOk (fun g => { g with inkErr := true }) with
  | (t, some j) => match t.cacheBody j with
    | .error (.at_ a b (.code n _)) => some (a, b, n)
    | _ => none
  | (_, none) => none

/-- The folio of a release seals; one that joins an OPEN folio does not doom it; an APPEND without room for its page ends with its code. -/
theorem witness_Caches_ends : pageEnd (spilling (ordered (order 3 3 gapBlock) .running) true) 3 = some (0, 0, 0x020B) ∧ cacheSeal (cacheOrder 2 true true) 2 = some 0 ∧
    (match (cacheJoin .opened).takeJob src0 3 2 64 cacheFormOk (fun g => { g with inkErr := true }) with
      | (t, some j) => bitOf (j.fld 3 1) 0 && (match t.cacheBody j with
        | .ok (x, _) => decide (x.f.mode ≠ .doomed)
        | .error _ => false)
      | (_, none) => false) = true ∧
    (match (cacheOrder 1 false false).takeJob src0 3 1 64 cacheFormOk (fun g => { g with inkErr := true }) with
      | (t, some j) => match t.cacheBody j with
        | .error (.code n _) => decide (n ≠ 0x0503) && decide (n < 2 ^ 16)
        | _ => false
      | (_, none) => false) = true := by decide +kernel

theorem witness_Caches : cacheResult (cacheOrder 2 true true) 2 = 0 ∧ cacheResult (cacheOrder 1 false false) 1 = 1 ∧ cacheResult (cacheOrder 3 true true) 3 = 3 ∧
    ((cacheOrder 3 true true).batchOf 0 0).isSome = true ∧
    ((cacheWaits 255).cacheQueued 0 < 256 ∧ ((cacheWaits 255).takeJob (.submit 0 0) 3 2 64 cacheFormOk (fun g => { g with inkErr := true })).2.isSome = true) ∧
    256 ≤ (cacheWaits 256).cacheQueued 0 ∧ (batched 1 false 0).batchOf 0 (0 : Fin 2).val = none ∧
    ((batched 1 true 0).batchOf 0 (0 : Fin 2).val = some ⟨0, 0, 1, 0⟩ ∧ (batched 0 true 0).batchOf 0 (0 : Fin 2).val = some ⟨0, 0, 0, 0⟩) ∧
    ((batched 0 false 0).mem.waits[0]? = some ⟨0, 5, 1, zeros 64, none, some 0⟩ ∧ (batched 0 false (BitVec.ofNat 64 (10 * msTicks - 1))).waitOver 0 0 = false ∧
      (batched 0 false (BitVec.ofNat 64 (10 * msTicks))).waitOver 0 0 = true) ∧
    ((batched 0 false 0).mem.moves[0]? = some ⟨0, .dv, 0, 1, 1, 0, .refresh, none, true⟩) := by decide +kernel

/-- Index 0 of partition 0 in state `st`, of contents `content`, its areas in page 0: 64 items, two subgraphs, the first one in use. -/
def indexed (st content : Byte) (s : State) : State := s.modMem (fun m => { m with codexBase := [(0, 0xD0001)], cells := m.cells ++
  [(0x40410, 0x01), (0x40800, 0), (0x40418, 0xC0), (0xD0002, st), (0xD0004, content), (0xD0008, 64), (0xD0029, 0x10), (0xD0039, 0x04), (0xD0041, 0x06), (0xD0049, 0x08),
    (0xD0050, 2), (0xD0058, 64)] })
/-- The same with the marks of the subgraphs and item 0 as given. -/
def marked (sub item : Byte) (content : Byte) (s : State) : State := (indexed 1 content s).modMem (fun m => { m with
  cells := m.cells ++ [(0x4080F, sub), (0x40408, item), (0x40403, 0xC0)] })
/-- A codex order. -/
def codexBlock (op flags index : Byte) : List Byte := [0x50, 1, op, flags, index] ++ zeros 35 ++ [1] ++ zeros 87
/-- The order waits, slot 0 OPEN. -/
def codexOrder (op flags index : Byte) : State := { ordered (order 4 op (codexBlock op flags index)) .running with
  fol := { on.fol with slots := Tab.set Folio.reset [] 0 (folioOf .opened) } }
/-- The order joins the folio of slot 0. -/
def codexJoin : List Byte := [0x50, 1, 4, 1, 0, 0, 0, 0, 0, 0, 1, 0, 0, 0, 0, 0x80] ++ zeros 17 ++ [1] ++ zeros 6 ++ [1] ++ zeros 87
/-- The DELETE that joins the folio waits; it names one item, its reserved field not 0. -/
def codexJoining : State := (indexed 1 1 { codexOrder 4 0 0 with host := { on.host with orders := [order 4 4 codexJoin] } }).modMem (fun m => { m with
  cells := m.cells ++ [(0x40106, 1)] })
/-- The folio of an order. -/
def codexFolio (s : State) (op : Nat) : Option (State × Job × FX) := match s.codexJob src0 op with
  | (t, some j) => match t.orderFolio j.part (bitOf (j.fld 3 1) 0) (BitVec.ofNat 64 (j.fld 8 8)) true with
    | .ok x => some (t, j, x)
    | .error _ => none
  | (_, none) => none
/-- A query of index 0: one row at device-virtual 0, the list sizes at their least. -/
def queryBlock (flags index : Byte) : List Byte := [0x50, 1, 5, flags, index] ++ zeros 31 ++ [1, 0, 1, 0, 16, 0, 1, 1] ++ zeros 68 ++ [10] ++ zeros 15
/-- A walk in a phase, of an epoch. -/
def walkIn (ph : WalkPhase) (e : W32) (flags : Byte) : Walk := ⟨0, queryBlock flags 0, none, ph, 0, e, 0, ⟨[], [], [], [], 16, false, 0, 0, 0⟩, false⟩
/-- The walks of the margin engines, at time `t`. -/
def walkers (l : List Walk) (content : Byte) (t : W64) : State := { indexed 1 content (mapped on) |>.modMem (fun m => { m with walks := l }) with
  clock := { on.clock with time := t } }
/-- A repair that waits for its retry, or not. -/
def repairing (r : Option W64) (t : W64) : State := { on.modMem (fun m => { m with repairs := [⟨0, 0, r⟩] }) with clock := { on.clock with time := t } }
/-- Index 0. -/
def ix0 (s : State) : Ix := ⟨0, 0xD0000, (FX.fresh s 0 true).read 0xD0000 256⟩
/-- The two writes of a splice. -/
def spliceOk (s : State) : Bool := match (FX.fresh s 0 true).areaWrite 0 ((ix0 s).groupAddr 0 + 10) (leBytes 5 (2 ^ 40 - 1)) (fun _ => false) with
  | .ok x => isOk (x.areaWrite 0 ((ix0 s).subAddr 0) (zeros 32) (fun _ => false))
  | .error _ => false

theorem witness_Codex_foliosFail :
    (((codexOrder 4 1 0).codexJob src0 4).2.isSome = true ∧ (codexFolio (codexOrder 4 1 0) 4).isNone = true) := by decide +kernel

theorem witness_Codex_bodyFails :
    ((codexFolio (codexOrder 2 0 0) 2).all (fun r => !isOk (r.2.2.dropIndex r.2.1)) = true ∧ (codexFolio (codexOrder 2 0 0) 2).isSome = true) := by decide +kernel

theorem witness_Codex_alone :
    ((codexFolio (indexed 1 1 (codexOrder 2 0 0)) 2).any (fun r => isOk (r.2.2.dropIndex r.2.1) && !bitOf (r.2.1.fld 3 1) 0) = true) := by decide +kernel

theorem witness_Codex_joined :
    ((codexFolio codexJoining 4).any (fun r => bitOf (r.2.1.fld 3 1) 0 && match r.2.2.deleteItems r.2.1 with
      | .ok y => decide (y.1.f.mode = .opened)
      | .error _ => false) = true) := by decide +kernel

/-- A DELETE that joins a DOOMED folio; an edit whose folio seals. -/
theorem witness_Codex_doomed :
    (match ({ codexJoining with fol := { on.fol with slots := Tab.set Folio.reset [] 0 (folioOf .doomed) } } : State).codexJob src0 4 with
      | (t, some j) => t.joinsDoomed j.part (bitOf (j.fld 3 1) 0) (BitVec.ofNat 64 (j.fld 8 8))
      | (_, none) => false) = true ∧
    (codexFolio (indexed 1 1 (codexOrder 2 0 0)) 2).any (fun r => match r.2.2.dropIndex r.2.1 with
      | .ok x => decide ((x.finish false).2.1 = 0) && !r.1.joinsDoomed r.2.1.part (bitOf (r.2.1.fld 3 1) 0) (BitVec.ofNat 64 (r.2.1.fld 8 8))
      | .error _ => false) = true := by decide +kernel

theorem witness_Codex_full :
    256 ≤ (walkers (List.replicate 256 (walkIn .waiting 0 0)) 1 0).codexQueued 0 := by decide +kernel

theorem witness_Codex_queryFails :
    (match (codexOrder 5 0 0).codexJob src0 5 with
      | (t, some j) => !isOk (t.admitQuery j)
      | (_, none) => false) = true := by decide +kernel

theorem witness_Codex_query :
    (match ({ marked 1 0 1 (mapped on) with host := { on.host with orders := [order 4 5 (queryBlock 0 0)] } } : State).codexJob src0 5 with
      | (t, some j) => match t.admitQuery j with
        | .ok (_, y, _) => decide (y.f 4 1 ≠ 0)
        | .error _ => false
      | (_, none) => false) = true := by decide +kernel

theorem witness_Codex_phases :
    ((walkIn .waiting 0 0).phase ≠ .walking ∧ (walkIn .walking 0xC0000000 0).phase = .walking ∧ (walkers [walkIn .walking 0xC0000000 0] 1 0).inReach 0xC0000000 = false) := by decide +kernel

theorem witness_Codex_merge :
    ((walkers [walkIn .walking 0 0] 1 0).mem.walks[0]? = some (walkIn .walking 0 0) ∧ (walkers [walkIn .walking 0 0] 1 0).inReach 0 = true ∧
      (walkers [walkIn .walking 0 0] 1 0).ixAddr 0 0 = some 0xD0000 ∧
      isOk ((FX.fresh (walkers [walkIn .walking 0 0] 1 0) 0 true).walkMerge 0 (ix0 (walkers [walkIn .walking 0 0] 1 0)) (walkIn .walking 0 0).req (walkIn .walking 0 0).st) = true) := by decide +kernel

theorem witness_Codex_deadline :
    (walkIn .rerank 0 0).phase = .rerank ∧ (walkers [] 1 10).clock.time.toNat ≤ leField (queryBlock 0 0) 112 8 := by decide +kernel

theorem witness_Codex_fallback :
    (leField (queryBlock 2 0) 112 8 < (walkers [] 0 11).clock.time.toNat ∧ ({ walkers [walkIn .walking 0 2] 0 11 with dict := [(dictKey 0x4200 1, some 1)] } : State).queryFallback (walkIn .walking 0 2) = true ∧
      (walkers [] 0 11).queryFallback (walkIn .walking 0 0) = false) := by decide +kernel

/-- A walk in its re-rank with one item. -/
def ranking : Walk := { walkIn .rerank 0 0 with st := ⟨[], [⟨0, 0, true, 0, 0⟩], [], [], 16, false, 0, 0, 0⟩ }
/-- The rows of a query and the scores of its items. -/
def scored (s : State) (w : Walk) : Bool := match (FX.fresh s 0 true).queryRows 0 (ix0 s) w.block with
  | .ok (rows, bad) => !bad && isOk (w.st.allowed.mapM (fun c => (FX.fresh s 0 true).scoreItem 0 (ix0 s) rows c))
  | .error _ => false

theorem witness_Codex_rerank : ranking.phase = .rerank ∧ (walkers [ranking] 1 0).overdue ranking = false ∧ (walkers [ranking] 1 11).overdue ranking = true ∧
    (walkers [ranking] 1 0).inReach ranking.epoch = true ∧ (walkers [ranking] 1 0).ixAddr 0 (leField ranking.block 4 1) = some 0xD0000 ∧
    scored (walkers [ranking] 1 0) ranking = true ∧ ranking.req.k ≤ ranking.st.allowed.length ∧ leField ranking.block 104 8 = 0 ∧
    ranking.st.widened = false := by decide +kernel

theorem witness_Codex_splice :
    ((marked 3 0 1 (mapped on)).ixAddr 0 (0 : W16).toNat = some 0xD0000 ∧ isOk ((FX.fresh (marked 3 0 1 (mapped on)) 0 true).ix 0 0) = true ∧
      (0 : W32).toNat < (ix0 (marked 3 0 1 (mapped on))).f 80 4 ∧ (marked 3 0 1 (mapped on)).mem.walks = [] ∧
      ((FX.fresh (marked 3 0 1 (mapped on)) 0 true).area 0 ((ix0 (marked 3 0 1 (mapped on))).subAddr 0) 32).toOption.any (fun r => bitOf (leField r.1 15 1) 1) = true ∧
      spliceOk (marked 3 0 1 (mapped on)) = true) := by decide +kernel

theorem witness_Codex_spliceWaits :
    (walkers [walkIn .walking 0 0] 1 0).mem.walks.any (fun w => decide (leField w.block 4 1 = (0 : W16).toNat) && decide (leField w.block 32 4 = (0 : W32).toNat)) = true := by decide +kernel

theorem witness_Codex_free :
    ((indexed 2 1 (mapped on)).ixAddr 0 (0 : W16).toNat = some 0xD0000 ∧ leField ((FX.fresh (indexed 2 1 (mapped on)) 0 true).read 0xD0000 256) 2 1 = 2 ∧
      (indexed 2 1 (mapped on)).walksIndex 0 = false ∧ leField ((FX.fresh (indexed 1 1 (mapped on)) 0 true).read 0xD0000 256) 2 1 ≠ 2) := by decide +kernel

theorem witness_Codex_sweep :
    (((FX.fresh (marked 1 1 1 (mapped on)) 0 true).itemState 0 (ix0 (marked 1 1 1 (mapped on))) 0).toOption.any (fun r => !r.2 && bitOf (leField r.1 8 1) 0 &&
        !bitOf (leField r.1 8 1) 2 && !bitOf (leField r.1 8 1) 1 && decide (2 ^ 30 ≤ (on.fol.epoch - BitVec.ofNat 32 (leField r.1 0 4)).toNat)) = true ∧
      (0 : W32).toNat < (ix0 (marked 1 1 1 (mapped on))).f 88 8 ∧ isOk ((FX.fresh (marked 1 1 1 (mapped on)) 0 true).areaUa 0 ((ix0 (marked 1 1 1 (mapped on))).stateAddr 0 + 8)) = true) := by decide +kernel

theorem witness_Codex_repair :
    ((repairing none 0).mem.repairs[0]? = some ⟨0, 0, none⟩ ∧ (repairing (some 10) 9).mem.repairs[0]? = some ⟨0, 0, some 10⟩ ∧
      (repairing (some 10) 9).clock.time.toNat < (10 : W64).toNat ∧ (10 : W64).toNat ≤ (repairing (some 10) 10).clock.time.toNat) := by decide +kernel

/-! Witnesses: rings, multicast, ports -/

/-- Ring 0 in a mode, its landing area at device-virtual 0, one slot that is READY with sequence number `q`. -/
def ringed (m : RingMode) (q : W32) : State := (mapped on).modRing 0 (fun r => { r with mode := m, slots := [⟨.ready, q, 0, [], [], false⟩] })
/-- The word that releases a slot. -/
def releaseWord (s : State) : Option Nat := match s.landRec (s.ring 0) 0 with
  | .ok rec => match s.readVa (s.ringReq (s.ring 0) (leField rec 32 8) 0) 8 with
    | .ok (b, _) => some (ofLeBytes b)
    | .error _ => none
  | .error _ => none
/-- A message of `total` chunks of 64 KiB expected from module 0 on port 0; the chunks of `got` are there. -/
def expected (m : RxTarget) (mtype total : Nat) (got : List Nat) : RxMsg := ⟨0, 0, mtype, false, 0, 0, total, 65536 * total, got, [], m⟩
def expecting (m : RxTarget) (mtype total : Nat) (got : List Nat) (s : State) : State := { (s.setPort 0 { s.port 0 with mode := .up }) with
  link := { (s.setPort 0 { s.port 0 with mode := .up }).link with rx := [expected m mtype total got] } }
/-- A chunk of message type 1. -/
def typed : List Byte := [1, 0, 1] ++ zeros 61
/-- A quire header of ring 0, epoch `e`, slot number `q`, one chunk. -/
def quireBody (e q : Byte) : List Byte := [1, 1, 0, 0, 0, 0, 1, 0, e] ++ zeros 35 ++ [q] ++ zeros 207
/-- Its 256 bytes with their check. -/
def quireLead (e q : Byte) : List Byte := quireBody e q ++ leBytes 4 (crcOf (quireBody e q))
/-- A message header of type 1 for partition 0 of this module with a lead block. -/
def quireFixed : List Byte := [1, 1, 1] ++ zeros 15 ++ [1, 0, 0, 1, 0, 0, 64] ++ zeros 31
def quireHead (l : List Byte) : List Byte := quireFixed ++ leBytes 4 (crcOf l)
/-- The message as it arrives. -/
def quireMsg (l : List Byte) : List Byte := quireHead l ++ leBytes 4 (crcOf (quireHead l)) ++ l
/-- Ring 0 runs, its predecessor at port 0, which is UP; the landing record has room for `cap` chunks. -/
def hearing (m : LandMode) (cap : Byte) : State := { ((ringed .running 0).modRing 0 (fun r => { r with pred := 0x80, slots := [⟨m, 0, 0, [], [], false⟩] })).setPort 0
  { on.port 0 with mode := .up } with mem := { (mapped on).mem with cells := (mapped on).mem.cells ++ [(0x40004, cap)] } }
/-- Whether a chunk of the expected message lands in slot 0 of ring 0. -/
def lands (s : State) (m : RxMsg) (b : List Byte) : Bool :=
  let c := chunkOf (s.openChunk m b)
  ((s.emit (.chunkReport 0 m.src m.id c.index true)).landQuire 0 0 0 0 c).2

theorem witness_Rings : (on.ring 0).mode = .disabled ∧ ((ringed .stopped 0).ring 0).mode = .stopped ∧
    (((ringed .running 0).ring 0).mode ≠ .disabled ∧ ((ringed .running 0).ring 0).mode ≠ .stopped ∧ ((ringed .running 0).ring 0).mode = .running ∧
      ((ringed .running 0).ring 0).mode ≠ .stopping) ∧
    ((ringed .broken 0).ring 0).mode = .broken ∧ ((ringed .stopping 0).ring 0).mode = .stopping ∧ (on.ring 0).epoch = 0 ∧ (1 : W32) ≠ (on.ring 0).epoch ∧
    (((ringed .running 0).ring 0).slots[0]? = some ⟨.ready, 0, 0, [], [], false⟩ ∧ releaseWord (ringed .running 0) = some 0 ∧ 0 ≠ (0 : W32).toNat + 1) ∧
    (releaseWord ((ringed .running 0).modMem (fun m => { m with cells := m.cells ++ [(0x40000, 1), (0x40020, 0)] })) = some 1 ∧ 1 = (0 : W32).toNat + 1) ∧
    (((namedPorts ((on.modRing 0 (fun r => { r with succ := 0x80 })).ring 0).succ ++ namedPorts ((on.modRing 0 (fun r => { r with succ := 0x80 })).ring 0).pred).map
      on.physOf).find? (fun p => decide ((on.port p).mode ≠ .up)) = some 0) ∧
    (leField (zeros 64) 2 1 ≠ 1 ∧ leField typed 2 1 = 1 ∧ headerOk typed = false ∧ (on.port 0).admits 1 = false) ∧
    on.rxMsg (BitVec.ofNat 32 (leField typed 8 4)) (BitVec.ofNat 32 (leField typed 4 4)) = none := by decide +kernel

/-- R335: a header with its lead block arrives whole. -/
theorem quireMsg_heard {l : List Byte} (hl : l.length = 256) : headerOk (quireMsg l) = true ∧ leField (quireMsg l) 2 1 = 1 ∧
    ((quireMsg l).drop 64).take (leField (quireMsg l) 20 2) = l := by
  have h60 : (quireHead l).length = 60 := rfl
  have hd : (quireMsg l).drop 64 = l := by
    unfold quireMsg
    rw [List.drop_append_of_le_length (by simp [h60]), List.drop_eq_nil_of_le (by simp [h60]), List.nil_append]
  have h1 : leField (quireMsg l) 60 4 = crcOf ((quireMsg l).take 60) := by
    have h2 : (quireMsg l).take 60 = quireHead l := by
      unfold quireMsg
      rw [List.append_assoc, List.take_append_of_le_length (by omega), List.take_of_length_le (by omega)]
    rw [h2]
    exact leField_crcOf h60 _ _
  have h4 : quireMsg l = quireFixed ++ (leBytes 4 (crcOf l) ++ (leBytes 4 (crcOf (quireHead l)) ++ l)) := by
    simp only [quireMsg, quireHead, List.append_assoc]
  have h3 : leField (quireMsg l) 56 4 = crcOf l := by
    rw [h4, ← List.append_assoc]
    exact leField_crcOf rfl _ _
  have hp : (quireFixed).length = 56 := rfl
  have f (o n : Nat) (h : o + n ≤ 56) : leField (quireMsg l) o n = leField quireFixed o n := by
    rw [h4]
    exact leField_append (by omega) _
  have g : leField quireFixed 0 2 = 0x0101 ∧ leField quireFixed 2 1 = 1 ∧ leField quireFixed 20 2 = 256 ∧ leField quireFixed 18 2 = 1 ∧
      leField quireFixed 24 4 = 64 := by decide +kernel
  refine ⟨?_, (f 2 1 (by omega)).trans g.2.1, ?_⟩
  · unfold headerOk
    rw [h1, h3, f 0 2 (by omega), f 2 1 (by omega), f 20 2 (by omega), f 18 2 (by omega), f 24 4 (by omega), g.1, g.2.1, g.2.2.1, g.2.2.2.1, g.2.2.2.2, hd,
      List.take_of_length_le (l := l) (by omega)]
    simp [ceilDiv]
  · rw [hd, f 20 2 (by omega), g.2.2.1, List.take_of_length_le (by omega)]

/-- R195: a quire header holds its check. -/
theorem quireLead_check (e q : Byte) : (quireLead e q).length = 256 ∧ leField (quireLead e q) 252 4 = crcOf ((quireLead e q).take 252) := by
  have h : (quireBody e q).length = 252 := by
    simp only [quireBody, zeros, List.length_append, List.length_replicate, List.length_cons, List.length_nil]
  refine ⟨by rw [quireLead, List.length_append, h, leBytes_length], ?_⟩
  have h2 : (quireLead e q).take 252 = quireBody e q := by
    unfold quireLead
    rw [List.take_append_of_le_length (by omega), List.take_of_length_le (by omega)]
  have h3 := leField_crcOf h (quireBody e q) []
  rw [List.append_nil] at h3
  rw [h2]
  exact h3

/-- Headers that arrive: for another module; a lead block of the wrong length or epoch; a slot that is READY or too small, and one with room. -/
theorem witness_Rings_header :
    (∀ m ∈ [LandMode.filling, .ready], ∀ cap ∈ [(0 : Byte), 1], let s := hearing m cap
      (s.ring 0).mode = .running ∧ (s.port 0).admits 1 = true ∧ s.rxMsg 0 0 = none ∧ s.logicalOf 0 ∈ (s.ring 0).fromPred ∧
      (s.ring 0).slots[leField (quireLead 0 0) 44 4 % (s.ring 0).count]? = some ⟨m, 0, 0, [], [], false⟩ ∧
      (s.landRec (s.ring 0) 0).toOption.map (fun r => leField r 4 2) = some cap.toNat) ∧
    (let b := quireMsg (quireLead 0 0)
     (BitVec.ofNat 32 (leField b 8 4) = 0 ∧ BitVec.ofNat 32 (leField b 4 4) = 0 ∧ leField (quireLead 0 0) 12 1 = (0 : Fin 16).val) ∧
     (hearing .filling 1).relaySide 0 0 (quireLead 0 0) = none ∧ (hearing .filling 1).forUs b = true ∧
     ({ hearing .filling 1 with parts := on.parts } : State).forUs b = false) ∧
    (leField (quireLead 0 0) 0 1 = 1 ∧
      leField (quireLead 0 0) 1 1 = 1 ∧ leField (quireLead 0 0) 8 4 = ((hearing .filling 1).ring 0).epoch.toNat ∧
      leField (quireLead 1 0) 8 4 ≠ ((hearing .filling 1).ring 0).epoch.toNat ∧ leField (quireLead 0 2) 44 4 ≠ 0 ∧ leField (quireLead 0 0) 6 2 = 1) ∧
    ((zeros 128).length ≠ 256 ∧ (on.ring 0).mode ≠ .running) := by decide +kernel

/-- Chunks that arrive: for a relay; one that is there already, the first of two and the last; where the ring stopped nothing lands. -/
theorem witness_Rings_chunk :
    (∀ x ∈ [(RxTarget.relay 0 [1], 1, []), (.ring 0 0 0 0, 1, [0]), (.ring 0 0 0 0, 2, []), (.ring 0 0 0 0, 1, [])],
      let s := expecting x.1 1 x.2.1 x.2.2 (hearing .filling 1)
      s.rxMsg (BitVec.ofNat 32 (leField typed 8 4)) (BitVec.ofNat 32 (leField typed 4 4)) = some (expected x.1 1 x.2.1 x.2.2) ∧ (s.port 0).admits 1 = true ∧
      leField typed 2 2 < 2 ∧ leField (zeros 192) 2 2 < x.2.1) ∧
    (chunkOf ((expecting (.ring 0 0 0 0) 1 1 [] (hearing .filling 1)).openChunk (expected (.ring 0 0 0 0) 1 1 []) (zeros 192))).index = 0 ∧
    lands (expecting (.ring 0 0 0 0) 1 1 [] (hearing .filling 1)) (expected (.ring 0 0 0 0) 1 1 []) (zeros 192) = true ∧
    lands (expecting (.ring 0 0 0 0) 1 1 [] on) (expected (.ring 0 0 0 0) 1 1 []) (zeros 192) = false := by decide +kernel

/-- Set 0 of die 8 armed on one frame from 0: members 0 and 1 attached, member 0 `lead` lines on, member 1 none; a read held since 0. -/
def armed (lead : Nat) (held : Bool) (t : W64) : State := { on with
  link := { on.link with mcast := [(0, { McastSet.reset with
    members := 3, enable := true, window := some (0, 1), attached := 3,
    counts := (Vector.replicate 32 0).set 0 lead, lines := List.replicate lead 0, lead := lead, held := if held then [⟨0, 0, 1, 0⟩] else [] })] }, clock := { on.clock with time := t } }

/-- The slowest member 4,095 and 4,096 lines behind; a read outside the window and one that waits; the wait at its end and one tick before. -/
theorem witness_Multicast : ((on.mcastSet 0 0).window = none ∧ (on.mcastSet 0 0).held = []) ∧
    (((armed 1 false 0).mcastSet 0 0).window = some (0, 1) ∧ ((armed 1 false 0).mcastSet 0 0).held = [] ∧ 0 ≤ (0 : W64).toNat / 64 * 64 ∧
      (0xFFC0 : W64).toNat / 64 * 64 + 64 ≤ 0 + 65536 * 1 ∧ 0 + 65536 * 1 < (0xFFC0 : W64).toNat / 64 * 64 + 64 * 2) ∧
    ((armed 1 true 0).mcastSet 0 0).waits 0 = true ∧ ((armed 1 false 0).mcastSet 0 0).attached.getLsbD (2 : Fin 32).val = false ∧
    (((armed 4095 false 0).mcastSet 0 0).attached.getLsbD (0 : Fin 32).val = true ∧ ((armed 4095 false 0).mcastSet 0 0).counts[0] = ((armed 4095 false 0).mcastSet 0 0).lead ∧
      ((armed 4095 false 0).mcastSet 0 0).lead < ((armed 4095 false 0).mcastSet 0 0).slowest + 4096) ∧
    ((armed 4096 false 0).mcastSet 0 0).slowest + 4096 ≤ ((armed 4096 false 0).mcastSet 0 0).lead ∧
    (((armed 1 false 0).mcastSet 0 0).counts[1] ≠ ((armed 1 false 0).mcastSet 0 0).lead ∧ ((armed 1 false 0).mcastSet 0 0).lines[((armed 1 false 0).mcastSet 0 0).counts[1]]? = some 0 ∧
      ((armed 1 false 0).mcastSet 0 0).lines[((armed 1 false 0).mcastSet 0 0).counts[1]]? ≠ some 64) ∧
    (((armed 1 true 0).mcastSet 0 0).held = ⟨0, 0, 1, 0⟩ :: [] ∧ (armed 1 true 0).clock.time.toNat < (0 : W64).toNat + (0x14 : Byte).toNat * usTicks ∧
      (0 : W64).toNat + ((armed 1 true 0).mcastSet 0 0).detachWait.toNat * usTicks ≤ (armed 1 true (BitVec.ofNat 64 (0x14 * usTicks))).clock.time.toNat) := by decide +kernel

/-- Port 0 in a mode. -/
def ported (m : PortMode) (f : Port → Port) : State := on.setPort 0 (f { on.port 0 with mode := m })
/-- A group in the replay buffer. -/
def sent0 : TxGroup := ⟨0, 0, [[]]⟩
/-- The header of a group of one DATA flit, and the flit of no data with tag `t`. -/
def dataHead (g : BitVec 12) : List Byte := flitHead .data 0 g 0 true false
def dataFlit (g : BitVec 12) (t : List Byte) : List Byte := flitOf (dataHead g) (zeros 228 ++ t)
/-- The tag under the key of port 0's first group. -/
def dataTag (x : Port) : List Byte := gcmTag (blockKey (x.rxKey false)) (groupIv (x.rxKey false) 0) (dataHead 0) (zeros 228)
/-- A LCTL or HELLO flit of some fields, with tag `t`. -/
def linkFlit (k : FlitType) (fields t : List Byte) : List Byte := flitOf (flitHead k 0 0 0 false false) (sealPlain fields 1 ++ t)

/-- R322, R324: what a port reads in a group of one flit. -/
theorem dataFlit_heard {t : List Byte} (ht : t.length = 16) (g : BitVec 12) : flitOk (dataFlit g t) = true ∧ flitType (dataFlit g t) = some .data ∧
    leField (dataFlit g t) 0 4 = ofLeBytes (dataHead g) :=
  ⟨flitOk_flitOf (leBytes_length _ _) (by rw [List.length_append, zeros, List.length_replicate, ht]), flitType_flitOf _ _ _ _ _ _ _ (by decide), leField_flitOf (leBytes_length _ _) _⟩

/-- R326: the flits of a burst, with no symbol errors and in a codeword that cannot be corrected. -/
theorem burst_data {t : List Byte} (ht : t.length = 16) (g : BitVec 12) :
    dataFlits ⟨[dataFlit g t], 0, []⟩ = [(dataFlit g t, true)] ∧ dataFlits ⟨[dataFlit g t], 0, [16]⟩ = [(dataFlit g t, false)] ∧
    dataFlits ⟨[dataFlit g t, dataFlit g t], 0, []⟩ = [(dataFlit g t, true), (dataFlit g t, true)] := by
  have h := dataFlit_heard ht g
  have e1 : flitHit 0 0 [] = false := by decide
  have e2 : flitHit 0 1 [] = false := by decide
  have e3 : flitHit 0 0 [16] = true := by decide
  simp [dataFlits, checkedFlits, h.1, h.2.1, e1, e2, e3]

/-- R324, R333: the lane, the order and the number of a group of one flit, and whose tag verifies. -/
theorem dataFlit_group {t : List Byte} (ht : t.length = 16) : burstLane ⟨[dataFlit 0 t], 0, []⟩ = 0 ∧ burstLane ⟨[dataFlit 0 t], 0, [16]⟩ = 0 ∧
    groupInOrder [dataFlit 0 t, dataFlit 0 t] = false ∧ groupInOrder [dataFlit 0 t] = true ∧ flitSeq (dataFlit 0 t) = 0 ∧ flitSeq (dataFlit 1 t) = 1 ∧
    ∀ x : Port, (x.encOn = false → x.groupAuthentic [dataFlit 0 t] = true) ∧
      (x.encOn = true → x.rxPhase = false → x.rxGroups = 0 → x.groupAuthentic [dataFlit 0 t] = groupTagOk [dataFlit 0 t] (x.rxKey false) 0) := by
  have h := dataFlit_heard ht 0
  have h1 := dataFlit_heard ht 1
  have l : flitLane (dataFlit 0 t) = 0 := by
    refine Fin.ext ?_
    change bits (leField (dataFlit 0 t) 0 4) 3 2 = 0
    rw [h.2.2]; decide +kernel
  have e : flitIdx (dataFlit 0 t) = 0 := by unfold flitIdx; rw [h.2.2]; decide +kernel
  have e2 : flitEog (dataFlit 0 t) = true := by unfold flitEog; rw [h.2.2]; decide +kernel
  have e3 : flitPhase (dataFlit 0 t) = false := by unfold flitPhase; rw [h.2.2]; decide +kernel
  refine ⟨?_, ?_, ?_, ?_, ?_, ?_, fun x => ⟨fun he => ?_, fun he hp hg => ?_⟩⟩
  · unfold burstLane; rw [(burst_data ht 0).1]; exact l
  · unfold burstLane; rw [(burst_data ht 0).2.1]; exact l
  · generalize dataFlit 0 t = f at e e2; simp [groupInOrder, e, e2]
  · have hd := h.2.1; generalize dataFlit 0 t = f at e e2 hd; simp [groupInOrder, e, e2, hd]
  · unfold flitSeq; rw [h.2.2]; decide +kernel
  · unfold flitSeq; rw [h1.2.2]; decide +kernel
  · simp [Port.groupAuthentic, Port.groupKey, he]
  · generalize dataFlit 0 t = f at e3; simp [Port.groupAuthentic, Port.groupKey, he, hp, hg, e3]

theorem witness_LinkLayer_data : ((ported .up id).port 0).takesData 0 = true ∧ (on.port 0).takesData 0 = false ∧ dataFlits ⟨[], 0, []⟩ = [] ∧
    ((ported .up id).port 0).rxNext = 0 ∧ ((ported .up id).port 0).encOn = false ∧ (1 : BitVec 12) ≠ 0 ∧
    (let x := (ported .up (fun p => { p with encOn := true })).port 0
     x.groupAuthentic [dataFlit 0 (dataTag x)] = true ∧ x.groupAuthentic [dataFlit 0 (flipped (dataTag x))] = false) := by
  refine ⟨by decide +kernel, by decide +kernel, by decide, by decide +kernel, by decide +kernel, by decide, ?_⟩
  have hx : ((ported .up (fun p => { p with encOn := true })).port 0).encOn = true ∧ ((ported .up (fun p => { p with encOn := true })).port 0).rxPhase = false ∧
    ((ported .up (fun p => { p with encOn := true })).port 0).rxGroups = 0 := by decide +kernel
  intro x
  have h16 : (dataTag x).length = 16 := gcmTag_length _ _ _ _
  have hf : (flipped (dataTag x)).length = 16 := (List.length_map _).trans h16
  have k {t : List Byte} (ht : t.length = 16) := ((dataFlit_group ht).2.2.2.2.2.2 x).2 hx.1 hx.2.1 hx.2.2
  exact ⟨(k h16).trans ((groupTagOk_flitOf (leBytes_length _ _) rfl h16 _ _).trans (decide_eq_true rfl)),
    (k hf).trans ((groupTagOk_flitOf (leBytes_length _ _) rfl hf _ _).trans (decide_eq_false (flipped_ne h16)))⟩

/-- R322, R327: what a port reads in a LCTL or HELLO flit. -/
theorem linkFlit_heard (k : FlitType) (fields : List Byte) {t : List Byte} (ht : t.length = 16) : flitOk (linkFlit k fields t) = true ∧
    flitType (linkFlit k fields t) = some k ∧ flitBody (linkFlit k fields t) = sealPlain fields 1 ++ t := by
  have hb : (sealPlain fields 1 ++ t).length = 244 := by rw [List.length_append, sealPlain_length, ht]
  exact ⟨flitOk_flitOf (leBytes_length _ _) hb, flitType_flitOf _ _ _ _ _ _ _ (by decide), flitBody_flitOf (leBytes_length _ _) hb⟩

/-- LCTL flits in the clear, and what they say; HELLO flits; a flit of another type. -/
theorem witness_LinkLayer_lctl : flitOk [] = false ∧ (on.port 0).linked = false ∧ ((ported .up id).port 0).linked = true ∧
    (flitOk (flitOf [7, 0, 0, 0] (zeros 244)) = true ∧ flitType (flitOf [7, 0, 0, 0] (zeros 244)) = none) ∧
    (let l (f : List Byte) := lctlOf (sealPlain f 1 ++ zeros 16)
     let x := (ported .up (fun p => { p with replay := [sent0, ⟨1, 0, [[]]⟩] })).port 0
     (l []).nak = none ∧ (l []).ack = none ∧ (l [0, 0x80]).ack = some 0 ∧ (l [0, 0x80]).nak = none ∧ (l [0, 0, 1, 0x80]).ack = none ∧ (l [0, 0, 1, 0x80]).nak = some 1 ∧
     x.replay.findIdx? (fun g => decide (g.gseq = 0)) = some 0 ∧ x.replay.findIdx? (fun g => decide (g.gseq = 1)) = some (0 + 1) ∧
     ((ported .up id).port 0).replay.findIdx? (fun g => decide (g.gseq = 1)) = none) ∧
    (((ported .handshake id).port 0).linked = true ∧ ((ported .handshake (fun p => { p with encReq := false })).port 0).encReq = false ∧
      leField (sealPlain [1, 0, 1] 1 ++ zeros 16) 0 1 = 1 ∧ bitOf (leField (sealPlain [1, 0, 1] 1 ++ zeros 16) 2 1) 0 = true ∧
      leField (sealPlain [1, 0, 0] 1 ++ zeros 16) 0 1 = 1 ∧ bitOf (leField (sealPlain [1, 0, 0] 1 ++ zeros 16) 2 1) 0 = false ∧
      leField (sealPlain [2, 0, 0] 1 ++ zeros 16) 0 1 ≠ 1) := by
  refine ⟨by decide, by decide +kernel, by decide +kernel, ⟨flitOk_flitOf rfl (List.length_replicate ..), ?_⟩, by decide +kernel, by decide +kernel⟩
  unfold flitType; rw [leField_flitOf rfl]; decide

/-- Encrypted LCTL flits: one that verifies and is stale or fresh, and one whose tag fails. -/
theorem witness_LinkLayer_sealed (x : Port) : let t := bodyTag (x.rxKey false) (sealPlain [] 1)
    bodyTagOk (linkFlit .lctl [] t) (x.rxKey (flitPhase (linkFlit .lctl [] t))) = true ∧
    bodyTagOk (linkFlit .lctl [] (flipped t)) (x.rxKey (flitPhase (linkFlit .lctl [] (flipped t)))) = false ∧
    (bodyUctr (flitBody (linkFlit .lctl [] t))).toNat = 1 ∧
    ((ported .up (fun p => { p with encOn := true, uctrRx := some 1 })).port 0).uctrRx = some 1 ∧ ((ported .up (fun p => { p with encOn := true })).port 0).uctrRx = none ∧
    ((ported .up (fun p => { p with encOn := true })).port 0).encOn = true := by
  intro t
  have h16 : t.length = 16 := gcmTag_length _ _ _ _
  have hf : (flipped t).length = 16 := (List.length_map _).trans h16
  have ph (t : List Byte) : flitPhase (linkFlit .lctl [] t) = false := by unfold flitPhase linkFlit; rw [leField_flitOf (flitHead_length _ _ _ _ _ _)]; decide
  refine ⟨?_, ?_, ?_, by decide +kernel, by decide +kernel, by decide +kernel⟩
  · rw [ph]; exact (bodyTagOk_flitOf (leBytes_length _ _) _ _ _ _ h16).trans (decide_eq_true rfl)
  · rw [ph]; exact (bodyTagOk_flitOf (leBytes_length _ _) _ _ _ _ hf).trans (decide_eq_false (flipped_ne h16))
  · rw [(linkFlit_heard .lctl [] h16).2.2]
    unfold bodyUctr
    rw [leField_append (by rw [sealPlain_length]; omega)]
    decide

theorem witness_LinkLayer :
    (((ported .up (fun p => { p with replay := [sent0], tries := 7 })).port 0).replay ≠ [] ∧ ((ported .up (fun p => { p with replay := [sent0], tries := 7 })).port 0).tries < 8 ∧
      8 ≤ ((ported .up (fun p => { p with replay := [sent0], tries := 8 })).port 0).tries) ∧ ((ported .up id).port 0).replay = [] ∧
    (((ported .up (fun p => { p with wantNak := true })).port 0).wantNak = true ∧ (on.port 0).wantNak = false) ∧ ((ported .up id).port 0).resend = 0 ∧
    (0 < ((ported .up (fun p => { p with replay := [sent0], resend := 1 })).port 0).resend ∧
      ((ported .up (fun p => { p with replay := [sent0], resend := 1 })).port 0).replay[1 - 1]? = some sent0 ∧
      sent0.flits.length ≤ ((ported .up (fun p => { p with replay := [sent0], resend := 1 })).port 0).room 0 ∧
      ((ported .up (fun p => { p with replay := [sent0], resend := 1, sent := p.sent.set 0 256 })).port 0).room 0 < sent0.flits.length ∧
      ((ported .up (fun p => { p with replay := [sent0], resend := 1, sent := p.sent.set 0 256 })).port 0).due = []) ∧
    ((ported .up (fun p => { p with due := [.lctl] })).port 0).due = .lctl :: [] ∧ (((ported .handshake id).port 0).due = [] ∧ ((ported .handshake id).port 0).mode = .handshake) ∧
    ((ported .up (fun p => { p with replay := List.replicate 4095 sent0 })).port 0).stopped = true ∧
    (let x := (ported .up (fun p => { p with queue := p.queue.set 0 [1] })).port 0
     x.due = [] ∧ x.mode ≠ .handshake ∧ x.stopped = false ∧ 0 < x.groupSize 0 ∧ x.encOn = false) ∧
    (((ported .keying id).port 0).groupSize 0 = 0 ∧ ((ported .keying id).port 0).mode ≠ .up ∧ ((ported .up (fun p => { p with held := true })).port 0).held = true) ∧
    (let x := (ported .up (fun p => { p with queue := p.queue.set 3 [1] })).port 0
     x.groupSize 0 = 0 ∧ x.mode = .up ∧ x.held = false ∧ (x.pickLane 64).2 = some 3 ∧ (((ported .up id).port 0).pickLane 64).2 = none) := by decide +kernel

/-- Ethernet port 0 up, its queue pair 0 taking every multicast frame. -/
def ethered : State := { (on.setPort 30 { on.port 30 with mode := .ethUp }) with
  link := { (on.setPort 30 { on.port 30 with mode := .ethUp }).link with eth := [(ethKey 30 0, { EthQp.reset with enable := true, acceptMc := true, txTail := 1 })] } }
/-- A frame of 60 bytes to a group address, its check sequence appended. -/
def ethBody : List Byte := [1] ++ zeros 59
/-- The frame. -/
def ethGood : List Byte := ethBody ++ leBytes 4 (ethFcs ethBody)
/-- A chunk of no payload of a message of type 5, its checks in place. -/
def chunkHead : List Byte := [2, 0] ++ zeros 18 ++ leBytes 4 (crcOf []) ++ zeros 4
/-- The chunk. -/
def goodChunkBytes : List Byte := chunkHead ++ leBytes 4 (crcOf (chunkHead ++ zeros 128)) ++ zeros 128

/-- The neighbour of port 0 speaks minor version 1. -/
def talking : State := on.setPort 0 { on.port 0 with minor := 1 }
/-- Message 0 of type 5 under way on port 0, its one chunk sent again `k` times. -/
def underWay (k : Nat) (s : State) : State :=
  { s with link := { s.link with tx := [⟨0, .none, 5, 0, [0], [], 64, false, false, .zeros, 1, [⟨false, k⟩], 0⟩] } }

theorem witness_Ports : ((on.port 0).mode = .down ∧ (on.port 0).enable = true ∧ (on.port 0).retrying = false) ∧ ((ported .training id).port 0).mode = .training ∧
    ((ported .down (fun p => { p with retrying := true })).port 0).retrying = true ∧ ((ported .handshake id).port 0).mode = .handshake ∧
    ((ported .keying id).port 0).mode = .keying ∧ ((ported .disabled id).port 0).mode = .disabled ∧
    (((ported .quarantine id).port 0).mode ≠ .disabled ∧ ((ported .quarantine id).port 0).mode ≠ .down ∧ ((ported .quarantine id).port 0).mode ≠ .up) ∧
    (bitOf (0 : W32).toNat 0 = false ∧ bitOf (0 : W32).toNat 2 = false ∧ bitOf (0 : W32).toNat 5 = false ∧ bitOf (1 : W32).toNat 0 = true ∧
      bitOf (1 : W32).toNat 2 = false ∧ bitOf (1 : W32).toNat 5 = false) ∧ ((ported .up id).port 0).mode = .up := by decide +kernel

/-- Messages of type 5 of one chunk or two; a relay; a bad chunk heard for the first and the fourth time; the reports of a message under way. -/
theorem witness_Ports_chunks : on.rxMsg (BitVec.ofNat 32 (leField typed 8 4)) (BitVec.ofNat 32 (leField typed 4 4)) = none ∧
    (∀ x ∈ [(RxTarget.relay 0 [1], 1, []), (.other, 1, [0]), (.other, 2, []), (.other, 1, [])], let s := expecting x.1 5 x.2.1 x.2.2 talking
      s.rxMsg (BitVec.ofNat 32 (leField goodChunkBytes 8 4)) (BitVec.ofNat 32 (leField goodChunkBytes 4 4)) = some (expected x.1 5 x.2.1 x.2.2) ∧
      (s.port 0).admits 5 = true ∧ (s.port 0).minor ≠ 0 ∧ leField goodChunkBytes 2 2 < x.2.1 ∧ (on.port 0).admits 5 = false ∧ 1 ≤ leField [2, 0, 1, 0] 2 2 ∧
      chunkOk (s.openChunk (expected x.1 5 x.2.1 x.2.2) (zeros 160)) = false ∧ (chunkOf (s.openChunk (expected x.1 5 x.2.1 x.2.2) goodChunkBytes)).index = 0) ∧
    (([] ++ [0] : List Nat).filter (fun i => decide (i = 0))).length ≤ 3 ∧ 3 < (([0, 0, 0] ++ [0] : List Nat).filter (fun i => decide (i = 0))).length ∧
    (leField [1, 0, 2] 0 1 = 1 ∧ leField [1, 0, 2] 2 1 = 2) ∧ (leField [1, 0, 3] 0 1 = 1 ∧ leField [1, 0, 3] 2 1 = 3) ∧
    leField (zeros 8) 0 1 ≠ 1 ∧ on.txMsg 0 = none ∧
    (∀ k ∈ [0, 3], ((underWay k talking).txMsg 0).map (fun m => m.chunks[0]?) = some (some ⟨false, k⟩) ∧
      ((underWay k talking).txMsg 0).map (fun m => m.ports.any (fun q => ((underWay k talking).port q).held)) = some false ∧ ((underWay k talking).port 0).minor ≠ 0) ∧
    (((underWay 0 (on.setPort 0 { on.port 0 with held := true })).txMsg 0).map (fun m => m.ports.any (fun q =>
      ((underWay 0 (on.setPort 0 { on.port 0 with held := true })).port q).held)) = some true) ∧
    (match (underWay 0 talking).txMsg 0 with
      | some m => isOk ((((underWay 0 talking).noteResend 0).modTx 0 (fun m => { m with chunks := m.chunks.set 0 ⟨false, 1⟩ })).sendChunk m 0)
      | none => false) = true := by decide +kernel

theorem witness_Ports_goodChunk : chunkOk ((expecting .other 5 1 [] on).openChunk (expected .other 5 1 []) goodChunkBytes) = true := by decide +kernel

/-- A frame that pauses priority 0 for one quantum. -/
def pfcBody : List Byte := [0x01, 0x80, 0xC2, 0, 0, 1] ++ zeros 6 ++ [0x88, 0x08, 1, 1, 0, 1, 0, 1] ++ zeros 40
def pfcGood : List Byte := pfcBody ++ leBytes 4 (ethFcs pfcBody)
/-- A transmit descriptor at device-virtual 0: reserved byte `r`, length `n`; priority 0 paused until tick `u`. -/
def ethSending (r n : Byte) (u : W64) : State := (mapped (ethered.modPort 30 (fun p => { p with paused := p.paused.set 0 u }))).modMem (fun m =>
  { m with cells := m.cells ++ ([(0x40001, (1 : Byte)), (0x40008, n), (0x4000A, r)].filter (fun c => decide (c.2 ≠ 0))) })
/-- What a port reads of it: whether its form is right and its length. -/
def ethDesc (s : State) : Option (Bool × Nat × Bool) :=
  match s.dvRead (s.eth 30 0).owner (masterTransport 1) ((s.eth 30 0).txBase.toNat + 32 * (s.eth 30 0).txHead.toNat) 32 with
  | .ok (b, _) => some (txDescOk b, leField b 8 2, match s.dvRead (s.eth 30 0).owner (masterTransport 1) (leField b 0 8) (leField b 8 2) with
    | .ok (_, bad) => !bad && !bitOf (leField b 12 1) 0
    | .error _ => false)
  | .error _ => none

/-- Descriptors of a wrong form, too short and right; a priority that is paused and one that is not; the frame that pauses it. -/
theorem witness_Ports_send : (ethOk pfcGood = true ∧ isPfc (ethParse pfcGood).data = true) ∧
    ((ethSending 0 60 100).clock.time.toNat < (((ethSending 0 60 100).port 30).paused.toList.getD 0 0).toNat ∧
      (((ethSending 0 60 0).port 30).paused.toList.getD 0 0).toNat ≤ (ethSending 0 60 0).clock.time.toNat) ∧
    (ethDesc (ethSending 1 60 0)).map (fun d => d.1) = some false ∧ (ethDesc (ethSending 0 59 0)).map (fun d => (d.1, d.2.1)) = some (true, 59) ∧
    ethDesc (ethSending 0 60 0) = some (true, 60, true) ∧ ethDesc (ethSending 0 60 100) = some (true, 60, true) ∧
    ((ethSending 0 60 0).port 30).mode = .ethUp ∧ ((ethSending 0 60 0).eth 30 0).enable = true ∧ ((ethSending 0 60 0).eth 30 0).txHead ≠ ((ethSending 0 60 0).eth 30 0).txTail := by
  decide +kernel

theorem witness_Ports_eth : 30 ≤ (30 : PortNo).val ∧ (31 : PortNo).val < 32 ∧ ((on.port 30).enable = true ∧ (on.port 30).mode = .down) ∧ (ethered.port 30).mode = .ethUp ∧
    ethOk (zeros 63) = false ∧ ethOk ethGood = true ∧ ethered.ethSteer 30 (ethParse ethGood) = [0] ∧
    ((ethered.eth 30 0).enable = true ∧ (ethered.eth 30 0).txHead ≠ (ethered.eth 30 0).txTail) ∧ isPfc (ethParse ethGood).data = false ∧
    ((29 : PortNo).val < 30 ∧ on.slotTooHigh = false ∧ on.planLoaded = false) := by decide +kernel

/-! Witnesses: management, security, update, values, the whole machine -/

/-- A request of an operation on an entry, with a value. -/
def wmpMsg (op : Byte) (seq idxLo idxHi sub ty : Byte) (value : List Byte) : List Byte :=
  [1, op, 0, 1, seq, 0, idxLo, idxHi, sub, ty, BitVec.ofNat 8 value.length, 0, 0, 0, 0, 0, BitVec.ofNat 8 value.length] ++ zeros 7 ++ value
/-- The host's mailbox. -/
def mbx : WmpPath := .mailbox 0
/-- A request as parsed. -/
def parsed (m : List Byte) : WmpReq := (WmpReq.parse mbx m).getD ⟨mbx, 0, 0, false, 0, 0, 0, 0, 0, 0, []⟩
/-- The power limit read; an entry that does not exist read; the power limit written, and with a value of another type. -/
def readLimit : List Byte := wmpMsg 1 7 0x00 0x21 1 0 []
/-- A read of an entry there is none of. -/
def readNone : List Byte := wmpMsg 1 7 0xFF 0xFF 1 0 []
/-- A write of the power limit. -/
def writeLimit (ty : Byte) : List Byte := wmpMsg 2 7 0x00 0x21 1 ty (leBytes 2 4000)
/-- The warden's state as given. -/
def warded (f : WardenState → WardenState) : State := { on with ward := f on.ward }
/-- The row of a request. -/
def rowOf (m : List Byte) (w : Bool) : Option DictRow := ((parsed m).entry w).toOption

theorem witness_Management : State.reset.wmpUp mbx = false ∧ (on.wmpUp mbx = true ∧ WmpReq.parse mbx (zeros 23) = none ∧ on.ward.recovery = false) ∧
    ((WmpReq.parse mbx readLimit).isSome = true ∧ (parsed readLimit).version = 1 ∧ (parsed readLimit).op = 1) ∧
    ((warded (fun w => { w with kept := [⟨mbx, 7, [], 0⟩] })).keptFor mbx 7).isSome = true ∧
    (on.keptFor mbx 7 = none ∧ (warded (fun w => { w with commitNow := [⟨some mbx, 7, 0, 0, 0, false⟩] })).inService mbx 7 = true ∧ on.inService mbx 7 = false) ∧
    ((parsed readNone).op = 1 ∧ isOk ((parsed readNone).entry false) = false) ∧
    ((rowOf readLimit false).any (fun r => !on.mainDown 0x2100 r && !on.queueFull &&
      decide ((parsed readLimit).offset < ((on.beforeRead 0x2100 1).entryBytes 0x2100 1 r).length)) = true) ∧
    ((WmpReq.parse mbx (wmpMsg 2 7 0xFF 0xFF 1 0 [])).isSome = true ∧ isOk ((parsed (wmpMsg 2 7 0xFF 0xFF 1 0 [])).entry true) = false) := by decide +kernel

theorem witness_Management_writes : ((parsed (writeLimit 3)).version = 1 ∧ (parsed (writeLimit 3)).op = 2 ∧ (parsed (writeLimit 3)).offset = 0 ∧ (parsed (writeLimit 3)).last = true ∧
      on.stagedElsewhere (parsed (writeLimit 3)) = false ∧
      (rowOf (writeLimit 3) true).any (fun r => decide (on.writeStatus (parsed (writeLimit 3)) r (parsed (writeLimit 3)).value = wmpOk) && !on.queueFull &&
        decide (r.acc.of (domainOf mbx) = .rwp)) = true) ∧
    ((parsed (writeLimit 2)).op = 2 ∧ (parsed (writeLimit 2)).last = true ∧
      (rowOf (writeLimit 2) true).any (fun r => decide (on.writeStatus (parsed (writeLimit 2)) r (parsed (writeLimit 2)).value ≠ wmpOk)) = true) ∧
    ((WmpReq.parse mbx (wmpMsg 3 7 0 0 0 0 [])).isSome = true ∧ (parsed (wmpMsg 3 7 0 0 0 0 [])).op = 3) := by decide +kernel

/-- A mailbox that is free, its request as given. -/
def boxed (m : List Byte) : State := warded (fun w => { w with mailboxes := w.mailboxes.set 0 { Mailbox.reset with
  req := (m.zipIdx.filter (fun b => decide (b.1 ≠ 0))).map (fun b => (b.2, b.1)) } })
/-- The state in which its request is taken. -/
def boxTaken (m : List Byte) : State := ((boxed m).modWard (fun w => { w with mailboxes := w.mailboxes.set 0 { w.mailboxes[0] with busy := true } })).wmpRequest mbx m

/-- A read under another type; a request in the mailbox that is answered, one that waits in service, and one that is no request. -/
theorem witness_Management_mailbox : ((parsed (wmpMsg 1 7 0x00 0x21 1 2 [])).ty ≠ 0 ∧
      (rowOf (wmpMsg 1 7 0x00 0x21 1 2 []) false).any (fun r => decide ((parsed (wmpMsg 1 7 0x00 0x21 1 2 [])).ty ≠ r.ty.code)) = true) ∧
    (∀ m ∈ [readLimit, writeLimit 3, wmpMsg 9 7 0 0 0 0 []], (boxed m).ward.mailboxes[0].busy = false ∧ (boxed m).ward.mailboxes[0].req.getLE 10 2 ≤ 1024 ∧
      (boxed m).wmpUp mbx = true ∧ (boxed m).ward.mailboxes[0].req.getList 0 (24 + (boxed m).ward.mailboxes[0].req.getLE 10 2) = m) ∧
    ((WmpReq.parse mbx readLimit).isSome = true ∧ (boxTaken readLimit).inService mbx (leField readLimit 4 2) = false) ∧
    ((WmpReq.parse mbx (writeLimit 3)).isSome = true ∧ (boxTaken (writeLimit 3)).inService mbx (leField (writeLimit 3) 4 2) = true) ∧
    WmpReq.parse mbx (zeros 23) = none := by decide +kernel

theorem witness_Management_warden :
    ((warded (fun w => { w with mailboxes := w.mailboxes.set 0 { Mailbox.reset with busy := true } })).ward.mailboxes[0].busy = true ∧
      (warded (fun w => { w with mailboxes := w.mailboxes.set 0 { Mailbox.reset with req := [(10, 1), (11, 4)] } })).ward.mailboxes[0].busy = false ∧
      1024 < (warded (fun w => { w with mailboxes := w.mailboxes.set 0 { Mailbox.reset with req := [(10, 1), (11, 4)] } })).ward.mailboxes[0].req.getLE 10 2) ∧
    (on.ward.commitNow = [] ∧ (warded (fun w => { w with commitNow := [⟨none, 0, 0, 0, 0, false⟩] })).ward.commitNow ≠ [] ∧ on.ward.up = true) ∧
    (State.reset.ward.up = false ∧ State.reset.plug.wardenUp = false ∧ (warded (fun w => { w with up := false })).ward.up = false ∧
      (warded (fun w => { w with up := false })).plug.wardenUp = true ∧ (warded (fun w => { w with up := false })).ward.quiet = false ∧ on.ward.recovery = false) ∧
    (on.plug.standbyRails = true ∧ (0x30 : BitVec 7) = on.i3cStatic ∧ (0x31 : BitVec 7) ≠ on.i3cStatic) ∧
    (on.ward.i3cAddr = none ∧ (warded (fun w => { w with i3cAddr := some 8 })).ward.i3cAddr ≠ none) ∧
    ((0x5B : Byte) ≠ 0x5A ∧ on.modu.state = .ready ∧ (modIn .standby .none).modu.state = .standby ∧ (modIn .active .none).modu.state = .active) := by decide +kernel

/-- An SPDM connection at a stage with a session, finished or not. -/
def spdmAt (n : Nat) (done : Bool) (sessions : Nat) : State := { on with sec := { on.sec with
  conns := [⟨.doe, n, [], [1, 2]⟩], sessions := List.replicate sessions ⟨.doe, 1, done, 0, 0⟩ } }

/-- Seven sessions leave room, eight do not. -/
theorem witness_Spdm : on.spdmUp .doe = true ∧ (on.conn .doe).stage < 1 ∧ ((spdmAt 2 true 0).spdmUp .doe = true ∧ ((spdmAt 2 true 0).conn .doe).stage < 3) ∧
    (1 ≤ ((spdmAt 1 true 0).conn .doe).stage ∧ 2 ≤ ((spdmAt 2 true 0).conn .doe).stage ∧ ((spdmAt 2 true 0).conn .doe).reply ≠ []) ∧
    (3 ≤ ((spdmAt 3 true 7).conn .doe).stage ∧ (on.certChain 0).isSome = true ∧ (on.certChain 1).isSome = true ∧ 2 ≤ 2 ∧
      (spdmAt 3 true 7).sessionRoom .doe = true ∧ (spdmAt 3 true 8).sessionRoom .doe = false) ∧
    ((spdmAt 3 false 1).session .doe 1 = some ⟨.doe, 1, false, 0, 0⟩ ∧ (spdmAt 3 true 1).session .doe 1 = some ⟨.doe, 1, true, 0, 0⟩) ∧
    (spdmAt 3 true 1).session .doe 2 = none ∧ ((spdmAt 3 true 1).session .doe 1).isSome = true ∧
    ((spdmAt 3 true 1).clock.time.toNat < 0 + 3 * secTicks ∧
      0 + 3 * secTicks ≤ ({ spdmAt 3 true 1 with clock := { on.clock with time := BitVec.ofNat 64 (3 * secTicks) } } : State).clock.time.toNat) ∧
    (let s := ported .up (fun p => { p with encOn := true })
     let t : State := { s with sec := { s.sec with sessions := [⟨.link 0, 1, true, 0, 0⟩] } }
     t.spdmUp (.link 0) = true ∧ t.session (.link 0) 1 = some ⟨.link 0, 1, true, 0, 0⟩ ∧ (t.port 0).encOn = true) := by decide +kernel

/-- An image in bank A of the warden runs from key slot 1. -/
def running1 : State := { on with sec := { on.sec with running := [(1, ⟨1, 0, 1, true, 0⟩)] } }

theorem witness_SecurityCounters : on.ward.up = true ∧ (on.modu.state ≠ .standby ∧ (modIn .standby .none).modu.state = .standby ∧
      (modIn .standby .none).tokenOk (Signed.ofBytes []) = false) ∧
    (3 < (4 : Byte).toNat ∧ running1.sec.running.any (fun e => decide (e.2.slot.toNat = (1 : Byte).toNat)) = true) ∧
    ((3 : Byte).toNat ≤ 3 ∧ running1.sec.running.any (fun e => decide (e.2.slot.toNat = (3 : Byte).toNat)) = false) ∧
    (({ on with sec := { on.sec with update := { on.sec.update with state := 4 } } } : State).sec.update.state = 4 ∧ on.sec.update.state ≠ 4) ∧
    (on.plug.mainOn = true ∧ on.pmc.frozen = false ∧ ({ on with pmc := { on.pmc with frozen := true } } : State).pmc.frozen = true) ∧
    (on.snapFault on.pmc.snapAddr.toNat 17216 = none ∧
      (({ on with pmc := { on.pmc with snapAddr := 0x1000000000000 } } : State).snapFault 0x1000000000000 17216).isSome = true ∧ (on.core 0).mode ≠ .off ∧ (on.core 0).mode ≠ .cut) := by
  decide +kernel

/-- Whether a token is good rests on what the keys and the hash give, which the model leaves open: one of the right form is good as soon as they accept it. -/
theorem witness_SecurityCounters_token (x : Signed) (h1 : x.kind = 0x81 ∧ x.version = 1 ∧ x.component = 0x10 ∧ x.slot = 0)
    (h2 : x.bytes.length = 8192 ∧ x.body.length = 48 ∧ x.bodyLen = 48) (h3 : leField x.body 0 8 = Config.serial.toNat ∧ leField x.body 8 32 = 0)
    (h4 : Config.sha384 x.keys = Config.keyDigest 0 ∧ Config.sha384 x.body = x.bodyDigest) (h5 : Config.ecdsaOk x.bytes = true ∧ Config.mldsaOk x.bytes = true) :
    (modIn .standby .none).tokenOk x = true := by
  have e1 : (modIn .standby .none).sec.nonce = 0 ∧ (modIn .standby .none).sec.revoked = 0 ∧ (modIn .standby .none).sec.lifecycle = 0 := by decide +kernel
  simp [State.tokenOk, State.signedOk, h1, h2, h3, h4, h5, e1]

/-- An update in a state, by an agent on the management bus; component 1 in the table; `n` bytes received of 4. -/
def updating (st : Byte) (n : Nat) (applied : List Nat) : State := { on with sec := { on.sec with update :=
  { UpdateState.reset with state := st, agent := some (.i3c 8 true), table := [1], component := 1, scratch := zeros n, size := 4, applied := applied } } }

theorem witness_Pldm : on.pldmUp (.i3c 8 true) = true ∧ on.pldmSecured (.i3c 8 true) = true ∧ on.sec.update.agent = none ∧
    (updating 1 0 []).sec.update.agent ≠ none ∧ on.pldmUp (.i3c 8 false) = true ∧ on.pldmSecured (.i3c 8 false) = false ∧
    ((updating 1 0 []).pldmUp (.i3c 8 true) = true ∧ (updating 1 0 []).sec.update.agent = some (.i3c 8 true) ∧ (updating 1 0 []).sec.update.state = 1 ∧
      (updating 1 0 []).sec.update.table.contains 1 = true ∧ (updating 1 0 [1]).sec.update.applied ≠ [] ∧ (updating 1 0 []).sec.update.applied = []) ∧
    ((updating 2 2 []).sec.update.state = 2 ∧ zeros 2 ≠ [] ∧ (zeros 2).length ≤ pldmLimit (.i3c 8 true) ∧
      (updating 2 2 []).sec.update.scratch.length + (zeros 2).length ≤ (updating 2 2 []).sec.update.size ∧
      (updating 2 4 []).sec.update.scratch.length = (updating 2 4 []).sec.update.size ∧ (updating 2 2 []).sec.update.scratch.length ≠ (updating 2 2 []).sec.update.size) ∧
    ((updating 3 4 []).sec.update.state = 3 ∧ (updating 3 4 []).receivedOk = false) ∧ (updating 4 4 []).sec.update.state = 4 := by decide +kernel

/-- Whether what was received verifies rests on what the keys and the hash give: one of the right form verifies as soon as they accept it. -/
theorem witness_Pldm_received (s : State) (x : Signed) (hx : x = Signed.ofBytes s.sec.update.scratch) (h0 : s.sec.revoked = 0 ∧ s.sec.lifecycle = 0)
    (h1 : x.kind = 0x80 ∧ x.version = 1 ∧ x.component = s.sec.update.component ∧ x.slot = 0 ∧ s.svnMin s.sec.update.component ≤ x.security)
    (h2 : x.bytes.length = 8192 ∧ x.body.length = x.bodyLen) (h4 : Config.sha384 x.keys = Config.keyDigest 0 ∧ Config.sha384 x.body = x.bodyDigest)
    (h5 : Config.ecdsaOk x.bytes = true ∧ Config.mldsaOk x.bytes = true) : s.receivedOk = true := by
  subst hx
  simp [State.receivedOk, State.signedOk, h0, h1, h2, h4, h5]

/-- A not-a-number, both infinities, 128, -151, 1, 0.5, 0 and 1.5; the edges of the exact results of exp2. -/
theorem witness_SpecialFunctionTables : valOf 0x7FC00000 = .nan ∧ valOf 0x7F800000 = .inf false ∧ valOf 0xFF800000 = .inf true ∧
    (∃ m e, valOf 0x43000000 = .fin false m e ∧ (m : ℚ) * 2 ^ e = 128) ∧ (∃ m e, valOf 0xC3170000 = .fin true m e ∧ (m : ℚ) * 2 ^ e = 151) ∧
    (∃ m e, valOf 0xC3150000 = .fin true m e ∧ (m : ℚ) * 2 ^ e = 149) ∧ (∃ m e, valOf 0x42FE0000 = .fin false m e ∧ (m : ℚ) * 2 ^ e = 127) ∧
    (∃ m e, valOf 0xC3160000 = .fin true m e ∧ (m : ℚ) * 2 ^ e = 150) ∧
    (∃ m e, valOf 0x3F000000 = .fin false m e ∧ (m : ℚ) * 2 ^ e = 1 / 2) ∧ (∃ m e, valOf 0 = .fin false m e ∧ (m : ℚ) * 2 ^ e = 0) ∧
    (∃ m e, valOf 0x3FC00000 = .fin false m e ∧ (m : ℚ) * 2 ^ e = (1 + (4194304 : ℕ) / 2 ^ 23) * 2 ^ (0 : ℤ)) ∧
    (∃ m e, valOf 0xBF800000 = .fin true m e ∧ -(m : ℚ) * 2 ^ e < 0) := by
  refine ⟨by decide, by decide, by decide, ⟨8388608, -16, by decide, by norm_num⟩, ⟨9895936, -16, by decide, by norm_num⟩,
    ⟨9764864, -16, by decide, by norm_num⟩, ⟨16646144, -17, by decide, by norm_num⟩, ⟨9830400, -16, by decide, by norm_num⟩,
    ⟨8388608, -24, by decide, by norm_num⟩, ⟨0, -149, by decide, by norm_num⟩, ⟨12582912, -23, by decide, by norm_num⟩, ⟨8388608, -23, by decide, by norm_num⟩⟩

theorem witness_CoreWritesWhileRunning : on.plug.mainOn = true ∧ (comp.plug.mainOn = true ∧ (comp.core 0).mode = .running) ∧ (on.core 0).mode ≠ .running ∧
    (2 : W64).toNat % 4 ≠ 3 ∧ ((16 : W64).toNat < 32 ∧ (16 : W64).toNat % 16 = 0 ∧ (0 : W64).toNat % 16 = 0) ∧ (on.core 0).load = none ∧
    ((withPart on).plug.mainOn = true ∧ (withPart on).rubricInPart 0 ((0x100000 : W64).toNat / 2 ^ 19 % 32) = true ∧
      (withPart on).rubricInPart 0 ((0x180000 : W64).toNat / 2 ^ 19 % 32) = false) := by decide +kernel

/-- The bytes before and after granule 1. -/
theorem witness_UnifiedMemory : Memory.wf on.mem = true ∧ Memory.wf bad0.mem = true ∧ 63 < 64 * 1 ∧ 64 * 1 + 64 ≤ 128 := by decide +kernel

/-- A core in each state that only reports, and running ones with and without a cut that waits. -/
theorem witness_CoreFaults : (∀ m ∈ [CoreMode.faulted, .cut, .off], ((core0 (fun c => { c with mode := m })).core 0).mode = m) ∧
    ((comp.core 0).mode = .running ∧ (comp.core 0).flags.cutReq = false) ∧
    ((core0 (fun c => { inPhase .compute c with flags := { c.flags with cutReq := true } })).core 0).flags.cutReq = true ∧ (1 : CoreNo) ≠ 0 := by decide +kernel

theorem witness_StepFront : State.reset.pending = [] := by decide

theorem witness_ResetValues : (dictRow 0x2100 1).isSome = true ∧ (dictRow 0x3010 4).isSome = true := by decide +kernel

theorem witness_StepKeepsInvariant : on.Inv ∧ (mapped on).Inv ∧ (∃ t, step { on with pending := [.clearCuts] } = .next t) ∧ ∃ t, step on = .next t :=
  ⟨⟨by decide +kernel, by decide +kernel⟩, ⟨by decide +kernel, by decide +kernel⟩, ⟨_, rfl⟩, ⟨_, rfl⟩⟩

/-- R487, R488, R495: a running core's cycle counter and its counter of RUNNING gain the tick's cycles; one of another event does not. -/
theorem test_count_tick : let c : Core := { Core.reset with mode := .running, counters := [(0, ⟨5, 0xF01, false⟩), (1, ⟨5, 0xF02, false⟩)] }
    (c.countTick 2 false (fun _ => 0)).cycles = 2 ∧ (c.countTick 2 false (fun _ => 0)).counters = [(0, ⟨7, 0xF01, false⟩), (1, ⟨5, 0xF02, false⟩)] := by
  decide +kernel
end Sys2Proof.Tests
end

section
/-! SUPPORT. Global time: what a flit that is accepted does to its port, what a time response changes of the clock, and the entry to
holdover and its end (R41, R42, R322, R333, R342, R343). -/

namespace Sys2Proof.Machine

/-! Flits that are accepted (R322, R333) -/

theorem Port.linked_of_up {x : Port} (h : x.mode = .up) : x.linked = true := by
  simp [Port.linked, h]

/-- A correct flit of the type a command takes goes on, on a port whose link runs. -/
theorem State.flitPass_of_type {s : State} {p : PortNo} {t : FlitType} {f : List Byte} (hl : (s.port p).linked = true)
    (ho : flitOk f = true) (ht : flitType f = some t) (k : State → State) : s.flitPass p t f k = k s := by
  simp [State.flitPass, hl, ho, ht]

/-- R333: what a port accepts of an unsequenced flit: its tag holds and its counter is fresh, or the port does not encrypt. -/
def Port.accepts (x : Port) (f : List Byte) : Prop :=
  x.encOn = false ∨ (bodyTagOk f (x.rxKey (flitPhase f)) = true ∧ x.fresher (bodyUctr (flitBody f)) = true)

/-- R333: a port that encrypts keeps the counter of the flit it accepted. -/
def State.noteUctr (s : State) (p : PortNo) (f : List Byte) : State :=
  if (s.port p).encOn then s.modPort p (fun x => { x with uctrRx := some (bodyUctr (flitBody f)) }) else s

@[simp] theorem State.noteUctr_clock (s : State) (p : PortNo) (f : List Byte) : (s.noteUctr p f).clock = s.clock := by
  unfold State.noteUctr; split <;> rfl

@[simp] theorem State.noteUctr_modu (s : State) (p : PortNo) (f : List Byte) : (s.noteUctr p f).modu = s.modu := by
  unfold State.noteUctr; split <;> rfl

@[simp] theorem State.noteUctr_time (s : State) (p : PortNo) (f : List Byte) : (s.noteUctr p f).link.time = s.link.time := by
  unfold State.noteUctr; split <;> rfl

/-- A port that does not encrypt takes every counter for fresh. -/
theorem Port.fresher_of_plain {x : Port} (h : x.encOn = false) (u : W64) : x.fresher u = true := by
  simp [Port.fresher, h]

/-- An accepted flit goes on, once its counter is kept. -/
theorem State.authPass_of_accepts {s : State} {p : PortNo} {f : List Byte} (h : (s.port p).accepts f) (k : State → State) :
    s.authPass p f k = k (s.noteUctr p f) := by
  obtain hplain | ⟨htag, hfresh⟩ := h
  · simp [State.authPass, State.noteUctr, hplain, Port.fresher_of_plain]
  · simp [State.authPass, State.noteUctr, htag, hfresh]

/-- An accepted TIME flit of the kind a command takes goes on, with its body. -/
theorem State.withTime_of_accepts {s : State} {p : PortNo} {kind : Nat} {f : TimeMsg} (hup : (s.port p).mode = .up)
    (ho : flitOk f.flit = true) (ht : flitType f.flit = some .time) (hk : leField (flitBody f.flit) 0 1 = kind)
    (ha : (s.port p).accepts f.flit) (k : State → List Byte → State) :
    s.withTime p kind f k = k (s.noteUctr p f.flit) (flitBody f.flit) := by
  unfold State.withTime
  rw [State.flitPass_of_type (Port.linked_of_up hup) ho ht, if_pos ⟨hup, hk⟩, State.authPass_of_accepts ha]

/-! A time response (R41, R42, R342) -/

@[simp] theorem State.reportPort_clock (s : State) (p : PortNo) (code : Nat) (lvl : Level) (detail : List Nat) :
    (s.reportPort p code lvl detail).clock = s.clock := State.report_clock s _

@[simp] theorem State.reportPort_link (s : State) (p : PortNo) (code : Nat) (lvl : Level) (detail : List Nat) :
    (s.reportPort p code lvl detail).link = s.link := State.report_link s _

/-- A record made under a condition leaves the clock. -/
theorem State.clock_ite_reportPort (b : Bool) (s : State) (p : PortNo) (code : Nat) (lvl : Level) (detail : List Nat) :
    (if b then s.reportPort p code lvl detail else s).clock = s.clock := by
  cases b
  · rfl
  · exact State.reportPort_clock ..

/-- A record made under a condition leaves the ports and the time exchange. -/
theorem State.link_ite_reportPort (b : Bool) (s : State) (p : PortNo) (code : Nat) (lvl : Level) (detail : List Nat) :
    (if b then s.reportPort p code lvl detail else s).link = s.link := by
  cases b
  · rfl
  · exact State.reportPort_link ..

/-- An offset ends holdover and acts on the time and the rate, the rest of the clock stays; outside BRINGUP the time takes no step (R41). -/
theorem State.takeOffset_clock (s : State) (p : PortNo) (o : Int) : ∃ step offset rate synced, (s.modu.state ≠ .bringup → step = 0) ∧
    (s.takeOffset p o).clock = { s.clock with
      time := s.clock.time + BitVec.ofNat 64 step, forwardUsed := true, holdover := false, offsetNs := offset, rateAdj := rate,
      synced := synced } := by
  unfold State.takeOffset
  extract_lets t bring big near step
  have hstep : s.modu.state ≠ .bringup → step = 0 := fun hb => if_neg (by simp [bring, hb])
  exact ⟨step, _, _, _, hstep, State.clock_ite_reportPort ..⟩

/-- An offset answers the request in flight, and is the last valid time message of the time the clock then shows. -/
theorem State.takeOffset_time (s : State) (p : PortNo) (o : Int) : ∃ good closing split,
    (s.takeOffset p o).link.time = { s.link.time with
      good := good, newParent := false, closing := closing, split := split, request := none, lastValid := (s.takeOffset p o).clock.time } := by
  unfold State.takeOffset
  extract_lets
  rw [State.clock_ite_reportPort, State.link_ite_reportPort]
  exact ⟨_, _, _, rfl⟩

/-- R342: an accepted response to the request in flight on the parent port acts on the clock by an offset. -/
theorem exec_syncResp_of_accepts {s : State} {p : PortNo} {m : TimeMsg} (hup : (s.port p).mode = .up)
    (ho : flitOk m.flit = true) (ht : flitType m.flit = some .time) (hk : leField (flitBody m.flit) 0 1 = 1)
    (ha : (s.port p).accepts m.flit) (hp : s.link.time.parent = some p)
    (hr : s.link.time.request = some (BitVec.ofNat 16 (leField (flitBody m.flit) 12 2))) :
    ∃ o, exec (.syncResp p m) s = .next ((s.noteUctr p m.flit).takeOffset p o) := by
  show ∃ o, execSyncResp p m s = _
  unfold execSyncResp
  rw [State.withTime_of_accepts hup ho ht hk ha]
  simp only [State.noteUctr_time]
  rw [if_pos ⟨hp, hr⟩]
  exact ⟨_, rfl⟩

/-! The entry to holdover (R42) -/

/-- R42: 10 ms (12,000,000 ticks of 1.2 GHz) after the last valid time message, a module that is not the root enters holdover. -/
theorem exec_holdoverEntry_of_late {s : State} (hroot : s.link.time.isRoot = false) (hhold : s.clock.holdover = false)
    (hlate : s.link.time.lastValid.toNat + 12000000 ≤ s.clock.time.toNat) :
    exec .holdoverEntry s = .next ((s.modClock (fun c => { c with synced := false, holdover := true, syncLost := true })).modTime
      (fun t => { t with good := 0 })) := by
  have hgo : ¬ (s.link.time.isRoot = true ∨ s.clock.holdover = true ∨ s.clock.time.toNat < s.link.time.lastValid.toNat + 12000000) := by
    simp [hroot, hhold, hlate]
  exact congrArg Host.Outcome.next (if_neg hgo)

/-- The root (R343), a module in holdover and one whose 10 ms are not over stay as they are. -/
theorem exec_holdoverEntry_of_not_late {s : State}
    (h : s.link.time.isRoot = true ∨ s.clock.holdover = true ∨ s.clock.time.toNat < s.link.time.lastValid.toNat + 12000000) :
    exec .holdoverEntry s = .next s :=
  congrArg Host.Outcome.next (if_pos h)

/-- Settles O24: the two cases of the entry, and an accepted response as an offset that acts on the clock. That it ends the holdover at once
is the model's reading of R42 (log 135). -/
theorem holdover : Obligations.Holdover := by
  intro s
  refine ⟨fun hroot hhold hlate => ⟨_, exec_holdoverEntry_of_late hroot hhold hlate, rfl, rfl⟩, exec_holdoverEntry_of_not_late,
    fun p m hup ho ht hk ha hp hr => ?_⟩
  obtain ⟨o, he⟩ := exec_syncResp_of_accepts hup ho ht hk ha hp hr
  obtain ⟨step, offset, rate, synced, hstep, hclock⟩ := State.takeOffset_clock (s.noteUctr p m.flit) p o
  obtain ⟨good, closing, split, htime⟩ := State.takeOffset_time (s.noteUctr p m.flit) p o
  rw [State.noteUctr_modu] at hstep
  rw [State.noteUctr_clock] at hclock
  exact ⟨_, he, by rw [hclock], by rw [hclock], by rw [htime], fun hb => by simp [hclock, hstep hb]⟩

end Sys2Proof.Machine
end

section
/-! SUPPORT. Writes of core registers: the fields that a register keeps of the value written, which registers drop a write, and what the
others do (R9, R71, R73, R103). -/

namespace Sys2Proof.Machine

/-! The fields kept of a value -/

/-- Bit `i` is kept when it lies in the field. -/
@[simp] theorem testBit_keepBits (v hi lo i : Nat) : (keepBits v hi lo).testBit i = (decide (lo ≤ i ∧ i ≤ hi) && v.testBit i) := by
  rw [keepBits, ← Nat.shiftRight_eq_div_pow, ← Nat.shiftLeft_eq]
  by_cases hlo : lo ≤ i
  · simp [Nat.testBit_shiftLeft, Nat.testBit_shiftRight, Nat.testBit_mod_two_pow, hlo]
  · simp [Nat.testBit_shiftLeft, hlo]

/-- Keeping a field of a word is masking the others. -/
theorem ofNat_keepBits {k w hi lo : Nat} (v : BitVec k) (mask : BitVec w) (hmask : ∀ i < w, mask.getLsbD i = decide (lo ≤ i ∧ i ≤ hi)) :
    BitVec.ofNat w (keepBits v.toNat hi lo) = v.setWidth w &&& mask := by
  apply BitVec.eq_of_getLsbD_eq
  intro i hi
  rw [BitVec.getLsbD_ofNat, testBit_keepBits, BitVec.testBit_toNat, BitVec.getLsbD_and, BitVec.getLsbD_setWidth, hmask i hi, Bool.and_assoc,
    Bool.and_comm (v.getLsbD i)]

/-- A field that lies in a register reads the same of the value written and of the part of it that the register has room for. -/
theorem bits_toNat_ofNat {w lo k : Nat} (h : lo + k ≤ w) (v : Nat) : bits (BitVec.ofNat w v).toNat lo k = bits v lo k := by
  apply Nat.eq_of_testBit_eq
  intro i
  by_cases hi : i < k
  · simp [bits, Nat.testBit_mod_two_pow, Nat.testBit_shiftRight, show lo + i < w by omega]
  · simp [bits, Nat.testBit_mod_two_pow, hi]

/-- A field of a word is the word shifted down and cut to the field's width. -/
theorem ofNat_bits {w : Nat} (v : BitVec w) (lo k : Nat) : BitVec.ofNat k (bits v.toNat lo k) = (v >>> lo).setWidth k := by
  apply BitVec.eq_of_toNat_eq
  simp [bits]

/-! A write of a core register -/

/-- R8: with the main domain up, a write of a core register acts on its core block. -/
theorem exec_registerWrite_core {s : State} (hmain : s.plug.mainOn = true) (n : CoreNo) (r : CoreReg) (v : W64) :
    exec (.registerWrite (.core n r) v) s = .next (s.coreRegWrite n r v.toNat 0) :=
  congrArg Host.Outcome.next (if_pos hmain)

/-- R73: the registers that a RUNNING core does not take drop the write; so does CORE_GROUP for the group value it never takes. -/
theorem State.coreRegWrite_of_running {s : State} {n : CoreNo} (hrun : (s.core n).mode = .running) {r : CoreReg}
    (hr : r ∈ [CoreReg.rngSeed, .rotBase, .group]) (v : Nat) (priv : BitVec 2) : s.coreRegWrite n r v priv = s.modCore n Core.dropWr := by
  simp only [List.mem_cons, List.not_mem_nil, or_false] at hr
  obtain rfl | rfl | rfl := hr
  · exact congrArg (s.setCore n) (if_pos hrun)
  · simp [State.coreRegWrite, hrun]
  · simp [State.coreRegWrite, hrun]

section
variable {s : State} {n : CoreNo} (hidle : (s.core n).mode ≠ .running)
include hidle

/-- A seed loads the generator's state too. -/
theorem State.coreRegWrite_rngSeed (v : Nat) (priv : BitVec 2) : s.coreRegWrite n .rngSeed v priv = s.modCore n (fun c => c.modRegs (fun g =>
    { g with rngSeed := BitVec.ofNat 64 v, rngState := loadSeed (BitVec.ofNat 64 v) })) :=
  congrArg (s.setCore n) (if_neg hidle)

theorem State.coreRegWrite_rotBase (v : Nat) (priv : BitVec 2) : s.coreRegWrite n .rotBase v priv = s.modCore n (fun c => c.modRegs (fun g =>
    { g with rotBase := BitVec.ofNat 64 (keepBits v 51 16) })) :=
  if_neg (by simpa using hidle)

theorem State.coreRegWrite_group {v : Nat} (hv : v % 4 ≠ 3) (priv : BitVec 2) : s.coreRegWrite n .group v priv = s.modCore n (fun c =>
    c.modRegs (fun g => { g with groupLog2 := BitVec.ofNat 2 v })) :=
  (if_neg hv).trans (if_neg (by simpa using hidle))

end

/-! Registers that take every write -/

theorem State.coreRegWrite_startPc (s : State) (n : CoreNo) (v : Nat) (priv : BitVec 2) : s.coreRegWrite n .startPc v priv =
    s.modCore n (fun c => c.modRegs (fun g => { g with startPc := BitVec.ofNat 16 (keepBits v 14 4) })) := rfl

theorem State.coreRegWrite_wdog (s : State) (n : CoreNo) (v : Nat) (priv : BitVec 2) : s.coreRegWrite n .wdog v priv =
    s.modCore n (fun c => c.modRegs (fun g => { g with wdogTimeout := BitVec.ofNat 24 v })) := rfl

theorem State.coreRegWrite_arg (s : State) (n : CoreNo) (i : Fin 3) (v : Nat) (priv : BitVec 2) : s.coreRegWrite n (.arg i) v priv =
    s.modCore n (fun c => c.modRegs (fun g => if i = 0 then { g with arg0 := BitVec.ofNat 64 v }
      else if i = 1 then { g with arg1 := BitVec.ofNat 64 v } else { g with arg2 := BitVec.ofNat 64 v })) := rfl

/-! Registers with a rule of their own -/

/-- R71: a value of bit 4 alone asks for no command and writes the watchdog's enable. -/
theorem State.coreRegWrite_ctrl (s : State) (n : CoreNo) {v : Nat} (hlt : v < 32) (hcmd : v % 16 = 0) (priv : BitVec 2) :
    s.coreRegWrite n .ctrl v priv = s.modCore n (fun c => c.modRegs (fun g => { g with wdogEn := decide (v = 16) })) := by
  obtain rfl | rfl : v = 0 ∨ v = 16 := by omega
  · rfl
  · rfl

/-- R103: the program source takes a write when no load is in progress. -/
theorem State.coreRegWrite_progSrc {s : State} {n : CoreNo} (hload : (s.core n).load = none) (v : Nat) (priv : BitVec 2) :
    s.coreRegWrite n .progSrc v priv = s.modCore n (fun c => c.modRegs (fun g => { g with progSrc := BitVec.ofNat 64 (keepBits v 51 6) })) :=
  if_neg (by simp [hload])

/-- R10, R103: a write of CORE_EVENT_CTRL sets irq_en and leaves the registers; it takes the target that lies in the core's partition, and
drops any other. -/
theorem State.core_coreRegWrite_eventCtrl (s : State) (n : CoreNo) (v : Nat) (priv : BitVec 2) :
    let c := (s.coreRegWrite n .eventCtrl v priv).core n
    c.ev.irqEn = v.testBit 18 ∧ c.regs = (s.core n).regs ∧
      (s.rubricInPart n (bits v 19 5) = true → c.ev.target = BitVec.ofNat 5 (bits v 19 5)) ∧
      (s.rubricInPart n (bits v 19 5) = false → c.ev.target = (s.core n).ev.target ∧ c.flags.wrDrop = true) := by
  have hbit : bitOf (BitVec.ofNat 32 v).toNat 18 = v.testBit 18 := by
    rw [bitOf, BitVec.testBit_toNat, BitVec.getLsbD_ofNat]; rfl
  simp only [State.coreRegWrite, State.after, execCoreEventCtrlWrite, State.core_modCore, if_true, hbit,
    bits_toNat_ofNat (show 19 + 5 ≤ 32 by decide)]
  cases s.rubricInPart n (bits v 19 5) with
  | true => simp
  | false => simp [Core.dropWr]

/-- Settles O55: the three registers that drop a write while RUNNING and take it otherwise, and one rule per other RW field. -/
theorem coreWritesWhileRunning : Obligations.CoreWritesWhileRunning := by
  intro s n v hmain
  have hword : BitVec.ofNat 64 v.toNat = v := by simp
  simp only [exec_registerWrite_core hmain, Host.Outcome.next.injEq]
  refine ⟨fun hrun r hr => State.coreRegWrite_of_running hrun hr .., fun hidle => ⟨?seed, ?rotBase, fun hv => ?group⟩,
    fun hlt hcmd => State.coreRegWrite_ctrl s n hlt hcmd 0, ?startPc, ?wdog, ?arg0, ?arg1, ?arg2, fun hload => ?progSrc, ?eventCtrl⟩
  case seed => rw [State.coreRegWrite_rngSeed hidle, hword]; rfl
  case rotBase => rw [State.coreRegWrite_rotBase hidle, ofNat_keepBits v 0x000FFFFFFFFF0000 (by decide), BitVec.setWidth_eq]; rfl
  case group => rw [State.coreRegWrite_group hidle hv, BitVec.ofNat_toNat]; rfl
  case startPc => rw [State.coreRegWrite_startPc, ofNat_keepBits v 0x7FF0 (by decide)]; rfl
  case wdog => rw [State.coreRegWrite_wdog, BitVec.ofNat_toNat]; rfl
  case arg0 | arg1 | arg2 => rw [State.coreRegWrite_arg, hword]; rfl
  case progSrc => rw [State.coreRegWrite_progSrc hload, ofNat_keepBits v 0x000FFFFFFFFFFFC0 (by decide), BitVec.setWidth_eq]; rfl
  case eventCtrl =>
    obtain ⟨hirq, hregs, hin, hout⟩ := State.core_coreRegWrite_eventCtrl s n v.toNat 0
    rw [ofNat_bits, bits, Nat.shiftRight_eq_div_pow] at hin
    rw [bits, Nat.shiftRight_eq_div_pow] at hout
    exact ⟨_, rfl, hirq, hregs, hin, hout⟩

end Sys2Proof.Machine
end

section
/-! SUPPORT. Core events: what SIGNAL and END do while the core has stores or sends under way and when none is left, and what posting an
event changes (R82, R83, R84). -/

namespace Sys2Proof.Machine

/-! Posting an event (R84, steps 3 and 4) -/

/-- The post sets pending, and ended for END, in the posting core alone. -/
@[simp] theorem State.core_postEvent (s : State) (n m : CoreNo) (ended : Bool) : (s.postEvent n ended).core m =
    if n = m then { s.core n with ev := { (s.core n).ev with pending := true, ended := (s.core n).ev.ended || ended } } else s.core m := by
  have hrubric (t : State) (rb : Vector Rubric 24) : ({ t with rubric := rb } : State).core m = t.core m := rfl
  obtain ⟨rb, hpost⟩ := State.postEvent_spec s n ended
  rw [hpost, hrubric, State.core_modCore]

/-- With irq_en the post raises the interrupt of the rubric core that the target names; a target past the last rubric core names none. -/
@[simp] theorem State.rub_postEvent (s : State) (n : CoreNo) (ended : Bool) (k : Fin 24) : (s.postEvent n ended).rub k =
    if (s.core n).ev.irqEn = true ∧ (s.core n).ev.target.toNat = k.val then { s.rub k with irq := true } else s.rub k := by
  have hmod (f : Core → Core) (j : Fin 24) : (s.modCore n f).rub j = s.rub j := rfl
  unfold State.postEvent
  extract_lets s1 e
  by_cases hirq : e.irqEn = true
  · by_cases htarget : e.target.toNat < 24
    · rw [if_pos hirq, dif_pos htarget, State.rub_setRub, hmod, hmod]
      by_cases hk : (⟨e.target.toNat, htarget⟩ : Fin 24) = k
      · subst hk
        rw [if_pos rfl, if_pos ⟨hirq, rfl⟩]
      · rw [if_neg hk, if_neg (fun h => hk (Fin.ext (And.right h)))]
    · rw [if_pos hirq, dif_neg htarget, if_neg (fun h => htarget ((And.right h).trans_lt k.isLt)), hmod]
  · rw [if_neg hirq, if_neg (fun h => hirq (And.left h)), hmod]

/-- The post changes the cores and the rubric cores alone. -/
theorem State.postEvent_frame (s : State) (n : CoreNo) (ended : Bool) :
    s.postEvent n ended = { s with cores := (s.postEvent n ended).cores, rubric := (s.postEvent n ended).rubric } := by
  obtain ⟨rb, hpost⟩ := State.postEvent_spec s n ended
  rw [hpost]
  rfl

/-! SIGNAL and END (R82 to R84) -/

/-- An instruction that waits for the core's stores and sends leaves the state while one is under way, and else takes its effect. -/
theorem State.issue_whenDone {s : State} {n : CoreNo} (h : s.ready n .current = true) (effect : State → State) :
    s.issue n .current (fun t => if !t.xferDone n then t else effect t) = if s.xferDone n = true then effect s else s := by
  rw [State.issue_ready h]
  cases s.xferDone n <;> rfl

/-- SIGNAL writes CORE_EVENT and counts before it posts (R84, steps 1 and 2). -/
theorem exec_signal {s : State} {n : CoreNo} (h : s.ready n .current = true) (sa : SReg) (ev : W16) :
    exec (.signal n sa ev) s = .next (if s.xferDone n = true then
      ((s.setCore n { s.core n with ev := { (s.core n).ev with
        value := ((s.core n).sget sa).setWidth 48, event := ev, count := (s.core n).ev.count + 1, valuePoison := (s.core n).sbad sa } }).retire
          n).postEvent n false
      else s) :=
  congrArg Host.Outcome.next (State.issue_whenDone h _)

/-- END leaves CORE_EVENT and its count, posts, and enters IDLE, where a cut that waits takes effect (R462). -/
theorem exec_end {s : State} {n : CoreNo} (h : s.ready n .current = true) :
    exec (.end_ n) s = .next (if s.xferDone n = true then
      ((((s.dropToken n).retire n).modCore n (fun c =>
        { c.applyInval with mode := .idle, phase := .none, nextPhase := .none })).postEvent n true).atBoundary n
      else s) :=
  congrArg Host.Outcome.next (State.issue_whenDone h _)

/-- Settles O6: SIGNAL and END by whether a store or send is under way, and the post by what it changes. -/
theorem coreEvents : Obligations.CoreEvents := by
  refine ⟨fun s n hready sa ev => ⟨fun hdone => ⟨?_, ?_⟩, fun hbusy => ?_⟩,
    fun s n ended => ⟨?_, fun m hm => ?_, State.rub_postEvent s n ended, State.postEvent_frame s n ended⟩⟩
  · rw [exec_signal hready, if_pos hdone]
  · rw [exec_end hready, if_pos hdone]
  · have hbusy : ¬ s.xferDone n = true := by simp [hbusy]
    rw [exec_signal hready, exec_end hready, if_neg hbusy, if_neg hbusy]
    exact ⟨rfl, rfl⟩
  · rw [State.core_postEvent, if_pos rfl]
  · rw [State.core_postEvent, if_neg hm.symm]

end Sys2Proof.Machine
end

section
/-! SUPPORT. The special-function unit's exp2 and log2 over the number that an FP32 word holds: the values of decoded words, which numbers
convert to FP32 exactly, and each function by cases of the number (R106, R116, R120, R122, R125, R126). -/

namespace Sys2Proof.Machine

/-! FP32 words and the numbers they hold (R106, R116) -/

/-- R106: the value of an FP32 word by its sign, its exponent field and its fraction. -/
theorem valOf_eq (x : W32) : valOf x =
    if 0x7F7FFFFF < x.toNat % 2 ^ 31 then if x.toNat % 2 ^ 31 % 2 ^ 23 = 0 then .inf (x.toNat.testBit 31) else .nan
    else if x.toNat % 2 ^ 31 / 2 ^ 23 = 0 then .fin (x.toNat.testBit 31) (x.toNat % 2 ^ 31 % 2 ^ 23) (-149)
    else .fin (x.toNat.testBit 31) (x.toNat % 2 ^ 31 % 2 ^ 23 + 2 ^ 23) (-149 + (x.toNat % 2 ^ 31 / 2 ^ 23 : Nat) - 1) := rfl

/-- A finite FP32 value has a significand of 24 bits. -/
theorem lt_of_valOf_eq_fin {x : W32} {neg : Bool} {m : Nat} {e : Int} (h : valOf x = .fin neg m e) : m < 2 ^ 24 := by
  rw [valOf_eq] at h
  have hfr : x.toNat % 2 ^ 31 % 2 ^ 23 < 2 ^ 23 := Nat.mod_lt _ (by norm_num)
  split_ifs at h <;> cases h <;> omega

/-- R106: the word of a significand in units of 2^q; a significand below 2^23 is subnormal, so its units are 2^-149. -/
theorem valOf_of_units (neg : Bool) {m : Nat} {q : Int} (hm : m < 2 ^ 24) (hq : -149 ≤ q) (hq' : q ≤ 104) (hnorm : q = -149 ∨ 2 ^ 23 ≤ m) :
    valOf (BitVec.ofNat 32 ((if neg then 2 ^ 31 else 0) + (m + (q + 149).toNat * 2 ^ 23))) = .fin neg m q := by
  have hb : (q + 149).toNat ≤ 253 := by omega
  have hmag : m + (q + 149).toNat * 2 ^ 23 < 2 ^ 31 := by omega
  have hword : (BitVec.ofNat 32 ((if neg then 2 ^ 31 else 0) + (m + (q + 149).toNat * 2 ^ 23))).toNat =
      (if neg then 2 ^ 31 else 0) + (m + (q + 149).toNat * 2 ^ 23) :=
    (BitVec.toNat_ofNat _ _).trans (Nat.mod_eq_of_lt (by split <;> omega))
  have hsign : ((if neg then 2 ^ 31 else 0) + (m + (q + 149).toNat * 2 ^ 23)).testBit 31 = neg := by
    cases neg
    · rw [if_neg (by decide), Nat.zero_add, Nat.testBit_lt_two_pow hmag]
    · rw [if_pos rfl, Nat.testBit_two_pow_add_eq, Nat.testBit_lt_two_pow hmag]
      rfl
  have hmod : ((if neg then 2 ^ 31 else 0) + (m + (q + 149).toNat * 2 ^ 23)) % 2 ^ 31 = m + (q + 149).toNat * 2 ^ 23 := by
    split <;> omega
  rw [valOf_eq, hword, hsign, hmod, if_neg (by omega)]
  split_ifs with hexp <;> simp only [Val.fin.injEq, true_and] <;> omega

/-- R116: the FP32 word of a nonzero number that is a multiple of its rounding unit 2^q. -/
theorem toF32_of_units (neg : Bool) {m : Nat} {e q : Int} (hm : m ≠ 0) (hq : q = max (expoOf m e - 23) (-149)) (hqe : q ≤ e)
    (hmax : m * 2 ^ (e - q).toNat + (q + 149).toNat * 2 ^ 23 ≤ 0x7F7FFFFF) :
    toF32 (.fin neg m e) = BitVec.ofNat 32 ((if neg then 2 ^ 31 else 0) + (m * 2 ^ (e - q).toNat + (q + 149).toNat * 2 ^ 23)) := by
  have hcode : ElemFmt.fp32.params.roundCode .rne m e = m * 2 ^ (e - q).toNat + (q + 149).toNat * 2 ^ 23 :=
    calc ElemFmt.fp32.params.roundCode .rne m e
      _ = roundUnits .rne m e (max (expoOf m e - 23) (-149)) + (max (expoOf m e - 23) (-149) + 149).toNat * 2 ^ 23 := if_neg hm
      _ = m * 2 ^ (e - q).toNat + (q + 149).toNat * 2 ^ 23 := by rw [← hq, roundUnits, if_pos hqe]
  have hfinite : ¬ ElemFmt.fp32.params.maxCode < ElemFmt.fp32.params.roundCode .rne m e := by
    rw [hcode]
    exact Nat.not_lt.mpr hmax
  have hencode : (ElemFmt.fp32.encode .rne (.fin neg m e)).1 = (if neg then 2 ^ 31 else 0) + ElemFmt.fp32.params.roundCode .rne m e :=
    congrArg ((if neg then 2 ^ 31 else 0) + ·) (if_neg hfinite)
  rw [toF32, hencode, hcode]

/-- The significand of a nonzero number of 24 bits, moved up to the leading one's place in FP32. -/
theorem significand_bounds {m : Nat} (hzero : m ≠ 0) (hm : m < 2 ^ 24) :
    2 ^ 23 ≤ m * 2 ^ (23 - Nat.log2 m) ∧ m * 2 ^ (23 - Nat.log2 m) < 2 ^ 24 := by
  have hlog : Nat.log2 m < 24 := (Nat.log2_lt hzero).mpr hm
  constructor
  · calc 2 ^ 23 = 2 ^ Nat.log2 m * 2 ^ (23 - Nat.log2 m) := by rw [← pow_add]; congr 1; omega
      _ ≤ m * 2 ^ (23 - Nat.log2 m) := Nat.mul_le_mul_right _ (Nat.log2_self_le hzero)
  · calc m * 2 ^ (23 - Nat.log2 m) < 2 ^ (Nat.log2 m + 1) * 2 ^ (23 - Nat.log2 m) :=
          Nat.mul_lt_mul_of_pos_right Nat.lt_log2_self (by positivity)
      _ = 2 ^ 24 := by rw [← pow_add]; congr 1; omega

/-- R116: the FP32 word of a zero. -/
theorem toF32_zero (neg : Bool) (e : Int) : toF32 (.fin neg 0 e) = if neg then 0x80000000 else 0 := by
  cases neg <;> rfl

/-- R106, R116: a number of 24 significant bits in the range of FP32 converts to FP32 exactly. -/
theorem valOf_toF32_exact (neg : Bool) {m : Nat} {e : Int} (hm : m < 2 ^ 24) (he : -149 ≤ e) (hmax : expoOf m e ≤ 127) :
    ∃ k g, valOf (toF32 (.fin neg m e)) = .fin neg k g ∧ (k : ℚ) * 2 ^ g = m * 2 ^ e := by
  by_cases hzero : m = 0
  · subst hzero
    have hval : valOf (if neg then 0x80000000 else 0) = .fin neg 0 (-149) := by cases neg <;> rfl
    exact ⟨0, -149, by rw [toF32_zero, hval], by simp⟩
  · obtain ⟨q, hq⟩ : ∃ q, q = max (expoOf m e - 23) (-149) := ⟨_, rfl⟩
    rw [expoOf] at hmax
    have hlog : Nat.log2 m < 24 := (Nat.log2_lt hzero).mpr hm
    have hunit : -149 ≤ q ∧ q ≤ 104 ∧ q ≤ e ∧ (e - q).toNat ≤ 23 - Nat.log2 m ∧ (q = -149 ∨ (e - q).toNat = 23 - Nat.log2 m) := by
      rw [expoOf] at hq
      omega
    obtain ⟨hq149, hq104, hqe, hle, hnormal⟩ := hunit
    obtain ⟨hlow, hhigh⟩ := significand_bounds hzero hm
    have hlt : m * 2 ^ (e - q).toNat < 2 ^ 24 :=
      (Nat.mul_le_mul_left m (Nat.pow_le_pow_right two_pos hle)).trans_lt hhigh
    have hnorm : q = -149 ∨ 2 ^ 23 ≤ m * 2 ^ (e - q).toNat := hnormal.imp_right fun h => by rwa [h]
    refine ⟨m * 2 ^ (e - q).toNat, q, ?_, ?_⟩
    · rw [toF32_of_units neg hzero hq hqe (by omega), valOf_of_units neg hlt hq149 hq104 hnorm]
    · calc ((m * 2 ^ (e - q).toNat : ℕ) : ℚ) * 2 ^ q = m * (2 ^ (e - q) * 2 ^ q) := by
            rw [Nat.cast_mul, Nat.cast_pow, Nat.cast_ofNat, ← zpow_natCast, Int.toNat_of_nonneg (sub_nonneg.mpr hqe), mul_assoc]
        _ = m * 2 ^ e := by rw [← zpow_add₀ two_ne_zero, sub_add_cancel]

/-! The number of a finite value -/

/-- The number (-1)^neg * m * 2^e that `Val.fin neg m e` stands for. -/
def finNumber (neg : Bool) (m : Nat) (e : Int) : ℚ := (if neg then -1 else 1) * m * 2 ^ e

/-- The number of a finite value as a fraction of the integers that exp2 computes with. -/
theorem finNumber_eq_div (neg : Bool) (m : Nat) (e : Int) : finNumber neg m e =
    ((if neg then -(m : Int) else m) * 2 ^ e.toNat : Int) / (2 ^ (-e).toNat : Nat) := by
  have hexp : (2 : ℚ) ^ e = 2 ^ e.toNat / 2 ^ (-e).toNat := by
    rw [← zpow_natCast, ← zpow_natCast, ← zpow_sub₀ two_ne_zero, Int.toNat_sub_toNat_neg]
  rw [finNumber, hexp]
  cases neg <;> simp <;> ring

/-- The number of a finite value with the sign clear. -/
theorem finNumber_false (m : Nat) (e : Int) : finNumber false m e = m * 2 ^ e := by simp [finNumber]

/-- The number of a finite value with the sign set. -/
theorem finNumber_true (m : Nat) (e : Int) : finNumber true m e = -(m * 2 ^ e) := by simp [finNumber]

/-- A finite value is 0 exactly when its significand is. -/
theorem finNumber_eq_zero {neg : Bool} {m : Nat} {e : Int} : finNumber neg m e = 0 ↔ m = 0 := by
  cases neg <;> simp [finNumber_false, finNumber_true, zpow_ne_zero]

/-- The number of an integer as a finite value is the integer. -/
theorem finNumber_ofInt (n : Int) : finNumber (decide (n < 0)) n.natAbs 0 = n := by
  rw [finNumber, zpow_zero, mul_one, Nat.cast_natAbs]
  by_cases hneg : n < 0
  · rw [if_pos (decide_eq_true hneg), abs_of_neg hneg]
    simp
  · rw [if_neg (by simpa using hneg), abs_of_nonneg (not_lt.mp hneg), one_mul]

/-- A positive number has the sign clear. -/
theorem sign_of_pos {neg : Bool} {m : Nat} {e : Int} (h : 0 < finNumber neg m e) : neg = false := by
  cases neg
  · rfl
  · rw [finNumber_true, neg_pos] at h
    exact absurd h (by positivity : (0 : ℚ) ≤ m * 2 ^ e).not_gt

/-- A negative number has the sign set. -/
theorem sign_of_neg {neg : Bool} {m : Nat} {e : Int} (h : finNumber neg m e < 0) : neg = true := by
  cases neg
  · rw [finNumber_false] at h
    exact absurd h (by positivity : (0 : ℚ) ≤ m * 2 ^ e).not_gt
  · rfl

/-! exp2 (R120, R122) -/

/-- R122: the index and the remainder that exp2 takes from the fraction c / d are those of the number. -/
theorem exp2_index_eq (c d : Nat) : ⌊256 * ((c : ℚ) / d)⌋.toNat = 256 * c / d ∧
    ⌊2 ^ 32 * Int.fract (256 * ((c : ℚ) / d))⌋.toNat = 256 * c % d * 2 ^ 32 / d := by
  have hscaled : 256 * ((c : ℚ) / d) = ((256 * c : ℕ) : ℚ) / d := by push_cast; ring
  have hrest : 2 ^ 32 * (((256 * c % d : ℕ) : ℚ) / d) = ((256 * c % d * 2 ^ 32 : ℕ) : ℚ) / d := by push_cast; ring
  rw [hscaled, Int.fract_div_natCast_eq_div_natCast_mod, hrest, Int.floor_toNat, Int.floor_toNat, Nat.floor_div_eq_div,
    Nat.floor_div_eq_div]
  exact ⟨rfl, rfl⟩

/-- R120, R122: exp2 of a finite value by its number. -/
theorem f32Exp2_of_fin {x : W32} {neg : Bool} {m : Nat} {e : Int} (h : valOf x = .fin neg m e) {q : ℚ} (hq : finNumber neg m e = q) :
    f32Exp2 x = if 128 ≤ q then f32PosInf else if q < -150 then f32Zero
      else if Int.fract q = 0 ∧ -149 ≤ ⌊q⌋ then toF32 (.fin false 1 ⌊q⌋)
      else toF32 (.fin false (exp2Poly ⌊256 * Int.fract q⌋.toNat ⌊2 ^ 32 * Int.fract (256 * Int.fract q)⌋.toNat) (⌊q⌋ - 31)) := by
  obtain ⟨d, hd⟩ : ∃ d : Nat, d = 2 ^ (-e).toNat := ⟨_, rfl⟩
  obtain ⟨i, hi⟩ : ∃ i : Int, i = (if neg then -(m : Int) else m) * 2 ^ e.toNat := ⟨_, rfl⟩
  have hpos : 0 < d := hd ▸ Nat.two_pow_pos _
  have hdq : (0 : ℚ) < d := Nat.cast_pos.mpr hpos
  have hdiv : q = (i : ℚ) / d := by rw [← hq, finNumber_eq_div, hi, hd]
  obtain ⟨c, hc⟩ : ∃ c : Nat, i % d = c := ⟨(i % d).toNat, (Int.toNat_of_nonneg (Int.emod_nonneg _ (by omega))).symm⟩
  have hfloor : ⌊q⌋ = i / d := hdiv ▸ Rat.floor_intCast_div_natCast i d
  have hfract : Int.fract q = (c : ℚ) / d := by rw [hdiv, Int.fract_div_intCast_eq_div_intCast_mod, hc, Int.cast_natCast]
  have hbig : 128 ≤ q ↔ 128 * (d : Int) ≤ i := by rw [hdiv, le_div_iff₀ hdq]; exact_mod_cast Iff.rfl
  have hsmall : q < -150 ↔ i < -150 * (d : Int) := by rw [hdiv, div_lt_iff₀ hdq]; exact_mod_cast Iff.rfl
  have hwhole : (c : ℚ) / d = 0 ↔ c = 0 := by rw [div_eq_zero_iff, or_iff_left hdq.ne', Nat.cast_eq_zero]
  obtain ⟨hindex, hrest⟩ := exp2_index_eq c d
  rw [f32Exp2, h]
  simp only [← hd, ← hi, hc, Int.toNat_natCast, hbig, hsmall, hwhole, hfloor, hfract, hindex, hrest]

/-- R120: exp2 of an integer from -149 to 127 is the power of two. -/
theorem f32Exp2_of_int {x : W32} {neg : Bool} {m : Nat} {e n : Int} (h : valOf x = .fin neg m e) (hq : finNumber neg m e = n)
    (hlow : -149 ≤ n) (hhigh : n ≤ 127) : f32Exp2 x = toF32 (.fin false 1 n) := by
  have hbig : ¬ (128 : ℚ) ≤ n := by exact_mod_cast (by omega : ¬ 128 ≤ n)
  have hsmall : ¬ (n : ℚ) < -150 := by exact_mod_cast (by omega : ¬ n < -150)
  rw [f32Exp2_of_fin h hq, if_neg hbig, if_neg hsmall, Int.fract_intCast, Int.floor_intCast, if_pos ⟨rfl, hlow⟩]

/-- R122: exp2 of a number that is no integer from -149 on. -/
theorem f32Exp2_of_not_int {x : W32} {neg : Bool} {m : Nat} {e : Int} (h : valOf x = .fin neg m e) {q : ℚ} (hq : finNumber neg m e = q)
    (hlow : -150 ≤ q) (hhigh : q < 128) (hint : ∀ n : ℤ, -149 ≤ n → q ≠ n) :
    f32Exp2 x = toF32 (.fin false (exp2Poly ⌊256 * Int.fract q⌋.toNat ⌊2 ^ 32 * Int.fract (256 * Int.fract q)⌋.toNat) (⌊q⌋ - 31)) := by
  have hwhole : ¬ (Int.fract q = 0 ∧ -149 ≤ ⌊q⌋) := fun ⟨hfract, hfloor⟩ =>
    hint ⌊q⌋ hfloor (by rw [← Int.self_sub_floor, sub_eq_zero] at hfract; exact hfract)
  rw [f32Exp2_of_fin h hq, if_neg hhigh.not_ge, if_neg hlow.not_gt, if_neg hwhole]

/-! log2 (R125, R126) -/

/-- Of two forms of one number, a normal significand has no greater exponent than one of 24 bits. -/
theorem exponent_le_of_normal {a b : Nat} {u v : Int} (ha : a < 2 ^ 24) (hb : 2 ^ 23 ≤ b) (h : (a : ℚ) * 2 ^ u = b * 2 ^ v) : v ≤ u := by
  have hlt : (2 : ℚ) ^ (23 + v) < 2 ^ (24 + u) :=
    calc (2 : ℚ) ^ (23 + v) = 2 ^ 23 * 2 ^ v := zpow_add₀ two_ne_zero 23 v
      _ ≤ b * 2 ^ v := mul_le_mul_of_nonneg_right (mod_cast hb) (by positivity)
      _ = a * 2 ^ u := h.symm
      _ < 2 ^ 24 * 2 ^ u := mul_lt_mul_of_pos_right (mod_cast ha) (by positivity)
      _ = 2 ^ (24 + u) := (zpow_add₀ two_ne_zero 24 u).symm
  have := (zpow_lt_zpow_iff_right₀ one_lt_two).mp hlt
  omega

/-- A positive number of 24 significant bits has one exponent and one normal significand. -/
theorem significand_unique {m r : Nat} {e n : Int} (hm : m < 2 ^ 24) (hr : r < 2 ^ 23) (h : (m : ℚ) * 2 ^ e = (1 + r / 2 ^ 23) * 2 ^ n) :
    m ≠ 0 ∧ expoOf m e = n ∧ m * 2 ^ (23 - Nat.log2 m) = 2 ^ 23 + r := by
  have hpos : (0 : ℚ) < (1 + r / 2 ^ 23) * 2 ^ n := by positivity
  have hzero : m ≠ 0 := by
    rintro rfl
    rw [← h, Nat.cast_zero, zero_mul] at hpos
    exact lt_irrefl _ hpos
  obtain ⟨hlow, hhigh⟩ := significand_bounds hzero hm
  have hlog : Nat.log2 m < 24 := (Nat.log2_lt hzero).mpr hm
  have hleft : ((m * 2 ^ (23 - Nat.log2 m) : ℕ) : ℚ) * 2 ^ (expoOf m e - 23) = m * 2 ^ e := by
    rw [Nat.cast_mul, Nat.cast_pow, Nat.cast_ofNat, ← zpow_natCast, mul_assoc, ← zpow_add₀ two_ne_zero, expoOf,
      show ((23 - Nat.log2 m : ℕ) : Int) + ((Nat.log2 m : Int) + e - 23) = e by omega]
  have hright : ((2 ^ 23 + r : ℕ) : ℚ) * 2 ^ (n - 23) = (1 + r / 2 ^ 23) * 2 ^ n := by
    rw [zpow_sub₀ two_ne_zero]
    push_cast
    norm_num
    ring
  have hsame : ((m * 2 ^ (23 - Nat.log2 m) : ℕ) : ℚ) * 2 ^ (expoOf m e - 23) = (2 ^ 23 + r : ℕ) * 2 ^ (n - 23) := by
    rw [hleft, hright, h]
  have hexpo : expoOf m e - 23 = n - 23 :=
    le_antisymm (exponent_le_of_normal (by omega) hlow hsame.symm) (exponent_le_of_normal hhigh (by omega) hsame)
  rw [hexpo] at hsame
  exact ⟨hzero, by omega, Nat.cast_injective (mul_right_cancel₀ (by positivity) hsame)⟩

/-- R125: log2 of a zero of either sign. -/
theorem f32Log2_of_zero {x : W32} {neg : Bool} {m : Nat} {e : Int} (h : valOf x = .fin neg m e) (hq : finNumber neg m e = 0) :
    f32Log2 x = f32NegInf := by
  rw [f32Log2, h]
  exact if_pos (finNumber_eq_zero.mp hq)

/-- R125: log2 of a negative number. -/
theorem f32Log2_of_neg {x : W32} {neg : Bool} {m : Nat} {e : Int} (h : valOf x = .fin neg m e) (hq : finNumber neg m e < 0) :
    f32Log2 x = f32Nan := by
  have hzero : m ≠ 0 := fun hm => hq.ne (finNumber_eq_zero.mpr hm)
  rw [f32Log2, h]
  exact (if_neg hzero).trans (if_pos (sign_of_neg hq))

/-- R125, R126: log2 of the positive number with the exponent n and the fraction bits r. -/
theorem f32Log2_of_pos {x : W32} {neg : Bool} {m r : Nat} {e n : Int} (h : valOf x = .fin neg m e) (hr : r < 2 ^ 23)
    (hq : finNumber neg m e = (1 + r / 2 ^ 23) * 2 ^ n) : f32Log2 x = if r = 0 then toF32 (Val.ofInt n) else
      toF32 (.fin (decide (n * 2 ^ 32 + (log2Frac (r / 2 ^ 15) (r % 2 ^ 15 * 2 ^ 17) : Nat) < 0))
        (n * 2 ^ 32 + (log2Frac (r / 2 ^ 15) (r % 2 ^ 15 * 2 ^ 17) : Nat) : Int).natAbs (-32)) := by
  have hpos : (0 : ℚ) < (1 + r / 2 ^ 23) * 2 ^ n := by positivity
  obtain rfl : neg = false := sign_of_pos (hq ▸ hpos)
  rw [finNumber_false] at hq
  obtain ⟨hzero, hexpo, hsig⟩ := significand_unique (lt_of_valOf_eq_fin h) hr hq
  have hfrac : m * 2 ^ (23 - Nat.log2 m) % 2 ^ 23 = r := by omega
  simp only [f32Log2, h, if_neg hzero, hexpo, hfrac, Bool.false_eq_true, if_false]

/-- R125: log2 of a power of two is its exponent, exactly. -/
theorem f32Log2_of_two_zpow {x : W32} {neg : Bool} {m : Nat} {e n : Int} (h : valOf x = .fin neg m e) (hq : finNumber neg m e = 2 ^ n)
    (hlow : -149 ≤ n) (hhigh : n ≤ 127) :
    ∃ b k g, valOf (f32Log2 x) = .fin b k g ∧ ((if b then -1 else 1) * k * 2 ^ g : ℚ) = n := by
  have hlog : f32Log2 x = toF32 (Val.ofInt n) := by
    rw [f32Log2_of_pos (r := 0) (n := n) h (by norm_num) (by rw [hq]; simp), if_pos rfl]
  have hexpo : expoOf n.natAbs 0 ≤ 127 := by
    by_cases hzero : n.natAbs = 0
    · rw [hzero]
      decide
    · have : Nat.log2 n.natAbs < 8 := (Nat.log2_lt hzero).mpr (by omega)
      rw [expoOf]
      omega
  obtain ⟨k, g, hval, hnum⟩ := valOf_toF32_exact (decide (n < 0)) (m := n.natAbs) (e := 0) (by omega) (by norm_num) hexpo
  refine ⟨_, k, g, hlog ▸ hval, ?_⟩
  rw [mul_assoc, hnum, ← mul_assoc]
  exact finNumber_ofInt n

/-- Settles O54: the special inputs by the arm of the value, the finite ones by where the number lies. -/
theorem specialFunctionTables : Obligations.SpecialFunctionTables := by
  intro x
  refine ⟨fun h => ?_, fun neg h => ?_, fun neg m e h => ⟨fun hq => ?_, fun hq => ?_, fun n hlow hhigh hq => ?_,
    f32Exp2_of_not_int h rfl, f32Log2_of_zero h, f32Log2_of_neg h, fun n hlow hhigh hq => f32Log2_of_two_zpow h hq hlow hhigh,
    fun n r hpos hr hq => ?_⟩⟩
  · rw [f32Exp2, f32Log2, h]
    exact ⟨rfl, rfl⟩
  · rw [f32Exp2, f32Log2, h]
    cases neg <;> exact ⟨rfl, rfl⟩
  · rw [f32Exp2_of_fin h rfl]
    exact if_pos hq
  · rw [f32Exp2_of_fin h rfl]
    exact (if_neg (not_le.mpr (lt_trans hq (by norm_num)))).trans (if_pos hq)
  · obtain ⟨k, g, hval, hnum⟩ := valOf_toF32_exact false (m := 1) (e := n) (by norm_num) hlow ((Int.zero_add n).trans_le hhigh)
    exact ⟨k, g, by rw [f32Exp2_of_int h hq hlow hhigh, hval], by rw [hnum]; simp⟩
  · exact (f32Log2_of_pos h hr hq).trans (if_neg hpos.ne')

end Sys2Proof.Machine
end

section
/-! SUPPORT. Requests for a module state: what the operations behind them leave of the module's state, its slot and the root PLL lock, what
the start of a bring-up sets, and each request by the pair of states (R444, R447, R448, R496, R497, R498, R501). -/

namespace Sys2Proof.Machine

/-! What the operations of a bring-up and of the main domain leave -/

/-- Where the module stands: its state, the bring-ups counted, its slot and the lock of the root PLL. -/
structure Standing where
  state : ModState
  bringups : W32
  plug : PlugState
  rootLock : Bool

/-- Where the module stands in a state of the machine. -/
def State.standing (s : State) : Standing := ⟨s.modu.state, s.modu.bringupCount, s.plug, s.clock.rootLock⟩

/-- What changes the log, the warden, the host interface and what is sent out alone leaves the module where it stands. -/
theorem State.standing_of_core0 {s t : State} (h : t.core0 = s.core0) : t.standing = s.standing :=
  (congrArg State.standing h :)

theorem State.report_standing (s : State) (r : Report) : (s.report r).standing = s.standing :=
  State.standing_of_core0 (State.report_core0 s r)

theorem State.setModState_standing (s : State) (m : ModState) : (s.setModState m).standing = { s.standing with state := m } :=
  (congrArg State.standing (State.setModState_core0 s m) :)

/-- The module is in the state it was set to. -/
theorem State.state_setModState (s : State) (m : ModState) : (s.setModState m).modu.state = m := by
  rw [State.setModState_state]

theorem State.dropToken_standing (s : State) (n : CoreNo) : (s.dropToken n).standing = s.standing := by
  obtain ⟨m, h⟩ := State.dropToken_spec s n
  rw [h]
  rfl

/-- A cut notes the core in the cut map (R366), of the module's state nothing else. -/
theorem State.cutCore_standing (s : State) (n : CoreNo) : (s.cutCore n).standing = s.standing :=
  (State.report_standing _ _).trans (State.dropToken_standing (s.detachCore n) n)

theorem State.atBoundary_standing (s : State) (n : CoreNo) : (s.atBoundary n).standing = s.standing := by
  unfold State.atBoundary
  split
  · exact State.cutCore_standing s n
  · rfl

theorem State.softResetCore_standing (s : State) (n : CoreNo) : (s.softResetCore n).standing = s.standing := by
  unfold State.softResetCore
  dsimp only
  split
  · rfl
  · exact State.dropToken_standing s n

theorem State.forceReset_standing (s : State) (n : CoreNo) : (s.forceReset n).standing = s.standing := by
  unfold State.forceReset
  dsimp only
  split
  · rfl
  · exact (State.atBoundary_standing _ n).trans (State.softResetCore_standing s n)

theorem State.resetCores_standing (s : State) (ns : List CoreNo) : (s.resetCores ns).standing = s.standing :=
  foldl_keeps State.standing State.forceReset State.forceReset_standing ns s

theorem State.bindCores_standing (s : State) (ns : List CoreNo) (p : Option PartNo) : (s.bindCores ns p).standing = s.standing := by
  refine foldl_keeps State.standing _ (fun t n => ?_) ns s
  rfl

theorem State.disableVf_standing (s : State) (p : PartNo) : (s.disableVf p).standing = s.standing := by
  unfold State.disableVf
  split <;> rfl

/-- R496: the automatic changes are those between READY and ACTIVE. -/
theorem State.autoState_of_ne {s : State} (hr : s.modu.state ≠ .ready) (ha : s.modu.state ≠ .active) : s.autoState = s := by
  simp [State.autoState, hr, ha]

/-- R496: a READY module is ACTIVE where a partition is RUNNING. -/
theorem State.autoState_of_ready {s : State} (h : s.modu.state = .ready) :
    s.autoState = if allParts.any (fun p => decide ((s.part p).mode = .running)) then s.setModState .active else s := by
  simp [State.autoState, h]

theorem State.setPartMode_standing {s : State} (hr : s.modu.state ≠ .ready) (ha : s.modu.state ≠ .active) (p : PartNo) (m : PartMode) :
    (s.setPartMode p m).standing = s.standing := by
  unfold State.setPartMode
  split
  · rfl
  · have hevent := State.standing_of_core0 (State.partitionEvent_core0 (s.modPart p (fun x => { x with mode := m })) p)
    have hstate := congrArg Standing.state hevent
    rw [State.autoState_of_ne (hstate.trans_ne hr) (hstate.trans_ne ha)]
    exact hevent

/-- R365: outside READY and ACTIVE the end of a partition leaves the module where it stands. -/
theorem State.dissolve_standing {s : State} (hr : s.modu.state ≠ .ready) (ha : s.modu.state ≠ .active) (p : PartNo) :
    (s.dissolve p).standing = s.standing := by
  unfold State.dissolve
  extract_lets ns s1 s2 s3
  have hclear : s1.standing = s.standing :=
    (State.disableVf_standing _ p).trans ((State.bindCores_standing _ ns none).trans (State.resetCores_standing s ns))
  have hstate := congrArg Standing.state hclear
  have hmode : s2.standing = s1.standing :=
    State.setPartMode_standing (s := s1.modPart p _) (hstate.trans_ne hr) (hstate.trans_ne ha) p .unformed
  -- With its value kept, the unifier would unfold the whole dissolution to compare the two states.
  clear_value s2
  exact hmode.trans hclear

/-- R501: outside READY and ACTIVE the main domain goes off and the module keeps its state; with the domain goes the root PLL. -/
theorem State.mainOff_standing {s : State} (hr : s.modu.state ≠ .ready) (ha : s.modu.state ≠ .active) :
    s.mainOff.standing = { s.standing with plug := { s.plug with mainOn := false }, rootLock := false } := by
  unfold State.mainOff
  extract_lets s0 s1
  have hparts : s0.standing = s.standing := by
    refine List.foldlRecOn (motive := fun (t : State) => t.standing = s.standing) _ _ rfl (fun t ht p _ => ?_)
    have hstate := congrArg Standing.state ht
    split
    · exact ht
    · exact (State.dissolve_standing (hstate.trans_ne hr) (hstate.trans_ne ha) p).trans ht
  clear_value s0
  exact congrArg (fun x : Standing => { x with plug := { x.plug with mainOn := false }, rootLock := false }) hparts

theorem State.setFrame_standing (s : State) (f : Nat) (e : FrameEnt) : (s.setFrame f e).standing = s.standing := by
  unfold State.setFrame
  dsimp only
  split <;> rfl

theorem State.retireListed_standing (s : State) : s.retireListed.standing = s.standing :=
  foldl_keeps State.standing _ (fun t f => State.setFrame_standing t f _) _ s

theorem State.chooseRoot_standing (s : State) : s.chooseRoot.standing = s.standing := by
  unfold State.chooseRoot
  extract_lets own hs best t s1 cand
  split
  · show Standing.mk _ _ _ (ClockState.rootLock (if _ then _ else _)) = _
    split <;> rfl
  · split
    · rfl
    · extract_lets
      split <;> rfl

/-! Bring-up (R497, R498) -/

/-- R498: a bring-up begins in BRINGUP, counted, with the main domain on and the root PLL locked. -/
theorem State.startBringup_standing (s : State) : s.startBringup.standing =
    ⟨.bringup, s.modu.bringupCount + 1, { s.plug with mainOn := true, waitingBringup := false, ledBlue := false }, true⟩ := by
  unfold State.startBringup
  extract_lets s1 enc s2 s3 s4 addr size s5
  have hset : s1.standing = { s.standing with state := .bringup } := State.setModState_standing s .bringup
  have hup := congrArg (fun x : Standing => { x with
    bringups := x.bringups + 1, plug := { x.plug with mainOn := true, waitingBringup := false, ledBlue := false }, rootLock := true }) hset
  rw [State.chooseRoot_standing]
  exact (State.retireListed_standing s5).trans hup

/-- R497: the main domain is off before a bring-up from SAFE_REMOVE or FAULTED; the module keeps its state until then. -/
theorem State.cycleMain_standing {s : State} (hr : s.modu.state ≠ .ready) (ha : s.modu.state ≠ .active) : ∃ lock,
    s.cycleMain.standing = { s.standing with plug := { s.plug with mainOn := false }, rootLock := lock } := by
  unfold State.cycleMain
  extract_lets s1
  show ∃ lock, State.standing (if s.plug.mainOn = true then s.mainOff else s) = _
  split
  · exact ⟨false, State.mainOff_standing hr ha⟩
  · next hoff =>
    have hplug : s.plug = { s.plug with mainOn := false } := by rw [← Bool.eq_false_iff.mpr hoff]
    exact ⟨s.clock.rootLock, congrArg (fun x => Standing.mk _ _ x _) hplug⟩

/-- R512: with PRSNT# closed a bring-up that is requested begins. -/
theorem State.requestBringup_of_presence {s : State} (h : s.plug.presence = true) : s.requestBringup = s.startBringup :=
  if_pos h

/-- R512: with PRSNT# open it waits. -/
theorem State.requestBringup_of_open {s : State} (h : s.plug.presence = false) :
    s.requestBringup = { s with plug := { s.plug with waitingBringup := true } } :=
  if_neg (by simp [h])

/-! Requests for BRINGUP (R482, R497) -/

theorem State.askBringup_refused {s : State} (hstandby : s.modu.state ≠ .standby) (hsafe : s.modu.state ≠ .safeRemove)
    (hfaulted : s.modu.state ≠ .faulted) : s.askBringup = (s, wmpState) := by
  unfold State.askBringup
  split
  · next h => exact absurd h hstandby
  · next h => exact absurd h hsafe
  · next h => exact absurd h hfaulted
  · rfl

theorem State.askBringup_of_end {s : State} (h : s.sec.lifecycle = 3) : s.askBringup = (s, wmpState) := by
  unfold State.askBringup
  split
  · exact if_pos h
  · exact if_pos h
  · exact if_pos h
  · rfl

theorem State.askBringup_of_standby {s : State} (h : s.modu.state = .standby) (hlife : s.sec.lifecycle ≠ 3) :
    s.askBringup = (s.requestBringup, wmpOk) := by
  unfold State.askBringup
  rw [h]
  exact if_neg hlife

theorem State.askBringup_of_cycle {s : State} (h : s.modu.state = .safeRemove ∨ s.modu.state = .faulted) (hlife : s.sec.lifecycle ≠ 3) :
    s.askBringup = (s.cycleMain.requestBringup, wmpOk) := by
  unfold State.askBringup
  obtain h | h := h
  · rw [h]
    exact if_neg hlife
  · rw [h]
    exact if_neg hlife

/-- A request that is accepted with PRSNT# closed starts a bring-up, from SAFE_REMOVE and FAULTED once the main domain is off. -/
theorem State.askBringup_of_presence {s : State} (h : s.modu.state = .standby ∨ s.modu.state = .safeRemove ∨ s.modu.state = .faulted)
    (hlife : s.sec.lifecycle ≠ 3) (hpresence : s.plug.presence = true) :
    ∃ t : State, s.askBringup = (t.startBringup, wmpOk) ∧ t.modu.bringupCount = s.modu.bringupCount := by
  obtain hstandby | hcycle := h
  · exact ⟨s, by rw [State.askBringup_of_standby hstandby hlife, State.requestBringup_of_presence hpresence], rfl⟩
  · have hrest : s.modu.state ≠ .ready ∧ s.modu.state ≠ .active := by obtain h | h := hcycle <;> simp [h]
    obtain ⟨hr, ha⟩ := hrest
    obtain ⟨lock, hstand⟩ := State.cycleMain_standing hr ha
    have hclosed : s.cycleMain.plug.presence = true := (congrArg (fun x => x.plug.presence) hstand).trans hpresence
    exact ⟨s.cycleMain, by rw [State.askBringup_of_cycle hcycle hlife, State.requestBringup_of_presence hclosed],
      congrArg Standing.bringups hstand⟩

/-! Requests for STANDBY, QUIESCING and READY (R447, R497, R501) -/

theorem State.askStandby_refused {s : State} (hready : s.modu.state ≠ .ready) (hsafe : s.modu.state ≠ .safeRemove)
    (hfaulted : s.modu.state ≠ .faulted) : s.askStandby = (s, wmpState) := by
  unfold State.askStandby
  split
  · next h => exact absurd h hready
  · next h => exact absurd h hsafe
  · next h => exact absurd h hfaulted
  · rfl

/-- R501: from READY the module goes through module standby, which ends with the main domain off. -/
theorem State.askStandby_of_ready {s : State} (h : s.modu.state = .ready) :
    ∃ t : State, s.askStandby = (t, wmpOk) ∧ t.modu.state = .standby ∧ t.plug.mainOn = false := by
  refine ⟨s.enterStandby, by simp [State.askStandby, h], ?_⟩
  unfold State.enterStandby
  extract_lets s1 s2
  exact ⟨State.state_setModState _ _, by rw [State.setModState_plug]; rfl⟩

/-- From SAFE_REMOVE, where the main domain is off already, the state alone is set; the blue indicator goes off. -/
theorem State.askStandby_of_safeRemove {s : State} (h : s.modu.state = .safeRemove) :
    ∃ t : State, s.askStandby = (t, wmpOk) ∧ t.modu.state = .standby ∧ t.plug = { s.plug with ledBlue := false } ∧ t.mem = s.mem :=
  ⟨(s.modPlug (fun p => { p with ledBlue := false })).setModState .standby, by simp [State.askStandby, h], State.state_setModState _ _,
    State.setModState_plug _ _, State.setModState_mem _ _⟩

/-- From FAULTED the main domain goes off, where it was on. -/
theorem State.askStandby_of_faulted {s : State} (h : s.modu.state = .faulted) :
    ∃ t : State, s.askStandby = (t, wmpOk) ∧ t.modu.state = .standby ∧ t.plug.mainOn = false := by
  refine ⟨s.cycleMain.setModState .standby, by simp [State.askStandby, h], State.state_setModState _ _, ?_⟩
  obtain ⟨lock, hstand⟩ := State.cycleMain_standing (s := s) (by simp [h]) (by simp [h])
  rw [State.setModState_plug]
  exact congrArg (fun x => x.plug.mainOn) hstand

/-- R447: a quiesce begins, and the press that asked for it is over. -/
theorem State.askQuiesce_of_ready_or_active {s : State} (h : s.modu.state = .ready ∨ s.modu.state = .active) :
    ∃ t : State, s.askQuiesce = (t, wmpOk) ∧ t.modu = { s.modu with state := .quiescing, quiesce := .quiesce } ∧
      t.plug = { s.plug with buttonPending := false, ledBlink := false, ledPower := s.plug.pwrInd } ∧ t.mem = s.mem :=
  ⟨s.startQuiesce, if_pos h, State.setModState_state _ _, State.setModState_plug _ _, State.setModState_mem _ _⟩

/-- R496, R497: a quiesce that is cancelled leaves the module READY, which is ACTIVE at once where a partition is RUNNING. -/
theorem State.askReady_of_quiesce {s : State} (h : s.modu.state = .quiescing) (hq : s.modu.quiesce = .quiesce) :
    ∃ t : State, s.askReady = (t, wmpOk) ∧ t.modu = { s.modu with
      state := if allParts.any (fun p => decide ((s.part p).mode = .running)) then .active else .ready, quiesce := .none } := by
  let back := (s.modModu (fun u => { u with quiesce := .none })).setModState .ready
  have hback : back.modu = { s.modu with state := .ready, quiesce := .none } := State.setModState_state _ _
  have hparts : back.parts = s.parts := State.setModState_parts _ _
  have hpart : back.part = s.part := by
    funext p
    unfold State.part
    rw [hparts]
  refine ⟨back.autoState, if_pos ⟨h, hq⟩, ?_⟩
  rw [State.autoState_of_ready (by rw [hback]), hpart]
  split
  · rw [State.setModState_state, hback]
  · exact hback

/-! Removal and a critical temperature (R444, R448) -/

/-- R465: a module that is neither FAULTED nor OFF enters FAULTED. -/
theorem State.enterFaulted_state {s : State} (hfaulted : s.modu.state ≠ .faulted) (hoff : s.modu.state ≠ .off) (cause : Nat) :
    (s.enterFaulted cause).modu.state = .faulted := by
  unfold State.enterFaulted
  rw [if_neg (not_or.mpr ⟨hfaulted, hoff⟩)]
  extract_lets s1 s2 s3
  exact State.state_setModState _ _

theorem State.thermalNote_modu (s : State) (word : String) : (s.thermalNote word).modu = s.modu :=
  State.report_modu s _

/-- R444: a critical temperature takes the module to FAULTED, where it stays as the main domain goes off. -/
theorem State.criticalTemp_state {s : State} (hfaulted : s.modu.state ≠ .faulted) (hoff : s.modu.state ≠ .off) :
    s.criticalTemp.modu.state = .faulted := by
  unfold State.criticalTemp
  extract_lets s1 off
  have hstate : s1.modu.state = .faulted := State.enterFaulted_state (by rwa [State.modPower_modu, State.thermalNote_modu])
    (by rwa [State.modPower_modu, State.thermalNote_modu]) 0x0701
  have hmain : off.standing = _ := State.mainOff_standing (s := s1) (by simp [hstate]) (by simp [hstate])
  clear_value off s1
  exact (congrArg Standing.state hmain).trans hstate

/-- R444: readings at or above critical_temp are taken, and are critical. -/
theorem exec_temperatureReport_of_critical {s : State} {r : TempReport} (hon : s.plug.mainOn = true)
    (hhot : s.dictVal 0x2120 2 ≤ max (max r.cMax.toNat r.mMax.toNat) (max r.xMax.toNat r.hbmMax.toNat)) :
    ∃ t, exec (.temperatureReport r) s = .next (State.criticalTemp t) ∧ t.modu = s.modu := by
  show ∃ t, execTemperatureReport r s = _ ∧ _
  unfold execTemperatureReport
  extract_lets hot limit above below tooWarm s1 s2
  have hread : s2.modu = s.modu := by
    show State.modu (if _ then _ else _) = _
    split
    · exact State.thermalNote_modu s1 _
    · rfl
  have hgo : ¬ (!s.mainOn) = true := by simp [State.mainOn, hon]
  exact ⟨s2, by rw [if_neg hgo, if_pos hhot], hread⟩

/-- R448: removal with the main domain powered leaves the module OFF. -/
theorem exec_surpriseRemoval_of_on {s : State} (hon : s.plug.mainOn = true) (low : Bool) :
    ∃ t, exec (.surpriseRemoval low) s = .next t ∧ t.modu.state = .off :=
  ⟨_, congrArg Host.Outcome.next (if_pos (Or.inl hon)), rfl⟩

/-- A press of the attention button during BRINGUP is held. -/
theorem exec_attentionButton_of_bringup {s : State} (h : s.modu.state = .bringup) :
    exec .attentionButton s = .next (s.modPlug (fun p => { p with buttonHeld := true })) := by
  show execAttentionButton s = _
  unfold execAttentionButton
  rw [h]

/-- R419: a request leads to the state it asks for, and the outside learns its status. -/
theorem exec_of_ask {s t : State} {ask : State × Nat} {i : Instr} {status : Nat} (hexec : exec i s = .next (State.answer ask))
    (hask : ask = (t, status)) : exec i s = .next (t.emit (.status status)) :=
  hexec.trans (congrArg (fun a => Host.Outcome.next (State.answer a)) hask)

/-- Settles O29: each request by the pair of states, and the three events that R497 names beside the table. That a quiesce that is cancelled
leads to ACTIVE where a partition is RUNNING is R496's automatic change; that a bring-up waits for PRSNT# is R512. -/
theorem stateRequests : Obligations.StateRequests := by
  intro s
  have hbringup {t : State} {k : Nat} (h : s.askBringup = (t, k)) := exec_of_ask (i := .stateRequestBringup) rfl h
  have hstandby {t : State} {k : Nat} (h : s.askStandby = (t, k)) := exec_of_ask (i := .stateRequestStandby) rfl h
  have hquiesce {t : State} {k : Nat} (h : s.askQuiesce = (t, k)) := exec_of_ask (i := .stateRequestQuiescing) rfl h
  have hready {t : State} {k : Nat} (h : s.askReady = (t, k)) := exec_of_ask (i := .stateRequestReady) rfl h
  refine ⟨fun h1 h2 h3 => hbringup (State.askBringup_refused h1 h2 h3), fun h => hbringup (State.askBringup_of_end h),
    fun h hlife hopen => hbringup ?_, fun h hlife hclosed => ?_, fun h1 h2 h3 => hstandby (State.askStandby_refused h1 h2 h3),
    fun h => ?_, fun h => ?_, fun h => ?_, fun h1 h2 => hquiesce (if_neg (not_or.mpr ⟨h1, h2⟩)), fun h => ?_,
    fun h => hready (if_neg (not_and_or.mpr h)), fun h hq => ?_, exec_attentionButton_of_bringup,
    fun low hon => exec_surpriseRemoval_of_on hon low, fun r hon h hhot => ?_⟩
  · rw [State.askBringup_of_standby h hlife, State.requestBringup_of_open hopen]
    rfl
  · obtain ⟨t, hask, hcount⟩ := State.askBringup_of_presence h hlife hclosed
    have hstart := State.startBringup_standing t
    exact ⟨_, hbringup hask, congrArg Standing.state hstart, congrArg (fun x => x.plug.mainOn) hstart,
      (congrArg Standing.bringups hstart).trans (congrArg (· + 1) hcount), congrArg Standing.rootLock hstart⟩
  · obtain ⟨t, hask, hstate, hoff⟩ := State.askStandby_of_ready h
    exact ⟨_, hstandby hask, hstate, hoff⟩
  · obtain ⟨t, hask, hstate, hplug, hmem⟩ := State.askStandby_of_safeRemove h
    exact ⟨_, hstandby hask, hstate, congrArg PlugState.ledBlue hplug, hmem⟩
  · obtain ⟨t, hask, hstate, hoff⟩ := State.askStandby_of_faulted h
    exact ⟨_, hstandby hask, hstate, hoff⟩
  · obtain ⟨t, hask, hmodu, hplug, hmem⟩ := State.askQuiesce_of_ready_or_active h
    exact ⟨_, hquiesce hask, congrArg ModuleState.state hmodu, congrArg ModuleState.quiesce hmodu,
      congrArg PlugState.buttonPending hplug, hmem⟩
  · obtain ⟨t, hask, hmodu⟩ := State.askReady_of_quiesce h hq
    exact ⟨_, hready hask, congrArg ModuleState.quiesce hmodu, congrArg ModuleState.state hmodu⟩
  · obtain ⟨t, hexec, hmodu⟩ := exec_temperatureReport_of_critical hon hhot
    have hstate := (congrArg ModuleState.state hmodu).trans h
    exact ⟨_, hexec, State.criticalTemp_state (by simp [hstate]) (by simp [hstate])⟩

end Sys2Proof.Machine
end

section
/-! SUPPORT. The invariant through the shapes a definition is written in: what holds of every answer of an operation that may fail, of a branch,
and of a fold. The sections after this one carry the invariant through every operation of the model, file by file. -/

namespace Sys2Proof.Machine

/-- `P` holds of what an operation answers, when it answers. -/
inductive OkAll {ε α : Type} (P : α → Prop) : Except ε α → Prop
  | ok {a : α} (h : P a) : OkAll P (.ok a)
  | error {e : ε} : OkAll P (.error e)

/-- `P` holds of what is found, when something is. -/
inductive SomeAll {α : Type} (P : α → Prop) : Option α → Prop
  | some {a : α} (h : P a) : SomeAll P (.some a)
  | none : SomeAll P .none

/-- The state an outcome goes on with keeps the invariant. -/
inductive NextInv : Host.Outcome State Fault Refusal → Prop
  | next {t : State} (h : t.Inv) : NextInv (.next t)
  | fault {f : Fault} : NextInv (.fault f)
  | refused {r : Refusal} : NextInv (.refused r)

/-- The state a folio works in keeps the invariant. -/
def FX.Inv (x : FX) : Prop := x.s.Inv

theorem NextInv.ite {c : Prop} [Decidable c] {a b : Host.Outcome State Fault Refusal} (ha : NextInv a) (hb : NextInv b) :
    NextInv (if c then a else b) := by
  split
  · exact ha
  · exact hb

section
variable {ε α β : Type} {P : α → Prop} {Q : β → Prop}

theorem OkAll.pure {a : α} (h : P a) : OkAll P (pure a : Except ε α) := .ok h

theorem OkAll.ite {c : Prop} [Decidable c] {a b : Except ε α} (ha : OkAll P a) (hb : OkAll P b) : OkAll P (if c then a else b) := by
  split
  · exact ha
  · exact hb

theorem OkAll.of_eq {r : Except ε α} {a : α} (h : OkAll P r) (e : r = .ok a) : P a := by
  subst e
  cases h
  assumption

theorem OkAll.bind {x : Except ε α} {k : α → Except ε β} (h : OkAll P x) (hk : ∀ a, P a → OkAll Q (k a)) : OkAll Q (x >>= k) := by
  cases h with
  | error => exact .error
  | ok h => exact hk _ h

theorem OkAll.bind' {x : Except ε α} {k : α → Except ε β} (hk : ∀ a, OkAll Q (k a)) : OkAll Q (x >>= k) := by
  cases x with
  | error e => exact .error
  | ok a => exact hk a

theorem OkAll.foldlM {f : α → β → Except ε α} (hf : ∀ a b, P a → OkAll P (f a b)) (l : List β) :
    ∀ {a : α}, P a → OkAll P (l.foldlM f a) := by
  induction l with
  | nil => exact fun h => .ok h
  | cons b r ih => exact fun h => .bind (hf _ b h) (fun _ => ih)

theorem OkAll.map {f : α → β} {x : Except ε α} (h : OkAll P x) (hf : ∀ a, P a → Q (f a)) : OkAll Q (Except.map f x) := by
  cases h with
  | error => exact .error
  | ok h => exact .ok (hf _ h)

theorem OkAll.map' {f : α → β} {x : Except ε α} (hf : ∀ a, Q (f a)) : OkAll Q (Except.map f x) := by
  cases x with
  | error e => exact .error
  | ok a => exact .ok (hf a)

theorem SomeAll.pure {a : α} (h : P a) : SomeAll P (pure a : Option α) := .some h

theorem SomeAll.of_eq {r : Option α} {a : α} (h : SomeAll P r) (e : r = .some a) : P a := by
  subst e
  cases h
  assumption

theorem SomeAll.ite {c : Prop} [Decidable c] {a b : Option α} (ha : SomeAll P a) (hb : SomeAll P b) : SomeAll P (if c then a else b) := by
  split
  · exact ha
  · exact hb

theorem SomeAll.findSome? {f : β → Option α} (hf : ∀ b, SomeAll P (f b)) (l : List β) : SomeAll P (l.findSome? f) := by
  cases h : l.findSome? f with
  | none => exact .none
  | some a =>
    obtain ⟨b, -, e⟩ := List.exists_of_findSome?_eq_some h
    exact .some ((hf b).of_eq e)

theorem foldl_inv (P : α → Prop) {f : α → β → α} (hf : ∀ a b, P a → P (f a b)) (l : List β) : ∀ {a : α}, P a → P (l.foldl f a) := by
  induction l with
  | nil => exact fun h => h
  | cons b r ih => exact fun h => ih (hf _ b h)

end

section
variable {α : Type}

theorem of_fst {p : State × α} {t : State} {a : α} (e : p = (t, a)) (h : p.1.Inv) : t.Inv := by
  rw [e] at h
  exact h

theorem of_snd {p : α × State} {t : State} {a : α} (e : p = (a, t)) (h : p.2.Inv) : t.Inv := by
  rw [e] at h
  exact h

end

theorem State.Inv.ite {c : Prop} [Decidable c] {a b : State} (ha : a.Inv) (hb : b.Inv) : State.Inv (if c then a else b) := by
  split
  · exact ha
  · exact hb

theorem State.Inv.ite_fst {α : Type} {c : Prop} [Decidable c] {a b : State × α} (ha : a.1.Inv) (hb : b.1.Inv) :
    State.Inv (if c then a else b).1 := by
  split
  · exact ha
  · exact hb

theorem State.Inv.ite_snd {α : Type} {c : Prop} [Decidable c] {a b : α × State} (ha : a.2.Inv) (hb : b.2.Inv) :
    State.Inv (if c then a else b).2 := by
  split
  · exact ha
  · exact hb

theorem State.Inv.foldl {β : Type} {f : State → β → State} (hf : ∀ t x, t.Inv → (f t x).Inv) {l : List β} {s : State} (h : s.Inv) :
    (l.foldl f s).Inv :=
  foldl_inv State.Inv hf l h

theorem FX.Inv.ite {c : Prop} [Decidable c] {a b : FX} (ha : a.Inv) (hb : b.Inv) : FX.Inv (if c then a else b) := by
  split
  · exact ha
  · exact hb

theorem FX.Inv.mk {s : State} {f : Folio} {id : Option Nat} (h : s.Inv) : FX.Inv ⟨s, f, id⟩ := h

theorem FX.Inv.s {x : FX} (h : x.Inv) : x.s.Inv := h

theorem FX.Inv.foldl {β : Type} {f : FX → β → FX} (hf : ∀ t x, t.Inv → (f t x).Inv) {l : List β} {s : FX} (h : s.Inv) :
    FX.Inv (l.foldl f s) :=
  foldl_inv FX.Inv hf l h

end Sys2Proof.Machine
end

section
/-! SUPPORT. The operations of Sys2Proof/Machine/State.lean keep the invariant. -/

namespace Sys2Proof.Machine

theorem State.Inv.reset : State.reset.Inv := ⟨rfl, rfl⟩

end Sys2Proof.Machine
end

section
/-! SUPPORT. The operations of Sys2Proof/Machine/Ops.lean keep the invariant. -/

namespace Sys2Proof.Machine

theorem State.Inv.setCore {s : State} {n : CoreNo} {c : Core} (hs : s.Inv) : (s.setCore n c).Inv := hs

theorem State.Inv.modCore {s : State} {n : CoreNo} {f : Core → Core} (hs : s.Inv) : (s.modCore n f).Inv := .setCore hs

theorem State.Inv.setRub {s : State} {k : Fin 24} {r : Rubric} (hs : s.Inv) : (s.setRub k r).Inv := hs

theorem State.Inv.setPart {s : State} {p : PartNo} {x : Part} (hs : s.Inv) : (s.setPart p x).Inv := hs

theorem State.Inv.modPart {s : State} {p : PartNo} {f : Part → Part} (hs : s.Inv) : (s.modPart p f).Inv := .setPart hs

/-- A change of memory that leaves its bytes and its marks alone. -/
theorem State.Inv.modMem {s : State} {f : MemState → MemState} (hs : s.Inv)
    (hf : (f s.mem).cells = s.mem.cells ∧ (f s.mem).poison = s.mem.poison ∧ (f s.mem).latent = s.mem.latent := by exact ⟨rfl, rfl, rfl⟩) :
    (s.modMem f).Inv := by
  obtain ⟨hc, hp, hl⟩ := hf
  have h : Memory.wf (f s.mem) = Memory.wf s.mem := by
    unfold Memory.wf
    rw [hc, hp, hl]
  exact ⟨h.trans hs.1, hs.2⟩

theorem State.Inv.modHost {s : State} {f : HostState → HostState} (hs : s.Inv) : (s.modHost f).Inv := hs

theorem State.Inv.modPreg {s : State} {p : PartNo} {f : PartRegs → PartRegs} (hs : s.Inv) : (s.modPreg p f).Inv := hs

theorem State.Inv.modRuling {s : State} {p : PartNo} {f : Ruling → Ruling} (hs : s.Inv) : (s.modRuling p f).Inv := hs

theorem State.Inv.emit {s : State} {o : Out} (hs : s.Inv) : (s.emit o).Inv := hs

theorem State.Inv.modRub {s : State} {k : Fin 24} {f : Rubric → Rubric} (hs : s.Inv) : (s.modRub k f).Inv := .setRub hs

theorem State.Inv.draw {s : State} (hs : s.Inv) : s.draw.Inv := hs

theorem State.Inv.setBallast {s : State} {m : BitVec 128} (hs : s.Inv) : (s.setBallast m).Inv := by
  unfold State.setBallast
  extract_lets +onlyGivenNames count w z
  have hz : z.Inv := .draw hs
  exact hz

theorem State.Inv.dropBallast {s : State} {n : CoreNo} (hs : s.Inv) : (s.dropBallast n).Inv := .ite (.setBallast hs) hs

theorem State.Inv.setDict {s : State} {idx sub v : ℕ} (hs : s.Inv) : (s.setDict idx sub v).Inv := hs

theorem State.Inv.countCore {s : State} {n : CoreNo} {ev inc : ℕ} (hs : s.Inv) : (s.countCore n ev inc).Inv := .ite hs (.modCore hs)

theorem State.Inv.countDie {s : State} {d : ℕ} {e : DieEvent} (hs : s.Inv) : (s.countDie d e).Inv := by
  unfold State.countDie
  refine .ite hs ?_
  split
  · exact hs
  · exact hs

theorem State.Inv.countApprox {s : State} {m : ℕ} (hs : s.Inv) : (s.countApprox m).Inv := by
  unfold State.countApprox
  split
  · exact hs
  · exact hs

theorem State.Inv.raiseVector {s : State} {fn v : ℕ} (hs : s.Inv) : (s.raiseVector fn v).Inv := .ite (.emit hs) (.modHost hs)

theorem State.Inv.partitionEvent {s : State} {p : PartNo} (hs : s.Inv) : (s.partitionEvent p).Inv := by
  unfold State.partitionEvent
  extract_lets +onlyGivenNames w s1
  have hs1 : s1.Inv := .modHost hs
  refine .ite ?_ hs1
  split
  · exact .raiseVector hs1
  · exact hs1

theorem State.Inv.notifyTarget {s : State} {t idx sub : ℕ} {v : List Byte} (hs : s.Inv) : (s.notifyTarget t idx sub v).Inv :=
  .ite hs (.ite hs (.emit hs))

theorem State.Inv.notify {s : State} {idx sub : ℕ} {v : List Byte} (hs : s.Inv) : (s.notify idx sub v).Inv := by
  unfold State.notify
  extract_lets +onlyGivenNames s1
  have hs1 : s1.Inv := .notifyTarget (.notifyTarget hs)
  exact hs1

theorem State.Inv.logRecord {s : State} {r : Report} {dropped : ℕ} (hs : s.Inv) : (s.logRecord r dropped).Inv := by
  unfold State.logRecord
  extract_lets seq pers rec0 k unread src lg s1 s2 s3 s4
  have hs1 : s1.Inv := hs
  have hs3 : s3.Inv := .modHost (.notify hs1)
  have hs4 : s4.Inv := .ite (.raiseVector hs3) hs3
  split
  · exact .partitionEvent (.emit hs4)
  · exact hs4

theorem State.Inv.report {s : State} {r : Report} (hs : s.Inv) : (s.report r).Inv := .ite hs (.logRecord hs)

theorem State.Inv.countPort {s : State} {p : PortNo} {ev inc lane : ℕ} (hs : s.Inv) : (s.countPort p ev inc lane).Inv := .countDie hs

end Sys2Proof.Machine
end

section
/-! SUPPORT. The operations of Sys2Proof/Machine/MemOps.lean keep the invariant. -/

namespace Sys2Proof.Machine

theorem State.Inv.disarmAt {s : State} {ua : ℕ} (hs : s.Inv) : (s.disarmAt ua).Inv := .ite hs hs

theorem State.Inv.forget {s : State} {ua n : ℕ} (hs : s.Inv) : (s.forget ua n).Inv := hs

/-- An operation that keeps memory's canonical form and leaves the folio unit alone keeps the invariant. -/
theorem State.Inv.of_mem {s t : State} (hs : s.Inv) (hm : Memory.wf t.mem = true) (hf : t.fol = s.fol) : t.Inv :=
  ⟨hm, (congrArg FolioState.wf hf).trans hs.2⟩

theorem State.Inv.setHomeGran {s : State} {g : ℕ} {x : Gran} (hs : s.Inv) : (s.setHomeGran g x).Inv :=
  hs.of_mem (State.setHomeGran_wf hs.1 g x) (State.setHomeGran_fol s g x)

theorem State.Inv.poisonGran {s : State} {g : ℕ} (hs : s.Inv) : (s.poisonGran g).Inv := hs.of_mem (State.poisonGran_wf hs.1 g) rfl

theorem State.Inv.zeroFrame {s : State} {f : ℕ} (hs : s.Inv) : (s.zeroFrame f).Inv :=
  hs.of_mem (State.zeroFrame_wf hs.1 f) (State.disarmAt_fol s (65536 * f))

theorem State.Inv.copyFrame {s : State} {src dst : ℕ} (hs : s.Inv) : (s.copyFrame src dst).Inv :=
  hs.of_mem (State.copyFrame_wf hs.1 src dst) (State.disarmAt_fol s (65536 * dst))

/-- A change of the folio unit keeps the invariant when it keeps the canonical form of its two tables. -/
theorem State.Inv.of_fol {s : State} {f : FolioState} (hs : s.Inv) (h1 : Tab.wf Folio.reset s.fol.slots = true → Tab.wf Folio.reset f.slots
    = true)
    (h2 : Tab.wf none s.fol.snaps = true → Tab.wf none f.snaps = true) : State.Inv { s with fol := f } := by
  obtain ⟨hslots, hsnaps⟩ := (FolioState.wf_iff _).mp hs.2
  exact ⟨hs.1, (FolioState.wf_iff _).mpr ⟨h1 hslots, h2 hsnaps⟩⟩

theorem State.Inv.setSlot {s : State} {id : ℕ} {f : Folio} (hs : s.Inv) : (s.setSlot id f).Inv :=
  hs.of_fol (fun h => Tab.wf_set h _ _) (fun h => h)

theorem State.Inv.listRetire {s : State} {f : ℕ} (hs : s.Inv) : (s.listRetire f).Inv := .ite hs (.ite (.modMem hs) (.report hs))

theorem State.Inv.touchGran {s : State} {finder : ℕ} {p : Option PartNo} {g : ℕ} (hs : s.Inv) : (s.touchGran finder p g).Inv :=
  .ite hs (.ite (.listRetire (.countDie (.report (.modMem (.poisonGran (.ite (.draw hs) hs)))))) (.countDie (.report (.modMem (.poisonGran
    (.ite (.draw hs) hs))))))

theorem State.Inv.touch {s : State} {finder : ℕ} {p : Option PartNo} {ua n : ℕ} (hs : s.Inv) : (s.touch finder p ua n).Inv :=
  .ite hs (.foldl (fun _ _ ht => .touchGran ht) hs)

theorem State.Inv.touchFrame {s : State} {finder : ℕ} {p : Option PartNo} {f : ℕ} (hs : s.Inv) : (s.touchFrame finder p f).Inv := .touch hs

theorem State.Inv.setFrame {s : State} {f : ℕ} {e : FrameEnt} (hs : s.Inv) : (s.setFrame f e).Inv :=
  hs.of_mem (State.setFrame_wf hs.1 f e) (State.setFrame_fol s f e)

theorem State.Inv.imageTable {s : State} {tier : ℕ} {c : CDie} (hs : s.Inv) : (s.imageTable tier c).Inv := by
  refine hs.of_mem (State.imageTable_wf hs.1 tier c) ?_
  unfold State.imageTable
  dsimp only
  split <;> rfl

theorem State.allocOne_inv {s : State} {p : PartNo} {tier mask : ℕ} {b tbl wt : Bool} (hs : s.Inv) :
    SomeAll (fun r => State.Inv (Prod.snd r)) (s.allocOne p tier mask b tbl wt) := by
  unfold State.allocOne
  split
  · exact .none
  · exact .some (.setFrame (.modMem hs))

theorem State.Inv.freeFrame {s : State} {f : ℕ} (hs : s.Inv) : (s.freeFrame f).Inv := by
  unfold State.freeFrame
  split
  · exact hs
  · exact .modMem (.setFrame hs)

theorem State.Inv.retireFrame {s : State} {f : ℕ} (hs : s.Inv) : (s.retireFrame f).Inv := .report (.modMem (.setFrame hs))

theorem State.Inv.refFrame {s : State} {f : ℕ} {up : Bool} (hs : s.Inv) : (s.refFrame f up).Inv :=
  .ite (.setFrame hs) (.ite (.modMem (.setFrame hs)) (.setFrame hs))

theorem State.Inv.tablePoison {s : State} {p : Option PartNo} {ua : ℕ} (hs : s.Inv) : (s.tablePoison p ua).Inv := .report hs

theorem State.Inv.pfRecord {s : State} {p : PartNo} {f : PFault} (hs : s.Inv) : (s.pfRecord p f).Inv := by
  unfold State.pfRecord
  split
  · exact .tablePoison hs
  · exact hs

end Sys2Proof.Machine
end

section
/-! SUPPORT. The operations of Sys2Proof/Machine/Mcast.lean keep the invariant. -/

namespace Sys2Proof.Machine

theorem State.Inv.setMcast {s : State} {m : MDie} {set : ℕ} {x : McastSet} (hs : s.Inv) : (s.setMcast m set x).Inv := hs

theorem State.Inv.mcastRead {m : MDie} {set : ℕ} {i : Fin 32} {back : Bool} {n : ℕ} :
    ∀ {s : State} {a : ℕ}, s.Inv → (s.mcastRead m set i a back n).Inv := by
  induction n with
  | zero => exact fun hs => hs
  | succ n ih =>
    intro s a hs
    unfold State.mcastRead
    dsimp only
    split
    · exact .setMcast hs
    · refine ih ?_
      split
      · exact .countDie (.setMcast hs)
      · exact .countDie (.setMcast hs)
      · exact .setMcast hs

theorem State.Inv.mcastResume {m : MDie} {set n : ℕ} : ∀ {s : State}, s.Inv → (s.mcastResume m set n).Inv := by
  induction n with
  | zero => exact fun hs => hs
  | succ n ih =>
    intro s hs
    unfold State.mcastResume
    dsimp only
    split
    · exact hs
    · split
      · exact hs
      · exact ih (.mcastRead (.setMcast hs))

theorem State.Inv.mcastLoad {s : State} {m : MDie} {set : ℕ} {i : Fin 32} {a lines : ℕ} (hs : s.Inv) : (s.mcastLoad m set i a lines).Inv :=
  .mcastResume (.ite (.setMcast hs) (.mcastRead hs))

theorem State.Inv.mcastTouch {s : State} {n : CoreNo} {ua k : ℕ} (hs : s.Inv) : (s.mcastTouch n ua k).Inv := by
  unfold State.mcastTouch
  extract_lets +onlyGivenNames m
  refine .foldl (fun t set ht => ?_) hs
  extract_lets +onlyGivenNames x
  split
  · exact ht
  · exact .ite ht (.mcastLoad ht)

end Sys2Proof.Machine
end

section
/-! SUPPORT. The operations of Sys2Proof/Machine/Tlb.lean keep the invariant. -/

namespace Sys2Proof.Machine

theorem State.walkerLook_inv {s : State} {m : MDie} {as : List ℕ} (hs : s.Inv) : (s.walkerLook m as).1.Inv := by
  unfold State.walkerLook
  refine foldl_inv (fun r : State × ℕ => r.1.Inv) ?_ _ hs
  exact fun _ _ h => h

theorem State.Inv.tlbLook {s : State} {n : CoreNo} {q : WalkReq} {t : Trans} (hs : s.Inv) : (s.tlbLook n q t).Inv :=
  .ite hs (.countDie (.countCore (State.walkerLook_inv hs)))

theorem State.Inv.tlbLooks {s : State} {n : CoreNo} {q : WalkReq} {ps : List (ℕ × ℕ)} {ts : List (Trans × ℕ)} (hs : s.Inv) :
    (s.tlbLooks n q ps ts).Inv :=
  .foldl (fun _ _ ha => .tlbLook ha) hs

theorem State.Inv.ringMove {s : State} {p : PartNo} {path : List ℕ} {ua n : ℕ} (hs : s.Inv) : (s.ringMove p path ua n).Inv := by
  unfold State.ringMove
  refine .foldl (fun t x ht => ?_) hs
  split
  · exact .countDie ht
  · exact ht

theorem State.Inv.coreRing {s : State} {n : CoreNo} {p : PartNo} {write : Bool} {ua k : ℕ} (hs : s.Inv) : (s.coreRing n p write ua k).Inv :=
  .ite hs (.foldl (fun _ _ ht => .ringMove ht) hs)

theorem State.Inv.readPath {s : State} {n : CoreNo} {q : WalkReq} {ps : List (ℕ × ℕ)} {ts : List (Trans × ℕ)} (hs : s.Inv) :
    (s.readPath n q ps ts).Inv :=
  .foldl (fun _ _ ht => .coreRing (.mcastTouch ht)) (.tlbLooks hs)

theorem State.Inv.writePath {s : State} {n : CoreNo} {q : WalkReq} {t : Trans} {k : ℕ} (hs : s.Inv) : (s.writePath n q t k).Inv :=
  .coreRing (.tlbLook hs)

end Sys2Proof.Machine
end

section
/-! SUPPORT. The operations of Sys2Proof/Machine/FolioOps.lean keep the invariant. -/

namespace Sys2Proof.Machine

theorem State.Inv.writeHome {s : State} {p : Piece} (hs : s.Inv) : (s.writeHome p).Inv :=
  .ite (.setHomeGran hs) (.setHomeGran (.touchGran hs))

theorem State.Inv.writeHomes {s : State} {ps : List Piece} (hs : s.Inv) : (s.writeHomes ps).Inv := .foldl (fun _ _ hs => .writeHome hs) hs

theorem FX.Inv.doom {x : FX} {cause : W16} {page : ℕ} {holder : W64} (hx : x.Inv) : (x.doom cause page holder).Inv :=
  .ite (.mk (.ite (.countDie hx) hx)) hx

theorem FX.Inv.put {x : FX} {p : Piece} (hx : x.Inv) : (x.put p).Inv := .ite (.mk (.writeHome hx)) hx

theorem FX.Inv.write {x : FX} {intent : Bool} {ps : List Piece} (hx : x.Inv) : (x.write intent ps).Inv := by
  unfold FX.write
  refine .ite hx ?_
  extract_lets +onlyGivenNames np
  split
  · exact .doom hx
  · exact .ite (.doom hx) (.foldl (fun _ _ hx => .put hx) (.ite hx hx))

theorem FX.Inv.intent {x : FX} {frame : ℕ} {keep : Bool} (hx : x.Inv) : (x.intent frame keep).Inv := by
  unfold FX.intent
  refine .ite hx ?_
  split
  · exact .doom hx
  · exact .ite hx (.ite (.doom hx) hx)

theorem FX.Inv.delta {x : FX} {frame : ℕ} {up : Bool} (hx : x.Inv) : (x.delta frame up).Inv := .ite hx (.ite (.doom hx) hx)

theorem FX.Inv.addFrame {x : FX} {frame : ℕ} (hx : x.Inv) : (x.addFrame frame).Inv := hx

theorem FX.Inv.entry {x : FX} {ua e : ℕ} (hx : x.Inv) : (x.entry ua e).Inv := .write hx

theorem FX.Inv.entryFree {x : FX} {ua e : ℕ} (hx : x.Inv) : (x.entryFree ua e).Inv := .write hx

theorem FX.Inv.judge {x : FX} (hx : x.Inv) : x.judge.Inv := hx

theorem State.Inv.prune {s : State} {p : PartNo} (hs : s.Inv) : (s.prune p).Inv := hs

theorem State.Inv.closeSnap {s : State} {sid : ℕ} {old : Bool} (hs : s.Inv) : (s.closeSnap sid old).Inv := by
  unfold State.closeSnap
  split
  · exact hs
  · exact .prune (.ite (.modPreg (hs.of_fol (fun h => h) (fun h => Tab.wf_set h _ _))) (hs.of_fol (fun h => h) (fun h => Tab.wf_set h _ _)))

theorem State.Inv.keepPre {p : PartNo} {e : W32} {g n : ℕ} : ∀ {s : State}, s.Inv → (s.keepPre p e g n).Inv := by
  induction n with
  | zero => exact fun hs => hs
  | succ n ih =>
    intro s hs
    unfold State.keepPre
    split
    · exact hs
    · exact .ite (ih (.closeSnap hs)) hs

theorem State.Inv.closeOld {s : State} (hs : s.Inv) : s.closeOld.Inv := .foldl (fun _ _ ht => .closeSnap ht) hs

theorem State.Inv.refBy {f n : ℕ} {up : Bool} : ∀ {s : State}, s.Inv → (s.refBy f n up).Inv := by
  induction n with
  | zero => exact fun hs => hs
  | succ n ih => exact fun hs => ih (.refFrame hs)

theorem State.Inv.buffer {s : State} {p : PartNo} {g : ℕ} (hs : s.Inv) : (s.buffer p g).Inv := .ite hs (.ite (.modMem hs) (.modMem hs))

theorem FX.Inv.sealPoint {x : FX} (hx : x.Inv) : x.sealPoint.Inv := by
  unfold FX.sealPoint
  extract_lets e x1 y s1 s2 src s3 s4 s5 s6 s7 s8
  have hy : y.Inv := .foldl (fun _ _ h => .put h) (.foldl (fun _ _ h => .put h) hx)
  have hs1 : s1.Inv := .foldl (fun _ _ h => .keepPre h) hy
  have hs2 : s2.Inv := .foldl (fun _ _ h => .buffer (.setHomeGran h)) hs1
  have hs3 : s3.Inv := hs2
  have hs5 : s5.Inv := .foldl (fun _ _ h => .setFrame h) (.foldl (fun _ _ h => .refBy h) hs3)
  exact .mk (.countDie (.closeOld (.modMem hs5)))

theorem State.Inv.performHeld {s : State} {moved : List (ℕ × ℕ)} {w : HeldWrite} (hs : s.Inv) : (s.performHeld moved w).Inv := by
  unfold State.performHeld
  extract_lets +onlyGivenNames f s1
  have hs1 : s1.Inv := .writeHomes hs
  split
  · exact .setCore hs1
  · exact hs1

theorem State.Inv.release {s : State} {pages : List ℕ} {moved : List (ℕ × ℕ)} (hs : s.Inv) : (s.release pages moved).Inv :=
  .foldl (fun _ _ ht => .performHeld ht) (.modMem hs)

/-- A change of memory's bytes alone that keeps their canonical form. -/
theorem State.Inv.modCells {s : State} {f : Cells 8 → Cells 8} (hs : s.Inv) (hf : ∀ m : Cells 8, m.wf = true → (f m).wf = true) :
    (s.modMem (fun m => { m with cells := f m.cells })).Inv := by
  obtain ⟨hc, hp, hl⟩ := (Memory.wf_iff _).mp hs.1
  exact ⟨(Memory.wf_iff _).mpr ⟨hf _ hc, hp, hl⟩, hs.2⟩

theorem FX.Inv.scrapeBody {x : FX} {cause : W16} (hx : x.Inv) : (x.scrapeBody cause).Inv := by
  unfold FX.scrapeBody
  have hfree : ∀ (t : State) (f : ℕ), t.Inv → State.Inv (if (t.frame f).state = 3 then t else t.freeFrame f) :=
    fun _ _ ht => .ite ht (.freeFrame ht)
  exact .mk (.countDie (.foldl (fun _ _ ht => ht.modCells (fun _ h => Cells.wf_set h _ _)) (.foldl hfree hx)))

theorem State.Inv.plainWrite {s : State} {who : Writer} {ps : List Piece} (hs : s.Inv) : (s.plainWrite who ps).Inv :=
  .foldl (fun _ _ ht => .ite (.modMem ht) (.writeHome ht)) hs

theorem State.Inv.reportPF {s : State} {p : PartNo} {die unit : ℕ} {lvl : Level} {f : PFault} (hs : s.Inv) :
    (s.reportPF p die unit lvl f).Inv :=
  .report (.pfRecord hs)

theorem State.Inv.touchVa {s : State} {finder : ℕ} {q : WalkReq} {n : ℕ} (hs : s.Inv) : (s.touchVa finder q n).Inv := by
  unfold State.touchVa
  refine .ite hs ?_
  split
  · exact hs
  · exact .foldl (fun _ _ ht => .touch ht) hs

theorem State.Inv.dvWrite {s : State} {p : PartNo} {master addr : ℕ} {bs : List Byte} (hs : s.Inv) : (s.dvWrite p master addr bs).Inv := by
  unfold State.dvWrite
  split
  · exact .reportPF hs
  · exact .plainWrite hs

theorem FX.Inv.fresh {s : State} {p : PartNo} {tolerant : Bool} (hs : s.Inv) : (FX.fresh s p tolerant).Inv := hs

theorem FX.Inv.ofSlot {s : State} {id : ℕ} (hs : s.Inv) : (FX.ofSlot s id).Inv := hs

theorem FX.Inv.back {x : FX} (hx : x.Inv) : x.back.Inv := by
  unfold FX.back
  split
  · exact .setSlot hx
  · exact hx

theorem FX.finish_inv {x : FX} {judge : Bool} (hx : x.Inv) : (x.finish judge).1.Inv :=
  .ite_fst (.release (FX.Inv.s (.scrapeBody hx))) (.ite_fst (.release (FX.Inv.s (.scrapeBody (.ite (.judge hx) hx)))) (.release (FX.Inv.s
    (.sealPoint (.ite (.judge hx) hx)))))

end Sys2Proof.Machine
end

section
/-! SUPPORT. The operations of Sys2Proof/Machine/CoreOps.lean keep the invariant. -/

namespace Sys2Proof.Machine

theorem State.Inv.dropToken {s : State} {n : CoreNo} (hs : s.Inv) : (s.dropToken n).Inv := .ite hs hs

theorem State.Inv.beginWait {s : State} {n : CoreNo} {w : CoreWait} (hs : s.Inv) : (s.beginWait n w).Inv :=
  .ite (.dropToken (.modCore hs)) (.modCore hs)

theorem State.Inv.endWait {s : State} {n : CoreNo} (hs : s.Inv) : (s.endWait n).Inv := .modCore hs

theorem State.Inv.cutRecord {s : State} {n : CoreNo} (hs : s.Inv) : (s.cutRecord n).Inv := .report (.draw hs)

theorem State.Inv.detachCore {s : State} {n : CoreNo} (hs : s.Inv) : (s.detachCore n).Inv := hs

theorem State.Inv.cutCore {s : State} {n : CoreNo} (hs : s.Inv) : (s.cutCore n).Inv := by
  unfold State.cutCore
  extract_lets +onlyGivenNames s1
  have hs1 : s1.Inv := .modCore (.dropToken (.detachCore hs))
  exact .cutRecord hs1

theorem State.Inv.atBoundary {s : State} {n : CoreNo} (hs : s.Inv) : (s.atBoundary n).Inv := .ite (.cutCore hs) hs

theorem State.Inv.takeCut {s : State} {n : CoreNo} (hs : s.Inv) : (s.takeCut n).Inv := .ite hs (.ite (.modCore hs) (.cutCore hs))

theorem State.Inv.countSram {s : State} {unit lost fixed : ℕ} (hs : s.Inv) : (s.countSram unit lost fixed).Inv := hs

theorem State.Inv.coreSram {s : State} {n : CoreNo} {lost fixed : ℕ} (hs : s.Inv) : (s.coreSram n lost fixed).Inv :=
  .ite (.takeCut (.countCore (.countSram hs))) (.countCore (.countSram hs))

theorem State.Inv.coreFaultAt {s : State} {n : CoreNo} {pc : W64} {e : CoreErr} (hs : s.Inv) : (s.coreFaultAt n pc e).Inv :=
  .ite (.report hs) (.atBoundary (.report (.modCore (.dropToken hs))))

theorem State.Inv.coreFault {s : State} {n : CoreNo} {e : CoreErr} (hs : s.Inv) : (s.coreFault n e).Inv := .coreFaultAt hs

theorem State.Inv.endPhase {s : State} {n : CoreNo} {next : Phase} (hs : s.Inv) : (s.endPhase n next).Inv := .modCore hs

theorem State.Inv.setPhase {s : State} {n : CoreNo} {p : Phase} (hs : s.Inv) : (s.setPhase n p).Inv := .modCore hs

theorem State.Inv.inPhase {s : State} {n : CoreNo} {k : InstrClass} {body : State → State} (hs : s.Inv) (hbody : ∀ x0, x0.Inv →
    (body x0).Inv) :
    (s.inPhase n k body).Inv := by
  unfold State.inPhase
  split
  · exact hbody _ hs
  · exact hbody _ hs
  · exact .endPhase hs
  · exact hbody _ (.setPhase (.dropBallast hs))
  · exact hbody _ hs
  · exact .endPhase hs
  · exact .ite (hbody _ (.setPhase hs)) (.modCore hs)

theorem State.Inv.issue {s : State} {n : CoreNo} {k : InstrClass} {body : State → State} (hs : s.Inv) (hbody : ∀ x0, x0.Inv →
    (body x0).Inv) :
    (s.issue n k body).Inv :=
  .ite hs (.ite (.coreFault (.modCore hs)) (.ite (.coreFault hs) (.inPhase hs hbody)))

theorem State.Inv.retire {s : State} {n : CoreNo} (hs : s.Inv) : (s.retire n).Inv := .countCore (.modCore hs)

theorem State.Inv.finishCore {s : State} {n : CoreNo} {r : Except CoreErr Core} (hs : s.Inv) : (s.finishCore n r).Inv := by
  unfold State.finishCore
  split
  · exact .retire (.setCore hs)
  · exact .coreFault hs

theorem State.Inv.postEvent {s : State} {n : CoreNo} {ended : Bool} (hs : s.Inv) : (s.postEvent n ended).Inv := by
  unfold State.postEvent
  extract_lets +onlyGivenNames s1 e
  have hs1 : s1.Inv := .modCore hs
  refine .ite ?_ hs1
  split
  · exact .setRub hs1
  · exact hs1

end Sys2Proof.Machine
end

section
/-! SUPPORT. The operations of Sys2Proof/Machine/Control.lean keep the invariant. -/

namespace Sys2Proof.Machine

theorem aluBody_inv {n : CoreNo} {sd sa sb : SReg} {f : W64 → W64 → W64} {s : State} (hs : s.Inv) : (aluBody n sd sa sb f s).Inv :=
  .finishCore hs

theorem branchBody_inv {n : CoreNo} {sa sb : SReg} {target : BitVec 11} {taken : W64 → W64 → Bool} {s : State} (hs : s.Inv) :
    (branchBody n sa sb target taken s).Inv :=
  .ite (.coreFault hs) (.ite (.countCore (.modCore hs)) (.retire hs))

theorem execNop_inv {n : CoreNo} {s : State} (hs : s.Inv) : NextInv (execNop n s) := .next (.issue hs (fun _ hs => .retire hs))

theorem execEnd_inv {n : CoreNo} {s : State} (hs : s.Inv) : NextInv (execEnd n s) :=
  .next (.issue hs (fun _ hs => .ite hs (.atBoundary (.postEvent (.modCore (.retire (.dropToken hs)))))))

theorem execLi_inv {n : CoreNo} {sd : SReg} {imm : W64} {s : State} (hs : s.Inv) : NextInv (execLi n sd imm s) :=
  .next (.issue hs (fun _ hs => .finishCore hs))

theorem execAdd_inv {n : CoreNo} {sd sa sb : SReg} {s : State} (hs : s.Inv) : NextInv (execAdd n sd sa sb s) :=
  .next (.issue hs (fun _ hs => aluBody_inv hs))

theorem execAddi_inv {n : CoreNo} {sd sa : SReg} {imm : W64} {s : State} (hs : s.Inv) : NextInv (execAddi n sd sa imm s) :=
  .next (.issue hs (fun _ hs => aluBody_inv hs))

theorem execSub_inv {n : CoreNo} {sd sa sb : SReg} {s : State} (hs : s.Inv) : NextInv (execSub n sd sa sb s) :=
  .next (.issue hs (fun _ hs => aluBody_inv hs))

theorem execAnd_inv {n : CoreNo} {sd sa sb : SReg} {s : State} (hs : s.Inv) : NextInv (execAnd n sd sa sb s) :=
  .next (.issue hs (fun _ hs => aluBody_inv hs))

theorem execOr_inv {n : CoreNo} {sd sa sb : SReg} {s : State} (hs : s.Inv) : NextInv (execOr n sd sa sb s) :=
  .next (.issue hs (fun _ hs => aluBody_inv hs))

theorem execXor_inv {n : CoreNo} {sd sa sb : SReg} {s : State} (hs : s.Inv) : NextInv (execXor n sd sa sb s) :=
  .next (.issue hs (fun _ hs => aluBody_inv hs))

theorem execShl_inv {n : CoreNo} {sd sa : SReg} {sh : BitVec 6} {s : State} (hs : s.Inv) : NextInv (execShl n sd sa sh s) :=
  .next (.issue hs (fun _ hs => aluBody_inv hs))

theorem execShr_inv {n : CoreNo} {sd sa : SReg} {sh : BitVec 6} {s : State} (hs : s.Inv) : NextInv (execShr n sd sa sh s) :=
  .next (.issue hs (fun _ hs => aluBody_inv hs))

theorem execMul_inv {n : CoreNo} {sd sa sb : SReg} {s : State} (hs : s.Inv) : NextInv (execMul n sd sa sb s) :=
  .next (.issue hs (fun _ hs => aluBody_inv hs))

theorem execBeq_inv {n : CoreNo} {sa sb : SReg} {target : BitVec 11} {s : State} (hs : s.Inv) : NextInv (execBeq n sa sb target s) :=
  .next (.issue hs (fun _ hs => branchBody_inv hs))

theorem execBne_inv {n : CoreNo} {sa sb : SReg} {target : BitVec 11} {s : State} (hs : s.Inv) : NextInv (execBne n sa sb target s) :=
  .next (.issue hs (fun _ hs => branchBody_inv hs))

theorem execBlt_inv {n : CoreNo} {sa sb : SReg} {target : BitVec 11} {s : State} (hs : s.Inv) : NextInv (execBlt n sa sb target s) :=
  .next (.issue hs (fun _ hs => branchBody_inv hs))

theorem execBge_inv {n : CoreNo} {sa sb : SReg} {target : BitVec 11} {s : State} (hs : s.Inv) : NextInv (execBge n sa sb target s) :=
  .next (.issue hs (fun _ hs => branchBody_inv hs))

theorem execJmp_inv {n : CoreNo} {target : BitVec 11} {s : State} (hs : s.Inv) : NextInv (execJmp n target s) :=
  .next (.issue hs (fun _ hs => branchBody_inv hs))

theorem execLds_inv {n : CoreNo} {sd sa : SReg} {imm : W64} {s : State} (hs : s.Inv) : NextInv (execLds n sd sa imm s) :=
  .next (.issue hs (fun _ hs => .finishCore hs))

theorem execSts_inv {n : CoreNo} {sa sb : SReg} {imm : W64} {s : State} (hs : s.Inv) : NextInv (execSts n sa sb imm s) :=
  .next (.issue hs (fun _ hs => .finishCore hs))

theorem execRdtime_inv {n : CoreNo} {sd : SReg} {s : State} (hs : s.Inv) : NextInv (execRdtime n sd s) :=
  .next (.issue hs (fun _ hs => .finishCore hs))

theorem execRdid_inv {n : CoreNo} {sd : SReg} {s : State} (hs : s.Inv) : NextInv (execRdid n sd s) :=
  .next (.issue hs (fun _ hs => .finishCore hs))

theorem execBkpt_inv {n : CoreNo} {s : State} (hs : s.Inv) : NextInv (execBkpt n s) := .next (.issue hs (fun _ hs => .modCore (.retire hs)))

theorem execSeed_inv {n : CoreNo} {sa : SReg} {s : State} (hs : s.Inv) : NextInv (execSeed n sa s) :=
  .next (.issue hs (fun _ hs => .finishCore hs))

theorem execSignal_inv {n : CoreNo} {sa : SReg} {event : W16} {s : State} (hs : s.Inv) : NextInv (execSignal n sa event s) :=
  .next (.issue hs (fun _ hs => .ite hs (.postEvent (.retire (.setCore hs)))))

theorem execBarrier_inv {n : CoreNo} {id : BitVec 4} {home : CoreNo} {count : Byte} {s : State} (hs : s.Inv) :
    NextInv (execBarrier n id home count s) := by
  refine .next (.issue hs (fun t ht => ?_))
  refine .ite (.coreFault ht) (.ite (.coreFault ht) (.beginWait ?_))
  exact ht

theorem State.Inv.countArrival {s : State} {a : MeshArrival} (hs : s.Inv) : (s.countArrival a).Inv := by
  unfold State.countArrival
  extract_lets +onlyGivenNames h isB b
  refine .ite (.coreFault hs) ?_
  extract_lets +onlyGivenNames b1 rest
  refine .ite ?_ (.setCore hs)
  extract_lets +onlyGivenNames s1 rs
  have hs1 : s1.Inv := .setCore hs
  exact hs1

theorem execBarrierArrival_inv {n : CoreNo} {i : ℕ} {s : State} (hs : s.Inv) : NextInv (execBarrierArrival n i s) := by
  unfold execBarrierArrival
  refine .next ?_
  split
  · exact hs
  · exact .countArrival hs

theorem execBarrierRelease_inv {n : CoreNo} {i : ℕ} {s : State} (hs : s.Inv) : NextInv (execBarrierRelease n i s) := by
  unfold execBarrierRelease
  refine .next ?_
  split
  · exact hs
  · exact .ite (.endWait (.retire hs)) hs

theorem execWaitin_inv {n : CoreNo} {tag : Byte} {src : CoreNo} {count : Byte} {s : State} (hs : s.Inv) :
    NextInv (execWaitin n tag src count s) :=
  .next (.issue hs (fun _ hs => .ite (.coreFault hs) (.ite (.retire hs) (.beginWait hs))))

theorem execFence_inv {n : CoreNo} {s : State} (hs : s.Inv) : NextInv (execFence n s) :=
  .next (.issue hs (fun _ hs => .ite (.retire hs) (.endPhase (.retire hs))))

end Sys2Proof.Machine
end

section
/-! SUPPORT. The operations of Sys2Proof/Machine/HostOps.lean keep the invariant. -/

namespace Sys2Proof.Machine

theorem State.Inv.hostWrite {s : State} {a : ℕ} {bs : List Byte} {bad : ℕ → Bool} (hs : s.Inv) : (s.hostWrite a bs bad).Inv := .modHost hs

theorem State.Inv.setSq {s : State} {q : ℕ} {x : SQ} (hs : s.Inv) : (s.setSq q x).Inv := .modHost hs

theorem State.Inv.setCq {s : State} {c : ℕ} {x : CQ} (hs : s.Inv) : (s.setCq c x).Inv := .modHost hs

theorem State.Inv.fireCq {s : State} {c : ℕ} (hs : s.Inv) : (s.fireCq c).Inv := .raiseVector (.setCq hs)

theorem State.Inv.writeCq {s : State} {c : ℕ} {x : Completion} (hs : s.Inv) : (s.writeCq c x).Inv :=
  .ite (.fireCq (.setCq (.hostWrite hs))) (.setCq (.hostWrite hs))

theorem State.Inv.postCq {s : State} {c : ℕ} {x : Completion} (hs : s.Inv) : (s.postCq c x).Inv := .ite (.setCq hs) (.writeCq hs)

theorem State.Inv.flushCq {c n : ℕ} : ∀ {s : State}, s.Inv → (s.flushCq c n).Inv := by
  induction n with
  | zero => exact fun hs => hs
  | succ n ih =>
    intro s hs
    unfold State.flushCq
    dsimp only
    split
    · exact hs
    · exact .ite (ih (.writeCq (.setCq hs))) hs

theorem State.Inv.setRslot {s : State} {p : PartNo} {i : ℕ} {x : Slot} (hs : s.Inv) : (s.setRslot p i x).Inv := .modHost hs

theorem State.Inv.claimSlot {s : State} {p : PartNo} {i : ℕ} {cls op : Byte} {tag : W64} {sq : ℕ} (hs : s.Inv) :
    (s.claimSlot p i cls op tag sq).Inv :=
  .setRslot hs

theorem State.Inv.recordOrder {s : State} {p : PartNo} {cls : Byte} {tag : W64} {d : Done} (hs : s.Inv) : (s.recordOrder p cls tag d).Inv :=
  .ite hs (.report hs)

theorem State.Inv.endOrder {s : State} {o : Order} {d : Done} (hs : s.Inv) : (s.endOrder o d).Inv :=
  .ite (.modHost hs) (.postCq (.ite (.recordOrder (.modHost hs)) (.ite (.recordOrder (.modHost hs)) (.setRslot (.recordOrder
    (.modHost hs))))))

theorem State.Inv.beginOrder {s : State} {id : ℕ} (hs : s.Inv) : (s.beginOrder id).Inv := .modHost hs

theorem State.Inv.endJob {s : State} {j : Job} {d : Done} (hs : s.Inv) : (s.endJob j d).Inv := by
  unfold State.endJob
  split
  · exact .endOrder hs
  · exact hs

theorem State.Inv.submitFail {s : State} {p : PartNo} {addr cause : ℕ} {err : PartRegs → PartRegs} (hs : s.Inv) :
    (s.submitFail p addr cause err).Inv :=
  .report (.modPreg hs)

theorem State.Inv.submitReject {s : State} {p : PartNo} {addr : ℕ} {err : PartRegs → PartRegs} (hs : s.Inv) :
    (s.submitReject p addr err).Inv :=
  .submitFail hs

theorem State.Inv.rejectJob {s : State} {j : Job} {err : PartRegs → PartRegs} (hs : s.Inv) : (s.rejectJob j err).Inv := by
  unfold State.rejectJob
  split
  · exact .endJob (.modPreg hs)
  · exact .submitReject hs

theorem State.takeJob_inv {s : State} {src : CmdSrc} {cls op n : ℕ} {ok : List Byte → Bool} {err : PartRegs → PartRegs} (hs : s.Inv) :
    (s.takeJob src cls op n ok err).1.Inv := by
  unfold State.takeJob
  split
  · split
    · exact hs
    · exact .beginOrder hs
  · extract_lets +onlyGivenNames addr
    split
    · exact .submitFail hs
    · exact .ite_fst (.submitReject hs) (.ite_fst hs hs)

theorem State.Inv.endRecord {s : State} {j : Job} {addr : ℕ} {d : Done} (hs : s.Inv) : (s.endRecord j addr d).Inv :=
  .endJob (.ite hs (.dvWrite hs))

end Sys2Proof.Machine
end

section
/-! SUPPORT. The operations of Sys2Proof/Machine/FolioEnd.lean keep the invariant. -/

namespace Sys2Proof.Machine

theorem State.Inv.tellWaiters {s : State} {f : Folio} {r : FolioRecord} (hs : s.Inv) : (s.tellWaiters f r).Inv := by
  have hwr : ∀ (t : State) (a : ℕ), t.Inv → State.Inv (if a = 0 then t else t.dvWrite f.part (masterMig (t.home f.part)) a r.bytes) :=
    fun _ _ ht => .ite ht (.dvWrite ht)
  unfold State.tellWaiters
  refine .ite (hwr _ _ hs) (.foldl (fun t w ht => ?_) hs)
  dsimp only
  split
  · exact hwr _ _ ht
  · split
    · exact hwr _ _ ht
    · exact .endOrder (hwr _ _ ht)

theorem State.Inv.endSlot {s : State} {id code outcome : ℕ} {other : Option ℕ} (hs : s.Inv) : (s.endSlot id code outcome other).Inv :=
  .setSlot (.tellWaiters (.release (.setSlot hs)))

theorem State.Inv.scrapeSlot {s : State} {id : ℕ} {cause : W16} {other : Option ℕ} (hs : s.Inv) : (s.scrapeSlot id cause other).Inv :=
  .endSlot (FX.Inv.back (.scrapeBody (.judge (.ofSlot hs))))

theorem State.Inv.sealSlot {s : State} {id : ℕ} (hs : s.Inv) : (s.sealSlot id).Inv := FX.Inv.back (.sealPoint (.ofSlot hs))

theorem State.Inv.modSpan {s : State} {id : ℕ} {g : Span → Span} (hs : s.Inv) : (s.modSpan id g).Inv := .setSlot hs

theorem State.Inv.tellMember {s : State} {sp : Span} {dst : ℕ} {m : FolioMsg} (hs : s.Inv) : (s.tellMember sp dst m).Inv := by
  unfold State.tellMember
  split
  · exact .ite (.emit hs) (.emit hs)
  · exact .emit hs

theorem State.Inv.hear {s : State} {via : Option FolioVia} {act : State → State} (hs : s.Inv) (hact : ∀ x0, x0.Inv → (act x0).Inv) :
    (s.hear via act).Inv := by
  unfold State.hear
  split
  · exact hact _ hs
  · exact .ite (hact _ hs) (.countPort hs)

theorem State.Inv.keepScraped {s : State} {sp : Span} {code : W16} {deadline : W64} (hs : s.Inv) : (s.keepScraped sp code deadline).Inv :=
  hs

theorem State.Inv.keepDecision {s : State} {k : Kept} (hs : s.Inv) : (s.keepDecision k).Inv := hs

theorem State.Inv.decideSpan {s : State} {id : ℕ} {sealed : Bool} {code : W16} {noIndex : ℕ} (hs : s.Inv) :
    (s.decideSpan id sealed code noIndex).Inv := by
  unfold State.decideSpan
  extract_lets +onlyGivenNames f
  split
  · exact hs
  · exact .foldl (fun _ _ ht => .tellMember ht) (.keepDecision (.modSpan hs))

theorem State.Inv.coordAct {s : State} {id : ℕ} (hs : s.Inv) : (s.coordAct id).Inv := by
  unfold State.coordAct
  extract_lets +onlyGivenNames f
  split
  · exact hs
  · split
    · exact hs
    · exact .ite hs (.ite (.sealSlot hs) (.scrapeSlot hs))

theorem State.Inv.tally {s : State} {id : ℕ} (hs : s.Inv) : (s.tally id).Inv := by
  unfold State.tally
  extract_lets +onlyGivenNames f
  split
  · exact hs
  · refine .ite hs ?_
    extract_lets +onlyGivenNames late s1
    have hs1 : s1.Inv := by
      dsimp only [s1]
      refine .ite (.decideSpan hs) ?_
      split
      · exact .decideSpan hs
      · exact .decideSpan hs
    exact .ite (.coordAct hs1) hs1

theorem State.Inv.castVote {s : State} {id : ℕ} {yes : Bool} {code : W16} (hs : s.Inv) : (s.castVote id yes code).Inv := by
  unfold State.castVote
  extract_lets +onlyGivenNames f
  split
  · exact hs
  · exact .ite hs (.ite (.tally (.modSpan (.modSpan hs))) (.tellMember (.modSpan hs)))

theorem State.Inv.answerPart {s : State} {id : ℕ} (hs : s.Inv) : (s.answerPart id).Inv := by
  unfold State.answerPart
  extract_lets +onlyGivenNames f
  split
  · exact hs
  · refine .ite hs ?_
    split
    · exact .castVote hs
    · exact .ite (.castVote hs) hs
    · exact .ite (.castVote hs) (.ite (.castVote (FX.Inv.back (.judge (.ofSlot hs)))) (.castVote (FX.Inv.back (.mk (FX.Inv.s (.judge
        (.ofSlot hs)))))))
    · exact hs

theorem State.Inv.answerDoomed {s : State} {id : ℕ} (hs : s.Inv) : (s.answerDoomed id).Inv := by
  unfold State.answerDoomed
  extract_lets +onlyGivenNames f
  split
  · exact hs
  · exact .ite (.answerPart hs) hs

theorem FX.Inv.done {x : FX} (hx : x.Inv) : x.done.Inv := by
  unfold FX.done
  split
  · exact FX.Inv.back hx
  · exact .answerDoomed (FX.Inv.back hx)

theorem State.Inv.scrapePart {s : State} {id : ℕ} {code : W16} (hs : s.Inv) : (s.scrapePart id code).Inv := by
  unfold State.scrapePart
  extract_lets +onlyGivenNames f
  split
  · exact .scrapeSlot hs
  · exact .ite (.scrapeSlot (.ite hs (.decideSpan hs))) (.scrapeSlot (.keepScraped (.ite (.castVote hs) hs)))

theorem State.Inv.abortFolios {s : State} {p : PartNo} (hs : s.Inv) : (s.abortFolios p).Inv := .foldl (fun _ _ ht => .scrapePart ht) hs

theorem State.Inv.followDecision {s : State} {id : ℕ} {sealed : Bool} {code : W16} {noIndex : ℕ} (hs : s.Inv) :
    (s.followDecision id sealed code noIndex).Inv := by
  unfold State.followDecision
  extract_lets +onlyGivenNames f
  split
  · exact hs
  · exact .ite (.sealSlot (.modSpan (.keepDecision hs))) (.tellMember (.scrapeSlot (.modSpan (.keepDecision hs))))

end Sys2Proof.Machine
end

section
/-! SUPPORT. The operations of Sys2Proof/Machine/Transfer.lean keep the invariant. -/

namespace Sys2Proof.Machine

theorem State.Inv.touchTrans {s : State} {finder : ℕ} {p : Option PartNo} {ts : List (Trans × ℕ)} (hs : s.Inv) :
    (s.touchTrans finder p ts).Inv :=
  .foldl (fun _ _ ht => .touch ht) hs

theorem State.Inv.undefStore {s : State} {n : CoreNo} {r : Run} (hs : s.Inv) : (s.undefStore n r).Inv := .ite hs (.modCore hs)

theorem State.loadRun_inv {s : State} {n : CoreNo} {space ctx : ℕ} {r : Run} (hs : s.Inv) : OkAll State.Inv (s.loadRun n space ctx r) := by
  unfold State.loadRun
  refine .ite .error ?_
  extract_lets +onlyGivenNames q
  split
  · exact .error
  · exact .ok (.countCore (.modCore (.touchTrans (.readPath hs))))

/-- A load that fails leaves the state as it was but for the record of what stopped it. -/
theorem State.Inv.of_loadRun_error {s t : State} {n : CoreNo} {space ctx : ℕ} {r : Run} {e : CoreErr} (h : s.loadRun n space ctx r = .error
    (t, e))
    (hs : s.Inv) : t.Inv := by
  unfold State.loadRun at h
  dsimp only at h
  split at h
  · cases h
    exact hs
  · split at h
    · cases h
      exact .pfRecord hs
    · cases h

theorem State.loadRuns_inv {n : CoreNo} {space ctx : ℕ} {all l : List Run} :
    ∀ {s : State}, s.Inv → (s.loadRuns n space ctx all l).1.Inv := by
  induction l with
  | nil => exact fun hs => hs
  | cons r rest ih =>
    intro s hs
    unfold State.loadRuns
    split
    next t e => exact ih ((State.loadRun_inv hs).of_eq e)
    next t c e =>
      have ht : t.Inv := hs.of_loadRun_error e
      exact .ite (.foldl (fun _ _ hu => .undefStore hu) ht) ht

theorem State.Inv.outStore {s : State} {n : CoreNo} {held : Bool} (hs : s.Inv) : (s.outStore n held).Inv := .modCore hs

theorem State.coreStore_inv {s : State} {n : CoreNo} {ps : List Piece} (hs : s.Inv) : OkAll State.Inv (s.coreStore n ps) := by
  unfold State.coreStore
  split
  · exact .error
  · exact .ok (.outStore (FX.Inv.done (.write (.ofSlot hs))))
  · exact .ok (.outStore (.plainWrite hs))

/-- What a store leaves keeps the invariant, whether all its pages went out or one stopped it. -/
inductive XferInv : Except (State × CoreErr) State → Prop
  | ok {t : State} (h : t.Inv) : XferInv (.ok t)
  | error {t : State} {e : CoreErr} (h : t.Inv) : XferInv (.error (t, e))

theorem XferInv.of_ok {r : Except (State × CoreErr) State} {t : State} (h : XferInv r) (e : r = .ok t) : t.Inv := by
  subst e
  cases h
  assumption

theorem XferInv.of_error {r : Except (State × CoreErr) State} {t : State} {c : CoreErr} (h : XferInv r) (e : r = .error (t, c)) :
    t.Inv := by
  subst e
  cases h
  assumption

theorem State.storeRun_xfer {s : State} {n : CoreNo} {space ctx : ℕ} {r : Run} (hs : s.Inv) : XferInv (s.storeRun n space ctx r) := by
  unfold State.storeRun
  split
  · exact .error hs
  · extract_lets c bs bad q step res
    have hstep : ∀ a x, a.1.Inv → (step a x).1.Inv := by
      intro a x ha
      dsimp only [step]
      split
      · exact ha
      · split
        · exact .pfRecord ha
        · split
          · exact ha
          next h => exact (State.coreStore_inv (.writePath ha)).of_eq h
    have hres : res.1.Inv := foldl_inv (fun a : State × Option CoreErr × ℕ => a.1.Inv) hstep _ hs
    split
    · exact .error hres
    · exact .ok (.modCore hres)

theorem State.storeRun_inv {s : State} {n : CoreNo} {space ctx : ℕ} {r : Run} (hs : s.Inv) :
    OkAll State.Inv (s.storeRun n space ctx r) := by
  cases h : s.storeRun n space ctx r with
  | error x => exact .error
  | ok t => exact .ok ((State.storeRun_xfer hs).of_ok h)

theorem State.storeRuns_inv {n : CoreNo} {space ctx : ℕ} {l : List Run} : ∀ {s : State}, s.Inv → (s.storeRuns n space ctx l).1.Inv := by
  induction l with
  | nil => exact fun hs => hs
  | cons r rest ih =>
    intro s hs
    unfold State.storeRuns
    split
    next t e => exact ih ((State.storeRun_xfer hs).of_ok e)
    next t c e => exact (State.storeRun_xfer hs).of_error e

theorem State.Inv.endXfer {s : State} {n : CoreNo} {bytes : ℕ} {r : State × Option CoreErr} (hs : s.Inv) (hr : r.1.Inv) :
    (s.endXfer n bytes r).Inv := by
  unfold State.endXfer
  split
  · exact .coreFault hr
  · exact .retire (.countCore hr)

theorem execLoad_inv {n : CoreNo} {m : MemArg} {st : BitVec 22} {len : BitVec 21} {s : State} (hs : s.Inv) :
    NextInv (execLoad n m st len s) := by
  unfold execLoad
  refine .next ?_
  refine .issue hs (fun s hs => ?_)
  extract_lets +onlyGivenNames c
  split
  · exact .coreFault hs
  · exact .endXfer hs (State.loadRuns_inv hs)

theorem execStore_inv {n : CoreNo} {m : MemArg} {st : BitVec 22} {len : BitVec 21} {s : State} (hs : s.Inv) :
    NextInv (execStore n m st len s) := by
  unfold execStore
  refine .next ?_
  refine .issue hs (fun s hs => ?_)
  extract_lets +onlyGivenNames c
  split
  · exact .coreFault hs
  · exact .endXfer hs (State.storeRuns_inv hs)

theorem execLoad2d_inv {n : CoreNo} {st : BitVec 22} {s : State} (hs : s.Inv) : NextInv (execLoad2d n st s) := by
  unfold execLoad2d
  refine .next ?_
  refine .issue hs (fun s hs => ?_)
  split
  · exact .coreFault hs
  · split
    · exact .coreFault hs
    · exact .endXfer hs (State.loadRuns_inv hs)

theorem execStore2d_inv {n : CoreNo} {st : BitVec 22} {s : State} (hs : s.Inv) : NextInv (execStore2d n st s) := by
  unfold execStore2d
  refine .next ?_
  refine .issue hs (fun s hs => ?_)
  split
  · exact .coreFault hs
  · exact .endXfer hs (State.storeRuns_inv hs)

theorem State.sendTo_inv {src : CoreNo} {tag : ℕ} {us : List (BitVec 512 × Bool)} {l : List CoreNo} :
    ∀ {s : State}, s.Inv → (s.sendTo src tag us l).1.Inv := by
  induction l with
  | nil => exact fun hs => hs
  | cons d r ih =>
    intro s hs
    unfold State.sendTo
    refine .ite_fst (ih ?_) hs
    exact hs

theorem execSend_inv {n : CoreNo} {st : BitVec 22} {len : BitVec 21} {tag : Byte} {dst dst2 : CoreNo} {s : State} (hs : s.Inv) :
    NextInv (execSend n st len tag dst dst2 s) :=
  .next (.issue hs (fun _ hs => .ite (.coreFault hs) (.ite (.coreFault hs) (.ite (.coreFault hs) (.ite (.coreFault hs) (.endXfer hs
    (State.sendTo_inv (.modCore hs))))))))

theorem execRecv_inv {n : CoreNo} {st : BitVec 22} {len : BitVec 21} {tag : Byte} {src : CoreNo} {s : State} (hs : s.Inv) :
    NextInv (execRecv n st len tag src s) :=
  .next (.issue hs (fun _ hs => .ite (.coreFault hs) (.ite (.coreFault hs) (.ite (.coreFault hs) (.ite (.endXfer hs (.setCore hs))
    (.beginWait (.setCore hs)))))))

theorem execStreamLd_inv {n : CoreNo} {st : BitVec 22} {len : BitVec 21} {wide : Bool} {s : State} (hs : s.Inv) :
    NextInv (execStreamLd n st len wide s) :=
  .next (.issue hs (fun _ hs => .ite (.coreFault hs) (.ite (.coreFault hs) (.ite (.coreFault hs) (.endXfer hs (.setCore hs))))))

theorem execGather_inv {n : CoreNo} {st : BitVec 22} {s : State} (hs : s.Inv) : NextInv (execGather n st s) := by
  unfold execGather
  refine .next ?_
  refine .issue hs (fun s hs => ?_)
  split
  · exact .coreFault hs
  · split
    · exact .coreFault hs
    · exact .endXfer (.modCore hs) (State.loadRuns_inv (.modCore hs))

theorem execScatter_inv {n : CoreNo} {st : BitVec 22} {s : State} (hs : s.Inv) : NextInv (execScatter n st s) := by
  unfold execScatter
  refine .next ?_
  refine .issue hs (fun s hs => ?_)
  split
  · exact .coreFault hs
  · exact .endXfer (.modCore hs) (State.storeRuns_inv (.modCore hs))

theorem State.readRotLine_inv {s : State} {n : CoreNo} {line : ℕ} (hs : s.Inv) :
    OkAll (fun r => State.Inv (Prod.fst r)) (s.readRotLine n line) := by
  unfold State.readRotLine
  extract_lets +onlyGivenNames q
  split
  · exact .error
  · exact .ok (.touch (.readPath hs))

theorem State.rotFillAll_inv {n : CoreNo} {l : List ℕ} : ∀ {s : State}, s.Inv → (s.rotFillAll n l).1.Inv := by
  induction l with
  | nil => exact fun hs => hs
  | cons a r ih =>
    intro s hs
    unfold State.rotFillAll
    split
    · exact .pfRecord hs
    next t x e => exact ih (.modCore (OkAll.of_eq (P := fun r : State × RotLine => r.1.Inv) (State.readRotLine_inv hs) e))

theorem execRotpre_inv {n : CoreNo} {sa : SReg} {imm : W32} {len : BitVec 21} {s : State} (hs : s.Inv) :
    NextInv (execRotpre n sa imm len s) := by
  unfold execRotpre
  refine .next ?_
  refine .issue hs (fun s hs => ?_)
  extract_lets +onlyGivenNames c a
  refine .ite (.coreFault hs) ?_
  refine .ite (.coreFault hs) ?_
  split
  · exact .coreFault hs
  · exact .endXfer hs (State.rotFillAll_inv hs)

theorem State.Inv.pollFlag {s : State} {n : CoreNo} {addr : ℕ} {ge : Bool} {value : W64} (hs : s.Inv) :
    (s.pollFlag n addr ge value).Inv := by
  unfold State.pollFlag
  split
  · exact .coreFault hs
  · extract_lets +onlyGivenNames q
    split
    · exact .coreFault (.pfRecord hs)
    · exact .ite (.coreFault (.touch (.readPath hs))) (.ite (.endWait (.retire (.touch (.readPath hs)))) (.ite (.touch (.readPath hs))
        (.beginWait (.touch (.readPath hs)))))

theorem execWaitflag_inv {n : CoreNo} {sa sb : SReg} {imm : W32} {ge : Bool} {s : State} (hs : s.Inv) :
    NextInv (execWaitflag n sa sb imm ge s) :=
  .next (.issue hs (fun _ hs => .ite (.coreFault hs) (.ite (.coreFault hs) (.pollFlag hs))))

theorem execWaitflagPoll_inv {n : CoreNo} {s : State} (hs : s.Inv) : NextInv (execWaitflagPoll n s) := by
  unfold execWaitflagPoll
  refine .next ?_
  split
  · exact .pollFlag hs
  · exact hs

theorem execSetflag_inv {n : CoreNo} {sa sb : SReg} {imm : W32} {s : State} (hs : s.Inv) : NextInv (execSetflag n sa sb imm s) := by
  unfold execSetflag
  refine .next ?_
  refine .issue hs (fun s hs => ?_)
  extract_lets +onlyGivenNames c a
  refine .ite (.coreFault hs) ?_
  refine .ite (.coreFault hs) ?_
  refine .ite hs ?_
  extract_lets +onlyGivenNames q
  split
  · exact .coreFault (.pfRecord hs)
  · split
    next e e =>
      exact .coreFault hs
    next s1 e =>
      have hs1 : State.Inv s1 := OkAll.of_eq (P := State.Inv)  (State.coreStore_inv (.writePath hs)) e
      exact .endXfer hs1 hs1

end Sys2Proof.Machine
end

section
/-! SUPPORT. The operations of Sys2Proof/Machine/MatrixOps.lean keep the invariant. -/

namespace Sys2Proof.Machine

theorem State.Inv.withRot {s : State} {n : CoreNo} {lines : List ℕ} {body : State → State} (hs : s.Inv) (hbody : ∀ x0, x0.Inv →
    (body x0).Inv) :
    (s.withRot n lines body).Inv :=
  .ite (.countCore (.modCore hs)) (.modCore (hbody _ hs))

end Sys2Proof.Machine
end

section
/-! SUPPORT. The operations of Sys2Proof/Machine/Matrix.lean keep the invariant. -/

namespace Sys2Proof.Machine

theorem State.Inv.finishMat {s : State} {n : CoreNo} {r : MatRun × Option CoreErr} (hs : s.Inv) : (s.finishMat n r).Inv := by
  unfold State.finishMat
  extract_lets +onlyGivenNames s1
  have hs1 : s1.Inv := .countCore (.setCore hs)
  split
  · exact .coreFault hs1
  · exact .retire hs1

theorem execMma_inv {n : CoreNo} {d : DescArg} {s : State} (hs : s.Inv) : NextInv (execMma n d s) := by
  unfold execMma
  refine .next ?_
  refine .issue hs (fun s hs => ?_)
  extract_lets +onlyGivenNames c
  split
  · exact .coreFault hs
  · split
    · exact .coreFault hs
    · exact .withRot hs (fun _ hs => .ite (.finishMat hs) (.countCore (.countCore (.finishMat hs))))

theorem execEpi_inv {n : CoreNo} {d : DescArg} {s : State} (hs : s.Inv) : NextInv (execEpi n d s) := by
  unfold execEpi
  refine .next ?_
  refine .issue hs (fun s hs => ?_)
  extract_lets +onlyGivenNames c
  split
  · exact .coreFault hs
  · split
    · exact .coreFault hs
    · exact .finishMat hs

theorem execZero_inv {n : CoreNo} {slots : Byte} {s : State} (hs : s.Inv) : NextInv (execZero n slots s) :=
  .next (.issue hs (fun _ hs => .finishCore hs))

theorem execChain_inv {n : CoreNo} {d : DescArg} {s : State} (hs : s.Inv) : NextInv (execChain n d s) := by
  unfold execChain
  refine .next ?_
  refine .issue hs (fun s hs => ?_)
  extract_lets +onlyGivenNames c
  split
  · exact .coreFault hs
  · refine .ite (.coreFault hs) ?_
    refine .ite (.coreFault hs) ?_
    split
    · exact .coreFault hs
    · split
      · exact .coreFault hs
      · exact .withRot hs (fun _ hs => .countCore (.countCore (.finishMat hs)))

end Sys2Proof.Machine
end

section
/-! SUPPORT. The operations of Sys2Proof/Machine/Attention.lean keep the invariant. -/

namespace Sys2Proof.Machine

theorem State.Inv.finishAttn {s : State} {n : CoreNo} {r : AttnRun × Option CoreErr} (hs : s.Inv) : (s.finishAttn n r).Inv := by
  unfold State.finishAttn
  extract_lets +onlyGivenNames s1 s2
  have hs1 : s1.Inv := .countCore (.countCore (.setCore hs))
  have hs2 : s2.Inv := .countCore (.countCore (.countCore hs1))
  split
  · exact .coreFault hs2
  · exact .retire hs2

theorem State.Inv.withDesc {s : State} {n : CoreNo} {d : DescArg} {len : ℕ} {body : ℕ → List Byte → State} (hs : s.Inv) (hbody : ∀ x0 x1,
    (body x0 x1).Inv) :
    (s.withDesc n d len body).Inv := by
  unfold State.withDesc
  extract_lets +onlyGivenNames c
  split
  · exact .coreFault hs
  · exact .ite (.coreFault hs) (.ite (.coreFault hs) (hbody _ _))

theorem State.Inv.attnForward {s : State} {n : CoreNo} {d : DescArg} {dec : Bool} (hs : s.Inv) : (s.attnForward n d dec).Inv :=
  .withDesc hs (fun _ _ => .ite (.coreFault hs) (.withRot hs (fun _ hs => .finishAttn hs)))

theorem execAttnFwd_inv {n : CoreNo} {d : DescArg} {s : State} (hs : s.Inv) : NextInv (execAttnFwd n d s) :=
  .next (.issue hs (fun _ hs => .attnForward hs))

theorem execAttnDec_inv {n : CoreNo} {d : DescArg} {s : State} (hs : s.Inv) : NextInv (execAttnDec n d s) :=
  .next (.issue hs (fun _ hs => .attnForward hs))

theorem execAttnBwd_inv {n : CoreNo} {d : DescArg} {s : State} (hs : s.Inv) : NextInv (execAttnBwd n d s) :=
  .next (.issue hs (fun _ hs => .withDesc hs (fun _ _ => .ite (.coreFault hs) (.withRot hs (fun _ hs => .finishAttn hs)))))

theorem execAttnMerge_inv {n : CoreNo} {d : DescArg} {s : State} (hs : s.Inv) : NextInv (execAttnMerge n d s) :=
  .next (.issue hs (fun _ hs => .withDesc hs (fun _ _ => .finishAttn hs)))

end Sys2Proof.Machine
end

section
/-! SUPPORT. The operations of Sys2Proof/Machine/MoveOps.lean keep the invariant. -/

namespace Sys2Proof.Machine

theorem FX.Inv.writeUa {x : FX} {ua : ℕ} {bs : List Byte} {bad : ℕ → Bool} (hx : x.Inv) : (x.writeUa ua bs bad).Inv := .write hx

theorem FX.Inv.writeOwn {x : FX} {ua : ℕ} {bs : List Byte} (hx : x.Inv) : (x.writeOwn ua bs).Inv := .writeUa hx

theorem FX.dvRead_inv {x : FX} {p : PartNo} {master addr n : ℕ} (hx : x.Inv) :
    OkAll (fun r => FX.Inv (Prod.fst r)) (x.dvRead p master addr n) :=
  .map' (fun _ => .mk (.touchVa hx))

theorem FX.alloc_inv {x : FX} {p : PartNo} {tier mask : ℕ} {b tbl wt : Bool} (hx : x.Inv) :
    OkAll (fun r => FX.Inv (Prod.fst r)) (x.alloc p tier mask b tbl wt) := by
  unfold FX.alloc
  refine .ite .error ?_
  split
  next z e =>
    exact .error
  next f s1 e =>
    have hs1 : State.Inv s1 := SomeAll.of_eq (P := (fun r => State.Inv (Prod.snd r)))  (State.allocOne_inv hx) e
    exact .ite .error (.ite (.ok (.addFrame hs1)) .error)

theorem FX.nextOrNew_inv {x : FX} {q : WalkReq} {a level : ℕ} (hx : x.Inv) :
    OkAll (fun r => FX.Inv (Prod.fst r)) (x.nextOrNew q a level) := by
  unfold FX.nextOrNew
  extract_lets +onlyGivenNames r
  refine .ite .error ?_
  split
  · exact .error
  · split
    next e e =>
      exact .error
    next y f e =>
      have hy : FX.Inv y := OkAll.of_eq (P := (fun r => FX.Inv (Prod.fst r)))  (FX.alloc_inv hx) e
      exact .ok (.entry (.mk (.zeroFrame hy)))
  · exact .ok hx

theorem FX.entryNew_inv {x : FX} {q : WalkReq} {root addr : ℕ} (hx : x.Inv) :
    OkAll (fun r => FX.Inv (Prod.fst r)) (x.entryNew q root addr) := by
  unfold FX.entryNew
  extract_lets +onlyGivenNames qa
  split
  next e e =>
    exact .error
  next y t2 e =>
    have hy : FX.Inv y := OkAll.of_eq (P := (fun r => FX.Inv (Prod.fst r)))  (FX.nextOrNew_inv hx) e
    split
    next e e =>
      exact .error
    next z t3 e =>
      have hz : FX.Inv z := OkAll.of_eq (P := (fun r => FX.Inv (Prod.fst r)))  (FX.nextOrNew_inv hy) e
      exact .ok hz

theorem FX.Inv.setRefs {x : FX} {f n : ℕ} (hx : x.Inv) : (x.setRefs f n).Inv := .mk (.setFrame hx)

theorem FX.Inv.moveFrame {x : FX} {old nf tier : ℕ} {uas : List ℕ} {copy : Bool} (hx : x.Inv) : (x.moveFrame old nf tier uas copy).Inv :=
  .mk (FX.Inv.s (.foldl (fun _ _ hy => .delta (.entryFree hy)) (.setRefs (.ite (.mk (.copyFrame (.touchFrame (FX.Inv.s (.intent hx)))))
    (.mk (.touchFrame (FX.Inv.s (.intent hx))))))))

theorem State.failOrder_inv {p : PartNo} {e : OrdErr} : ∀ {s : State}, s.Inv → (s.failOrder p e).1.Inv := by
  induction e with
  | read q n e ih => exact fun hs => ih (.touchVa hs)
  | at_ a b e ih => exact fun hs => ih hs
  | code c d => exact fun hs => hs
  | detail c d => exact fun hs => hs
  | fault f => exact fun hs => .pfRecord hs
  | poisoned ua => exact fun hs => .tablePoison hs
  | reject sc m => exact fun hs => hs
  | spill t => exact fun hs => hs
  | uninit => exact fun hs => hs

theorem FX.Inv.count {x : FX} {m : MDie} {ev inc : ℕ} (hx : x.Inv) : (x.count m ev inc).Inv := .mk (.countDie hx)

end Sys2Proof.Machine
end

section
/-! SUPPORT. The operations of Sys2Proof/Machine/CodexOps.lean keep the invariant. -/

namespace Sys2Proof.Machine

theorem FX.Inv.setIx {x : FX} {y : Ix} {a n v : ℕ} (hx : x.Inv) : (x.setIx y a n v).Inv := .writeOwn hx

theorem FX.areaWrite_inv {x : FX} {p : PartNo} {addr : ℕ} {bs : List Byte} {bad : ℕ → Bool} (hx : x.Inv) :
    OkAll FX.Inv (x.areaWrite p addr bs bad) := by
  unfold FX.areaWrite
  split
  · exact .error
  · exact .ok (.write hx)

theorem FX.stamp_inv {x : FX} {p : PartNo} {addr : ℕ} (hx : x.Inv) : OkAll FX.Inv (x.stamp p addr) := by
  unfold FX.stamp
  split
  · exact .error
  · split
    next e e =>
      exact .error
    next y e =>
      have hy : FX.Inv y := OkAll.of_eq (P := FX.Inv)  (FX.areaWrite_inv hx) e
      exact .ok hy

theorem State.freeGlyph_inv {s : State} (hs : s.Inv) : (s.freeGlyph).2.Inv := hs

theorem State.glyphOfRows_inv {s : State} {seed dim : ℕ} {rows : List (List Val)} (hs : s.Inv) : (s.glyphOfRows seed dim rows).2.Inv := by
  unfold State.glyphOfRows
  split
  · exact hs
  · exact State.freeGlyph_inv hs

theorem FX.putNode_inv {x : FX} {p : PartNo} {y : Ix} {r : NodeRec} (hx : x.Inv) : OkAll FX.Inv (x.putNode p y r) := FX.areaWrite_inv hx

theorem FX.insertItem_inv {x : FX} {p : PartNo} {y0 : Ix} {g : ℕ} {it : NewItem} (hx : x.Inv) :
    OkAll (fun r => FX.Inv (Prod.fst r)) (x.insertItem p y0 g it) := by
  unfold FX.insertItem
  extract_lets +onlyGivenNames y
  refine .bind' (fun sub => ?_)
  extract_lets +onlyGivenNames live
  refine .bind' (fun found => ?_)
  extract_lets +onlyGivenNames ents me
  refine .bind (P := (fun r => FX.Inv (Prod.fst r))) ?_ (fun x1 hx1 => ?_)
  · refine .foldlM (P := (fun r => FX.Inv (Prod.fst r))) (fun a e ha => ?_) _ hx
    refine .bind' (fun nd => ?_)
    extract_lets +onlyGivenNames w
    split
    · exact .pure ha
    · split
      · exact .pure ha
      · exact .bind (FX.putNode_inv ha) (fun _ hz => .pure hz)
  · exact .bind (FX.putNode_inv hx1) (fun _ hx2 => .bind (FX.areaWrite_inv hx2) (fun _ hx3 => .bind (FX.areaWrite_inv hx3) (fun _ hx4 =>
      .bind (FX.stamp_inv hx4) (fun _ hx5 => .bind (FX.areaWrite_inv hx5) (fun _ hx6 => .bind (FX.areaWrite_inv hx6) (fun _ hx7 => .pure
      (.count (.setIx hx7))))))))

theorem FX.freshGroup_inv {x : FX} {p : PartNo} {y0 : Ix} (hx : x.Inv) :
    OkAll (fun r => ∀ z ∈ r, FX.Inv z.1) (x.freshGroup p y0) := by
  unfold FX.freshGroup
  refine .ite (.bind' (fun ge => .ok ?_)) (.ite (.ok ?_) (.ok ?_))
  · rintro z ⟨⟩
    exact .setIx hx
  · rintro z ⟨⟩
    exact .setIx hx
  · rintro z ⟨⟩

theorem FX.linkGroup_inv {x : FX} {p : PartNo} {y : Ix} {g m : ℕ} {live : Bool} {pos : ℕ} {kexp vexp : ℤ} {fill : ℕ} (hx : x.Inv) :
    OkAll FX.Inv (x.linkGroup p y g m live pos kexp vexp fill) :=
  .bind' (fun _ => .bind (FX.areaWrite_inv hx) (fun _ hx1 => .ite (.bind (FX.areaWrite_inv hx1) (fun _ hx2 => .bind (FX.areaWrite_inv hx2)
    (fun _ hx3 => FX.areaWrite_inv hx3))) (.bind (.pure hx1) (fun _ hx2 => .bind (FX.areaWrite_inv hx2)
    (fun _ hx3 => FX.areaWrite_inv hx3)))))

theorem FX.deleteItem_inv {x : FX} {p : PartNo} {y0 : Ix} {id : ℕ} (hx : x.Inv) :
    OkAll (fun r => FX.Inv (Prod.fst r)) (x.deleteItem p y0 id) := by
  unfold FX.deleteItem
  extract_lets +onlyGivenNames y n
  refine .ite (.pure hx) ?_
  refine .bind' (fun sb => ?_)
  extract_lets +onlyGivenNames fl
  refine .ite (.pure hx) ?_
  refine .bind' (fun nd => ?_)
  refine .bind (FX.areaWrite_inv hx) (fun x1 hx1 => ?_)
  refine .bind (FX.stamp_inv hx1) (fun x2 hx2 => ?_)
  refine .bind (P := (fun r => FX.Inv (Prod.fst r))) ?_ (fun x5 hx5 => ?_)
  · split
    · exact .pure hx2
    · refine .bind (FX.putNode_inv hx2) (fun x3 hx3 => ?_)
      refine .bind (P := (fun r => FX.Inv (Prod.fst r))) ?_ (fun x4 hx4 => ?_)
      · refine .foldlM (P := (fun r => FX.Inv (Prod.fst r))) (fun a e ha => ?_) _ hx3
        refine .bind' (fun ne => ?_)
        split
        · exact .pure ha
        · exact .bind (FX.putNode_inv ha) (fun _ hz1 => .pure (.ite hz1 hz1))
      · exact .bind' (fun _ => .bind (FX.areaWrite_inv hx4) (fun _ hx6 => .pure hx6))
  · exact .pure (.setIx (.setIx hx5))

theorem FX.repairNode_inv {x : FX} {p : PartNo} {y : Ix} {r : NodeRec} (hx : x.Inv) : OkAll FX.Inv (x.repairNode p y r) :=
  .bind' (fun _ => .bind' (fun _ => .bind' (fun _ => FX.putNode_inv hx)))

end Sys2Proof.Machine
end

section
/-! SUPPORT. The operations of Sys2Proof/Machine/CacheOps.lean keep the invariant. -/

namespace Sys2Proof.Machine

theorem FX.Inv.putNote {x : FX} {ua : ℕ} {n : Note} (hx : x.Inv) : (x.putNote ua n).Inv := .writeUa hx

theorem FX.mapCtx_inv {x : FX} {p : PartNo} {c : Ctx} {off f : ℕ} {writable : Bool} (hx : x.Inv) :
    OkAll FX.Inv (x.mapCtx p c off f writable) :=
  .bind (FX.entryNew_inv hx) (fun _ hr => .pure (.entry (.setRefs hr)))

theorem FX.noteNew_inv {x : FX} {p : PartNo} {c : Ctx} {st slot : ℕ} (hx : x.Inv) :
    OkAll (fun r => FX.Inv (Prod.fst r)) (x.noteNew p c st slot) := by
  unfold FX.noteNew
  refine .bind' (fun a => ?_)
  split
  · exact .pure hx
  · exact .bind (FX.alloc_inv hx) (fun _ hr => .bind (FX.mapCtx_inv (.mk (.zeroFrame hr))) (fun _ hy => .pure hy))

theorem State.Inv.fillFrame {s : State} {f : ℕ} {bs : List Byte} {bad : List ℕ} (hs : s.Inv) : (s.fillFrame f bs bad).Inv := by
  refine hs.of_mem (State.fillFrame_wf hs.1 f bs bad) ?_
  exact foldl_keeps State.fol _ (fun t g => State.poisonGran_fol t _) _ _

theorem State.evict_inv {s : State} {p : PartNo} {c : SpillCand} (hs : s.Inv) : (s.evict p c).1.Inv :=
  .ite_fst (.countApprox (.countDie (FX.finish_inv (.putNote (.foldl (fun _ _ hx => .delta (.entryFree (.intent hx))) (.fresh hs))))))
    (FX.finish_inv (.putNote (.foldl (fun _ _ hx => .delta (.entryFree (.intent hx))) (.fresh hs))))

theorem FX.spansToItems_inv {x : FX} {p : PartNo} {y0 : Ix} {c : SpillCand} {bs : List Byte} {bad : List ℕ} (hx : x.Inv) :
    OkAll FX.Inv (x.spansToItems p y0 c bs bad) := by
  unfold FX.spansToItems
  dsimp only
  refine .bind' (fun sub => .ite .error ?_)
  refine .bind (FX.freshGroup_inv hx) (fun fg hfg => ?_)
  split
  · exact .error
  next y m =>
    have hy : FX.Inv y := hfg _ rfl
    refine .bind (FX.linkGroup_inv hy) (fun z hz => ?_)
    refine .bind (P := FX.Inv) (.foldlM (fun w i hw => ?_) _ hz) (fun w hw => .ok (.putNote hw))
    exact .bind' (fun rows => .bind (FX.insertItem_inv (.mk (State.glyphOfRows_inv hw))) (fun r hr => .ok hr))

end Sys2Proof.Machine
end

section
/-! SUPPORT. The operations of Sys2Proof/Machine/MoveEngine.lean keep the invariant. -/

namespace Sys2Proof.Machine

theorem State.Inv.modBatch {s : State} {p : PartNo} {tier : ℕ} {g : SpillBatch → SpillBatch} (hs : s.Inv) : (s.modBatch p tier g).Inv :=
  .modMem hs

theorem State.Inv.skipSpill {s : State} {p : PartNo} (hs : s.Inv) : (s.skipSpill p).Inv :=
  .ite (.countDie hs) (.report (.modMem (.countDie hs)))

theorem State.startSpill_inv {s : State} {p : PartNo} {tier : ℕ} (hs : s.Inv) : SomeAll State.Inv (s.startSpill p tier) := by
  unfold State.startSpill
  extract_lets cs n lt ev sp r b0 s1
  have hr : r.1.Inv := by
    refine foldl_inv (fun a : State × ℕ => a.1.Inv) (fun a c ha => ?_) _ hs
    dsimp only
    exact State.evict_inv ha
  have hs1 : s1.Inv := .modMem hr
  exact .ite .none (.some (.foldl (fun t c ht => .ite (.skipSpill ht) (.modBatch (.modMem ht))) hs1))

theorem State.Inv.recordRuling {s : State} {p : PartNo} {code idx layer : ℕ} (hs : s.Inv) : (s.recordRuling p code idx layer).Inv :=
  .report hs

theorem State.Inv.setStatus {s : State} {p : PartNo} {addr v : ℕ} (hs : s.Inv) : (s.setStatus p addr v).Inv := .ite hs (.dvWrite hs)

theorem State.Inv.endEntry {s : State} {p : PartNo} {idx v : ℕ} (hs : s.Inv) : (s.endEntry p idx v).Inv := by
  unfold State.endEntry
  split
  · exact hs
  · exact .setStatus (.modMem (.modRuling hs))

theorem State.Inv.moveEnded {s : State} {owner : MigOwner} {pages : ℕ} {ok : Bool} (hs : s.Inv) : (s.moveEnded owner pages ok).Inv := by
  unfold State.moveEnded
  split
  · exact hs
  · exact .modBatch hs
  · refine .ite (.endEntry hs) ?_
    extract_lets +onlyGivenNames s1
    have hs1 : s1.Inv := .modRuling hs
    split
    · exact .ite (.endEntry hs1) hs1
    · exact hs1

theorem State.Inv.advanceMove {s : State} {i : ℕ} (hs : s.Inv) : (s.advanceMove i).Inv := .modMem hs

/-- A look at a move that begins one, or fails it, keeps the invariant. -/
inductive Issue.Inv : Issue → Prop
  | started {t : State} (h : t.Inv) : Issue.Inv (.started t)
  | failed {t : State} (h : t.Inv) : Issue.Inv (.failed t)
  | resident : Issue.Inv .resident
  | busy : Issue.Inv .busy
  | spill {tier : ℕ} : Issue.Inv (.spill tier)

theorem Issue.Inv.ite {c : Prop} [Decidable c] {a b : Issue} (ha : Issue.Inv a) (hb : Issue.Inv b) : Issue.Inv (if c then a else b) := by
  split
  · exact ha
  · exact hb

theorem State.allocAll_inv {s : State} {m : Move} {fs : List ℕ} {x : FX} (hx : x.Inv) :
    OkAll (fun r : FX × List ℕ => r.1.Inv) (fs.foldlM (fun (a : FX × List Nat) f =>
      (a.1.alloc m.part m.tier 0 (s.frame f).classB false (s.frame f).weight).map (fun r => (r.1, a.2 ++ [r.2]))) (x, [])) :=
  .foldlM (P := fun r : FX × List ℕ => r.1.Inv) (fun _ _ ha => .map (FX.alloc_inv ha) (fun _ hr => hr)) _ hx

theorem State.issueMove_inv {s : State} {m : Move} (hs : s.Inv) : Issue.Inv (s.issueMove m) := by
  have hx : FX.Inv (FX.fresh s m.part true) := .fresh hs
  have hmg {t : State} {l : List Migration} (ht : t.Inv) : (t.modMem (fun mm => { mm with migrations := mm.migrations ++ l })).Inv :=
    .modMem ht
  unfold State.issueMove
  extract_lets +onlyGivenNames x
  split
  · exact .failed (.reportPF hs)
  · exact .failed (State.failOrder_inv hs)
  · extract_lets +onlyGivenNames fs kind
    have halloc := State.allocAll_inv (s := s) (m := m) (fs := fs) hx
    refine .ite .resident (.ite .busy ?_)
    split
    · exact .failed (.report hs)
    extract_lets +onlyGivenNames mg
    clear_value kind
    rcases kind with - | c <;> dsimp only
    · split
      · exact .failed hs
      · split
        · exact .spill
        · exact .busy
        · exact .failed (State.failOrder_inv hs)
        next y nf e => exact .ite .busy (.started (hmg (t := y.s) (halloc.of_eq e)))
    · refine .ite (.started (hmg hs)) ?_
      split
      · exact .spill
      · exact .busy
      · exact .failed (State.failOrder_inv hs)
      next y nf e => exact .ite .busy (.started (hmg (t := y.s) (halloc.of_eq e)))

theorem State.tryMove_inv {s : State} {i : ℕ} (hs : s.Inv) : SomeAll State.Inv (s.tryMove i) := by
  unfold State.tryMove
  split
  · exact .none
  next m _ =>
    have hm := State.issueMove_inv (m := m) hs
    generalize s.issueMove m = r at hm
    cases hm with
    | started h => exact .some (.advanceMove h)
    | resident => exact .some (.moveEnded (.advanceMove hs))
    | failed h => exact .some (.moveEnded (.advanceMove h))
    | busy => exact .none
    | spill =>
      refine .ite .none (.ite (.some (.moveEnded (.advanceMove hs))) ?_)
      split
      · exact .some (.moveEnded (.advanceMove hs))
      next s1 e =>
        have h1 : s1.Inv := (State.startSpill_inv hs).of_eq e
        exact .some (.modMem h1)

theorem State.Inv.pumpN {n : ℕ} : ∀ {s : State}, s.Inv → (s.pumpN n).Inv := by
  induction n with
  | zero => exact fun hs => hs
  | succ n ih =>
    intro s hs
    unfold State.pumpN
    split
    · exact hs
    next t e => exact ih ((SomeAll.findSome? (fun i => State.tryMove_inv hs) _).of_eq e)

theorem State.Inv.pump {s : State} (hs : s.Inv) : s.pump.Inv := State.Inv.pumpN hs

theorem State.Inv.quotaCheck {s : State} {p : PartNo} {tier : ℕ} (hs : s.Inv) : (s.quotaCheck p tier).Inv := by
  unfold State.quotaCheck
  refine .ite hs ?_
  extract_lets +onlyGivenNames nb s1
  have hs1 : s1.Inv := .report (.setDict hs)
  refine .ite ?_ hs1
  split
  next z e =>
    exact hs1
  next s2 e =>
    have hs2 : State.Inv s2 := SomeAll.of_eq (P := State.Inv)  (State.startSpill_inv hs1) e
    exact .pump hs2

theorem State.Inv.quotaChecks {s : State} {p : PartNo} (hs : s.Inv) : (s.quotaChecks p).Inv := .foldl (fun _ _ ht => .quotaCheck ht) hs

theorem FX.movePage_inv {x : FX} {p : PartNo} {sp : Space} {page src dst tier : ℕ} {mxOut : Bool} (hx : x.Inv) :
    OkAll (fun r => FX.Inv (Prod.fst r)) (x.movePage p sp page src dst tier mxOut) := by
  unfold FX.movePage
  refine .bind' (fun e => ?_)
  refine .ite .error ?_
  extract_lets +onlyGivenNames y
  have hy : y.Inv := .addFrame hx
  split
  · exact .ite (.pure (.mk (.fillFrame (FX.Inv.s (.moveFrame hy))))) (.ite (.pure (.mk (.fillFrame (FX.Inv.s (.moveFrame hy))))) (.pure
      (.moveFrame hy)))
  · exact .pure (.moveFrame hy)

theorem FX.noteMx_inv {x : FX} {p : PartNo} {sp : Space} {page : ℕ} {mxOut conv : Bool} (hx : x.Inv) :
    OkAll FX.Inv (x.noteMx p sp page mxOut conv) := by
  unfold FX.noteMx
  split
  · exact .ok hx
  · exact .ite (.ok (.putNote hx)) (.ite (.ok hx) (.bind' (fun _ => .pure (.ite hx (.putNote hx)))))

theorem FX.codexSpill_inv {x : FX} {p : PartNo} {y : Ix} {c : SpillCand} (hx : x.Inv) : OkAll FX.Inv (x.codexSpill p y c) :=
  .bind (FX.spansToItems_inv (.mk (.foldl (fun _ _ ht => .touchFrame ht) hx))) (fun _ hx1 => .pure (.foldl (fun _ _ hz => .delta
    (.entryFree (.intent hz))) hx1))

theorem FX.migrate_inv {x : FX} {p : PartNo} {sp : Space} {page tier : ℕ} {mx : Bool} {l : List ((ℕ × ℕ) × ℕ)} (hx : x.Inv) :
   OkAll (fun r : FX × Bool => r.1.Inv) (do
        let r ← l.foldlM (fun (a : FX × Bool) f => do
          let q ← a.1.movePage p sp (page + f.2) f.1.1 f.1.2 tier mx
          pure (q.1, a.2 || q.2)) (x, false)
        let z ← r.1.noteMx p sp page mx r.2
        pure (z, r.2)) := by
  refine .bind (P := fun r : FX × Bool => r.1.Inv) ?_ (fun r hr => .bind (FX.noteMx_inv hr) (fun z hz => .pure hz))
  refine .foldlM (P := fun r : FX × Bool => r.1.Inv) (fun a f ha => ?_) l (a := (x, false)) hx
  exact .bind (FX.movePage_inv ha) (fun q hq => .pure hq)

theorem State.migrationFolio_inv {s : State} {g : Migration} (hs : s.Inv) : OkAll (fun r : FX × Bool => r.1.Inv) (s.migrationFolio g) := by
  have hx : FX.Inv (FX.fresh s g.part true) := .fresh hs
  unfold State.migrationFolio
  extract_lets +onlyGivenNames x
  split
  · extract_lets c?
    clear_value c?
    cases c?
    case none => exact .error
    case some c =>
    refine .ite ?_ (FX.migrate_inv hx)
    split
    · exact .error
    · exact .bind (FX.codexSpill_inv hx) (fun r hr => .pure hr)
  · exact FX.migrate_inv hx

theorem State.Inv.giveBack {s : State} {g : Migration} (hs : s.Inv) : (s.giveBack g).Inv :=
  .foldl (fun _ _ ht => .ite ht (.freeFrame ht)) hs

theorem State.Inv.releaseMig {s : State} {g : Migration} (hs : s.Inv) : (s.releaseMig g).Inv := .release hs

theorem State.Inv.completeMigration {s : State} {i : ℕ} (hs : s.Inv) : (s.completeMigration i).Inv := by
  unfold State.completeMigration
  split
  · exact hs
  · extract_lets +onlyGivenNames s0
    have hs0 : s0.Inv := .modMem hs
    split
    next f e =>
      exact .pump (.moveEnded (.reportPF (.releaseMig (.giveBack hs0))))
    next e e =>
      exact .pump (.moveEnded (.releaseMig (.giveBack (State.failOrder_inv hs0))))
    next x conv e =>
      have hx : FX.Inv x := OkAll.of_eq (P := (fun r => FX.Inv (Prod.fst r)))  (State.migrationFolio_inv hs0) e
      extract_lets +onlyGivenNames r ok m ev s1 s2 s3
      have hr : r.1.Inv := FX.finish_inv hx
      have hev : ∀ x0 x1, x0.Inv → (ev x0 x1).Inv := fun _ _ ht => .countDie ht
      have hs1 : s1.Inv := .ite (hev _ _ hr) (.releaseMig hr)
      have hs2 : s2.Inv := .ite (.countApprox (hev _ _ hs1)) hs1
      have hs3 : s3.Inv := by
        dsimp only [s3]
        split
        · exact .ite (hev _ _ hs2) hs2
        · exact .ite (hev _ _ hs2) hs2
        · exact hs2
      exact .pump (.moveEnded hs3)

theorem State.Inv.failProgram {s : State} {i : ℕ} (hs : s.Inv) : (s.failProgram i).Inv := by
  unfold State.failProgram
  split
  · exact hs
  · split
    · exact hs
    · extract_lets +onlyGivenNames fe s1 drop
      have hs1 : s1.Inv := .retireFrame hs
      have hdrop : ∀ x0, x0.Inv → (drop x0).Inv := fun _ ht => .quotaCheck (.pump (.moveEnded (.releaseMig (.giveBack (.modMem ht)))))
      refine .ite (hdrop _ hs1) ?_
      split
      next a e =>
        exact hdrop _ hs1
      next x nf e =>
        have hx : FX.Inv x := OkAll.of_eq (P := (fun r => FX.Inv (Prod.fst r)))  (FX.alloc_inv (.fresh hs1)) e
        exact .quotaCheck (.modMem hx)

theorem State.Inv.skipEntry {s : State} {p : PartNo} {idx layer status : ℕ} (hs : s.Inv) : (s.skipEntry p idx layer status).Inv :=
  .setStatus (.modPreg (.recordRuling hs))

theorem State.Inv.noteFallback {s : State} {p : PartNo} (hs : s.Inv) : (s.noteFallback p).Inv := .modPreg (.countApprox (.countDie hs))

theorem State.Inv.noteMiss {s : State} {p : PartNo} {idx layer : ℕ} (hs : s.Inv) : (s.noteMiss p idx layer).Inv :=
  .ite (.modPreg hs) (.recordRuling (.modRuling (.countDie (.modPreg hs))))

theorem State.moveElem_inv {s : State} {p : PartNo} {sp : Space} {src dst n : ℕ} {out : Bool} (hs : s.Inv) :
    (s.moveElem p sp src dst n out).1.Inv := by
  unfold State.moveElem
  extract_lets +onlyGivenNames m rq as3
  split
  · exact hs
  · extract_lets +onlyGivenNames t bads
    have ht : t.Inv := .touchVa hs
    split
    · exact ht
    · exact .ite_fst ht (.plainWrite ht)

/-- One element of a stream moves, or fails with its report. -/
theorem State.runStream_inv {s : State} {p : PartNo} {b : List Byte} (hs : s.Inv) : (s.runStream p b).1.Inv := by
  unfold State.runStream
  extract_lets +onlyGivenNames m fl out n fail qd
  have hfail {t : State} {e : PFault} (ht : t.Inv) : (fail t e).1.Inv := .reportPF ht
  split
  · exact hfail hs
  · exact hfail hs
  · extract_lets +onlyGivenNames s0
    have h0 : s0.Inv := .touchVa (.touchVa hs)
    refine foldl_inv (fun r : State × Bool => r.1.Inv) (fun a i ha => .ite_fst ha ?_) _ h0
    extract_lets there here
    split
    next t e h => exact hfail (of_fst h (State.moveElem_inv ha))
    next t h => exact of_fst h (State.moveElem_inv ha)

theorem State.Inv.startEntry {s : State} {p : PartNo} {idx : ℕ} {b : List Byte} (hs : s.Inv) : (s.startEntry p idx b).Inv :=
  .ite (.modMem (.modRuling (.ite (.ite (.modPreg hs) (.modRuling (.recordRuling (.modPreg hs)))) hs))) (.ite (.skipEntry (.ite (.ite
    (.modPreg hs) (.modRuling (.recordRuling (.modPreg hs)))) hs)) (.ite (.setStatus (.noteFallback (.ite (.ite (.modPreg hs) (.modRuling
    (.recordRuling (.modPreg hs)))) hs))) (.setStatus (State.runStream_inv (.ite (.noteMiss (.ite (.ite (.modPreg hs) (.modRuling
    (.recordRuling (.modPreg hs)))) hs)) (.ite (.ite (.modPreg hs) (.modRuling (.recordRuling (.modPreg hs)))) hs))))))

theorem State.Inv.startEntries {p : PartNo} {cur : W32} {n : ℕ} : ∀ {s : State}, s.Inv → (s.startEntries p cur n).Inv := by
  induction n with
  | zero => exact fun hs => hs
  | succ n ih =>
    intro s hs
    unfold State.startEntries
    extract_lets +onlyGivenNames r g
    refine .ite hs ?_
    split
    · exact .reportPF hs
    · extract_lets +onlyGivenNames layer idx go
      have hgo {t : State} {k : Bool} (ht : t.Inv) : (go t k).Inv := ih (.modRuling (.ite (.modRuling ht) ht))
      exact .ite (hgo (.skipEntry hs)) (.ite (hgo (.skipEntry hs)) (.ite hs (hgo (.startEntry hs))))

end Sys2Proof.Machine
end

section
/-! SUPPORT. The operations of Sys2Proof/Machine/OrderOps.lean keep the invariant. -/

namespace Sys2Proof.Machine

theorem State.orderFolio_inv {s : State} {p : PartNo} {join : Bool} {handle : W64} {tolerant : Bool} (hs : s.Inv) :
    OkAll FX.Inv (s.orderFolio p join handle tolerant) :=
  .ite (.ite (.ok (.ofSlot hs)) .error) (.ok (.fresh hs))

theorem FX.memMap_inv {x : FX} {j : Job} {root : ℕ} (hx : x.Inv) : OkAll (fun r : FX × MemRes => r.1.Inv) (x.memMap j root) := by
  unfold FX.memMap
  extract_lets +onlyGivenNames fl b wt tier n
  refine .bind' (fun es => .ite .error (.ite .error (.ite .error ?_)))
  refine .bind (P := FX.Inv) (.foldlM (fun z g hz => ?_) _ hx) (fun y hy => .pure hy)
  refine .bind (P := fun r : FX × ℕ => r.1.Inv) (FX.alloc_inv hz) (fun r hr => ?_)
  extract_lets +onlyGivenNames src z1
  have h1 : z1.Inv := .ite (.mk (.zeroFrame hr)) hr
  exact .bind (FX.entryNew_inv h1) (fun e he => .pure (.entry (.setRefs he)))

theorem FX.memEach_inv {x : FX} {j : Job} {root : ℕ} {g : FX → ℕ → ℕ → FX} (hx : x.Inv) (hg : ∀ x0 x1 x2, x0.Inv → (g x0 x1 x2).Inv) :
    OkAll (fun r => FX.Inv (Prod.fst r)) (x.memEach j root g) := by
  unfold FX.memEach
  refine .foldlM (P := (fun r => FX.Inv (Prod.fst r))) (fun a page ha => ?_) _ hx
  refine .bind' (fun e => ?_)
  split
  · exact .pure ha
  · exact .ite (.bind' (fun _ => .pure (hg _ _ _ ha))) (.pure ha)

theorem FX.Inv.unmapOne {x : FX} {ua f : ℕ} (hx : x.Inv) : (x.unmapOne ua f).Inv := .delta (.entry hx)

theorem FX.Inv.pinOne {v : Bool} {x : FX} {_ua f : ℕ} (hx : x.Inv) : (FX.pinOne v x _ua f).Inv := hx

theorem FX.memMigrate_inv {x : FX} {j : Job} {root : ℕ} (hx : x.Inv) : OkAll (fun r => FX.Inv (Prod.fst r)) (x.memMigrate j root) := by
  unfold FX.memMigrate
  extract_lets +onlyGivenNames tier mask
  refine .bind' (fun es => ?_)
  extract_lets +onlyGivenNames here
  refine .bind' (fun z => ?_)
  extract_lets +onlyGivenNames namedBy
  split
  · exact .error
  · exact .bind (.foldlM (P := (fun r => FX.Inv (Prod.fst r))) (fun _ _ hz => .ite (.pure hz) (.bind (FX.alloc_inv hz) (fun _ hr => .ite
      (.pure (.moveFrame hr)) (.bind (FX.movePage_inv hr) (fun _ hq => .bind (FX.noteMx_inv hq) (fun _ hw => .pure (.ite (.mk (.countApprox
      (FX.Inv.s (.count hw)))) hw))))))) _ hx) (fun _ hy => .pure hy)

theorem FX.memAlias_inv {x : FX} {j : Job} {root : ℕ} (hx : x.Inv) : OkAll (fun r : FX × MemRes => r.1.Inv) (x.memAlias j root) := by
  unfold FX.memAlias
  extract_lets +onlyGivenNames sp n s0
  refine .bind' (fun sroot => .bind' (fun _ => .bind' (fun ts => .ite .error (.bind' (fun es => ?_)))))
  extract_lets +onlyGivenNames fs
  refine .bind' (fun _ => .ite .error (.foldlM (P := fun r : FX × MemRes => r.1.Inv) (fun a q ha => ?_) _ hx))
  split
  · exact .pure ha
  · refine .ite (.pure ha) ?_
    extract_lets f e y
    have hy : y.Inv := .entry (.intent ha)
    exact .bind (FX.entryNew_inv hy) (fun r hr => .pure (.delta (.entry hr)))

theorem State.memoryBody_inv {s : State} {j : Job} (hs : s.Inv) : OkAll (fun r : FX × MemRes => r.1.Inv) (s.memoryBody j) := by
  unfold State.memoryBody
  extract_lets op
  clear_value op
  refine .bind (State.orderFolio_inv hs) (fun x hx => .bind' (fun root => .bind' (fun _ => ?_)))
  split
  · exact FX.memMap_inv hx
  · exact FX.memEach_inv hx (fun _ _ _ h => .unmapOne h)
  · exact FX.memMigrate_inv hx
  · exact FX.memEach_inv hx (fun _ _ _ h => .pinOne h)
  · exact FX.memEach_inv hx (fun _ _ _ h => .pinOne h)
  · exact FX.memAlias_inv hx

theorem State.Inv.refuseMemory {s : State} {j : Job} {e : OrdErr} (hs : s.Inv) : (s.refuseMemory j e).Inv :=
  .endRecord (State.failOrder_inv hs)

theorem State.Inv.finishMemory {s : State} {j : Job} {x : FX} {r : MemRes} (hs : s.Inv) (hx : x.Inv) : (s.finishMemory j x r).Inv :=
  .ite (.endRecord (FX.Inv.done hx)) (.endRecord (FX.finish_inv hx))

theorem FX.readLmap_inv {x : FX} {p : PartNo} {addr layers slots : ℕ} (hx : x.Inv) :
    OkAll (fun r => FX.Inv (Prod.fst r)) (x.readLmap p addr layers slots) := by
  unfold FX.readLmap
  extract_lets +onlyGivenNames m
  split
  next a e =>
    exact .error
  next y bs bad e =>
    have hy : FX.Inv y := OkAll.of_eq (P := (fun r => FX.Inv (Prod.fst r)))  (FX.dvRead_inv hx) e
    exact .ite .error (.ite .error (.ok hy))

theorem OkAll.refusedCtx {α : Type} {P : α → Prop} {r : Except OrdErr α} (h : OkAll P r) : OkAll P (refusedCtx r) := by
  unfold Sys2Proof.Machine.refusedCtx
  split
  · exact .error
  · exact .error
  · exact h

theorem FX.cacheCreate_inv {x : FX} {j : Job} (hx : x.Inv) : OkAll (fun r : FX × CacheRes => r.1.Inv) (x.cacheCreate j) := by
  unfold FX.cacheCreate
  extract_lets +onlyGivenNames id p
  split
  · exact .error
  · refine .ite .error (.ite .error (.ite .error ?_))
    extract_lets +onlyGivenNames layers dim
    refine .bind (P := fun r : FX × List (W32 × W16) => r.1.Inv) (FX.readLmap_inv hx) (fun lm hlm => ?_)
    refine .bind (P := fun r : FX × ℕ => r.1.Inv) (.refusedCtx (FX.alloc_inv hlm)) (fun r hr => ?_)
    extract_lets +onlyGivenNames y d z0 z c
    have hz : z.Inv := FX.Inv.writeOwn (.mk (.zeroFrame hr))
    refine .bind (P := fun r : FX × ℕ => r.1.Inv) (.refusedCtx (FX.noteNew_inv hz)) (fun w hw => .pure ?_)
    exact .mk (.modMem hw)

theorem FX.dropStreams_inv {x : FX} {p : PartNo} {c : Ctx} (hx : x.Inv) : OkAll FX.Inv (x.dropStreams p c) :=
  .foldlM (fun _ _ hx => .foldlM (fun _ _ hz => .ite (.pure hz) (.bind' (fun _ => .ite (FX.areaWrite_inv hz) (.pure hz)))) _ hx) _ hx

theorem FX.cacheRelease_inv {x : FX} {j : Job} (hx : x.Inv) : OkAll (fun r : FX × CacheRes => r.1.Inv) (x.cacheRelease j) := by
  unfold FX.cacheRelease
  refine .bind' (fun c => ?_)
  extract_lets +onlyGivenNames held
  refine .bind (FX.dropStreams_inv hx) (fun y hy => ?_)
  extract_lets +onlyGivenNames z
  have hz : z.Inv := .writeOwn (.writeOwn hy)
  clear_value z
  have h1 : (z.s.modMem (fun m => { m with cells := m.cells.set (c.a + 2) 2 })).Inv := .modCells hz.s (fun _ h => Cells.wf_set h _ _)
  exact .pure (FX.Inv.mk h1)

theorem OkAll.ordFault {α : Type} {P : α → Prop} {r : Except PFault α} (h : OkAll P r) : OkAll P (ordFault r) := by
  unfold Sys2Proof.Machine.ordFault
  cases h with
  | ok h => exact .ok h
  | error => exact .error

theorem FX.readStaging_inv {x : FX} {p : PartNo} {m : MDie} {g : AppendSrc} {d u h a b : ℕ} (hx : x.Inv) :
    OkAll (fun r : FX × StageRun => r.1.Inv) (x.readStaging p m g d u h a b) :=
  .bind (P := fun r : FX × List Byte × Bool => r.1.Inv) (.ordFault (FX.dvRead_inv hx)) (fun _ hr => .pure hr)

theorem FX.putHalf_inv {x : FX} {g : StageRun} {d ua base a b filled headroom : ℕ} {scale : W32} (hx : x.Inv) :
    (x.putHalf g d ua base a b filled headroom scale).1.Inv := by
  unfold FX.putHalf
  extract_lets toks rows ex old rise k0 k bs start feeds
  clear_value rise
  cases rise
  · exact .writeUa hx
  · exact .writeUa hx

theorem FX.openPage_inv {x : FX} {p : PartNo} {c : Ctx} {l st n a : ℕ} {pos0 : ℤ} {r : CacheRes} (hx : x.Inv) :
    OkAll (fun r : FX × List ℕ × ℕ × Note × CacheRes => r.1.Inv) (x.openPage p c l st n a pos0 r) := by
  unfold FX.openPage
  extract_lets +onlyGivenNames lay slot
  refine .bind' (fun nt => ?_)
  extract_lets +onlyGivenNames base nf here fresh
  have hfresh {y0 : FX} {r0 : CacheRes} (h0 : y0.Inv) : OkAll (fun r : FX × List ℕ × ℕ × Note × CacheRes => r.1.Inv) (fresh y0 r0) := by
    refine .ite .error (.bind (P := fun r : FX × List ℕ => r.1.Inv) ?_ (fun y hy => ?_))
    · refine .foldlM (P := fun r : FX × List ℕ => r.1.Inv) (fun z i hz => ?_) _ h0
      refine .bind (P := fun r : FX × ℕ => r.1.Inv) (FX.alloc_inv hz) (fun q hq => ?_)
      exact .bind (FX.mapCtx_inv (.mk (.zeroFrame hq))) (fun m hm => .pure hm)
    · exact .bind (P := fun r : FX × ℕ => r.1.Inv) (FX.noteNew_inv hy) (fun w hw => .pure hw)
  clear_value here
  split
  · exact hfresh hx
  · refine .ite (.ite .error (.bind' (fun es => .ite .error ?_))) (.ite (.bind' (fun es => ?_)) .error)
    · split
      · exact .error
      · refine .ite (.bind (P := fun r : FX × List ℕ => r.1.Inv) ?_ (fun y hy => .pure (.count hy))) (.pure hx)
        refine .foldlM (P := fun r : FX × List ℕ => r.1.Inv) (fun z e hz => ?_) _ hx
        extract_lets old
        refine .bind' (fun _ => .bind (P := fun r : FX × ℕ => r.1.Inv) (FX.alloc_inv hz) (fun g hg => ?_))
        exact .bind (FX.mapCtx_inv (.mk (.copyFrame (.touchFrame hg)))) (fun m hm => .pure (.delta hm))
    · extract_lets y
      have hy : y.Inv := by
        refine .foldl (fun z e hz => ?_) hx
        split
        · exact hz
        · exact .ite (.delta (.entry hz)) hz
      exact hfresh hy

theorem OkAll.atPage {α : Type} {P : α → Prop} {st page : ℕ} {r : Except OrdErr α} (h : OkAll P r) : OkAll P (atPage st page r) := by
  unfold Sys2Proof.Machine.atPage
  split
  · exact .error
  · exact .error
  · exact .error
  · exact .error
  · exact h

theorem FX.appendPage_inv {x : FX} {p : PartNo} {c : Ctx} {g : AppendSrc} {j : Job} {l k n : ℕ} {r : CacheRes} (hx : x.Inv) :
    OkAll (fun r : FX × CacheRes => r.1.Inv) (x.appendPage p c g j l k n r) := by
  unfold FX.appendPage
  extract_lets +onlyGivenNames st
  refine .ite (.pure hx) (.atPage ?_)
  extract_lets +onlyGivenNames first a b pos0
  refine .bind (P := fun r : FX × List ℕ × ℕ × Note × CacheRes => r.1.Inv) (FX.openPage_inv hx) (fun o ho => ?_)
  obtain ⟨y, fs, ua, q, r1⟩ := o
  dsimp -zeta only
  extract_lets +onlyGivenNames d u kAt vAt m
  refine .bind (P := fun r : FX × StageRun => r.1.Inv) (FX.readStaging_inv ho) (fun gk hk => ?_)
  refine .bind (P := fun r : FX × StageRun => r.1.Inv) (FX.readStaging_inv hk) (fun gv hv => ?_)
  extract_lets +onlyGivenNames h0 h1 rises z
  have hh0 : h0.1.Inv := FX.putHalf_inv hv
  have hh1 : h1.1.Inv := FX.putHalf_inv hh0
  clear_value h1
  have hz : z.Inv := .ite hh1 (.count hh1)
  clear_value z
  extract_lets +onlyGivenNames filled q1 q2 q3 w
  have hw : w.Inv := .putNote hz
  exact .pure hw

theorem FX.cacheAppend_inv {x : FX} {j : Job} (hx : x.Inv) : OkAll (fun r : FX × CacheRes => r.1.Inv) (x.cacheAppend j) := by
  unfold FX.cacheAppend
  extract_lets +onlyGivenNames p
  refine .bind' (fun c => ?_)
  extract_lets +onlyGivenNames l0 nl t first
  refine .ite .error ?_
  extract_lets +onlyGivenNames past
  refine .ite .error ?_
  extract_lets +onlyGivenNames fmt g n0 n1 r0
  refine .bind (P := fun r : FX × CacheRes => r.1.Inv) ?_ (fun r hr => .pure (.ite (.writeOwn hr) hr))
  refine .foldlM (P := fun r : FX × CacheRes => r.1.Inv) (fun a i ha => ?_) _ hx
  refine .foldlM (P := fun r : FX × CacheRes => r.1.Inv) (fun a k ha => ?_) _ ha
  exact .foldlM (P := fun r : FX × CacheRes => r.1.Inv) (fun a m ha => FX.appendPage_inv ha) _ ha

theorem FX.sharePage_inv {x : FX} {p : PartNo} {src dst : Ctx} {delta : ℕ} {e : ℕ × ℕ × ℕ × Note} (hx : x.Inv) :
    OkAll FX.Inv (x.sharePage p src dst delta e) := by
  unfold FX.sharePage
  extract_lets +onlyGivenNames st n
  refine .ite (.pure hx) (.atPage ?_)
  extract_lets +onlyGivenNames l tslot
  refine .bind' (fun pos => .bind' (fun tn => .ite .error (.bind' (fun es => ?_))))
  extract_lets +onlyGivenNames shared
  refine .bind (P := FX.Inv) (.foldlM (fun z v hz => ?_) _ hx) (fun y hy => ?_)
  · split
    · exact .pure hz
    · extract_lets +onlyGivenNames f
      refine .bind' (fun _ => .ite .error ?_)
      extract_lets +onlyGivenNames e1 z1 off
      have h1 : z1.Inv := .ite hz (.entry hz)
      exact .bind (P := fun r : FX × ℕ => r.1.Inv) (FX.entryNew_inv h1) (fun r hr => .pure (.delta (.entry hr)))
  · exact .bind (P := fun r : FX × ℕ => r.1.Inv) (FX.noteNew_inv hy) (fun w hw => .pure (.putNote (.putNote hw)))

theorem FX.cacheShare_inv {x : FX} {j : Job} (hx : x.Inv) : OkAll (fun r => FX.Inv (Prod.fst r)) (x.cacheShare j) :=
  .bind' (fun _ => .bind' (fun _ => .ite .error (.bind' (fun _ => .foldlM (P := (fun r => FX.Inv (Prod.fst r))) (fun _ _ ha => .bind
    (FX.sharePage_inv ha) (fun _ hz => .pure hz)) _ hx))))

theorem FX.cacheMass_inv {x : FX} {j : Job} (hx : x.Inv) : OkAll (fun r : FX × CacheRes => r.1.Inv) (x.cacheMass j) := by
  unfold FX.cacheMass
  extract_lets +onlyGivenNames p
  refine .bind' (fun c => ?_)
  extract_lets +onlyGivenNames n m
  refine .bind (P := fun r : FX × List Byte × Bool => r.1.Inv) (.ordFault (FX.dvRead_inv hx)) (fun r hr => .ite .error ?_)
  extract_lets +onlyGivenNames tick y
  have hy : y.Inv := .writeOwn hr
  refine .foldlM (P := fun r : FX × CacheRes => r.1.Inv) (fun a i ha => ?_) _ hy
  extract_lets +onlyGivenNames st inc slot
  refine .ite (.pure ha) (.bind' (fun nt => ?_))
  split
  · refine .ite ?_ (.pure ha)
    extract_lets z
    have hz : z.Inv := .putNote ha
    exact .pure hz
  · exact .pure ha

theorem FX.cacheRebase_inv {x : FX} {j : Job} (hx : x.Inv) : OkAll (fun r : FX × CacheRes => r.1.Inv) (x.cacheRebase j) := by
  unfold FX.cacheRebase
  refine .bind' (fun c => ?_)
  extract_lets +onlyGivenNames ns
  refine .foldlM (P := fun r : FX × CacheRes => r.1.Inv) (fun a e ha => ?_) _ hx
  extract_lets +onlyGivenNames q
  refine .bind' (fun pos => ?_)
  extract_lets z
  have hz : z.Inv := .putNote ha
  exact .pure hz

theorem State.cacheBody_inv {s : State} {j : Job} (hs : s.Inv) : OkAll (fun r : FX × CacheRes => r.1.Inv) (s.cacheBody j) := by
  unfold State.cacheBody
  extract_lets op x0
  clear_value op
  refine .bind' (fun _ => .bind (State.orderFolio_inv hs) (fun x hx => ?_))
  split
  · exact FX.cacheCreate_inv hx
  · exact FX.cacheRelease_inv hx
  · exact FX.cacheAppend_inv hx
  · exact FX.cacheShare_inv hx
  · exact FX.cacheMass_inv hx
  · exact FX.cacheRebase_inv hx

theorem State.Inv.refuseCache {s : State} {j : Job} {e : OrdErr} (hs : s.Inv) : (s.refuseCache j e).Inv :=
  .endRecord (.ite (.modPreg (State.failOrder_inv hs)) (State.failOrder_inv hs))

theorem State.Inv.finishCache {s : State} {j : Job} {x : FX} {r : CacheRes} (hs : s.Inv) (hx : x.Inv) : (s.finishCache j x r).Inv :=
  .ite (.endRecord (FX.Inv.done hx)) (.endRecord (FX.finish_inv hx))

theorem State.runOrder_inv {s : State} {cls : ℕ} {j : Job} (hs : s.Inv) : (s.runOrder cls j).1.Inv := by
  unfold State.runOrder
  refine .ite_fst ?_ ?_
  · refine .ite_fst (.endRecord hs) ?_
    split
    next x r e =>
      have hx : FX.Inv x := OkAll.of_eq (P := (fun r => FX.Inv (Prod.fst r)))  (State.memoryBody_inv hs) e
      exact .finishMemory hs hx
    next t e =>
      exact hs
    next z e =>
      exact hs
    next e e =>
      exact .refuseMemory hs
  · split
    next x r e =>
      have hx : FX.Inv x := OkAll.of_eq (P := (fun r => FX.Inv (Prod.fst r)))  (State.cacheBody_inv hs) e
      exact .finishCache hs hx
    next t e =>
      exact hs
    next z e =>
      exact hs
    next e e =>
      exact .refuseCache hs

theorem State.Inv.refuseWait {s : State} {cls : ℕ} {j : Job} (hs : s.Inv) : (s.refuseWait cls j).Inv :=
  .ite (.refuseMemory hs) (.refuseCache hs)

theorem State.Inv.addWait {s : State} {w : WaitOrd} (hs : s.Inv) : (s.addWait w).Inv := .modMem hs

theorem State.Inv.runOrWait {s : State} {cls : ℕ} {j : Job} {again : Bool} (hs : s.Inv) : (s.runOrWait cls j again).Inv := by
  unfold State.runOrWait
  split
  next s1 e => exact of_fst e (State.runOrder_inv hs)
  · refine .ite (.addWait hs) (.ite (.refuseWait hs) ?_)
    split
    · exact .refuseWait hs
    next s1 e =>
      have h1 : s1.Inv := (State.startSpill_inv hs).of_eq e
      exact .pump (.addWait h1)
  · exact .addWait hs

theorem State.Inv.retryWaits {s : State} {q : WaitOrd → Bool} (hs : s.Inv) : (s.retryWaits q).Inv :=
  .foldl (fun _ _ ht => .runOrWait ht) (.modMem hs)

theorem State.Inv.retryTier {s : State} {p : PartNo} {tier : ℕ} (hs : s.Inv) : (s.retryTier p tier).Inv := .pump (.retryWaits hs)

theorem State.Inv.retryFreed {t s : State} (ht : t.Inv) (hs : s.Inv) : (t.retryFreed s).Inv :=
  .foldl (fun _ _ ht => .foldl (fun _ _ ht => .ite (.retryTier ht) ht) ht) ht

end Sys2Proof.Machine
end

section
/-! SUPPORT. The operations of Sys2Proof/Machine/Cache.lean keep the invariant. -/

namespace Sys2Proof.Machine

theorem State.Inv.cacheCommand {s : State} {src : CmdSrc} {op : ℕ} (hs : s.Inv) : (s.cacheCommand src op).Inv := by
  unfold State.cacheCommand
  split
  next t e =>
    have ht : State.Inv t := of_fst  e (State.takeJob_inv hs)
    exact ht
  next t j e =>
    have ht : State.Inv t := of_fst  e (State.takeJob_inv hs)
    exact .retryFreed (.runOrWait ht) hs

theorem State.Inv.cacheEntry {s : State} {src : CmdSrc} {op : ℕ} (hs : s.Inv) : (s.cacheEntry src op).Inv := by
  unfold State.cacheEntry
  split
  · exact .cacheCommand hs
  · exact .ite (.modPreg hs) (.cacheCommand hs)

theorem execCacheCreate_inv {src : CmdSrc} {s : State} (hs : s.Inv) : NextInv (execCacheCreate src s) := .next (.cacheEntry hs)

theorem execCacheRelease_inv {src : CmdSrc} {s : State} (hs : s.Inv) : NextInv (execCacheRelease src s) := .next (.cacheEntry hs)

theorem execCacheAppend_inv {src : CmdSrc} {s : State} (hs : s.Inv) : NextInv (execCacheAppend src s) := .next (.cacheEntry hs)

theorem execCacheShare_inv {src : CmdSrc} {s : State} (hs : s.Inv) : NextInv (execCacheShare src s) := .next (.cacheEntry hs)

theorem execCacheMass_inv {src : CmdSrc} {s : State} (hs : s.Inv) : NextInv (execCacheMass src s) := .next (.cacheEntry hs)

theorem execCacheRebase_inv {src : CmdSrc} {s : State} (hs : s.Inv) : NextInv (execCacheRebase src s) := .next (.cacheEntry hs)

theorem execSpillBatchEnd_inv {p : PartNo} {tier : Fin 2} {s : State} (hs : s.Inv) : NextInv (execSpillBatchEnd p tier s) := by
  unfold execSpillBatchEnd
  refine .next ?_
  split
  · exact hs
  · exact .ite hs (.retryTier (.modMem hs))

theorem execSpillWaitTimeout_inv {w : SpillWaiter} {s : State} (hs : s.Inv) : NextInv (execSpillWaitTimeout w s) := by
  unfold execSpillWaitTimeout
  refine .next ?_
  split
  · split
    · exact hs
    · split
      · exact hs
      · exact .ite hs (.refuseWait (.modMem hs))
  · split
    · exact hs
    · exact .ite hs (.pump (.moveEnded (.advanceMove hs)))

end Sys2Proof.Machine
end

section
/-! SUPPORT. The operations of Sys2Proof/Machine/QueryOps.lean keep the invariant. -/

namespace Sys2Proof.Machine

theorem State.Inv.queryStatus {s : State} {j : Job} {v : ℕ} (hs : s.Inv) : (s.queryStatus j v).Inv := .ite hs (.dvWrite hs)

theorem State.Inv.endCodex {s : State} {j : Job} {d : Done} {r : CodexRes} (hs : s.Inv) : (s.endCodex j d r).Inv := .endRecord hs

theorem State.Inv.refuseCodex {s : State} {j : Job} {w : CodexRes} {e : OrdErr} (hs : s.Inv) : (s.refuseCodex j w e).Inv :=
  .ite (.queryStatus (.endCodex (.ite (.modPreg (State.failOrder_inv hs)) (State.failOrder_inv hs)))) (.endCodex (.ite (.modPreg
    (State.failOrder_inv hs)) (State.failOrder_inv hs)))

theorem FX.createIndex_inv {x : FX} {j : Job} (hx : x.Inv) : OkAll FX.Inv (x.createIndex j) := by
  unfold FX.createIndex
  extract_lets +onlyGivenNames i
  refine .ite .error ?_
  split
  · exact .error
  · exact .ite .error (.ite .error (.bind' (fun _ => .ite .error (.ite .error (.pure (.mk (FX.Inv.s (.writeOwn hx))))))))

theorem FX.dropIndex_inv {x : FX} {j : Job} (hx : x.Inv) : OkAll FX.Inv (x.dropIndex j) := .bind' (fun _ => .pure (.setIx hx))

theorem FX.takeSlot_inv {x : FX} {p : PartNo} {y : Ix} {g : ℕ} {live : Bool} (hx : x.Inv) :
    OkAll (fun r : FX × ℕ => r.1.Inv) (x.takeSlot p y g live) := by
  unfold FX.takeSlot
  refine .bind' (fun sub => ?_)
  extract_lets +onlyGivenNames fill
  refine .ite (.bind (FX.areaWrite_inv hx) (fun z hz => .pure hz)) (.bind (FX.freshGroup_inv hx) (fun fg hfg => ?_))
  split
  · exact .error
  next z m =>
    have hz : FX.Inv z := hfg _ rfl
    exact .bind (FX.linkGroup_inv hz) (fun w hw => .pure hw)

theorem FX.insertVectors_inv {x : FX} {j : Job} (hx : x.Inv) : OkAll (fun r : FX × CodexRes => r.1.Inv) (x.insertVectors j) := by
  unfold FX.insertVectors
  extract_lets +onlyGivenNames p
  refine .bind' (fun y => ?_)
  extract_lets +onlyGivenNames g
  refine .ite .error (.ite .error (.bind' (fun sub => .ite .error ?_)))
  extract_lets +onlyGivenNames dim fmt
  refine .bind' (fun vs => .bind (P := fun r : FX × List (ℕ × NewVec) => r.1.Inv) ?_ (fun taken ht => ?_))
  · refine .foldlM (P := fun r : FX × List (ℕ × NewVec) => r.1.Inv) (fun a v ha => ?_) _ hx
    exact .bind (P := fun r : FX × ℕ => r.1.Inv) (FX.takeSlot_inv ha) (fun sl hl => .pure hl)
  · refine .foldlM (P := fun r : FX × CodexRes => r.1.Inv) (fun a v ha => ?_) _ ht
    extract_lets gl
    have hgl : gl.2.Inv := State.glyphOfRows_inv ha.s
    exact .bind (P := fun r : FX × CodexWork => r.1.Inv) (FX.insertItem_inv (.mk hgl)) (fun z hz => .pure hz)

theorem FX.deleteItems_inv {x : FX} {j : Job} (hx : x.Inv) : OkAll (fun r : FX × CodexRes => r.1.Inv) (x.deleteItems j) := by
  unfold FX.deleteItems
  refine .bind' (fun y => ?_)
  extract_lets +onlyGivenNames n
  refine .bind' (fun r => .ite .error (.foldlM (P := fun r : FX × CodexRes => r.1.Inv) (fun a i ha => ?_) _ hx))
  exact .bind (P := fun r : FX × ℕ × CodexWork => r.1.Inv) (FX.deleteItem_inv ha) (fun q hq => .pure hq)

theorem FX.dropSubgraph_inv {x : FX} {j : Job} (hx : x.Inv) : OkAll FX.Inv (x.dropSubgraph j) :=
  .bind' (fun _ => .ite .error (.bind' (fun _ => .ite .error (FX.areaWrite_inv hx))))

theorem State.Inv.runEdit {s : State} {j : Job} {body : FX → Except OrdErr (FX × CodexRes)} (hs : s.Inv) (hbody : ∀ x0, x0.Inv → OkAll
    (fun r => FX.Inv (Prod.fst r)) (body x0)) :
    (s.runEdit j body).Inv := by
  unfold State.runEdit
  extract_lets +onlyGivenNames join h
  refine .ite (.endCodex hs) ?_
  split
  next e e =>
    exact .refuseCodex hs
  next x0 e =>
    have hx0 : FX.Inv x0 := OkAll.of_eq (P := FX.Inv)  (State.orderFolio_inv hs) e
    split
    next e e =>
      exact .refuseCodex hs
    next x r e =>
      have hx : FX.Inv x := OkAll.of_eq (P := (fun r => FX.Inv (Prod.fst r)))  (hbody _ hx0) e
      exact .ite (.endCodex (FX.Inv.done hx)) (.endCodex (FX.finish_inv hx))

theorem State.Inv.dropWalk {s : State} {i : ℕ} (hs : s.Inv) : (s.dropWalk i).Inv := .modMem hs

theorem State.Inv.setWalk {s : State} {i : ℕ} {w : Walk} (hs : s.Inv) : (s.setWalk i w).Inv := .modMem hs

theorem State.Inv.countLate {s : State} {w : Walk} (hs : s.Inv) : (s.countLate w).Inv := .ite (.modPreg (.countDie hs)) hs

theorem State.Inv.failWalk {s : State} {i : ℕ} {w : Walk} {e : OrdErr} (hs : s.Inv) : (s.failWalk i w e).Inv :=
  .refuseCodex (.countLate (.dropWalk hs))

theorem State.Inv.startWalks {n : ℕ} : ∀ {s : State}, s.Inv → (s.startWalks n).Inv := by
  induction n with
  | zero => exact fun hs => hs
  | succ n ih =>
    intro s hs
    unfold State.startWalks
    split
    · exact hs
    · refine ih ?_
      split
      · exact .failWalk hs
      · exact .setWalk hs

theorem State.Inv.pumpWalks {s : State} (hs : s.Inv) : s.pumpWalks.Inv := State.Inv.startWalks hs

theorem State.admitQuery_inv {s : State} {j : Job} (hs : s.Inv) : OkAll (fun r => State.Inv (Prod.snd (Prod.snd r))) (s.admitQuery j) :=
  .bind' (fun _ => .ite .error (.ite .error (.ite .error (.bind' (fun _ => .ite .error (.bind' (fun _ => .ite .error (.bind' (fun _ =>
    .pure (State.glyphOfRows_inv hs))))))))))

theorem State.Inv.runQuery {s : State} {j : Job} (hs : s.Inv) : (s.runQuery j).Inv := by
  unfold State.runQuery
  split
  next e e =>
    exact .refuseCodex hs
  next w y t e =>
    have ht : State.Inv t := OkAll.of_eq (P := (fun r => State.Inv (Prod.snd (Prod.snd r))))  (State.admitQuery_inv hs) e
    exact .pumpWalks (.modMem (.ite (.countApprox (.countDie ht)) (.countDie ht)))

theorem State.writeRecall_inv {s : State} {p : PartNo} {base : ℕ} {parts : List (ℕ × List Byte)} (hs : s.Inv) :
    (s.writeRecall p base parts).1.Inv := by
  unfold State.writeRecall
  refine foldl_inv (fun r : State × Bool => r.1.Inv) (fun a q ha => .ite_fst ha ?_) _ hs
  split
  · exact .reportPF ha
  · exact .plainWrite ha

theorem State.Inv.fallBack {s : State} {i : ℕ} {w : Walk} (hs : s.Inv) : (s.fallBack i w).Inv := by
  unfold State.fallBack
  extract_lets +onlyGivenNames j m base n s1 s2 s3 r
  have hs1 : s1.Inv := .countApprox (.countDie (.dropWalk hs))
  have hs2 : s2.Inv := .modPreg hs1
  have hs3 : s3.Inv := .ite hs2 (State.writeRecall_inv hs2)
  exact .queryStatus (.endCodex hs3)

theorem State.Inv.finishQuery {s : State} {i : ℕ} {w : Walk} (hs : s.Inv) : (s.finishQuery i w).Inv := by
  unfold State.finishQuery
  extract_lets +onlyGivenNames j p x scored
  clear_value scored
  refine .ite (.fallBack hs) ?_
  split
  · exact .failWalk hs
  · extract_lets m ev short r0 r s2 s3 s4
    have hev {t : State} {c : Bool} {n : ℕ} (ht : t.Inv) : (ev t c n).Inv := .ite (.countDie ht) ht
    have h2 : s2.Inv := .countLate (hev (hev (.dropWalk hs)))
    have h3 : s3.1.Inv := .ite_fst h2 (State.writeRecall_inv h2)
    exact .queryStatus (.endCodex h3)

theorem OkAll.map_some {ε α : Type} {P : α → Prop} {r : Except ε α} (h : OkAll P r) : OkAll (SomeAll P) (r.map some) :=
  h.map (fun _ ha => .some ha)

theorem OkAll.of_some {ε α : Type} {P : α → Prop} {r : Except ε (Option α)} {a : α} (h : OkAll (SomeAll P) r) (e : r = .ok (some a)) :
    P a :=
  (h.of_eq e).of_eq rfl

theorem State.Inv.runRepair {s : State} {i : ℕ} (hs : s.Inv) : (s.runRepair i).Inv := by
  unfold State.runRepair
  split
  · exact hs
  next q _ =>
    extract_lets +onlyGivenNames gone
    have hgone {t : State} (ht : t.Inv) : (gone t).Inv := .modMem ht
    split
    · exact hgone hs
    · extract_lets +onlyGivenNames p
      refine .ite hs ?_
      extract_lets +onlyGivenNames x work
      have hwork : OkAll (SomeAll FX.Inv) work := by
        refine .bind' (fun y => .bind' (fun nd => ?_))
        split
        · exact .pure .none
        · exact .ite (.map_some (FX.repairNode_inv (.fresh hs))) (.pure .none)
      clear_value work
      split
      · exact hgone (State.failOrder_inv hs)
      · exact hgone hs
      · extract_lets f
        have hf : f.1.Inv := FX.finish_inv (hwork.of_some rfl)
        refine .ite (.modMem hf) ?_
        extract_lets g
        exact .ite (.countDie (hgone hf)) (hgone hf)

theorem State.codexJob_inv {s : State} {src : CmdSrc} {op : ℕ} (hs : s.Inv) : (s.codexJob src op).1.Inv := by
  unfold State.codexJob
  split
  · exact .ite_fst (.modPreg hs) (State.takeJob_inv hs)
  · exact State.takeJob_inv hs

end Sys2Proof.Machine
end

section
/-! SUPPORT. The operations of Sys2Proof/Machine/Codex.lean keep the invariant. -/

namespace Sys2Proof.Machine

theorem State.Inv.codexEdit {s : State} {src : CmdSrc} {op : ℕ} {body : Job → FX → Except OrdErr (FX × CodexRes)} (hs : s.Inv)
    (hbody : ∀ x0 x1, x1.Inv → OkAll (fun r => FX.Inv (Prod.fst r)) (body x0 x1)) :
    (s.codexEdit src op body).Inv := by
  unfold State.codexEdit
  split
  next t e =>
    have ht : State.Inv t := of_fst  e (State.codexJob_inv hs)
    exact ht
  next t j e =>
    have ht : State.Inv t := of_fst  e (State.codexJob_inv hs)
    exact .runEdit ht (fun _ ha => hbody _ _ ha)

theorem execCodexCreateIndex_inv {src : CmdSrc} {s : State} (hs : s.Inv) : NextInv (execCodexCreateIndex src s) :=
  .next (.codexEdit hs (fun _ _ hx => .map (FX.createIndex_inv hx) (fun _ hy => hy)))

theorem execCodexDropIndex_inv {src : CmdSrc} {s : State} (hs : s.Inv) : NextInv (execCodexDropIndex src s) :=
  .next (.codexEdit hs (fun _ _ hx => .map (FX.dropIndex_inv hx) (fun _ hy => hy)))

theorem execCodexInsert_inv {src : CmdSrc} {s : State} (hs : s.Inv) : NextInv (execCodexInsert src s) :=
  .next (.codexEdit hs (fun _ _ hx => FX.insertVectors_inv hx))

theorem execCodexDelete_inv {src : CmdSrc} {s : State} (hs : s.Inv) : NextInv (execCodexDelete src s) :=
  .next (.codexEdit hs (fun _ _ hx => FX.deleteItems_inv hx))

theorem execCodexDropSubgraph_inv {src : CmdSrc} {s : State} (hs : s.Inv) : NextInv (execCodexDropSubgraph src s) :=
  .next (.codexEdit hs (fun _ _ hx => .map (FX.dropSubgraph_inv hx) (fun _ hy => hy)))

theorem execCodexQuery_inv {src : CmdSrc} {s : State} (hs : s.Inv) : NextInv (execCodexQuery src s) := by
  unfold execCodexQuery
  refine .next ?_
  split
  next t e =>
    have ht : State.Inv t := of_fst  e (State.codexJob_inv hs)
    exact ht
  next t j e =>
    have ht : State.Inv t := of_fst  e (State.codexJob_inv hs)
    exact .runQuery ht

theorem execWalkRoundReturn_inv {i : ℕ} {s : State} (hs : s.Inv) : NextInv (execWalkRoundReturn i s) := by
  unfold execWalkRoundReturn
  refine .next ?_
  split
  · exact hs
  · refine .ite hs ?_
    refine .ite (.pumpWalks (.fallBack hs)) ?_
    split
    · exact .pumpWalks (.failWalk hs)
    · exact .countDie (.setWalk hs)

theorem execRerankComplete_inv {i : ℕ} {s : State} (hs : s.Inv) : NextInv (execRerankComplete i s) := by
  unfold execRerankComplete
  refine .next ?_
  split
  · exact hs
  · exact .ite hs (.pumpWalks (.finishQuery hs))

theorem execQueryDeadline_inv {i : ℕ} {s : State} (hs : s.Inv) : NextInv (execQueryDeadline i s) := by
  unfold execQueryDeadline
  refine .next ?_
  split
  · exact hs
  · exact .ite hs (.ite (.pumpWalks (.fallBack hs)) (.setWalk hs))

theorem execSubgraphSplice_inv {i : W16} {g : W32} {s : State} (hs : s.Inv) : NextInv (execSubgraphSplice i g s) := by
  refine .next ?_
  split
  · exact hs
  · extract_lets +onlyGivenNames p x
    have hx : x.Inv := .fresh hs
    refine .ite hs ?_
    extract_lets +onlyGivenNames work
    have hwork : OkAll (SomeAll FX.Inv) work := by
      refine .bind' (fun y => .ite (.pure .none) (.bind' (fun sub => .ite (.pure .none) ?_)))
      exact .bind (FX.areaWrite_inv hx) (fun x1 h1 => .bind (FX.areaWrite_inv h1) (fun x2 h2 => .pure (.some (.setIx (.setIx h2)))))
    clear_value work
    split
    · exact State.failOrder_inv hs
    · exact hs
    · exact FX.finish_inv (hwork.of_some rfl)

theorem execIndexFree_inv {i : W16} {s : State} (hs : s.Inv) : NextInv (execIndexFree i s) := by
  unfold execIndexFree
  refine .next ?_
  split
  · exact hs
  · exact .ite hs (FX.finish_inv (.writeOwn (.fresh hs)))

theorem execNodeRepair_inv {i : ℕ} {s : State} (hs : s.Inv) : NextInv (execNodeRepair i s) := by
  unfold execNodeRepair
  refine .next ?_
  split
  · exact hs
  · exact .ite hs (.runRepair hs)

theorem execRepairRetry_inv {i : ℕ} {s : State} (hs : s.Inv) : NextInv (execRepairRetry i s) := by
  unfold execRepairRetry
  refine .next ?_
  split
  · exact hs
  · split
    · exact hs
    · exact .ite hs (.runRepair hs)

theorem execSettleSweep_inv {i : W16} {node : W32} {s : State} (hs : s.Inv) : NextInv (execSettleSweep i node s) := by
  refine .next ?_
  split
  · exact hs
  · dsimp only
    split
    · exact State.failOrder_inv hs
    · exact hs
    · exact .plainWrite hs

end Sys2Proof.Machine
end

section
/-! SUPPORT. The operations of Sys2Proof/Machine/LinkBase.lean keep the invariant. -/

namespace Sys2Proof.Machine

theorem State.Inv.modLink {s : State} {f : LinkState → LinkState} (hs : s.Inv) : (s.modLink f).Inv := hs

theorem State.Inv.setPort {s : State} {p : PortNo} {x : Port} (hs : s.Inv) : (s.setPort p x).Inv := .modLink hs

theorem State.Inv.modPort {s : State} {p : PortNo} {f : Port → Port} (hs : s.Inv) : (s.modPort p f).Inv := .setPort hs

theorem State.Inv.reportPort {s : State} {p : PortNo} {code : ℕ} {lvl : Level} {detail : List ℕ} (hs : s.Inv) :
    (s.reportPort p code lvl detail).Inv :=
  .report hs

theorem State.Inv.queueLane {s : State} {p : PortNo} {lane : Fin 4} {bs : List Byte} (hs : s.Inv) : (s.queueLane p lane bs).Inv :=
  .modPort hs

theorem State.Inv.setRing {s : State} {n : Fin 16} {x : Ring} (hs : s.Inv) : (s.setRing n x).Inv := .modLink hs

theorem State.Inv.modRing {s : State} {n : Fin 16} {f : Ring → Ring} (hs : s.Inv) : (s.modRing n f).Inv := .setRing hs

theorem State.sendChunk_inv {s : State} {m : TxMsg} {c : ℕ} (hs : s.Inv) : OkAll State.Inv (s.sendChunk m c) := by
  unfold State.sendChunk
  split
  · exact .error
  · exact .ok (.queueLane hs)

theorem State.Inv.modTx {s : State} {id : W32} {f : TxMsg → TxMsg} (hs : s.Inv) : (s.modTx id f).Inv := .modLink hs

theorem State.Inv.dropTx {s : State} {id : W32} (hs : s.Inv) : (s.dropTx id).Inv := .modLink hs

theorem State.Inv.ringDone {s : State} {n : Fin 16} {entry : List Byte} (hs : s.Inv) : (s.ringDone n entry).Inv := .dvWrite hs

theorem State.Inv.completeTx {s : State} {id : W32} (hs : s.Inv) : (s.completeTx id).Inv := by
  unfold State.completeTx
  split
  · exact hs
  · refine .ite ?_ hs
    extract_lets +onlyGivenNames s1
    have hs1 : s1.Inv := .dropTx hs
    split
    · exact .ringDone hs1
    · exact hs1

theorem State.Inv.faultSender {s : State} {n : CoreNo} {pc : W64} {code : ℕ} (hs : s.Inv) : (s.faultSender n pc code).Inv := .coreFaultAt hs

theorem State.Inv.failTx {s : State} {id : W32} {code : ℕ} (hs : s.Inv) : (s.failTx id code).Inv := by
  unfold State.failTx
  split
  · exact hs
  · extract_lets +onlyGivenNames s1
    have hs1 : s1.Inv := .dropTx hs
    split
    · exact .report (.modRing hs1)
    · exact .faultSender hs1
    · exact hs1

theorem State.takeMsgId_inv {s : State} (hs : s.Inv) : (s.takeMsgId).2.Inv := .modLink hs

theorem State.sendMessage_inv {s : State} {owner : TxOwner} {p : PartNo} {port : PortNo} {lane : Fin 4} {h : MsgHead} {src : TxSrc}
    (hs : s.Inv) :
    OkAll State.Inv (s.sendMessage owner p port lane h src) :=
  .foldlM (fun _ _ ha => State.sendChunk_inv ha) _ (.queueLane (.modLink (State.takeMsgId_inv hs)))

end Sys2Proof.Machine
end

section
/-! SUPPORT. The operations of Sys2Proof/Machine/RingOps.lean keep the invariant. -/

namespace Sys2Proof.Machine

theorem State.Inv.writeLand {s : State} {n : Fin 16} {k : ℕ} (hs : s.Inv) : (s.writeLand n k).Inv := by
  unfold State.writeLand
  extract_lets +onlyGivenNames r
  split
  · exact hs
  · exact .dvWrite (.dvWrite hs)

theorem State.Inv.sendCredit {s : State} {n : Fin 16} {k : ℕ} (hs : s.Inv) : (s.sendCredit n k).Inv := by
  unfold State.sendCredit
  extract_lets +onlyGivenNames r
  split
  · exact hs
  · exact .emit hs

theorem State.Inv.setLandSlot {s : State} {n : Fin 16} {k : ℕ} {x : LandSlot} (hs : s.Inv) : (s.setLandSlot n k x).Inv := .modRing hs

theorem State.Inv.dropLanding {s : State} {n : Fin 16} {k : ℕ} (hs : s.Inv) : (s.dropLanding n k).Inv := .modLink hs

theorem State.Inv.armLanding {s : State} {r : Ring} {rec : List Byte} (hs : s.Inv) : (s.armLanding r rec).Inv := by
  unfold State.armLanding
  split
  · exact hs
  · exact .foldl (fun _ _ ht => .ite (.setMcast ht) ht) hs

theorem State.Inv.disarmLanding {s : State} {rec : List Byte} (hs : s.Inv) : (s.disarmLanding rec).Inv :=
  .foldl (fun _ _ ht => .ite (.setMcast ht) ht) hs

theorem State.Inv.skipSend {s : State} {n : Fin 16} {code : ℕ} (hs : s.Inv) : (s.skipSend n code).Inv := .modRing (.report hs)

theorem State.Inv.loadSend {s : State} {n : Fin 16} (hs : s.Inv) : (s.loadSend n).Inv := by
  unfold State.loadSend
  extract_lets +onlyGivenNames r pf
  have hpf : ∀ x0, (pf x0).Inv := fun _ => .modRing (.reportPF hs)
  split
  · exact hpf _
  · refine .ite (.skipSend hs) ?_
    split
    · exact hpf _
    · exact .ite (.modRing hs) (.skipSend hs)

theorem State.Inv.beginSend {s : State} {n : Fin 16} {c : RingSend} {src : TxSrc} {ports : List PortNo} (hs : s.Inv) :
    (s.beginSend n c src ports).Inv := by
  unfold State.beginSend
  extract_lets +onlyGivenNames r t lead kind2 total h m s1
  have ht : t.2.Inv := State.takeMsgId_inv hs
  have hs1 : s1.Inv := .modLink ht
  exact .modRing (.queueLane hs1)

theorem State.Inv.sendNext {s : State} {n : Fin 16} {c : RingSend} {id : W32} (hs : s.Inv) : (s.sendNext n c id).Inv := by
  unfold State.sendNext
  split
  · exact .modRing hs
  · extract_lets +onlyGivenNames total m1
    split
    next e e =>
      exact .modRing (.reportPF (.dropTx hs))
    next t e =>
      have ht : State.Inv t := OkAll.of_eq (P := State.Inv)  (State.sendChunk_inv hs) e
      exact .ite (.modRing (.modPort (.modTx ht))) (.modRing (.modPort (.modTx ht)))

theorem State.nextChunk_inv {s : State} {n : Fin 16} {c : RingSend} {id : W32} (hs : s.Inv) : SomeAll State.Inv (s.nextChunk n c id) := by
  unfold State.nextChunk
  split
  · exact .some (.modRing hs)
  · exact .ite (.some (.failTx hs)) (.ite .none (.some (.sendNext hs)))

theorem State.Inv.firstChunk {s : State} {n : Fin 16} {c : RingSend} {src : TxSrc} {ports : List PortNo} (hs : s.Inv) :
    (s.firstChunk n c src ports).Inv := by
  unfold State.firstChunk
  extract_lets +onlyGivenNames t
  have ht : t.Inv := .beginSend hs
  split
  · split
    · exact .sendNext ht
    · exact ht
  · exact ht

theorem State.ringStep_inv {s : State} {n : Fin 16} (hs : s.Inv) : SomeAll State.Inv (s.ringStep n) := by
  unfold State.ringStep
  extract_lets +onlyGivenNames r
  refine .ite .none ?_
  split
  · exact .ite .none (.some (.loadSend hs))
  · refine .ite .none ?_
    split
    · exact State.nextChunk_inv hs
    · extract_lets +onlyGivenNames os
      split
      · exact .some (.skipSend hs)
      · extract_lets +onlyGivenNames ports
        refine .ite .none ?_
        split
        · exact .none
        · exact .some (.modRing (.reportPF hs))
        · exact .some (.firstChunk hs)

theorem State.Inv.ringSendN {n : Fin 16} {k : ℕ} : ∀ {s : State}, s.Inv → (s.ringSendN n k).Inv := by
  induction k with
  | zero => exact fun hs => hs
  | succ k ih =>
    intro s hs
    unfold State.ringSendN
    split
    · exact hs
    next t e => exact ih ((State.ringStep_inv hs).of_eq e)

theorem State.Inv.ringSend {s : State} {n : Fin 16} (hs : s.Inv) : (s.ringSend n).Inv := State.Inv.ringSendN hs

theorem State.Inv.ringsSend {s : State} {p : PortNo} (hs : s.Inv) : (s.ringsSend p).Inv := .foldl (fun _ _ ht => .ringSend ht) hs

theorem State.Inv.dropQuire {s : State} {n : Fin 16} {epoch : Bool} (hs : s.Inv) : (s.dropQuire n epoch).Inv :=
  .ite (.modRing (.countDie hs)) (.report (.modRing (.countDie hs)))

theorem State.quireTarget_inv {s : State} {p : PortNo} {lead : List Byte} {dest : ℕ} (hs : s.Inv) : (s.quireTarget p lead dest).1.Inv := by
  unfold State.quireTarget
  extract_lets +onlyGivenNames n r seq k
  split
  · exact hs
  · refine .ite_fst (.dropQuire hs) ?_
    refine .ite_fst (.dropQuire hs) ?_
    split
    · exact .ite_fst (.dropQuire hs) (.setLandSlot hs)
    · exact .dropQuire hs

theorem State.landBytes_inv {s : State} {q : WalkReq} {bs : List Byte} {bad : List Bool} (hs : s.Inv) :
    OkAll State.Inv (s.landBytes q bs bad) :=
  .map' (fun _ => .plainWrite hs)

theorem State.Inv.quireLanded {s : State} {n : Fin 16} {k : ℕ} (hs : s.Inv) : (s.quireLanded n k).Inv := by
  unfold State.quireLanded
  extract_lets +onlyGivenNames r
  split
  · exact .ite (.setLandSlot hs) (.ite (.armLanding (.writeLand (.dvWrite (.modRing (.setLandSlot hs))))) (.writeLand (.dvWrite (.modRing
      (.setLandSlot hs)))))
  · exact hs

theorem State.landQuire_inv {s : State} {n : Fin 16} {k : ℕ} {seq : W32} {dest : ℕ} {c : RxChunk} (hs : s.Inv) :
    (s.landQuire n k seq dest c).1.Inv := by
  unfold State.landQuire
  extract_lets +onlyGivenNames r
  split
  · refine .ite_fst hs ?_
    extract_lets +onlyGivenNames z
    split
    next e e =>
      exact .reportPF hs
    next s1 e =>
      have hs1 : State.Inv s1 := OkAll.of_eq (P := State.Inv)  (State.landBytes_inv hs) e
      split
      next e e =>
        exact .reportPF hs1
      next s2 e =>
        have hs2 : State.Inv s2 := OkAll.of_eq (P := State.Inv)  (State.landBytes_inv hs1) e
        exact .writeLand (.setLandSlot hs2)
  · exact hs

theorem State.Inv.relayChunk {s : State} {ps : List PortNo} {c : ℕ} {record : List Byte} (hs : s.Inv) : (s.relayChunk ps c record).Inv := by
  unfold State.relayChunk
  split
  · exact hs
  · exact .ite hs (.queueLane hs)

end Sys2Proof.Machine
end

section
/-! SUPPORT. The operations of Sys2Proof/Machine/CollOps.lean keep the invariant. -/

namespace Sys2Proof.Machine

theorem State.Inv.dropColl {s : State} {x : ℕ} {p : PartNo} {l : CollLead} (hs : s.Inv) : (s.dropColl x p l).Inv :=
  .ite (.countDie hs) (.report (.modLink (.countDie hs)))

theorem State.collTarget_inv {s : State} {x : ℕ} {p : PartNo} {lead : List Byte} {bytes : ℕ} (hs : s.Inv) :
    (s.collTarget x p lead bytes).1.Inv := by
  unfold State.collTarget
  extract_lets +onlyGivenNames l drop
  have hdrop : drop.1.Inv := .dropColl hs
  split
  · exact hdrop
  · exact .ite_fst hdrop (.ite_fst hs hs)

theorem State.landColl_inv {s : State} {p : PartNo} {x data c : ℕ} {bs : List Byte} {bad : List Bool} (hs : s.Inv) :
    (s.landColl p x data c bs bad).1.Inv := by
  unfold State.landColl
  split
  next e e =>
    exact .reportPF hs
  next t e =>
    have ht : State.Inv t := OkAll.of_eq (P := State.Inv)  (State.landBytes_inv hs) e
    exact ht

theorem State.Inv.collReady {s : State} {p : PartNo} {x ready : ℕ} {cseq : W64} (hs : s.Inv) : (s.collReady p x ready cseq).Inv :=
  .dvWrite hs

theorem State.Inv.collCount {s : State} {p : PartNo} {x entry : ℕ} {cseq : W64} {n : W32} (hs : s.Inv) :
    (s.collCount p x entry cseq n).Inv :=
  .dvWrite hs

theorem State.Inv.collFault {s : State} {n : CoreNo} {e : CollErr} (hs : s.Inv) : (s.collFault n e).Inv := by
  unfold State.collFault
  split
  · exact .coreFault (.pfRecord hs)
  · exact .coreFault hs

theorem State.landChunk_inv {s : State} {p : PartNo} {x data ready : ℕ} {cseq : W64} {c : ℕ} {bs : List Byte} {bad : List Bool}
    (hs : s.Inv) :
    (s.landChunk p x data ready cseq c bs bad).1.Inv :=
  .ite_fst (State.landColl_inv hs) (State.landColl_inv hs)

theorem State.sendLocal_inv {s : State} {p : PartNo} {lead : List Byte} {bytes : ℕ} {src : TxSrc} (hs : s.Inv) :
    OkAll State.Inv (s.sendLocal p lead bytes src) := by
  unfold State.sendLocal
  extract_lets +onlyGivenNames t total
  have ht : t.1.Inv := State.collTarget_inv hs
  split
  · exact .map (.foldlM (P := (fun r => State.Inv (Prod.fst r))) (fun _ _ ha => .map' (fun _ => .ite_fst
      (State.landChunk_inv ha) ha)) _ ht) (fun _ ha => .ite (.collReady ha) ha)
  · exact .ok (.collCount ht)
  · exact .ok ht

theorem State.Inv.sendColl {s : State} {n : CoreNo} {rk : GroupRank} {lead : CollLead} {flags bytes : ℕ} {src : TxSrc} (hs : s.Inv) :
    (s.sendColl n rk lead flags bytes src).Inv := by
  unfold State.sendColl
  extract_lets +onlyGivenNames c
  split
  · refine .ite (.countDie hs) ?_
    split
    next t e =>
      have ht : State.Inv t := OkAll.of_eq (P := State.Inv)  (State.sendLocal_inv hs) e
      exact ht
    next f e =>
      exact .coreFault (.pfRecord hs)
  · split
    · exact .coreFault hs
    · extract_lets +onlyGivenNames h
      split
      next t e =>
        have ht : State.Inv t := OkAll.of_eq (P := State.Inv)  (State.sendMessage_inv hs) e
        exact ht
      next f e =>
        exact .coreFault (.pfRecord hs)

theorem State.Inv.collPut {s : State} {n : CoreNo} {b : List Byte} (hs : s.Inv) : (s.collPut n b).Inv := by
  unfold State.collPut
  extract_lets +onlyGivenNames d
  refine .ite (.coreFault hs) ?_
  split
  · exact .collFault hs
  · refine .ite (.coreFault hs) ?_
    refine .ite (.coreFault hs) ?_
    refine .ite (.coreFault hs) ?_
    split
    · exact .collFault hs
    · exact .ite (.sendColl hs) (.retire (.countCore (.modCore (.sendColl hs))))

theorem State.takeSource_inv {s : State} {n : CoreNo} {g : Group} {d : StepDesc} {i : ℕ} (hs : s.Inv) : (s.takeSource n g d i).1.Inv := by
  unfold State.takeSource
  extract_lets +onlyGivenNames r c
  refine .ite_fst hs ?_
  extract_lets +onlyGivenNames run
  split
  next t e e =>
    have ht : State.Inv t := of_fst  e (State.loadRuns_inv hs)
    exact ht
  next t e =>
    have ht : State.Inv t := of_fst  e (State.loadRuns_inv hs)
    exact .ite (.modCore ht) ht

theorem State.Inv.endTake {s : State} {n : CoreNo} {g : Group} {d : StepDesc} (hs : s.Inv) : (s.endTake n g d).Inv := by
  unfold State.endTake
  refine .ite (.endWait (.retire (.countCore hs))) ?_
  split
  · exact .collFault hs
  · extract_lets +onlyGivenNames r
    split
    · exact .collFault hs
    · split
      next e e =>
        exact .coreFault hs
      next s1 e =>
        have hs1 : State.Inv s1 := OkAll.of_eq (P := State.Inv)  (State.coreStore_inv hs) e
        exact .endWait (.retire (.countCore (.countCore (.countCore hs1))))

theorem State.Inv.takeMore {n : CoreNo} {b : List Byte} {g : Group} {d : StepDesc} {k : ℕ} :
    ∀ {s : State} {done : ℕ}, s.Inv → (s.takeMore n b g d k done).Inv := by
  induction k with
  | zero => exact fun hs => hs
  | succ k ih =>
    intro s done hs
    unfold State.takeMore
    refine .ite (.endTake hs) ?_
    split
    · exact .collFault hs
    · exact .ite (.modCore hs) (.beginWait hs)
    · split
      next t e h => exact .collFault (of_fst h (State.takeSource_inv hs))
      next t h => exact ih (of_fst h (State.takeSource_inv hs))

theorem State.Inv.collTake {s : State} {n : CoreNo} {b : List Byte} (hs : s.Inv) : (s.collTake n b).Inv := by
  unfold State.collTake
  extract_lets d
  refine .ite (.coreFault hs) ?_
  split
  · exact .collFault hs
  · exact .ite (.coreFault hs) (.ite (.coreFault hs) (.ite (.coreFault hs) (State.Inv.takeMore hs)))

theorem State.Inv.countPoll {s : State} {n : CoreNo} {b : List Byte} {g : Group} (hs : s.Inv) : (s.countPoll n b g).Inv := by
  unfold State.countPoll
  split
  · exact .collFault hs
  · exact .ite (.ite (.modCore hs) (.beginWait hs)) (.endWait (.retire (.modCore hs)))

theorem State.Inv.collCounts {s : State} {n : CoreNo} {b : List Byte} (hs : s.Inv) : (s.collCounts n b).Inv := by
  unfold State.collCounts
  refine .ite (.coreFault hs) ?_
  split
  · exact .collFault hs
  · extract_lets +onlyGivenNames sa oa
    refine .ite (.coreFault hs) ?_
    refine .ite (.coreFault hs) ?_
    refine .ite (.coreFault hs) ?_
    split
    · exact .collFault hs
    · exact .ite (.foldl (fun _ _ ht => .ite ht (.sendColl ht)) hs) (.countPoll (.foldl (fun _ _ ht => .ite ht (.sendColl ht)) hs))

end Sys2Proof.Machine
end

section
/-! SUPPORT. The operations of Sys2Proof/Machine/Collective.lean keep the invariant. -/

namespace Sys2Proof.Machine

theorem execCstepPut_inv {n : CoreNo} {d : DescArg} {s : State} (hs : s.Inv) : NextInv (execCstepPut n d s) :=
  .next (.issue hs (fun _ hs => .withDesc hs (fun _ _ => .collPut hs)))

theorem execCstepTake_inv {n : CoreNo} {d : DescArg} {s : State} (hs : s.Inv) : NextInv (execCstepTake n d s) :=
  .next (.issue hs (fun _ hs => .withDesc hs (fun _ _ => .collTake hs)))

theorem execCcount_inv {n : CoreNo} {d : DescArg} {s : State} (hs : s.Inv) : NextInv (execCcount n d s) :=
  .next (.issue hs (fun _ hs => .withDesc hs (fun _ _ => .collCounts hs)))

theorem execCollWaitPoll_inv {n : CoreNo} {s : State} (hs : s.Inv) : NextInv (execCollWaitPoll n s) := by
  refine .next ?_
  split
  · split
    · exact .collFault hs
    · exact State.Inv.takeMore hs
  · split
    · exact .collFault hs
    · exact .countPoll hs
  · exact hs

theorem execCollDeadline_inv {n : CoreNo} {s : State} (hs : s.Inv) : NextInv (execCollDeadline n s) := by
  unfold execCollDeadline
  refine .next ?_
  split
  · exact .ite hs (.coreFault hs)
  · exact hs

end Sys2Proof.Machine
end

section
/-! SUPPORT. The operations of Sys2Proof/Machine/PowerOps.lean keep the invariant. -/

namespace Sys2Proof.Machine

theorem State.Inv.addDemand {s : State} {add : ℕ} (hs : s.Inv) : (s.addDemand add).Inv := hs

theorem State.Inv.startCore {s : State} {n : CoreNo} {priv : BitVec 2} (hs : s.Inv) : (s.startCore n priv).Inv :=
  .ite (.modCore hs) (.ite (.modCore (.addDemand hs)) hs)

theorem State.Inv.haltCore {s : State} {n : CoreNo} (hs : s.Inv) : (s.haltCore n).Inv := .modCore hs

theorem State.Inv.resumeCore {s : State} {n : CoreNo} (hs : s.Inv) : (s.resumeCore n).Inv := .modCore hs

theorem State.Inv.softResetCore {s : State} {n : CoreNo} (hs : s.Inv) : (s.softResetCore n).Inv :=
  .ite (.modCore hs) (.modCore (.dropToken hs))

theorem State.Inv.forceReset {s : State} {n : CoreNo} (hs : s.Inv) : (s.forceReset n).Inv := by
  unfold State.forceReset
  extract_lets +onlyGivenNames c
  refine .ite hs ?_
  extract_lets +onlyGivenNames s1
  have hs1 : s1.Inv := .modCore (.softResetCore hs)
  exact .atBoundary hs1

end Sys2Proof.Machine
end

section
/-! SUPPORT. The operations of Sys2Proof/Machine/CoreEvents.lean keep the invariant. -/

namespace Sys2Proof.Machine

theorem State.Inv.wakeInbound {s : State} {n : CoreNo} (hs : s.Inv) : (s.wakeInbound n).Inv := by
  unfold State.wakeInbound
  extract_lets +onlyGivenNames c
  split
  · exact .ite (.endWait (.retire hs)) hs
  · exact .ite (.endWait (.retire (.setCore hs))) (.setCore hs)
  · exact hs

theorem State.Inv.deliver {s : State} {n src : CoreNo} {tag : ℕ} (hs : s.Inv) : (s.deliver n src tag).Inv := by
  unfold State.deliver
  split
  · exact hs
  · exact .ite (.wakeInbound (.modCore hs)) hs

theorem execInboundDataArrival_inv {n : CoreNo} {i : ℕ} {s : State} (hs : s.Inv) : NextInv (execInboundDataArrival n i s) := by
  unfold execInboundDataArrival
  refine .next ?_
  split
  · exact hs
  · exact .deliver hs

theorem execTransferAck_inv {n : CoreNo} {s : State} (hs : s.Inv) : NextInv (execTransferAck n s) := by
  unfold execTransferAck
  refine .next ?_
  split
  · exact hs
  · exact .modCore hs

theorem execRotaryFillArrival_inv {n : CoreNo} {i : ℕ} {s : State} (hs : s.Inv) : NextInv (execRotaryFillArrival n i s) := by
  refine .next ?_
  split
  · exact hs
  · split
    · exact .coreFault hs
    · exact .coreFault (.pfRecord hs)
    next s1 x _ e =>
      have h1 : s1.Inv := OkAll.of_eq (P := fun r : State × RotLine => r.1.Inv) (State.readRotLine_inv hs) e
      exact .modCore h1

theorem execPhaseEnd_inv {n : CoreNo} {s : State} (hs : s.Inv) : NextInv (execPhaseEnd n s) :=
  .next (.ite (.atBoundary (.modCore (.dropToken hs))) hs)

theorem execPhaseTurnEnd_inv {n : CoreNo} {s : State} (hs : s.Inv) : NextInv (execPhaseTurnEnd n s) :=
  .next (.ite (.ite (.modCore hs) (.modCore (.ite (.dropBallast hs) hs))) hs)

theorem execGroupTokenGrant_inv {n : CoreNo} {s : State} (hs : s.Inv) : NextInv (execGroupTokenGrant n s) := by
  unfold execGroupTokenGrant
  refine .next ?_
  split
  · exact .modCore hs
  · exact hs

theorem execCoreHang_inv {n : CoreNo} {s : State} (hs : s.Inv) : NextInv (execCoreHang n s) := .next (.ite (.coreFault hs) hs)

theorem execCoreStart_inv {n : CoreNo} {priv : BitVec 2} {s : State} (hs : s.Inv) : NextInv (execCoreStart n priv s) :=
  .next (.startCore hs)

theorem execCoreHalt_inv {n : CoreNo} {s : State} (hs : s.Inv) : NextInv (execCoreHalt n s) := .next (.haltCore hs)

theorem execHaltComplete_inv {n : CoreNo} {s : State} (hs : s.Inv) : NextInv (execHaltComplete n s) :=
  .next (.ite (.atBoundary (.modCore (.dropToken hs))) hs)

theorem execCoreResume_inv {n : CoreNo} {s : State} (hs : s.Inv) : NextInv (execCoreResume n s) := .next (.resumeCore hs)

theorem execSoftReset_inv {n : CoreNo} {s : State} (hs : s.Inv) : NextInv (execSoftReset n s) := .next (.softResetCore hs)

theorem execSoftResetComplete_inv {n : CoreNo} {s : State} (hs : s.Inv) : NextInv (execSoftResetComplete n s) :=
  .next (.ite (.atBoundary (.modCore hs)) hs)

theorem execRotInvalidate_inv {n : CoreNo} {s : State} (hs : s.Inv) : NextInv (execRotInvalidate n s) := .next (.modCore hs)

theorem execProgLoad_inv {n : CoreNo} {v : W32} {s : State} (hs : s.Inv) : NextInv (execProgLoad n v s) := .next (.modCore hs)

theorem State.Inv.failLoad {s : State} {n : CoreNo} {l : ProgLoad} (hs : s.Inv) : (s.failLoad n l).Inv := .modCore hs

theorem execProgLoadComplete_inv {n : CoreNo} {s : State} (hs : s.Inv) : NextInv (execProgLoadComplete n s) := by
  unfold execProgLoadComplete
  refine .next ?_
  split
  · exact hs
  · extract_lets +onlyGivenNames s0 q
    have hs0 : s0.Inv := .modCore hs
    split
    · exact .report (.failLoad hs0)
    · exact .reportPF (.failLoad hs0)
    · exact .modCore (.touchTrans (.readPath hs0))

theorem execCoreEventCtrlWrite_inv {n : CoreNo} {v : W32} {s : State} (hs : s.Inv) : NextInv (execCoreEventCtrlWrite n v s) :=
  .next (.modCore hs)

theorem execCoreRngSeedWrite_inv {n : CoreNo} {v : W64} {s : State} (hs : s.Inv) : NextInv (execCoreRngSeedWrite n v s) :=
  .next (.modCore hs)

theorem execCoreFolioWrite_inv {n : CoreNo} {v : W64} {s : State} (hs : s.Inv) : NextInv (execCoreFolioWrite n v s) := .next (.modCore hs)

end Sys2Proof.Machine
end

section
/-! SUPPORT. The operations of Sys2Proof/Machine/Folio.lean keep the invariant. -/

namespace Sys2Proof.Machine

theorem State.takeFolio_inv {s : State} {src : CmdSrc} {op : ℕ} (hs : s.Inv) : (s.takeFolio src op).1.Inv := State.takeJob_inv hs

theorem State.Inv.endFolio {s : State} {j : Job} {r : FolioRecord} (hs : s.Inv) : (s.endFolio j r).Inv := .endRecord hs

theorem State.Inv.endClosed {s : State} {j : Job} (hs : s.Inv) : (s.endClosed j).Inv := .endFolio hs

theorem State.Inv.openFolio {s : State} {j : Job} {members : List Member} (hs : s.Inv) : (s.openFolio j members).Inv := by
  unfold State.openFolio
  split
  · exact .endFolio hs
  · exact .ite (.endFolio hs) (.endFolio (.setSlot hs))

theorem execFolioOpen_inv {src : CmdSrc} {s : State} (hs : s.Inv) : NextInv (execFolioOpen src s) := by
  unfold execFolioOpen
  split
  next s1 e =>
    have hs1 : State.Inv s1 := of_fst  e (State.takeFolio_inv hs)
    exact .next hs1
  next s1 j e =>
    have hs1 : State.Inv s1 := of_fst  e (State.takeFolio_inv hs)
    refine .ite ?_ (.next (.openFolio hs1))
    split
    · exact .next (.endFolio (.pfRecord hs1))
    · exact .next (.ite (.endFolio hs1) (.ite (.rejectJob hs1) (.openFolio hs1)))

theorem execFolioExtend_inv {src : CmdSrc} {s : State} (hs : s.Inv) : NextInv (execFolioExtend src s) := by
  unfold execFolioExtend
  split
  next s1 e =>
    have hs1 : State.Inv s1 := of_fst  e (State.takeFolio_inv hs)
    exact .next hs1
  next s1 j e =>
    have hs1 : State.Inv s1 := of_fst  e (State.takeFolio_inv hs)
    exact .ite (.next (.endClosed hs1)) (.ite (.next (.rejectJob hs1)) (.next (.endFolio (.setSlot hs1))))

theorem State.Inv.awaitEnd {s : State} {id : ℕ} {j : Job} (hs : s.Inv) : (s.awaitEnd id j).Inv := .setSlot hs

theorem State.Inv.sealLocal {s : State} {id : ℕ} (hs : s.Inv) : (s.sealLocal id).Inv :=
  .ite (.scrapeSlot (FX.Inv.back (.judge (.ofSlot hs)))) (FX.Inv.back (.sealPoint (.judge (.ofSlot hs))))

theorem State.Inv.completePart {s : State} {id : ℕ} (hs : s.Inv) : (s.completePart id).Inv := by
  unfold State.completePart
  extract_lets +onlyGivenNames f
  split
  · exact hs
  · exact .ite (.answerPart (.foldl (fun _ _ ht => .tellMember ht) (.modSpan (.setSlot hs)))) (.ite (.answerPart (.modSpan (.setSlot hs)))
      (.modSpan (.setSlot hs)))

theorem execFolioSeal_inv {src : CmdSrc} {s : State} (hs : s.Inv) : NextInv (execFolioSeal src s) := by
  unfold execFolioSeal
  split
  next s1 e =>
    have hs1 : State.Inv s1 := of_fst  e (State.takeFolio_inv hs)
    exact .next hs1
  next s1 j e =>
    have hs1 : State.Inv s1 := of_fst  e (State.takeFolio_inv hs)
    extract_lets +onlyGivenNames id f
    refine .ite (.next (.endClosed hs1)) ?_
    extract_lets +onlyGivenNames s2
    have hs2 : s2.Inv := .awaitEnd hs1
    refine .next ?_
    refine .retryFreed ?_ hs
    refine .ite (.scrapePart hs2) ?_
    split
    · exact .sealLocal hs2
    · exact .completePart hs2

theorem State.Inv.lostRecords {s : State} {f : Folio} {lost : List ℕ} (hs : s.Inv) : (s.lostRecords f lost).Inv :=
  .foldl (fun _ _ ht => .poisonGran ht) hs

theorem execFolioApplyComplete_inv {a : Applied} {s : State} (hs : s.Inv) : NextInv (execFolioApplyComplete a s) := by
  unfold execFolioApplyComplete
  extract_lets +onlyGivenNames f
  refine .ite (.next hs) ?_
  extract_lets +onlyGivenNames s1
  have hs1 : s1.Inv := .endSlot (.lostRecords hs)
  split
  · exact .next hs1
  · exact .next (.ite hs1 (.tellMember hs1))

theorem execFolioScrape_inv {src : CmdSrc} {s : State} (hs : s.Inv) : NextInv (execFolioScrape src s) := by
  unfold execFolioScrape
  split
  next s1 e =>
    have hs1 : State.Inv s1 := of_fst  e (State.takeFolio_inv hs)
    exact .next hs1
  next s1 j e =>
    have hs1 : State.Inv s1 := of_fst  e (State.takeFolio_inv hs)
    exact .ite (.next (.endClosed hs1)) (.next (.retryFreed (.scrapePart (.awaitEnd hs1)) hs))

theorem execFolioInspect_inv {src : CmdSrc} {s : State} (hs : s.Inv) : NextInv (execFolioInspect src s) := by
  unfold execFolioInspect
  split
  next s1 e =>
    have hs1 : State.Inv s1 := of_fst  e (State.takeFolio_inv hs)
    exact .next hs1
  next s1 j e =>
    have hs1 : State.Inv s1 := of_fst  e (State.takeFolio_inv hs)
    exact .ite (.next (.endClosed hs1)) (.next (.endFolio hs1))

theorem execSnapOpen_inv {src : CmdSrc} {s : State} (hs : s.Inv) : NextInv (execSnapOpen src s) := by
  unfold execSnapOpen
  split
  next s1 e => exact .next (of_fst e (State.takeFolio_inv hs))
  next s1 j e =>
    have h1 : s1.Inv := of_fst e (State.takeFolio_inv hs)
    extract_lets +onlyGivenNames ep
    refine .ite (.next (.endFolio h1)) ?_
    split
    · exact .next (.endFolio h1)
    next sid _ =>
      refine .ite (.next (.endFolio h1)) (.next (.endFolio ?_))
      exact h1.of_fol (fun h => h) (fun h => Tab.wf_set h _ _)

theorem execSnapClose_inv {src : CmdSrc} {s : State} (hs : s.Inv) : NextInv (execSnapClose src s) := by
  unfold execSnapClose
  split
  next s1 e =>
    have hs1 : State.Inv s1 := of_fst  e (State.takeFolio_inv hs)
    exact .next hs1
  next s1 j e =>
    have hs1 : State.Inv s1 := of_fst  e (State.takeFolio_inv hs)
    extract_lets +onlyGivenNames sid
    split
    · exact .next (.endFolio hs1)
    · exact .ite (.next (.endFolio hs1)) (.next (.endFolio (.closeSnap hs1)))

theorem execFolioResolve_inv {src : CmdSrc} {s : State} (hs : s.Inv) : NextInv (execFolioResolve src s) := by
  unfold execFolioResolve
  split
  next s1 e =>
    have hs1 : State.Inv s1 := of_fst  e (State.takeFolio_inv hs)
    exact .next hs1
  next s1 j e =>
    have hs1 : State.Inv s1 := of_fst  e (State.takeFolio_inv hs)
    exact .ite (.next (.endClosed hs1)) (.ite (.next (.sealSlot (.awaitEnd hs1))) (.next (.retryFreed (.scrapeSlot (.awaitEnd hs1)) hs)))

theorem execFolioWrite_inv {p : PartNo} {handle addr : W64} {data : List Byte} {poisoned : Bool} {s : State} (hs : s.Inv) :
    NextInv (execFolioWrite p handle addr data poisoned s) := by
  unfold execFolioWrite
  extract_lets +onlyGivenNames id f
  refine .ite (.next (.emit hs)) ?_
  split
  · exact .next (.emit (.pfRecord hs))
  · exact .next (FX.Inv.done (.write (.ofSlot hs)))

theorem State.Inv.dropRef {s : State} {f : ℕ} {e : W32} (hs : s.Inv) : (s.dropRef f e).Inv := .ite (.modMem (.refFrame hs)) (.refFrame hs)

theorem State.Inv.retireTable {s : State} {f : ℕ} {e : W32} (hs : s.Inv) : (s.retireTable f e).Inv := .ite (.modMem (.setFrame hs)) hs

theorem execSubtreeDecrement_inv {s : State} (hs : s.Inv) : NextInv (execSubtreeDecrement s) := by
  unfold execSubtreeDecrement
  split
  · exact .next hs
  · exact .next (.retireTable (.ite (.foldl (fun _ _ ht => .dropRef ht) (.modMem hs)) (.modMem (.modMem hs))))

theorem execPrepare_inv {m : SpanMsg} {index : ℕ} {s : State} (hs : s.Inv) : NextInv (execPrepare m index s) := by
  unfold execPrepare
  refine .next ?_
  refine .retryFreed ?_ hs
  refine .hear hs (fun s hs => ?_)
  split
  · exact .answerPart (.modSpan hs)
  · exact .emit hs

theorem execVote_inv {m : SpanMsg} {member : ℕ} {yes : Bool} {code : W16} {time : W64} {s : State} (hs : s.Inv) :
    NextInv (execVote m member yes code time s) := by
  unfold execVote
  refine .next ?_
  refine .retryFreed ?_ hs
  refine .hear hs (fun s hs => ?_)
  split
  · exact hs
  · split
    · exact hs
    · exact .ite hs (.tally (.modSpan hs))

theorem execDecision_inv {m : SpanMsg} {index : ℕ} {sealed : Bool} {code : W16} {noIndex : ℕ} {s : State} (hs : s.Inv) :
    NextInv (execDecision m index sealed code noIndex s) := by
  refine .next (.retryFreed (.hear hs (fun t ht => ?_)) hs)
  split
  · refine .emit ?_
    split
    · exact .ite ht (.keepDecision ht)
    · exact ht
  · split
    · exact ht
    · exact .ite ht (.followDecision ht)

theorem execDecisionAck_inv {m : SpanMsg} {member : ℕ} {s : State} (hs : s.Inv) : NextInv (execDecisionAck m member s) := by
  unfold execDecisionAck
  refine .next ?_
  refine .retryFreed ?_ hs
  refine .hear hs (fun s hs => ?_)
  split
  · exact hs
  · split
    · exact hs
    · exact .ite hs (.ite (.coordAct (.modSpan hs)) (.modSpan hs))

theorem execSpanDeadline_inv {id : BitVec 14} {s : State} (hs : s.Inv) : NextInv (execSpanDeadline id s) := by
  unfold execSpanDeadline
  extract_lets +onlyGivenNames f
  split
  · exact .next hs
  · exact .ite (.next hs) (.ite (.next (.retryFreed (.ite (.coordAct (.decideSpan hs)) (.decideSpan hs)) hs)) (.ite (.next (.ite
      (.answerPart (.modSpan hs)) (.modSpan hs))) (.next hs)))

theorem execCoordAckTimeout_inv {id : BitVec 14} {s : State} (hs : s.Inv) : NextInv (execCoordAckTimeout id s) := by
  unfold execCoordAckTimeout
  split
  · exact .next hs
  · exact .ite (.next (.retryFreed (.coordAct hs) hs)) (.next hs)

theorem execInDoubtQuery_inv {id : BitVec 14} {s : State} (hs : s.Inv) : NextInv (execInDoubtQuery id s) := by
  unfold execInDoubtQuery
  extract_lets +onlyGivenNames f
  split
  · exact .next hs
  · exact .ite (.next (.foldl (fun _ _ ht => .tellMember ht) (.modSpan hs))) (.next hs)

theorem execDecisionQuery_inv {m : SpanMsg} {index asker : ℕ} {s : State} (hs : s.Inv) : NextInv (execDecisionQuery m index asker s) := by
  unfold execDecisionQuery
  refine .next ?_
  refine .hear hs (fun s hs => ?_)
  split
  · exact .emit hs
  · split
    · exact hs
    · exact .ite (.emit (.decideSpan hs)) hs

theorem execFolioInDoubt_inv {id : BitVec 14} {s : State} (hs : s.Inv) : NextInv (execFolioInDoubt id s) := by
  unfold execFolioInDoubt
  extract_lets +onlyGivenNames f
  split
  · exact .next hs
  · exact .ite (.next (.report (.setSlot hs))) (.next hs)

theorem execDecisionAnswerExpiry_inv {globalId : W64} {index : ℕ} {s : State} (hs : s.Inv) :
    NextInv (execDecisionAnswerExpiry globalId index s) :=
  .next hs

end Sys2Proof.Machine
end

section
/-! SUPPORT. The operations of Sys2Proof/Machine/PortOps.lean keep the invariant. -/

namespace Sys2Proof.Machine

theorem State.Inv.setRx {s : State} {x : RxMsg} (hs : s.Inv) : (s.setRx x).Inv := .modLink hs

theorem State.Inv.dropRx {s : State} {src id : W32} (hs : s.Inv) : (s.dropRx src id).Inv := .modLink hs

theorem State.Inv.acceptHeader {s : State} {p : PortNo} {b : List Byte} (hs : s.Inv) : (s.acceptHeader p b).Inv := by
  unfold State.acceptHeader
  extract_lets +onlyGivenNames mt src id lead total add known
  have hadd : ∀ x0, x0.1.Inv → (add x0).Inv := fun _ hr => .modLink hr
  refine .ite hs ?_
  refine .ite ?_ (.ite (.countPort hs) (.ite (hadd _ (State.collTarget_inv hs)) (hadd _ hs)))
  extract_lets +onlyGivenNames n
  split
  · exact .relayChunk (hadd _ hs)
  · exact .ite (.countPort hs) (hadd _ (State.quireTarget_inv hs))

theorem State.Inv.keepGathered {s : State} {m : RxMsg} {p : PartNo} {addr : ℕ} {c : RxChunk} (hs : s.Inv) :
    (s.keepGathered m p addr c).Inv :=
  .modLink hs

theorem State.deliverChunk_inv {s : State} {m : RxMsg} {c : RxChunk} (hs : s.Inv) : (s.deliverChunk m c).1.Inv := by
  unfold State.deliverChunk
  split
  · exact State.landQuire_inv hs
  · exact .ite_fst (.keepGathered (State.landChunk_inv hs)) (State.landChunk_inv hs)
  · exact hs

theorem State.Inv.finishRx {s : State} {m : RxMsg} (hs : s.Inv) : (s.finishRx m).Inv := by
  unfold State.finishRx
  extract_lets +onlyGivenNames s1
  have hs1 : s1.Inv := .dropRx hs
  split
  · exact .quireLanded hs1
  · exact .collReady hs1
  · exact .collCount hs1
  · exact hs1

theorem State.Inv.goodChunk {s : State} {p : PortNo} {m : RxMsg} {c : RxChunk} (hs : s.Inv) : (s.goodChunk p m c).Inv := by
  unfold State.goodChunk
  extract_lets +onlyGivenNames s1
  have hs1 : s1.Inv := .emit hs
  refine .ite hs1 ?_
  extract_lets +onlyGivenNames r
  have hr : r.1.Inv := State.deliverChunk_inv hs1
  refine .ite (.setRx hr) ?_
  extract_lets +onlyGivenNames m1 s2
  have hs2 : s2.Inv := .ite (.finishRx hr) (.setRx hr)
  split
  · exact .ringSend hs2
  · exact hs2

theorem State.Inv.badChunk {s : State} {p : PortNo} {m : RxMsg} {c : ℕ} (hs : s.Inv) : (s.badChunk p m c).Inv :=
  .ite (.reportPort (.dropRx (.emit (.countPort hs)))) (.setRx (.emit (.countPort hs)))

theorem State.Inv.acceptChunk {s : State} {p : PortNo} {b : List Byte} (hs : s.Inv) : (s.acceptChunk p b).Inv := by
  unfold State.acceptChunk
  split
  · exact hs
  · refine .ite hs ?_
    split
    · exact .relayChunk hs
    · exact .ite (.goodChunk hs) (.badChunk hs)

theorem State.Inv.acceptRecord {s : State} {p : PortNo} {b : List Byte} (hs : s.Inv) : (s.acceptRecord p b).Inv := by
  unfold State.acceptRecord
  split
  · exact .acceptHeader hs
  · exact .acceptChunk hs
  · exact hs

theorem State.acceptRecords_inv {p : PortNo} {n : ℕ} : ∀ {s : State} {b : List Byte}, s.Inv → (s.acceptRecords p b n).1.Inv := by
  induction n with
  | zero =>
    intro s b hs
    unfold State.acceptRecords
    exact hs
  | succ n ih =>
    intro s b hs
    cases b with
    | nil => exact hs
    | cons a r =>
      unfold State.acceptRecords
      exact .ite_fst hs (ih (.acceptRecord hs))

theorem State.Inv.drainLane {s : State} {p : PortNo} {lane : Fin 4} (hs : s.Inv) : (s.drainLane p lane).Inv :=
  .modPort (State.acceptRecords_inv hs)

theorem State.Inv.noteResend {s : State} {p : PortNo} (hs : s.Inv) : (s.noteResend p).Inv := by
  unfold State.noteResend
  extract_lets +onlyGivenNames s1
  have hs1 : s1.Inv := .countPort hs
  split
  · exact .ite hs1 (.reportPort (.modPort hs1))
  · exact .reportPort (.modPort hs1)

theorem State.Inv.failMessage {s : State} {id : W32} {code : ℕ} (hs : s.Inv) : (s.failMessage id code).Inv := by
  unfold State.failMessage
  split
  · exact hs
  · split
    · exact .ringSend (.failTx hs)
    · exact .failTx hs

theorem State.Inv.failCheck {s : State} {p : PortNo} {id : W32} (hs : s.Inv) : (s.failCheck p id).Inv := .failMessage (.reportPort hs)

theorem State.Inv.chunkReported {s : State} {p : PortNo} {id : W32} {c : ℕ} {good : Bool} (hs : s.Inv) :
    (s.chunkReported p id c good).Inv := by
  unfold State.chunkReported
  split
  · exact hs
  · split
    · exact hs
    · refine .ite (.completeTx (.modTx hs)) ?_
      refine .ite (.failMessage hs) ?_
      refine .ite ?_ ?_
      · refine .ite (.failCheck hs) ?_
        extract_lets +onlyGivenNames s1
        have hs1 : s1.Inv := .queueLane (.modTx (.noteResend hs))
        split
        next t e =>
          have ht : State.Inv t := OkAll.of_eq (P := State.Inv)  (.foldlM (fun _ _ ha => State.sendChunk_inv ha) _ hs1) e
          exact ht
        next a e =>
          exact .failMessage hs1
      · refine .ite (.failCheck hs) ?_
        extract_lets +onlyGivenNames s1
        have hs1 : s1.Inv := .modTx (.noteResend hs)
        split
        next t e =>
          have ht : State.Inv t := OkAll.of_eq (P := State.Inv)  (State.sendChunk_inv hs1) e
          exact ht
        next a e =>
          exact .failMessage hs1

theorem State.Inv.chooseRoot {s : State} (hs : s.Inv) : s.chooseRoot.Inv := by
  unfold State.chooseRoot
  extract_lets +onlyGivenNames own hs' best
  refine .ite hs ?_
  extract_lets +onlyGivenNames cand
  split
  · exact hs
  · extract_lets +onlyGivenNames t same s1
    have h1 : s1.Inv := .modLink hs
    exact .ite h1 h1

theorem State.Inv.scrapeLost {s : State} {part : PartNo} {peer : Option Beacon} (hs : s.Inv) : (s.scrapeLost part peer).Inv :=
  .foldl (fun _ _ ht => .ite ht (.scrapePart ht)) hs

theorem State.Inv.stopSending {s : State} {n : Fin 16} (hs : s.Inv) : (s.stopSending n).Inv := by
  unfold State.stopSending
  split
  · exact hs
  · extract_lets +onlyGivenNames t
    have ht : t.Inv := .modRing hs
    split
    · exact ht
    · exact .modTx ht

theorem State.Inv.stopRing {s : State} {n : Fin 16} (hs : s.Inv) : (s.stopRing n).Inv := by
  unfold State.stopRing
  refine .foldl (fun t k ht => ?_) (.stopSending hs)
  split
  · exact .ite (.writeLand (.setLandSlot (.dropLanding ht))) ht
  · exact ht

theorem State.Inv.breakRing {s : State} {n : Fin 16} {p : PortNo} (hs : s.Inv) : (s.breakRing n p).Inv :=
  .ite (.modRing hs) (.retryFreed (.scrapeLost (.report (.modRing (.stopSending (.modRing hs))))) hs)

theorem State.Inv.failOnPort {s : State} {p : PortNo} {code : ℕ} (hs : s.Inv) : (s.failOnPort p code).Inv :=
  .foldl (fun _ _ ht => .failTx ht) hs

theorem State.Inv.leavePort {s : State} {p : PortNo} {to_ : PortMode} (hs : s.Inv) : (s.leavePort p to_).Inv :=
  .ite (.setPort hs) (.ite (.chooseRoot (.foldl (fun _ _ ht => .breakRing ht) (.failOnPort (.setPort hs)))) (.foldl (fun _ _ ht =>
    .breakRing ht) (.failOnPort (.setPort hs))))

theorem State.Inv.quarantine {s : State} {p : PortNo} (hs : s.Inv) : (s.quarantine p).Inv := .leavePort hs

theorem State.Inv.authFail {s : State} {p : PortNo} (hs : s.Inv) : (s.authFail p).Inv := .modPort (.quarantine (.reportPort hs))

theorem State.Inv.sendFlits {s : State} {p : PortNo} {fs : List (List Byte)} (hs : s.Inv) : (s.sendFlits p fs).Inv :=
  .foldl (fun _ _ ht => .emit ht) (.emit (.modPort hs))

theorem State.Inv.sendSealed {s : State} {p : PortNo} {t : FlitType} {fields : List Byte} (hs : s.Inv) : (s.sendSealed p t fields).Inv :=
  .sendFlits (.setPort hs)

theorem State.Inv.lctlOut {s : State} {p : PortNo} (hs : s.Inv) : (s.lctlOut p).Inv := .sendSealed (.modPort hs)

theorem State.Inv.helloOut {s : State} {p : PortNo} (hs : s.Inv) : (s.helloOut p).Inv := .sendFlits hs

theorem State.Inv.idleOut {s : State} {p : PortNo} (hs : s.Inv) : (s.idleOut p).Inv := .sendFlits hs

theorem State.Inv.modTime {s : State} {f : TimeState → TimeState} (hs : s.Inv) : (s.modTime f).Inv := .modLink hs

theorem State.Inv.sendTime {s : State} {p : PortNo} {fields : List Byte} (hs : s.Inv) : (s.sendTime p fields).Inv := .sendSealed hs

theorem State.Inv.syncReqOut {s : State} {p : PortNo} (hs : s.Inv) : (s.syncReqOut p).Inv := .draw (.sendTime (.modTime hs))

theorem State.Inv.syncRespOut {s : State} {p : PortNo} {b : List Byte} {t2 : W64} {frac : BitVec 4} (hs : s.Inv) :
    (s.syncRespOut p b t2 frac).Inv :=
  .draw (.sendTime hs)

theorem State.Inv.sendDue {s : State} {p : PortNo} {d : DueFlit} (hs : s.Inv) : (s.sendDue p d).Inv := by
  unfold State.sendDue
  split
  · exact .lctlOut hs
  · exact .helloOut hs
  · exact .syncReqOut hs
  · exact .syncRespOut hs
  · exact .sendTime hs

theorem State.Inv.sendOrDue {s : State} {p : PortNo} {d : DueFlit} (hs : s.Inv) : (s.sendOrDue p d).Inv := .ite (.sendDue hs) (.modPort hs)

theorem State.Inv.sendGroup {s : State} {p : PortNo} {lane : Fin 4} (hs : s.Inv) : (s.sendGroup p lane).Inv :=
  .ite (.ringsSend (.countPort (.countPort (.sendFlits (.setPort hs))))) (.countPort (.countPort (.sendFlits (.setPort hs))))

theorem State.Inv.replayGroup {s : State} {p : PortNo} {g : TxGroup} (hs : s.Inv) : (s.replayGroup p g).Inv :=
  .countPort (.countPort (.sendFlits (.setPort hs)))

theorem State.Inv.dueOrIdle {s : State} {p : PortNo} (hs : s.Inv) : (s.dueOrIdle p).Inv := by
  unfold State.dueOrIdle
  split
  · exact .sendDue (.modPort hs)
  · exact .idleOut hs

theorem State.Inv.groupBoundary {s : State} {p : PortNo} (hs : s.Inv) : (s.groupBoundary p).Inv := by
  unfold State.groupBoundary
  extract_lets +onlyGivenNames x
  refine .ite hs ?_
  split
  · exact .ite (.dueOrIdle (.countPort hs)) (.replayGroup hs)
  · refine .ite (.dueOrIdle hs) ?_
    refine .ite (.sendGroup hs) ?_
    refine .ite (.dueOrIdle hs) ?_
    split
    · exact .sendGroup (.setPort hs)
    · refine .dueOrIdle ?_
      split
      · exact .countPort hs
      · exact hs

theorem State.Inv.replayFrom {s : State} {p : PortNo} {k : ℕ} (hs : s.Inv) : (s.replayFrom p k).Inv := .modPort hs

end Sys2Proof.Machine
end

section
/-! SUPPORT. The operations of Sys2Proof/Machine/Ring.lean keep the invariant. -/

namespace Sys2Proof.Machine

theorem State.Inv.grantSlots {s : State} {n : Fin 16} (hs : s.Inv) : (s.grantSlots n).Inv := by
  unfold State.grantSlots
  extract_lets +onlyGivenNames r slots
  refine .foldl (fun t k ht => ?_) (.modRing hs)
  split
  · exact .ite ht (.sendCredit (.writeLand ht))
  · exact ht

theorem execRingEnable_inv {r : Fin 16} {s : State} (hs : s.Inv) : NextInv (execRingEnable r s) :=
  .next (.ite (.ringSend (.grantSlots (.modRing hs))) hs)

theorem execRingDisable_inv {r : Fin 16} {s : State} (hs : s.Inv) : NextInv (execRingDisable r s) := .next (.ite (.modRing hs) hs)

theorem execRingStop_inv {r : Fin 16} {s : State} (hs : s.Inv) : NextInv (execRingStop r s) := .next (.ite (.modRing (.stopRing hs)) hs)

theorem execRingStopped_inv {r : Fin 16} {s : State} (hs : s.Inv) : NextInv (execRingStopped r s) := .next (.ite (.modRing hs) hs)

theorem State.Inv.newEpoch {s : State} {r : Fin 16} {v : W32} (hs : s.Inv) : (s.newEpoch r v).Inv :=
  .foldl (fun _ _ ht => .writeLand ht) (.modRing (.foldl (fun _ _ ht => .dropLanding ht) hs))

theorem execRingEpochWrite_inv {r : Fin 16} {v : W32} {s : State} (hs : s.Inv) : NextInv (execRingEpochWrite r v s) :=
  .next (.ite (.newEpoch hs) hs)

theorem execRingSqTailWrite_inv {r : Fin 16} {v : Byte} {s : State} (hs : s.Inv) : NextInv (execRingSqTailWrite r v s) :=
  .next (.ringSend (.modRing hs))

theorem execQuireHeaderArrival_inv {p : PortNo} {body : List Byte} {s : State} (hs : s.Inv) : NextInv (execQuireHeaderArrival p body s) :=
  .next (.ite (.acceptHeader hs) hs)

theorem execQuireChunkArrival_inv {p : PortNo} {body : List Byte} {s : State} (hs : s.Inv) : NextInv (execQuireChunkArrival p body s) := by
  unfold execQuireChunkArrival
  refine .next ?_
  split
  · exact hs
  · refine .ite hs ?_
    split
    · exact .acceptChunk hs
    · exact .goodChunk hs

theorem execLandingCredit_inv {r : Fin 16} {epoch : W32} {slot : ℕ} {j : W32} {s : State} (hs : s.Inv) :
    NextInv (execLandingCredit r epoch slot j s) :=
  .next (.ite (.ringSend (.modRing hs)) hs)

theorem State.Inv.releaseSlot {s : State} {n : Fin 16} {k : ℕ} (hs : s.Inv) : (s.releaseSlot n k).Inv := by
  unfold State.releaseSlot
  extract_lets +onlyGivenNames r
  split
  · refine .ite hs ?_
    split
    · exact .reportPF hs
    · exact .ite (.sendCredit (.writeLand (.setLandSlot (.disarmLanding hs)))) hs
  · exact hs

theorem execReleasePoll_inv {r : Fin 16} {s : State} (hs : s.Inv) : NextInv (execReleasePoll r s) :=
  .next (.foldl (fun _ _ ht => .releaseSlot ht) hs)

theorem execRingBroken_inv {r : Fin 16} {s : State} (hs : s.Inv) : NextInv (execRingBroken r s) := by
  unfold execRingBroken
  refine .next ?_
  extract_lets +onlyGivenNames x ps
  split
  · exact .breakRing hs
  · exact hs

theorem execMulticastRead_inv {m : MDie} {set : Fin 16} {member : Fin 32} {addr : W64} {lines : ℕ} {s : State} (hs : s.Inv) :
    NextInv (execMulticastRead m set member addr lines s) := by
  unfold execMulticastRead
  refine .next ?_
  extract_lets +onlyGivenNames x
  split
  · exact hs
  · exact .ite hs (.mcastLoad hs)

theorem execDetachWaitExpiry_inv {m : MDie} {set : Fin 16} {s : State} (hs : s.Inv) : NextInv (execDetachWaitExpiry m set s) := by
  unfold execDetachWaitExpiry
  refine .next ?_
  extract_lets +onlyGivenNames x
  split
  · exact hs
  · exact .ite hs (.mcastResume (.foldl (fun _ _ ht => .countDie ht) (.setMcast hs)))

end Sys2Proof.Machine
end

section
/-! SUPPORT. The operations of Sys2Proof/Machine/Haros.lean keep the invariant. -/

namespace Sys2Proof.Machine

theorem State.Inv.flitPass {s : State} {p : PortNo} {t : FlitType} {f : List Byte} {k : State → State} (hs : s.Inv) (hk : ∀ x0, x0.Inv →
    (k x0).Inv) :
    (s.flitPass p t f k).Inv := by
  unfold State.flitPass
  refine .ite hs ?_
  split
  · exact .modPort hs
  · exact .ite (hk _ hs) hs

theorem State.Inv.authPass {s : State} {p : PortNo} {f : List Byte} {k : State → State} (hs : s.Inv) (hk : ∀ x0, x0.Inv → (k x0).Inv) :
    (s.authPass p f k).Inv :=
  .ite (.authFail hs) (.ite hs (hk _ (.ite (.modPort hs) hs)))

theorem State.Inv.countFec {s : State} {p : PortNo} {g : FlitBurst} (hs : s.Inv) : (s.countFec p g).Inv :=
  .countPort (.countPort (.modPort hs))

theorem State.Inv.takeGroup {s : State} {p : PortNo} {fs : List (List Byte)} (hs : s.Inv) : (s.takeGroup p fs).Inv :=
  .ite (.sendOrDue (.drainLane (.countPort (.setPort hs)))) (.drainLane (.countPort (.setPort hs)))

theorem State.Inv.discardGroup {s : State} {p : PortNo} {lane : Fin 4} {fs : List (List Byte × Bool)} (hs : s.Inv) :
    (s.discardGroup p lane fs).Inv :=
  .countPort (.modPort hs)

theorem execDataGroup_inv {p : PortNo} {g : FlitBurst} {s : State} (hs : s.Inv) : NextInv (execDataGroup p g s) :=
  .next (.ite (.modPort (.countFec hs)) (.ite (.ite (.takeGroup (.modPort (.countFec hs))) (.authFail (.modPort (.countFec hs))))
    (.discardGroup (.modPort (.countFec hs)))))

theorem State.Inv.replayOrDown {s : State} {p : PortNo} {k : ℕ} (hs : s.Inv) : (s.replayOrDown p k).Inv :=
  .ite (.ite (.leavePort hs) (.replayFrom (.modPort hs))) (.replayFrom hs)

theorem State.Inv.takeLctl {s : State} {p : PortNo} {f : LctlBody} (hs : s.Inv) : (s.takeLctl p f).Inv := by
  unfold State.takeLctl
  extract_lets +onlyGivenNames x y s1
  have h1 : s1.Inv := .setPort hs
  split
  · exact h1
  · split
    · exact .modPort h1
    · exact .replayOrDown h1

theorem execLctl_inv {p : PortNo} {flit : List Byte} {s : State} (hs : s.Inv) : NextInv (execLctl p flit s) :=
  .next (.flitPass hs (fun _ hs => .authPass hs (fun _ hs => .takeLctl hs)))

theorem execReplayTimeout_inv {p : PortNo} {s : State} (hs : s.Inv) : NextInv (execReplayTimeout p s) := .next (.ite hs (.replayOrDown hs))

theorem execNakRepeat_inv {p : PortNo} {s : State} (hs : s.Inv) : NextInv (execNakRepeat p s) := .next (.ite (.sendOrDue hs) hs)

theorem execLctlSend_inv {p : PortNo} {s : State} (hs : s.Inv) : NextInv (execLctlSend p s) := .next (.ite (.sendOrDue hs) hs)

theorem execGroupSend_inv {p : PortNo} {s : State} (hs : s.Inv) : NextInv (execGroupSend p s) := .next (.groupBoundary hs)

theorem State.Inv.enterUp {s : State} {p : PortNo} {enc : Bool} (hs : s.Inv) : (s.enterUp p enc).Inv :=
  .ite (.draw (.setPort hs)) (.setPort hs)

theorem State.Inv.installKeys {s : State} {p : PortNo} (hs : s.Inv) : (s.installKeys p).Inv := .ite (.draw (.modPort hs)) hs

theorem State.Inv.handshake {s : State} {p : PortNo} {b : Beacon} (hs : s.Inv) : (s.handshake p b).Inv :=
  .ite (.modPort (.quarantine (.reportPort hs))) (.ite (.modPort (.setPort hs)) (.enterUp (.setPort hs)))

theorem execHello_inv {p : PortNo} {flit : List Byte} {s : State} (hs : s.Inv) : NextInv (execHello p flit s) :=
  .next (.flitPass hs (fun _ hs => .ite (.handshake (.modPort hs)) (.modPort hs)))

theorem execHelloSend_inv {p : PortNo} {s : State} (hs : s.Inv) : NextInv (execHelloSend p s) := .next (.ite (.sendOrDue hs) hs)

theorem execLightDetect_inv {p : PortNo} {s : State} (hs : s.Inv) : NextInv (execLightDetect p s) := .next (.ite (.modPort hs) hs)

theorem execTrainingComplete_inv {p : PortNo} {s : State} (hs : s.Inv) : NextInv (execTrainingComplete p s) := .next (.ite (.modPort hs) hs)

theorem execTrainingTimeout_inv {p : PortNo} {s : State} (hs : s.Inv) : NextInv (execTrainingTimeout p s) :=
  .next (.ite (.modPort (.leavePort hs)) hs)

theorem execTrainingRetry_inv {p : PortNo} {s : State} (hs : s.Inv) : NextInv (execTrainingRetry p s) := .next (.ite (.modPort hs) hs)

theorem execHandshakeTimeout_inv {p : PortNo} {s : State} (hs : s.Inv) : NextInv (execHandshakeTimeout p s) :=
  .next (.ite (.leavePort hs) hs)

theorem State.Inv.openLinkSession {s : State} {p : PortNo} (hs : s.Inv) : (s.openLinkSession p).Inv := hs

theorem execKeyingComplete_inv {p : PortNo} {s : State} (hs : s.Inv) : NextInv (execKeyingComplete p s) :=
  .next (.ite (.openLinkSession (.enterUp hs)) hs)

theorem execKeyingTimeout_inv {p : PortNo} {s : State} (hs : s.Inv) : NextInv (execKeyingTimeout p s) :=
  .next (.ite (.quarantine (.reportPort hs)) hs)

theorem execPortLoss_inv {p : PortNo} {s : State} (hs : s.Inv) : NextInv (execPortLoss p s) := .next (.ite hs (.leavePort hs))

theorem State.Inv.retrain {s : State} {p : PortNo} (hs : s.Inv) : (s.retrain p).Inv := .ite hs (.leavePort hs)

theorem State.Inv.clearPortErr {s : State} {p : PortNo} (hs : s.Inv) : (s.clearPortErr p).Inv := .modPort hs

theorem execPortEnable_inv {p : PortNo} {v : W32} {s : State} (hs : s.Inv) : NextInv (execPortEnable p v s) :=
  .next (.ite (.clearPortErr (.ite (.retrain (.ite (.ite (.modPort hs) (.leavePort (.modPort hs))) (.ite (.modPort (.modPort hs))
    (.modPort hs)))) (.ite (.ite (.modPort hs) (.leavePort (.modPort hs))) (.ite (.modPort (.modPort hs)) (.modPort hs))))) (.ite (.retrain
    (.ite (.ite (.modPort hs) (.leavePort (.modPort hs))) (.ite (.modPort (.modPort hs)) (.modPort hs)))) (.ite (.ite (.modPort hs)
    (.leavePort (.modPort hs))) (.ite (.modPort (.modPort hs)) (.modPort hs)))))

theorem execPortRetrain_inv {p : PortNo} {s : State} (hs : s.Inv) : NextInv (execPortRetrain p s) := .next (.retrain hs)

theorem execPortClearErrors_inv {p : PortNo} {s : State} (hs : s.Inv) : NextInv (execPortClearErrors p s) := .next (.clearPortErr hs)

theorem execChunkReceive_inv {p : PortNo} {body : List Byte} {s : State} (hs : s.Inv) : NextInv (execChunkReceive p body s) :=
  .next (.acceptChunk hs)

theorem execChunkReport_inv {p : PortNo} {id : W32} {chunk : ℕ} {good : Bool} {s : State} (hs : s.Inv) :
    NextInv (execChunkReport p id chunk good s) :=
  .next (.chunkReported hs)

theorem execDepartMessage_inv {p : PortNo} {s : State} (hs : s.Inv) : NextInv (execDepartMessage p s) := .next (.ite (.leavePort hs) hs)

theorem State.Inv.acceptMessage {s : State} {p : PortNo} {mtype : ℕ} {body : List Byte} (hs : s.Inv) : (s.acceptMessage p mtype body).Inv :=
  .ite (State.acceptRecords_inv hs) hs

theorem execCollMessage_inv {p : PortNo} {body : List Byte} {s : State} (hs : s.Inv) : NextInv (execCollMessage p body s) :=
  .next (.acceptMessage hs)

theorem execCountMessage_inv {p : PortNo} {body : List Byte} {s : State} (hs : s.Inv) : NextInv (execCountMessage p body s) :=
  .next (.acceptMessage hs)

end Sys2Proof.Machine
end

section
/-! SUPPORT. The operations of Sys2Proof/Machine/Time.lean keep the invariant. -/

namespace Sys2Proof.Machine

theorem State.Inv.modClock {s : State} {f : ClockState → ClockState} (hs : s.Inv) : (s.modClock f).Inv := hs

theorem execTimePllLock_inv {s : State} (hs : s.Inv) : NextInv (execTimePllLock s) := .next (.ite hs (.modClock hs))

theorem execHoldoverEntry_inv {s : State} (hs : s.Inv) : NextInv (execHoldoverEntry s) := .next (.ite hs (.modTime (.modClock hs)))

theorem execSyncReqSend_inv {s : State} (hs : s.Inv) : NextInv (execSyncReqSend s) := by
  unfold execSyncReqSend
  refine .next ?_
  split
  · exact hs
  · exact .ite hs (.sendOrDue hs)

theorem State.Inv.withTime {s : State} {p : PortNo} {kind : ℕ} {f : TimeMsg} {k : State → List Byte → State} (hs : s.Inv)
    (hk : ∀ x0 x1, x0.Inv → (k x0 x1).Inv) :
    (s.withTime p kind f k).Inv :=
  .flitPass hs (fun _ hs => .ite (.authPass hs (fun _ hs => hk _ _ hs)) hs)

theorem execSyncReq_inv {p : PortNo} {f : TimeMsg} {s : State} (hs : s.Inv) : NextInv (execSyncReq p f s) :=
  .next (.withTime hs (fun _ _ hs => .sendOrDue hs))

theorem State.Inv.takeOffset {s : State} {p : PortNo} {o : ℤ} (hs : s.Inv) : (s.takeOffset p o).Inv := by
  unfold State.takeOffset
  extract_lets +onlyGivenNames t bring big near step closing good s1 split s2 s3
  have hs1 : s1.Inv := .modClock hs
  have hs2 : s2.Inv := .modTime hs1
  have hs3 : s3.Inv := hs2
  exact .ite (.reportPort hs3) hs3

theorem execSyncResp_inv {p : PortNo} {f : TimeMsg} {s : State} (hs : s.Inv) : NextInv (execSyncResp p f s) :=
  .next (.withTime hs (fun _ _ hs => .ite (.takeOffset hs) hs))

theorem execAnnounceSend_inv {s : State} (hs : s.Inv) : NextInv (execAnnounceSend s) :=
  .next (.foldl (fun _ _ ht => .ite (.sendOrDue ht) ht) hs)

theorem execAnnounce_inv {p : PortNo} {f : TimeMsg} {s : State} (hs : s.Inv) : NextInv (execAnnounce p f s) :=
  .next (.withTime hs (fun _ _ hs => .ite hs (.chooseRoot (.modPort hs))))

theorem execAnnounceExpiry_inv {p : PortNo} {s : State} (hs : s.Inv) : NextInv (execAnnounceExpiry p s) := by
  unfold execAnnounceExpiry
  refine .next ?_
  split
  · exact hs
  · exact .ite hs (.chooseRoot (.modPort hs))

end Sys2Proof.Machine
end

section
/-! SUPPORT. The operations of Sys2Proof/Machine/ModuleOps.lean keep the invariant. -/

namespace Sys2Proof.Machine

theorem State.Inv.modModu {s : State} {f : ModuleState → ModuleState} (hs : s.Inv) : (s.modModu f).Inv := hs

theorem State.Inv.setModState {s : State} {m : ModState} (hs : s.Inv) : (s.setModState m).Inv :=
  .ite hs (.notify (.ite (.raiseVector (.modHost (.modModu hs))) (.modHost (.modModu hs))))

theorem State.Inv.autoState {s : State} (hs : s.Inv) : s.autoState.Inv := .ite (.setModState hs) (.ite (.setModState hs) hs)

theorem State.Inv.setPartMode {s : State} {p : PartNo} {m : PartMode} (hs : s.Inv) : (s.setPartMode p m).Inv :=
  .ite hs (.autoState (.partitionEvent (.modPart hs)))

theorem State.Inv.haltCores {s : State} {ns : List CoreNo} (hs : s.Inv) : (s.haltCores ns).Inv :=
  .foldl (fun _ _ ht => .ite (.haltCore ht) ht) hs

theorem State.Inv.resetCores {s : State} {ns : List CoreNo} (hs : s.Inv) : (s.resetCores ns).Inv := .foldl (fun _ _ ht => .forceReset ht) hs

theorem State.Inv.stopRings {s : State} {ns : List (Fin 16)} (hs : s.Inv) : (s.stopRings ns).Inv :=
  .foldl (fun _ _ ht => .ite (.modRing (.stopRing ht)) ht) hs

theorem State.Inv.disarmPart {s : State} {p : PartNo} (hs : s.Inv) : (s.disarmPart p).Inv := .modLink hs

theorem State.Inv.takeImage {s : State} {image : Tab (Option ℕ)} (hs : s.Inv) : (s.takeImage image).Inv := hs

theorem State.Inv.clearMailbox {s : State} {ch : Fin 2} (hs : s.Inv) : (s.clearMailbox ch).Inv := hs

theorem State.Inv.clearSlots {s : State} {p : PartNo} (hs : s.Inv) : (s.clearSlots p).Inv := .modHost hs

theorem State.Inv.silenceOrders {s : State} {q : Order → Bool} (hs : s.Inv) : (s.silenceOrders q).Inv := .modHost hs

theorem State.Inv.resetVf {s : State} {f : ℕ} {p : Option PartNo} (hs : s.Inv) : (s.resetVf f p).Inv := by
  unfold State.resetVf
  extract_lets +onlyGivenNames s1 s2
  have hs1 : s1.Inv := .modHost hs
  have hs2 : s2.Inv := .silenceOrders hs1
  split
  · exact hs2
  · exact .modHost (.clearSlots hs2)

theorem State.Inv.resetHost {s : State} (hs : s.Inv) : s.resetHost.Inv :=
  .modHost (.clearMailbox (.foldl (fun _ _ ht => .clearSlots ht) (.silenceOrders hs)))

theorem State.Inv.disableVf {s : State} {p : PartNo} (hs : s.Inv) : (s.disableVf p).Inv := by
  unfold State.disableVf
  split
  · exact hs
  · exact .modHost (.resetVf hs)

theorem State.Inv.zeroShares {s : State} {ds : List CDie} (hs : s.Inv) : (s.zeroShares ds).Inv :=
  hs.of_mem (State.zeroShares_wf hs.1 ds) rfl

theorem State.Inv.loseBytes {s : State} {tier : ℕ} {c : CDie} (hs : s.Inv) : (s.loseBytes tier c).Inv :=
  hs.of_mem (State.loseBytes_wf hs.1 tier c) rfl

theorem State.Inv.scrambleShares {s : State} {ds : List CDie} (hs : s.Inv) : (s.scrambleShares ds).Inv :=
  .foldl (fun _ _ ht => .loseBytes (.loseBytes ht)) hs

theorem State.Inv.freeShares {s : State} {ds : List CDie} (hs : s.Inv) : (s.freeShares ds).Inv :=
  .foldl (fun _ _ ht => .foldl (fun _ _ ht => .imageTable ht) ht) (.modMem hs)

/-- A byte field written into memory's cells. -/
theorem State.Inv.setCells {s : State} {a n v : ℕ} (hs : s.Inv) :
    (s.modMem (fun m => { m with cells := m.cells.setLE a n v })).Inv :=
  .modCells hs (fun _ h => Cells.wf_setLE n h a v)

theorem State.Inv.poisonLeaves {s : State} {p : PartNo} {ds : List CDie} (hs : s.Inv) : (s.poisonLeaves p ds).Inv :=
  .modPart (.foldl (fun _ _ ht => .setCells ht) hs)

theorem State.Inv.bindCores {s : State} {ns : List CoreNo} {p : Option PartNo} (hs : s.Inv) : (s.bindCores ns p).Inv :=
  .foldl (fun _ _ ht => .modCore ht) hs

theorem State.Inv.dissolve {s : State} {p : PartNo} (hs : s.Inv) : (s.dissolve p).Inv := by
  unfold State.dissolve
  extract_lets +onlyGivenNames ns s1 s2 src s2'
  have h2 : s2.Inv := .setPartMode (.modPart (.disableVf (.bindCores (.resetCores hs))))
  have h2' : s2'.Inv := h2
  exact .modMem (.modRuling h2')

theorem State.Inv.departAll {s : State} (hs : s.Inv) : s.departAll.Inv :=
  .foldl (fun _ _ ht => .modPort (.ite (.ite (.emit ht) ht) (.leavePort (.ite (.emit ht) ht)))) hs

theorem State.Inv.enterFaulted {s : State} {cause : ℕ} (hs : s.Inv) : (s.enterFaulted cause).Inv :=
  .ite hs (.setModState (.departAll (.foldl (fun _ _ ht => .abortFolios ht) (.stopRings (.haltCores (.report hs))))))

theorem State.Inv.sharedCodeLost {s : State} {g : ℕ} (hs : s.Inv) : (s.sharedCodeLost g).Inv := .ite (.enterFaulted hs) hs

/-- A state whose memory keeps nothing but its retire list, and whose folio unit is as after reset. -/
theorem State.Inv.of_reset {s : State} {l : Tab (List ℕ)} (hm : s.mem = { MemState.reset with retireList :=
  l }) (hf : s.fol = FolioState.reset) :
    s.Inv := by
  unfold State.Inv
  rw [hm, hf]
  exact ⟨rfl, rfl⟩

theorem State.Inv.mainOff {s : State} (_hs : s.Inv) : s.mainOff.Inv := .of_reset rfl rfl

end Sys2Proof.Machine
end

section
/-! SUPPORT. The operations of Sys2Proof/Machine/Counters.lean keep the invariant. -/

namespace Sys2Proof.Machine

theorem State.Inv.modPmc {s : State} {f : PmcState → PmcState} (hs : s.Inv) : (s.modPmc f).Inv := hs

theorem State.Inv.freeze {s : State} (hs : s.Inv) : s.freeze.Inv := .ite hs (.modPmc hs)

theorem State.Inv.unfreeze {s : State} (hs : s.Inv) : s.unfreeze.Inv := .modPmc hs

theorem State.Inv.snapWrite {s : State} {already : Bool} (hs : s.Inv) : (s.snapWrite already).Inv := by
  unfold State.snapWrite
  extract_lets +onlyGivenNames a
  split
  · exact .report (.modPmc (.draw hs))
  · exact .ite (.unfreeze (.modPmc (.plainWrite hs))) (.modPmc (.plainWrite hs))

theorem State.Inv.snapshot {s : State} (hs : s.Inv) : s.snapshot.Inv := .snapWrite (.freeze hs)

theorem execPmcFreeze_inv {s : State} (hs : s.Inv) : NextInv (execPmcFreeze s) := .next (.ite (.freeze hs) hs)

theorem execPmcUnfreeze_inv {s : State} (hs : s.Inv) : NextInv (execPmcUnfreeze s) := .next (.ite (.unfreeze hs) hs)

theorem execPmcSnapshot_inv {s : State} (hs : s.Inv) : NextInv (execPmcSnapshot s) := .next (.ite (.snapshot hs) hs)

theorem State.Inv.modCoreCounter {s : State} {n : CoreNo} {k : ℕ} {f : Counter → Counter} (hs : s.Inv) : (s.modCoreCounter n k f).Inv :=
  .modCore hs

theorem State.Inv.modDie {s : State} {d : Fin 6} {f : DieCounters → DieCounters} (hs : s.Inv) : (s.modDie d f).Inv := .modPmc hs

theorem State.Inv.modDieCounter {s : State} {d : Fin 6} {k : ℕ} {f : Counter → Counter} (hs : s.Inv) : (s.modDieCounter d k f).Inv :=
  .modDie hs

theorem execPmcCounterWrite_inv {c : CounterId} {v : W64} {s : State} (hs : s.Inv) : NextInv (execPmcCounterWrite c v s) := by
  unfold execPmcCounterWrite
  refine .next ?_
  refine .ite hs ?_
  split
  · exact .modCoreCounter hs
  · exact .modDieCounter hs

theorem State.Inv.countTick {s : State} (hs : s.Inv) : s.countTick.Inv := .ite hs hs

end Sys2Proof.Machine
end

section
/-! SUPPORT. The operations of Sys2Proof/Machine/Memory.lean keep the invariant. -/

namespace Sys2Proof.Machine

theorem State.Inv.memoryOrder {s : State} {k op : ℕ} (hs : s.Inv) : (s.memoryOrder k op).Inv := by
  unfold State.memoryOrder
  split
  · exact hs
  · exact .retryFreed (.runOrWait (.beginOrder hs)) hs

theorem execMemoryMap_inv {k : ℕ} {s : State} (hs : s.Inv) : NextInv (execMemoryMap k s) := .next (.memoryOrder hs)

theorem execMemoryUnmap_inv {k : ℕ} {s : State} (hs : s.Inv) : NextInv (execMemoryUnmap k s) := .next (.memoryOrder hs)

theorem execMemoryMigrate_inv {k : ℕ} {s : State} (hs : s.Inv) : NextInv (execMemoryMigrate k s) := .next (.memoryOrder hs)

theorem execMemoryPin_inv {k : ℕ} {s : State} (hs : s.Inv) : NextInv (execMemoryPin k s) := .next (.memoryOrder hs)

theorem execMemoryUnpin_inv {k : ℕ} {s : State} (hs : s.Inv) : NextInv (execMemoryUnpin k s) := .next (.memoryOrder hs)

theorem execMemoryAlias_inv {k : ℕ} {s : State} (hs : s.Inv) : NextInv (execMemoryAlias k s) := .next (.memoryOrder hs)

/-- A run of a COPY keeps the invariant in its state and in the folio it joins. -/
structure CopyRun.Inv (c : CopyRun) : Prop where
  s : c.s.Inv
  fx : ∀ x ∈ c.fx, FX.Inv x

theorem CopyRun.state_inv {c : CopyRun} (h : CopyRun.Inv c) : c.state.Inv := by
  unfold CopyRun.state
  split
  next x e => exact FX.Inv.back (h.fx x e)
  · exact h.s

theorem CopyRun.down_inv {j : Job} {o : ℕ} {c : CopyRun} {p : ℕ × ℕ} (h : CopyRun.Inv c) : CopyRun.Inv (c.down j o p) := by
  unfold CopyRun.down
  split
  · exact h
  · extract_lets +onlyGivenNames t host n
    split
    · refine ⟨.pfRecord h.s, fun x hx => ?_⟩
      obtain ⟨y, hy, rfl⟩ := Option.map_eq_some_iff.mp hx
      exact .mk (.pfRecord (h.fx y hy))
    · extract_lets ps f
      split
      next x e =>
        refine ⟨h.s, fun y hy => ?_⟩
        cases hy
        exact .ite (h.fx x e) (.write (h.fx x e))
      · exact ⟨.plainWrite h.s, h.fx⟩

theorem CopyRun.up_inv {j : Job} {c : CopyRun} {p : ℕ × ℕ} (h : CopyRun.Inv c) : CopyRun.Inv (c.up j p) := by
  unfold CopyRun.up
  split
  · exact h
  · extract_lets +onlyGivenNames host
    split
    · exact ⟨.pfRecord h.s, h.fx⟩
    · exact ⟨.hostWrite (.foldl (fun _ _ ht => .touch ht) h.s), h.fx⟩

theorem State.Inv.runCopy {s : State} {j : Job} {o : ℕ} (hs : s.Inv) : (s.runCopy j o).Inv := by
  unfold State.runCopy
  extract_lets +onlyGivenNames up h join id mode
  refine .ite (.endJob hs) ?_
  extract_lets +onlyGivenNames c0 ps c t inf
  have h0 : CopyRun.Inv c0 := by
    refine ⟨hs, fun x hx => ?_⟩
    obtain ⟨-, hx⟩ := Option.ite_none_right_eq_some.mp hx
    cases hx
    exact .ofSlot hs
  have hc : CopyRun.Inv c := by
    refine foldl_inv CopyRun.Inv (fun a p ha => ?_) ps h0
    split
    · exact CopyRun.up_inv ha
    · exact CopyRun.down_inv ha
  have ht : t.Inv := by
    dsimp only [t]
    split
    next x e => exact FX.Inv.done (hc.fx x e)
    · exact hc.s
  split
  · exact .endJob ht
  · exact .endJob ht
  · exact .ite ht (.endJob ht)

theorem execCopy_inv {k : ℕ} {s : State} (hs : s.Inv) : NextInv (execCopy k s) := by
  unfold execCopy
  refine .next ?_
  split
  · exact hs
  · refine .ite hs ?_
    extract_lets +onlyGivenNames j
    refine .ite (.ite hs (.endJob hs)) ?_
    split
    · exact hs
    · exact .runCopy (.beginOrder hs)

theorem execRuntime_inv {k : ℕ} {s : State} (hs : s.Inv) : NextInv (execRuntime k s) := by
  unfold execRuntime
  refine .next ?_
  split
  · exact hs
  · exact .ite hs (.modHost (.beginOrder hs))

theorem execRuntimeReply_inv {p : PartNo} {i : ℕ} {code : W16} {info : W32} {payload : List Byte} {s : State} (hs : s.Inv) :
    NextInv (execRuntimeReply p i code info payload s) := by
  unfold execRuntimeReply
  refine .next ?_
  extract_lets +onlyGivenNames box
  split
  · exact hs
  · extract_lets +onlyGivenNames s1
    have hs1 : s1.Inv := .modHost hs
    split
    · exact hs1
    · exact .endOrder hs1

theorem State.Inv.pollLayer {s : State} {p : PartNo} {cur : W32} (hs : s.Inv) : (s.pollLayer p cur).Inv :=
  .pump (State.Inv.startEntries (.modRuling hs))

theorem execRulingPoll_inv {p : PartNo} {s : State} (hs : s.Inv) : NextInv (execRulingPoll p s) := by
  unfold execRulingPoll
  refine .next ?_
  extract_lets +onlyGivenNames g
  refine .ite hs ?_
  split
  · exact .reportPF hs
  · exact .ite (.touchVa hs) (.pollLayer (.touchVa hs))

theorem execRulingDeadline_inv {p : PartNo} {i : ℕ} {s : State} (hs : s.Inv) : NextInv (execRulingDeadline p i s) := by
  unfold execRulingDeadline
  refine .next ?_
  split
  · exact hs
  · exact .ite hs (.ite (.pump (.endEntry (.noteFallback hs))) (.ite hs (.modRuling (.noteMiss hs))))

theorem execMigration_inv {i : ℕ} {s : State} (hs : s.Inv) : NextInv (execMigration i s) := .next (.retryFreed (.completeMigration hs) hs)

theorem State.Inv.refreshFrame {s : State} {p : PartNo} {f : ℕ} (hs : s.Inv) : (s.refreshFrame p f).Inv := by
  unfold State.refreshFrame
  split
  · exact hs
  · exact .pump (.modMem hs)

theorem execFlashProgramFail_inv {src : ProgSrc} {s : State} (hs : s.Inv) : NextInv (execFlashProgramFail src s) := by
  unfold execFlashProgramFail
  refine .next ?_
  split
  · exact .retryFreed (.failProgram hs) hs
  · split
    · exact hs
    · exact .refreshFrame hs

theorem execWritebackProgram_inv {i : ℕ} {s : State} (hs : s.Inv) : NextInv (execWritebackProgram i s) := by
  unfold execWritebackProgram
  refine .next ?_
  split
  · exact hs
  · exact .ite (.countDie (.modMem hs)) hs

theorem execFrameReturn_inv {f : W32} {s : State} (hs : s.Inv) : NextInv (execFrameReturn f s) := by
  unfold execFrameReturn
  refine .next ?_
  extract_lets +onlyGivenNames n e
  split
  · exact .ite hs (.ite (.quotaCheck (.retireFrame hs)) (.ite (.retryTier (.freeFrame hs)) (.pump (.freeFrame hs))))
  · exact hs

end Sys2Proof.Machine
end

section
/-! SUPPORT. The operations of Sys2Proof/Machine/Host.lean keep the invariant. -/

namespace Sys2Proof.Machine

theorem State.Inv.bar2Fault {s : State} {p : Option PartNo} {f : PFault} (hs : s.Inv) : (s.bar2Fault p f).Inv := by
  unfold State.bar2Fault
  extract_lets +onlyGivenNames s1
  have hs1 : s1.Inv := by
    dsimp only [s1]
    split
    · exact .pfRecord hs
    · exact hs
  exact .report hs1

theorem State.Inv.bar2Reply {s : State} {p : Option PartNo} {addr : ℕ} {r : List Byte × Bool} (hs : s.Inv) : (s.bar2Reply p addr r).Inv :=
  .emit (.ite (.report hs) hs)

theorem execBar2Read_inv {fn : BitVec 4} {off : W64} {len : ℕ} {s : State} (hs : s.Inv) : NextInv (execBar2Read fn off len s) := by
  unfold execBar2Read
  refine .next ?_
  split
  · exact .emit hs
  · split
    · exact .emit (.bar2Fault hs)
    · exact .bar2Reply (.touch hs)
  · extract_lets +onlyGivenNames q
    split
    · exact .emit (.bar2Fault hs)
    · exact .bar2Reply (.foldl (fun _ _ ht => .touch ht) hs)

theorem execBar2Write_inv {fn : BitVec 4} {off : W64} {data : List Byte} {poisoned : Bool} {s : State} (hs : s.Inv) :
    NextInv (execBar2Write fn off data poisoned s) := by
  unfold execBar2Write
  refine .next ?_
  split
  · exact hs
  · split
    · exact .bar2Fault hs
    · exact .plainWrite hs
  · split
    · exact .bar2Fault hs
    · exact .plainWrite hs

theorem State.Inv.setWaiting {s : State} {q : ℕ} {t : Option W64} (hs : s.Inv) : (s.setWaiting q t).Inv := .modHost hs

theorem execSqDoorbell_inv {q : Fin 1024} {v : W32} {s : State} (hs : s.Inv) : NextInv (execSqDoorbell q v s) :=
  .next (.ite hs (.ite (.report (.setSq hs)) (.ite (.setWaiting (.setSq hs)) (.ite (.setSq hs) (.setWaiting (.setSq hs))))))

theorem execSqDisable_inv {q : Fin 1024} {s : State} (hs : s.Inv) : NextInv (execSqDisable q s) := .next (.setSq hs)

theorem execCqDoorbell_inv {c : Fin 1024} {v : W32} {s : State} (hs : s.Inv) : NextInv (execCqDoorbell c v s) :=
  .next (.ite hs (.ite (.setCq hs) (.flushCq (.setCq hs))))

theorem State.Inv.passHead {s : State} {p : PartNo} {k : ℕ} (hs : s.Inv) : (s.passHead p k).Inv := .setWaiting (.modHost (.setSq hs))

theorem State.Inv.takeOrder {s : State} {p : PartNo} {k : ℕ} {e : List Byte} {cls op : ℕ} {b : List Byte} (hs : s.Inv) :
    (s.takeOrder p k e cls op b).Inv :=
  .countDie (.modHost (.ite hs (.claimSlot hs)))

theorem State.Inv.rejectOrder {s : State} {p : PartNo} {k : ℕ} {e : List Byte} {d : Done} (hs : s.Inv) : (s.rejectOrder p k e d).Inv :=
  .postCq (.recordOrder hs)

theorem execOrderFetch_inv {s : State} (hs : s.Inv) : NextInv (execOrderFetch s) := by
  unfold execOrderFetch
  refine .next ?_
  refine .ite hs ?_
  split
  · exact hs
  · extract_lets +onlyGivenNames q a e bad s1
    have hs1 : s1.Inv := .passHead hs
    split
    · exact .rejectOrder hs1
    · exact .takeOrder hs1

theorem execWorkOrderNop_inv {k : ℕ} {s : State} (hs : s.Inv) : NextInv (execWorkOrderNop k s) := by
  unfold execWorkOrderNop
  refine .next ?_
  split
  · exact hs
  · exact .endOrder (.beginOrder hs)

theorem execSlotRelease_inv {p : PartNo} {slot : Fin 4096} {v : W32} {s : State} (hs : s.Inv) : NextInv (execSlotRelease p slot v s) :=
  .next (.ite hs (.ite (.setRslot hs) (.countDie (.modHost hs))))

theorem execCqCoalesceTimer_inv {c : Fin 1024} {s : State} (hs : s.Inv) : NextInv (execCqCoalesceTimer c s) := .next (.ite (.fireCq hs) hs)

theorem execVfFlr_inv {f : Fin 8} {s : State} (hs : s.Inv) : NextInv (execVfFlr f s) := .next (.ite (.resetVf hs) hs)

theorem execPfFlr_inv {s : State} (hs : s.Inv) : NextInv (execPfFlr s) := .next (.ite (.resetHost hs) hs)

theorem execHotReset_inv {s : State} (hs : s.Inv) : NextInv (execHotReset s) := .next (.ite (.modHost (.resetHost hs)) hs)

theorem execSurpriseLinkDown_inv {s : State} (hs : s.Inv) : NextInv (execSurpriseLinkDown s) := .next (.ite (.modHost (.resetHost hs)) hs)

theorem execConventionalReset_inv {s : State} (hs : s.Inv) : NextInv (execConventionalReset s) := .next (.ite (.modHost (.resetHost hs)) hs)

end Sys2Proof.Machine
end

section
/-! SUPPORT. The operations of Sys2Proof/Machine/Topology.lean keep the invariant. -/

namespace Sys2Proof.Machine

theorem State.Inv.setWire {s : State} {p : PortNo} {c : WireClass} {b : Option PortNo} (hs : s.Inv) : (s.setWire p c b).Inv := .modPort hs

theorem State.Inv.holdPort {s : State} {p : PortNo} (hs : s.Inv) : (s.holdPort p).Inv := .ite hs (.modPort (.failOnPort hs))

theorem State.Inv.remap {s : State} {a b : PortNo} (hs : s.Inv) : (s.remap a b).Inv :=
  .ite hs (.modLink (.foldl (fun _ _ ht => .holdPort ht) hs))

theorem State.Inv.classify {s : State} {p : PortNo} (hs : s.Inv) : (s.classify p).Inv := by
  unfold State.classify
  extract_lets +onlyGivenNames old
  split
  · exact .ite (.setWire (.setWire (.ite (.remap hs) hs))) (.reportPort (.setWire (.setWire (.ite (.remap hs) hs))))
  · exact .ite (.reportPort (.setWire hs)) (.setWire hs)

theorem State.Inv.afterWiring {old s : State} (hold : old.Inv) (hs : s.Inv) : (old.afterWiring s).Inv :=
  .ite (.ite (.chooseRoot hs) hs) (.notify (.ite (.chooseRoot hs) hs))

theorem execPortClassify_inv {p : PortNo} {s : State} (hs : s.Inv) : NextInv (execPortClassify p s) :=
  .next (.ite (.afterWiring hs (.classify hs)) hs)

theorem State.Inv.replan {s : State} (hs : s.Inv) : s.replan.Inv :=
  .afterWiring hs (.foldl (fun _ _ ht => .classify ht) (.modLink (.foldl (fun _ _ ht => .holdPort (.holdPort ht)) hs)))

theorem State.Inv.joinDies {s : State} {ds : List CDie} (hs : s.Inv) : (s.joinDies ds).Inv :=
  .freeShares (.scrambleShares (.zeroShares (.resetCores (.foldl (fun _ _ ht => .modCore ht) hs))))

theorem State.formPart_inv {s : State} {p : PartNo} (hs : s.Inv) : (s.formPart p).1.Inv :=
  .ite_fst hs (.ite_fst (.modPart hs) (.modPart (.joinDies hs)))

theorem State.reformPart_inv {s : State} {p : PartNo} (hs : s.Inv) : (s.reformPart p).1.Inv := by
  unfold State.reformPart
  extract_lets +onlyGivenNames x m
  refine .ite_fst hs (.ite_fst (.modPart hs) ?_)
  extract_lets gone join s1 s2
  have h2 : s2.Inv := .modPart (.bindCores (.poisonLeaves hs))
  clear_value s2
  exact .ite_fst (.quotaChecks (.modPart h2)) (.modPart (.joinDies h2))

theorem State.dissolvePart_inv {s : State} {p : PartNo} (hs : s.Inv) : (s.dissolvePart p).1.Inv := .ite_fst hs (.modPart (.dissolve hs))

theorem execPartitionForm_inv {p : PartNo} {s : State} (hs : s.Inv) : NextInv (execPartitionForm p s) :=
  .next (.emit (State.formPart_inv hs))

theorem State.Inv.bindForm {s : State} {p : PartNo} {drbgOk : Bool} (hs : s.Inv) : (s.bindForm p drbgOk).Inv := by
  unfold State.bindForm
  extract_lets +onlyGivenNames x
  split
  · exact hs
  · exact .ite (.modPart hs) (.quotaChecks (.ite (.setPartMode (.bindCores (.modPart hs))) (.bindCores (.modPart hs))))

theorem execFormBind_inv {p : PartNo} {drbgOk : Bool} {s : State} (hs : s.Inv) : NextInv (execFormBind p drbgOk s) := .next (.bindForm hs)

theorem execPartitionReform_inv {p : PartNo} {s : State} (hs : s.Inv) : NextInv (execPartitionReform p s) :=
  .next (.emit (State.reformPart_inv hs))

theorem execPartitionDissolve_inv {p : PartNo} {s : State} (hs : s.Inv) : NextInv (execPartitionDissolve p s) :=
  .next (.emit (State.dissolvePart_inv hs))

theorem State.Inv.drainPart {s : State} {p : PartNo} (hs : s.Inv) : (s.drainPart p).Inv := .modModu (.setPartMode hs)

theorem State.Inv.abandonForms {s : State} {c : CDie} (hs : s.Inv) : (s.abandonForms c).Inv := by
  unfold State.abandonForms
  refine .foldl (fun t p ht => ?_) hs
  split
  · exact .ite (.modPart ht) ht
  · exact ht

theorem State.Inv.dieGone {s : State} {p : PartNo} {c : CDie} (hs : s.Inv) : (s.dieGone p c).Inv := by
  unfold State.dieGone
  exact .modPart (.abortFolios (.stopRings (.drainPart (.haltCores hs))))

theorem State.Inv.dieOut {s : State} {c : CDie} (hs : s.Inv) : (s.dieOut c).Inv := by
  unfold State.dieOut
  refine .ite hs ?_
  extract_lets +onlyGivenNames bit own src s1 s2 s3 s4
  have h1 : s1.Inv := hs
  clear_value s1
  have h2 : s2.Inv := .report (.modModu h1)
  clear_value s2
  have h4 : s4.Inv := .foldl (fun _ _ ht => .modCore ht) (.abandonForms h2)
  clear_value s4 own
  cases own
  · exact h4
  · exact .dieGone h4

theorem execDieOut_inv {c : CDie} {s : State} (hs : s.Inv) : NextInv (execDieOut c s) := .next (.dieOut hs)

theorem execClearCuts_inv {s : State} (hs : s.Inv) : NextInv (execClearCuts s) := .next (.modModu hs)

end Sys2Proof.Machine
end

section
/-! SUPPORT. The operations of Sys2Proof/Machine/Partition.lean keep the invariant. -/

namespace Sys2Proof.Machine

theorem State.Inv.endPartition {s : State} {o : Order} (hs : s.Inv) : (s.endPartition o).Inv := .endOrder hs

theorem State.Inv.measureGuest {s : State} {p : PartNo} (hs : s.Inv) : (s.measureGuest p).Inv := by
  unfold State.measureGuest
  extract_lets +onlyGivenNames old bytes m z
  have hz : z.Inv := .draw hs
  exact hz

theorem execPartitionRun_inv {k : ℕ} {s : State} (hs : s.Inv) : NextInv (execPartitionRun k s) := by
  unfold execPartitionRun
  refine .next ?_
  split
  · exact hs
  · exact .ite (.endOrder (.beginOrder hs)) (.ite (.endOrder (.beginOrder hs)) (.endPartition (.measureGuest (.setPartMode
      (.beginOrder hs)))))

theorem execPartitionDrain_inv {k : ℕ} {s : State} (hs : s.Inv) : NextInv (execPartitionDrain k s) := by
  unfold execPartitionDrain
  refine .next ?_
  split
  · exact hs
  · exact .ite (.endOrder (.beginOrder hs)) (.drainPart (.beginOrder hs))

theorem State.Inv.endDrain {s : State} {p : PartNo} (hs : s.Inv) : (s.endDrain p).Inv :=
  .foldl (fun _ _ ht => .endPartition ht) (.modModu (.setPartMode hs))

theorem execDrainComplete_inv {p : PartNo} {s : State} (hs : s.Inv) : NextInv (execDrainComplete p s) := .next (.ite (.endDrain hs) hs)

theorem State.Inv.forceDrain {s : State} {p : PartNo} (hs : s.Inv) : (s.forceDrain p).Inv := .abortFolios (.stopRings (.resetCores hs))

theorem execDrainTimeout_inv {p : PartNo} {s : State} (hs : s.Inv) : NextInv (execDrainTimeout p s) := .next (.ite (.forceDrain hs) hs)

theorem State.Inv.rejectUnstarted {s : State} {p : PartNo} (hs : s.Inv) : (s.rejectUnstarted p).Inv :=
  .foldl (fun _ _ ht => .endOrder ht) hs

theorem State.Inv.restartHarts {s : State} {p : PartNo} (hs : s.Inv) : (s.restartHarts p).Inv := .foldl (fun _ _ ht => .setRub ht) hs

theorem execPartitionReset_inv {k : ℕ} {s : State} (hs : s.Inv) : NextInv (execPartitionReset k s) := by
  unfold execPartitionReset
  refine .next ?_
  split
  · exact hs
  · exact .ite (.endOrder (.beginOrder hs)) (.endPartition (.setPartMode (.modModu (.restartHarts (.abortFolios (.disarmPart (.foldl
      (fun _ _ ht => .ite (.modRing ht) ht) (.stopRings (.resetCores (.rejectUnstarted (.foldl (fun _ _ ht => .endOrder ht) (.setPartMode
      (.beginOrder hs)))))))))))))

end Sys2Proof.Machine
end

section
/-! SUPPORT. The operations of Sys2Proof/Machine/StoreOps.lean keep the invariant. -/

namespace Sys2Proof.Machine

theorem State.Inv.modWard {s : State} {f : WardenState → WardenState} (hs : s.Inv) : (s.modWard f).Inv := hs

theorem State.Inv.modSec {s : State} {f : SecState → SecState} (hs : s.Inv) : (s.modSec f).Inv := hs

theorem State.Inv.modPower {s : State} {f : PowerState → PowerState} (hs : s.Inv) : (s.modPower f).Inv := hs

theorem State.Inv.modPlug {s : State} {f : PlugState → PlugState} (hs : s.Inv) : (s.modPlug f).Inv := hs

theorem State.Inv.loadStore {s : State} {newOk oldOk : Bool} (hs : s.Inv) : (s.loadStore newOk oldOk).Inv :=
  .ite (.takeImage hs) (.report (.modWard (.takeImage hs)))

theorem State.Inv.answer {x : State × ℕ} (hx : x.1.Inv) : (State.answer x).Inv := .emit hx

theorem State.Inv.powerOff {s : State} {plug : PlugState} (_hs : s.Inv) : (s.powerOff plug).Inv := .of_reset rfl rfl

end Sys2Proof.Machine
end

section
/-! SUPPORT. The operations of Sys2Proof/Machine/Power.lean keep the invariant. -/

namespace Sys2Proof.Machine

theorem State.Inv.powerReport {s : State} {code unit : ℕ} {detail : List Byte} (hs : s.Inv) : (s.powerReport code unit detail).Inv :=
  .report hs

theorem State.Inv.beginStep {s : State} {t : ℕ} (hs : s.Inv) : (s.beginStep t).Inv := .modClock hs

theorem State.Inv.dropRootUp {s : State} (hs : s.Inv) : s.dropRootUp.Inv := .modPower hs

theorem State.Inv.stepRoot {s : State} (hs : s.Inv) : s.stepRoot.Inv :=
  .ite hs (.ite (.beginStep (.dropRootUp hs)) (.ite (.ite hs (.ite (.beginStep (.addDemand (.draw hs))) (.modPower (.draw hs))))
    (.dropRootUp hs)))

theorem execRootStep_inv {up : Bool} {s : State} (hs : s.Inv) : NextInv (execRootStep up s) := .next (.stepRoot (.modPower hs))

theorem execRootStepLock_inv {s : State} (hs : s.Inv) : NextInv (execRootStepLock s) := .next (.ite (.stepRoot (.modClock hs)) hs)

theorem State.Inv.fillFall {s : State} {g demand : ℕ} (hs : s.Inv) : (s.fillFall g demand).Inv := by
  unfold State.fillFall
  extract_lets +onlyGivenNames need n cs m s1
  have hs1 : s1.Inv := .setBallast hs
  refine .ite ?_ (.modPower hs1)
  extract_lets +onlyGivenNames s2 due
  have hs2 : s2.Inv := .ite hs1 (.modPower hs1)
  refine .ite ?_ hs2
  extract_lets +onlyGivenNames s3
  have hs3 : s3.Inv := .modPower (.powerReport hs2)
  exact hs3

theorem execGovernorTick_inv {pIn demand : W16} {s : State} (hs : s.Inv) : NextInv (execGovernorTick pIn demand s) :=
  .next (.ite hs (.fillFall (.modPower (.draw hs))))

theorem execStartAdmit_inv {s : State} (hs : s.Inv) : NextInv (execStartAdmit s) :=
  .next (.ite (.foldl (fun _ _ ht => .ite (.modCore ht) ht) (.modPower (.addDemand hs))) (.ite (.beginStep (.dropRootUp hs)) hs))

theorem execSlewHold_inv {s : State} (hs : s.Inv) : NextInv (execSlewHold s) := by
  unfold execSlewHold
  refine .next ?_
  extract_lets +onlyGivenNames due
  refine .ite ?_ hs
  extract_lets +onlyGivenNames s1
  have hs1 : s1.Inv := .modPower (.powerReport hs)
  exact hs1

theorem execInputFault_inv {s : State} (hs : s.Inv) : NextInv (execInputFault s) :=
  .next (.ite hs (.stepRoot (.modPower (.powerReport hs))))

theorem execInputRecovered_inv {s : State} (hs : s.Inv) : NextInv (execInputRecovered s) := .next (.ite (.stepRoot (.modPower hs)) hs)

theorem execInputOvervoltage_inv {s : State} (hs : s.Inv) : NextInv (execInputOvervoltage s) := .next (.ite (.powerOff hs) hs)

theorem execPowerLimitCheck_inv {mean : W16} {s : State} (hs : s.Inv) : NextInv (execPowerLimitCheck mean s) :=
  .next (.ite hs (.ite (.modPower hs) (.ite hs (.stepRoot (.modPower hs)))))

theorem execGatingRelease_inv {s : State} (hs : s.Inv) : NextInv (execGatingRelease s) := .next (.ite (.stepRoot (.modPower hs)) hs)

theorem State.Inv.thermalNote {s : State} {word : String} (hs : s.Inv) : (s.thermalNote word).Inv := .modPower (.powerReport hs)

theorem State.Inv.criticalTemp {s : State} (hs : s.Inv) : s.criticalTemp.Inv :=
  .modPower (.mainOff (.enterFaulted (.modPower (.thermalNote hs))))

theorem State.Inv.throttleStep {s : State} (hs : s.Inv) : s.throttleStep.Inv :=
  .ite (.modPower (.ite hs (.thermalNote (.modPower hs)))) (.stepRoot (.modPower (.ite hs (.thermalNote (.modPower hs)))))

theorem execTemperatureReport_inv {t : TempReport} {s : State} (hs : s.Inv) : NextInv (execTemperatureReport t s) :=
  .next (.ite hs (.ite (.criticalTemp (.ite (.thermalNote (.modPower hs)) (.modPower hs))) (.ite (.throttleStep (.ite (.thermalNote
    (.modPower hs)) (.modPower hs))) (.ite (.stepRoot (.modPower (.ite (.thermalNote (.modPower hs)) (.modPower hs)))) (.ite (.thermalNote
    (.modPower hs)) (.modPower hs))))))

theorem State.Inv.sleepDie {s : State} {c : CDie} (hs : s.Inv) : (s.sleepDie c).Inv :=
  .foldl (fun _ _ ht => .ite (.setRub ht) ht) (.foldl (fun _ _ ht => .modCore ht) hs)

theorem execPowerStateEntry_inv {u : PUnit} {s : State} (hs : s.Inv) : NextInv (execPowerStateEntry u s) := by
  unfold execPowerStateEntry
  refine .next ?_
  refine .ite hs ?_
  split
  · exact hs
  · extract_lets +onlyGivenNames s1
    have hs1 : s1.Inv := .modPower hs
    split
    · exact .sleepDie hs1
    · exact hs1

theorem State.Inv.wakeUnit {s : State} {u : PUnit} (hs : s.Inv) : (s.wakeUnit u).Inv := by
  unfold State.wakeUnit
  extract_lets +onlyGivenNames s1
  have hs1 : s1.Inv := .modPower hs
  split
  · exact .bindCores (.foldl (fun _ _ ht => .setCore ht) hs1)
  · exact hs1

theorem execPowerStateWake_inv {u : PUnit} {s : State} (hs : s.Inv) : NextInv (execPowerStateWake u s) := .next (.ite (.wakeUnit hs) hs)

theorem execEarlyWake_inv {u : PUnit} {s : State} (hs : s.Inv) : NextInv (execEarlyWake u s) := by
  unfold execEarlyWake
  refine .next ?_
  refine .ite ?_ hs
  extract_lets +onlyGivenNames s1
  have hs1 : s1.Inv := .modPower (.wakeUnit hs)
  split
  · exact .countCore hs1
  · exact hs1

end Sys2Proof.Machine
end

section
/-! SUPPORT. The operations of Sys2Proof/Machine/ModuleStates.lean keep the invariant. -/

namespace Sys2Proof.Machine

theorem State.Inv.measureAs {s : State} {i : ℕ} {d : BitVec 384} (hs : s.Inv) : (s.measureAs i d).Inv := .modSec hs

theorem State.Inv.runImage {s : State} {c : ℕ} {i : Image} {b : ℕ} (hs : s.Inv) : (s.runImage c i b).Inv := .modSec (.measureAs hs)

theorem State.Inv.verifyFailed {s : State} {code : ℕ} (hs : s.Inv) : (s.verifyFailed code).Inv := .report hs

theorem State.Inv.measureBoot {s : State} (hs : s.Inv) : s.measureBoot.Inv := .measureAs (.measureAs (.measureAs hs))

theorem State.Inv.measureDebug {s : State} (hs : s.Inv) : s.measureDebug.Inv := .measureAs hs

theorem State.Inv.measureEntries {s : State} (hs : s.Inv) : s.measureEntries.Inv := .measureAs hs

theorem State.Inv.activated {s : State} {q : ℕ → Bool} (hs : s.Inv) : (s.activated q).Inv := .modSec hs

theorem State.Inv.bootWarden {s : State} (hs : s.Inv) : s.bootWarden.Inv := by
  unfold State.bootWarden
  split
  · exact .modWard (.draw (.modSec (.measureBoot (.activated (.runImage hs)))))
  · exact .modWard (.verifyFailed hs)

theorem State.Inv.retireListed {s : State} (hs : s.Inv) : s.retireListed.Inv := .foldl (fun _ _ ht => .setFrame ht) hs

theorem State.Inv.startBringup {s : State} (hs : s.Inv) : s.startBringup.Inv :=
  .chooseRoot (.measureDebug (.modSec (.retireListed (.modLink (.modClock (.modPower (.modPlug (.modModu (.setModState hs)))))))))

theorem State.Inv.requestBringup {s : State} (hs : s.Inv) : s.requestBringup.Inv := .ite (.startBringup hs) (.modPlug hs)

theorem State.Inv.cycleMain {s : State} (hs : s.Inv) : s.cycleMain.Inv := by
  unfold State.cycleMain
  extract_lets +onlyGivenNames s1
  have hs1 : s1.Inv := .ite (.mainOff hs) hs
  exact hs1

theorem State.askBringup_inv {s : State} (hs : s.Inv) : (s.askBringup).1.Inv := by
  unfold State.askBringup
  split
  · exact .ite_fst hs (.requestBringup hs)
  · exact .ite_fst hs (.requestBringup (.cycleMain hs))
  · exact .ite_fst hs (.requestBringup (.cycleMain hs))
  · exact hs

theorem execStateRequestBringup_inv {s : State} (hs : s.Inv) : NextInv (execStateRequestBringup s) :=
  .next (.answer (State.askBringup_inv hs))

theorem State.Inv.abandonBringup {s : State} {code : ℕ} (hs : s.Inv) : (s.abandonBringup code).Inv :=
  .setModState (.modModu (.mainOff (.verifyFailed hs)))

theorem State.Inv.placeCores {s : State} {good : BitVec 8} {cut : BitVec 128} (hs : s.Inv) : (s.placeCores good cut).Inv := by
  unfold State.placeCores
  exact hs.of_mem hs.1 rfl

theorem State.Inv.bringupRecords {s : State} {r : BringupOutcome} (hs : s.Inv) : (s.bringupRecords r).Inv :=
  .foldl (fun _ _ ht => .report ht) (.foldl (fun _ _ ht => .cutRecord ht) (.foldl (fun _ _ ht => .report ht) hs))

theorem State.Inv.pressButton {s : State} (hs : s.Inv) : s.pressButton.Inv := .ite (.modPlug hs) (.modPlug hs)

theorem State.Inv.heldPress {s : State} (hs : s.Inv) : s.heldPress.Inv := .ite (.pressButton (.modPlug hs)) hs

theorem State.Inv.endBringup {s : State} {r : BringupOutcome} {imgs : List (ℕ × Image × ℕ)} (hs : s.Inv) : (s.endBringup r imgs).Inv := by
  unfold State.endBringup
  extract_lets +onlyGivenNames good cut s1 s2 ms s3 s4 s5
  have hs1 : s1.Inv := .activated (.foldl (fun _ _ ht => .runImage ht) hs)
  have hs2 : s2.Inv := .modMem (.bringupRecords (.placeCores hs1))
  have hs3 : s3.Inv := .modModu (.draw hs2)
  have hs4 : s4.Inv := hs3
  have hs5 : s5.Inv := .modHost hs4
  exact .heldPress (.setModState hs5)

theorem execBringupComplete_inv {r : BringupOutcome} {s : State} (hs : s.Inv) : NextInv (execBringupComplete r s) := by
  unfold execBringupComplete
  refine .next ?_
  refine .ite hs ?_
  split
  · exact .abandonBringup hs
  · exact .ite (.modModu (.enterFaulted hs)) (.endBringup hs)

theorem execBoardMemoryInit_inv {c : CDie} {f : W32} {s : State} (hs : s.Inv) : NextInv (execBoardMemoryInit c f s) :=
  .next (.ite hs (.retryWaits (.modModu (.draw (.modMem hs)))))

theorem State.Inv.enterStandby {s : State} (hs : s.Inv) : s.enterStandby.Inv := by
  unfold State.enterStandby
  extract_lets s1 s2
  have h1 : s1.Inv := .stopRings (.foldl (fun _ _ ht => .abortFolios ht) hs)
  clear_value s1
  have h2 : s2.Inv := .departAll (.modMem h1)
  exact .setModState (.mainOff h2)

theorem State.askStandby_inv {s : State} (hs : s.Inv) : s.askStandby.1.Inv := by
  unfold State.askStandby
  split
  · dsimp only
    exact State.Inv.enterStandby hs
  · exact .setModState (.modPlug hs)
  · exact .setModState (.cycleMain hs)
  · exact hs

theorem execStateRequestStandby_inv {s : State} (hs : s.Inv) : NextInv (execStateRequestStandby s) :=
  .next (.answer (State.askStandby_inv hs))

theorem State.Inv.startQuiesce {s : State} (hs : s.Inv) : s.startQuiesce.Inv := .setModState (.modPlug (.modModu hs))

theorem State.askQuiesce_inv {s : State} (hs : s.Inv) : (s.askQuiesce).1.Inv := .ite_fst (.startQuiesce hs) hs

theorem execStateRequestQuiescing_inv {s : State} (hs : s.Inv) : NextInv (execStateRequestQuiescing s) :=
  .next (.answer (State.askQuiesce_inv hs))

theorem State.askReady_inv {s : State} (hs : s.Inv) : (s.askReady).1.Inv := .ite_fst (.autoState (.setModState (.modModu hs))) hs

theorem execStateRequestReady_inv {s : State} (hs : s.Inv) : NextInv (execStateRequestReady s) := .next (.answer (State.askReady_inv hs))

theorem State.Inv.forceIdle {s : State} {p : PartNo} (hs : s.Inv) : (s.forceIdle p).Inv :=
  .ite (.endDrain (.forceDrain (.abortFolios hs))) (.abortFolios hs)

theorem execQuiesceDone_inv {s : State} (hs : s.Inv) : NextInv (execQuiesceDone s) :=
  .next (.ite (.modModu (.departAll (.foldl (fun _ _ ht => .forceIdle ht) hs))) hs)

theorem execSafeRemove_inv {s : State} (hs : s.Inv) : NextInv (execSafeRemove s) :=
  .next (.ite (.setModState (.modPlug (.modModu (.mainOff hs)))) hs)

theorem execRootPllLoss_inv {s : State} (hs : s.Inv) : NextInv (execRootPllLoss s) := .next (.ite (.enterFaulted (.modClock hs)) hs)

theorem execLossOfMemorySideDie_inv {die : Byte} {s : State} (hs : s.Inv) : NextInv (execLossOfMemorySideDie die s) :=
  .next (.ite hs (.enterFaulted hs))

theorem execPrechargeContact_inv {s : State} (hs : s.Inv) : NextInv (execPrechargeContact s) := .next (.ite hs (.modPlug hs))

theorem execSoftStartDone_inv {s : State} (hs : s.Inv) : NextInv (execSoftStartDone s) := .next (.ite (.modPlug hs) hs)

theorem execStandbyRailsGood_inv {s : State} (hs : s.Inv) : NextInv (execStandbyRailsGood s) := .next (.ite (.bootWarden (.modPlug hs)) hs)

theorem State.Inv.latchSlot {s : State} (hs : s.Inv) : s.latchSlot.Inv := .ite (.modPlug hs) hs

theorem execWardenReady_inv {newOk oldOk : Bool} {s : State} (hs : s.Inv) : NextInv (execWardenReady newOk oldOk s) :=
  .next (.ite hs (.ite (.latchSlot (.modWard (.modPlug hs))) (.ite (State.askBringup_inv (.setModState (.measureEntries (.loadStore
    (.latchSlot (.modWard (.modPlug hs))))))) (.setModState (.measureEntries (.loadStore (.latchSlot (.modWard (.modPlug hs)))))))))

theorem execAttentionButton_inv {s : State} (hs : s.Inv) : NextInv (execAttentionButton s) := by
  unfold execAttentionButton
  refine .next ?_
  split
  · exact .modPlug hs
  · exact .pressButton (.emit hs)
  · exact .pressButton (.emit hs)
  · exact hs
  · exact .emit hs

theorem execButtonDelayExpiry_inv {s : State} (hs : s.Inv) : NextInv (execButtonDelayExpiry s) :=
  .next (.ite (.ite (.startQuiesce hs) (.modPlug hs)) hs)

theorem execPresenceClose_inv {pins : BitVec 4} {s : State} (hs : s.Inv) : NextInv (execPresenceClose pins s) :=
  .next (.ite (.startBringup (.latchSlot (.modPlug hs))) (.latchSlot (.modPlug hs)))

theorem execSurpriseRemoval_inv {lowInput : Bool} {s : State} (hs : s.Inv) : NextInv (execSurpriseRemoval lowInput s) :=
  .next (.ite (.modPower (.powerOff hs)) (.modPlug hs))

theorem execInputRestored_inv {s : State} (hs : s.Inv) : NextInv (execInputRestored s) := .next (.ite (.modPlug hs) hs)

theorem execPrechargeBreak_inv {s : State} (hs : s.Inv) : NextInv (execPrechargeBreak s) := .next (.ite hs (.powerOff hs))

theorem execIndicatorCommand_inv {pwr att : Bool} {s : State} (hs : s.Inv) : NextInv (execIndicatorCommand pwr att s) := .next (.modPlug hs)

end Sys2Proof.Machine
end

section
/-! SUPPORT. The operations of Sys2Proof/Machine/Security.lean keep the invariant. -/

namespace Sys2Proof.Machine

theorem State.askToken_inv {s : State} {token : List Byte} (hs : s.Inv) : (s.askToken token).1.Inv :=
  .ite_fst hs (.ite_fst (.modSec hs) (.report hs))

theorem execDebugTokenWrite_inv {token : List Byte} {s : State} (hs : s.Inv) : NextInv (execDebugTokenWrite token s) :=
  .next (.answer (State.askToken_inv hs))

theorem State.Inv.drawNonce {s : State} (hs : s.Inv) : s.drawNonce.Inv := .draw (.modSec hs)

theorem execDebugNonceRead_inv {s : State} (hs : s.Inv) : NextInv (execDebugNonceRead s) := .next (.ite (.emit (.drawNonce hs)) hs)

theorem State.askEnd_inv {s : State} {v : ℕ} (hs : s.Inv) : (s.askEnd v).1.Inv := .ite_fst hs (.ite_fst hs (.modSec hs))

theorem execLifecycleEnd_inv {v : Byte} {s : State} (hs : s.Inv) : NextInv (execLifecycleEnd v s) := .next (.answer (State.askEnd_inv hs))

theorem State.askCommit_inv {s : State} {v : ℕ} (hs : s.Inv) : (s.askCommit v).1.Inv := .ite_fst hs (.modSec hs)

theorem execCommitSvn_inv {v : Byte} {s : State} (hs : s.Inv) : NextInv (execCommitSvn v s) := .next (.answer (State.askCommit_inv hs))

theorem State.askRevoke_inv {s : State} {v : ℕ} (hs : s.Inv) : (s.askRevoke v).1.Inv := .ite_fst hs (.modSec hs)

theorem execRevokeSlot_inv {i : Byte} {s : State} (hs : s.Inv) : NextInv (execRevokeSlot i s) := .next (.answer (State.askRevoke_inv hs))

theorem State.Inv.stopWarden {s : State} {quiet : Bool} (hs : s.Inv) : (s.stopWarden quiet).Inv := .modWard (.modSec hs)

theorem State.askRestart_inv {s : State} {v : ℕ} (hs : s.Inv) : (s.askRestart v).1.Inv := .ite_fst hs (.ite_fst hs (.stopWarden hs))

theorem execRestartWarden_inv {v : Byte} {s : State} (hs : s.Inv) : NextInv (execRestartWarden v s) :=
  .next (.answer (State.askRestart_inv hs))

theorem execWardenWatchdog_inv {s : State} (hs : s.Inv) : NextInv (execWardenWatchdog s) := .next (.ite (.stopWarden hs) hs)

theorem execWardenRestart_inv {newOk oldOk : Bool} {s : State} (hs : s.Inv) : NextInv (execWardenRestart newOk oldOk s) :=
  .next (.ite hs (.ite (.modWard (.ite (.bootWarden (.modWard hs)) (.modWard hs))) (.ite (.modWard (.loadStore (.ite (.bootWarden
    (.modWard hs)) (.modWard hs)))) (.report (.modWard (.loadStore (.ite (.bootWarden (.modWard hs)) (.modWard hs))))))))

theorem State.Inv.setConn {s : State} {c : SpdmConn} (hs : s.Inv) : (s.setConn c).Inv := .modSec hs

theorem State.Inv.spdmReply {s : State} {path : SpdmPath} {r : SpdmReply} (hs : s.Inv) : (s.spdmReply path r).Inv := .emit hs

theorem State.Inv.spdmAt {s : State} {path : SpdmPath} {stage : ℕ} {f : State → State} (hs : s.Inv) (hf : ∀ x0, x0.Inv → (f x0).Inv) :
    (s.spdmAt path stage f).Inv :=
  .ite hs (.ite (.spdmReply hs) (hf _ hs))

theorem execGetVersion_inv {path : SpdmPath} {s : State} (hs : s.Inv) : NextInv (execGetVersion path s) :=
  .next (.spdmAt hs (fun _ ht => .spdmReply (.setConn ht)))

theorem execGetCapabilities_inv {path : SpdmPath} {s : State} (hs : s.Inv) : NextInv (execGetCapabilities path s) :=
  .next (.spdmAt hs (fun _ ht => .spdmReply (.setConn ht)))

theorem execNegotiateAlgorithms_inv {path : SpdmPath} {ok : Bool} {s : State} (hs : s.Inv) : NextInv (execNegotiateAlgorithms path ok s) :=
  .next (.spdmAt hs (fun _ ht => .ite (.spdmReply (.setConn ht)) (.spdmReply ht)))

theorem execGetDigests_inv {path : SpdmPath} {s : State} (hs : s.Inv) : NextInv (execGetDigests path s) :=
  .next (.spdmAt hs (fun _ ht => .spdmReply ht))

theorem execGetCertificate_inv {path : SpdmPath} {slot : ℕ} {s : State} (hs : s.Inv) : NextInv (execGetCertificate path slot s) := by
  unfold execGetCertificate
  refine .next ?_
  refine .spdmAt hs (fun t ht => ?_)
  split
  · exact .spdmReply (.setConn ht)
  · exact .spdmReply ht

theorem execChallenge_inv {path : SpdmPath} {slot : ℕ} {s : State} (hs : s.Inv) : NextInv (execChallenge path slot s) :=
  .next (.spdmAt hs (fun _ ht => .ite (.spdmReply ht) (.spdmReply ht)))

theorem execGetMeasurements_inv {path : SpdmPath} {index : Byte} {s : State} (hs : s.Inv) : NextInv (execGetMeasurements path index s) :=
  .next (.spdmAt hs (fun _ ht => .ite (.spdmReply ht) (.ite (.spdmReply ht) (.ite (.spdmReply ht) (.spdmReply ht)))))

theorem execKeyExchange_inv {path : SpdmPath} {s : State} (hs : s.Inv) : NextInv (execKeyExchange path s) :=
  .next (.spdmAt hs (fun _ ht => .ite (.spdmReply (.modSec ht)) (.spdmReply ht)))

theorem State.Inv.dropSession {s : State} {path : SpdmPath} {id : ℕ} (hs : s.Inv) : (s.dropSession path id).Inv := .modSec hs

theorem State.Inv.touchSession {s : State} {path : SpdmPath} {id : ℕ} {f : SpdmSession → SpdmSession} (hs : s.Inv) :
    (s.touchSession path id f).Inv :=
  .modSec hs

theorem execFinish_inv {path : SpdmPath} {id : ℕ} {ok : Bool} {s : State} (hs : s.Inv) : NextInv (execFinish path id ok s) := by
  unfold execFinish
  refine .next ?_
  refine .spdmAt hs (fun t ht => ?_)
  split
  · exact .spdmReply ht
  · exact .ite (.spdmReply ht) (.ite (.spdmReply (.touchSession ht)) (.spdmReply (.dropSession ht)))

theorem State.Inv.inSession {s : State} {path : SpdmPath} {id : ℕ} {f : State → SpdmSession → State} (hs : s.Inv) (hf : ∀ x0 x1, x0.Inv →
    (f x0 x1).Inv) :
    (s.inSession path id f).Inv := by
  unfold State.inSession
  refine .spdmAt hs (fun t ht => ?_)
  split
  · exact .ite (hf _ _ ht) (.spdmReply ht)
  · exact .spdmReply ht

theorem execKeyUpdate_inv {path : SpdmPath} {id : ℕ} {s : State} (hs : s.Inv) : NextInv (execKeyUpdate path id s) := by
  unfold execKeyUpdate
  refine .next ?_
  refine .inSession hs (fun t x ht => ?_)
  extract_lets +onlyGivenNames t1 t2
  have ht1 : t1.Inv := .touchSession ht
  have ht2 : t2.Inv := by
    dsimp only [t2]
    split
    · exact .installKeys ht1
    · exact ht1
  exact .spdmReply ht2

theorem execHeartbeat_inv {path : SpdmPath} {id : ℕ} {s : State} (hs : s.Inv) : NextInv (execHeartbeat path id s) :=
  .next (.inSession hs (fun _ _ ht => .spdmReply (.touchSession ht)))

theorem execEndSession_inv {path : SpdmPath} {id : ℕ} {s : State} (hs : s.Inv) : NextInv (execEndSession path id s) :=
  .next (.inSession hs (fun _ _ ht => .spdmReply (.dropSession ht)))

theorem execChunkSend_inv {path : SpdmPath} {data : List Byte} {last : Bool} {s : State} (hs : s.Inv) :
    NextInv (execChunkSend path data last s) :=
  .next (.spdmAt hs (fun _ ht => .spdmReply (.setConn ht)))

theorem execChunkGet_inv {path : SpdmPath} {len : ℕ} {s : State} (hs : s.Inv) : NextInv (execChunkGet path len s) :=
  .next (.spdmAt hs (fun _ ht => .ite (.spdmReply ht) (.spdmReply (.setConn ht))))

theorem execSessionLost_inv {path : SpdmPath} {id : ℕ} {s : State} (hs : s.Inv) : NextInv (execSessionLost path id s) := by
  unfold execSessionLost
  refine .next ?_
  split
  · exact hs
  · extract_lets +onlyGivenNames t
    have ht : t.Inv := .dropSession hs
    refine .ite hs ?_
    split
    · exact .reportPort ht
    · exact .report ht
    · exact ht

end Sys2Proof.Machine
end

section
/-! SUPPORT. The operations of Sys2Proof/Machine/Pldm.lean keep the invariant. -/

namespace Sys2Proof.Machine

theorem State.Inv.pldmSay {s : State} {path : PldmPath} {r : PldmReply} (hs : s.Inv) : (s.pldmSay path r).Inv := .emit hs

theorem State.Inv.pldmDone {s : State} {path : PldmPath} {c : PldmCode} (hs : s.Inv) : (s.pldmDone path c).Inv := .pldmSay hs

theorem State.Inv.modUpdate {s : State} {f : UpdateState → UpdateState} (hs : s.Inv) : (s.modUpdate f).Inv := .modSec hs

theorem State.Inv.pldmIn {s : State} {path : PldmPath} {ok : ℕ → Bool} {f : State → UpdateState → State} (hs : s.Inv)
    (hf : ∀ x0 x1, x0.Inv → (f x0 x1).Inv) :
    (s.pldmIn path ok f).Inv :=
  .ite hs (.ite (.pldmDone hs) (.ite (.pldmDone hs) (.ite (.pldmDone hs) (hf _ _ hs))))

theorem execQueryDeviceIdentifiers_inv {path : PldmPath} {s : State} (hs : s.Inv) : NextInv (execQueryDeviceIdentifiers path s) :=
  .next (.ite (.pldmSay hs) hs)

theorem execGetFirmwareParameters_inv {path : PldmPath} {s : State} (hs : s.Inv) : NextInv (execGetFirmwareParameters path s) :=
  .next (.ite (.pldmSay hs) hs)

theorem execRequestUpdate_inv {path : PldmPath} {s : State} (hs : s.Inv) : NextInv (execRequestUpdate path s) :=
  .next (.ite hs (.ite (.pldmDone hs) (.ite (.pldmDone hs) (.pldmDone (.modUpdate hs)))))

theorem execPassComponentTable_inv {path : PldmPath} {comp : ℕ} {last : Bool} {s : State} (hs : s.Inv) :
    NextInv (execPassComponentTable path comp last s) :=
  .next (.pldmIn hs (fun _ _ ht => .ite (.pldmDone ht) (.pldmDone (.modUpdate ht))))

theorem State.Inv.askData {s : State} {path : PldmPath} (hs : s.Inv) : (s.askData path).Inv := .ite hs (.pldmSay hs)

theorem execUpdateComponent_inv {path : PldmPath} {comp : ℕ} {size : W32} {s : State} (hs : s.Inv) :
    NextInv (execUpdateComponent path comp size s) :=
  .next (.pldmIn hs (fun _ _ ht => .ite (.pldmDone ht) (.askData (.pldmDone (.modUpdate ht)))))

theorem execRequestFirmwareData_inv {path : PldmPath} {data : List Byte} {s : State} (hs : s.Inv) :
    NextInv (execRequestFirmwareData path data s) :=
  .next (.pldmIn hs (fun _ _ ht => .ite (.pldmDone ht) (.askData (.modUpdate ht))))

theorem execTransferComplete_inv {path : PldmPath} {s : State} (hs : s.Inv) : NextInv (execTransferComplete path s) :=
  .next (.pldmIn hs (fun _ _ ht => .ite (.pldmDone ht) (.pldmDone (.modUpdate ht))))

theorem execVerifyComplete_inv {path : PldmPath} {s : State} (hs : s.Inv) : NextInv (execVerifyComplete path s) :=
  .next (.pldmIn hs (fun _ _ ht => .ite (.pldmDone (.modUpdate ht)) (.pldmDone ht)))

theorem execApplyComplete_inv {path : PldmPath} {s : State} (hs : s.Inv) : NextInv (execApplyComplete path s) :=
  .next (.pldmIn hs (fun _ _ ht => .pldmDone (.modUpdate (.modSec ht))))

theorem execActivateFirmware_inv {path : PldmPath} {s : State} (hs : s.Inv) : NextInv (execActivateFirmware path s) :=
  .next (.pldmIn hs (fun _ _ ht => .ite (.pldmDone ht) (.pldmDone (.modUpdate ht))))

theorem execGetStatus_inv {path : PldmPath} {s : State} (hs : s.Inv) : NextInv (execGetStatus path s) := .next (.ite (.pldmSay hs) hs)

theorem execCancelUpdateComponent_inv {path : PldmPath} {s : State} (hs : s.Inv) : NextInv (execCancelUpdateComponent path s) :=
  .next (.pldmIn hs (fun _ _ ht => .pldmDone (.modUpdate ht)))

theorem execCancelUpdate_inv {path : PldmPath} {s : State} (hs : s.Inv) : NextInv (execCancelUpdate path s) :=
  .next (.pldmIn hs (fun _ _ ht => .pldmDone (.modUpdate ht)))

end Sys2Proof.Machine
end

section
/-! SUPPORT. The operations of Sys2Proof/Machine/DictRead.lean keep the invariant. -/

namespace Sys2Proof.Machine

theorem State.Inv.beforeRead {s : State} {idx sub : ℕ} (hs : s.Inv) : (s.beforeRead idx sub).Inv := .ite (.drawNonce hs) (.ite hs hs)

end Sys2Proof.Machine
end

section
/-! SUPPORT. The operations of Sys2Proof/Machine/Dictionary.lean keep the invariant. -/

namespace Sys2Proof.Machine

theorem State.Inv.mailboxAnswer {s : State} {ch : Fin 2} {m : List Byte} (hs : s.Inv) : (s.mailboxAnswer ch m).Inv :=
  .ite hs (.ite (.modWard hs) (.ite (.raiseVector (.modWard hs)) (.ite (.emit (.setRub (.modWard hs))) (.modWard hs))))

theorem State.Inv.sendWmp {s : State} {path : WmpPath} {m : List Byte} (hs : s.Inv) : (s.sendWmp path m).Inv := by
  unfold State.sendWmp
  split
  · exact .mailboxAnswer hs
  · exact .emit hs

theorem State.Inv.answerWmp {s : State} {path : WmpPath} {seq : ℕ} {m : List Byte} (hs : s.Inv) : (s.answerWmp path seq m).Inv :=
  .sendWmp (.modWard hs)

theorem State.Inv.noLinkEnc {s : State} (hs : s.Inv) : s.noLinkEnc.Inv := .foldl (fun _ _ ht => .modPort ht) hs

theorem State.Inv.setEntry {s : State} {idx sub v : ℕ} (hs : s.Inv) : (s.setEntry idx sub v).Inv :=
  .ite (.modPart hs) (.ite (.replan (.setDict hs)) (.ite (.chooseRoot (.setDict hs)) (.ite (.noLinkEnc (.setDict hs)) (.setDict hs))))

theorem State.askState_inv {s : State} {v : ℕ} (hs : s.Inv) : (s.askState v).1.Inv := by
  unfold State.askState
  split
  · exact State.askStandby_inv hs
  · exact State.askBringup_inv hs
  · exact State.askReady_inv hs
  · exact State.askQuiesce_inv hs
  · exact hs

theorem State.command_inv {s : State} {idx sub : ℕ} {bytes : List Byte} (hs : s.Inv) : (s.command idx sub bytes).1.Inv :=
  .ite_fst (State.askState_inv hs) (.ite_fst (.modModu hs) (.ite_fst (.ite_fst (State.dissolvePart_inv hs) (.ite_fst
    (State.formPart_inv hs) (State.reformPart_inv hs))) (.ite_fst (.ite_fst (State.askToken_inv hs) (State.askEnd_inv hs)) (.ite_fst
    (State.askCommit_inv hs) (.ite_fst (State.askRevoke_inv hs) (.ite_fst (State.askRestart_inv hs) hs))))))

theorem State.Inv.joinCommit {s : State} {c : CommitWrite} (hs : s.Inv) : (s.joinCommit c).Inv := .modWard hs

theorem State.Inv.writeWhole {s : State} {q : WmpReq} {r : DictRow} {bytes : List Byte} (hs : s.Inv) : (s.writeWhole q r bytes).Inv := by
  unfold State.writeWhole
  extract_lets +onlyGivenNames st v say
  have hsay : ∀ x0 x1, x0.Inv → (say x0 x1).Inv := fun _ _ ht => .answerWmp ht
  refine .ite (hsay _ _ hs) ?_
  refine .ite (.sendWmp hs) ?_
  split
  · exact .joinCommit hs
  · exact hsay _ _ (.setEntry hs)
  · exact .ite (.joinCommit hs) (hsay _ _ (State.command_inv hs))

theorem State.Inv.dropStaging {s : State} {path : WmpPath} (hs : s.Inv) : (s.dropStaging path).Inv := .modWard hs

theorem State.Inv.wmpWriteOp {s : State} {q : WmpReq} (hs : s.Inv) : (s.wmpWriteOp q).Inv := by
  unfold State.wmpWriteOp
  extract_lets +onlyGivenNames say
  have hsay : ∀ x0 x1, x0.Inv → (say x0 x1).Inv := fun _ _ ht => .answerWmp ht
  split
  · exact hsay _ _ hs
  · exact .ite (.ite (hsay _ _ hs) (.writeWhole hs)) (.ite (hsay _ _ (.dropStaging hs)) (.ite (hsay _ _ hs) (.ite (.writeWhole
      (.dropStaging hs)) (hsay _ _ (.modWard (.dropStaging hs))))))

theorem State.Inv.wmpReadOp {s : State} {q : WmpReq} (hs : s.Inv) : (s.wmpReadOp q).Inv := by
  unfold State.wmpReadOp
  extract_lets +onlyGivenNames say fail
  have hsay : ∀ x0 x1, x0.Inv → (say x0 x1).Inv := fun _ _ ht => .answerWmp ht
  have hfail : ∀ x0, (fail x0).Inv := fun _ => hsay _ _ hs
  split
  · exact hfail _
  · exact .ite (hfail _) (.ite (hfail _) (.ite (hfail _) (.ite (.sendWmp hs) (hsay _ _ (.beforeRead hs)))))

theorem State.Inv.wmpNextOp {s : State} {q : WmpReq} (hs : s.Inv) : (s.wmpNextOp q).Inv := .ite (.sendWmp hs) (.answerWmp hs)

theorem State.Inv.wmpDiscard {s : State} (hs : s.Inv) : s.wmpDiscard.Inv := .modWard hs

theorem State.Inv.wmpRequest {s : State} {path : WmpPath} {m : List Byte} (hs : s.Inv) : (s.wmpRequest path m).Inv := by
  unfold State.wmpRequest
  refine .ite hs ?_
  split
  · exact .wmpDiscard hs
  · refine .ite hs ?_
    refine .ite (.sendWmp hs) ?_
    refine .ite (.wmpDiscard hs) ?_
    split
    · exact .sendWmp hs
    · exact .ite hs (.ite (.wmpReadOp hs) (.ite (.wmpWriteOp hs) (.wmpNextOp hs)))

theorem execWmpRead_inv {path : WmpPath} {msg : List Byte} {s : State} (hs : s.Inv) : NextInv (execWmpRead path msg s) :=
  .next (.wmpRequest hs)

theorem execWmpWrite_inv {path : WmpPath} {msg : List Byte} {s : State} (hs : s.Inv) : NextInv (execWmpWrite path msg s) :=
  .next (.wmpRequest hs)

theorem execWmpNext_inv {path : WmpPath} {msg : List Byte} {s : State} (hs : s.Inv) : NextInv (execWmpNext path msg s) :=
  .next (.wmpRequest hs)

theorem execMailboxGo_inv {ch : Fin 2} {s : State} (hs : s.Inv) : NextInv (execMailboxGo ch s) := by
  unfold execMailboxGo
  refine .next ?_
  extract_lets +onlyGivenNames c put n
  have hput : ∀ x0, (put x0).Inv := fun _ => .modWard hs
  refine .ite (hput _) ?_
  refine .ite (hput _) ?_
  refine .ite hs ?_
  extract_lets +onlyGivenNames m
  split
  · exact .wmpDiscard (hput _)
  · exact .ite (.wmpRequest (hput _)) (.modWard (.wmpRequest (hput _)))

theorem State.applyCommit_inv {x : State × List (CommitWrite × ℕ)} {c : CommitWrite} (hx : x.1.Inv) : (State.applyCommit x c).1.Inv :=
  .ite_fst (.modWard (.ite (.chooseRoot (.takeImage hx)) (.takeImage hx))) (.ite_fst (.modWard (.setEntry hx)) hx)

theorem State.Inv.answerCommits {s : State} {l : List (CommitWrite × ℕ)} (hs : s.Inv) : (s.answerCommits l).Inv := by
  refine .foldl (fun t e ht => ?_) hs
  split
  · exact .answerWmp ht
  · exact ht

theorem execStoreCommitComplete_inv {good : Bool} {s : State} (hs : s.Inv) : NextInv (execStoreCommitComplete good s) :=
  .next (.ite hs (.ite (.answerCommits (.measureEntries (.modWard (foldl_inv (fun r => State.Inv (Prod.fst r))
    (fun _ _ hx => State.applyCommit_inv hx) _ hs)))) (.answerCommits (.report (.modWard hs)))))

theorem execStagingTimeout_inv {i : ℕ} {s : State} (hs : s.Inv) : NextInv (execStagingTimeout i s) := .next (.modWard hs)

theorem execRestoreDefaults_inv {v : Byte} {s : State} (hs : s.Inv) : NextInv (execRestoreDefaults v s) :=
  .next (.ite (.emit hs) (.ite (.joinCommit hs) (.emit hs)))

theorem execPlcaFallback_inv {s : State} (hs : s.Inv) : NextInv (execPlcaFallback s) := .next (.ite (.modWard hs) hs)

theorem execSetdasa_inv {at_ addr : BitVec 7} {s : State} (hs : s.Inv) : NextInv (execSetdasa at_ addr s) := .next (.ite (.modWard hs) hs)

theorem execEntdaa_inv {addr : BitVec 7} {s : State} (hs : s.Inv) : NextInv (execEntdaa addr s) := .next (.ite (.modWard hs) hs)

theorem execMctpControl_inv {bus : MctpBus} {cmd : MctpCmd} {s : State} (hs : s.Inv) : NextInv (execMctpControl bus cmd s) := by
  unfold execMctpControl
  refine .next ?_
  extract_lets +onlyGivenNames up eid
  refine .ite hs ?_
  split
  · exact .emit hs
  · exact .emit hs
  · exact .emit hs
  · exact .emit (.modWard hs)

end Sys2Proof.Machine
end

section
/-! SUPPORT. The operations of Sys2Proof/Machine/Errors.lean keep the invariant. -/

namespace Sys2Proof.Machine

theorem execPathError_inv {link : PathLink} {flits : W32} {s : State} (hs : s.Inv) : NextInv (execPathError link flits s) := by
  unfold execPathError
  refine .next ?_
  extract_lets +onlyGivenNames u
  refine .ite hs ?_
  split
  · exact .dieOut (.report hs)
  · exact .enterFaulted (.report hs)

theorem State.Inv.countScrub {s : State} {ev a : ℕ} (hs : s.Inv) : (s.countScrub ev a).Inv := .countDie hs

theorem State.Inv.refreshWorn {s : State} {f : ℕ} (hs : s.Inv) : (s.refreshWorn f).Inv := .ite (.refreshFrame hs) hs

theorem State.Inv.scrubFixed {s : State} {a nbits : ℕ} (hs : s.Inv) : (s.scrubFixed a nbits).Inv :=
  .ite (.refreshWorn (.report (.countScrub hs))) (.countScrub hs)

theorem State.Inv.poisonLostFrame {s : State} {f : ℕ} (hs : s.Inv) : (s.poisonLostFrame f).Inv :=
  .ite (.foldl (fun _ _ ht => .setCells ht) hs) hs

theorem State.Inv.scrubLost {s : State} {a symbols : ℕ} (hs : s.Inv) : (s.scrubLost a symbols).Inv :=
  .ite (.foldl (fun _ _ ht => .poisonGran ht) hs) (.ite (.listRetire (.poisonLostFrame (.countScrub (.report (.modMem (.foldl
    (fun _ _ ht => .poisonGran ht) hs)))))) (.poisonLostFrame (.countScrub (.report (.modMem (.foldl (fun _ _ ht => .poisonGran ht) hs))))))

theorem State.Inv.hartLost {s : State} {k : Fin 24} (hs : s.Inv) : (s.hartLost k).Inv := by
  unfold State.hartLost
  extract_lets +onlyGivenNames src s1 rec_
  have h1 : s1.Inv := .modRub hs
  have hrec {t : State} {l : Level} (ht : t.Inv) : (rec_ t l).Inv := .report (.draw ht)
  split
  · exact hrec h1
  · refine .ite ?_ (hrec h1)
    extract_lets s2
    have h2 : s2.Inv := hrec h1
    exact .ite (.drainPart h2) h2

theorem execCoreCut_inv {e : SramErrors} {s : State} (hs : s.Inv) : NextInv (execCoreCut e s) := by
  unfold execCoreCut
  refine .next ?_
  split
  · exact .ite hs (.coreSram hs)
  · exact .ite hs (.ite (.hartLost (.countSram hs)) (.countSram hs))

theorem execScrubRead_inv {addr : W64} {found : ScrubFound} {s : State} (hs : s.Inv) : NextInv (execScrubRead addr found s) := by
  unfold execScrubRead
  refine .next ?_
  extract_lets +onlyGivenNames a
  refine .ite hs ?_
  extract_lets +onlyGivenNames s1
  have hs1 : s1.Inv := .countScrub hs
  split
  · exact hs1
  · exact .scrubFixed hs1
  · exact .sharedCodeLost (.scrubLost hs1)

end Sys2Proof.Machine
end

section
/-! SUPPORT. The operations of Sys2Proof/Machine/Ethernet.lean keep the invariant. -/

namespace Sys2Proof.Machine

theorem State.Inv.setEth {s : State} {p : PortNo} {q : Fin 64} {x : EthQp} (hs : s.Inv) : (s.setEth p q x).Inv := .modLink hs

theorem State.Inv.countEth {s : State} {ev : ℕ} {p : Option PartNo} (hs : s.Inv) : (s.countEth ev p).Inv := .countDie hs

theorem execEthLinkUp_inv {p : PortNo} {s : State} (hs : s.Inv) : NextInv (execEthLinkUp p s) := .next (.ite (.modPort hs) hs)

theorem State.Inv.takePfc {s : State} {p : PortNo} {data : List Byte} (hs : s.Inv) : (s.takePfc p data).Inv := .modPort hs

theorem State.Inv.ethDeliver {s : State} {p : PortNo} {q : Fin 64} {f : EthRx} (hs : s.Inv) : (s.ethDeliver p q f).Inv := by
  unfold State.ethDeliver
  extract_lets +onlyGivenNames x own drop m d
  have hdrop : drop.Inv := .countEth hs
  refine .ite hdrop ?_
  split
  · exact .reportPF hdrop
  · refine .ite hdrop ?_
    split
    · exact .reportPF hdrop
    · exact .setEth (.dvWrite (.dvWrite (.dvWrite (.plainWrite hs))))

theorem execEthFrameReceive_inv {p : PortNo} {frame : List Byte} {s : State} (hs : s.Inv) : NextInv (execEthFrameReceive p frame s) :=
  .next (.ite hs (.ite (.countEth hs) (.ite (.takePfc (.countEth hs)) (.ite (.countEth (.countEth hs)) (.foldl (fun _ _ ht =>
    .ethDeliver ht) (.countEth hs))))))

theorem execEthTxPost_inv {p : PortNo} {qp : Fin 64} {tail : W16} {s : State} (hs : s.Inv) : NextInv (execEthTxPost p qp tail s) :=
  .next (.ite hs (.setEth hs))

theorem execEthRxPost_inv {p : PortNo} {qp : Fin 64} {tail : W16} {s : State} (hs : s.Inv) : NextInv (execEthRxPost p qp tail s) :=
  .next (.ite hs (.setEth hs))

theorem State.Inv.ethSend {s : State} {p : PortNo} {q : Fin 64} (hs : s.Inv) : (s.ethSend p q).Inv := by
  unfold State.ethSend
  extract_lets +onlyGivenNames x own m d next
  have hnext : ∀ x0, x0.Inv → (next x0).Inv := fun _ ht => .setEth ht
  split
  · exact hnext _ (.reportPF hs)
  · extract_lets +onlyGivenNames n fl
    refine .ite (hnext _ (.report hs)) ?_
    refine .ite (hnext _ hs) ?_
    refine .ite hs ?_
    split
    · exact hnext _ (.reportPF hs)
    · exact hnext _ (.ite (.report (.countEth (.dvWrite (.ite (.dvWrite (.emit (.countEth hs))) (.emit (.countEth hs)))))) (.dvWrite (.ite
        (.dvWrite (.emit (.countEth hs))) (.emit (.countEth hs)))))

theorem execEthFrameSent_inv {p : PortNo} {qp : Fin 64} {s : State} (hs : s.Inv) : NextInv (execEthFrameSent p qp s) :=
  .next (.ite hs (.ethSend hs))

end Sys2Proof.Machine
end

section
/-! SUPPORT. The operations of Sys2Proof/Machine/Registers.lean keep the invariant. -/

namespace Sys2Proof.Machine

theorem State.Inv.after {s : State} {o : Host.Outcome State Fault Refusal} (hs : s.Inv) (ho : NextInv o) : (s.after o).Inv := by
  cases ho with
  | next h => exact h
  | fault => exact hs
  | refused => exact hs

theorem State.Inv.coreCommand {s : State} {n : CoreNo} {priv : BitVec 2} {v : ℕ} (hs : s.Inv) : (s.coreCommand n priv v).Inv := by
  unfold State.coreCommand
  extract_lets s1
  have h1 : s1.Inv := by
    dsimp only [s1]
    split
    · exact .startCore hs
    · exact .haltCore hs
    · exact .resumeCore hs
    · exact .softResetCore hs
    · exact hs
  exact .ite (.modCore h1) h1

theorem State.Inv.coreRegWrite {s : State} {n : CoreNo} {r : CoreReg} {v : ℕ} {priv : BitVec 2} (hs : s.Inv) :
    (s.coreRegWrite n r v priv).Inv := by
  unfold State.coreRegWrite
  extract_lets +onlyGivenNames run set idle
  have hset : ∀ x0, (set x0).Inv := fun _ => .modCore hs
  have hidle : ∀ x0, (idle x0).Inv := fun _ => .ite (.modCore hs) (hset _)
  split
  · exact .coreCommand (hset _)
  · exact .modCore hs
  · exact hset _
  · exact .ite (.modCore hs) (hidle _)
  · exact .after hs (execCoreRngSeedWrite_inv hs)
  · exact hidle _
  · exact .ite (.after hs (execRotInvalidate_inv hs)) hs
  · exact hset _
  · exact .ite (.modCore hs) (hset _)
  · exact .after hs (execProgLoad_inv hs)
  · exact hset _
  · exact .modCore hs
  · exact .after hs (execCoreEventCtrlWrite_inv hs)
  · exact .after hs (execCoreFolioWrite_inv hs)
  · exact hs
  · exact hs
  · exact hs
  · exact hs
  · exact hs
  · exact hs
  · exact hs
  · exact hs

theorem State.Inv.mcastRegWrite {s : State} {m : MDie} {i : Fin 16} {r : McastReg} {v : ℕ} (hs : s.Inv) :
    (s.mcastRegWrite m i r v).Inv := by
  unfold State.mcastRegWrite
  extract_lets +onlyGivenNames x armed
  split
  · exact .ite hs (.setMcast hs)
  · exact .setMcast hs
  · exact hs
  · exact hs
  · exact hs

theorem State.Inv.submitFolio {s : State} {p : PartNo} {v : ℕ} (hs : s.Inv) : (s.submitFolio p v).Inv := by
  unfold State.submitFolio
  extract_lets +onlyGivenNames a src
  refine .after hs ?_
  split
  · exact execFolioExtend_inv hs
  · exact execFolioSeal_inv hs
  · exact execFolioScrape_inv hs
  · exact execFolioInspect_inv hs
  · exact execSnapOpen_inv hs
  · exact execSnapClose_inv hs
  · exact execFolioResolve_inv hs
  · exact execFolioOpen_inv hs

theorem State.Inv.submitInk {s : State} {p : PartNo} {v : ℕ} (hs : s.Inv) : (s.submitInk p v).Inv := .cacheEntry hs

theorem State.Inv.submitCodex {s : State} {p : PartNo} {v : ℕ} (hs : s.Inv) : (s.submitCodex p v).Inv := by
  unfold State.submitCodex
  extract_lets +onlyGivenNames a src
  refine .after hs ?_
  split
  · exact execCodexDropIndex_inv hs
  · exact execCodexInsert_inv hs
  · exact execCodexDelete_inv hs
  · exact execCodexQuery_inv hs
  · exact execCodexDropSubgraph_inv hs
  · exact execCodexCreateIndex_inv hs

theorem State.Inv.partRegWrite {s : State} {m : MDie} {p : PartNo} {r : PartReg} {v : ℕ} (hs : s.Inv) : (s.partRegWrite m p r v).Inv := by
  unfold State.partRegWrite
  extract_lets +onlyGivenNames en off
  have hoff : ∀ x0, (off x0).Inv := fun _ => .ite hs (.modPreg hs)
  refine .ite (.modMem hs) ?_
  refine .ite hs ?_
  split
  · exact hoff _
  · exact .modPreg hs
  · exact .modPreg hs
  · exact hoff _
  · exact .modPreg hs
  · exact .submitFolio hs
  · exact .modPreg hs
  · exact .submitInk hs
  · exact .modPreg hs
  · exact .submitCodex hs
  · exact .modPreg hs
  · exact hs

theorem State.loseShare_fol (s : State) (c : CDie) : (s.loseShare c).fol = s.fol := by
  refine foldl_keeps State.fol _ (fun t tier => ?_) [0, 1, 2] s
  dsimp only
  generalize hu : t.loseBytes tier c = u
  have h : u.fol = t.fol := by rw [← hu]; rfl
  exact h

theorem State.Inv.loseShare {s : State} {c : CDie} (hs : s.Inv) : (s.loseShare c).Inv :=
  hs.of_mem (State.loseShare_wf hs.1 c) (State.loseShare_fol s c)

theorem State.Inv.shareRegWrite {s : State} {c : CDie} {r : ShareReg} {v : ℕ} (hs : s.Inv) : (s.shareRegWrite c r v).Inv := by
  unfold State.shareRegWrite
  split
  · extract_lets mine k
    have h1 : (s.loseShare c).Inv := .loseShare hs
    generalize s.loseShare c = t at h1
    exact .ite hs (.modMem h1)
  · exact .imageTable (.modMem hs)

theorem State.Inv.portRegWrite {s : State} {p : PortNo} {r : PortReg} {v : ℕ} (hs : s.Inv) : (s.portRegWrite p r v).Inv := by
  unfold State.portRegWrite
  split
  · exact .after hs (execPortEnable_inv hs)
  · exact .modPort hs
  · exact .modPort hs
  · exact hs
  · exact hs

theorem State.Inv.ringCtrlWrite {s : State} {n : Fin 16} {v : ℕ} (hs : s.Inv) : (s.ringCtrlWrite n v).Inv :=
  .ite (.after (.modRing (.ite (.modRing hs) hs)) (execRingStop_inv (.modRing (.ite (.modRing hs) hs)))) (.ite (.after (.modRing (.ite
    (.modRing hs) hs)) (execRingEnable_inv (.modRing (.ite (.modRing hs) hs)))) (.after (.modRing (.ite (.modRing hs) hs))
    (execRingDisable_inv (.modRing (.ite (.modRing hs) hs)))))

theorem State.Inv.ringRegWrite {s : State} {n : Fin 16} {r : RingReg} {v : ℕ} (hs : s.Inv) : (s.ringRegWrite n r v).Inv := by
  unfold State.ringRegWrite
  extract_lets +onlyGivenNames m still
  have hstill : ∀ x0, (still x0).Inv := fun _ => .ite (.modRing hs) hs
  split
  · exact .ringCtrlWrite hs
  · exact .after hs (execRingEpochWrite_inv hs)
  · exact hstill _
  · exact hstill _
  · exact hstill _
  · exact hstill _
  · exact .after hs (execRingSqTailWrite_inv hs)
  · exact hstill _
  · exact .modRing hs

theorem State.Inv.ethRegWrite {s : State} {p : Fin 2} {q : Fin 64} {r : EthReg} {v : ℕ} (hs : s.Inv) : (s.ethRegWrite p q r v).Inv := by
  unfold State.ethRegWrite
  extract_lets +onlyGivenNames x put
  have hput : ∀ x0, (put x0).Inv := fun _ => .setEth hs
  split
  · exact hput _
  · exact hput _
  · exact hput _
  · exact .after (.after hs (execEthTxPost_inv hs)) (execEthRxPost_inv (.after hs (execEthTxPost_inv hs)))
  · exact hput _

theorem State.Inv.glbWrite {s : State} {r : GlbReg} {v : ℕ} (hs : s.Inv) : (s.glbWrite r v).Inv := by
  unfold State.glbWrite
  split
  · exact hs
  · exact .modClock hs
  · exact .modHost hs
  · exact .modHost hs
  · exact hs
  · exact hs
  · exact hs
  · exact hs
  · exact hs
  · exact hs
  · exact hs

theorem State.Inv.sqRegWrite {s : State} {q : Fin 1024} {r : SqReg} {v : ℕ} (hs : s.Inv) : (s.sqRegWrite q r v).Inv := by
  unfold State.sqRegWrite
  extract_lets +onlyGivenNames x
  split
  · exact .setSq hs
  · exact .ite (.setSq hs) (.setSq hs)
  · exact .after hs (execSqDoorbell_inv hs)
  · exact .setSq hs

theorem State.Inv.cqRegWrite {s : State} {c : Fin 1024} {r : CqReg} {v : ℕ} (hs : s.Inv) : (s.cqRegWrite c r v).Inv := by
  unfold State.cqRegWrite
  extract_lets +onlyGivenNames x
  split
  · exact .setCq hs
  · exact .ite (.setCq hs) (.flushCq (.setCq hs))
  · exact .after hs (execCqDoorbell_inv hs)
  · exact .setCq hs

theorem State.Inv.aliasWrite {s : State} {own : Bool} {o : Host.Outcome State Fault Refusal} (hs : s.Inv) (ho : NextInv o) :
    (s.aliasWrite own o).Inv :=
  .ite (.after hs ho) (.modHost hs)

theorem State.Inv.msixWrite {s : State} {fn : Fin 9} {v : Fin 2048} {r : MsixReg} {x : ℕ} (hs : s.Inv) : (s.msixWrite fn v r x).Inv := by
  unfold State.msixWrite
  extract_lets +onlyGivenNames k old put
  have hput : ∀ x0, (put x0).Inv := fun _ => .modHost hs
  refine .ite hs ?_
  split
  · exact hput _
  · exact hput _
  · exact .ite (.emit (.modHost (.modHost hs))) (.modHost hs)

theorem State.Inv.vfEnableWrite {s : State} {f : Fin 8} {on : Bool} (hs : s.Inv) : (s.vfEnableWrite f on).Inv := by
  unfold State.vfEnableWrite
  extract_lets +onlyGivenNames m
  refine .ite ?_ (.ite (.modHost (.resetVf hs)) hs)
  split
  · exact .ite hs (.modHost hs)
  · exact hs

theorem State.Inv.mbxReqWrite {s : State} {ch : Fin 2} {off : ℕ} {bs : List Byte} (hs : s.Inv) : (s.mbxReqWrite ch off bs).Inv :=
  .ite hs (.modWard hs)

theorem State.Inv.mbxRegWrite {s : State} {ch : Fin 2} {r : MbxReg} {v : ℕ} (hs : s.Inv) : (s.mbxRegWrite ch r v).Inv := by
  unfold State.mbxRegWrite
  extract_lets +onlyGivenNames c put
  have hput : ∀ x0, (put x0).Inv := fun _ => .modWard hs
  split
  · exact .ite (.after hs (execMailboxGo_inv hs)) hs
  · exact hput _
  · exact hput _
  · exact .mbxReqWrite hs

theorem State.Inv.pmcCoreWrite {s : State} {n : CoreNo} {r : PmcCoreReg} {v : ℕ} (hs : s.Inv) : (s.pmcCoreWrite n r v).Inv := by
  unfold State.pmcCoreWrite
  split
  · exact hs
  · exact .modCoreCounter hs
  · exact .modCoreCounter hs
  · exact .foldl (fun _ _ ht => .ite (.modCoreCounter ht) ht) hs

theorem State.Inv.pmcDieWrite {s : State} {d : Fin 6} {r : PmcDieReg} {v : ℕ} (hs : s.Inv) : (s.pmcDieWrite d r v).Inv := by
  unfold State.pmcDieWrite
  split
  · exact .ite (.modDie hs) hs
  · exact .ite (.modDie hs) hs
  · exact hs
  · exact .foldl (fun _ _ ht => .ite (.modDieCounter ht) ht) hs
  · exact .modDieCounter hs
  · exact .modDieCounter hs

theorem State.Inv.pmcCtrlWrite {s : State} {v : ℕ} (hs : s.Inv) : (s.pmcCtrlWrite v).Inv :=
  .ite (.modPmc (.ite (.snapshot (.modPmc hs)) (.ite (.modPmc hs) (.ite (.freeze (.modPmc hs)) (.ite (.unfreeze (.modPmc hs))
    (.modPmc hs)))))) (.ite (.snapshot (.modPmc hs)) (.ite (.modPmc hs) (.ite (.freeze (.modPmc hs)) (.ite (.unfreeze (.modPmc hs))
    (.modPmc hs)))))

theorem State.Inv.pmcWrite {s : State} {r : PmcReg} {v : ℕ} (hs : s.Inv) : (s.pmcWrite r v).Inv := by
  unfold State.pmcWrite
  split
  · exact .pmcCtrlWrite hs
  · exact .modPmc hs
  · exact hs
  · exact hs

theorem State.Inv.regWrite {s : State} {r : RegId} {v : ℕ} {priv : BitVec 2} (hs : s.Inv) : (s.regWrite r v priv).Inv := by
  unfold State.regWrite
  split
  · exact .coreRegWrite hs
  · exact .mcastRegWrite hs
  · exact .partRegWrite hs
  · exact .shareRegWrite hs
  · exact .ite hs (.modMem hs)
  · exact .ite hs (.modMem hs)
  · exact .portRegWrite hs
  · exact .ringRegWrite hs
  · exact hs
  · exact .modTime hs
  · exact hs
  · exact .ethRegWrite hs
  · exact .glbWrite hs
  · exact .sqRegWrite hs
  · exact .cqRegWrite hs
  · exact .modHost hs
  · exact .modHost hs
  · exact .aliasWrite hs (execSqDoorbell_inv hs)
  · exact .aliasWrite hs (execCqDoorbell_inv hs)
  · exact .after hs (execSlotRelease_inv hs)
  · exact .msixWrite hs
  · exact hs
  · exact .vfEnableWrite hs
  · exact .mbxRegWrite hs
  · exact .pmcCoreWrite hs
  · exact .pmcDieWrite hs
  · exact .pmcWrite hs

theorem execRegisterWrite_inv {r : RegId} {v : W64} {s : State} (hs : s.Inv) : NextInv (execRegisterWrite r v s) :=
  .next (.ite (.regWrite hs) hs)

theorem State.timeLow_inv {s : State} {who : Requester} (hs : s.Inv) : (s.timeLow who).1.Inv := .modHost hs

theorem State.timeHigh_inv {s : State} {who : Requester} (hs : s.Inv) : (s.timeHigh who).1.Inv := .modHost hs

theorem execGlbTimeLoRead_inv {who : Requester} {s : State} (hs : s.Inv) : NextInv (execGlbTimeLoRead who s) :=
  .next (.ite (.emit (State.timeLow_inv hs)) hs)

end Sys2Proof.Machine
end

section
/-! SUPPORT. The operations of Sys2Proof/Machine/Rubric.lean keep the invariant. -/

namespace Sys2Proof.Machine

theorem State.Inv.trap {s : State} {k : Fin 24} {cause : ℕ} {v : W64} (hs : s.Inv) : (s.trap k cause v).Inv := .modRub hs

theorem State.Inv.setRd {s : State} {k : Fin 24} {v : ℕ} (hs : s.Inv) : (s.setRd k v).Inv := .modRub hs

theorem State.Inv.illegal {s : State} {k : Fin 24} (hs : s.Inv) : (s.illegal k).Inv := .trap (.draw hs)

theorem State.Inv.hartAccess {s : State} {k : Fin 24} {mode : RvMode} {addr : W64} {n access : ℕ} {body : State → State} (hs : s.Inv)
    (hbody : ∀ x0, x0.Inv → (body x0).Inv) :
    (s.hartAccess k mode addr n access body).Inv := by
  unfold State.hartAccess
  refine .ite (.trap hs) ?_
  split
  · exact .trap (.report (.draw hs))
  · exact hbody _ hs

theorem State.Inv.hartLoad {s : State} {k : Fin 24} {mode : RvMode} {addr : W64} {n : ℕ} {then_ : State → List Byte → State} (hs : s.Inv)
    (hthen_ : ∀ x0 x1, x0.Inv → (then_ x0 x1).Inv) :
    (s.hartLoad k mode addr n then_).Inv :=
  .hartAccess hs (fun _ hs => .ite (.trap hs) (.ite (.trap (.report (.touch hs))) (hthen_ _ _ (.touch hs))))

theorem State.Inv.hartStore {s : State} {k : Fin 24} {mode : RvMode} {addr : W64} {bs : List Byte} (hs : s.Inv) :
    (s.hartStore k mode addr bs).Inv := by
  unfold State.hartStore
  refine .hartAccess hs (fun s hs => ?_)
  extract_lets +onlyGivenNames ps
  refine .ite ?_ (.ite (.trap hs) (.plainWrite hs))
  split
  · exact FX.Inv.done (.write (.ofSlot hs))
  · exact .trap hs

theorem State.Inv.hartRegLoad {s : State} {k : Fin 24} {mode : RvMode} {addr : W64} {n : ℕ} (hs : s.Inv) :
    (s.hartRegLoad k mode addr n).Inv := by
  unfold State.hartRegLoad
  split
  · exact .setRd hs
  · exact .setRd hs
  · exact .setRd (State.timeLow_inv hs)
  · exact .setRd (State.timeHigh_inv hs)
  · exact .setRd hs
  · exact .setRd hs
  · exact .setRd hs
  · exact .setRd hs
  · exact .trap hs

theorem State.Inv.hartRegStore {s : State} {k : Fin 24} {mode : RvMode} {addr : W64} {n v : ℕ} (hs : s.Inv) :
    (s.hartRegStore k mode addr n v).Inv := by
  unfold State.hartRegStore
  split
  · exact .ite (.regWrite hs) hs
  · exact .regWrite hs
  · exact .ite (.mbxReqWrite hs) hs
  · exact hs
  · exact hs
  · exact hs
  · exact hs
  · exact hs
  · exact .trap hs

theorem execRubricLoad_inv {k : Fin 24} {mode : RvMode} {addr : W64} {size : RvSize} {s : State} (hs : s.Inv) :
    NextInv (execRubricLoad k mode addr size s) :=
  .next (.ite hs (.ite (.hartLoad hs (fun _ _ ht => .setRd ht)) (.hartRegLoad hs)))

theorem execRubricStore_inv {k : Fin 24} {mode : RvMode} {addr : W64} {size : RvSize} {v : W64} {s : State} (hs : s.Inv) :
    NextInv (execRubricStore k mode addr size v s) :=
  .next (.ite hs (.ite (.hartStore hs) (.hartRegStore hs)))

theorem State.Inv.fetched {s : State} {k : Fin 24} {mode : RvMode} {w : ℕ} (hs : s.Inv) : (s.fetched k mode w).Inv := by
  unfold State.fetched
  refine .ite hs ?_
  split
  · exact .illegal hs
  · exact .ite hs (.illegal hs)
  · split
    · exact .setRd hs
    · exact hs

theorem execRubricFetch_inv {k : Fin 24} {mode : RvMode} {addr : W64} {s : State} (hs : s.Inv) : NextInv (execRubricFetch k mode addr s) :=
  .next (.ite hs (.ite (.hartAccess hs (fun _ hs => .ite (.sharedCodeLost (.trap (.touch hs))) (.fetched (.touch hs)))) (.trap hs)))

theorem State.ccmd_inv {s : State} {k : Fin 24} {priv : BitVec 2} {mask : BitVec 128} {v : ℕ} (hs : s.Inv) :
    (s.ccmd k priv mask v).1.Inv := by
  unfold State.ccmd
  refine foldl_inv (fun r : State × ℕ × ℕ => r.1.Inv) (fun a n ha => ?_) _ hs
  split
  · exact ha
  · split
    · exact ha
    · exact .coreCommand ha

theorem execHxCcmd_inv {k : Fin 24} {mode : RvMode} {rs1 rs2 : W64} {s : State} (hs : s.Inv) : NextInv (execHxCcmd k mode rs1 rs2 s) :=
  .next (.ite hs (.ite (.illegal hs) (.ite (.trap hs) (.hartLoad hs (fun _ _ ht => .setRd (State.ccmd_inv ht))))))

theorem execHxWaitev_inv {k : Fin 24} {mode : RvMode} {rs1 : W64} {s : State} (hs : s.Inv) : NextInv (execHxWaitev k mode rs1 s) := by
  unfold execHxWaitev
  refine .next ?_
  refine .ite hs ?_
  refine .ite (.illegal hs) ?_
  split
  · exact .setRd hs
  · exact .modRub hs

theorem execHxWaitevWake_inv {k : Fin 24} {s : State} (hs : s.Inv) : NextInv (execHxWaitevWake k s) := by
  unfold execHxWaitevWake
  refine .next ?_
  split
  · exact hs
  · split
    · exact .modRub (.setRd hs)
    · exact hs

theorem execHxPtest_inv {k : Fin 24} {mode : RvMode} {rs1 : W64} {s : State} (hs : s.Inv) : NextInv (execHxPtest k mode rs1 s) :=
  .next (.ite hs (.ite (.trap hs) (.hartAccess hs (fun _ hs => .ite (.trap hs) (.setRd (.touch hs))))))

theorem execHxFset_inv {k : Fin 24} {mode : RvMode} {rs1 : W64} {s : State} (hs : s.Inv) : NextInv (execHxFset k mode rs1 s) :=
  .next (.ite hs (.ite (.illegal hs) (.ite (.setRd (.modRub hs)) (.ite (.setRd (.modRub hs)) (.ite (.setRd (.modRub hs)) (.illegal hs))))))

end Sys2Proof.Machine
end

section
/-! SUPPORT. The operations of Sys2Proof/Machine/Vector.lean keep the invariant. -/

namespace Sys2Proof.Machine

theorem State.Inv.vec {s : State} {n : CoreNo} {f : Core → Except CoreErr Core} (hs : s.Inv) : (s.vec n f).Inv :=
  .issue hs (fun _ hs => .finishCore hs)

theorem State.Inv.vecCounted {s : State} {n : CoreNo} {f : Core → Except CoreErr (Core × ℕ)} (hs : s.Inv) : (s.vecCounted n f).Inv := by
  unfold State.vecCounted
  refine .issue hs (fun s hs => ?_)
  split
  · exact .coreFault hs
  · exact .retire (.countCore (.setCore hs))

theorem execVadd_inv {n : CoreNo} {vd va : VReg} {vb : VSrc} {s : State} (hs : s.Inv) : NextInv (execVadd n vd va vb s) := .next (.vec hs)

theorem execVsub_inv {n : CoreNo} {vd va : VReg} {vb : VSrc} {s : State} (hs : s.Inv) : NextInv (execVsub n vd va vb s) := .next (.vec hs)

theorem execVmul_inv {n : CoreNo} {vd va : VReg} {vb : VSrc} {s : State} (hs : s.Inv) : NextInv (execVmul n vd va vb s) := .next (.vec hs)

theorem execVfma_inv {n : CoreNo} {vd va : VReg} {vb : VSrc} {vc : VReg} {s : State} (hs : s.Inv) : NextInv (execVfma n vd va vb vc s) :=
  .next (.vec hs)

theorem execVmax_inv {n : CoreNo} {vd va : VReg} {vb : VSrc} {s : State} (hs : s.Inv) : NextInv (execVmax n vd va vb s) := .next (.vec hs)

theorem execVmin_inv {n : CoreNo} {vd va : VReg} {vb : VSrc} {s : State} (hs : s.Inv) : NextInv (execVmin n vd va vb s) := .next (.vec hs)

theorem execVabs_inv {n : CoreNo} {vd va : VReg} {s : State} (hs : s.Inv) : NextInv (execVabs n vd va s) := .next (.vec hs)

theorem execVneg_inv {n : CoreNo} {vd va : VReg} {s : State} (hs : s.Inv) : NextInv (execVneg n vd va s) := .next (.vec hs)

theorem execVcmpgt_inv {n : CoreNo} {vd va : VReg} {vb : VSrc} {s : State} (hs : s.Inv) : NextInv (execVcmpgt n vd va vb s) :=
  .next (.vec hs)

theorem execVsel_inv {n : CoreNo} {vd va : VReg} {vb : VSrc} {vc : VReg} {s : State} (hs : s.Inv) : NextInv (execVsel n vd va vb vc s) :=
  .next (.vec hs)

theorem execVredsum_inv {n : CoreNo} {vd va : VReg} {s : State} (hs : s.Inv) : NextInv (execVredsum n vd va s) := .next (.vec hs)

theorem execVredmax_inv {n : CoreNo} {vd va : VReg} {s : State} (hs : s.Inv) : NextInv (execVredmax n vd va s) := .next (.vec hs)

theorem execVld_inv {n : CoreNo} {vd : VReg} {addr : StAddr} {fmt : Byte} {s : State} (hs : s.Inv) : NextInv (execVld n vd addr fmt s) :=
  .next (.vec hs)

theorem execVst_inv {n : CoreNo} {va : VReg} {addr : StAddr} {fmt : Byte} {rnd : BitVec 2} {s : State} (hs : s.Inv) :
    NextInv (execVst n va addr fmt rnd s) :=
  .next (.vecCounted hs)

theorem execVldb_inv {n : CoreNo} {vd : VReg} {brow : BitVec 7} {breg : BitVec 2} {s : State} (hs : s.Inv) :
    NextInv (execVldb n vd brow breg s) :=
  .next (.vec hs)

theorem execVstb_inv {n : CoreNo} {va : VReg} {brow : BitVec 7} {breg : BitVec 2} {s : State} (hs : s.Inv) :
    NextInv (execVstb n va brow breg s) :=
  .next (.vec hs)

theorem execVcvt_inv {n : CoreNo} {vd va : VReg} {fmt : Byte} {rnd : BitVec 2} {s : State} (hs : s.Inv) :
    NextInv (execVcvt n vd va fmt rnd s) :=
  .next (.vecCounted hs)

theorem execVexpo_inv {n : CoreNo} {vd va : VReg} {s : State} (hs : s.Inv) : NextInv (execVexpo n vd va s) := .next (.vec hs)

theorem execVldexp_inv {n : CoreNo} {vd va : VReg} {vb : VSrc} {s : State} (hs : s.Inv) : NextInv (execVldexp n vd va vb s) :=
  .next (.vec hs)

theorem execVmovs_inv {n : CoreNo} {vd : VReg} {ss : SReg} {s : State} (hs : s.Inv) : NextInv (execVmovs n vd ss s) := .next (.vec hs)

theorem execVext_inv {n : CoreNo} {ss : SReg} {va : VReg} {s : State} (hs : s.Inv) : NextInv (execVext n ss va s) := .next (.vec hs)

theorem execExp2_inv {n : CoreNo} {vd va : VReg} {s : State} (hs : s.Inv) : NextInv (execExp2 n vd va s) := .next (.vec hs)

theorem execLog2_inv {n : CoreNo} {vd va : VReg} {s : State} (hs : s.Inv) : NextInv (execLog2 n vd va s) := .next (.vec hs)

theorem execExp2b_inv {n : CoreNo} {vm : VReg} {rowFirst : BitVec 7} {rowCount : Byte} {region : BitVec 2} {k : W32} {s : State}
    (hs : s.Inv) :
    NextInv (execExp2b n vm rowFirst rowCount region k s) :=
  .next (.vec hs)

end Sys2Proof.Machine
end

section
/-! SUPPORT. The operations of Sys2Proof/Machine/Dispatch.lean keep the invariant. -/

namespace Sys2Proof.Machine

theorem exec_inv {i : Instr} {s : State} (hs : s.Inv) : NextInv (exec i s) := by
  unfold exec
  split
  · exact execNop_inv hs
  · exact execEnd_inv hs
  · exact execLi_inv hs
  · exact execAdd_inv hs
  · exact execAddi_inv hs
  · exact execSub_inv hs
  · exact execAnd_inv hs
  · exact execOr_inv hs
  · exact execXor_inv hs
  · exact execShl_inv hs
  · exact execShr_inv hs
  · exact execMul_inv hs
  · exact execBeq_inv hs
  · exact execBne_inv hs
  · exact execBlt_inv hs
  · exact execBge_inv hs
  · exact execJmp_inv hs
  · exact execLds_inv hs
  · exact execSts_inv hs
  · exact execRdtime_inv hs
  · exact execRdid_inv hs
  · exact execBkpt_inv hs
  · exact execSeed_inv hs
  · exact execSignal_inv hs
  · exact execBarrier_inv hs
  · exact execBarrierArrival_inv hs
  · exact execBarrierRelease_inv hs
  · exact execWaitin_inv hs
  · exact execFence_inv hs
  · exact execMma_inv hs
  · exact execEpi_inv hs
  · exact execZero_inv hs
  · exact execChain_inv hs
  · exact execAttnFwd_inv hs
  · exact execAttnDec_inv hs
  · exact execAttnBwd_inv hs
  · exact execAttnMerge_inv hs
  · exact execCstepPut_inv hs
  · exact execCstepTake_inv hs
  · exact execCcount_inv hs
  · exact execCollWaitPoll_inv hs
  · exact execCollDeadline_inv hs
  · exact execVadd_inv hs
  · exact execVsub_inv hs
  · exact execVmul_inv hs
  · exact execVfma_inv hs
  · exact execVmax_inv hs
  · exact execVmin_inv hs
  · exact execVabs_inv hs
  · exact execVneg_inv hs
  · exact execVcmpgt_inv hs
  · exact execVsel_inv hs
  · exact execVredsum_inv hs
  · exact execVredmax_inv hs
  · exact execVld_inv hs
  · exact execVst_inv hs
  · exact execVldb_inv hs
  · exact execVstb_inv hs
  · exact execVcvt_inv hs
  · exact execVexpo_inv hs
  · exact execVldexp_inv hs
  · exact execVmovs_inv hs
  · exact execVext_inv hs
  · exact execExp2_inv hs
  · exact execLog2_inv hs
  · exact execExp2b_inv hs
  · exact execLoad_inv hs
  · exact execStore_inv hs
  · exact execLoad2d_inv hs
  · exact execStore2d_inv hs
  · exact execSend_inv hs
  · exact execRecv_inv hs
  · exact execStreamLd_inv hs
  · exact execGather_inv hs
  · exact execScatter_inv hs
  · exact execRotpre_inv hs
  · exact execWaitflag_inv hs
  · exact execWaitflagPoll_inv hs
  · exact execSetflag_inv hs
  · exact execInboundDataArrival_inv hs
  · exact execTransferAck_inv hs
  · exact execRotaryFillArrival_inv hs
  · exact execPhaseEnd_inv hs
  · exact execPhaseTurnEnd_inv hs
  · exact execGroupTokenGrant_inv hs
  · exact execCoreHang_inv hs
  · exact execCoreStart_inv hs
  · exact execCoreHalt_inv hs
  · exact execHaltComplete_inv hs
  · exact execCoreResume_inv hs
  · exact execSoftReset_inv hs
  · exact execSoftResetComplete_inv hs
  · exact execRotInvalidate_inv hs
  · exact execProgLoad_inv hs
  · exact execProgLoadComplete_inv hs
  · exact execCoreEventCtrlWrite_inv hs
  · exact execCoreRngSeedWrite_inv hs
  · exact execCoreFolioWrite_inv hs
  · exact execRegisterWrite_inv hs
  · exact execGlbTimeLoRead_inv hs
  · exact execCoreCut_inv hs
  · exact execHxCcmd_inv hs
  · exact execHxWaitev_inv hs
  · exact execHxWaitevWake_inv hs
  · exact execHxPtest_inv hs
  · exact execHxFset_inv hs
  · exact execRubricLoad_inv hs
  · exact execRubricStore_inv hs
  · exact execRubricFetch_inv hs
  · exact execTimePllLock_inv hs
  · exact execHoldoverEntry_inv hs
  · exact execSyncReqSend_inv hs
  · exact execSyncReq_inv hs
  · exact execSyncResp_inv hs
  · exact execAnnounceSend_inv hs
  · exact execAnnounce_inv hs
  · exact execAnnounceExpiry_inv hs
  · exact execRootStep_inv hs
  · exact execRootStepLock_inv hs
  · exact execBar2Read_inv hs
  · exact execBar2Write_inv hs
  · exact execRulingPoll_inv hs
  · exact execRulingDeadline_inv hs
  · exact execMigration_inv hs
  · exact execFlashProgramFail_inv hs
  · exact execFrameReturn_inv hs
  · exact execFolioOpen_inv hs
  · exact execFolioExtend_inv hs
  · exact execFolioSeal_inv hs
  · exact execFolioApplyComplete_inv hs
  · exact execSubtreeDecrement_inv hs
  · exact execFolioScrape_inv hs
  · exact execFolioInspect_inv hs
  · exact execSnapOpen_inv hs
  · exact execSnapClose_inv hs
  · exact execFolioResolve_inv hs
  · exact execFolioWrite_inv hs
  · exact execPrepare_inv hs
  · exact execVote_inv hs
  · exact execDecision_inv hs
  · exact execDecisionAck_inv hs
  · exact execSpanDeadline_inv hs
  · exact execCoordAckTimeout_inv hs
  · exact execInDoubtQuery_inv hs
  · exact execDecisionQuery_inv hs
  · exact execFolioInDoubt_inv hs
  · exact execCacheCreate_inv hs
  · exact execCacheRelease_inv hs
  · exact execCacheAppend_inv hs
  · exact execSpillBatchEnd_inv hs
  · exact execSpillWaitTimeout_inv hs
  · exact execCacheShare_inv hs
  · exact execCacheMass_inv hs
  · exact execCacheRebase_inv hs
  · exact execCodexCreateIndex_inv hs
  · exact execCodexDropIndex_inv hs
  · exact execCodexInsert_inv hs
  · exact execCodexDelete_inv hs
  · exact execCodexQuery_inv hs
  · exact execWalkRoundReturn_inv hs
  · exact execRerankComplete_inv hs
  · exact execQueryDeadline_inv hs
  · exact execCodexDropSubgraph_inv hs
  · exact execSubgraphSplice_inv hs
  · exact execIndexFree_inv hs
  · exact execNodeRepair_inv hs
  · exact execRepairRetry_inv hs
  · exact execSettleSweep_inv hs
  · exact execWritebackProgram_inv hs
  · exact execRingEnable_inv hs
  · exact execRingDisable_inv hs
  · exact execRingStop_inv hs
  · exact execRingStopped_inv hs
  · exact execRingEpochWrite_inv hs
  · exact execRingSqTailWrite_inv hs
  · exact execQuireHeaderArrival_inv hs
  · exact execQuireChunkArrival_inv hs
  · exact execLandingCredit_inv hs
  · exact execReleasePoll_inv hs
  · exact execRingBroken_inv hs
  · exact execMulticastRead_inv hs
  · exact execDetachWaitExpiry_inv hs
  · exact execDataGroup_inv hs
  · exact execLctl_inv hs
  · exact execReplayTimeout_inv hs
  · exact execNakRepeat_inv hs
  · exact execLctlSend_inv hs
  · exact execGroupSend_inv hs
  · exact execHello_inv hs
  · exact execHelloSend_inv hs
  · exact execLightDetect_inv hs
  · exact execTrainingComplete_inv hs
  · exact execTrainingTimeout_inv hs
  · exact execTrainingRetry_inv hs
  · exact execHandshakeTimeout_inv hs
  · exact execKeyingComplete_inv hs
  · exact execKeyingTimeout_inv hs
  · exact execPortLoss_inv hs
  · exact execPortEnable_inv hs
  · exact execPortRetrain_inv hs
  · exact execPortClearErrors_inv hs
  · exact execChunkReceive_inv hs
  · exact execChunkReport_inv hs
  · exact execDepartMessage_inv hs
  · exact execEthLinkUp_inv hs
  · exact execEthFrameReceive_inv hs
  · exact execEthTxPost_inv hs
  · exact execEthFrameSent_inv hs
  · exact execEthRxPost_inv hs
  · exact execPortClassify_inv hs
  · exact execPartitionForm_inv hs
  · exact execFormBind_inv hs
  · exact execPartitionReform_inv hs
  · exact execPartitionDissolve_inv hs
  · exact execDieOut_inv hs
  · exact execClearCuts_inv hs
  · exact execCollMessage_inv hs
  · exact execCountMessage_inv hs
  · exact execSqDoorbell_inv hs
  · exact execSqDisable_inv hs
  · exact execCqDoorbell_inv hs
  · exact execOrderFetch_inv hs
  · exact execWorkOrderNop_inv hs
  · exact execMemoryMap_inv hs
  · exact execMemoryUnmap_inv hs
  · exact execMemoryMigrate_inv hs
  · exact execMemoryPin_inv hs
  · exact execMemoryUnpin_inv hs
  · exact execMemoryAlias_inv hs
  · exact execCopy_inv hs
  · exact execRuntime_inv hs
  · exact execRuntimeReply_inv hs
  · exact execPartitionRun_inv hs
  · exact execPartitionDrain_inv hs
  · exact execDrainComplete_inv hs
  · exact execDrainTimeout_inv hs
  · exact execPartitionReset_inv hs
  · exact execSlotRelease_inv hs
  · exact execCqCoalesceTimer_inv hs
  · exact execVfFlr_inv hs
  · exact execPfFlr_inv hs
  · exact execHotReset_inv hs
  · exact execSurpriseLinkDown_inv hs
  · exact execWmpRead_inv hs
  · exact execWmpWrite_inv hs
  · exact execWmpNext_inv hs
  · exact execMailboxGo_inv hs
  · exact execStoreCommitComplete_inv hs
  · exact execStagingTimeout_inv hs
  · exact execWardenWatchdog_inv hs
  · exact execWardenRestart_inv hs
  · exact execPlcaFallback_inv hs
  · exact execSetdasa_inv hs
  · exact execEntdaa_inv hs
  · exact execMctpControl_inv hs
  · exact execRestoreDefaults_inv hs
  · exact execStateRequestBringup_inv hs
  · exact execBringupComplete_inv hs
  · exact execBoardMemoryInit_inv hs
  · exact execStateRequestStandby_inv hs
  · exact execStateRequestQuiescing_inv hs
  · exact execStateRequestReady_inv hs
  · exact execQuiesceDone_inv hs
  · exact execSafeRemove_inv hs
  · exact execRootPllLoss_inv hs
  · exact execPathError_inv hs
  · exact execScrubRead_inv hs
  · exact execGovernorTick_inv hs
  · exact execStartAdmit_inv hs
  · exact execSlewHold_inv hs
  · exact execInputFault_inv hs
  · exact execInputRecovered_inv hs
  · exact execInputOvervoltage_inv hs
  · exact execPowerLimitCheck_inv hs
  · exact execGatingRelease_inv hs
  · exact execTemperatureReport_inv hs
  · exact execPowerStateEntry_inv hs
  · exact execPowerStateWake_inv hs
  · exact execEarlyWake_inv hs
  · exact execPrechargeContact_inv hs
  · exact execSoftStartDone_inv hs
  · exact execStandbyRailsGood_inv hs
  · exact execWardenReady_inv hs
  · exact execAttentionButton_inv hs
  · exact execButtonDelayExpiry_inv hs
  · exact execPresenceClose_inv hs
  · exact execSurpriseRemoval_inv hs
  · exact execGetVersion_inv hs
  · exact execGetCapabilities_inv hs
  · exact execNegotiateAlgorithms_inv hs
  · exact execGetDigests_inv hs
  · exact execGetCertificate_inv hs
  · exact execChallenge_inv hs
  · exact execGetMeasurements_inv hs
  · exact execKeyExchange_inv hs
  · exact execFinish_inv hs
  · exact execKeyUpdate_inv hs
  · exact execHeartbeat_inv hs
  · exact execEndSession_inv hs
  · exact execChunkSend_inv hs
  · exact execChunkGet_inv hs
  · exact execSessionLost_inv hs
  · exact execDebugNonceRead_inv hs
  · exact execDebugTokenWrite_inv hs
  · exact execLifecycleEnd_inv hs
  · exact execCommitSvn_inv hs
  · exact execRevokeSlot_inv hs
  · exact execRestartWarden_inv hs
  · exact execQueryDeviceIdentifiers_inv hs
  · exact execGetFirmwareParameters_inv hs
  · exact execRequestUpdate_inv hs
  · exact execPassComponentTable_inv hs
  · exact execUpdateComponent_inv hs
  · exact execRequestFirmwareData_inv hs
  · exact execTransferComplete_inv hs
  · exact execVerifyComplete_inv hs
  · exact execApplyComplete_inv hs
  · exact execActivateFirmware_inv hs
  · exact execGetStatus_inv hs
  · exact execCancelUpdateComponent_inv hs
  · exact execCancelUpdate_inv hs
  · exact execPmcFreeze_inv hs
  · exact execPmcUnfreeze_inv hs
  · exact execPmcSnapshot_inv hs
  · exact execPmcCounterWrite_inv hs
  · exact execInputRestored_inv hs
  · exact execPrechargeBreak_inv hs
  · exact execConventionalReset_inv hs
  · exact execIndicatorCommand_inv hs
  · exact execLossOfMemorySideDie_inv hs
  · exact execDecisionAnswerExpiry_inv hs

end Sys2Proof.Machine
end

section
/-! SUPPORT. The operations of Sys2Proof/Machine/Fetch.lean keep the invariant. -/

namespace Sys2Proof.Machine

theorem State.Inv.sramReport {s : State} {n : CoreNo} {e : SramErr} (hs : s.Inv) : (s.sramReport n e).Inv := by
  unfold State.sramReport
  extract_lets +onlyGivenNames z
  have hz : ∀ x0, (z x0).Inv := fun _ => .report hs
  split
  · exact hs
  · exact hz _
  · exact hz _
  · exact hz _
  · exact hz _
  · exact hz _

theorem State.Inv.meetSram {s : State} {n : CoreNo} (hs : s.Inv) : (s.meetSram n).Inv :=
  .coreSram (.foldl (fun _ _ ht => .sramReport (.modCore ht)) (.modCore hs))

theorem State.Inv.sequence {s0 : State} {n : CoreNo} (hs0 : s0.Inv) : (s0.sequence n).Inv := by
  unfold State.sequence
  extract_lets +onlyGivenNames s c
  have hs : s.Inv := .ite (.meetSram hs0) hs0
  refine .ite hs ?_
  split
  · exact .after hs (exec_inv hs)
  · exact .issue hs (fun _ hs => .coreFault hs)

theorem State.Inv.tick {s : State} (hs : s.Inv) : s.tick.Inv := .foldl (fun _ _ hs0 => .sequence hs0) (.countTick (.ite (.modClock hs) hs))

end Sys2Proof.Machine
end

section
/-! SUPPORT. The operations of Sys2Proof/Machine/Step.lean keep the invariant. -/

namespace Sys2Proof.Machine

theorem step_inv {s : State} (hs : s.Inv) : NextInv (step s) := by
  unfold step
  split
  · exact exec_inv hs
  · exact .next (.tick hs)

end Sys2Proof.Machine
end

section
/-! SUPPORT. Every step keeps unified memory and the folio tables in canonical form. -/

namespace Sys2Proof.Machine

/-- Settles O60: by the command at the front of the queue, or the tick, each of which keeps the invariant. -/
theorem stepKeepsInvariant : Obligations.StepKeepsInvariant := by
  intro s t hs h
  have hstep := step_inv hs
  rw [h] at hstep
  cases hstep
  assumption

end Sys2Proof.Machine
end

section
/-! SUPPORT. The scalar side of a compute core: its registers, what retirement leaves, and the control class: results, branches, words of the
operand store, and the waits and messages of a barrier (R79 to R86). -/

namespace Sys2Proof.Machine

/-! Issue -/

/-- An instruction whose class the core can issue takes its effect at once. -/
theorem exec_of_ready {i : Instr} {s : State} {n : CoreNo} {k : InstrClass} {body : State → State}
    (hexec : exec i s = .next (s.issue n k body)) (h : s.ready n k = true) : exec i s = .next (body s) :=
  hexec.trans (congrArg _ (State.issue_ready h body))

theorem State.running_of_ready {s : State} {n : CoreNo} {k : InstrClass} (h : s.ready n k = true) : (s.core n).mode = .running := by
  simp only [State.ready, Core.canIssue, Bool.and_eq_true, decide_eq_true_eq] at h
  exact h.1.1.1.1.1.1.1.1.1.1

/-- Settles O1: each operation by the body it issues. -/
theorem scalarResults : Obligations.ScalarResults := by
  intro s n h sd sa sb imm sh c done
  have hmul : c.sget sa * c.sget sb = BitVec.ofNat 64 ((c.sget sa).toNat * (c.sget sb).toNat) := by
    rw [BitVec.ofNat_mul, BitVec.ofNat_toNat, BitVec.ofNat_toNat, BitVec.setWidth_eq, BitVec.setWidth_eq]
  have run (i : Instr) {body : State → State} (hi : exec i s = .next (s.issue n .current body)) : exec i s = .next (body s) :=
    exec_of_ready hi h
  refine ⟨run (.nop n) rfl, run (.li n sd imm) rfl, run (.add n sd sa sb) rfl, ?_, run (.sub n sd sa sb) rfl, run (.and_ n sd sa sb) rfl,
    run (.or_ n sd sa sb) rfl, run (.xor_ n sd sa sb) rfl, ?_, ?_, ?_, run (.rdtime n sd) rfl, run (.rdid n sd) rfl, run (.bkpt n) rfl,
    run (.seed n sa) rfl⟩
  · exact (run (.addi n sd sa imm) rfl).trans (by simp [aluBody, done, c])
  · exact (run (.shl n sd sa sh) rfl).trans (by simp [aluBody, done, c])
  · exact (run (.shr n sd sa sh) rfl).trans (by simp [aluBody, done, c])
  · rw [← hmul]
    exact run (.mul n sd sa sb) rfl

/-! Scalar registers (R80) -/

theorem Core.sset_of_ne {c : Core} {sd : SReg} (h : sd ≠ 0) (v : W64) (bad : Bool) :
    c.sset sd v bad = { c with sregs := c.sregs.set sd.val v, spoison := c.spoison.set sd.val (BitVec.ofBool bad) } := if_neg h

theorem Core.sget_sset {c : Core} (hc : Cells.wf c.sregs = true) (sd r : SReg) (v : W64) (bad : Bool) :
    (c.sset sd v bad).sget r = if r = 0 then 0 else if r = sd then v else c.sget r := by
  by_cases hr : r = 0
  · simp [hr]
  · rw [if_neg hr]
    by_cases hsd : sd = 0
    · subst hsd
      rw [Core.sset_zero, if_neg hr]
    · simp [Core.sset_of_ne hsd, Core.sget, hr, Cells.get_set hc, Fin.ext_iff]

theorem Core.sbad_sset {c : Core} (hc : Cells.wf c.spoison = true) (sd r : SReg) (v : W64) (bad : Bool) :
    (c.sset sd v bad).sbad r = if r = 0 then false else if r = sd then bad else c.sbad r := by
  by_cases hr : r = 0
  · simp [hr, Core.sbad]
  · rw [if_neg hr]
    by_cases hsd : sd = 0
    · subst hsd
      rw [Core.sset_zero, if_neg hr]
    · have hbad : decide (BitVec.ofBool bad = 1#1) = bad := by cases bad <;> rfl
      simp only [Core.sset_of_ne hsd, Core.sbad, Cells.get_set hc, Fin.ext_iff]
      split
      · simp [hbad, hr]
      · rfl

/-- Settles O2. -/
theorem scalarRegisters : Obligations.ScalarRegisters := by
  intro c sd r v bad hregs hpoison
  refine ⟨Core.sget_sset hregs sd r v bad, Core.sbad_sset hpoison sd r v bad, ?_⟩
  by_cases hsd : sd = 0
  · subst hsd
    rfl
  · rw [Core.sset_of_ne hsd]

/-! Retirement (R79) -/

/-- Settles O3, by all that retirement does. -/
theorem retireFrame : Obligations.RetireFrame := by
  intro s n
  obtain ⟨counters, h⟩ := State.retire_spec s n
  rw [h]
  exact ⟨by simp, by simp, fun m hm => by simp [Ne.symm hm], rfl⟩

/-! Branches (R82) -/

theorem branchBody_poisoned {n : CoreNo} {sa sb : SReg} {s : State} (h : ((s.core n).sbad sa || (s.core n).sbad sb) = true)
    (t : BitVec 11) (taken : W64 → W64 → Bool) : branchBody n sa sb t taken s = s.coreFault n errPoison := if_pos h

theorem branchBody_clean {n : CoreNo} {sa sb : SReg} {s : State} (ha : (s.core n).sbad sa = false) (hb : (s.core n).sbad sb = false)
    (t : BitVec 11) (taken : W64 → W64 → Bool) :
    branchBody n sa sb t taken s = if taken ((s.core n).sget sa) ((s.core n).sget sb) then
      (s.modCore n (fun c => { c with regs := { c.regs with pc := BitVec.ofNat 64 (16 * t.toNat) } })).countCore n 0x1C 1 else s.retire n := by
  simp [branchBody, ha, hb]

/-- Settles O4: a branch by the marks of its operands. -/
theorem branches : Obligations.Branches := by
  intro s n h sa sb t c go outcome
  refine ⟨(exec_of_ready (i := .jmp n t) rfl h).trans ?_, fun ha hb => ?_, fun hbad => ?_⟩
  · rw [branchBody_clean rfl rfl]
    rfl
  · have hbranch {i : Instr} {taken : W64 → W64 → Bool} (hi : exec i s = .next (s.issue n .current (branchBody n sa sb t taken))) :
        exec i s = outcome (taken (c.sget sa) (c.sget sb)) :=
      (exec_of_ready hi h).trans (congrArg _ (branchBody_clean ha hb t taken))
    refine ⟨hbranch (i := .beq n sa sb t) rfl, hbranch (i := .bne n sa sb t) rfl, ?_, ?_⟩
    · exact (hbranch (i := .blt n sa sb t) rfl).trans (by rw [BitVec.slt_eq_decide])
    · exact (hbranch (i := .bge n sa sb t) rfl).trans (by rw [BitVec.sle_eq_decide])
  · have hfault {i : Instr} {taken : W64 → W64 → Bool} (hi : exec i s = .next (s.issue n .current (branchBody n sa sb t taken))) :
        exec i s = .next (s.coreFault n errPoison) := (exec_of_ready hi h).trans (congrArg _ (branchBody_poisoned hbad t taken))
    exact ⟨hfault rfl, hfault rfl, hfault rfl, hfault rfl⟩

/-! Words of the operand store (R80 to R82) -/

/-- An instruction that reads or writes a word of the store retires with the core it leaves, or faults. -/
theorem exec_of_finishCore {i : Instr} {s : State} {n : CoreNo} {f : Core → Except CoreErr Core}
    (hexec : exec i s = .next (s.issue n .current (fun s => s.finishCore n (f (s.core n))))) (h : s.ready n .current = true)
    {r : Except CoreErr Core} (hr : f (s.core n) = r) : exec i s = .next (s.finishCore n r) := by
  rw [exec_of_ready hexec h, hr]

/-- Settles O5: the two accesses by the mark of the base, the bound of the store, and the word. -/
theorem storeWords : Obligations.StoreWords := by
  intro s n h sd sa sb imm c a
  have hlds {r} (hr : c.lds sd sa imm = r) := exec_of_finishCore (i := .lds n sd sa imm) (f := fun c => c.lds sd sa imm) rfl h hr
  have hsts {r} (hr : c.sts sa sb imm = r) := exec_of_finishCore (i := .sts n sa sb imm) (f := fun c => c.sts sa sb imm) rfl h hr
  refine ⟨fun hbad => ⟨hlds (if_pos hbad), hsts (if_pos hbad)⟩, fun hok hover => ?_, fun hok hin => ?_⟩
  · have hbad : ¬ c.sbad sa = true := by simp [hok]
    exact ⟨hlds ((if_neg hbad).trans (if_pos hover)), hsts ((if_neg hbad).trans (if_pos hover))⟩
  · have hbad : ¬ c.sbad sa = true := by simp [hok]
    have hin : ¬ storeSize < a + 8 := by omega
    exact ⟨hlds ((if_neg hbad).trans (if_neg hin)), hsts ((if_neg hbad).trans (if_neg hin))⟩

/-! Steps -/

/-- Settles O58. -/
theorem stepFront : Obligations.StepFront := by
  refine ⟨fun _ _ => rfl, fun s h => ?_⟩
  unfold step
  rw [h]

end Sys2Proof.Machine
end

section
/-! SUPPORT. Barriers and waits for units (R83 to R86). -/

namespace Sys2Proof.Machine

/-! Barriers (R83, R85, R86) -/

/-- What a list's element names is what was looked for. -/
theorem takeNth_sat {α : Type} {p : α → Bool} {i : Nat} {l : List α} {x : α} {r : List α} (h : takeNth p i l = some (x, r)) : p x = true := by
  induction l generalizing i r with
  | nil => simp [takeNth] at h
  | cons y l ih =>
    unfold takeNth at h
    split at h
    next hy =>
      cases i with
      | zero =>
        obtain ⟨rfl, -⟩ := by simpa using h
        exact hy
      | succ j =>
        obtain ⟨z, hz, hx⟩ := Option.map_eq_some_iff.mp h
        obtain ⟨rfl, -⟩ := Prod.mk.injEq .. ▸ hx
        exact ih hz
    · obtain ⟨z, hz, hx⟩ := Option.map_eq_some_iff.mp h
      obtain ⟨rfl, -⟩ := Prod.mk.injEq .. ▸ hx
      exact ih hz

/-- What a core sends and keeps when it begins to wait at a barrier. -/
theorem exec_barrier_waits {s : State} {n : CoreNo} {id : BitVec 4} {home : CoreNo} {count : Byte} (h : s.ready n .current = true)
    (h2 : 2 ≤ count.toNat) (h128 : count.toNat ≤ 128) (hrect : s.sameRect n home = true) :
    let par := decide ((s.core n).parity.get id.toNat = 1)
    ∃ t, exec (.barrier n id home count) s = .next t ∧
      t.mesh.arrivals = s.mesh.arrivals ++ [⟨n, home, id.toNat, par, count.toNat⟩] ∧ t.mesh.releases = s.mesh.releases ∧
      t.core n = { s.core n with parity := (s.core n).parity.set id.toNat (BitVec.ofBool (!par)), wait := some (.barrier home id.toNat par) } ∧
      t.mem = s.mem := by
  intro par
  have hcount : ¬ (count.toNat < 2 ∨ 128 < count.toNat) := by omega
  have hexec := exec_of_ready (i := .barrier n id home count) rfl h
  dsimp only at hexec
  rw [if_neg hcount, if_neg (by simp [hrect])] at hexec
  refine ⟨_, hexec, ?_⟩
  obtain ⟨holder, last, hwait⟩ := State.beginWait_spec _ n (.barrier home id.toNat par)
  rw [hwait]
  exact ⟨rfl, rfl, by simp [State.core, State.setCore, State.modCore, par], rfl⟩

/-- What a core keeps when it begins to wait for its units. -/
theorem exec_waitin_waits {s : State} {n src : CoreNo} {tag count : Byte} (h : s.ready n .current = true) (h0 : count ≠ 0)
    (hfew : (s.core n).inUnits src tag.toNat < count.toNat) :
    ∃ t, exec (.waitin n tag src count) s = .next t ∧ t.core n = { s.core n with wait := some (.waitin src tag.toNat count.toNat) } ∧
      t.mem = s.mem := by
  have hexec := exec_of_ready (i := .waitin n tag src count) rfl h
  rw [if_neg h0, if_neg (by omega)] at hexec
  refine ⟨_, hexec, ?_⟩
  obtain ⟨holder, last, hwait⟩ := State.beginWait_spec s n (.waitin src tag.toNat count.toNat)
  rw [hwait]
  exact ⟨by simp [State.core, State.setCore], rfl⟩

/-- An arrival at its home, by the barrier it meets there. -/
theorem exec_barrierArrival_of_taken {s : State} {n : CoreNo} {i : Nat} {a : MeshArrival} {rest : List MeshArrival}
    (h : takeNth (fun a : MeshArrival => decide (a.home = n)) i s.mesh.arrivals = some (a, rest)) :
    exec (.barrierArrival n i) s = .next (State.countArrival { s with mesh := { s.mesh with arrivals := rest } } a) ∧ a.home = n := by
  refine ⟨?_, by simpa using takeNth_sat h⟩
  show Host.Outcome.next _ = _
  rw [h]

/-- The barriers of an id and parity at their home (R85). -/
def MeshArrival.counts (a : MeshArrival) (b : Barrier) : Bool := decide (b.id = a.id) && decide (b.parity = a.parity)

/-- The barriers at a home that an arrival is not for. -/
def State.otherBarriers (s : State) (a : MeshArrival) : List Barrier := (s.core a.home).barriers.filter (fun b => !a.counts b)

/-- The first arrival of an id and parity sets the count; one alone would be the last. -/
theorem State.countArrival_first {s : State} {a : MeshArrival} (h : (s.core a.home).barriers.find? a.counts = none) :
    s.countArrival a = if 1 = a.count then
        { s.setCore a.home { s.core a.home with barriers := s.otherBarriers a } with
          mesh := { s.mesh with releases := s.mesh.releases ++ [⟨a.src, a.home, a.id, a.parity⟩] } }
      else s.setCore a.home { s.core a.home with barriers := s.otherBarriers a ++ [⟨a.id, a.parity, a.count, [a.src]⟩] } := by
  unfold State.countArrival
  change List.find? (fun b : Barrier => decide (b.id = a.id) && decide (b.parity = a.parity)) _ = none at h
  simp only [h, Option.getD_none, ne_eq, not_true_eq_false, if_false, List.nil_append, List.length_singleton, List.map_cons, List.map_nil]
  rfl

/-- Any other arrival of an id and parity, by the count it names and by how many have arrived. -/
theorem State.countArrival_next {s : State} {a : MeshArrival} {b : Barrier} (h : (s.core a.home).barriers.find? a.counts = some b) :
    s.countArrival a = if b.count ≠ a.count then s.coreFault a.src (coreErr 0x010D)
      else if b.arrived.length + 1 = b.count then
        { s.setCore a.home { s.core a.home with barriers := s.otherBarriers a } with
          mesh := { s.mesh with releases := s.mesh.releases ++ (b.arrived ++ [a.src]).map (fun d => ⟨d, a.home, a.id, a.parity⟩) } }
      else s.setCore a.home { s.core a.home with barriers := s.otherBarriers a ++ [{ b with arrived := b.arrived ++ [a.src] }] } := by
  unfold State.countArrival
  change List.find? (fun b : Barrier => decide (b.id = a.id) && decide (b.parity = a.parity)) _ = some b at h
  simp only [h, Option.getD_some, List.length_append, List.length_singleton]
  rfl

/-- Settles O7: what each instruction and each message does, by the barrier or the wait it meets. -/
theorem synchronisation : Obligations.Synchronisation := by
  refine ⟨fun s n h id home count tag src => ?_, fun s n i => ⟨fun hnone => ?_, fun a rest htaken => ?_⟩,
    fun s n i => ⟨fun hnone => ?_, fun r rest htaken => ?_⟩⟩
  · intro c par
    refine ⟨fun hcount => ?_, fun h2 h128 hrect => ?_, fun h2 h128 hrect => ?_, fun h0 => ?_, fun h0 hthere => ?_, fun h0 hfew => ?_,
      fun hphase => ?_, fun hphase => ?_⟩
    · exact (exec_of_ready (i := .barrier n id home count) rfl h).trans (congrArg _ (if_pos hcount))
    · refine (exec_of_ready (i := .barrier n id home count) rfl h).trans (congrArg _ ?_)
      exact (if_neg (by omega)).trans (if_pos (by simp [hrect]))
    · obtain ⟨t, hexec, harr, hrel, hcore, hmem⟩ := exec_barrier_waits (id := id) (home := home) h h2 h128 hrect
      have hpar : BitVec.ofBool (!par) = if par then 0 else 1 := by cases par <;> rfl
      refine ⟨t, hexec, harr, hrel, ?_⟩
      rw [hcore]
      exact ⟨rfl, State.running_of_ready h, by rw [← hpar], rfl, rfl, rfl, hmem⟩
    · exact (exec_of_ready (i := .waitin n tag src count) rfl h).trans (congrArg _ (if_pos h0))
    · exact (exec_of_ready (i := .waitin n tag src count) rfl h).trans (congrArg _ ((if_neg h0).trans (if_pos hthere)))
    · obtain ⟨t, hexec, hcore, hmem⟩ := exec_waitin_waits h h0 hfew
      refine ⟨t, hexec, ?_⟩
      rw [hcore]
      exact ⟨rfl, rfl, rfl, hmem⟩
    · exact (exec_of_ready (i := .fence n) rfl h).trans (congrArg _ (if_pos hphase))
    · exact (exec_of_ready (i := .fence n) rfl h).trans (congrArg _ (if_neg hphase))
  · show Host.Outcome.next _ = _
    rw [hnone]
  · intro isB bs others u
    obtain ⟨hexec, rfl⟩ := exec_barrierArrival_of_taken htaken
    refine ⟨fun hfresh hcount => hexec.trans (congrArg _ ?_), fun b hb => ⟨fun hcount => hexec.trans (congrArg _ ?_),
      fun hcount hlast => hexec.trans (congrArg _ ?_), fun hcount hlast => hexec.trans (congrArg _ ?_)⟩⟩
    · exact (State.countArrival_first (s := u) hfresh).trans (if_neg (Ne.symm hcount))
    · exact (State.countArrival_next (s := u) hb).trans (if_pos hcount)
    · exact (State.countArrival_next (s := u) hb).trans ((if_neg (not_not.mpr hcount)).trans (if_neg hlast))
    · exact (State.countArrival_next (s := u) hb).trans ((if_neg (not_not.mpr hcount)).trans (if_pos hlast))
  · show Host.Outcome.next _ = _
    rw [hnone]
  · intro u
    have hexec : exec (.barrierRelease n i) s =
        .next (if (u.core n).mode = .running ∧ (u.core n).wait = some (.barrier r.home r.id r.parity) then (u.retire n).endWait n else u) := by
      show Host.Outcome.next _ = _
      rw [htaken]
    refine ⟨fun hrun hwait => ⟨hexec.trans (congrArg _ (if_pos ⟨hrun, hwait⟩)), ?_⟩, fun hother => hexec.trans (congrArg _ (if_neg ?_))⟩
    · obtain ⟨counters, hretire⟩ := State.retire_spec u n
      obtain ⟨again, hend⟩ := State.endWait_spec (u.retire n) n
      rw [hend, hretire]
      have hpc : (u.core n).regs.pc = (s.core n).regs.pc := rfl
      exact ⟨by simp, by simp [hpc]⟩
    · rintro ⟨hrun, hwait⟩
      exact hother.elim (fun h => h hrun) (fun h => h hwait)
end Sys2Proof.Machine
end

section
/-! SUPPORT. A core fault and the cut that may wait for it (R70, R74, R75, R462), and the values at power-on. -/

namespace Sys2Proof.Machine

/-- What a cut leaves of the core that is cut out. -/
def Core.cutOut (c : Core) : Core :=
  { c with
    mode := .cut, phase := .none, nextPhase := .none, wait := none, rotFills := [], rotHeld := [], inbound := [],
    flags := { c.flags with cutReq := false, ending := false, haltReq := false, tokenWait := false, rotStall := false } }

/-- The core map's bit of a core. -/
def ModuleState.withCut (u : ModuleState) (n : CoreNo) : ModuleState := { u with cutMap := u.cutMap ||| BitVec.ofNat 128 (2 ^ n.val) }

/-- R462: a cut changes the core and its bit of the core cut map. -/
theorem State.cutCore_spec (s : State) (n : CoreNo) :
    (∀ m, (s.cutCore n).core m = if n = m then (s.core n).cutOut else s.core m) ∧ (s.cutCore n).modu = s.modu.withCut n := by
  obtain ⟨mesh, hdrop⟩ := State.dropToken_spec (s.detachCore n) n
  unfold State.cutCore State.cutRecord
  rw [hdrop, State.report_modu]
  refine ⟨fun m => ?_, rfl⟩
  rw [State.report_core]
  exact State.core_modCore ({ s.detachCore n with mesh := mesh } : State) n m Core.cutOut

theorem State.atBoundary_core (s : State) (n m : CoreNo) :
    (s.atBoundary n).core m = if n = m then (if (s.core n).flags.cutReq then (s.core n).cutOut else s.core n) else s.core m := by
  unfold State.atBoundary
  by_cases hcut : (s.core n).flags.cutReq = true
  · rw [if_pos hcut, if_pos hcut, (State.cutCore_spec s n).1]
  · rw [if_neg hcut, if_neg hcut]
    by_cases hm : n = m
    · rw [if_pos hm, hm]
    · rw [if_neg hm]

theorem State.atBoundary_modu (s : State) (n : CoreNo) :
    (s.atBoundary n).modu = if (s.core n).flags.cutReq then s.modu.withCut n else s.modu := by
  unfold State.atBoundary
  split
  · exact (State.cutCore_spec s n).2
  · rfl

/-- R74: what the fault registers name. -/
def CoreErr.faultAt (e : CoreErr) (pc : W64) : CoreFault :=
  ⟨BitVec.ofNat 16 e.code, BitVec.ofNat 3 e.resource, e.multi, true, pc, BitVec.ofNat 32 e.tile, BitVec.ofNat 32 e.need, BitVec.ofNat 32 e.have_⟩

/-- R70, R75: the core a fault stops. -/
def Core.stopped (c : Core) (f : CoreFault) : Core :=
  { c.applyInval with
    mode := .faulted, phase := .none, nextPhase := .none, wait := none, rotFills := [], rotHeld := [], fault := f,
    flags := { c.applyInval.flags with tokenWait := false, rotStall := false, haltReq := false, ending := false } }

theorem Core.stopped_keeps (c : Core) (f : CoreFault) :
    (c.stopped f).mem = c.mem ∧ (c.stopped f).sregs = c.sregs ∧ (c.stopped f).regs = c.regs ∧ (c.stopped f).flags.cutReq = c.flags.cutReq := by
  unfold Core.stopped Core.applyInval
  split <;> exact ⟨rfl, rfl, rfl, rfl⟩

theorem State.coreFaultAt_reports {s : State} {n : CoreNo} (h : (s.core n).mode = .faulted ∨ (s.core n).mode = .cut ∨ (s.core n).mode = .off)
    (pc : W64) (e : CoreErr) : s.coreFaultAt n pc e = s.report (s.coreRecord n pc e) := if_pos h

theorem State.coreFaultAt_stops {s : State} {n : CoreNo} (h : ¬ ((s.core n).mode = .faulted ∨ (s.core n).mode = .cut ∨ (s.core n).mode = .off))
    (pc : W64) (e : CoreErr) : s.coreFaultAt n pc e =
      (((s.dropToken n).modCore n (·.stopped (e.faultAt pc))).report (s.coreRecord n pc e)).atBoundary n := if_neg h

/-- Settles O57: the core is stopped, and then cut out when a cut waits. -/
theorem coreFaults : Obligations.CoreFaults := by
  intro s n pc e
  refine ⟨fun h => ⟨State.coreFaultAt_reports h pc e, fun m => ?_⟩, fun hfaulted hcut hoff => ?_⟩
  · rw [State.coreFaultAt_reports h pc e, State.report_core]
  have hkeep := State.coreFaultAt_mem s n pc e
  obtain ⟨-, hsregs, hregs, hreq⟩ := Core.stopped_keeps (s.core n) (e.faultAt pc)
  obtain ⟨mesh, hdrop⟩ := State.dropToken_spec s n
  have hcore (m : CoreNo) : (((s.dropToken n).modCore n (·.stopped (e.faultAt pc))).report (s.coreRecord n pc e)).core m =
      if n = m then (s.core n).stopped (e.faultAt pc) else s.core m := by
    rw [State.report_core, State.core_modCore, State.dropToken_core, State.dropToken_core]
  have hmodu : (((s.dropToken n).modCore n (·.stopped (e.faultAt pc))).report (s.coreRecord n pc e)).modu = s.modu := by
    rw [State.report_modu, hdrop]; rfl
  have hself : (s.coreFaultAt n pc e).core n =
      if (s.core n).flags.cutReq then ((s.core n).stopped (e.faultAt pc)).cutOut else (s.core n).stopped (e.faultAt pc) := by
    rw [State.coreFaultAt_stops (by simp [hfaulted, hcut, hoff]), State.atBoundary_core, if_pos rfl, hcore, if_pos rfl, hreq]
  refine ⟨?_, fun m hm => ?_, hkeep.2.1, hkeep.2.2, ?_⟩
  · dsimp only
    refine ⟨?_, ?_, ?_, ?_, hkeep.1, ?_, ?_⟩ <;> rw [hself]
    · split <;> rfl
    · split <;> rfl
    · split <;> rfl
    · split <;> rfl
    · split <;> exact hsregs
    · split <;> exact hregs
  · rw [State.coreFaultAt_stops (by simp [hfaulted, hcut, hoff]), State.atBoundary_core, if_neg (Ne.symm hm), hcore, if_neg (Ne.symm hm)]
  · rw [State.coreFaultAt_stops (by simp [hfaulted, hcut, hoff]), State.atBoundary_modu, hcore, if_pos rfl, hreq, hmodu]
    rfl

/-- Settles O59: the reset state, field by field. -/
theorem resetValues : Obligations.ResetValues := by
  have hcore (n : CoreNo) : State.reset.core n = Core.reset := by simp [State.core, State.reset]
  have hpart (p : PartNo) : State.reset.part p = Part.reset := by simp [State.part, State.reset]
  have hport (p : PortNo) : State.reset.port p = Port.reset := by simp [State.port, State.reset, LinkState.reset]
  have hdict (i j : Nat) : Tab.get none State.reset.dict (dictKey i j) = none := rfl
  refine ⟨rfl, rfl, rfl, rfl, rfl, fun n => ?_, fun p => ?_, fun p => ?_, rfl, rfl, fun i j r h => ?_, rfl, State.Inv.reset⟩
  · rw [hcore]
    refine ⟨rfl, rfl, rfl, fun r => ?_, fun k => rfl⟩
    unfold Core.sget
    split <;> rfl
  · rw [hpart]
    exact ⟨rfl, rfl⟩
  · rw [hport]
    rfl
  · unfold State.dictVal
    rw [hdict, h]

end Sys2Proof.Machine
end

section
/-! SUPPORT. The matrix and attention classes: descriptors, runs behind the rotary cache, and chains (R59, R87 to R92). -/

namespace Sys2Proof.Machine

/-! Runs of the operand path -/

/-- A core whose run ended whole: CORE_PC at the next instruction, its counters counted. -/
def Core.retired (c : Core) (cs : Tab Counter) : Core :=
  { c with regs := { c.regs with pc := c.regs.pc + 16 }, counters := cs }

theorem State.countCore_setCore (u : State) (n : CoreNo) (c : Core) (ev k : Nat) :
    ∃ cs, (u.setCore n c).countCore n ev k = u.setCore n { c with counters := cs } := by
  obtain ⟨cs, h⟩ := State.countCore_spec (u.setCore n c) n ev k
  exact ⟨cs, h.trans (by simp [State.setCore, State.core])⟩

/-- Counting leaves a retired core retired. -/
theorem State.countCore_retired {t u : State} {n : CoreNo} {c : Core} (h : ∃ cs, t = u.setCore n (c.retired cs)) (ev k : Nat) :
    ∃ cs, t.countCore n ev k = u.setCore n (c.retired cs) := by
  obtain ⟨cs, rfl⟩ := h
  exact State.countCore_setCore u n (c.retired cs) ev k

/-- R59: a body that retires its core retires it behind the rotary cache too. -/
theorem State.withRot_retired {s u : State} {n : CoreNo} {c : Core} {lines : List Nat} {body : State → State}
    (hl : ∀ l ∈ lines, ((s.core n).rotLine l).isSome = true) (h : ∃ cs, body s = u.setCore n (c.retired cs)) :
    ∃ cs rot, s.withRot n lines body = u.setCore n { c.retired cs with rot := rot, rotHeld := [] } := by
  obtain ⟨cs, h⟩ := h
  obtain ⟨rot, hrot⟩ := State.withRot_present hl body
  exact ⟨cs, rot, hrot.trans (by rw [h]; simp [State.setCore, State.core])⟩

/-- Replacing one core's state leaves the others. -/
theorem State.core_setCore_of_ne {s : State} {n k : CoreNo} (h : k ≠ n) (c : Core) : (s.setCore n c).core k = s.core k := by
  rw [State.core_setCore, if_neg (Ne.symm h)]

/-! Descriptors (R87) -/

section
variable {s : State} {n : CoreNo} {d : DescArg} {len a : Nat} {body : Nat → List Byte → State} (ha : (s.core n).descAddr d = .ok a)
include ha

theorem State.withDesc_overflow (h : storeSize < a + len) : s.withDesc n d len body = s.coreFault n (errStore (a + len)) := by
  simp only [State.withDesc, ha, if_pos h]

theorem State.withDesc_poisoned (h : a + len ≤ storeSize) (hbad : (s.core n).stBad a len = true) :
    s.withDesc n d len body = s.coreFault n errPoison := by
  simp only [State.withDesc, ha, if_neg (Nat.not_lt.2 h), if_pos hbad]

theorem State.withDesc_whole (h : a + len ≤ storeSize) (hbad : (s.core n).stBad a len = false) :
    s.withDesc n d len body = body a ((s.core n).stRead a len) := by
  simp only [State.withDesc, ha, if_neg (Nat.not_lt.2 h), hbad, Bool.false_eq_true, if_false]
end

/-! Attention (R155 to R185) -/

/-- The forward pass behind the rotary cache. -/
def State.forwardRun (n : CoreNo) (x : AttnDesc) (dec : Bool) (own : Nat) (s : State) : State := s.finishAttn n ((s.attnRun n).forward x dec own)

/-- The backward pass behind the rotary cache. -/
def State.backwardRun (n : CoreNo) (x : BwdDesc) (own : Nat) (s : State) : State := s.finishAttn n ((s.attnRun n).backward x own)

theorem State.attnForward_eq (s : State) (n : CoreNo) (d : DescArg) (dec : Bool) : s.attnForward n d dec =
    s.withDesc n d 128 (fun own b =>
      if !attnLegal (AttnDesc.ofBytes dec b) ((s.core n).blockList (AttnDesc.ofBytes dec b)) then s.coreFault n (errShape 0 0)
      else s.withRot n ((s.core n).attnLines (AttnDesc.ofBytes dec b)) (State.forwardRun n (AttnDesc.ofBytes dec b) dec own)) := rfl

/-- What a core holds when a whole attention run retires it. -/
def AttnWhole (s t : State) (n : CoreNo) (r : AttnRun) : Prop :=
  (t.core n).mode = r.x.core.mode ∧ (t.core n).regs = { r.x.core.regs with pc := r.x.core.regs.pc + 16 } ∧ (t.core n).mem = r.x.core.mem ∧
    t.draws = r.x.draws ∧ t.mem = s.mem ∧ ∀ k, k ≠ n → t.core k = s.core k

theorem State.finishAttn_whole {s : State} {n : CoreNo} {r : AttnRun × Option CoreErr} (h : r.2 = none) : AttnWhole s (s.finishAttn n r) n r.1 := by
  obtain ⟨cs, heq⟩ := State.finishAttn_ok (s := s) (n := n) h
  rw [heq]
  exact ⟨by simp, by simp, by simp, rfl, rfl, fun k hk => State.core_setCore_of_ne hk _⟩

theorem State.withRot_finishAttn_whole {s : State} {n : CoreNo} {lines : List Nat} {r : AttnRun × Option CoreErr} {body : State → State}
    (hbody : body s = s.finishAttn n r) (hl : ∀ l ∈ lines, ((s.core n).rotLine l).isSome = true) (h : r.2 = none) :
    AttnWhole s (s.withRot n lines body) n r.1 := by
  obtain ⟨cs, rot, heq⟩ := State.withRot_retired hl (hbody ▸ State.finishAttn_ok h)
  rw [heq]
  exact ⟨by simp [Core.retired], by simp [Core.retired], by simp [Core.retired], rfl, rfl, fun k hk => State.core_setCore_of_ne hk _⟩

/-- Settles O10: the three ways a descriptor ends, and the run of a legal one behind its rotary lines. -/
theorem attentionClass : Obligations.AttentionClass := by
  intro s n h d a ha c whole
  have merge : exec (.attnMerge n d) s = .next (s.withDesc n d 64 fun own b => s.finishAttn n ((s.attnRun n).mergeAll (MergeDesc.ofBytes b) own)) :=
    exec_of_ready (i := .attnMerge n d) rfl h
  have forward (dec : Bool) : exec (if dec then .attnDec n d else .attnFwd n d) s = .next (s.attnForward n d dec) := by
    cases dec
    · exact exec_of_ready (i := .attnFwd n d) rfl h
    · exact exec_of_ready (i := .attnDec n d) rfl h
  have backward : exec (.attnBwd n d) s = .next (s.withDesc n d 128 fun own b =>
      if !bwdLegal (BwdDesc.ofBytes b) (c.tileList (BwdDesc.ofBytes b)) then s.coreFault n (errShape 0 0)
      else s.withRot n (c.bwdLines (BwdDesc.ofBytes b)) (State.backwardRun n (BwdDesc.ofBytes b) own)) :=
    exec_of_ready (i := .attnBwd n d) rfl h
  simp only [State.attnForward_eq] at forward
  have three {e : CoreErr} (hfault : ∀ body, s.withDesc n d 128 body = s.coreFault n e) :
      exec (.attnFwd n d) s = .next (s.coreFault n e) ∧ exec (.attnDec n d) s = .next (s.coreFault n e) ∧
        exec (.attnBwd n d) s = .next (s.coreFault n e) :=
    ⟨(forward false).trans (congrArg _ (hfault _)), (forward true).trans (congrArg _ (hfault _)), backward.trans (congrArg _ (hfault _))⟩
  refine ⟨fun hover => ?_, fun hfit hbad => ?_, fun hover => ?_, fun hfit hbad => ?_, fun hfit hbad => ?_, fun hfit hbad => ⟨?_, ?_⟩⟩
  · exact merge.trans (congrArg _ (State.withDesc_overflow ha hover))
  · exact merge.trans (congrArg _ (State.withDesc_poisoned ha hfit hbad))
  · exact three fun body => State.withDesc_overflow ha hover
  · have hmerge := merge.trans (congrArg _ (State.withDesc_whole ha hfit hbad))
    exact ⟨hmerge, fun hend => ⟨_, hmerge, State.finishAttn_whole hend⟩⟩
  · exact three fun body => State.withDesc_poisoned ha hfit hbad
  · rintro dec x rfl
    have hrun := (forward dec).trans (congrArg _ (State.withDesc_whole ha hfit hbad))
    refine ⟨fun hill => hrun.trans (congrArg _ (if_pos (by rw [hill]; rfl))), fun hlegal => ?_⟩
    have hlegalRun := hrun.trans (congrArg _ (if_neg (by rw [hlegal]; decide)))
    exact ⟨hlegalRun, fun hl hend => ⟨_, hlegalRun, State.withRot_finishAttn_whole rfl hl hend⟩⟩
  · rintro x rfl
    have hrun := backward.trans (congrArg _ (State.withDesc_whole ha hfit hbad))
    refine ⟨fun hill => hrun.trans (congrArg _ (if_pos (by rw [hill]; rfl))), fun hlegal => ?_⟩
    have hlegalRun := hrun.trans (congrArg _ (if_neg (by rw [hlegal]; decide)))
    exact ⟨hlegalRun, fun hl hend => ⟨_, hlegalRun, State.withRot_finishAttn_whole rfl hl hend⟩⟩

/-! Matrix operations (R87 to R91) -/

/-- What an MMA does once its rotary lines are present. -/
def State.mmaRun (n : CoreNo) (m : MatDesc) (s : State) : State :=
  if ((s.matRun n).exec m true []).2.isSome then s.finishMat n ((s.matRun n).exec m true [])
  else ((s.finishMat n ((s.matRun n).exec m true [])).countCore n 0x07 m.macs.1).countCore n 0x08 m.macs.2

theorem State.mmaRun_whole {s : State} {n : CoreNo} {m : MatDesc} (h : ((s.matRun n).exec m true []).2 = none) :
    ∃ cs, s.mmaRun n m = ({ s with draws := ((s.matRun n).exec m true []).1.draws } : State).setCore n
      (((s.matRun n).exec m true []).1.core.retired cs) := by
  unfold State.mmaRun
  rw [if_neg (by simp [h])]
  exact State.countCore_retired (State.countCore_retired (State.finishMat_ok h) 0x07 m.macs.1) 0x08 m.macs.2

/-- Clearing blocks of `u` cells: a cell of a cleared block reads 0, any other as before. -/
theorem Cells.get_clearBlocks {w : Nat} (u : Nat) {k i : Nat} (hi : i < u) (ks : List Nat) (m : Cells w) :
    (ks.foldl (fun m k => Cells.clearRange m (u * k) u) m).get (u * k + i) = if k ∈ ks then 0 else m.get (u * k + i) := by
  induction ks generalizing m with
  | nil => simp
  | cons j ks ih =>
    have hdiv : (u * k + i) / u = k := by rw [Nat.mul_add_div (by omega), Nat.div_eq_of_lt hi, Nat.add_zero]
    have hblock : u * j ≤ u * k + i ∧ u * k + i < u * j + u ↔ k = j := by
      rw [← hdiv, Nat.div_eq_iff (by omega), hdiv, Nat.mul_comm u j]
      omega
    simp only [List.foldl_cons, ih, Cells.get_clearRange, hblock, List.mem_cons]
    by_cases hk : k ∈ ks <;> simp [hk]

/-- Settles O8: the errors of a descriptor, the runs of a legal one, and the slots ZERO clears. -/
theorem matrixClass : Obligations.MatrixClass := by
  intro s n h d slots c
  have mma := exec_of_ready (i := .mma n d) rfl h
  have epi := exec_of_ready (i := .epi n d) rfl h
  refine ⟨fun e ha => ?_, fun a e ha hm => ?_, fun a m ha hm => ?_, ?_⟩
  · simp only [mma, epi, show (s.core n).descAddr d = _ from ha, and_self]
  · simp only [mma, epi, show (s.core n).descAddr d = _ from ha, show (s.core n).readMat a = _ from hm, and_self]
  · intro q r
    simp only [show (s.core n).descAddr d = _ from ha, show (s.core n).readMat a = _ from hm] at mma epi
    have hmma : exec (.mma n d) s = .next (s.withRot n (c.matLines m) (State.mmaRun n m)) := mma
    refine ⟨fun hend => ?_, fun e hend => ?_, fun hl hend => ?_, ?_, mma⟩
    · exact epi.trans (congrArg _ (by unfold State.finishMat; rw [hend]))
    · exact epi.trans (congrArg _ (by unfold State.finishMat; rw [hend]))
    · obtain ⟨cs, rot, hrun⟩ := State.withRot_retired hl (State.mmaRun_whole hend)
      refine ⟨_, hmma, ?_⟩
      rw [hrun]
      exact ⟨by simp [Core.retired, r], by simp [Core.retired, r], by simp [Core.retired, r], by simp [Core.retired, r], by simp, rfl, rfl,
        fun k hk => State.core_setCore_of_ne hk _⟩
    · rintro ⟨l, hl, hmiss⟩
      obtain ⟨cs, hstall⟩ := State.withRot_missing hl hmiss (State.mmaRun n m)
      refine ⟨_, hmma, ?_⟩
      rw [hstall]
      exact ⟨by simp, by simp [c], by simp [c], by simp [c], rfl⟩
  · refine ⟨_, exec_of_ready (i := .zero n slots) rfl h, fun k hk i hi => ?_, fun k hk i hi => ?_, ?_⟩
    · simp [Cells.get_clearBlocks 32768 hi, hk, c]
    · simp [Cells.get_clearBlocks 2048 hi, hk, c]
    · simp [c]

/-! Chains (R91, R151 to R153) -/

/-- The rotary lines that a chain which may be fused waits for. -/
def Core.chainLines (c : Core) (l : List (ChainStep × MatDesc)) : List Nat :=
  if (l.head?).elim [] (fun x => c.tileFails (c.gathered x.2) true [] 0 0) = [] then (l.flatMap (fun x => c.matLines x.2)).dedup else []

/-- What a legal chain does once its rotary lines are present. -/
def State.chainRun (n : CoreNo) (l : List (ChainStep × MatDesc)) (s : State) : State :=
  let r := (s.matRun n).steps [] 0 (l.map (·.2))
  let done := (l.take r.2.2).map (fun x => x.2.macs)
  ((s.finishMat n (r.1, r.2.1)).countCore n 0x07 (sumNat (done.map (·.1)))).countCore n 0x08 (sumNat (done.map (·.2)))

theorem State.countCore_mem (s : State) (n : CoreNo) (ev k : Nat) :
    ((s.countCore n ev k).core n).mem = (s.core n).mem ∧ (s.countCore n ev k).mem = s.mem := by
  obtain ⟨cs, h⟩ := State.countCore_spec s n ev k
  rw [h]
  exact ⟨by simp, rfl⟩

/-- However a matrix run ends, the core's stores are as the run left them and unified memory is as it was. -/
theorem State.finishMat_mem (s : State) (n : CoreNo) (r : MatRun × Option CoreErr) :
    ((s.finishMat n r).core n).mem = r.1.core.mem ∧ (s.finishMat n r).mem = s.mem := by
  cases hend : r.2 with
  | none =>
    obtain ⟨cs, h⟩ := State.finishMat_ok (s := s) (n := n) hend
    rw [h]
    exact ⟨by simp, rfl⟩
  | some e =>
    unfold State.finishMat
    rw [hend]
    obtain ⟨hcore, hmem, -⟩ := State.coreFaultAt_mem ((({ s with draws := r.1.draws } : State).setCore n r.1.core).countCore n 0x0D r.1.sat) n
      (((({ s with draws := r.1.draws } : State).setCore n r.1.core).countCore n 0x0D r.1.sat).core n).regs.pc e
    obtain ⟨hcount, hcountMem⟩ := State.countCore_mem (({ s with draws := r.1.draws } : State).setCore n r.1.core) n 0x0D r.1.sat
    exact ⟨hcore.trans (hcount.trans (by simp)), hmem.trans hcountMem⟩

theorem State.chainRun_mem (s : State) (n : CoreNo) (l : List (ChainStep × MatDesc)) :
    ((s.chainRun n l).core n).mem = ((s.matRun n).steps [] 0 (l.map (·.2))).1.core.mem ∧ (s.chainRun n l).mem = s.mem := by
  have hcount := fun (t : State) (ev k : Nat) => State.countCore_mem t n ev k
  exact ⟨(hcount _ _ _).1.trans ((hcount _ _ _).1.trans (State.finishMat_mem ..).1),
    (hcount _ _ _).2.trans ((hcount _ _ _).2.trans (State.finishMat_mem ..).2)⟩

theorem State.chainRun_whole {s : State} {n : CoreNo} {l : List (ChainStep × MatDesc)}
    (h : ((s.matRun n).steps [] 0 (l.map (·.2))).2.1 = none) :
    ∃ cs, s.chainRun n l = ({ s with draws := ((s.matRun n).steps [] 0 (l.map (·.2))).1.draws } : State).setCore n
      (((s.matRun n).steps [] 0 (l.map (·.2))).1.core.retired cs) :=
  State.countCore_retired (State.countCore_retired (State.finishMat_ok h) 0x07 _) 0x08 _

/-- A chain waits for lines of its steps alone. -/
theorem Core.mem_chainLines {c : Core} {l : List (ChainStep × MatDesc)} {k : Nat} (h : k ∈ c.chainLines l) : ∃ x ∈ l, k ∈ c.matLines x.2 := by
  unfold Core.chainLines at h
  split at h
  · rwa [List.mem_dedup, List.mem_flatMap] at h
  · exact absurd h List.not_mem_nil

/-- Settles O9: what is wrong with the descriptors, and the run of a legal chain. -/
theorem chainClass : Obligations.ChainClass := by
  intro s n h d c
  have hchain := exec_of_ready (i := .chain n d) rfl h
  refine ⟨fun e ha => ?_, fun a ha => ?_⟩
  · simp only [hchain, show (s.core n).descAddr d = _ from ha]
  simp only [show (s.core n).descAddr d = _ from ha] at hchain
  refine ⟨fun hover => ?_, fun hfit hbad => ?_, fun hfit hbad hform => ?_, fun hfit hbad ts e hform hread => ?_,
    fun hfit hbad ts l0 hform hread => ?_⟩
  · exact hchain.trans (congrArg _ (if_pos hover))
  all_goals rw [if_neg (Nat.not_lt.2 hfit)] at hchain
  · exact hchain.trans (congrArg _ (if_pos hbad))
  all_goals rw [if_neg (by rw [show (s.core n).stBad a 64 = _ from hbad]; decide)] at hchain
  · simp only [show chainSteps ((s.core n).stRead a 64) = _ from hform] at hchain
    exact hchain
  all_goals simp only [show chainSteps ((s.core n).stRead a 64) = _ from hform] at hchain
  · simp only [show (s.core n).readSteps ts = _ from hread] at hchain
    exact hchain
  · intro l hlegal hfuse hl r
    simp only [show (s.core n).readSteps ts = _ from hread, show chainBad none (linkSteps none l0) = _ from hlegal,
      show chainFuse (linkSteps none l0) = _ from hfuse] at hchain
    replace hchain : exec (.chain n d) s = .next (s.withRot n (c.chainLines l) (State.chainRun n l)) := hchain
    have hlines : ∀ k ∈ c.chainLines l, (c.rotLine k).isSome = true := fun k hk => by
      obtain ⟨x, hx, hkx⟩ := Core.mem_chainLines hk
      exact hl x hx k hkx
    refine ⟨fun hend => ⟨_, hchain, ?_⟩, fun e hend => ⟨_, hchain, ?_⟩⟩
    · obtain ⟨cs, rot, hrun⟩ := State.withRot_retired hlines (State.chainRun_whole hend)
      rw [hrun]
      exact ⟨by simp [Core.retired, r], by simp [Core.retired, r], by simp [Core.retired, r], by simp [Core.retired, r], by simp, rfl, rfl,
        fun k hk => State.core_setCore_of_ne hk _⟩
    · obtain ⟨rot, hrun⟩ := State.withRot_present hlines (State.chainRun n l)
      rw [hrun]
      obtain ⟨hcore, hmem⟩ := State.chainRun_mem s n l
      exact ⟨by simpa using hcore, hmem⟩

/-! Vector operations (R93, R94) -/

section
variable {s : State} {n : CoreNo} {i : Instr} (h : s.ready n .compute = true)
include h

theorem exec_vec_ok {f : Core → Except CoreErr Core} (hexec : exec i s = .next (s.vec n f)) {c : Core} (hf : f (s.core n) = .ok c) :
    exec i s = .next ((s.setCore n c).retire n) :=
  (exec_of_ready hexec h).trans (by rw [hf]; rfl)

theorem exec_vec_error {f : Core → Except CoreErr Core} (hexec : exec i s = .next (s.vec n f)) {e : CoreErr} (hf : f (s.core n) = .error e) :
    exec i s = .next (s.coreFault n e) :=
  (exec_of_ready hexec h).trans (by rw [hf]; rfl)

theorem exec_vecCounted_ok {f : Core → Except CoreErr (Core × Nat)} (hexec : exec i s = .next (s.vecCounted n f)) {c : Core} {k : Nat}
    (hf : f (s.core n) = .ok (c, k)) : exec i s = .next (((s.setCore n c).countCore n 0x0D k).retire n) :=
  (exec_of_ready hexec h).trans (by rw [hf])

theorem exec_vecCounted_error {f : Core → Except CoreErr (Core × Nat)} (hexec : exec i s = .next (s.vecCounted n f)) {e : CoreErr}
    (hf : f (s.core n) = .error e) : exec i s = .next (s.coreFault n e) :=
  (exec_of_ready hexec h).trans (by rw [hf])
end

/-- Settles O11: each operation writes what its definition names and retires. -/
theorem vectorLanes : Obligations.VectorLanes := by
  intro s n h vd va vc vb ss row reg c done two one
  have run (i : Instr) {f : Core → Except CoreErr Core} {c' : Core} (hexec : exec i s = .next (s.vec n f)) (hf : f (s.core n) = .ok c') :
      exec i s = done c' := exec_vec_ok h hexec hf
  exact ⟨run (.vadd n vd va vb) rfl rfl, run (.vsub n vd va vb) rfl rfl, run (.vmul n vd va vb) rfl rfl, run (.vmax n vd va vb) rfl rfl,
    run (.vmin n vd va vb) rfl rfl, run (.vcmpgt n vd va vb) rfl rfl, run (.vldexp n vd va vb) rfl rfl, run (.vabs n vd va) rfl rfl,
    run (.vneg n vd va) rfl rfl, run (.vexpo n vd va) rfl rfl, run (.exp2 n vd va) rfl rfl, run (.log2 n vd va) rfl rfl,
    run (.vfma n vd va vb vc) rfl rfl, run (.vsel n vd va vb vc) rfl rfl, run (.vredsum n vd va) rfl rfl, run (.vredmax n vd va) rfl rfl,
    run (.vldb n vd row reg) rfl rfl, run (.vstb n va row reg) rfl rfl, run (.vmovs n vd ss) rfl rfl, run (.vext n ss va) rfl rfl⟩

/-! Accesses of the vector unit to the store (R93) -/

theorem Core.vecAddr_cases (c : Core) (x : StAddr) (bytes : Nat) :
    let base : W64 := match x.base with
      | some r => c.sget r
      | none => 0
    let bad : Bool := match x.base with
      | some r => c.sbad r
      | none => false
    let a := (base + x.addr.setWidth 64).toNat
    (bad = true → c.vecAddr x bytes = .error errPoison) ∧
    (bad = false → a % 64 ≠ 0 → c.vecAddr x bytes = .error errMisaligned) ∧
    (bad = false → a % 64 = 0 → 0x300000 < a + bytes → c.vecAddr x bytes = .error (errStore (a + bytes))) ∧
    (bad = false → a % 64 = 0 → a + bytes ≤ 0x300000 → c.vecAddr x bytes = .ok a) := by
  intro base bad a
  have heq : c.vecAddr x bytes = if bad then .error errPoison else if a % 64 ≠ 0 then .error errMisaligned
      else if 0x300000 < a + bytes then .error (errStore (a + bytes)) else .ok a := rfl
  rw [heq]
  refine ⟨fun hbad => if_pos hbad, fun hbad hal => ?_, fun hbad hal hover => ?_, fun hbad hal hfit => ?_⟩
  · rw [if_neg (by simp [hbad]), if_pos hal]
  · rw [if_neg (by simp [hbad]), if_neg (not_not.2 hal), if_pos hover]
  · rw [if_neg (by simp [hbad]), if_neg (not_not.2 hal), if_neg (Nat.not_lt.2 hfit)]

section
variable {c : Core} {vd va : VReg} {addr : StAddr} {fmt : Byte} {rnd : BitVec 2}

theorem Core.vld_of_format_none (h : vecFmt fmt = none) : c.vld vd addr fmt = .error (errShape 0 8) := by
  unfold Core.vld
  rw [h]

theorem Core.vst_of_off_list (h : vecFmt fmt = none ∨ vecRnd rnd = none) : c.vst va addr fmt rnd = .error (errShape 0 8) := by
  unfold Core.vst
  rcases h with h | h <;> rw [h]
  split <;> simp_all

theorem Core.vcvt_of_off_list (h : vecFmt fmt = none ∨ vecRnd rnd = none) : c.vcvt vd va fmt rnd = .error (errShape 0 8) := by
  unfold Core.vcvt
  rcases h with h | h <;> rw [h]
  split <;> simp_all

theorem Core.vld_of_addr_error {f : ElemFmt} {e : CoreErr} (hf : vecFmt fmt = some f) (ha : c.vecAddr addr (f.bytesFor 256) = .error e) :
    c.vld vd addr fmt = .error e := by
  simp only [Core.vld, hf, ha]

theorem Core.vld_of_addr_ok {f : ElemFmt} {a : Nat} (hf : vecFmt fmt = some f) (ha : c.vecAddr addr (f.bytesFor 256) = .ok a) :
    c.vld vd addr fmt = .ok (c.vout vd ((List.range 256).map (fun i => widen f (getElem c.mem.store f a i)))
      ((List.range 16).map (fun g => c.stBad (a + g * f.bytesFor 16) (f.bytesFor 16)))) := by
  simp only [Core.vld, hf, ha]

theorem Core.vst_of_addr_error {f : ElemFmt} {r : RndMode} {e : CoreErr} (hf : vecFmt fmt = some f) (hr : vecRnd rnd = some r)
    (ha : c.vecAddr addr (f.bytesFor 256) = .error e) : c.vst va addr fmt rnd = .error e := by
  simp only [Core.vst, hf, hr, ha]

theorem Core.vst_of_addr_ok {f : ElemFmt} {r : RndMode} {a : Nat} (hf : vecFmt fmt = some f) (hr : vecRnd rnd = some r)
    (ha : c.vecAddr addr (f.bytesFor 256) = .ok a) {q : List Nat × Nat × W64} (hq : convertList f r c.regs.rngState (c.vget va) = q) :
    c.vst va addr fmt rnd = .ok ((({ c with regs := { c.regs with rngState := q.2.2 } }).stWrite a (packElems f q.1) (fun i =>
      (((c.vbad va).drop (i * (64 / f.bytesFor 16))).take (64 / f.bytesFor 16)).any id)).seen ((c.vbad va).any id), q.2.1) := by
  simp only [Core.vst, hf, hr, ha, hq]

theorem Core.vcvt_of_listed {f : ElemFmt} {r : RndMode} (hf : vecFmt fmt = some f) (hr : vecRnd rnd = some r)
    {q : List Nat × Nat × W64} (hq : convertList f r c.regs.rngState (c.vget va) = q) :
    c.vcvt vd va fmt rnd = .ok (({ c with regs := { c.regs with rngState := q.2.2 } }).vout vd (q.1.map (widen f)) (c.vbad va), q.2.1) := by
  simp only [Core.vcvt, hf, hr, hq]
end

/-- Settles O12: the format and the rounding, the address, and the conversion. -/
theorem vectorMemory : Obligations.VectorMemory := by
  refine ⟨fun s n h vd va addr fmt rnd => ?_, Core.vecAddr_cases⟩
  intro c
  have vld {e} (he : c.vld vd addr fmt = .error e) := exec_vec_error h (i := .vld n vd addr fmt) rfl he
  have vst {e} (he : c.vst va addr fmt rnd = .error e) := exec_vecCounted_error h (i := .vst n va addr fmt rnd) rfl he
  have vcvt {e} (he : c.vcvt vd va fmt rnd = .error e) := exec_vecCounted_error h (i := .vcvt n vd va fmt rnd) rfl he
  refine ⟨fun hfmt => ⟨vld (Core.vld_of_format_none hfmt), vst (Core.vst_of_off_list (.inl hfmt)), vcvt (Core.vcvt_of_off_list (.inl hfmt))⟩,
    fun hrnd => ⟨vst (Core.vst_of_off_list (.inr hrnd)), vcvt (Core.vcvt_of_off_list (.inr hrnd))⟩,
    fun f hfmt e ha => vld (Core.vld_of_addr_error hfmt ha), fun f a hfmt ha => ?_, fun f r hfmt hrnd => ?_,
    fun vm first count region k hcount hrows => ?_⟩
  · exact exec_vec_ok h (i := .vld n vd addr fmt) rfl (Core.vld_of_addr_ok hfmt ha)
  · generalize hq : convertList f r c.regs.rngState (c.vget va) = q
    refine ⟨fun e ha => vst (Core.vst_of_addr_error hfmt hrnd ha), fun a ha => ?_, ?_⟩
    · have hst := Core.vst_of_addr_ok (va := va) hfmt hrnd ha hq
      exact exec_vecCounted_ok h (i := .vst n va addr fmt rnd) rfl hst
    · have hcvt := Core.vcvt_of_listed (c := c) (vd := vd) (va := va) hfmt hrnd hq
      exact exec_vecCounted_ok h (i := .vcvt n vd va fmt rnd) rfl hcvt
  · have hrange : ¬ (count = 0 ∨ 128 < first.toNat + count.toNat) := by
      rintro (rfl | hover)
      · exact absurd hcount (by decide)
      · omega
    exact exec_vec_ok h (i := .exp2b n vm first count region k) rfl (if_neg hrange)

end Sys2Proof.Machine
end

section
/-! SUPPORT. Transfers of a compute core: loads and stores, descriptor forms, streams and arrivals, and the rotary cache (R59 to R62, R95 to R100). -/

namespace Sys2Proof.Machine

/-! Lengths, ends and old snapshots (R95, R254) -/

theorem lenOk_iff (len : BitVec 21) : lenOk len = true ↔ len.toNat % 64 = 0 ∧ 64 ≤ len.toNat ∧ len.toNat ≤ 1048576 := by
  have hzero : len = 0 ↔ len.toNat = 0 := by rw [← BitVec.toNat_inj]; rfl
  simp only [lenOk, Bool.and_eq_true, decide_eq_true_eq, ne_eq, hzero]
  omega

theorem lenOk_eq_false {len : BitVec 21} (h : ¬ (len.toNat % 64 = 0 ∧ 64 ≤ len.toNat ∧ len.toNat ≤ 1048576)) : lenOk len = false :=
  Bool.eq_false_iff.2 (mt (lenOk_iff len).1 h)

theorem State.readErr_of_open {s : State} {n : CoreNo} (h : s.snapGone n = false) : s.readErr n = none := by
  simp [State.readErr, h]

theorem State.readErr_of_gone {s : State} {n : CoreNo} (h : s.snapGone n = true) : s.readErr n = some (coreErr 0x0304) := if_pos h

/-- A transfer that went out whole is counted and retires. -/
theorem State.endXfer_whole {s u : State} {n : CoreNo} {k : Nat} {r : State × Option CoreErr} (h : r = (u, none)) :
    s.endXfer n k r = (u.countCore n 0x1B (k / 64)).retire n := by
  rw [h]; rfl

theorem State.endXfer_failed {s u : State} {n : CoreNo} {k : Nat} {e : CoreErr} {r : State × Option CoreErr} (h : r = (u, some e)) :
    s.endXfer n k r = u.coreFault n e := by
  rw [h]; rfl

/-! A single run (R95, R240) -/

section
variable {s : State} {n : CoreNo} {sp cx : Nat} {r : Run}

theorem State.loadRuns_overflow (h : storeSize < r.st + r.n) :
    s.loadRuns n sp cx [r] [r] = (s, some (errStore (r.st + r.n))) := by
  simp only [State.loadRuns, State.loadRun, if_pos h]
  exact congrArg (·, _) (if_neg (show ¬ (0x0102 : Nat) = 0x0201 by decide))

theorem State.storeRuns_overflow (h : storeSize < r.st + r.n) : s.storeRuns n sp cx [r] = (s, some (errStore (r.st + r.n))) := by
  simp only [State.storeRuns, State.storeRun, if_pos h]

/-- What one load run leaves when its pages translate: the granules read and their marks. -/
def State.loaded (s : State) (n : CoreNo) (q : WalkReq) (st : Nat) (ts : List (Trans × Nat)) : State :=
  let gs := s.transGrans q.view ts
  let marks := gs.map (fun g => g.poison)
  (s.modCore n (fun c => (c.stWrite st (gs.flatMap (fun g => granBytes g.data)) (fun i => marks.getD i false)).seen (marks.any id))).countCore
    n 0x1A (marks.filter id).length

theorem State.loadRuns_translated {ts : List (Trans × Nat)} (hfit : r.st + r.n ≤ storeSize)
    (h : s.translateAll (s.coreReq n sp cx r.mem 0) (pagePieces r.mem r.n) = .ok ts) :
    let q := s.coreReq n sp cx r.mem 0
    s.loadRuns n sp cx [r] [r] = (((s.readPath n q (pagePieces r.mem r.n) ts).touchTrans 0 (some q.part) ts).loaded n q r.st ts, none) := by
  simp only [State.loadRuns, State.loadRun, if_neg (Nat.not_lt.2 hfit), h]
  rfl

theorem State.storeRuns_onePage {x : Trans} {u : State} (hfit : r.st + r.n ≤ storeSize) (hpage : pagePieces r.mem r.n = [(r.mem, r.n)])
    (hx : s.translate (s.coreReq n sp cx r.mem 1) = .ok x)
    (hu : (s.writePath n (s.coreReq n sp cx r.mem 1) x r.n).coreStore n
      (transPieces [(x, r.n)] ((s.core n).stRead r.st r.n) (fun i => (s.core n).granBad (r.st + 64 * i))) = .ok u) :
    s.storeRuns n sp cx [r] = (u.modCore n (fun c => c.seen (c.stBad r.st r.n)), none) := by
  have hread : ((s.core n).stRead r.st r.n).take r.n = (s.core n).stRead r.st r.n := List.take_of_length_le (by simp [Core.stRead])
  have haddr : ({ s.coreReq n sp cx r.mem 1 with addr := r.mem } : WalkReq) = s.coreReq n sp cx r.mem 1 := rfl
  simp only [State.storeRuns, State.storeRun, if_neg (Nat.not_lt.2 hfit), hpage, List.foldl_cons, List.foldl_nil, haddr, hx, List.drop_zero,
    Nat.zero_div, Nat.zero_add, hread, hu]
end

/-- What stops a LOAD or a STORE before any effect, in this order (R95). -/
theorem Core.xferErr_eq (c : Core) (m : MemArg) (st : BitVec 22) (len : BitVec 21) :
    c.xferErr m st len =
      if !lenOk len then some errBadInstr
      else if (match m.ctx with
        | some sc => c.sbad m.sa || c.sbad sc
        | none => c.sbad m.sa) then some errPoison
      else if (c.sget m.sa + m.imm.signExtend 64).toNat % 64 ≠ 0 ∨ st.toNat % 64 ≠ 0 then some errMisaligned
      else none := by
  obtain ⟨sa, imm, _ | sc⟩ := m
  · simp only [Core.xferErr, Bool.or_false]
    rfl
  · rfl

/-- Settles O13: the order of the errors, and one run of an accepted load or store. -/
theorem loadStore : Obligations.LoadStore := by
  intro s n h m st len c a bad legal space done
  have hload : exec (.load n m st len) s = .next (match (c.xferErr m st len).orElse (fun _ => s.readErr n) with
      | some e => s.coreFault n e
      | none => s.endXfer n len.toNat (s.loadRuns n space.1 space.2 [⟨a, st.toNat, len.toNat⟩] [⟨a, st.toNat, len.toNat⟩])) :=
    exec_of_ready (i := .load n m st len) rfl h
  have hstore : exec (.store n m st len) s = .next (match c.xferErr m st len with
      | some e => s.coreFault n e
      | none => s.endXfer n len.toNat (s.storeRuns n space.1 space.2 [⟨a, st.toNat, len.toNat⟩])) :=
    exec_of_ready (i := .store n m st len) rfl h
  have herr : c.xferErr m st len = if !lenOk len then some errBadInstr else if bad then some errPoison
      else if a % 64 ≠ 0 ∨ st.toNat % 64 ≠ 0 then some errMisaligned else none := Core.xferErr_eq c m st len
  rw [hload, hstore, herr]
  clear hload hstore herr
  clear_value bad space a
  refine ⟨fun hlen => ?_, fun hlen hbad => ?_, fun hlen hbad hal => ?_, fun hlen hbad ha hst => ?_⟩
  · rw [lenOk_eq_false hlen]
    exact ⟨rfl, rfl⟩
  · rw [(lenOk_iff len).2 hlen, hbad]
    exact ⟨rfl, rfl⟩
  · rw [(lenOk_iff len).2 hlen, hbad, if_pos hal]
    exact ⟨rfl, rfl⟩
  · rw [(lenOk_iff len).2 hlen, hbad, if_neg (by decide), if_neg (by decide), if_neg (by omega)]
    refine ⟨fun hgone => ?_, fun hover => ⟨?_, fun hopen => ?_⟩, fun hopen hfit ts hts => ?_, fun u hu => ?_, fun u e hu => ?_,
      fun hfit hpage x u hx hu => ?_⟩
    · rw [State.readErr_of_gone hgone]
      rfl
    · exact congrArg _ (State.endXfer_failed (State.storeRuns_overflow (r := ⟨a, st.toNat, len.toNat⟩) hover))
    · rw [State.readErr_of_open hopen]
      exact congrArg _ (State.endXfer_failed (State.loadRuns_overflow (r := ⟨a, st.toNat, len.toNat⟩) hover))
    · rw [State.readErr_of_open hopen]
      exact congrArg _ (State.endXfer_whole (State.loadRuns_translated (r := ⟨a, st.toNat, len.toNat⟩) hfit hts))
    · exact congrArg _ (State.endXfer_whole hu)
    · exact congrArg _ (State.endXfer_failed hu)
    · exact congrArg _ (State.endXfer_whole (State.storeRuns_onePage (r := ⟨a, st.toNat, len.toNat⟩) hfit hpage hx hu))

/-! Descriptor forms (R98, R99) -/

/-- Settles O14: the descriptor, the snapshot, and the runs. -/
theorem descriptors : Obligations.Descriptors := by
  intro s n h st c done taken
  have hload := exec_of_ready (i := .load2d n st) rfl h
  have hstore := exec_of_ready (i := .store2d n st) rfl h
  have hgather := exec_of_ready (i := .gather n st) rfl h
  have hscatter := exec_of_ready (i := .scatter n st) rfl h
  refine ⟨fun e he => ?_, fun e he => ?_, fun e he => ?_, fun e he => ?_, fun d hd => ?_, fun d hd => ?_, fun d ids hd => ?_, fun d ids hd => ?_⟩
  · simp only [hload, show (s.core n).readXfer st.toNat 3 0 65536 (2 ^ 20) = _ from he]
  · simp only [hstore, show (s.core n).readXfer st.toNat 3 1 65536 (2 ^ 20) = _ from he]
  · simp only [hgather, show (s.core n).readStream st.toNat 0 = _ from he]
  · simp only [hscatter, show (s.core n).readStream st.toNat 1 = _ from he]
  · simp only [show (s.core n).readXfer st.toNat 3 0 65536 (2 ^ 20) = _ from hd] at hload
    refine ⟨fun hgone => ?_, fun hopen => ?_⟩
    · rw [State.readErr_of_gone hgone] at hload
      exact hload
    · rw [State.readErr_of_open hopen] at hload
      exact ⟨fun u hu => hload.trans (congrArg _ (State.endXfer_whole hu)), fun u e hu => hload.trans (congrArg _ (State.endXfer_failed hu))⟩
  · simp only [show (s.core n).readXfer st.toNat 3 1 65536 (2 ^ 20) = _ from hd] at hstore
    exact ⟨fun u hu => hstore.trans (congrArg _ (State.endXfer_whole hu)), fun u e hu => hstore.trans (congrArg _ (State.endXfer_failed hu))⟩
  · simp only [show (s.core n).readStream st.toNat 0 = _ from hd] at hgather
    refine ⟨fun hgone => ?_, fun hopen => ?_⟩
    · rw [State.readErr_of_gone hgone] at hgather
      exact hgather
    · rw [State.readErr_of_open hopen] at hgather
      exact ⟨fun u hu => hgather.trans (congrArg _ (State.endXfer_whole hu)),
        fun u e hu => hgather.trans (congrArg _ (State.endXfer_failed hu))⟩
  · simp only [show (s.core n).readStream st.toNat 1 = _ from hd] at hscatter
    exact ⟨fun u hu => hscatter.trans (congrArg _ (State.endXfer_whole hu)),
      fun u e hu => hscatter.trans (congrArg _ (State.endXfer_failed hu))⟩

/-! Streams (R61, R62, R97) -/

/-- The state once the units are on the mesh for the cores of a list. -/
def State.sent (s : State) (n : CoreNo) (tag : Nat) (us : List (BitVec 512 × Bool)) (l : List CoreNo) : State :=
  { s with mesh := { s.mesh with sends := s.mesh.sends ++ l.map (fun d => ⟨n, d, tag, us⟩) } }

theorem State.sent_cons (s : State) (n : CoreNo) (tag : Nat) (us : List (BitVec 512 × Bool)) (d : CoreNo) (l : List CoreNo) :
    (s.sent n tag us [d]).sent n tag us l = s.sent n tag us (d :: l) := by
  simp [State.sent]

/-- The cores that take data get it, in order, up to the first that takes none. -/
theorem State.sendTo_append {n : CoreNo} {tag : Nat} {us : List (BitVec 512 × Bool)} {l : List CoreNo} (r : List CoreNo) {u : State}
    (h : ∀ d ∈ l, (u.core d).accepts = true) : u.sendTo n tag us (l ++ r) = (u.sent n tag us l).sendTo n tag us r := by
  induction l generalizing u with
  | nil => simp [State.sent]
  | cons d l ih =>
    rw [List.cons_append, State.sendTo, if_pos (h d List.mem_cons_self), ← State.sent_cons]
    exact ih (u := u.sent n tag us [d]) fun k hk => h k (List.mem_cons_of_mem d hk)

theorem State.accepts_seen (s : State) (n k : CoreNo) (b : Bool) : ((s.modCore n (fun c => c.seen b)).core k).accepts = (s.core k).accepts := by
  rw [State.core_modCore]
  split
  · subst_vars
    unfold Core.seen
    split <;> rfl
  · rfl

/-- Settles O15: lengths, alignment and room, then the effect of each form. -/
theorem streams : Obligations.Streams := by
  intro s n h st len tag wide a b c legal done ids
  have hld := exec_of_ready (i := .streamLd n st len wide) rfl h
  have hsend := exec_of_ready (i := .send n st len tag a b) rfl h
  have hrecv := exec_of_ready (i := .recv n st len tag a) rfl h
  refine ⟨fun hlen => ?_, fun hlen hal => ?_, fun hlen hover => ?_, fun hlen hfit => ?_⟩
  · have hbad : (!lenOk len) = true := by rw [lenOk_eq_false hlen]; rfl
    exact ⟨hld.trans (congrArg _ (if_pos hbad)), hsend.trans (congrArg _ (if_pos hbad)), hrecv.trans (congrArg _ (if_pos hbad))⟩
  all_goals
    have hgood : ¬ (!lenOk len) = true := by rw [(lenOk_iff len).2 hlen]; decide
    rw [if_neg hgood] at hsend hrecv
  · exact ⟨hsend.trans (congrArg _ (if_pos hal)), hrecv.trans (congrArg _ (if_pos hal))⟩
  all_goals
    dsimp only at hld
    rw [if_neg hgood] at hld
  · refine ⟨hld.trans (congrArg _ (if_pos hover)), fun hal => ?_⟩
    rw [if_neg (not_not.2 hal), if_pos hover] at hsend hrecv
    exact ⟨hsend, hrecv⟩
  · rw [if_neg (Nat.not_lt.2 hfit)] at hld
    refine ⟨fun hfull => hld.trans (congrArg _ (if_pos hfull)), fun hroom => hld.trans (congrArg _ (if_neg (Nat.not_lt.2 hroom))), fun hal => ?_⟩
    rw [if_neg (not_not.2 hal), if_neg (Nat.not_lt.2 hfit)] at hsend hrecv
    refine ⟨fun d hd hout => ?_, fun hin => ?_, fun c1 at_ left htake => ?_⟩
    · exact hsend.trans (congrArg _ (if_pos (List.any_eq_true.2 ⟨d, hd, by simp [hout]⟩)))
    · intro us u sent
      have hrect : ¬ ((rectCores a b).any fun d => !s.sameRect n d) = true := by simpa using hin
      rw [if_neg hrect] at hsend
      have haccept (k : CoreNo) : (u.core k).accepts = (s.core k).accepts := State.accepts_seen s n k _
      refine ⟨fun hall => hsend.trans (congrArg _ (State.endXfer_whole ?_)), fun l d r hl hbefore hdown =>
        hsend.trans (congrArg _ (State.endXfer_failed ?_))⟩
      · have hto := State.sendTo_append (n := n) (tag := tag.toNat) (us := us) (u := u) [] fun d hd => (haccept d).trans (hall d hd)
        rwa [List.append_nil] at hto
      · have hto := State.sendTo_append (n := n) (tag := tag.toNat) (us := us) (u := u) (d :: r) fun k hk => (haccept k).trans (hbefore k hk)
        rw [hl]
        refine hto.trans ?_
        rw [State.sendTo, if_neg (by rw [show ((u.sent n tag.toNat us l).core d).accepts = _ from haccept d, hdown]; decide)]
        rfl
    · dsimp only at hrecv
      rw [show (s.core n).takeUnits a tag.toNat st.toNat (len.toNat / 64) = _ from htake] at hrecv
      exact ⟨fun hzero => hrecv.trans (congrArg _ (if_pos hzero)), fun hleft => hrecv.trans (congrArg _ (if_neg hleft))⟩

/-! Arrivals (R61, R62) -/

/-- What a core takes of the data of a send. -/
def Core.receive (c : Core) (m : MeshSend) (k : Nat) : Core :=
  { c with inbound := c.inbound ++ (m.data.take k).map (fun u => ⟨m.src, m.tag, u.1, u.2⟩) }

section
variable {s : State} {n : CoreNo} {i : Nat} {x y : MeshSend × List MeshSend} (hx : takeNth (fun m : MeshSend => decide (m.dst = n)) i s.mesh.sends = some x)
    (hy : takeNth (fun m : MeshSend => decide (m.dst = n) && decide (m.src = x.1.src) && decide (m.tag = x.1.tag)) 0 s.mesh.sends = some y)
include hx hy

theorem exec_inboundDataArrival_dropped (h : (s.core n).accepts = false) :
    exec (.inboundDataArrival n i) s = .next { s with mesh := { s.mesh with sends := y.2 } } := by
  obtain ⟨m, rest⟩ := x
  simp only [exec, execInboundDataArrival, hx, State.deliver, hy, h, Bool.false_eq_true, if_false, List.drop_length, if_true]

theorem exec_inboundDataArrival_taken (h : (s.core n).accepts = true) :
    let room := 512 - (s.core n).inbound.length
    exec (.inboundDataArrival n i) s = .next (({ s with mesh := { s.mesh with
      sends := if y.1.data.drop room = [] then y.2 else { y.1 with data := y.1.data.drop room } :: y.2 } } : State).modCore n
        (·.receive y.1 room) |>.wakeInbound n) := by
  obtain ⟨m, rest⟩ := x
  simp only [exec, execInboundDataArrival, hx, State.deliver, hy, h, if_true]
  rfl
end

theorem State.wakeInbound_of_idle {s : State} {n : CoreNo} (h : (s.core n).wait = none) : s.wakeInbound n = s := by
  simp only [State.wakeInbound, h]

/-- Settles O16: what a core takes of the first send of a stream, and the store an acknowledgement ends. -/
theorem arrivals : Obligations.Arrivals := by
  intro s n
  refine ⟨fun i hnone => ?_, fun i x y hx hy => ?_, fun o rest hfirst => ?_, fun hnone => ?_⟩
  · simp only [exec, execInboundDataArrival, hnone]
  · intro room
    refine ⟨fun hdead => ⟨_, exec_inboundDataArrival_dropped hx hy hdead, rfl, rfl⟩, fun hlive hidle => ?_, fun w hlive hwait hfit => ?_⟩
    · refine ⟨_, exec_inboundDataArrival_taken hx hy hlive, ?_⟩
      rw [State.wakeInbound_of_idle (by rw [State.core_modCore, if_pos rfl]; exact hidle)]
      refine ⟨?_, fun hfit => if_pos (List.drop_eq_nil_of_le hfit), fun hmore => if_neg ?_, fun k hk => ?_, rfl⟩
      · rw [State.core_modCore, if_pos rfl]
        rfl
      · rw [List.drop_eq_nil_iff]
        omega
      · rw [State.core_modCore, if_neg (Ne.symm hk)]
        rfl
    · have htaken := exec_inboundDataArrival_taken hx hy hlive
      dsimp only at htaken
      rw [if_pos (List.drop_eq_nil_of_le hfit)] at htaken
      unfold Core.receive at htaken
      rwa [List.take_of_length_le hfit] at htaken
  · simp only [exec, execTransferAck, hfirst]
  · simp only [exec, execTransferAck, hnone]

/-! The rotary cache (R59, R60) -/

theorem takeNth_eq_none {α : Type} {p : α → Bool} {l : List α} {i : Nat} (h : l.length ≤ i) : takeNth p i l = none := by
  induction l generalizing i with
  | nil => rfl
  | cons a l ih =>
    obtain ⟨j, rfl⟩ : ∃ j, i = j + 1 := ⟨i - 1, by rw [List.length_cons] at h; omega⟩
    have hl : l.length ≤ j := by simpa using h
    simp only [takeNth, ih hl, ih (Nat.le_succ_of_le hl), Option.map_none, ite_self]

/-- R60: the core once a missed line has arrived. -/
def Core.tookLine (c : Core) (x : RotLine) (rest : List Nat) : Core :=
  { c.rotUse x with
    rotFills := rest, rotHeld := c.rotHeld ++ [x],
    flags := { (c.rotUse x).flags with rotStall := decide (rest ≠ []), poisonSeen := (c.rotUse x).flags.poisonSeen || x.poison } }

/-- Settles O17: hits and misses, ROTPRE, arriving lines, and invalidation. -/
theorem rotaryCache : Obligations.RotaryCache := by
  intro s n
  refine ⟨fun lines body => ⟨fun hall => ?_, ?_⟩, fun h sa imm len => ?_, fun i l rest htake => ⟨fun hgone => ?_, fun hopen => ⟨fun e he => ?_, fun s1 x hx => ?_⟩⟩,
    fun i hi => ?_, fun hmode => ?_, fun hmode => ?_⟩
  · obtain ⟨rot, hrun⟩ := State.withRot_present hall body
    rw [hrun]
    exact ⟨rfl, fun m hm => State.core_setCore_of_ne hm _⟩
  · rintro ⟨l, hl, hmiss⟩
    obtain ⟨cs, hstall⟩ := State.withRot_missing hl hmiss body
    have hmem : l ∈ lines.filter (fun l => ((s.core n).rotLine l).isNone) := List.mem_filter.2 ⟨hl, by simpa using hmiss⟩
    rw [hstall]
    refine ⟨by simp, ?_, by simp, by simp, by simp, rfl⟩
    simp [List.take_eq_nil_iff, List.ne_nil_of_mem hmem]
  · intro legal fill
    have hrun := exec_of_ready (i := .rotpre n sa imm len) rfl h
    refine ⟨fun hlen => ?_, fun hlen hbad => ?_, fun hlen hbad hgone => ?_, fun hlen hbad hopen => ?_⟩
    · rw [lenOk_eq_false hlen] at hrun
      exact hrun
    all_goals rw [(lenOk_iff len).2 hlen, if_neg (by decide), hbad] at hrun
    · exact hrun
    · rw [if_neg (by decide), State.readErr_of_gone hgone] at hrun
      exact hrun
    · rw [if_neg (by decide), State.readErr_of_open hopen] at hrun
      exact ⟨fun u hu => hrun.trans (congrArg _ (State.endXfer_whole hu)), fun u e hu => hrun.trans (congrArg _ (State.endXfer_failed hu))⟩
  · simp only [exec, execRotaryFillArrival, htake, State.readErr_of_gone hgone]
  · simp only [exec, execRotaryFillArrival, htake, State.readErr_of_open hopen, he]
  · have harrive : exec (.rotaryFillArrival n i) s = .next (s1.modCore n (·.tookLine x rest)) := by
      simp only [exec, execRotaryFillArrival, htake, State.readErr_of_open hopen, hx]
      rfl
    refine ⟨_, harrive, ?_⟩
    rw [State.core_modCore, if_pos rfl]
    exact ⟨rfl, rfl, rfl, rfl, rfl, fun k hk => State.core_setCore_of_ne hk _⟩
  · simp only [exec, execRotaryFillArrival, takeNth_eq_none hi]
  · simp only [exec, execRotInvalidate, State.modCore, if_neg hmode, Core.applyInval, if_true]
  · simp only [exec, execRotInvalidate, State.modCore, if_pos hmode]

end Sys2Proof.Machine
end

section
/-! SUPPORT. Flags and collective steps (R95, R96, R254, R377 to R386). -/

namespace Sys2Proof.Machine

/-! Flags (R95, R96) -/

/-- One read of a flag word, as a command that polls it ends. -/
def FlagPolled (s : State) (n : CoreNo) (a : Nat) (ge : Bool) (v : W64) (i : Instr) : Prop :=
  let q := s.coreReq n 0 0 a 0
  (s.snapGone n = true → exec i s = .next (s.coreFault n (coreErr 0x0304))) ∧
  (s.snapGone n = false → ∀ e, s.translate q = .error e → exec i s = .next ((s.pfRecord q.part e).coreFault n (errPage e))) ∧
  (s.snapGone n = false → ∀ x, s.translate q = .ok x →
    let u := (s.readPath n q [(a, 8)] [(x, 8)]).touch 0 (some q.part) x.ua 8
    let w := u.readLe q.view x.ua 8
    let bad := w.2 || bitOf x.entry 4
    let met : Bool := if ge then decide (v.toNat ≤ w.1) else decide (w.1 = v.toNat)
    (bad = true → exec i s = .next (u.coreFault n errPoison)) ∧
    (bad = false → met = true → exec i s = .next ((u.retire n).endWait n)) ∧
    (bad = false → met = false → (u.core n).wait ≠ some (.flag a ge v) → exec i s = .next (u.beginWait n (.flag a ge v))) ∧
    (bad = false → met = false → (u.core n).wait = some (.flag a ge v) → exec i s = .next u))

theorem FlagPolled.of_pollFlag {s : State} {n : CoreNo} {a : Nat} {ge : Bool} {v : W64} {i : Instr}
    (h : exec i s = .next (s.pollFlag n a ge v)) : FlagPolled s n a ge v i := by
  refine ⟨fun hgone => ?_, fun hopen e he => ?_, fun hopen x hx => ?_⟩
  · rw [h, State.pollFlag, State.readErr_of_gone hgone]
  · simp only [h, State.pollFlag, State.readErr_of_open hopen, he]
  · simp only [h, State.pollFlag, State.readErr_of_open hopen, hx]
    refine ⟨fun hbad => ?_, fun hbad hmet => ?_, fun hbad hmet hwait => ?_, fun hbad hmet hwait => ?_⟩
    · rw [if_pos hbad]
    all_goals rw [if_neg (by rw [hbad]; decide)]
    · rw [if_pos (show flagMet ge _ v.toNat = true from hmet)]
    all_goals rw [if_neg (Bool.eq_false_iff.1 (show flagMet ge _ v.toNat = false from hmet))]
    · rw [if_neg hwait]
    · rw [if_pos hwait]

/-- Settles O18: poison and alignment first, then the poll or the write. -/
theorem flags : Obligations.Flags := by
  intro s n polled
  refine ⟨fun h sa sb imm ge => ?_, fun a ge v hmode hwait => FlagPolled.of_pollFlag ?_⟩
  · intro c a q
    have hwaitflag : exec (.waitflag n sa sb imm ge) s = .next (if c.sbad sa || c.sbad sb then s.coreFault n errPoison
        else if a % 8 ≠ 0 then s.coreFault n errMisaligned else s.pollFlag n a ge (c.sget sb)) :=
      exec_of_ready (i := .waitflag n sa sb imm ge) rfl h
    have hsetflag : exec (.setflag n sa sb imm) s = .next (if c.sbad sa then s.coreFault n errPoison
        else if a % 8 ≠ 0 then s.coreFault n errMisaligned else if !s.xferDone n then s
        else match s.translate q with
          | .error e => (s.pfRecord q.part e).coreFault n (errPage e)
          | .ok t => match (s.writePath n q t 8).coreStore n [⟨t.ua, leBytes 8 (c.sget sb).toNat, c.sbad sb⟩] with
            | .error e => s.coreFault n e
            | .ok s1 => s1.endXfer n 64 (s1, none)) :=
      exec_of_ready (i := .setflag n sa sb imm) rfl h
    refine ⟨fun hsa => ⟨?_, ?_⟩, fun hsb => ?_, fun hsa hal => ⟨?_, fun hsb => ?_⟩, fun hsa hsb hal => FlagPolled.of_pollFlag ?_,
      fun hsa hal hbusy => ?_, fun hsa hal hfree => ?_⟩
    · rw [hwaitflag, hsa, Bool.true_or, if_pos rfl]
    · rw [hsetflag, hsa, if_pos rfl]
    · rw [hwaitflag, hsb, Bool.or_true, if_pos rfl]
    · rw [hsetflag, hsa, if_neg (by decide), if_pos hal]
    · rw [hwaitflag, hsa, hsb, if_neg (by decide), if_pos hal]
    · rw [hwaitflag, hsa, hsb, if_neg (by decide), if_neg (not_not.2 hal)]
    · rw [hsetflag, hsa, if_neg (by decide), if_neg (not_not.2 hal), hbusy, if_pos (by decide)]
    · rw [hsetflag, hsa, if_neg (by decide), if_neg (not_not.2 hal), hfree, if_neg (by decide)]
      refine ⟨fun e he => ?_, fun x hx => ⟨fun e he => ?_, fun u hu => ?_⟩⟩
      · rw [he]
      · simp only [hx, he]
      · simp only [hx, hu]
        rfl
  · simp only [exec, execWaitflagPoll, hmode, hwait]

/-! Takes of a collective step (R378, R380) -/

/-- The sources `first` to `k - 1` are ready in turn; what each take leaves. -/
def State.TakesFrom (n : CoreNo) (g : Group) (d : StepDesc) (us : Nat → State) (first k : Nat) : Prop :=
  ∀ j, first ≤ j → j < k → (∃ x, (us j).takeReady n g d j = .ok (some x)) ∧ (us j).takeSource n g d j = (us (j + 1), none)

/-- A TAKE goes over its ready sources. -/
theorem State.takeMore_ready {n : CoreNo} {b : List Byte} {g : Group} {d : StepDesc} {us : Nat → State} {k first fuel : Nat} (hfirst : first ≤ k)
    (hk : k ≤ d.count) (hfuel : k < first + fuel) (h : State.TakesFrom n g d us first k) :
    (us first).takeMore n b g d fuel first = (us k).takeMore n b g d (fuel + first - k) k := by
  induction hm : k - first generalizing first fuel with
  | zero =>
    obtain rfl : first = k := by omega
    rw [Nat.add_sub_cancel]
  | succ m ih =>
    obtain ⟨f, rfl⟩ : ∃ f, fuel = f + 1 := ⟨fuel - 1, by omega⟩
    obtain ⟨⟨x, hready⟩, htake⟩ := h first (Nat.le_refl _) (by omega)
    rw [State.takeMore, if_neg (by omega)]
    simp only [hready, htake]
    rw [ih (by omega) (by omega) (fun j hj => h j (by omega)) (by omega)]
    congr 1
    omega

/-- How a command ends that takes the sources of a call from `first` on. -/
def SourcesTaken (s : State) (n : CoreNo) (b : List Byte) (g : Group) (first : Nat) (i : Instr) : Prop :=
  let d := StepDesc.ofBytes b
  ∀ (us : Nat → State) (k : Nat), us first = s → first ≤ k → k ≤ d.count → State.TakesFrom n g d us first k →
    (k = d.count → bitOf d.flags 4 = false →
      exec i s = .next ((((us k).countCore n 0x1B (d.count * d.bytes / 64)).retire n).endWait n)) ∧
    (k = d.count → bitOf d.flags 4 = true → exec i s = .next ((us k).endTake n g d)) ∧
    (k < d.count → (us k).takeReady n g d k = .ok none →
      ((us k).core n).wait = none → exec i s = .next ((us k).beginWait n (.take b (List.range k)))) ∧
    (k < d.count → (us k).takeReady n g d k = .ok none →
      ((us k).core n).wait ≠ none → exec i s = .next ((us k).modCore n (fun c => { c with wait := some (.take b (List.range k)) })))

theorem SourcesTaken.of_takeMore {s : State} {n : CoreNo} {b : List Byte} {g : Group} {first : Nat} {i : Instr}
    (h : exec i s = .next (s.takeMore n b g (StepDesc.ofBytes b) ((StepDesc.ofBytes b).count + 1) first)) : SourcesTaken s n b g first i := by
  unfold SourcesTaken
  intro d us k hus hfirst hk htakes
  replace h : exec i s = .next (s.takeMore n b g d (d.count + 1) first) := h
  clear_value d
  have hrun : exec i s = .next ((us k).takeMore n b g d (d.count + first - k + 1) k) := by
    rw [h, ← hus, State.takeMore_ready hfirst hk (by omega) htakes]
    congr 2
    omega
  rw [hrun, State.takeMore]
  refine ⟨fun hend hquiet => ?_, fun hend hlag => ?_, fun hmore hready hwait => ?_, fun hmore hready hwait => ?_⟩
  · rw [if_pos (by omega), State.endTake, hquiet]
    rfl
  · rw [if_pos (by omega)]
  · rw [if_neg (by omega)]
    simp only [hready, hwait]
    rfl
  · rw [if_neg (by omega)]
    simp only [hready]
    rw [if_pos (Option.isSome_iff_ne_none.2 hwait)]

/-! Counts of a collective step (R379) -/

/-- How a command ends that looks at the counts of every rank. -/
def RanksCounted (s u : State) (n : CoreNo) (b : List Byte) (g : Group) (i : Instr) : Prop :=
  ∀ cs, (List.range g.n).mapM (fun r => u.countReady n g (BitVec.ofNat 64 (leField b 24 8)) r) = .ok cs →
    let rc := cs.map (fun c => c.getD 0)
    let sc := (List.range g.n).map (fun j => (u.core n).stLe (leField b 4 4 + 4 * j) 4)
    (cs.any Option.isNone = false → exec i s = .next (((u.modCore n (fun c =>
      (c.stWrite (leField b 8 4) ((rc ++ runningSums rc ++ runningSums sc).flatMap (fun v => leBytes 4 v))
        ((u.core n).countsBad (leField b 4 4) (leField b 8 4) g.n)).seen ((u.core n).stBad (leField b 4 4) (4 * g.n)))).retire n).endWait n)) ∧
    (cs.any Option.isNone = true → ∃ t, exec i s = .next t ∧ (t.core n).wait = some (.ccount b ((List.range g.n).filter
      (fun r => (cs.getD r none).isSome))) ∧ (t.core n).regs = (u.core n).regs ∧ (t.core n).mem = (u.core n).mem ∧ t.mem = u.mem)

theorem RanksCounted.of_countPoll {s u : State} {n : CoreNo} {b : List Byte} {g : Group} {i : Instr} (h : exec i s = .next (u.countPoll n b g)) :
    RanksCounted s u n b g i := by
  intro cs hcs
  simp only [h, State.countPoll, hcs]
  refine ⟨fun hall => ?_, fun hsome => ?_⟩
  · rw [hall, if_neg (by decide)]
    rfl
  · rw [hsome, if_pos rfl]
    split
    · refine ⟨_, rfl, ?_⟩
      rw [State.core_modCore, if_pos rfl]
      exact ⟨rfl, rfl, rfl, rfl⟩
    · obtain ⟨holder, last, hwait⟩ := State.beginWait_spec u n (.ccount b ((List.range g.n).filter (fun r => (cs.getD r none).isSome)))
      refine ⟨_, rfl, ?_⟩
      rw [hwait]
      exact ⟨by simp [State.core, State.setCore], by simp [State.core, State.setCore], by simp [State.core, State.setCore], rfl⟩

/-! Puts of a collective step (R377) -/

/-- The message or the local write of a put was accepted. -/
def State.PutAccepted (s : State) (n : CoreNo) (rk : GroupRank) (lead : CollLead) (flags bytes : Nat) (src : TxSrc) (u : State) : Prop :=
  (rk.port = none ∧ rk.addr = s.address ∧ (s.part (partOf rk.part)).mode ≠ .unformed ∧ s.sendLocal (partOf rk.part) lead.bytes bytes src = .ok u) ∨
  (∃ l port, rk.port = some l ∧ s.offer l = .ok port ∧ s.sendMessage (.core n (s.core n).regs.pc) (s.core n).part port 2
    ⟨2, flags, 0, 0, rk.addr, 0, rk.part, ceilDiv bytes 65536, bytes, 0, [], lead.bytes⟩ src = .ok u)

theorem State.sendColl_of_accepted {s u : State} {n : CoreNo} {rk : GroupRank} {lead : CollLead} {flags bytes : Nat} {src : TxSrc}
    (hkind : lead.kind = 0) (h : s.PutAccepted n rk lead flags bytes src u) : s.sendColl n rk lead flags bytes src = u := by
  have hput : ¬ lead.kind = 1 := by omega
  rcases h with ⟨hport, haddr, hpart, hsend⟩ | ⟨l, port, hport, hoffer, hsend⟩
  · simp only [State.sendColl, hport]
    rw [if_neg (by simp [haddr, hpart]), hsend]
  · simp only [State.sendColl, hport, hoffer, if_neg hput, hsend]

/-- Settles O19: the descriptor's fields, then the transport of a put, the sources of a take and the counts of every rank. -/
theorem collectiveSteps : Obligations.CollectiveSteps := by
  intro s n takes counted
  refine ⟨fun h a at_ ha hfit hbad => ?_, fun b seen g hmode hwait hg hseen => SourcesTaken.of_takeMore ?_,
    fun b seen g hmode hwait hg => RanksCounted.of_countPoll ?_, fun w hmode hwait hset hpast => ?_⟩
  · intro b d
    have hput : exec (.cstepPut n a) s = .next (s.collPut n b) :=
      (exec_of_ready (i := .cstepPut n a) rfl h).trans (congrArg _ (State.withDesc_whole ha hfit hbad))
    have htake : exec (.cstepTake n a) s = .next (s.collTake n b) :=
      (exec_of_ready (i := .cstepTake n a) rfl h).trans (congrArg _ (State.withDesc_whole ha hfit hbad))
    have hcount : exec (.ccount n a) s = .next (s.collCounts n b) :=
      (exec_of_ready (i := .ccount n a) rfl h).trans (congrArg _ (State.withDesc_whole ha hfit hbad))
    clear_value b
    refine ⟨fun hform => ?_, fun hform => ?_, fun hform => ?_, fun g rk hform hg hrank hslot hoff hsrc hrk => ?_,
      fun g hform hg hrank hn hslot hoff hal hst => SourcesTaken.of_takeMore ?_, fun g rks hform hg hal4 hal8 hst4 hst8 hrks => ?_⟩
    · rw [hput, State.collPut, hform]
      rfl
    · rw [htake, State.collTake, hform]
      rfl
    · rw [hcount, State.collCounts, hform]
      rfl
    · intro src lead u hlive haccepted
      have hsend : s.sendColl n rk lead (d.flags % 4) d.bytes src = u := State.sendColl_of_accepted rfl haccepted
      have hstore : ¬ ((!d.srcMem) = true ∧ d.st % 64 ≠ 0) ∧ ¬ ((!d.srcMem) = true ∧ storeSize < d.st + d.bytes) := by
        rcases hsrc with hmem | ⟨hal, hst⟩
        · simp [hmem]
        · exact ⟨fun h => h.2 hal, fun h => Nat.not_lt.2 hst h.2⟩
      rw [hput, State.collPut, hform, if_neg (by decide)]
      simp only [show s.groupAt n (StepDesc.ofBytes b).group = _ from hg, show s.rankAt n (StepDesc.ofBytes b).group (StepDesc.ofBytes b).rank = _ from hrk]
      rw [if_neg (show ¬ (g.n ≤ d.rank ∨ g.slots ≤ d.slot ∨ g.slotBytes < d.off + d.bytes) by omega), if_neg hstore.1, if_neg hstore.2]
      exact congrArg _ (by rw [hsend, if_neg hlive])
    · rw [htake, State.collTake, hform, if_neg (by decide)]
      simp only [show s.groupAt n (StepDesc.ofBytes b).group = _ from hg]
      rw [if_neg (show ¬ (g.n ≤ d.rank ∨ g.n < d.count ∨ g.slots ≤ d.slot ∨ g.slotBytes < d.off + d.bytes) by omega),
        if_neg (show ¬ d.st % 64 ≠ 0 from not_not.2 hal), if_neg (Nat.not_lt.2 hst)]
    · intro u hlive
      apply RanksCounted.of_countPoll
      rw [hcount, State.collCounts, hform, if_neg (by decide)]
      simp only [hg, hrks]
      rw [if_neg (by omega), if_neg (Nat.not_lt.2 hst4), if_neg (Nat.not_lt.2 hst8)]
      exact congrArg _ (if_neg hlive)
  · simp only [exec, execCollWaitPoll, hmode, hwait, hg]
  · simp only [exec, execCollWaitPoll, hmode, hwait, hg]
  · simp only [exec, execCollDeadline, hmode, hwait, if_neg (show ¬ (w.deadline = 0 ∨ s.now ≤ w.deadline) by omega)]

end Sys2Proof.Machine
end

section
/-! SUPPORT. Phases, the core state machine and the core registers (R60 to R66, R71 to R73, R103, R462). -/

namespace Sys2Proof.Machine

theorem State.modCore_congr {s : State} {n : CoreNo} {f g : Core → Core} (h : f (s.core n) = g (s.core n)) : s.modCore n f = s.modCore n g := by
  unfold State.modCore
  rw [h]

/-! Phase boundaries (R65, R462) -/

theorem State.atBoundary_of_no_cut {s : State} {n : CoreNo} (h : (s.core n).flags.cutReq = false) : s.atBoundary n = s := by
  simp [State.atBoundary, h]

theorem Core.applyInval_of_not_busy {c : Core} (h : c.flags.invalBusy = false) : c.applyInval = c := by
  simp [Core.applyInval, h]

/-- With no cut and no invalidation waiting, a boundary is the change of the core alone. -/
theorem State.boundary_quiet {s : State} {n : CoreNo} {f : Core → Core} (hcut : (s.core n).flags.cutReq = false)
    (hinval : (s.core n).flags.invalBusy = false) (hf : (f (s.core n)).flags.cutReq = (s.core n).flags.cutReq) :
    ((s.dropToken n).modCore n (fun c => f c.applyInval)).atBoundary n = (s.dropToken n).modCore n f := by
  have hsame : (s.dropToken n).modCore n (fun c => f c.applyInval) = (s.dropToken n).modCore n f :=
    State.modCore_congr (by rw [State.dropToken_core, Core.applyInval_of_not_busy hinval])
  rw [hsame]
  apply State.atBoundary_of_no_cut
  rw [State.core_modCore, if_pos rfl, State.dropToken_core, hf, hcut]

/-- The core whose phase has ended: it turns. -/
def Core.turning (c : Core) : Core := { c with phase := .turn, flags := { c.flags with ending := false } }

/-- The core that has halted. -/
def Core.halted (c : Core) : Core :=
  { c with mode := .halted, phase := .none, nextPhase := .none, flags := { c.flags with haltReq := false, ending := false, tokenWait := false } }

/-- An instruction that the core can issue runs as its phase allows. -/
theorem State.issue_of_canIssue {s : State} {n : CoreNo} {k : InstrClass} {body : State → State} (hcan : (s.core n).canIssue = true)
    (hpc : (s.core n).pcIndex < 2048) (hbad : (s.core n).mem.progBad.get (s.core n).pcIndex ≠ 1) : s.issue n k body = s.inPhase n k body := by
  unfold State.issue
  dsimp only
  rw [hcan, if_neg (by decide), if_neg (Nat.not_le.2 hpc), if_neg hbad]

section
variable {s : State} {n : CoreNo} (hmode : (s.core n).mode = .running) (hphase : (s.core n).phase = .turn)
include hmode hphase

/-- R65, R66: the next phase begins but for a transfer phase that has to wait for the token. -/
theorem exec_phaseTurnEnd_turn : exec (.phaseTurnEnd n) s = .next
    (if (s.core n).nextPhase = .transfer ∧ s.groupSize n ≠ 1 ∧ !s.holdsToken n then
      s.modCore n (fun c => { c with phase := .none, nextPhase := .none, flags := { c.flags with tokenWait := true } })
    else (if (s.core n).nextPhase = .compute then s.dropBallast n else s).modCore n (fun c => { c with phase := c.nextPhase, nextPhase := .none })) :=
  congrArg _ (if_pos ⟨hmode, hphase⟩)

theorem exec_phaseTurnEnd_begins (h : ¬ ((s.core n).nextPhase = .transfer ∧ s.groupSize n ≠ 1 ∧ !s.holdsToken n)) {p : Phase}
    (hp : (s.core n).nextPhase = p) (hc : p ≠ .compute) :
    exec (.phaseTurnEnd n) s = .next (s.modCore n (fun c => { c with phase := p, nextPhase := .none })) := by
  rw [exec_phaseTurnEnd_turn hmode hphase, if_neg h, if_neg (hp ▸ hc)]
  exact congrArg _ (State.modCore_congr (by rw [hp]))
end

/-- Settles O20: the end a phase is asked for, its end, the turn, and the token of the group. -/
theorem phases : Obligations.Phases := by
  intro s n
  refine ⟨fun body hcan hpc hbad => ⟨fun hphase => ?_, fun hphase => ?_⟩, fun hmode hending hwait hstall hdone => ?_, fun hending hbusy => ?_,
    fun hmode hphase => ⟨fun hnext htoken => ?_, fun hnext hgroup htoken => ?_, fun hnext => ?_, fun hnext => ?_⟩, fun m rest hfree hqueue => ?_,
    fun hnone => ?_⟩
  · rw [State.issue_of_canIssue hcan hpc hbad]
    unfold State.inPhase
    rw [hphase]
  · rw [State.issue_of_canIssue hcan hpc hbad]
    unfold State.inPhase
    rw [hphase]
  · have hend : exec (.phaseEnd n) s = .next (((s.dropToken n).modCore n (fun c => c.applyInval.turning)).atBoundary n) :=
      congrArg _ (if_pos ⟨hmode, hending, hwait, by rw [hstall]; rfl, hdone⟩)
    exact ⟨hend, fun hcut hinval => hend.trans (congrArg _ (State.boundary_quiet (f := Core.turning) hcut hinval rfl))⟩
  · exact congrArg _ (if_neg (by simp [hbusy]))
  · exact exec_phaseTurnEnd_begins hmode hphase (by rintro ⟨-, hgroup, hno⟩; simp_all) hnext (by decide)
  · rw [exec_phaseTurnEnd_turn hmode hphase, if_pos ⟨hnext, hgroup, by rw [htoken]; rfl⟩]
  · rw [exec_phaseTurnEnd_turn hmode hphase, if_neg (by simp [hnext]), if_pos hnext]
  · exact exec_phaseTurnEnd_begins hmode hphase (by simp [hnext]) hnext (by decide)
  · have hgrant : exec (.groupTokenGrant n) s = .next
        (({ s with mesh := { s.mesh with holder := Tab.set none s.mesh.holder (s.groupKey n) (some m) } } : State).modCore m
          (fun c => { c with phase := .transfer, flags := { c.flags with tokenWait := false } })) := by
      simp only [exec, execGroupTokenGrant, hfree, hqueue]
    refine ⟨_, hgrant, rfl, ?_, fun k hk => State.core_setCore_of_ne hk _, rfl⟩
    rw [State.core_modCore, if_pos rfl]
    rfl
  · rcases hnone with hnone | hnone
    · simp only [exec, execGroupTokenGrant, hnone]
    · simp only [exec, execGroupTokenGrant, hnone]
      cases s.tokenFree n <;> rfl

/-! The core state machine (R71, R72) -/

theorem State.startCore_refused {s : State} {n : CoreNo} {priv : BitVec 2} (h : (s.core n).startOk = false) :
    s.startCore n priv = s.modCore n Core.dropCmd :=
  if_pos (.inl (by rw [h]; rfl))

/-- An accepted start runs when nothing is held and its group fits, and is held otherwise. -/
theorem State.startCore_accepted {s : State} {n : CoreNo} {priv : BitVec 2} (h : (s.core n).startOk = true) (hheld : ∀ x ∈ s.heldStarts, x.1 ≠ n) :
    s.startCore n priv =
      if s.heldStarts = [] ∧ s.groupFits n then (s.addDemand (startCharge s.clock.rootStep)).modCore n (fun c => c.start priv)
      else { s with power := { s.power with held := s.power.held ++ [.start n priv] } } := by
  refine if_neg ?_
  rw [h]
  rintro (hno | hany)
  · exact absurd hno (by decide)
  · obtain ⟨x, hx, hn⟩ := List.any_eq_true.1 hany
    exact hheld x hx (of_decide_eq_true hn)

/-- A command that one mode takes is noted there and dropped elsewhere. -/
theorem State.modCore_ite {s : State} {n : CoreNo} {p : Core → Prop} [DecidablePred p] {f g : Core → Core} :
    s.modCore n (fun c => if p c then f c else g c) = if p (s.core n) then s.modCore n f else s.modCore n g := by
  by_cases h : p (s.core n)
  · rw [if_pos h]
    exact State.modCore_congr (if_pos h)
  · rw [if_neg h]
    exact State.modCore_congr (if_neg h)

theorem exec_softResetComplete_done {s : State} {n : CoreNo} (hreset : (s.core n).softReset = true) (hdone : s.xferDone n = true)
    (hload : (s.core n).load = none) : exec (.softResetComplete n) s = .next ((s.modCore n Core.resetStores).atBoundary n) :=
  congrArg _ (if_pos ⟨hreset, hdone, hload⟩)

/-- A core's SRAM errors counted: at a limit the cut is taken. -/
theorem exec_coreCut_core {s : State} {n : CoreNo} {lost fixed : Nat} (hcut : (s.core n).mode ≠ .cut) (hoff : (s.core n).mode ≠ .off) :
    let u := (s.countSram (unitCore n) lost fixed).countCore n 0x19 fixed
    exec (.coreCut ⟨.core n, lost, fixed⟩) s = .next
      (if decide (s.dictVal 0x7010 1 ≤ (u.sramOf (unitCore n)).lost) || decide (s.dictVal 0x7010 2 ≤ (u.sramOf (unitCore n)).fixed) then
        if (s.core n).mode = .running then u.modCore n (fun c => { c with flags := { c.flags with cutReq := true } }) else u.cutCore n
      else u) := by
  intro u
  obtain ⟨cs, hcount⟩ := State.countCore_spec (s.countSram (unitCore n) lost fixed) n 0x19 fixed
  have hdict (j : Nat) : u.dictVal 0x7010 j = s.dictVal 0x7010 j := by simp only [u, hcount]; rfl
  have hmode : (u.core n).mode = (s.core n).mode := by simp only [u, hcount, State.core_setCore, if_true]; rfl
  have htake : u.takeCut n = if (s.core n).mode = .running then u.modCore n (fun c => { c with flags := { c.flags with cutReq := true } })
      else u.cutCore n := by
    unfold State.takeCut
    dsimp only
    rw [hmode, if_neg (by simp [hcut, hoff])]
  have hcoreSram : s.coreSram n lost fixed = if u.sramLimit (unitCore n) then u.takeCut n else u := rfl
  have hexec : exec (.coreCut ⟨.core n, lost, fixed⟩) s = .next (s.coreSram n lost fixed) := congrArg _ (if_neg (by simp [hcut, hoff]))
  rw [hexec, hcoreSram, htake, State.sramLimit, hdict, hdict]

/-- Settles O21: each command in the modes that take it and in the others. -/
theorem coreControl : Obligations.CoreControl := by
  intro s n priv c drop
  refine ⟨fun hok hheld hfits => ?_, fun hok hheld hwait => ?_, fun hok => congrArg _ (State.startCore_refused hok), ?_, ?_,
    fun hmode hreq hwait hstall hdone => ?_, fun hmode => congrArg _ (if_pos hmode), fun hoff hcut => congrArg _ (if_neg (by simp [c, hoff, hcut])),
    exec_softResetComplete_done, fun hreset hdone hload hcut => ?_, fun hmode hen htime => congrArg _ (if_pos ⟨hmode, hen, htime⟩),
    fun lost fixed hcut hoff => ?_, fun lost fixed hmode => congrArg _ (if_pos hmode)⟩
  · exact congrArg _ ((State.startCore_accepted hok (by simp [hheld])).trans (if_pos ⟨hheld, hfits⟩))
  · exact congrArg _ ((State.startCore_accepted hok hheld).trans (if_neg (by rintro ⟨hnil, hfit⟩; simp_all)))
  · exact congrArg _ (State.modCore_ite (p := fun c => c.mode = .running))
  · exact congrArg _ (State.modCore_ite (p := fun c => c.mode = .halted))
  · have hend : exec (.haltComplete n) s = .next (((s.dropToken n).modCore n (fun c => c.applyInval.halted)).atBoundary n) :=
      congrArg _ (if_pos ⟨hmode, hreq, hwait, by rw [hstall]; rfl, hdone⟩)
    exact ⟨hend, fun hcut hinval => hend.trans (congrArg _ (State.boundary_quiet (f := Core.halted) hcut hinval rfl))⟩
  · refine ⟨_, exec_softResetComplete_done hreset hdone hload, ?_⟩
    have hquiet : ((s.modCore n Core.resetStores).core n).flags.cutReq = false := by
      rw [State.core_modCore, if_pos rfl]
      exact hcut
    rw [State.atBoundary_of_no_cut hquiet, State.core_modCore, if_pos rfl]
    exact ⟨rfl, rfl, rfl, rfl, rfl, rfl, rfl, rfl, rfl⟩
  · intro u limit
    have hexec := exec_coreCut_core (s := s) (n := n) (lost := lost) (fixed := fixed) hcut hoff
    refine ⟨fun hlimit => ?_, fun hlimit hmode => ?_, fun hlimit hmode => ?_⟩
    · exact hexec.trans (congrArg _ (if_neg (Bool.eq_false_iff.1 hlimit)))
    · exact hexec.trans (congrArg _ ((if_pos hlimit).trans (if_pos hmode)))
    · exact hexec.trans (congrArg _ ((if_pos hlimit).trans (if_neg hmode)))

/-! Core registers (R73, R103, R118, R240) -/

/-- What a write of CORE_PROG_CTRL leaves while no load is under way. -/
def Core.tookProg (c : Core) (v : W32) (e : Bool) (l : Option ProgLoad) : Core :=
  { c with
    regs := { c.regs with progFirst := BitVec.ofNat 11 (bits v.toNat 0 11), progCount := BitVec.ofNat 12 (bits v.toNat 11 12), progErr := e },
    load := l }

/-- What is wrong with the stretch a load of the program buffer names. -/
def progBad (v : W32) : Bool := decide (bits v.toNat 11 12 = 0) || decide (2048 < bits v.toNat 0 11 + bits v.toNat 11 12)

section
variable {s : State} {n : CoreNo} {v : W32}

theorem exec_progLoad_dropped (h : (s.core n).load.isSome = true ∨ (bitOf v.toNat 23 = true ∧
      ¬ ((s.core n).mode = .idle ∨ (s.core n).mode = .halted ∨ (s.core n).mode = .faulted))) :
    exec (.progLoad n v) s = .next (s.modCore n (fun c =>
      { c with regs := { c.regs with progErr := (s.core n).regs.progErr && !bitOf v.toNat 25 } }.dropWr)) := by
  refine congrArg Host.Outcome.next (State.modCore_congr ?_)
  refine if_pos ?_
  rcases h with h | ⟨hgo, hmode⟩
  · rw [h, Bool.true_or]
  · rw [hgo, Bool.or_eq_true]
    right
    simpa [not_or, and_assoc] using hmode

theorem exec_progLoad_taken (hload : (s.core n).load = none) (h : bitOf v.toNat 23 = true →
      (s.core n).mode = .idle ∨ (s.core n).mode = .halted ∨ (s.core n).mode = .faulted) :
    exec (.progLoad n v) s = .next (s.modCore n (·.tookProg v
      (((s.core n).regs.progErr && !bitOf v.toNat 25) || (bitOf v.toNat 23 && progBad v))
      (if bitOf v.toNat 23 && !(bitOf v.toNat 23 && progBad v) then some ⟨bits v.toNat 0 11, bits v.toNat 11 12, (s.core n).regs.progSrc.toNat⟩ else none))) := by
  refine congrArg Host.Outcome.next (State.modCore_congr ?_)
  refine if_neg ?_
  rw [hload, Option.isSome_none, Bool.false_or]
  cases hgo : bitOf v.toNat 23 with
  | false => exact Bool.false_ne_true
  | true => rcases h hgo with hmode | hmode | hmode <;> rw [hmode] <;> decide
end

/-- The words a failed load leaves are free values, as many as were asked for. -/
def freeWords (d k : Nat) : List W128 := (List.range k).map (fun i => BitVec.ofNat 128 (Config.freeNat (d + i)))

theorem State.failLoad_eq (s : State) (n : CoreNo) (l : ProgLoad) : s.failLoad n l =
    ({ s with draws := s.draws + l.count } : State).modCore n (fun c =>
      { c.loadWords l.first ((freeWords s.draws l.count).map (fun w => (w, false))) with regs := { c.regs with progErr := true } }) := by
  simp only [State.failLoad, freeWords, List.map_map]
  rfl

/-- Settles O22: the writes a RUNNING core drops, loads of the program buffer, and CORE_EVENT_CTRL. -/
theorem coreRegisters : Obligations.CoreRegisters := by
  intro s n c
  refine ⟨fun v hrun => ⟨?_, ?_⟩, fun v hrun => ⟨?_, ?_⟩, fun v => ?_, fun l hl => ?_, fun v => ?_⟩
  · exact congrArg _ ((State.modCore_ite (p := fun c => c.mode = .running)).trans (if_pos hrun))
  · exact congrArg _ ((State.modCore_ite (p := fun c => c.mode = .running)).trans (if_pos hrun))
  · exact congrArg _ ((State.modCore_ite (p := fun c => c.mode = .running)).trans (if_neg hrun))
  · exact congrArg _ ((State.modCore_ite (p := fun c => c.mode = .running)).trans (if_neg hrun))
  · intro first count err idle took
    refine ⟨exec_progLoad_dropped, fun hload hgo => ?_, fun hload hgo hmode hcount hfit => ?_, fun hload hgo hmode hbad => ?_⟩
    · rw [exec_progLoad_taken hload (by simp [hgo]), hgo]
      simp [took, err, Core.tookProg, first, count, c]
    · have hgood : progBad v = false := by simpa [progBad] using ⟨hcount, hfit⟩
      rw [exec_progLoad_taken hload fun _ => hmode, hgo, hgood]
      simp [took, err, Core.tookProg, first, count, c]
    · have hbad : progBad v = true := by simpa [progBad] using hbad
      rw [exec_progLoad_taken hload fun _ => hmode, hgo, hbad]
      simp [took, Core.tookProg, first, count]
  · intro s0 q failed
    refine ⟨fun hopen ts hts => ?_, fun hgone => ?_, fun hopen e he => ?_⟩
    · simp only [exec, execProgLoadComplete, show (s.core n).load = _ from hl, State.readErr_of_open hopen]
      rw [hts] <;> rfl
    · refine ⟨freeWords s.draws l.count, by simp [freeWords], ?_⟩
      simp only [exec, execProgLoadComplete, show (s.core n).load = _ from hl, State.readErr_of_gone hgone, State.failLoad_eq]
      rfl
    · refine ⟨freeWords s.draws l.count, by simp [freeWords], ?_⟩
      simp only [exec, execProgLoadComplete, show (s.core n).load = _ from hl, State.readErr_of_open hopen, State.failLoad_eq]
      rw [he]
      rfl
  · refine ⟨_, rfl, ?_⟩
    rw [State.core_modCore, if_pos rfl]
    cases hok : s.rubricInPart n (bits v.toNat 19 5) with
    | true => exact ⟨rfl, rfl, rfl, rfl, rfl, fun h => absurd h (by decide), fun _ => rfl⟩
    | false => exact ⟨rfl, rfl, rfl, rfl, rfl, fun _ => ⟨rfl, rfl⟩, fun h => absurd h (by decide)⟩

end Sys2Proof.Machine
end

section
/-! SUPPORT. Unified memory, granule by granule (R234, R235). -/

namespace Sys2Proof.Machine

/-- A poisoned granule keeps its bytes. -/
theorem State.homeGran_poisonGran {s : State} (h : Memory.wf s.mem = true) (g k : Nat) :
    (s.poisonGran g).homeGran k = if k = g then ⟨(s.homeGran g).data, true⟩ else s.homeGran k := by
  obtain ⟨-, hpoison, hlatent⟩ := (Memory.wf_iff _).1 h
  have hread : (s.poisonGran g).homeGran k = ⟨BitVec.ofNat 512 (s.mem.cells.getLE (64 * k) 64),
      decide ((s.mem.poison.set g 1).get k = 1) || decide ((s.mem.latent.set g 0).get k = 1)⟩ := rfl
  rw [hread, Cells.get_set hpoison, Cells.get_set hlatent]
  by_cases hk : k = g
  · rw [if_pos hk, if_pos hk, if_pos hk, hk]
    rfl
  · rw [if_neg hk, if_neg hk, if_neg hk]
    rfl

/-- A cleared stretch of memory reads 0, and bytes outside it read as before. -/
theorem Cells.getLE_clearRange_inside {m : Cells 8} {a n b : Nat} {k : Nat} (h : a ≤ b) (h' : b + k ≤ a + n) : (m.clearRange a n).getLE b k = 0 := by
  refine (Cells.getLE_eq k _ 0 fun i hi => ?_).trans (Nat.zero_mod _)
  rw [Cells.get_clearRange, if_pos (by omega)]
  simp

theorem Cells.getLE_clearRange_outside {m : Cells 8} {a n b : Nat} {k : Nat} (h : b + k ≤ a ∨ a + n ≤ b) :
    (m.clearRange a n).getLE b k = m.getLE b k :=
  Cells.getLE_congr k _ fun i h1 h2 => by rw [Cells.get_clearRange, if_neg (by omega)]

/-- The granules of a cleared frame are 0 and not marked. -/
theorem State.homeGran_zeroFrame (s : State) (f k : Nat) : (s.zeroFrame f).homeGran k = if k / 1024 = f then ⟨0, false⟩ else s.homeGran k := by
  have hread : (s.zeroFrame f).homeGran k = ⟨BitVec.ofNat 512 ((s.mem.cells.clearRange (65536 * f) 65536).getLE (64 * k) 64),
      decide ((s.mem.poison.clearRange (1024 * f) 1024).get k = 1) || decide ((s.mem.latent.clearRange (1024 * f) 1024).get k = 1)⟩ := by
    unfold State.homeGran
    rw [State.zeroFrame_mem]
  rw [hread, Cells.get_clearRange, Cells.get_clearRange]
  by_cases hk : k / 1024 = f
  · have hin : 1024 * f ≤ k ∧ k < 1024 * f + 1024 := by omega
    rw [if_pos hk, if_pos hin, if_pos hin, Cells.getLE_clearRange_inside (by omega) (by omega)]
    rfl
  · have hout : ¬ (1024 * f ≤ k ∧ k < 1024 * f + 1024) := by omega
    rw [if_neg hk, if_neg hout, if_neg hout, Cells.getLE_clearRange_outside (by omega)]
    rfl

/-- Settles O56: a granule written, poisoned, or cleared with its frame, and what stays. -/
theorem unifiedMemory : Obligations.UnifiedMemory := by
  intro s g k x h
  refine ⟨State.homeGran_setHomeGran h g k x, fun a ha => ?_, State.setHomeGran_wf h g x, State.homeGran_poisonGran h g k,
    State.poisonGran_wf h g, fun f => ⟨State.zeroFrame_wf h f, State.homeGran_zeroFrame s f k⟩⟩
  obtain ⟨hcells, -, -⟩ := (Memory.wf_iff _).1 h
  rw [State.setHomeGran_mem]
  dsimp only
  rw [Cells.get_setLE _ hcells, if_neg (by omega)]

end Sys2Proof.Machine
end

section
/-! SUPPORT. The exchange of TIME flits, announcements and the latch of GLB_TIME (R40 to R42, R329, R333, R342, R343). -/

namespace Sys2Proof.Machine

/-! What a TIME flit sent leaves -/

/-- A TIME flit of a kind went out at a port. -/
def TimeSent (t : State) (p : PortNo) (k : Byte) : Prop := ∃ f, .flits p [f] ∈ t.out ∧ flitType f = some .time ∧ (flitBody f).take 1 = [k]

theorem State.sendTime_spec (s : State) (p : PortNo) (k : Nat) (q : W16) (r : List Byte) :
    ∃ u line out, s.sendTime p (s.timeHead k q ++ r) = { s.setPort p { s.port p with uctrTx := u, line := line } with out := s.out ++ out } ∧
      TimeSent (s.sendTime p (s.timeHead k q ++ r)) p (BitVec.ofNat 8 k) := by
  obtain ⟨u, line, out, f, heq, hmem, htype, htake⟩ := State.sendSealed_spec s p .time (s.timeHead k q ++ r)
  refine ⟨u, line, out, heq, f, ?_, htype, ?_⟩
  · rw [show s.sendTime p (s.timeHead k q ++ r) = _ from heq]
    exact List.mem_append_right _ hmem
  · rw [htake 1 (by simp [State.timeHead]) (by omega)]
    simp [State.timeHead, leBytes]

/-- With no groups to replay a due TIME flit goes out at once. -/
theorem State.sendOrDue_now {s : State} {p : PortNo} (h : (s.port p).resend = 0) (d : DueFlit) : s.sendOrDue p d = s.sendDue p d := if_pos h

/-- With groups to replay it waits at its port. -/
theorem State.sendOrDue_wait {s : State} {p : PortNo} (h : (s.port p).resend ≠ 0) (d : DueFlit) :
    s.sendOrDue p d = s.setPort p (if d ∈ (s.port p).due then s.port p else { s.port p with due := (s.port p).due ++ [d] }) := if_neg h

theorem State.mem_due_sendOrDue {s : State} {p : PortNo} (h : (s.port p).resend ≠ 0) (d : DueFlit) : d ∈ ((s.sendOrDue p d).port p).due := by
  rw [State.sendOrDue_wait h, State.port_setPort, if_pos rfl]
  split
  · assumption
  · exact List.mem_append_right _ List.mem_cons_self

/-! Announcements (R343) -/

/-- What sending announcements keeps: the clock, memory, and of every port all but its line, its counter and the flits that wait. -/
structure TimeFrame (s t : State) : Prop where
  clock : t.clock = s.clock
  time : t.link.time = s.link.time
  mem : t.mem = s.mem
  mode : ∀ p, (t.port p).mode = (s.port p).mode
  resend : ∀ p, (t.port p).resend = (s.port p).resend
  due : ∀ p, ∀ d ∈ (s.port p).due, d ∈ (t.port p).due
  out : ∀ o ∈ s.out, o ∈ t.out

theorem TimeFrame.refl (s : State) : TimeFrame s s := ⟨rfl, rfl, rfl, fun _ => rfl, fun _ => rfl, fun _ _ h => h, fun _ h => h⟩

theorem TimeFrame.trans {s t u : State} (h : TimeFrame s t) (h' : TimeFrame t u) : TimeFrame s u :=
  ⟨h'.clock.trans h.clock, h'.time.trans h.time, h'.mem.trans h.mem, fun p => (h'.mode p).trans (h.mode p),
    fun p => (h'.resend p).trans (h.resend p), fun p d hd => h'.due p d (h.due p d hd), fun o ho => h'.out o (h.out o ho)⟩

/-- A change of one port that keeps its mode, its replay count and the flits that wait, and output added, keep the frame. -/
theorem TimeFrame.of_setPort (s : State) (p : PortNo) (x : Port) (out : List Out) (hmode : x.mode = (s.port p).mode)
    (hresend : x.resend = (s.port p).resend) (hdue : ∀ d ∈ (s.port p).due, d ∈ x.due) :
    TimeFrame s { s.setPort p x with out := s.out ++ out } := by
  have hport (q : PortNo) : State.port { s.setPort p x with out := s.out ++ out } q = if p = q then x else s.port q := State.port_setPort s p q x
  refine ⟨rfl, rfl, rfl, fun q => ?_, fun q => ?_, fun q d hd => ?_, fun o ho => List.mem_append_left _ ho⟩
  all_goals
    rw [hport]
    by_cases hq : p = q
    · subst hq
      simp_all
    · simp_all

theorem TimeFrame.announce (s : State) (p : PortNo) : TimeFrame s (s.sendOrDue p .announce) := by
  by_cases h : (s.port p).resend = 0
  · obtain ⟨u, line, out, heq, -⟩ := State.sendTime_spec s p 2 0 []
    rw [State.sendOrDue_now h, State.sendDue, ← List.append_nil (s.timeHead 2 0), heq]
    exact TimeFrame.of_setPort s p _ out rfl rfl fun _ h => h
  · rw [State.sendOrDue_wait h]
    have hframe := TimeFrame.of_setPort s p (if .announce ∈ (s.port p).due then s.port p else { s.port p with due := (s.port p).due ++ [.announce] }) []
      (by split <;> rfl) (by split <;> rfl) (fun d hd => by split; exacts [hd, List.mem_append_left _ hd])
    rwa [List.append_nil] at hframe

/-- The announcement of a port that is UP went out, or waits at it. -/
def Announced (s t : State) (p : PortNo) : Prop :=
  ((s.port p).resend = 0 → TimeSent t p 2) ∧ ((s.port p).resend ≠ 0 → .announce ∈ (t.port p).due)

theorem Announced.of_sendOrDue (s : State) (p : PortNo) : Announced s (s.sendOrDue p .announce) p := by
  refine ⟨fun h => ?_, fun h => State.mem_due_sendOrDue h _⟩
  obtain ⟨-, -, -, -, hsent⟩ := State.sendTime_spec s p 2 0 []
  rw [State.sendOrDue_now h, State.sendDue]
  simpa using hsent

theorem Announced.mono {s s' t t' : State} {p : PortNo} (h : Announced s' t p) (hs : (s'.port p).resend = (s.port p).resend) (ht : TimeFrame t t') :
    Announced s t' p := by
  refine ⟨fun hz => ?_, fun hz => ht.due p _ (h.2 (hs ▸ hz))⟩
  obtain ⟨f, hf, hrest⟩ := h.1 (hs ▸ hz)
  exact ⟨f, ht.out _ hf, hrest⟩

/-- One port's turn. -/
def State.announceAt (s : State) (p : PortNo) : State := if (s.port p).mode = .up then s.sendOrDue p .announce else s

theorem TimeFrame.announceAt (s : State) (p : PortNo) : TimeFrame s (s.announceAt p) := by
  unfold State.announceAt
  split
  · exact TimeFrame.announce s p
  · exact TimeFrame.refl s

theorem TimeFrame.announceAll (l : List PortNo) (s : State) : TimeFrame s (l.foldl State.announceAt s) := by
  induction l generalizing s with
  | nil => exact TimeFrame.refl s
  | cons p l ih => exact (TimeFrame.announceAt s p).trans (ih _)

theorem State.announceAll_of_down {l : List PortNo} {s : State} (h : ∀ p ∈ l, (s.port p).mode ≠ .up) : l.foldl State.announceAt s = s := by
  induction l with
  | nil => rfl
  | cons p l ih =>
    rw [List.foldl_cons, State.announceAt, if_neg (h p List.mem_cons_self)]
    exact ih fun q hq => h q (List.mem_cons_of_mem p hq)

theorem Announced.of_announceAll {l : List PortNo} {s : State} {p : PortNo} (hp : p ∈ l) (hup : (s.port p).mode = .up) :
    Announced s (l.foldl State.announceAt s) p := by
  obtain ⟨a, b, rfl⟩ := List.append_of_mem hp
  have hbefore := TimeFrame.announceAll a s
  rw [List.foldl_append, List.foldl_cons]
  refine Announced.mono (s' := a.foldl State.announceAt s) ?_ (hbefore.resend p) (TimeFrame.announceAll b _)
  rw [State.announceAt, if_pos ((hbefore.mode p).trans hup)]
  exact Announced.of_sendOrDue _ p

theorem mem_allPorts (p : PortNo) (h : p.val < 30) : p ∈ (List.range 30).map portOf :=
  List.mem_map.2 ⟨p.val, List.mem_range.2 h, Fin.ext (by simp [portOf])⟩

/-! Time requests and responses (R42, R342) -/

theorem State.syncReqOut_spec (s : State) (p : PortNo) :
    (s.syncReqOut p).link.time = { s.link.time with tseq := s.link.time.tseq + 1, request := some (s.link.time.tseq + 1) } ∧
      (s.syncReqOut p).clock = s.clock ∧ (s.syncReqOut p).mem = s.mem ∧ TimeSent (s.syncReqOut p) p 0 := by
  obtain ⟨u, line, out, heq, hsent⟩ := State.sendTime_spec (s.modTime (fun t => { t with tseq := s.link.time.tseq + 1, request := some (s.link.time.tseq + 1) }))
    p 0 (s.link.time.tseq + 1) (leBytes 8 s.now ++ leBytes 8 0 ++ leBytes 8 0 ++ leBytes 1 s.fracNow)
  simp only [← List.append_assoc] at heq hsent
  unfold State.syncReqOut
  refine ⟨?_, ?_, ?_, hsent⟩
  all_goals
    dsimp only
    rw [heq]
    rfl

theorem State.syncRespOut_spec (s : State) (p : PortNo) (b : List Byte) (t2 : W64) (frac : BitVec 4) :
    (s.syncRespOut p b t2 frac).clock = s.clock ∧ (s.syncRespOut p b t2 frac).link.time = s.link.time ∧
      (s.syncRespOut p b t2 frac).mem = s.mem ∧ TimeSent (s.syncRespOut p b t2 frac) p 1 := by
  obtain ⟨u, line, out, heq, hsent⟩ := State.sendTime_spec s p 1 (BitVec.ofNat 16 (leField b 12 2)) (leBytes 8 (leField b 16 8) ++ leBytes 8 t2.toNat ++
    leBytes 8 s.now ++ leBytes 1 (leField b 40 1) ++ leBytes 1 frac.toNat ++ leBytes 1 (if s.clock.time = t2 then frac.toNat else s.fracNow) ++
    leBytes 5 0 ++ leBytes 8 (leField b 48 8))
  simp only [← List.append_assoc] at heq hsent
  unfold State.syncRespOut
  refine ⟨?_, ?_, ?_, hsent⟩
  all_goals
    rw [heq]
    rfl

/-- R42: the clock counts as synchronised only after eight good offsets and at most six hops. -/
theorem State.takeOffset_synced {s : State} {p : PortNo} {o : Int} (h : (s.takeOffset p o).clock.synced = true) :
    s.link.time.hops.toNat ≤ 6 ∧ (s.takeOffset p o).link.time.good = 8 := by
  generalize ht : s.takeOffset p o = t at h ⊢
  unfold State.takeOffset at ht
  extract_lets +onlyGivenNames x bring big near step closing good s1 split s2 s3 at ht
  subst ht
  rw [State.clock_ite_reportPort] at h
  rw [State.link_ite_reportPort]
  have hsync : (decide (8 ≤ good) && decide (x.hops.toNat ≤ 6)) = true := h
  rw [Bool.and_eq_true, decide_eq_true_eq, decide_eq_true_eq] at hsync
  refine ⟨hsync.2, ?_⟩
  have hgood : good ≤ 8 := by
    show (if near = true then min 8 (x.good + 1) else 0) ≤ 8
    split <;> omega
  exact Nat.le_antisymm hgood hsync.1

@[simp] theorem State.noteUctr_mem (s : State) (p : PortNo) (f : List Byte) : (s.noteUctr p f).mem = s.mem := by
  unfold State.noteUctr
  split <;> rfl

@[simp] theorem State.noteUctr_out (s : State) (p : PortNo) (f : List Byte) : (s.noteUctr p f).out = s.out := by
  unfold State.noteUctr
  split <;> rfl

/-- Keeping the counter of a flit changes no other field of the port. -/
theorem State.port_noteUctr (s : State) (p : PortNo) (f : List Byte) : ∃ v, (s.noteUctr p f).port p = { s.port p with uctrRx := v } := by
  unfold State.noteUctr
  split
  · exact ⟨_, by rw [State.port_modPort, if_pos rfl]⟩
  · exact ⟨(s.port p).uctrRx, rfl⟩

theorem State.setPort_noteUctr (s : State) (p : PortNo) (f : List Byte) (x : Port) : (s.noteUctr p f).setPort p x = s.setPort p x := by
  unfold State.noteUctr
  split
  · exact State.setPort_setPort s p _ x
  · rfl

/-- R333: a flit whose tag does not hold quarantines its port. -/
theorem State.withTime_of_bad_tag {s : State} {p : PortNo} {kind : Nat} {f : TimeMsg} (hup : (s.port p).mode = .up) (ho : flitOk f.flit = true)
    (ht : flitType f.flit = some .time) (hk : leField (flitBody f.flit) 0 1 = kind) (henc : (s.port p).encOn = true)
    (htag : bodyTagOk f.flit ((s.port p).rxKey (flitPhase f.flit)) = false) (k : State → List Byte → State) : s.withTime p kind f k = s.authFail p := by
  unfold State.withTime
  rw [State.flitPass_of_type (Port.linked_of_up hup) ho ht, if_pos ⟨hup, hk⟩]
  exact if_pos ⟨henc, by rw [htag]; rfl⟩

theorem State.withTime_of_bad_flit {s : State} {p : PortNo} {kind : Nat} {f : TimeMsg} (h : flitOk f.flit = false) (k : State → List Byte → State) :
    s.withTime p kind f k = s := if_pos (by rw [h]; simp)

/-- The first half of a read of GLB_TIME latches the high half for the second. -/
theorem State.timeHigh_latched (s : State) (who : Requester) : ((s.timeLow who).1.timeHigh who).2 = s.clock.time.toNat / 2 ^ 32 := by
  have hlatch := Tab.get_set_listed (d := (none : Option W32)) (v := some (BitVec.ofNat 32 (s.clock.time.toNat / 2 ^ 32))) (by simp)
    s.host.timeLatch (whoKey who)
  have hhigh : ((s.timeLow who).1.timeHigh who).2 =
      match Tab.get none (Tab.set none s.host.timeLatch (whoKey who) (some (BitVec.ofNat 32 (s.clock.time.toNat / 2 ^ 32)))) (whoKey who) with
      | some v => v.toNat
      | none => s.clock.time.toNat / 2 ^ 32 := rfl
  rw [hhigh, hlatch]
  have := s.clock.time.isLt
  simp only [BitVec.toNat_ofNat]
  omega

/-- Settles O23: the flits that go out or wait, the flits that are taken, the announcements, and the latch. -/
theorem globalTime : Obligations.GlobalTime := by
  intro s sent heard good seen
  refine ⟨fun h => ?_, fun hoff hrails => ?_, fun p hp hup hz => ?_, fun p hp hup hz => ?_, fun hdown => ?_, fun p m ⟨hup, ho, ht, hk⟩ ha hz => ?_,
    fun p m ⟨hup, ho, ht, hk⟩ ha hz => ?_, fun p m ⟨hup, ho, ht, hk⟩ ha hp hr => ?_, fun p m ⟨hup, ho, ht, hk⟩ ha hother => ?_,
    fun p m ⟨hup, ho, ht, hk⟩ ha hheld => ?_, fun p m ⟨hup, ho, ht, hk⟩ ha hheld => ?_, fun p m k ⟨hup, ho, ht, hk⟩ henc htag => ?_,
    fun p m hbad => ?_, fun p a ha hlate => ?_, ?_, fun who hon => ?_⟩
  · exact congrArg _ (if_neg (by rintro ⟨hoff, hrails⟩; simp_all))
  · exact congrArg _ (if_pos ⟨hoff, by rw [hrails]; rfl⟩)
  · refine ⟨s.syncReqOut p, ?_, State.syncReqOut_spec s p⟩
    simp only [exec, execSyncReqSend, hp, hup, ne_eq, not_true_eq_false, if_false, State.sendOrDue_now hz, State.sendDue]
  · refine ⟨s.sendOrDue p .syncReq, ?_, State.mem_due_sendOrDue hz _, ?_⟩
    · simp only [exec, execSyncReqSend, hp, hup, ne_eq, not_true_eq_false, if_false]
    · rw [State.sendOrDue_wait hz]
      exact ⟨rfl, rfl, rfl⟩
  · simp only [exec, execSyncReqSend]
    cases hp : s.link.time.parent with
    | none => rfl
    | some p => exact congrArg _ (if_pos (hdown p hp))
  · obtain ⟨v, hport⟩ := State.port_noteUctr s p m.flit
    obtain ⟨hclock, htime, hmem, hsent⟩ := State.syncRespOut_spec (s.noteUctr p m.flit) p (flitBody m.flit) s.clock.time m.frac
    refine ⟨_, congrArg Host.Outcome.next (State.withTime_of_accepts hup ho ht hk ha _), ?_⟩
    rw [State.sendOrDue_now (by rw [hport]; exact hz), State.sendDue, State.noteUctr_clock]
    exact ⟨by rw [hclock]; simp, by rw [htime]; simp, by rw [hmem]; simp, hsent⟩
  · obtain ⟨v, hport⟩ := State.port_noteUctr s p m.flit
    have hz' : ((s.noteUctr p m.flit).port p).resend ≠ 0 := by rw [hport]; exact hz
    refine ⟨_, congrArg Host.Outcome.next (State.withTime_of_accepts hup ho ht hk ha _), ?_, ?_⟩
    · rw [State.noteUctr_clock]
      exact State.mem_due_sendOrDue hz' _
    · rw [State.sendOrDue_wait hz']
      exact ⟨State.noteUctr_clock .., State.noteUctr_time .., State.noteUctr_out ..⟩
  · obtain ⟨o, hexec⟩ := exec_syncResp_of_accepts hup ho ht hk ha hp hr
    obtain ⟨step, offset, rate, synced, hstep, hclock⟩ := State.takeOffset_clock (s.noteUctr p m.flit) p o
    obtain ⟨good, closing, split, htime⟩ := State.takeOffset_time (s.noteUctr p m.flit) p o
    refine ⟨_, hexec, by rw [hclock], by rw [htime], by rw [htime], fun hb => ?_, fun hsync => ?_⟩
    · rw [hclock, hstep (by rw [State.noteUctr_modu]; exact hb)]
      simp
    · simpa using State.takeOffset_synced hsync
  · refine congrArg _ ((State.withTime_of_accepts hup ho ht hk ha _).trans (if_neg ?_))
    rw [State.noteUctr_time]
    rintro ⟨hp, hr⟩
    rcases hother with h | h
    · exact h hp
    · exact h hr
  · obtain ⟨v, hport⟩ := State.port_noteUctr s p m.flit
    refine congrArg _ ((State.withTime_of_accepts hup ho ht hk ha _).trans ((if_neg (by rw [hport]; simp [hheld])).trans ?_))
    unfold State.modPort
    rw [State.setPort_noteUctr, State.noteUctr_clock]
    rfl
  · obtain ⟨v, hport⟩ := State.port_noteUctr s p m.flit
    exact congrArg _ ((State.withTime_of_accepts hup ho ht hk ha _).trans (if_pos (by rw [hport]; exact hheld)))
  · refine ⟨fun h => ?_, fun h => ?_, fun h => ?_⟩ <;> subst h <;> exact congrArg _ (State.withTime_of_bad_tag hup ho ht hk henc htag _)
  · exact ⟨congrArg _ (State.withTime_of_bad_flit hbad _), congrArg _ (State.withTime_of_bad_flit hbad _),
      congrArg _ (State.withTime_of_bad_flit hbad _)⟩
  · simp only [exec, execAnnounceExpiry, ha]
    refine congrArg _ (if_neg ?_)
    show ¬ s.clock.time.toNat ≤ a.time.toNat + 10 * 1200000
    omega
  · have hframe := TimeFrame.announceAll ((List.range 30).map portOf) s
    have hexec : exec .announceSend s = .next (((List.range 30).map portOf).foldl State.announceAt s) := rfl
    refine ⟨_, hexec, hframe.clock, hframe.time, hframe.mem, fun hdown => State.announceAll_of_down ?_, fun p hp hup =>
      Announced.of_announceAll (mem_allPorts p hp) hup⟩
    intro p hp
    obtain ⟨i, hi, rfl⟩ := List.mem_map.1 hp
    exact hdown i (List.mem_range.1 hi)
  · exact ⟨_, congrArg Host.Outcome.next (if_pos hon), rfl, State.timeHigh_latched s who, rfl⟩

end Sys2Proof.Machine
end

section
/-! SUPPORT. Register writes, the power governor, the power limits and the unit power states (R102, R430 to R446). -/

namespace Sys2Proof.Machine

/-! Register writes (R102) -/

/-- Settles O28: by the register named. -/
theorem registerWrites : Obligations.RegisterWrites := by
  intro s v
  refine ⟨fun r hoff => congrArg Host.Outcome.next (if_neg (by simp [State.mainOn, hoff])), fun hon => ?_⟩
  have hwrite (r : RegId) : exec (.registerWrite r v) s = .next (s.regWrite r v.toNat 0) := congrArg Host.Outcome.next (if_pos hon)
  refine ⟨fun n r hr => ?_, hwrite, fun l f w r hr => ?_, fun n i => ?_, fun n => hwrite _⟩
  · rw [hwrite]
    fin_cases hr <;> rfl
  · rw [hwrite]
    fin_cases hr <;> rfl
  · rw [hwrite, State.regWrite, State.coreRegWrite_arg, BitVec.ofNat_toNat, BitVec.setWidth_eq]
    rfl

/-! Root steps (R434, R436) -/

/-- What a root step keeps: everything but the demand, the held requests and the second PLL. -/
structure RootFrame (s t : State) : Prop where
  power : ∃ demand held, t.power = { s.power with demand := demand, held := held }
  clock : ∃ busy target, t.clock = { s.clock with stepBusy := busy, stepTarget := target }

theorem State.stepRoot_busy {s : State} (h : s.clock.stepBusy = true) : s.stepRoot = s := if_pos (.inl h)

section
variable {s : State} (hbusy : s.clock.stepBusy = false) (hon : s.mainOn = true)
include hbusy hon

theorem State.stepRoot_free : s.stepRoot = if s.clock.rootStep.toNat < s.rootGoal then s.dropRootUp.beginStep (s.clock.rootStep.toNat + 1)
    else if s.rootGoal < s.clock.rootStep.toNat then
      if .rootUp ∈ s.power.held then s
      else if s.power.held = [] ∧ s.fitsRise (Config.freeNat s.draws) then
        (s.draw.addDemand (Config.freeNat s.draws)).beginStep (s.clock.rootStep.toNat - 1)
      else s.draw.modPower (fun p => { p with held := p.held ++ [.rootUp] })
    else s.dropRootUp :=
  if_neg (by simp [hbusy, hon])

theorem State.stepRoot_down (h : s.clock.rootStep.toNat < s.rootGoal) : s.stepRoot = s.dropRootUp.beginStep (s.clock.rootStep.toNat + 1) := by
  rw [State.stepRoot_free hbusy hon, if_pos h]

/-- A step up that fits raises the demand by the rise. -/
theorem State.stepRoot_up (h : s.rootGoal < s.clock.rootStep.toNat) (hheld : s.power.held = []) (hfits : s.fitsRise (Config.freeNat s.draws) = true) :
    s.stepRoot = (s.draw.addDemand (Config.freeNat s.draws)).beginStep (s.clock.rootStep.toNat - 1) := by
  rw [State.stepRoot_free hbusy hon, if_neg (by omega), if_pos h, if_neg (by simp [hheld]), if_pos ⟨hheld, hfits⟩]

/-- A step up that does not fit, or finds others held, is held. -/
theorem State.stepRoot_held (h : s.rootGoal < s.clock.rootStep.toNat) (hnew : .rootUp ∉ s.power.held)
    (hwait : ¬ (s.power.held = [] ∧ s.fitsRise (Config.freeNat s.draws) = true)) :
    s.stepRoot = s.draw.modPower (fun p => { p with held := p.held ++ [.rootUp] }) := by
  rw [State.stepRoot_free hbusy hon, if_neg (by omega), if_pos h, if_neg hnew, if_neg hwait]
end

theorem RootFrame.stepRoot (s : State) : RootFrame s s.stepRoot := by
  by_cases h : s.clock.stepBusy = true ∨ (!s.mainOn) = true
  · rw [show s.stepRoot = s from if_pos h]
    exact ⟨⟨_, _, rfl⟩, ⟨_, _, rfl⟩⟩
  · obtain ⟨hbusy, hon⟩ := not_or.1 h
    rw [State.stepRoot_free (Bool.eq_false_iff.2 hbusy) (by simpa using hon)]
    split
    · exact ⟨⟨_, _, rfl⟩, ⟨_, _, rfl⟩⟩
    · split
      · split
        · exact ⟨⟨_, _, rfl⟩, ⟨_, _, rfl⟩⟩
        · split <;> exact ⟨⟨_, _, rfl⟩, ⟨_, _, rfl⟩⟩
      · exact ⟨⟨_, _, rfl⟩, ⟨_, _, rfl⟩⟩

/-- The step a root step asked for is to lead to. -/
def State.wantStep (s : State) (up : Bool) : State :=
  { s with power := { s.power with wantBase := if up then BitVec.ofNat 2 (s.rootGoal - 1) else BitVec.ofNat 2 (min 2 (s.rootGoal + 1)) } }

theorem exec_rootStep (s : State) (up : Bool) : exec (.rootStep up) s = .next (s.wantStep up).stepRoot := by
  cases up <;> rfl

theorem State.fitsRise_iff (s : State) (add : Nat) : s.fitsRise add = true ↔ s.power.demand + add ≤ 10 * s.power.level.toNat + 10 * s.dictVal 0x2101 2 :=
  decide_eq_true_iff

/-! The slew of the governor (R435) -/

theorem State.setBallast_frame (s : State) (m : BitVec 128) : (s.setBallast m).power.level = s.power.level ∧
    (s.setBallast m).power.levelFrac = s.power.levelFrac ∧ (s.setBallast m).clock = s.clock ∧ (s.setBallast m).mem = s.mem := ⟨rfl, rfl, rfl, rfl⟩

/-- Filling a fall with ballast leaves the level, the clock and memory. -/
theorem State.fillFall_frame (s : State) (g demand : Nat) : (s.fillFall g demand).power.level = s.power.level ∧
    (s.fillFall g demand).power.levelFrac = s.power.levelFrac ∧ (s.fillFall g demand).clock = s.clock ∧ (s.fillFall g demand).mem = s.mem := by
  generalize ht : s.fillFall g demand = t
  unfold State.fillFall at ht
  extract_lets +onlyGivenNames need n cs m s1 s2 due s3 at ht
  have h2 : s2.power.level = s.power.level ∧ s2.power.levelFrac = s.power.levelFrac ∧ s2.clock = s.clock ∧ s2.mem = s.mem := by
    cases hb : s.power.breach <;> simp only [s2, hb, if_true, if_false, Bool.false_eq_true] <;> exact ⟨rfl, rfl, rfl, rfl⟩
  split at ht
  · split at ht
    · subst ht
      have h3 : s3.power = { s2.power with slewEvent := true } ∧ s3.clock = s2.clock ∧ s3.mem = s2.mem := by
        simp [s3, State.powerReport]
      obtain ⟨hpower, hclock, hmem⟩ := h3
      show s3.power.level = _ ∧ s3.power.levelFrac = _ ∧ s3.clock = _ ∧ s3.mem = _
      rwa [hpower, hclock, hmem]
    · exact ht ▸ h2
  · subst ht
    exact ⟨rfl, rfl, rfl, rfl⟩

theorem State.nextLevel_lt (s : State) (demand : W16) (h : s.power.levelFrac < 1000) : s.nextLevel demand.toNat < 65536000 := by
  have := s.power.level.isLt
  have := demand.isLt
  unfold State.nextLevel
  dsimp only
  split <;> omega

/-- The level in thousandths is read back from its whole part and its fraction. -/
theorem level_of_parts {g : Nat} (h : g < 65536000) : 1000 * (BitVec.ofNat 16 (g / 1000)).toNat + g % 1000 = g := by
  rw [BitVec.toNat_ofNat]
  omega

/-! Held starts (R436) -/

/-- A held start of a core that may still start. -/
def State.startHeld (t : State) (x : CoreNo × BitVec 2) : State := if (t.core x.1).startOk then t.modCore x.1 (fun c => c.start x.2) else t

theorem State.startHeld_frame (l : List (CoreNo × BitVec 2)) (t : State) :
    (l.foldl State.startHeld t).power = t.power ∧ (l.foldl State.startHeld t).mem = t.mem ∧
      ∀ n, (∀ x ∈ l, x.1 ≠ n) → (l.foldl State.startHeld t).core n = t.core n := by
  induction l generalizing t with
  | nil => exact ⟨rfl, rfl, fun _ _ => rfl⟩
  | cons x l ih =>
    obtain ⟨hpower, hmem, hcore⟩ := ih (t.startHeld x)
    rw [List.foldl_cons]
    have hstep : (t.startHeld x).power = t.power ∧ (t.startHeld x).mem = t.mem ∧ ∀ n, x.1 ≠ n → (t.startHeld x).core n = t.core n := by
      unfold State.startHeld
      split
      · exact ⟨rfl, rfl, fun n hn => State.core_setCore_of_ne hn.symm _⟩
      · exact ⟨rfl, rfl, fun _ _ => rfl⟩
    obtain ⟨hpower', hmem', hcore'⟩ := hstep
    exact ⟨hpower.trans hpower', hmem.trans hmem', fun n hn =>
      (hcore n fun y hy => hn y (List.mem_cons_of_mem x hy)).trans (hcore' n (hn x List.mem_cons_self))⟩

/-- The starts of a group admitted: their charge is demanded and they are held no longer. -/
def State.admitted (s : State) (grp : List (CoreNo × BitVec 2)) : State :=
  (s.addDemand (grp.length * startCharge s.clock.rootStep)).modPower (fun p => { p with held := p.held.filter (fun h => match h with
    | .start n _ => !grp.any (fun x => decide (x.1 = n))
    | .rootUp => true) })

theorem exec_startAdmit_fits {s : State} (hne : s.heldGroup ≠ []) (hfits : s.fitsRise (s.heldGroup.length * startCharge s.clock.rootStep) = true) :
    exec .startAdmit s = .next (s.heldGroup.foldl State.startHeld (s.admitted s.heldGroup)) :=
  congrArg Host.Outcome.next (if_pos ⟨hne, hfits⟩)

theorem groupRun_one (n : CoreNo) : groupRun n 1 = [n] := by
  have hn : coreOf n.val = n := Fin.ext (by simp [coreOf])
  simp [groupRun, hn]

/-- A single start of a group of one is the group that is tried. -/
theorem State.heldGroup_of_single {s : State} {n : CoreNo} {priv : BitVec 2} (hheld : s.power.held = [.start n priv])
    (hgroup : (s.core n).regs.groupLog2 = 0) : s.heldGroup = [(n, priv)] := by
  have hsize : s.groupSize n = 1 := by
    unfold State.groupSize
    rw [hgroup]
    exact ite_self 1
  simp [State.heldGroup, State.heldStarts, hheld, hsize, groupRun_one]

/-- Settles O25: the slew, the root steps, the starts admitted and the holds noted. -/
theorem governor : Obligations.Governor := by
  intro s
  refine ⟨fun pIn demand hgov hfrac => ?_, fun hbusy => ?_, fun pIn demand hgov => congrArg Host.Outcome.next (if_pos (by rw [hgov]; rfl)),
    fun hbusy => congrArg Host.Outcome.next (if_neg (by simp [hbusy])), fun up hbusy => ?_, fun hbusy hon hzero => ?_, fun up hbusy hon => ?_,
    fun hnone hup hbusy hgoal => ?_, fun n priv hheld hgroup hok hfits => ?_, fun hne hfits => ?_, fun hheld hlog => ?_⟩
  · refine ⟨_, congrArg Host.Outcome.next (if_neg (by simp [hgov])), ?_⟩
    dsimp only
    obtain ⟨hlevel, hlevelFrac, hclock, hmem⟩ := State.fillFall_frame (s.draw.modPower (fun p => { p with
        pIn := BitVec.ofInt 16 (s.roundFree (sumNat (((s.power.samples ++ [pIn]).drop (s.power.samples.length - 99)).map (fun x => x.toNat)) : Nat)
          ((s.power.samples ++ [pIn]).drop (s.power.samples.length - 99)).length),
        samples := (s.power.samples ++ [pIn]).drop (s.power.samples.length - 99), level := BitVec.ofNat 16 (s.nextLevel demand.toNat / 1000),
        levelFrac := s.nextLevel demand.toNat % 1000, demand := 10 * demand.toNat })) (s.nextLevel demand.toNat) demand.toNat
    rw [hlevel, hlevelFrac, hclock, hmem]
    have hnew := level_of_parts (State.nextLevel_lt s demand hfrac)
    refine ⟨fun hle => hnew.trans ?_, fun hle => hnew.trans ?_, rfl, rfl⟩
    · unfold State.nextLevel
      exact if_pos hle
    · unfold State.nextLevel
      dsimp only
      split <;> omega
  · obtain ⟨-, busy, target, hclock⟩ := RootFrame.stepRoot
      (s.modClock (fun c => { c with rootStep := c.stepTarget, stepBusy := false, stepCount := c.stepCount + 1 }))
    exact ⟨_, congrArg Host.Outcome.next (if_pos hbusy), by rw [hclock]; rfl, by rw [hclock]; rfl, by rw [hclock]; rfl⟩
  · exact ⟨_, exec_rootStep s up, by rw [State.stepRoot_busy (s := s.wantStep up) hbusy]; rfl,
      by rw [State.stepRoot_busy (s := s.wantStep up) hbusy]; rfl⟩
  · have hgoal : (s.wantStep false).clock.rootStep.toNat < (s.wantStep false).rootGoal := by
      show s.clock.rootStep.toNat < max (max (BitVec.ofNat 2 (min 2 (s.rootGoal + 1))).toNat _) _
      rw [hzero, BitVec.toNat_ofNat]
      simp
      omega
    refine ⟨_, exec_rootStep s false, ?_⟩
    rw [State.stepRoot_down (s := s.wantStep false) hbusy hon hgoal]
    show ({ s.clock with stepBusy := true, stepTarget := BitVec.ofNat 2 (s.clock.rootStep.toNat + 1) } : ClockState) = _
    rw [hzero]
    rfl
  · intro u rise
    refine ⟨fun hgoal => ⟨_, exec_rootStep s up, ?_⟩, fun hgoal hheld hfits => ⟨_, exec_rootStep s up, ?_⟩,
      fun hgoal hnew hwait => ⟨_, exec_rootStep s up, ?_⟩⟩
    · rw [State.stepRoot_down (s := s.wantStep up) hbusy hon hgoal]
      rfl
    · rw [State.stepRoot_up (s := s.wantStep up) hbusy hon hgoal hheld ((State.fitsRise_iff ..).2 hfits)]
      exact ⟨rfl, rfl⟩
    · have hno : ¬ ((s.wantStep up).power.held = [] ∧ (s.wantStep up).fitsRise (Config.freeNat (s.wantStep up).draws) = true) := by
        rintro ⟨hnil, hfits⟩
        rcases hwait with hwait | hwait
        · exact hwait hnil
        · exact Nat.not_le.2 hwait ((State.fitsRise_iff ..).1 hfits)
      rw [State.stepRoot_held (s := s.wantStep up) hbusy hon hgoal hnew hno]
      exact ⟨rfl, rfl⟩
  · have hexec : exec .startAdmit s = .next (s.dropRootUp.beginStep (s.clock.rootStep.toNat - 1)) :=
      congrArg Host.Outcome.next ((if_neg (by simp [hnone])).trans (if_pos ⟨hup, by rw [hbusy]; rfl, hgoal⟩))
    exact ⟨_, hexec, by simp [State.dropRootUp, State.beginStep, State.modPower, State.modClock], rfl⟩
  · have hgrp := State.heldGroup_of_single hheld hgroup
    refine ⟨_, exec_startAdmit_fits (by simp [hgrp]) (by rw [hgrp]; simpa using hfits), ?_⟩
    obtain ⟨hpower, -, -⟩ := State.startHeld_frame s.heldGroup (s.admitted s.heldGroup)
    rw [hpower, hgrp]
    refine ⟨?_, ?_, ?_⟩
    · show s.power.held.filter _ = []
      simp [hheld]
    · show s.power.demand + 1 * _ = _
      rw [Nat.one_mul]
    · show (State.startHeld _ _).core n = _
      rw [State.startHeld, if_pos (show ((s.admitted [(n, priv)]).core n).startOk = true from hok), State.core_modCore, if_pos rfl]
      rfl
  · obtain ⟨hpower, hmem, hcore⟩ := State.startHeld_frame s.heldGroup (s.admitted s.heldGroup)
    exact ⟨_, exec_startAdmit_fits hne hfits, by rw [hpower]; rfl, by rw [hpower]; rfl, fun n hn => hcore n hn, hmem⟩
  · refine ⟨_, congrArg Host.Outcome.next (if_pos ⟨hheld, by rw [hlog]⟩), rfl, rfl, ?_⟩
    simp [State.powerReport]

end Sys2Proof.Machine
end

section
/-! SUPPORT. The input, the power limit, the temperature and the unit power states (R433, R437 to R446). -/

namespace Sys2Proof.Machine

/-! Root step goals -/

theorem RootFrame.rootGoal {s t : State} (h : RootFrame s t) : t.rootGoal = s.rootGoal := by
  obtain ⟨demand, held, hpower⟩ := h.power
  unfold State.rootGoal
  rw [hpower]

theorem toNat_oneDown (k : Nat) : (BitVec.ofNat 2 (min 2 (k + 1))).toNat = min 2 (k + 1) := by
  rw [BitVec.toNat_ofNat]
  omega

/-! Main power off (R441, R444) -/

theorem State.mainOff_spec (s : State) : s.mainOff.plug.mainOn = false ∧ s.mainOff.mem = { MemState.reset with retireList := s.mainOff.mem.retireList } := by
  unfold State.mainOff
  extract_lets +onlyGivenNames s0 s1
  clear_value s1
  exact ⟨rfl, rfl⟩

/-- R444: a critical temperature powers the main domain off; memory keeps no byte. -/
theorem State.criticalTemp_spec (s : State) : s.criticalTemp.plug.mainOn = false ∧ s.criticalTemp.power.throttleEvent = true ∧
    s.criticalTemp.mem = { MemState.reset with retireList := s.criticalTemp.mem.retireList } := by
  unfold State.criticalTemp
  extract_lets +onlyGivenNames s1 off
  obtain ⟨hmain, hmem⟩ := State.mainOff_spec s1
  exact ⟨hmain, rfl, hmem⟩

/-- What the hottest sensor of a report shows. -/
def hottest (r : TempReport) : Nat := max (max r.cMax.toNat r.mMax.toNat) (max r.xMax.toNat r.hbmMax.toNat)

/-- The state with a report's temperatures. -/
def State.tookTemps (s : State) (r : TempReport) : State :=
  s.modPower (fun p => { p with
    cMax := r.cMax, mMax := r.mMax, xMax := r.xMax, hbmMax := r.hbmMax, inlet := r.inlet, outlet := r.outlet,
    msAbove := if s.dictVal 0x2120 1 ≤ hottest r then s.power.msAbove + 1 else 0,
    msBelow := if hottest r + 5 < s.dictVal 0x2120 1 then s.power.msBelow + 1 else 0, inletOver := decide (s.dictVal 0x2120 3 < r.inlet.toNat) })

/-- The state once a warm inlet that was not warm before is noted. -/
def State.inletNoted (s : State) (r : TempReport) : State :=
  if decide (s.dictVal 0x2120 3 < r.inlet.toNat) ∧ !s.power.inletOver then (s.tookTemps r).thermalNote "inlet" else s.tookTemps r

theorem State.thermalNote_power (s : State) (word : String) : (s.thermalNote word).power = { s.power with throttleEvent := true } := by
  simp [State.thermalNote, State.powerReport]

theorem State.inletNoted_spec (s : State) (r : TempReport) : ∃ e, (s.inletNoted r).power = { (s.tookTemps r).power with throttleEvent := e } ∧
    (s.inletNoted r).modu = s.modu := by
  unfold State.inletNoted
  split
  · exact ⟨true, State.thermalNote_power .., State.thermalNote_modu ..⟩
  · exact ⟨(s.tookTemps r).power.throttleEvent, rfl, rfl⟩

theorem exec_temperatureReport_critical {s : State} {r : TempReport} (hon : s.plug.mainOn = true) (h : s.dictVal 0x2120 2 ≤ hottest r) :
    exec (.temperatureReport r) s = .next (s.inletNoted r).criticalTemp :=
  congrArg Host.Outcome.next ((if_neg (by simp [State.mainOn, hon])).trans (if_pos h))

/-- R443: below its limits a report of a module that does not throttle is kept and does nothing else. -/
theorem exec_temperatureReport_cool {s : State} {r : TempReport} (hon : s.plug.mainOn = true) (hcritical : hottest r < s.dictVal 0x2120 2)
    (hlimit : hottest r < s.dictVal 0x2120 1) (hthrottle : s.power.throttle = false) : exec (.temperatureReport r) s = .next (s.inletNoted r) := by
  obtain ⟨e, hpower, -⟩ := State.inletNoted_spec s r
  have hstill : (s.inletNoted r).power.throttle = false := by rw [hpower]; exact hthrottle
  refine congrArg Host.Outcome.next ((if_neg (by simp [State.mainOn, hon])).trans ((if_neg (Nat.not_le.2 hcritical)).trans ((if_neg ?_).trans (if_neg ?_))))
  · have habove : (if s.dictVal 0x2120 1 ≤ hottest r then s.power.msAbove + 1 else 0) = 0 := if_neg (Nat.not_le.2 hlimit)
    show ¬ (2 ≤ (if s.dictVal 0x2120 1 ≤ hottest r then s.power.msAbove + 1 else 0) ∧ _)
    rw [habove]
    omega
  · show ¬ ((s.inletNoted r).power.throttle = true ∧ _)
    rw [hstill]
    simp

/-- Settles O26: the input, the limit and its gating, and the reports. -/
theorem powerLimits : Obligations.PowerLimits := by
  intro s
  refine ⟨fun hon hok => ?_, fun hfault => ?_, fun hpre => ?_, fun hover => congrArg Host.Outcome.next (if_pos hover), fun mean hon hmean hlow => ?_,
    fun mean hon hmean hstep hbusy => ?_, fun hgate => ?_, fun r hon hhot => ?_, fun r hon hcritical hlimit hthrottle => ?_⟩
  · have hframe := RootFrame.stepRoot ((s.powerReport 0x0704 unitHotSwap []).modPower (fun p => { p with inputFault := true }))
    refine ⟨_, congrArg Host.Outcome.next (if_neg (by simp [hon, hok])), ?_, ?_⟩
    · obtain ⟨demand, held, hpower⟩ := hframe.power
      rw [hpower]
      rfl
    · rw [hframe.rootGoal]
      unfold State.rootGoal
      simp
  · obtain ⟨demand, held, hpower⟩ := (RootFrame.stepRoot (s.modPower (fun p => { p with inputFault := false }))).power
    exact ⟨_, congrArg Host.Outcome.next (if_pos hfault), by rw [hpower]; rfl⟩
  · exact ⟨_, congrArg Host.Outcome.next (if_pos hpre), rfl, rfl, rfl, rfl⟩
  · exact congrArg Host.Outcome.next ((if_neg (by simp [State.mainOn, hon, hmean])).trans (if_pos hlow))
  · obtain ⟨demand, held, hpower⟩ := (RootFrame.stepRoot (s.modPower (fun p => { p with wantLimit := s.oneDown }))).power
    have hexec : exec (.powerLimitCheck mean) s = .next (s.modPower (fun p => { p with wantLimit := s.oneDown })).stepRoot :=
      congrArg Host.Outcome.next ((if_neg (by simp [State.mainOn, hon, hmean])).trans ((if_neg hstep).trans (if_neg (by simp [hbusy]))))
    refine ⟨_, hexec, ?_⟩
    rw [hpower]
    exact toNat_oneDown s.rootGoal
  · obtain ⟨demand, held, hpower⟩ := (RootFrame.stepRoot (s.modPower (fun p => { p with gateLimit := false, wantLimit := 0 }))).power
    exact ⟨_, congrArg Host.Outcome.next (if_pos (.inl hgate)), by rw [hpower]; rfl, by rw [hpower]; rfl⟩
  · exact ⟨_, exec_temperatureReport_critical hon hhot, State.criticalTemp_spec _⟩
  · obtain ⟨e, hpower, hmodu⟩ := State.inletNoted_spec s r
    refine ⟨_, exec_temperatureReport_cool hon hcritical hlimit hthrottle, ?_⟩
    rw [hpower, hmodu]
    have habove : (s.tookTemps r).power.msAbove = 0 := if_neg (Nat.not_le.2 hlimit)
    exact ⟨rfl, rfl, habove, rfl, rfl⟩

/-! Unit power states (R438 to R441) -/

/-- A fold over other cores keeps a core. -/
theorem State.core_foldl_modCore {l : List CoreNo} {n : CoreNo} (h : n ∉ l) (f : Core → Core) (s : State) :
    (l.foldl (fun (t : State) m => t.modCore m f) s).core n = s.core n := by
  induction l generalizing s with
  | nil => rfl
  | cons m l ih =>
    rw [List.mem_cons, not_or] at h
    rw [List.foldl_cons, ih h.2]
    exact State.core_setCore_of_ne h.1 _

theorem State.sleepDie_frame (s : State) (c : CDie) :
    (s.sleepDie c).power = s.power ∧ (s.sleepDie c).mem = s.mem ∧ ∀ n, n ∉ coresOfDie c → (s.sleepDie c).core n = s.core n := by
  unfold State.sleepDie
  refine ⟨?_, ?_, fun n hn => ?_⟩
  · exact (foldl_keeps State.power _ (fun t k => by split <;> rfl) _ _).trans (foldl_keeps State.power _ (by intros; rfl) _ _)
  · exact (foldl_keeps State.mem _ (fun t k => by split <;> rfl) _ _).trans (foldl_keeps State.mem _ (by intros; rfl) _ _)
  · exact (foldl_keeps (State.core · n) _ (fun t k => by split <;> rfl) _ _).trans (State.core_foldl_modCore hn _ s)

theorem State.wakeUnit_frame (s : State) (u : Sys2Proof.PUnit) :
    (s.wakeUnit u).power = { s.power with asleep := s.power.asleep.filter (fun a => decide (a.unit ≠ u)) } ∧ (s.wakeUnit u).mem = s.mem := by
  unfold State.wakeUnit
  cases u with
  | core n => exact ⟨rfl, rfl⟩
  | hbm c => exact ⟨rfl, rfl⟩
  | die c =>
    dsimp only
    unfold State.bindCores
    constructor
    · rw [foldl_keeps State.power _ (by intros; rfl), foldl_keeps State.power _ (by intros; rfl)]
      rfl
    · rw [foldl_keeps State.mem _ (by intros; rfl), foldl_keeps State.mem _ (by intros; rfl)]
      rfl

/-- Settles O27: an entry by the choice made for the unit, and the wakes that end it. -/
theorem powerStates : Obligations.PowerStates := by
  intro s u
  refine ⟨fun hon hrest hawake => ?_, fun hasleep => ⟨?_, ?_⟩, fun hawake => ?_⟩
  · have hgo : ¬ ((!s.mainOn) = true ∨ (!s.mayRest u) = true ∨ s.power.asleep.any (fun a => decide (a.unit = u)) = true) := by
      simp [State.mainOn, hon, hrest, hawake]
    refine ⟨fun hnone => congrArg Host.Outcome.next ((if_neg hgo).trans (by rw [hnone])), fun x w hchoice =>
      ⟨_, congrArg Host.Outcome.next ((if_neg hgo).trans (by rw [hchoice])), ?_⟩⟩
    cases u with
    | core n => exact ⟨rfl, rfl, fun n _ => rfl⟩
    | hbm c => exact ⟨rfl, rfl, fun n _ => rfl⟩
    | die c =>
      obtain ⟨hpower, hmem, hcore⟩ := State.sleepDie_frame (s.modPower (fun p => { p with asleep := p.asleep ++ [⟨.die c, x, w⟩] })) c
      exact ⟨congrArg PowerState.asleep hpower, hmem, fun n hn => hcore n (hn c rfl)⟩
  · obtain ⟨hpower, hmem⟩ := State.wakeUnit_frame s u
    exact ⟨_, congrArg Host.Outcome.next (if_pos hasleep), by rw [hpower], hmem⟩
  · obtain ⟨hpower, hmem⟩ := State.wakeUnit_frame s u
    refine ⟨_, congrArg Host.Outcome.next (if_pos hasleep), ?_⟩
    cases u with
    | core n =>
      obtain ⟨cs, hcount⟩ := State.countCore_spec ((s.wakeUnit (.core n)).modPower (fun p => { p with earlyWakes := p.earlyWakes + 1 })) n 0x1D 1
      dsimp only
      rw [hcount]
      simp [hpower, hmem]
    | die c => simp [hpower, hmem]
    | hbm c => simp [hpower, hmem]
  · have hno : ¬ s.power.asleep.any (fun a => decide (a.unit = u)) = true := by simp [hawake]
    exact ⟨congrArg Host.Outcome.next (if_neg hno), congrArg Host.Outcome.next (if_neg hno)⟩

end Sys2Proof.Machine
end

section
/-! SUPPORT. The module's states from outside: quiesce and bring-up, the losses that fault it, insertion and removal (R447, R448, R465, R498 to R500,
R510 to R513). -/

namespace Sys2Proof.Machine

/-! Quiesce and bring-up (R447, R498 to R500) -/

/-- R465: a module that is not OFF is FAULTED once it was asked to. -/
theorem State.enterFaulted_state_of_on {s : State} (hoff : s.modu.state ≠ .off) (cause : Nat) : (s.enterFaulted cause).modu.state = .faulted := by
  by_cases hfaulted : s.modu.state = .faulted
  · rw [show s.enterFaulted cause = s from if_pos (.inl hfaulted), hfaulted]
  · exact State.enterFaulted_state hfaulted hoff cause

/-- A press held during the bring-up acts on the slot alone. -/
theorem State.heldPress_frame (s : State) : s.heldPress.modu = s.modu ∧ s.heldPress.dieMap = s.dieMap ∧ s.heldPress.host = s.host := by
  unfold State.heldPress State.pressButton
  split
  · split <;> exact ⟨rfl, rfl, rfl⟩
  · exact ⟨rfl, rfl, rfl⟩

theorem State.endBringup_spec (s : State) (r : BringupOutcome) (imgs : List (Nat × Image × Nat)) :
    (s.endBringup r imgs).modu.state = .ready ∧ (s.endBringup r imgs).modu.dieOut = r.badDies ∧ (s.endBringup r imgs).dieMap.c = ~~~r.badDies ∧
      (s.endBringup r imgs).modu.bringupResult = 0 ∧ (s.endBringup r imgs).host.linkUp = r.pcieUp := by
  unfold State.endBringup
  extract_lets good cut s1 s2 ms s3 s4 s5
  obtain ⟨hmodu, hdies, hhost⟩ := State.heldPress_frame (s5.setModState .ready)
  rw [hmodu, hdies, hhost, State.setModState_state, State.setModState_dieMap, State.setModState_linkUp]
  exact ⟨rfl, rfl, rfl, rfl, rfl⟩

theorem State.retryWaits_of_none {s : State} (h : s.mem.waits = []) (q : WaitOrd → Bool) : (s.retryWaits q).mem.boardInit = s.mem.boardInit := by
  unfold State.retryWaits
  rw [h]
  rfl

section
variable {s : State} {r : BringupOutcome} (hup : s.modu.state = .bringup)
include hup

theorem exec_bringupComplete_unverified {c : Nat} (h : s.verifyMain = .error c) : exec (.bringupComplete r) s = .next (s.abandonBringup c) :=
  congrArg Host.Outcome.next ((if_neg (not_not.2 hup)).trans (by rw [h]))

theorem exec_bringupComplete_fatal {imgs : List (Nat × Image × Nat)} (h : s.verifyMain = .ok imgs) (hbad : r.fatal = true ∨ r.badDies = 0xFF) :
    exec (.bringupComplete r) s = .next ((s.enterFaulted 0x0904).modModu (fun u => { u with bringupResult := 0x0904 })) :=
  congrArg Host.Outcome.next ((if_neg (not_not.2 hup)).trans (by rw [h]; exact if_pos hbad))

theorem exec_bringupComplete_ends {imgs : List (Nat × Image × Nat)} (h : s.verifyMain = .ok imgs) (hgood : ¬ (r.fatal = true ∨ r.badDies = 0xFF)) :
    exec (.bringupComplete r) s = .next (s.endBringup r imgs) :=
  congrArg Host.Outcome.next ((if_neg (not_not.2 hup)).trans (by rw [h]; exact if_neg hgood))
end

/-- Settles O30: the two steps of a quiesce, the three outcomes of a bring-up, and board memory. -/
theorem moduleStates : Obligations.ModuleStates := by
  intro s
  refine ⟨fun hstate hq => ⟨_, congrArg Host.Outcome.next (if_pos ⟨hstate, hq⟩), rfl⟩,
    fun hstate hq => ⟨_, congrArg Host.Outcome.next (if_pos ⟨hstate, hq⟩), ?_⟩,
    fun r c hup hverify => ⟨_, exec_bringupComplete_unverified hup hverify, ?_⟩,
    fun r imgs hup hverify hbad => ⟨_, exec_bringupComplete_fatal hup hverify hbad, State.enterFaulted_state_of_on (by simp [hup]) _, rfl⟩,
    fun r imgs hup hverify hwhole hdies => ⟨_, exec_bringupComplete_ends hup hverify (not_or.2 ⟨by simp [hwhole], hdies⟩), State.endBringup_spec s r imgs⟩,
    fun c f hon hwaits => ⟨_, congrArg Host.Outcome.next (if_neg (by simp [State.mainOn, hon])), ?_⟩⟩
  · rw [State.setModState_state, State.setModState_plug]
    exact ⟨rfl, (State.mainOff_spec s).1, rfl, rfl⟩
  · unfold State.abandonBringup
    dsimp only
    rw [State.setModState_state, State.setModState_plug]
    exact ⟨rfl, (State.mainOff_spec (s.verifyFailed c)).1, rfl⟩
  · rw [State.retryWaits_of_none (by exact hwaits)]
    exact Tab.get_set_listed (by simp) _ _

/-! Losses (R465) -/

/-- A loss of a die of the memory side or of the I/O side marks it in the die map and faults the module. -/
theorem exec_lossOfMemorySideDie_faults {s : State} {die : Byte} (hon : s.plug.mainOn = true) (hlow : 8 ≤ die.toNat) (hhigh : die.toNat < 14) :
    ∃ map : DieMap, exec (.lossOfMemorySideDie die) s = .next (({ s with dieMap := map } : State).enterFaulted 0x0904) := by
  have hgo : ¬ ((!s.mainOn) = true ∨ die.toNat < 8 ∨ 14 ≤ die.toNat) := by
    rintro (hoff | hd | hd)
    · simp [State.mainOn, hon] at hoff
    · omega
    · omega
  exact ⟨_, congrArg Host.Outcome.next (if_neg hgo)⟩

/-- An error of a link that is not a mesh link is recorded and faults the module. -/
theorem exec_pathError_faults {s : State} {link : PathLink} (hon : s.plug.mainOn = true) (hlink : ∀ n, link ≠ .mesh n) (flits : W32) :
    exec (.pathError link flits) s = .next ((s.report ⟨0x0410, (linkUnit link).2, 0xFF, (linkUnit link).1, .module,
      pathDetail (linkUnit link).1 flits⟩).enterFaulted 0x0410) := by
  have hgo : ¬ (!s.mainOn) = true := by simp [State.mainOn, hon]
  cases link with
  | mesh n => exact absurd rfl (hlink n)
  | edge c => exact congrArg Host.Outcome.next (if_neg hgo)
  | segment k => exact congrArg Host.Outcome.next (if_neg hgo)

/-- Settles O31: each loss as an entry to FAULTED. -/
theorem faultedEntry : Obligations.FaultedEntry := by
  intro s hon hfaulted hoff
  have hpath (link : PathLink) (hlink : ∀ n, link ≠ .mesh n) (flits : W32) : ∃ t, exec (.pathError link flits) s = .next t ∧ t.modu.state = .faulted :=
    ⟨_, exec_pathError_faults hon hlink flits, State.enterFaulted_state (by rwa [State.report_modu]) (by rwa [State.report_modu]) _⟩
  refine ⟨?_, fun die hlow hhigh => ?_, fun c flits => hpath _ (by simp) flits, fun k flits => hpath _ (by simp) flits⟩
  · have hexec : exec .rootPllLoss s = .next ((s.modClock (fun c => { c with rootLock := false })).enterFaulted 0x0904) :=
      congrArg Host.Outcome.next (if_pos hon)
    exact ⟨_, hexec, State.enterFaulted_state (by exact hfaulted) (by exact hoff) _⟩
  · obtain ⟨map, hexec⟩ := exec_lossOfMemorySideDie_faults hon hlow hhigh
    exact ⟨_, hexec, State.enterFaulted_state (by exact hfaulted) (by exact hoff) _⟩

/-! Insertion, the attention button and removal (R448, R510 to R513) -/

theorem State.retireListed_up (s : State) : s.retireListed.ward.up = s.ward.up := by
  have hframe (t : State) (f : Nat) (e : FrameEnt) : (t.setFrame f e).ward.up = t.ward.up := by
    unfold State.setFrame
    dsimp only
    split <;> rfl
  exact foldl_keeps (fun t : State => t.ward.up) _ (fun t f => hframe t f _) _ s

theorem State.chooseRoot_up (s : State) : s.chooseRoot.ward.up = s.ward.up := by
  unfold State.chooseRoot
  extract_lets
  split
  · rfl
  · split
    · rfl
    · extract_lets
      split <;> rfl

/-- A bring-up leaves the warden running. -/
theorem State.startBringup_up (s : State) : s.startBringup.ward.up = s.ward.up := by
  unfold State.startBringup
  extract_lets s1 enc s2 s3 s4 addr size s5
  rw [State.chooseRoot_up]
  exact (State.retireListed_up s5).trans (State.setModState_up s .bringup)

/-- The warden runs, and its slot knows it. -/
def State.wardenRuns (s : State) : Prop := s.ward.up = true ∧ s.plug.wardenUp = true

theorem State.wardenRuns.requestBringup {s : State} (h : s.wardenRuns) : s.requestBringup.wardenRuns := by
  unfold State.requestBringup
  split
  · exact ⟨(State.startBringup_up s).trans h.1, (congrArg (fun x => x.plug.wardenUp) (State.startBringup_standing s)).trans h.2⟩
  · exact h

theorem State.wardenRuns.askBringup {s : State} (h : s.wardenRuns) (hstate : s.modu.state = .standby) : s.askBringup.1.wardenRuns := by
  unfold State.askBringup
  rw [hstate]
  dsimp only
  split
  · exact h
  · exact h.requestBringup

theorem State.wardenRuns.setModState {s : State} (h : s.wardenRuns) (m : ModState) : (s.setModState m).wardenRuns :=
  ⟨(State.setModState_up s m).trans h.1, by rw [State.setModState_plug]; exact h.2⟩

theorem State.wardenRuns.loadStore {s : State} (h : s.wardenRuns) (a b : Bool) : (s.loadStore a b).wardenRuns := by
  unfold State.loadStore
  split
  · exact h
  · extract_lets image
    exact ⟨(State.report_up _ _).trans h.1, by rw [State.report_plug]; exact h.2⟩

theorem State.wardenRuns.latchSlot {s : State} (h : s.wardenRuns) : s.latchSlot.wardenRuns := by
  unfold State.latchSlot
  split <;> exact h

theorem State.latchSlot_modu (s : State) : s.latchSlot.modu = s.modu := by
  unfold State.latchSlot
  split <;> rfl

/-- The state in which the warden has just come up. -/
def State.wardenStarted (s : State) : State := ((s.modPlug (fun p => { p with wardenUp := true })).modWard (fun w => { w with up := true })).latchSlot

theorem State.wardenStarted_runs (s : State) : s.wardenStarted.wardenRuns := State.wardenRuns.latchSlot ⟨rfl, rfl⟩

theorem exec_wardenReady_starts {s : State} {a b : Bool} (hrails : s.plug.standbyRails = true) (hdown : s.plug.wardenUp = false) :
    exec (.wardenReady a b) s = .next (if s.ward.recovery then s.wardenStarted
      else if (((s.wardenStarted.loadStore a b).measureEntries).setModState .standby).dictVal 0x2100 2 = 1 then
        (((s.wardenStarted.loadStore a b).measureEntries).setModState .standby).askBringup.1
      else ((s.wardenStarted.loadStore a b).measureEntries).setModState .standby) :=
  congrArg Host.Outcome.next (if_neg (by simp [hrails, hdown]))

/-- The standby rails boot the warden by the image that is picked. -/
theorem State.bootWarden_of_ok {s : State} {i : Image} {b : Nat} (h : s.pickImage 1 = .ok (i, b)) :
    s.bootWarden = ((((s.runImage 1 i b).activated (fun c => decide (c = 1))).measureBoot).modSec (fun x => { x with
      nonce := Config.random s.draws })).draw.modWard (fun w => { w with recovery := false }) := by
  unfold State.bootWarden
  rw [h]

/-- With no image to pick the recovery loader runs. -/
theorem State.bootWarden_of_error {s : State} {c : Nat} (h : s.pickImage 1 = .error c) :
    s.bootWarden = (s.verifyFailed c).modWard (fun w => { w with recovery := true }) := by
  unfold State.bootWarden
  rw [h]

@[simp] theorem State.measureAs_plug (s : State) (i : Nat) (d : BitVec 384) : (s.measureAs i d).plug = s.plug := rfl

@[simp] theorem State.activated_plug (s : State) (q : Nat → Bool) : (s.activated q).plug = s.plug := rfl

/-- The boot of the warden measures and draws; the slot is as it was. -/
theorem State.bootWarden_plug (s : State) : s.bootWarden.plug = s.plug := by
  cases h : s.pickImage 1 with
  | ok x =>
    simp only [State.bootWarden_of_ok h, State.measureBoot, State.runImage, State.modWard_plug, State.draw_plug, State.modSec_plug,
      State.measureAs_plug, State.activated_plug]
  | error c => rw [State.bootWarden_of_error h]; exact State.report_plug ..

/-- The image that is picked runs with a new nonce. -/
theorem State.bootWarden_fresh {s : State} {i : Image} {b : Nat} (h : s.pickImage 1 = .ok (i, b)) :
    s.bootWarden.ward.recovery = false ∧ s.bootWarden.sec.nonce = Config.random s.draws := by
  rw [State.bootWarden_of_ok h]
  simp only [State.measureBoot, State.runImage, State.modWard_ward, State.modWard_sec, State.draw_sec, State.modSec_sec, and_self]

theorem State.startQuiesce_spec (s : State) : s.startQuiesce.modu.state = .quiescing ∧ s.startQuiesce.plug.buttonPending = false ∧
    s.startQuiesce.plug.ledBlink = false := by
  unfold State.startQuiesce
  rw [State.setModState_state, State.setModState_plug]
  exact ⟨rfl, rfl, rfl⟩

/-- Settles O32: each event of the slot in the states that take it. -/
theorem hotPlug : Obligations.HotPlug := by
  intro s
  refine ⟨fun hover => congrArg Host.Outcome.next (if_neg (by simp [hover])), fun hpre hover => congrArg Host.Outcome.next (if_pos ⟨hpre, by simp [hover]⟩),
    fun hsoft hrails => ?_, fun a b hrails hdown => ?_, fun hup => exec_attentionButton_of_bringup hup, fun hstate hpending => ?_,
    fun hstate hpending => ?_, fun pins hwarden hslot hwait => ?_, fun low hon => ?_, fun hoff => congrArg Host.Outcome.next (if_neg (by simp [State.mainOn, hoff])),
    fun pwr att => ⟨_, rfl, rfl, rfl, rfl, rfl, rfl⟩⟩
  · refine ⟨_, congrArg Host.Outcome.next (if_pos ⟨hsoft, by simp [hrails]⟩), by rw [State.bootWarden_plug]; rfl, fun i b h => ?_, fun c h => ?_⟩
    · exact State.bootWarden_fresh (s := s.modPlug (fun p => { p with standbyRails := true })) h
    · rw [State.bootWarden_of_error (s := s.modPlug (fun p => { p with standbyRails := true })) h]
      rfl
  · refine ⟨_, exec_wardenReady_starts hrails hdown, ?_⟩
    cases hrec : s.ward.recovery with
    | true => exact ⟨s.wardenStarted_runs.1, s.wardenStarted_runs.2, fun _ => congrArg ModuleState.state (State.latchSlot_modu _)⟩
    | false =>
      have hruns : ((s.wardenStarted.loadStore a b).measureEntries.setModState .standby).wardenRuns :=
        State.wardenRuns.setModState (s := (s.wardenStarted.loadStore a b).measureEntries) (s.wardenStarted_runs.loadStore a b) .standby
      have hask := hruns.askBringup (State.state_setModState _ .standby)
      rw [if_neg (by decide)]
      split
      · exact ⟨hask.1, hask.2, fun h => absurd h (by decide)⟩
      · exact ⟨hruns.1, hruns.2, fun h => absurd h (by decide)⟩
  · have hpress : State.pressButton (s.emit .attentionEvent) = (s.emit .attentionEvent).modPlug (fun p => { p with buttonPending := true, ledBlink := true }) :=
      if_neg (by rw [State.emit_plug]; simp [hpending])
    rcases hstate with hstate | hstate
    · simp only [exec, execAttentionButton, hstate, hpress]
      rfl
    · simp only [exec, execAttentionButton, hstate, hpress]
      rfl
  · exact ⟨_, congrArg Host.Outcome.next ((if_pos hpending).trans (if_pos hstate)), State.startQuiesce_spec s⟩
  · have hlatch : (s.modPlug (fun p => { p with presence := true, slotPins := pins })).latchSlot =
        { s with plug := { s.plug with presence := true, slotPins := pins, slot := some pins } } := if_pos ⟨rfl, hwarden, hslot⟩
    have hexec : exec (.presenceClose pins) s = .next (if (s.modPlug (fun p => { p with presence := true, slotPins := pins })).latchSlot.plug.waitingBringup
        then (s.modPlug (fun p => { p with presence := true, slotPins := pins })).latchSlot.startBringup
        else (s.modPlug (fun p => { p with presence := true, slotPins := pins })).latchSlot) := rfl
    rw [hexec, hlatch]
    exact congrArg Host.Outcome.next (if_neg (by simp [hwait]))
  · have hoff : exec (.surpriseRemoval low) s = .next ((s.powerOff { PlugState.reset with
        precharge := true, presence := s.plug.presence && low, slotPins := s.plug.slotPins, transmittersOff := s.mainOn }).modPower
          (fun p => { p with fastFalls := s.power.fastFalls + 1 })) := congrArg Host.Outcome.next (if_pos (.inl hon))
    exact ⟨_, hoff, rfl, rfl, hon, rfl, rfl, rfl, rfl⟩

end Sys2Proof.Machine
end

section
/-! SUPPORT. Partitions form, re-form and dissolve, and a die leaves service (R362 to R367, R224). -/

namespace Sys2Proof.Machine

/-! What a reset of cores leaves: the partitions and where images of frame tables are placed -/

/-- The partitions, and the places of the images of the frame tables. -/
def State.shares (s : State) : Vector Part 8 × Tab W64 := (s.parts, s.mem.ftBase)

theorem State.part_of_shares {s t : State} (h : s.shares = t.shares) (p : PartNo) : s.part p = t.part p := by
  unfold State.part
  rw [show s.parts = t.parts from congrArg Prod.fst h]

theorem State.report_shares (s : State) (r : Report) : (s.report r).shares = s.shares := by
  unfold State.shares
  rw [State.report_parts, State.report_mem]

theorem State.dropToken_shares (s : State) (n : CoreNo) : (s.dropToken n).shares = s.shares := by
  obtain ⟨m, h⟩ := State.dropToken_spec s n
  rw [h]
  rfl

theorem State.softResetCore_shares (s : State) (n : CoreNo) : (s.softResetCore n).shares = s.shares := by
  unfold State.softResetCore
  dsimp only
  split
  · rfl
  · exact State.dropToken_shares s n

theorem State.atBoundary_shares (s : State) (n : CoreNo) : (s.atBoundary n).shares = s.shares := by
  unfold State.atBoundary
  split
  · exact (State.report_shares _ _).trans (State.dropToken_shares (s.detachCore n) n)
  · rfl

theorem State.forceReset_shares (s : State) (n : CoreNo) : (s.forceReset n).shares = s.shares := by
  unfold State.forceReset
  dsimp only
  split
  · rfl
  · exact (State.atBoundary_shares _ n).trans (State.softResetCore_shares s n)

theorem State.resetCores_shares (s : State) (ns : List CoreNo) : (s.resetCores ns).shares = s.shares :=
  foldl_keeps State.shares State.forceReset State.forceReset_shares ns s

theorem State.scrambleShares_shares (s : State) (ds : List CDie) : (s.scrambleShares ds).shares = s.shares :=
  foldl_keeps State.shares _ (fun _ _ => by rfl) ds s

theorem State.bindCores_part (s : State) (ns : List CoreNo) (q : Option PartNo) (p : PartNo) : (s.bindCores ns q).part p = s.part p := by
  refine foldl_keeps (fun t : State => t.part p) _ (fun t n => ?_) ns s
  rfl

theorem State.imageTable_parts (s : State) (i : Nat) (c : CDie) : (s.imageTable i c).parts = s.parts := by
  unfold State.imageTable
  dsimp only
  split <;> rfl

/-- A share whose frame table has no image placed leaves memory as it was. -/
theorem State.imageTable_of_unplaced {s : State} {i : Nat} {c : CDie} (h : Tab.get 0 s.mem.ftBase (shareKeyOf i c) = 0) : s.imageTable i c = s := by
  unfold State.imageTable
  rw [h]
  rfl

theorem State.freeShares_parts (s : State) (ds : List CDie) : (s.freeShares ds).parts = s.parts :=
  foldl_keeps State.parts _ (fun t c => foldl_keeps State.parts _ (fun u i => State.imageTable_parts u i c) [0, 1, 2] t) ds _

/-- No image of a frame table of these dies is placed in unified memory. -/
def State.unplaced (s : State) (ds : List CDie) : Prop := ∀ c ∈ ds, ∀ i ∈ [0, 1, 2], Tab.get 0 s.mem.ftBase (shareKeyOf i c) = 0

theorem foldl_imageTable_of_unplaced {s : State} {ds : List CDie} (h : s.unplaced ds) :
    ds.foldl (fun t c => [0, 1, 2].foldl (fun (t : State) i => t.imageTable i c) t) s = s := by
  induction ds with
  | nil => rfl
  | cons c ds ih =>
    have hc : [0, 1, 2].foldl (fun (t : State) i => t.imageTable i c) s = s := by
      have one : ∀ i ∈ [0, 1, 2], s.imageTable i c = s := fun i hi => State.imageTable_of_unplaced (h c (by simp) i hi)
      simp only [List.foldl_cons, List.foldl_nil, one 0 (by simp), one 1 (by simp), one 2 (by simp)]
    rw [List.foldl_cons, hc]
    exact ih (fun d hd => h d (List.mem_cons_of_mem c hd))

theorem State.freeShares_cells {s : State} {ds : List CDie} (h : s.unplaced ds) : (s.freeShares ds).mem.cells = s.mem.cells := by
  unfold State.freeShares
  extract_lets hit t
  rw [foldl_imageTable_of_unplaced (s := t) h]
  rfl

/-! The HBM of the dies that join (R362) -/

/-- The HBM of these dies lists no byte, so every byte of it reads 0. -/
def State.hbmZero (s : State) (ds : List CDie) : Prop := ∀ e ∈ s.mem.cells, inShares ds 0 1 e.1 = false

/-- What a splice lists it listed before, or it lies in the stretch. -/
theorem Cells.mem_splice {w : Nat} {m sl : Cells w} {a n : Nat} {e : Nat × BitVec w} (h : e ∈ m.splice a n sl) : e ∈ m ∨ a ≤ e.1 := by
  unfold Cells.splice at h
  rcases List.mem_append.1 h with h | h
  · rcases List.mem_append.1 h with h | h
    · exact .inl (List.mem_filter.1 h).1
    · obtain ⟨x, -, rfl⟩ := List.mem_map.1 h
      exact .inr (Nat.le_add_left a x.1)
  · exact .inl (List.mem_filter.1 h).1

/-- The shares of DRAM and of flash lie above every share of HBM. -/
theorem shareBase_hbm_le {t : Nat} (ht : t = 1 ∨ t = 2) (c d : CDie) : shareBase 0 d + shareStep 0 ≤ shareBase t c := by
  have hd : d.val < 8 := d.isLt
  have hhbm : shareBase 0 d + shareStep 0 ≤ 0x2000000 := by
    show 0 + d.val * 0x240000 + 0x240000 ≤ 0x2000000
    omega
  refine hhbm.trans ?_
  rcases ht with rfl | rfl
  · exact Nat.le_add_right _ _
  · exact (show 0x2000000 ≤ 0x40000000 by decide).trans (Nat.le_add_right _ _)

theorem inShares_hbm_of_le {t : Nat} (ht : t = 1 ∨ t = 2) {ds : List CDie} {c : CDie} {k : Nat} (hk : 65536 * shareBase t c ≤ k) :
    inShares ds 0 1 k = false := by
  unfold inShares
  rw [List.any_eq_false]
  intro d _
  have hle := (Nat.mul_le_mul_left 65536 (shareBase_hbm_le ht c d)).trans hk
  simp only [Bool.and_eq_true, decide_eq_true_eq, not_and, Nat.not_lt]
  intro _
  calc (shareBase 0 d + shareStep 0) * 65536 = 65536 * (shareBase 0 d + shareStep 0) := Nat.mul_comm ..
    _ ≤ k := hle
    _ = k * 1 := (Nat.mul_one k).symm

theorem State.hbmZero.loseBytes {s : State} {ds : List CDie} (h : s.hbmZero ds) {t : Nat} (ht : t = 1 ∨ t = 2) (c : CDie) : (s.loseBytes t c).hbmZero ds := by
  intro e he
  unfold State.loseBytes at he
  rcases Cells.mem_splice he with hbefore | habove
  · exact h e hbefore
  · exact inShares_hbm_of_le ht habove

theorem State.hbmZero.scrambleShares {s : State} {ds : List CDie} (h : s.hbmZero ds) (l : List CDie) : (s.scrambleShares l).hbmZero ds := by
  unfold State.scrambleShares
  induction l generalizing s with
  | nil => exact h
  | cons c l ih => exact ih ((h.loseBytes (.inl rfl) c).loseBytes (.inr rfl) c)

theorem State.zeroShares_hbmZero (s : State) (ds : List CDie) : (s.zeroShares ds).hbmZero ds := fun e he => by
  have hout := (List.mem_filter.1 (show e ∈ s.mem.cells.filter (fun e => !inShares ds 0 1 e.1) from he)).2
  simpa using hout

/-- R362: dies that join have their cores reset and their HBM zeroed; the partitions are as they were. -/
theorem State.joinDies_spec (s : State) (ds : List CDie) :
    (∀ p, (s.joinDies ds).part p = s.part p) ∧ (s.unplaced ds → (s.joinDies ds).hbmZero ds) := by
  unfold State.joinDies
  extract_lets ns pw awake wake up
  have hup : up.shares = s.shares := foldl_keeps State.shares _ (fun _ _ => by rfl) ns awake
  have hreset : (up.resetCores ns).shares = s.shares := (State.resetCores_shares up ns).trans hup
  generalize up.resetCores ns = u at hreset
  have hscramble := State.scrambleShares_shares (u.zeroShares ds) ds
  refine ⟨fun p => ?_, fun h => ?_⟩
  · unfold State.part
    rw [State.freeShares_parts]
    exact State.part_of_shares (hscramble.trans hreset) p
  · have hplaced : ((u.zeroShares ds).scrambleShares ds).unplaced ds := by
      intro c hc i hi
      rw [show ((u.zeroShares ds).scrambleShares ds).mem.ftBase = s.mem.ftBase from congrArg Prod.snd (hscramble.trans hreset)]
      exact h c hc i hi
    intro e he
    rw [State.freeShares_cells hplaced] at he
    exact (u.zeroShares_hbmZero ds).scrambleShares ds e he

/-! Quotas, leaves and the end of a partition -/

theorem State.quotaCheck_of_fits {s : State} {p : PartNo} {i : Nat} (h : s.quotaFits p i = true) : s.quotaCheck p i = s := if_pos (.inr h)

/-- R224: with the quotas of each tier fitting, the check leaves the state as it is. -/
theorem State.quotaChecks_of_fits {s : State} {p : PartNo} (h : ∀ i ∈ [0, 1, 2], s.quotaFits p i = true) : s.quotaChecks p = s := by
  have one : ∀ i ∈ [0, 1, 2], s.quotaCheck p i = s := fun i hi => State.quotaCheck_of_fits (h i hi)
  simp only [State.quotaChecks, List.foldl_cons, List.foldl_nil, one 0 (by simp), one 1 (by simp), one 2 (by simp)]

/-- R364: the entries of the dies that go are poisoned and counted; of the partition nothing else changes. -/
theorem State.poisonLeaves_part (s : State) (p : PartNo) (ds : List CDie) :
    ∃ k, (s.poisonLeaves p ds).part p = { s.part p with poisonedEntries := k } := by
  unfold State.poisonLeaves
  extract_lets es
  refine ⟨BitVec.ofNat 32 es.length, ?_⟩
  rw [State.part_modPart, if_pos rfl, foldl_keeps (fun t : State => t.part p) _ (fun _ _ => by rfl) es s]

theorem State.dissolve_part (s : State) (p : PartNo) :
    ((s.dissolve p).part p).mode = .unformed ∧ ((s.dissolve p).part p).dies = 0 ∧ ((s.dissolve p).part p).keyInstalled = false := by
  unfold State.dissolve
  extract_lets ns s1 s2 sec s4
  have hpart : (s1.modPart p (fun x => { x with dies := 0, forming := none, keyInstalled := false })).part p =
      { s1.part p with dies := 0, forming := none, keyInstalled := false } := (State.part_modPart ..).trans (if_pos rfl)
  have hmode : s2.part p = { s1.part p with dies := 0, forming := none, keyInstalled := false, mode := .unformed } := by
    refine (State.setPartMode_part _ p p .unformed).trans ((if_pos rfl).trans ?_)
    rw [hpart]
  have hs4 : s4.part p = s2.part p := rfl
  clear_value s4
  have hlast : (((s4.modRuling p fun _ => Ruling.reset).modMem fun m => { m with
      wb := m.wb.filter (fun w => decide (w.part ≠ p)), moves := m.moves.filter (fun w => decide (w.part ≠ p)),
      waits := m.waits.filter (fun w => decide (w.part ≠ p)), walks := m.walks.filter (fun w => decide (w.part ≠ p)) }).part p) = s4.part p := rfl
  rw [hlast, hs4, hmode]
  exact ⟨rfl, rfl, rfl⟩

/-! Formation and re-formation, case by case -/

theorem State.formPart_of_formed {s : State} {p : PartNo} (h : (s.part p).mode ≠ .unformed) : s.formPart p = (s, wmpState) := if_pos (.inl h)

theorem State.formPart_of_idle {s : State} {p : PartNo} (hmode : (s.part p).mode = .unformed) (hform : (s.part p).forming = none) :
    s.formPart p = if !s.legalMask p (s.part p).maskNext then (s.modPart p (fun x => { x with formResult := 0x0405 }), wmpRange)
      else ((s.joinDies (maskDies (s.part p).maskNext)).modPart p (fun y => { y with forming := some (s.part p).maskNext }), wmpOk) :=
  if_neg (by simp [hmode, hform])

theorem State.bindForm_of_forming {s : State} {p : PartNo} {m : BitVec 8} (hmode : (s.part p).mode = .unformed) (hform : (s.part p).forming = some m)
    (ok : Bool) : s.bindForm p ok = if ok then (((s.modPart p (fun y => { y with dies := m, forming := none, formResult := 0, keyInstalled := true })).bindCores
      ((maskDies m).flatMap coresOfDie) (some p)).setPartMode p .idle).quotaChecks p
      else s.modPart p (fun y => { y with forming := none, formResult := 0x0806 }) := by
  simp only [State.bindForm, hform, hmode]
  cases ok <;> rfl

/-- The state after the dies that go have left the partition. -/
def State.shrunk (s : State) (p : PartNo) : State :=
  (((s.poisonLeaves p (maskDies ((s.part p).dies &&& ~~~(s.part p).maskNext))).bindCores
    ((maskDies ((s.part p).dies &&& ~~~(s.part p).maskNext)).flatMap coresOfDie) none).modPart p
      (fun y => { y with dies := (s.part p).dies &&& (s.part p).maskNext }))

theorem State.shrunk_part (s : State) (p : PartNo) :
    ((s.shrunk p).part p).mode = (s.part p).mode ∧ ((s.shrunk p).part p).dies = (s.part p).dies &&& (s.part p).maskNext := by
  obtain ⟨k, hk⟩ := State.poisonLeaves_part s p (maskDies ((s.part p).dies &&& ~~~(s.part p).maskNext))
  unfold State.shrunk
  rw [State.part_modPart, if_pos rfl, State.bindCores_part, hk]
  exact ⟨rfl, rfl⟩

theorem State.reformPart_of_same {s : State} {p : PartNo} (h : (s.part p).maskNext = (s.part p).dies) : s.reformPart p = (s, wmpState) :=
  if_pos (.inr (.inr (.inl h)))

theorem State.reformPart_of_legal {s : State} {p : PartNo} (hmode : (s.part p).mode = .idle) (hform : (s.part p).forming = none)
    (hnew : (s.part p).maskNext ≠ (s.part p).dies) (hlegal : s.legalMask p (s.part p).maskNext = true) :
    s.reformPart p = if maskDies ((s.part p).maskNext &&& ~~~(s.part p).dies) = [] then
        (((s.shrunk p).modPart p (fun y => { y with formResult := 0 })).quotaChecks p, wmpOk)
      else (((s.shrunk p).joinDies (maskDies ((s.part p).maskNext &&& ~~~(s.part p).dies))).modPart p
        (fun y => { y with forming := some (s.part p).maskNext }), wmpOk) :=
  (if_neg (by simp [hmode, hform, hnew])).trans (if_neg (by simp [hlegal]))

/-- Settles O33: each command in the states that refuse it and in those that take it. -/
theorem partitions : Obligations.Partitions := by
  intro s p
  refine ⟨fun hformed => ?_, fun hmode hform hillegal => ?_, fun hmode hform hlegal => ?_, fun hmode m hform => ?_, fun hmode m hform => ?_, fun hsame => ?_,
    fun hmode hform hnew hlegal => ?_, fun hmode => ?_, fun hidle hopen hctx hindex => ?_, rfl⟩
  · simp only [exec, execPartitionForm, State.formPart_of_formed hformed]
    rfl
  · simp only [exec, execPartitionForm, State.formPart_of_idle hmode hform, hillegal]
    rfl
  · obtain ⟨-, hzero⟩ := State.joinDies_spec s (maskDies (s.part p).maskNext)
    have hpart : (((s.joinDies (maskDies (s.part p).maskNext)).modPart p (fun y => { y with forming := some (s.part p).maskNext })).part p).forming =
        some (s.part p).maskNext := by
      rw [State.part_modPart, if_pos rfl]
    have hform := (State.formPart_of_idle hmode hform).trans (if_neg (by simp [hlegal]))
    simp only [exec, execPartitionForm, hform]
    exact ⟨_, rfl, hpart, hzero⟩
  · refine ⟨_, congrArg Host.Outcome.next (State.bindForm_of_forming hmode hform false), ?_⟩
    rw [if_neg (by decide), State.part_modPart, if_pos rfl]
    exact ⟨hmode, rfl, rfl⟩
  · have hbind : exec (.formBind p true) s = _ := congrArg Host.Outcome.next ((State.bindForm_of_forming hmode hform true).trans (if_pos rfl))
    refine ⟨_, hbind, ?_⟩
    rw [State.setPartMode_part, if_pos rfl, State.bindCores_part, State.part_modPart, if_pos rfl]
    exact ⟨rfl, rfl, rfl, rfl, fun hfits => hbind.trans (congrArg Host.Outcome.next (State.quotaChecks_of_fits hfits))⟩
  · simp only [exec, execPartitionReform, State.reformPart_of_same hsame]
    rfl
  · obtain ⟨hkeep, hdies⟩ := State.shrunk_part s p
    have hreform := State.reformPart_of_legal hmode hform hnew hlegal
    refine ⟨fun hjoin => ?_, fun hjoin => ?_⟩
    · simp only [exec, execPartitionReform, hreform.trans (if_neg hjoin)]
      have hpart : (((s.shrunk p).joinDies (maskDies ((s.part p).maskNext &&& ~~~(s.part p).dies))).modPart p
          (fun y => { y with forming := some (s.part p).maskNext })).part p = { (s.shrunk p).part p with forming := some (s.part p).maskNext } := by
        rw [State.part_modPart, if_pos rfl, (State.joinDies_spec (s.shrunk p) _).1 p]
      exact ⟨_, rfl, (congrArg Part.mode hpart).trans (hkeep.trans hmode), congrArg Part.forming hpart⟩
    · simp only [exec, execPartitionReform, hreform.trans (if_pos hjoin)]
      have hpart : ((s.shrunk p).modPart p (fun y => { y with formResult := 0 })).part p = { (s.shrunk p).part p with formResult := 0 } := by
        rw [State.part_modPart, if_pos rfl]
      exact ⟨_, rfl, (congrArg Part.mode hpart).trans (hkeep.trans hmode), (congrArg Part.dies hpart).trans hdies, congrArg Part.formResult hpart,
        fun hfits => by rw [State.quotaChecks_of_fits hfits]; rfl⟩
  · have hrefused : s.dissolvePart p = (s, wmpState) := if_pos (.inl hmode)
    simp only [exec, execPartitionDissolve, hrefused]
    rfl
  · have htaken : s.dissolvePart p = ((s.dissolve p).modPart p (fun x => { x with formResult := 0 }), wmpOk) := if_neg (by simp [hidle, hopen, hctx, hindex])
    have hpart : ((s.dissolve p).modPart p (fun x => { x with formResult := 0 })).part p = { (s.dissolve p).part p with formResult := 0 } := by
      rw [State.part_modPart, if_pos rfl]
    obtain ⟨hunformed, hnodies, hnokey⟩ := State.dissolve_part s p
    simp only [exec, execPartitionDissolve, htaken]
    exact ⟨_, rfl, (congrArg Part.mode hpart).trans hunformed, (congrArg Part.dies hpart).trans hnodies, (congrArg Part.keyInstalled hpart).trans hnokey⟩

/-! A die out of service (R366, R367) -/

/-- What a core of a die that left becomes. -/
def Core.dieGone (c : Core) : Core := if c.mode = .cut then c else { c.poweredOff with regs := c.regs }

theorem Core.dieGone_mode (c : Core) : c.dieGone.mode = .off ∨ c.dieGone.mode = .cut := by
  unfold Core.dieGone
  split
  · exact .inr ‹_›
  · next hcut => exact .inl (by simp [Core.poweredOff, hcut])

/-- Whatever order the cores of the die are taken in, each of them ends OFF or CUT. -/
theorem State.foldl_dieGone_mode {l : List CoreNo} {n : CoreNo} (s : State) (h : n ∈ l ∨ (s.core n).mode = .off ∨ (s.core n).mode = .cut) :
    ((l.foldl (fun t m => t.modCore m Core.dieGone) s).core n).mode = .off ∨ ((l.foldl (fun t m => t.modCore m Core.dieGone) s).core n).mode = .cut := by
  induction l generalizing s with
  | nil => exact h.resolve_left (List.not_mem_nil)
  | cons m l ih =>
    refine ih (s.modCore m Core.dieGone) ?_
    rw [State.core_modCore]
    by_cases hm : m = n
    · rw [if_pos hm]
      exact .inr (Core.dieGone_mode _)
    · rw [if_neg hm]
      exact h.imp_left (fun hmem => (List.mem_cons.1 hmem).resolve_left (Ne.symm hm))

theorem State.abandonForms_keeps {α : Type} (g : State → α) (hg : ∀ (t : State) (p : PartNo) (f : Part → Part), g (t.modPart p f) = g t) (s : State) (c : CDie) :
    g (s.abandonForms c) = g s := by
  refine foldl_keeps g _ (fun t p => ?_) allParts s
  split
  · split
    · exact hg ..
    · rfl
  · rfl

/-- The state once the map no longer shows the die, before the cores go. -/
def State.dieUnmapped (s : State) (c : CDie) : State :=
  ((({ s with dieMap := { s.dieMap with c := s.dieMap.c &&& ~~~BitVec.ofNat 8 (2 ^ c.val), changed := true } } : State).modModu
    (fun u => { u with dieOut := u.dieOut ||| BitVec.ofNat 8 (2 ^ c.val) })).report
      ⟨0x040D, c.val, partByte (s.partOfDie c), 0x0900 + c.val, .die, []⟩).abandonForms c

theorem State.dieUnmapped_spec (s : State) (c : CDie) :
    (s.dieUnmapped c).dieMap = { s.dieMap with c := s.dieMap.c &&& ~~~BitVec.ofNat 8 (2 ^ c.val), changed := true } ∧
    (s.dieUnmapped c).modu.dieOut = s.modu.dieOut ||| BitVec.ofNat 8 (2 ^ c.val) ∧ ∀ n, (s.dieUnmapped c).core n = s.core n := by
  unfold State.dieUnmapped
  refine ⟨?_, ?_, fun n => ?_⟩
  · rw [State.abandonForms_keeps State.dieMap (fun _ _ _ => by rfl), State.report_dieMap]
    rfl
  · rw [State.abandonForms_keeps State.modu (fun _ _ _ => by rfl), State.report_modu]
    rfl
  · rw [State.abandonForms_keeps (fun t => t.core n) (fun _ _ _ => by rfl), State.report_core]
    rfl

theorem State.dieOut_of_unowned {s : State} {c : CDie} (hmap : s.dieMap.c.getLsbD c.val = true) (hown : s.partOfDie c = none) :
    s.dieOut c = (coresOfDie c).foldl (fun t m => t.modCore m Core.dieGone) (s.dieUnmapped c) := by
  unfold State.dieOut
  rw [if_neg (by simp [hmap])]
  unfold State.dieUnmapped
  rw [hown]
  rfl

theorem CDie.getLsbD_bit (c : CDie) : (BitVec.ofNat 8 (2 ^ c.val)).getLsbD c.val = true := by
  rw [BitVec.getLsbD_ofNat]
  simp [c.isLt, Nat.testBit_two_pow_self]

/-- R366: a die of no partition leaves the map with its cores; no other core changes. -/
theorem State.dieOut_spec {s : State} {c : CDie} (hmap : s.dieMap.c.getLsbD c.val = true) (hown : s.partOfDie c = none) :
    (s.dieOut c).dieMap.c.getLsbD c.val = false ∧ (s.dieOut c).dieMap.changed = true ∧ (s.dieOut c).modu.dieOut.getLsbD c.val = true ∧
      (∀ n ∈ coresOfDie c, ((s.dieOut c).core n).mode = .off ∨ ((s.dieOut c).core n).mode = .cut) ∧
      ∀ n, n ∉ coresOfDie c → (s.dieOut c).core n = s.core n := by
  obtain ⟨hdies, hout, hcores⟩ := State.dieUnmapped_spec s c
  rw [State.dieOut_of_unowned hmap hown]
  refine ⟨?_, ?_, ?_, fun n hn => State.foldl_dieGone_mode _ (.inl hn), fun n hn => (State.core_foldl_modCore hn _ _).trans (hcores n)⟩
  · rw [foldl_keeps State.dieMap _ (fun _ _ => by rfl), hdies]
    simp only [BitVec.getLsbD_and, BitVec.getLsbD_not, CDie.getLsbD_bit, Bool.not_true, Bool.and_false]
  · rw [foldl_keeps State.dieMap _ (fun _ _ => by rfl), hdies]
  · rw [foldl_keeps State.modu _ (fun _ _ => by rfl), hout]
    simp only [BitVec.getLsbD_or, CDie.getLsbD_bit, Bool.or_true]

theorem State.partOfDie_report (s : State) (r : Report) (c : CDie) : (s.report r).partOfDie c = s.partOfDie c := by
  unfold State.partOfDie State.part
  rw [State.report_parts]

/-- Settles O34: a die that leaves, and the error of a mesh link that takes its die with it. -/
theorem dieLeaves : Obligations.DieLeaves := by
  intro s c
  refine ⟨fun hgone => congrArg Host.Outcome.next (if_pos (by rw [hgone]; rfl)), fun hmap hown => ⟨_, rfl, State.dieOut_spec hmap hown⟩,
    fun hon n flits hmap hown => ?_⟩
  refine ⟨_, congrArg Host.Outcome.next (if_neg (by simp [State.mainOn, hon])), (State.dieOut_spec ?_ ?_).1⟩
  · rw [State.report_dieMap]
    exact hmap
  · rw [State.partOfDie_report]
    exact hown

end Sys2Proof.Machine
end

section
/-! SUPPORT. The rubric harts: HX instructions, waits, accesses and fetches (R102, R104, R105). -/

namespace Sys2Proof.Machine

/-! The registers of a hart -/

theorem State.setRub_setRub (s : State) (k : Fin 24) (x y : Rubric) : (s.setRub k x).setRub k y = s.setRub k y := by
  unfold State.setRub
  rw [Vector.set_set]

theorem State.rub_setRub_self (s : State) (k : Fin 24) (r : Rubric) : (s.setRub k r).rub k = r := (State.rub_setRub ..).trans (if_pos rfl)

theorem State.setRd_modRub (s : State) (k : Fin 24) (f : Rubric → Rubric) (v : Nat) :
    (s.modRub k f).setRd k v = s.setRub k { f (s.rub k) with rd := BitVec.ofNat 64 v } := by
  unfold State.setRd State.modRub
  rw [State.setRub_setRub, State.rub_setRub_self]

/-- An illegal instruction sets the trap of its hart and nothing else of it. -/
theorem State.illegal_rub (s : State) (k : Fin 24) : (s.illegal k).rub k = { s.rub k with trap := some ⟨2, Config.freeW64 s.draws⟩ } :=
  State.rub_setRub_self s.draw k { s.rub k with trap := some ⟨2, Config.freeW64 s.draws⟩ }

theorem State.illegal_cause (s : State) (k : Fin 24) : ((s.illegal k).rub k).trap.map (·.cause) = some 2 := by
  rw [State.illegal_rub]
  rfl

/-- The registers of the hart are as they were. -/
theorem State.illegal_keeps (s : State) (k : Fin 24) : ((s.illegal k).rub k).waitLimit = (s.rub k).waitLimit ∧
    ((s.illegal k).rub k).storeBind = (s.rub k).storeBind ∧ ((s.illegal k).rub k).loadBind = (s.rub k).loadBind ∧
    ((s.illegal k).rub k).rd = (s.rub k).rd := by
  rw [State.illegal_rub]
  exact ⟨rfl, rfl, rfl, rfl⟩

theorem State.touch_of_no_latent {s : State} (h : s.mem.latent = []) (f : Nat) (p : Option PartNo) (a n : Nat) : s.touch f p a n = s :=
  if_pos (by rw [h]; rfl)

/-! An access of a hart in unified memory -/

/-- An address that the hart may reach, with nothing wrong along it. -/
structure State.reaches (s : State) (k : Fin 24) (mode : RvMode) (a : W64) (n access : Nat) : Prop where
  notForeign : s.foreign k mode a.toNat n = false
  noFault : s.hartFault a.toNat n access = none

theorem State.hartAccess_of_foreign {s : State} {k : Fin 24} {mode : RvMode} {a : W64} {n : Nat} (h : s.foreign k mode a.toNat n = true) (access : Nat)
    (body : State → State) : s.hartAccess k mode a n access body = s.trap k (accessCause access) a := if_pos h

theorem State.reaches.hartAccess {s : State} {k : Fin 24} {mode : RvMode} {a : W64} {n access : Nat} (h : s.reaches k mode a n access) (body : State → State) :
    s.hartAccess k mode a n access body = body s := by
  unfold State.hartAccess
  rw [if_neg (by simp [h.notForeign]), h.noFault]

/-- A load of bytes none of which is poisoned goes on with them. -/
theorem State.reaches.hartLoad {s : State} {k : Fin 24} {mode : RvMode} {a : W64} {n : Nat} (h : s.reaches k mode a n 0) (hsnap : s.hartSnapGone k = false)
    (hlatent : s.mem.latent = []) (hclean : (s.readUa (s.hartView k) a.toNat n).2 = false) (f : State → List Byte → State) :
    s.hartLoad k mode a n f = f s (s.readUa (s.hartView k) a.toNat n).1 := by
  unfold State.hartLoad
  rw [h.hartAccess, if_neg (by simp [hsnap])]
  dsimp only
  rw [State.touch_of_no_latent hlatent, if_neg (by simp [hclean])]

/-- R105: a load of a poisoned byte is recorded and traps. -/
theorem State.reaches.hartLoad_poisoned {s : State} {k : Fin 24} {mode : RvMode} {a : W64} {n : Nat} (h : s.reaches k mode a n 0)
    (hsnap : s.hartSnapGone k = false) (hlatent : s.mem.latent = []) (hbad : (s.readUa (s.hartView k) a.toNat n).2 = true) (f : State → List Byte → State) :
    s.hartLoad k mode a n f =
      (s.report ⟨0x0205, (dieOfHart k).val, partByte (s.hartPart k), unitRubric k, .operation, u64s [a.toNat]⟩).trap k 5 a := by
  unfold State.hartLoad
  rw [h.hartAccess, if_neg (by simp [hsnap])]
  dsimp only
  rw [State.touch_of_no_latent hlatent, if_pos hbad]

/-! The HX instructions (R104) -/

theorem exec_hxCcmd_of_mode {s : State} {k : Fin 24} {mode : RvMode} (hup : s.hartUp k = true) (a b : W64) :
    exec (.hxCcmd k mode a b) s = .next (if !hxMode mode then s.illegal k else if 2 ^ 48 ≤ a.toNat then s.trap k 5 a
      else s.hartLoad k mode a 16 (fun t bs =>
        let r := t.ccmd k (modePriv mode) (BitVec.ofNat 128 (ofLeBytes bs)) (bits b.toNat 0 4)
        r.1.setRd k (r.2.1 + 256 * r.2.2))) := congrArg Host.Outcome.next (if_neg (by simp [hup]))

theorem exec_hxWaitev_of_mode {s : State} {k : Fin 24} {mode : RvMode} (hup : s.hartUp k = true) (a : W64) :
    exec (.hxWaitev k mode a) s = .next (if !hxMode mode then s.illegal k else match s.waitEnds k a with
      | some v => s.setRd k v
      | none => s.modRub k (fun r => { r with waitLimit := some a })) := congrArg Host.Outcome.next (if_neg (by simp [hup]))

theorem exec_hxFset_of_mode {s : State} {k : Fin 24} {mode : RvMode} (hup : s.hartUp k = true) (a : W64) :
    exec (.hxFset k mode a) s = .next (if !hxMode mode then s.illegal k
      else if a = 0 then (s.modRub k (fun x => { x with storeBind := 0, loadBind := 0 })).setRd k (s.rub k).storeBind.toNat
      else if bits a.toNat 62 2 = 2 then (s.modRub k (fun x => { x with storeBind := a })).setRd k (s.rub k).storeBind.toNat
      else if bits a.toNat 62 2 = 1 then (s.modRub k (fun x => { x with loadBind := a })).setRd k (s.rub k).loadBind.toNat
      else s.illegal k) := congrArg Host.Outcome.next (if_neg (by simp [hup]))

/-- A binding names its kind in its two upper bits, so it is not 0. -/
theorem ne_zero_of_bindKind {a : W64} {n : Nat} (h : bits a.toNat 62 2 = n) (hn : n ≠ 0) : a ≠ 0 := by
  rintro rfl
  exact hn h.symm

/-- What a wait returns once an event of the hart is pending, or once its limit has passed. -/
theorem State.waitEnds_of_event {s : State} {k : Fin 24} {n : CoreNo} (h : allCores.find? (fun n => (s.core n).ev.pending && (s.core n).ev.irqEn &&
    decide ((s.core n).ev.target.toNat = k.val)) = some n) (l : W64) : s.waitEnds k l = some n.val := by
  unfold State.waitEnds
  dsimp only
  rw [h]

theorem State.waitEnds_of_quiet {s : State} {k : Fin 24} (h : allCores.find? (fun n => (s.core n).ev.pending && (s.core n).ev.irqEn &&
    decide ((s.core n).ev.target.toNat = k.val)) = none) (l : W64) :
    s.waitEnds k l = if l ≠ 0 ∧ l.toNat ≤ s.clock.time.toNat then some (2 ^ 64 - 1) else none := by
  unfold State.waitEnds
  dsimp only
  rw [h]
  rfl

/-- Settles O35: each HX instruction in the modes that permit it and in the others. -/
theorem hxInstructions : Obligations.HxInstructions := by
  intro s k mode a hup
  obtain ⟨hlimitKept, hstoreKept, hloadKept, -⟩ := s.illegal_keeps k
  refine ⟨fun hmode b => ⟨?_, ?_, ?_⟩, fun hmode => ?_, fun hlow hforeign hfault hsnap hlatent => ?_⟩
  · exact ⟨_, (exec_hxCcmd_of_mode hup a b).trans (congrArg Host.Outcome.next (if_pos (by simp [hmode]))), s.illegal_cause k, rfl, rfl⟩
  · exact ⟨_, (exec_hxWaitev_of_mode hup a).trans (congrArg Host.Outcome.next (if_pos (by simp [hmode]))), s.illegal_cause k, hlimitKept⟩
  · exact ⟨_, (exec_hxFset_of_mode hup a).trans (congrArg Host.Outcome.next (if_pos (by simp [hmode]))), s.illegal_cause k, hstoreKept⟩
  · have hfset (x : W64) := (exec_hxFset_of_mode (mode := mode) hup x).trans (congrArg Host.Outcome.next (if_neg (by simp [hmode])))
    have hwait := (exec_hxWaitev_of_mode (mode := mode) hup a).trans (congrArg Host.Outcome.next (if_neg (by simp [hmode])))
    refine ⟨?_, fun hkind => ?_, fun hkind => ?_, fun hzero hload hstore => ?_, fun n hevent => ?_, fun hquiet => ⟨fun hpast => ?_, fun hahead => ?_⟩,
      fun b hlow hforeign hfault hsnap hlatent hclean => ?_⟩
    · rw [hfset, if_pos rfl, State.setRd_modRub]
    · rw [hfset, if_neg (ne_zero_of_bindKind hkind (by decide)), if_pos hkind, State.setRd_modRub]
    · rw [hfset, if_neg (ne_zero_of_bindKind hkind (by decide)), if_neg (by rw [hkind]; decide), if_pos hkind, State.setRd_modRub]
    · exact ⟨_, (hfset a).trans (congrArg Host.Outcome.next ((if_neg hzero).trans ((if_neg hstore).trans (if_neg hload)))), s.illegal_cause k,
        hstoreKept, hloadKept⟩
    · rw [hwait, State.waitEnds_of_event hevent]
      rfl
    · rw [hwait, State.waitEnds_of_quiet hquiet, if_pos hpast]
      rfl
    · rw [hwait, State.waitEnds_of_quiet hquiet, if_neg (by rintro ⟨hne, hle⟩; exact hahead.elim hne (fun hlt => absurd hle (Nat.not_le.2 hlt)))]
      rfl
    · intro mask r
      rw [exec_hxCcmd_of_mode hup, if_neg (by simp [hmode]), if_neg (Nat.not_le.2 hlow),
        (State.reaches.mk hforeign hfault).hartLoad hsnap hlatent hclean]
      rfl
  · refine congrArg Host.Outcome.next ((if_neg (by simp [hup])).trans ((if_neg (Nat.not_le.2 hlow)).trans ?_))
    rw [(State.reaches.mk hforeign hfault).hartAccess, if_neg (by simp [hsnap])]
    dsimp only
    rw [State.touch_of_no_latent hlatent]
    cases (s.gran (s.hartView k) (a.toNat / 64)).poison <;> rfl

/-! What a fetched word is (R104, log 166) -/

/-- The funct3 of an HX instruction. -/
def HxOp.funct3 : HxOp → Nat
  | .ccmd => 1
  | .waitev => 2
  | .ptest => 3
  | .fset => 4

theorem exists_funct3 {b : Nat} (hlo : 1 ≤ b) (hhi : b ≤ 4) : ∃ o : HxOp, b = o.funct3 := by
  match b, hlo, hhi with
  | 1, _, _ => exact ⟨.ccmd, rfl⟩
  | 2, _, _ => exact ⟨.waitev, rfl⟩
  | 3, _, _ => exact ⟨.ptest, rfl⟩
  | 4, _, _ => exact ⟨.fset, rfl⟩

theorem hxWord_of_custom1 {w : Nat} (h : bits w 0 7 = 0x2B) : hxWord w = some none := if_pos h

theorem hxWord_of_custom0 {w : Nat} (h : bits w 0 7 = 0x0B) : hxWord w = if bits w 25 7 ≠ 0 then some none else match bits w 12 3 with
    | 1 => some (some .ccmd)
    | 2 => some (some .waitev)
    | 3 => some (some .ptest)
    | 4 => some (some .fset)
    | _ => some none := (if_neg (by rw [h]; decide)).trans (if_neg (not_not.2 h))

theorem hxWord_of_other {w : Nat} (h1 : bits w 0 7 ≠ 0x2B) (h0 : bits w 0 7 ≠ 0x0B) : hxWord w = none := (if_neg h1).trans (if_pos h0)

theorem hxWord_of_funct3 {w : Nat} (h : bits w 0 7 = 0x0B) (hfunct7 : bits w 25 7 = 0) (o : HxOp) (ho : bits w 12 3 = o.funct3) :
    hxWord w = some (some o) := by
  rw [hxWord_of_custom0 h, if_neg (not_not.2 hfunct7), ho]
  cases o <;> rfl

/-- A word of the custom opcode whose fields name no instruction. -/
theorem hxWord_of_unassigned {w : Nat} (h : bits w 0 7 = 0x0B) (hnone : bits w 25 7 ≠ 0 ∨ bits w 12 3 = 0 ∨ 4 < bits w 12 3) : hxWord w = some none := by
  rw [hxWord_of_custom0 h]
  split
  · rfl
  · next hfunct7 =>
    have hb := hnone.resolve_left hfunct7
    split
    · omega
    · omega
    · omega
    · omega
    · rfl

/-- The two lower bits of an instruction are those of its opcode. -/
theorem mod_four_of_opcode {w n : Nat} (h : bits w 0 7 = n) : w % 4 = n % 4 := by
  have hw : w % 128 = n := h
  omega

theorem State.fetched_of_unassigned {s : State} {w : Nat} (k : Fin 24) (mode : RvMode) (hlong : w % 4 = 3) (h : hxWord w = some none) :
    s.fetched k mode w = s.illegal k := by
  unfold State.fetched
  rw [if_neg (not_not.2 hlong), h]

theorem State.fetched_of_op {s : State} {w : Nat} (k : Fin 24) (mode : RvMode) (hlong : w % 4 = 3) {o : HxOp} (h : hxWord w = some (some o)) :
    s.fetched k mode w = if o.permitted mode then s else s.illegal k := by
  unfold State.fetched
  rw [if_neg (not_not.2 hlong), h]

/-- R104: a word of the custom opcodes that is not permitted raises the illegal-instruction exception. -/
theorem State.fetched_forbidden {s : State} {k : Fin 24} {mode : RvMode} {w : Nat} (h : bits w 0 7 = 0x2B ∨ (bits w 0 7 = 0x0B ∧
    (bits w 25 7 ≠ 0 ∨ bits w 12 3 = 0 ∨ 4 < bits w 12 3 ∨ (bits w 12 3 ≠ 3 ∧ hxMode mode = false)))) : s.fetched k mode w = s.illegal k := by
  rcases h with hop | ⟨hop, h⟩
  · exact State.fetched_of_unassigned k mode (mod_four_of_opcode hop) (hxWord_of_custom1 hop)
  · have hlong : w % 4 = 3 := mod_four_of_opcode hop
    by_cases hnone : bits w 25 7 ≠ 0 ∨ bits w 12 3 = 0 ∨ 4 < bits w 12 3
    · exact State.fetched_of_unassigned k mode hlong (hxWord_of_unassigned hop hnone)
    · have hassigned : bits w 25 7 = 0 ∧ bits w 12 3 ≠ 3 ∧ hxMode mode = false := by
        rcases h with h | h | h | h
        · exact absurd (.inl h) hnone
        · exact absurd (.inr (.inl h)) hnone
        · exact absurd (.inr (.inr h)) hnone
        · exact ⟨not_not.1 (fun h7 => hnone (.inl h7)), h⟩
      obtain ⟨hfunct7, hptest, hmode⟩ := hassigned
      obtain ⟨o, ho⟩ := exists_funct3 (b := bits w 12 3) (by omega) (by omega)
      have hforbidden : o.permitted mode = false := by
        cases o with
        | ptest => exact absurd ho hptest
        | ccmd | waitev | fset => simp [HxOp.permitted, hmode]
      exact (State.fetched_of_op k mode hlong (hxWord_of_funct3 hop hfunct7 o ho)).trans (if_neg (by simp [hforbidden]))

/-- R104: an HX instruction in a mode that permits it runs. -/
theorem State.fetched_permitted {s : State} {k : Fin 24} {mode : RvMode} {w : Nat} (hop : bits w 0 7 = 0x0B) (hfunct7 : bits w 25 7 = 0)
    (h : bits w 12 3 = 3 ∨ (hxMode mode = true ∧ 1 ≤ bits w 12 3 ∧ bits w 12 3 ≤ 4)) : s.fetched k mode w = s := by
  obtain ⟨o, ho⟩ := exists_funct3 (b := bits w 12 3) (by omega) (by omega)
  have hpermitted : o.permitted mode = true := by
    rcases h with hptest | ⟨hmode, -⟩
    · cases o with
      | ptest => rfl
      | ccmd | waitev | fset => exact absurd (ho.symm.trans hptest) (by decide)
    · simp [HxOp.permitted, hmode]
  exact (State.fetched_of_op k mode (mod_four_of_opcode hop) (hxWord_of_funct3 hop hfunct7 o ho)).trans (if_pos hpermitted)

/-- Log 166: a read of the time CSR gives global time. -/
theorem State.fetched_time {s : State} {k : Fin 24} {mode : RvMode} {w : Nat} (hop : bits w 0 7 = 0x73) (hrs : bits w 15 5 = 0)
    (hread : 2 ≤ bits w 12 3 % 4) (hcsr : bits w 20 12 = 0xC01) : s.fetched k mode w = s.setRub k { s.rub k with rd := s.clock.time } := by
  have hother : hxWord w = none := hxWord_of_other (by rw [hop]; decide) (by rw [hop]; decide)
  have hcode : readsCsr w = some 0xC01 := (if_pos ⟨hop, hrs, hread⟩).trans (congrArg some hcsr)
  have hvalue : s.csrValue 0xC01 = some s.clock.time.toNat := if_pos rfl
  unfold State.fetched
  rw [if_neg (not_not.2 (mod_four_of_opcode hop)), hother, hcode, Option.bind_some, hvalue]
  simp only [State.setRd, State.modRub, BitVec.ofNat_toNat, BitVec.setWidth_eq]

theorem State.fetched_other {s : State} {k : Fin 24} {mode : RvMode} {w : Nat} (h1 : bits w 0 7 ≠ 0x2B) (h0 : bits w 0 7 ≠ 0x0B) (hsys : bits w 0 7 ≠ 0x73) :
    s.fetched k mode w = s := by
  have hcode : readsCsr w = none := if_neg (fun h => hsys h.1)
  unfold State.fetched
  rw [hxWord_of_other h1 h0, hcode, Option.bind_none]
  split <;> rfl

/-! Loads, stores and fetches (R102, R105) -/

theorem exec_rubricLoad_of_low {s : State} {k : Fin 24} {a : W64} (hup : s.hartUp k = true) (hlow : a.toNat < 2 ^ 48) (mode : RvMode) (z : RvSize) :
    exec (.rubricLoad k mode a z) s = .next (s.hartLoad k mode a (sizeBytes z) (fun t bs => t.setRd k (ofLeBytes bs))) :=
  congrArg Host.Outcome.next ((if_neg (by simp [hup])).trans (if_pos hlow))

theorem exec_rubricStore_of_low {s : State} {k : Fin 24} {a : W64} (hup : s.hartUp k = true) (hlow : a.toNat < 2 ^ 48) (mode : RvMode) (z : RvSize) (v : W64) :
    exec (.rubricStore k mode a z v) s = .next (s.hartStore k mode a (leBytes (sizeBytes z) v.toNat)) :=
  congrArg Host.Outcome.next ((if_neg (by simp [hup])).trans (if_pos hlow))

/-- A fetch reads two bytes, and where they are whole the word they begin. -/
theorem exec_rubricFetch_of_reaches {s : State} {k : Fin 24} {mode : RvMode} {a : W64} (hup : s.hartUp k = true) (hlow : a.toNat < 2 ^ 48)
    (hlatent : s.mem.latent = []) (h : s.reaches k mode a 2 2) :
    exec (.rubricFetch k mode a) s = .next (if (s.readUa .plain a.toNat 2).2 then (s.trap k 1 a).sharedCodeLost (a.toNat / 64)
      else s.fetched k mode (ofLeBytes (s.readUa .plain a.toNat 4).1)) := by
  refine congrArg Host.Outcome.next ((if_neg (by simp [hup])).trans ((if_pos hlow).trans ?_))
  rw [h.hartAccess]
  dsimp only
  rw [State.touch_of_no_latent hlatent]

theorem State.hartSnap_of_unbound {s : State} {k : Fin 24} (h : (s.rub k).loadBind = 0) : s.hartSnap k = none := if_pos h

/-- A store of a hart that has no folio bound goes to memory as it is. -/
theorem State.reaches.hartStore {s : State} {k : Fin 24} {mode : RvMode} {a : W64} {bs : List Byte} (h : s.reaches k mode a bs.length 1)
    (hstore : (s.rub k).storeBind = 0) (hload : (s.rub k).loadBind = 0) :
    s.hartStore k mode a bs = s.plainWrite (.hart k) (piecesOf a.toNat bs (fun _ => false)) := by
  unfold State.hartStore
  rw [h.hartAccess, State.hartSnap_of_unbound hload]
  exact if_neg (not_not.2 hstore)

/-- Settles O36: a wait that ends, then each access by what it meets, then a fetch by the word it reads. -/
theorem rubricAccesses : Obligations.RubricAccesses := by
  intro s k mode a z
  refine ⟨fun l v hlimit hends => ?_, fun hup hhigh => ?_, fun hup hlow hlatent hsnap => ⟨fun hforeign => ⟨?_, fun v => ?_⟩,
    fun hforeign hfault => ⟨fun hclean => ?_, fun hbad => ?_⟩, fun hforeign hfault hstore hload v => ?_, fun hforeign hfault => ?_⟩⟩
  · simp only [exec, execHxWaitevWake, hlimit, hends]
    unfold State.setRd State.modRub
    rw [State.setRub_setRub, State.rub_setRub_self]
  · exact congrArg Host.Outcome.next ((if_neg (by simp [hup])).trans (if_neg (Nat.not_lt.2 hhigh)))
  · rw [exec_rubricLoad_of_low hup hlow, State.hartLoad, State.hartAccess_of_foreign hforeign]
    rfl
  · rw [exec_rubricStore_of_low hup hlow, State.hartStore, State.hartAccess_of_foreign (by rw [leBytes_length]; exact hforeign)]
    rfl
  · rw [exec_rubricLoad_of_low hup hlow, (State.reaches.mk hforeign hfault).hartLoad hsnap hlatent hclean]
    rfl
  · rw [exec_rubricLoad_of_low hup hlow, (State.reaches.mk hforeign hfault).hartLoad_poisoned hsnap hlatent hbad]
    generalize hreport : s.report ⟨0x0205, (dieOfHart k).val, partByte (s.hartPart k), unitRubric k, .operation, u64s [a.toNat]⟩ = t
    have hrub : (t.trap k 5 a).rub k = { t.rub k with trap := some ⟨5, a⟩ } := State.rub_setRub_self t k _
    refine ⟨_, rfl, congrArg Rubric.trap hrub, (congrArg Rubric.rd hrub).trans ?_, ?_⟩
    · rw [← hreport, State.report_rub]
    · rw [← hreport]
      exact State.report_mem _ _
  · rw [exec_rubricStore_of_low hup hlow, State.reaches.hartStore (by rw [leBytes_length]; exact ⟨hforeign, hfault⟩) hstore hload]
  · intro w
    have hfetch := exec_rubricFetch_of_reaches hup hlow hlatent ⟨hforeign, hfault⟩
    refine ⟨fun hbad => hfetch.trans (congrArg Host.Outcome.next (if_pos hbad)), fun hclean => ?_⟩
    have hword : exec (.rubricFetch k mode a) s = .next (s.fetched k mode w) := hfetch.trans (congrArg Host.Outcome.next (if_neg (by simp [hclean])))
    clear_value w
    obtain ⟨-, -, -, hrdKept⟩ := s.illegal_keeps k
    refine ⟨fun hforbidden => ?_, fun hop hfunct7 hb => ?_, fun hop hrs hread hcsr => ?_, fun h1 h0 hsys => ?_⟩
    · exact ⟨_, hword.trans (congrArg Host.Outcome.next (State.fetched_forbidden hforbidden)), s.illegal_cause k, hrdKept, rfl, rfl⟩
    · rw [hword, State.fetched_permitted hop hfunct7 hb]
    · rw [hword, State.fetched_time hop hrs hread hcsr]
    · rw [hword, State.fetched_other h1 h0 hsys]

end Sys2Proof.Machine
end

section
/-! SUPPORT. Partition orders, the host's queues and the flow of an order (R393 to R408, R502 to R504). -/

namespace Sys2Proof.Machine

/-! What the change of a partition's state and the end of an order leave -/

theorem State.part_of_parts {s t : State} (h : s.parts = t.parts) (p : PartNo) : s.part p = t.part p := by
  unfold State.part
  rw [h]

theorem State.autoState_keeps (s : State) : s.autoState.mem = s.mem ∧ s.autoState.cores = s.cores := by
  unfold State.autoState
  dsimp only
  split
  · exact ⟨State.setModState_mem .., State.setModState_cores ..⟩
  · split
    · exact ⟨State.setModState_mem .., State.setModState_cores ..⟩
    · exact ⟨rfl, rfl⟩

theorem State.setPartMode_keeps (s : State) (p : PartNo) (m : PartMode) : (s.setPartMode p m).mem = s.mem ∧ (s.setPartMode p m).cores = s.cores := by
  unfold State.setPartMode
  split
  · exact ⟨rfl, rfl⟩
  · obtain ⟨hmem, hcores⟩ := ((s.modPart p (fun x => { x with mode := m })).partitionEvent p).autoState_keeps
    have hevent := State.partitionEvent_core0 (s.modPart p (fun x => { x with mode := m })) p
    exact ⟨hmem.trans (congrArg (fun t : State => t.mem) hevent :), hcores.trans (congrArg (fun t : State => t.cores) hevent :)⟩

theorem State.setPartMode_mode (s : State) (p : PartNo) (m : PartMode) : ((s.setPartMode p m).part p).mode = m := by
  rw [State.setPartMode_part, if_pos rfl]

theorem State.endPartition_part (s : State) (o : Order) (p : PartNo) : (s.endPartition o).part p = s.part p := State.part_of_parts (State.endOrder_parts ..) p

theorem State.endPartition_mem (s : State) (o : Order) : (s.endPartition o).mem = s.mem := State.endOrder_mem ..

theorem State.endPartition_cores (s : State) (o : Order) : (s.endPartition o).cores = s.cores := State.endOrder_cores ..

/-- An order that ended is not among those under way. -/
theorem State.endOrder_gone (s : State) (o : Order) (d : Done) : ∀ x ∈ (s.endOrder o d).host.orders, x.id ≠ o.id := by
  rw [(State.endOrder_keep s o d).2.1]
  exact fun x hx => by simpa using (List.mem_filter.1 hx).2

/-- The counters of a die are all a count changes. -/
theorem State.countDie_spec (s : State) (d : Nat) (e : DieEvent) : ∃ pmc, s.countDie d e = { s with pmc := pmc } := by
  unfold State.countDie
  split
  · exact ⟨s.pmc, rfl⟩
  · split
    · exact ⟨s.pmc, rfl⟩
    · exact ⟨_, rfl⟩

theorem State.countDie_host (s : State) (d : Nat) (e : DieEvent) : (s.countDie d e).host = s.host := by
  obtain ⟨pmc, h⟩ := State.countDie_spec s d e
  rw [h]

/-! Partition orders (R404, R502 to R504) -/

theorem exec_partitionRun_of_order {s : State} {k : Nat} {o : Order} (h : s.partitionOrder k 1 = some o) :
    exec (.partitionRun k) s = .next (if (s.part o.target).mode ≠ .idle then (s.beginOrder o.id).endOrder o (Done.reject 2 0b0001)
      else if !s.rootsValid o.target then (s.beginOrder o.id).endOrder o (Done.of 0x0503)
      else (((s.beginOrder o.id).setPartMode o.target .running).measureGuest o.target).endPartition o) := by
  simp only [exec, execPartitionRun, h]

theorem exec_partitionDrain_of_order {s : State} {k : Nat} {o : Order} (h : s.partitionOrder k 2 = some o) :
    exec (.partitionDrain k) s = .next (if (s.part o.target).mode ≠ .running then (s.beginOrder o.id).endOrder o (Done.reject 2 0b0010)
      else (s.beginOrder o.id).drainPart o.target) := by
  simp only [exec, execPartitionDrain, h]

/-- A drain that ends leaves the partition IDLE, memory and the cores as they were. -/
theorem State.endDrain_spec (s : State) (p : PartNo) :
    ((s.endDrain p).part p).mode = .idle ∧ (s.endDrain p).mem = s.mem ∧ (s.endDrain p).cores = s.cores := by
  unfold State.endDrain
  extract_lets s1
  obtain ⟨hmem, hcores⟩ := State.setPartMode_keeps s p .idle
  refine ⟨?_, ?_, ?_⟩
  · rw [foldl_keeps (fun t : State => t.part p) _ (fun t o => State.endPartition_part t o p)]
    exact State.setPartMode_mode s p .idle
  · rw [foldl_keeps State.mem _ State.endPartition_mem]
    exact hmem
  · rw [foldl_keeps State.cores _ State.endPartition_cores]
    exact hcores

theorem State.drainPart_spec (s : State) (p : PartNo) : ((s.drainPart p).part p).mode = .draining ∧ (s.drainPart p).mem = s.mem ∧
    (s.drainPart p).cores = s.cores ∧ Tab.get none (s.drainPart p).modu.drainStart p.val = some s.clock.time := by
  obtain ⟨hmem, hcores⟩ := State.setPartMode_keeps s p .draining
  exact ⟨State.setPartMode_mode s p .draining, hmem, hcores, Tab.get_set_listed (by simp) _ _⟩

theorem State.drainDue_of_started {s : State} {p : PartNo} {t : W64} (h : Tab.get none s.modu.drainStart p.val = some t) :
    s.drainDue p = decide (t.toNat + s.dictVal 0x2100 3 * msTicks ≤ s.clock.time.toNat) := by
  unfold State.drainDue
  rw [h]
  rfl

theorem State.drainDue_of_past {s : State} {p : PartNo}
    (h : ∀ t, Tab.get none s.modu.drainStart p.val = some t → t.toNat + s.dictVal 0x2100 3 * msTicks ≤ s.clock.time.toNat) : s.drainDue p = true := by
  cases hstart : Tab.get none s.modu.drainStart p.val with
  | none =>
    unfold State.drainDue
    rw [hstart]
  | some t => exact (State.drainDue_of_started hstart).trans (decide_eq_true (h t hstart))

/-- Settles O37: each order in the state it requires and in the others, then the end of a drain. -/
theorem partitionOrders : Obligations.PartitionOrders := by
  intro s k o
  refine ⟨fun horder hmode => ?_, fun horder hmode hroots => ?_, fun horder hmode => ?_, fun horder hmode => ?_, fun p hmode hdone => ?_,
    fun p hmode hopen => ?_, fun p hmode => ?_, fun p t hstart hearly => ?_, fun p hmode hpast => ?_, fun horder hmode => ?_, fun horder hmode => ?_⟩
  · rw [exec_partitionRun_of_order horder, if_pos hmode]
  · refine ⟨_, (exec_partitionRun_of_order horder).trans (congrArg Host.Outcome.next ((if_neg (not_not.2 hmode)).trans (if_neg (by simp [hroots])))), ?_⟩
    rw [State.endPartition_part, State.endPartition_mem, State.endPartition_cores]
    obtain ⟨hmem, hcores⟩ := State.setPartMode_keeps (s.beginOrder o.id) o.target .running
    exact ⟨State.setPartMode_mode (s.beginOrder o.id) o.target .running, hmem, hcores⟩
  · rw [exec_partitionDrain_of_order horder, if_pos hmode]
  · exact ⟨_, (exec_partitionDrain_of_order horder).trans (congrArg Host.Outcome.next (if_neg (not_not.2 hmode))),
      State.drainPart_spec (s.beginOrder o.id) o.target⟩
  · exact ⟨_, congrArg Host.Outcome.next (if_pos ⟨hmode, hdone⟩), State.endDrain_spec s p⟩
  · exact congrArg Host.Outcome.next (if_neg (by simp [hopen]))
  · exact congrArg Host.Outcome.next (if_neg (by simp [hmode]))
  · refine congrArg Host.Outcome.next (if_neg (fun hdue => ?_))
    rw [State.drainDue_of_started hstart, decide_eq_true_iff] at hdue
    omega
  · exact congrArg Host.Outcome.next (if_pos ⟨hmode, State.drainDue_of_past hpast⟩)
  · simp only [exec, execPartitionReset, horder]
    exact congrArg Host.Outcome.next (if_pos hmode)
  · simp only [exec, execPartitionReset, horder]
    refine ⟨_, congrArg Host.Outcome.next (if_neg hmode), ?_⟩
    rw [State.endPartition_part]
    exact State.setPartMode_mode ..

/-! The host's queues and the resets (R394, R395, R406 to R408) -/

theorem Tab.mem_mapVals {α : Type} [DecidableEq α] {d : α} {f : α → α} {m : Tab α} {e : Nat × α} (h : e ∈ Tab.mapVals d f m) : ∃ x, e.2 = f x := by
  unfold Tab.mapVals at h
  obtain ⟨x, -, rfl⟩ := List.mem_map.1 (List.mem_filter.1 h).1
  exact ⟨x.2, rfl⟩

/-- The reset of a function disables its queues and leaves memory. -/
theorem State.resetVf_spec (s : State) (f : Nat) (p : Option PartNo) : (s.resetVf f p).mem = s.mem ∧
    (∀ e ∈ (s.resetVf f p).host.sqs, e.2.function.toNat = f → e.2.enable = false) ∧
    ∀ e ∈ (s.resetVf f p).host.cqs, e.2.function.toNat = f → e.2.enable = false := by
  have hqueues : (s.resetVf f p).mem = s.mem ∧
      (s.resetVf f p).host.sqs = Tab.mapVals SQ.reset (fun q => if q.function.toNat = f then { q with enable := false } else q) s.host.sqs ∧
      (s.resetVf f p).host.cqs =
        Tab.mapVals CQ.reset (fun c => if c.function.toNat = f then { c with enable := false, held := [], unsignalled := 0 } else c) s.host.cqs := by
    cases p <;> exact ⟨rfl, rfl, rfl⟩
  obtain ⟨hmem, hsqs, hcqs⟩ := hqueues
  refine ⟨hmem, fun e he hfn => ?_, fun e he hfn => ?_⟩
  · rw [hsqs] at he
    obtain ⟨q, hq⟩ := Tab.mem_mapVals he
    by_cases hown : q.function.toNat = f
    · rw [hq, if_pos hown]
    · rw [hq, if_neg hown] at hfn
      exact absurd hfn hown
  · rw [hcqs] at he
    obtain ⟨c, hc⟩ := Tab.mem_mapVals he
    by_cases hown : c.function.toNat = f
    · rw [hc, if_pos hown]
    · rw [hc, if_neg hown] at hfn
      exact absurd hfn hown

/-- What a reset of the host interface clears and what it leaves. -/
structure State.HostIsReset (s t : State) : Prop where
  sqs : t.host.sqs = []
  cqs : t.host.cqs = []
  msixPending : t.host.msixPending = []
  irq : t.host.irq = IrqCfg.reset
  mem : t.mem = s.mem
  fol : t.fol = s.fol
  hostMem : t.host.hostMem = s.host.hostMem

theorem foldl_clearSlots_keeps {α : Type} (g : State → α) (hg : ∀ t p, g (State.clearSlots t p) = g t) (s : State) :
    g (allParts.foldl (fun t p => t.clearSlots p) s) = g s := foldl_keeps g _ hg allParts s

theorem State.resetHost_isReset (s : State) : s.HostIsReset s.resetHost ∧ s.resetHost.host.linkUp = s.host.linkUp := by
  unfold State.resetHost
  extract_lets s1 s2 f
  have hmem : s2.mem = s.mem := foldl_clearSlots_keeps State.mem (fun _ _ => by rfl) s1
  have hfol : s2.fol = s.fol := foldl_clearSlots_keeps State.fol (fun _ _ => by rfl) s1
  have hhost : s2.host.hostMem = s.host.hostMem := foldl_clearSlots_keeps (fun t => t.host.hostMem) (fun _ _ => by rfl) s1
  have hlink : s2.host.linkUp = s.host.linkUp := foldl_clearSlots_keeps (fun t => t.host.linkUp) (fun _ _ => by rfl) s1
  clear_value s2
  exact ⟨⟨rfl, rfl, rfl, rfl, hmem, hfol, hhost⟩, hlink⟩

theorem State.HostIsReset.withLink {s t : State} (h : s.HostIsReset t) (up : Bool) : s.HostIsReset (t.modHost (fun h => { h with linkUp := up })) :=
  ⟨h.sqs, h.cqs, h.msixPending, h.irq, h.mem, h.fol, h.hostMem⟩

theorem exec_sqDoorbell_of_on {s : State} (hon : s.mainOn = true) (q : Fin 1024) (v : W32) :
    exec (.sqDoorbell q v) s = .next (if (s.sq q.val).size ≤ bits v.toNat 0 12 then
        (s.setSq q.val { s.sq q.val with err := true }).report ⟨0x0505, dieX1,
          if (s.part (partOf (s.sq q.val).partition.toNat)).mode = .unformed then 0xFF else (s.sq q.val).partition.toNat, unitQueue, .operation, []⟩
      else if bits v.toNat 0 12 = (s.sq q.val).head.toNat then
        (s.setSq q.val { s.sq q.val with tail := BitVec.ofNat 12 (bits v.toNat 0 12) }).setWaiting q.val none
      else if (Tab.get none s.host.waiting q.val).isSome then s.setSq q.val { s.sq q.val with tail := BitVec.ofNat 12 (bits v.toNat 0 12) }
      else (s.setSq q.val { s.sq q.val with tail := BitVec.ofNat 12 (bits v.toNat 0 12) }).setWaiting q.val (some s.clock.time)) :=
  congrArg Host.Outcome.next (if_neg (by simp [hon]))

/-- Settles O38: doorbells and releases in range and out of it, then the resets. -/
theorem hostQueues : Obligations.HostQueues := by
  intro s hon
  have hoff : ¬ (!s.mainOn) = true := by simp [State.mainOn, hon]
  refine ⟨fun q v hin => ?_, fun q v hout => ?_, fun q => rfl, fun c v hout => ?_, fun c v hin hheld hroom => ?_, fun p slot v hready hbit hgen => ?_,
    fun p slot v hready => ?_, fun c hirq hcount => ?_, fun f => ?_, fun c hc => ?_⟩
  · rw [exec_sqDoorbell_of_on hon, if_neg (Nat.not_le.2 hin)]
    split
    · exact ⟨_, rfl, rfl, rfl, rfl⟩
    · split <;> exact ⟨_, rfl, rfl, rfl, rfl⟩
  · exact ⟨_, (exec_sqDoorbell_of_on hon q v).trans (congrArg Host.Outcome.next (if_pos hout)), State.report_sqs _ _, State.report_mem _ _⟩
  · exact congrArg Host.Outcome.next ((if_neg hoff).trans (if_pos (.inl hout)))
  · refine congrArg Host.Outcome.next ((if_neg hoff).trans ((if_neg ?_).trans ?_))
    · exact fun h => h.elim (Nat.not_le.2 hin) (Nat.not_lt.2 hroom)
    · exact (congrArg (State.flushCq _ c.val) (congrArg List.length hheld) :)
  · exact congrArg Host.Outcome.next ((if_neg hoff).trans (if_pos ⟨hready, hbit, hgen⟩))
  · refine ⟨_, congrArg Host.Outcome.next ((if_neg hoff).trans (if_neg (by simp [hready]))), ?_⟩
    rw [State.countDie_host]
    exact ⟨rfl, rfl⟩
  · exact congrArg Host.Outcome.next (if_pos ⟨hirq, hcount⟩)
  · exact ⟨_, congrArg Host.Outcome.next (if_pos hon), State.resetVf_spec s (f.val + 1) _⟩
  · obtain ⟨hreset, hlink⟩ := s.resetHost_isReset
    have hany : ∀ t : State, s.HostIsReset t → t.host.sqs = [] ∧ t.host.cqs = [] ∧ t.host.msixPending = [] ∧ t.host.irq = IrqCfg.reset ∧ t.mem = s.mem ∧
        t.fol = s.fol ∧ t.host.hostMem = s.host.hostMem := fun t h => ⟨h.sqs, h.cqs, h.msixPending, h.irq, h.mem, h.fol, h.hostMem⟩
    simp only [List.mem_cons, List.not_mem_nil, or_false] at hc
    rcases hc with rfl | rfl | rfl | rfl
    · obtain ⟨h1, h2, h3, h4, h5, h6, h7⟩ := hany _ hreset
      exact ⟨_, congrArg Host.Outcome.next (if_pos hon), h1, h2, h3, h4, h5, h6, h7, hlink⟩
    · obtain ⟨h1, h2, h3, h4, h5, h6, h7⟩ := hany _ (hreset.withLink true)
      exact ⟨_, congrArg Host.Outcome.next (if_pos hon), h1, h2, h3, h4, h5, h6, h7, rfl⟩
    · obtain ⟨h1, h2, h3, h4, h5, h6, h7⟩ := hany _ (hreset.withLink false)
      exact ⟨_, congrArg Host.Outcome.next (if_pos hon), h1, h2, h3, h4, h5, h6, h7, rfl⟩
    · obtain ⟨h1, h2, h3, h4, h5, h6, h7⟩ := hany _ (hreset.withLink true)
      exact ⟨_, congrArg Host.Outcome.next (if_pos hon), h1, h2, h3, h4, h5, h6, h7, rfl⟩

/-! The flow of an order (R393, R397 to R400) -/

/-- An order that passed the check joins the orders under way, as its block says. -/
theorem State.takeOrder_spec (s : State) (p : PartNo) (k : Nat) (e : List Byte) (cls op : Nat) (b : List Byte) :
    ∃ o, (s.takeOrder p k e cls op b).host.orders = s.host.orders ++ [o] ∧ o.cls = BitVec.ofNat 8 cls ∧ o.op = BitVec.ofNat 8 op ∧ o.block = b ∧
      o.part = p ∧ o.started = false ∧ (s.takeOrder p k e cls op b).host.nextOrder = s.host.nextOrder + 1 := by
  unfold State.takeOrder
  extract_lets slot tag s1 gen o
  have hclaim : s1.host.orders = s.host.orders ∧ s1.host.nextOrder = s.host.nextOrder := by
    unfold s1
    split <;> exact ⟨rfl, rfl⟩
  obtain ⟨horders, hnext⟩ := hclaim
  rw [State.countDie_host]
  exact ⟨o, congrArg (· ++ [o]) horders, rfl, rfl, rfl, rfl, rfl, congrArg (· + 1) hnext⟩

theorem exec_orderFetch_of_ready {s : State} {p : PartNo} {k : Nat} (hon : s.plug.mainOn = true) (hstate : s.modu.state = .ready ∨ s.modu.state = .active)
    (hnext : s.nextSq = some (p, k)) :
    exec .orderFetch s = .next (match (s.passHead p k).checkOrder (s.sq k) (s.hostRead ((s.sq k).base.toNat + 128 * (s.sq k).head.toNat) 128)
        (hostMarked s.host.hostBad ((s.sq k).base.toNat + 128 * (s.sq k).head.toNat) 128 ||
          hostMarked s.host.hostPoison ((s.sq k).base.toNat + 128 * (s.sq k).head.toNat) 128) with
      | .error d => (s.passHead p k).rejectOrder p k (s.hostRead ((s.sq k).base.toNat + 128 * (s.sq k).head.toNat) 128) d
      | .ok (cls, op, b) => (s.passHead p k).takeOrder p k (s.hostRead ((s.sq k).base.toNat + 128 * (s.sq k).head.toNat) 128) cls op b) := by
  have htakes : (stateMask [3, 4, 5, 7]).getLsbD s.modu.state.num = true := by
    rcases hstate with h | h <;> rw [h] <;> decide
  refine congrArg Host.Outcome.next ((if_neg ?_).trans ?_)
  · rw [htakes]
    simp [State.mainOn, hon]
  · rw [hnext] <;> rfl

theorem State.bar2At_of_unified {s : State} (hon : s.plug.mainOn = true) {off : W64} {len : Nat} (hlen : off.toNat + len ≤ 2 ^ 36) :
    s.bar2At 0 off len = .unified (s.host.bar2Base.toNat * 2 ^ 36 + off.toNat) :=
  (if_neg (by simp [State.mainOn, hon])).trans ((if_pos rfl).trans (if_pos hlen))

theorem State.bar2At_of_off {s : State} (hoff : s.plug.mainOn = false) (fn : BitVec 4) (off : W64) (len : Nat) : s.bar2At fn off len = .none :=
  if_pos (by simp [State.mainOn, hoff])

/-- Settles O39: the fetch by what its check finds, the NOP, the mailbox of the runtime, and BAR2. -/
theorem orderFlow : Obligations.OrderFlow := by
  intro s
  refine ⟨fun hon hstate p k hnext => ?_, fun k o hready => ?_, fun k o horder hcls hready => ?_, fun p i code info pay m o hmail horder => ?_,
    fun fn off len hoff => ⟨?_, fun data b => ?_⟩, fun hon hlatent off => ⟨fun len hlen hclear => ?_, fun data b hlen hclear => ?_⟩⟩
  · intro q a bad e s1
    have hfetch := exec_orderFetch_of_ready hon hstate hnext
    refine ⟨fun d hbad => ?_, fun cls op b hgood => ?_⟩
    · rw [hfetch, show s1.checkOrder q e bad = .error d from hbad]
    · rw [hfetch, show s1.checkOrder q e bad = .ok (cls, op, b) from hgood]
      obtain ⟨o, ho⟩ := State.takeOrder_spec s1 p k e cls op b
      exact ⟨_, o, rfl, ho⟩
  · simp only [exec, execWorkOrderNop, hready]
    exact ⟨_, rfl, State.endOrder_gone _ _ _, State.endOrder_mem .., State.endOrder_cores ..⟩
  · have hnone : ¬ (o.cls ≠ 7 ∨ (s.readyOrder k 7 o.op).isNone = true) := by
      rw [not_or, Option.isNone_iff_eq_none, ← ne_eq, ← Option.isSome_iff_ne_none]
      exact ⟨not_not.2 hcls, hready⟩
    simp only [exec, execRuntime, horder, if_neg hnone]
    exact ⟨_, rfl, Tab.get_set_listed (by simp) _ _, rfl⟩
  · have hbox : (s.modHost (fun h => { h with
        mailboxes := Tab.set [] h.mailboxes p.val ((Tab.get [] s.host.mailboxes p.val).eraseIdx i) })).orderById m.1 = some o := horder
    simp only [exec, execRuntimeReply, hmail, hbox]
    exact ⟨_, rfl, State.endOrder_gone _ _ _, State.endOrder_mem ..⟩
  · simp only [exec, execBar2Read, State.bar2At_of_off hoff]
  · simp only [exec, execBar2Write, State.bar2At_of_off hoff]
  · intro r
    have hread : exec (.bar2Read 0 off len) s = .next (s.bar2Reply none (s.host.bar2Base.toNat * 2 ^ 36 + off.toNat) r) := by
      simp only [exec, execBar2Read, State.bar2At_of_unified hon hlen, hclear, State.touch_of_no_latent hlatent]
      rfl
    rw [hread]
    clear_value r
    refine ⟨fun hclean => ?_, fun hbad => ?_⟩
    · unfold State.bar2Reply
      rw [hclean]
      rfl
    · unfold State.bar2Reply
      rw [hbad]
      exact ⟨_, _, rfl, rfl, State.report_mem _ _⟩
  · simp only [exec, execBar2Write, State.bar2At_of_unified hon hlen, hclear]

end Sys2Proof.Machine
end

section
/-! SUPPORT. MEMORY and COPY orders (R397, R400, R402, R403, R500). -/

namespace Sys2Proof.Machine

/-! Writes of memory and the end of a record leave the partitions -/

theorem State.countDie_parts (s : State) (d : Nat) (e : DieEvent) : (s.countDie d e).parts = s.parts := by
  obtain ⟨pmc, h⟩ := State.countDie_spec s d e
  rw [h]

theorem State.listRetire_parts (s : State) (f : Nat) : (s.listRetire f).parts = s.parts := by
  unfold State.listRetire
  dsimp only
  split
  · rfl
  · split
    · rfl
    · exact State.report_parts ..

theorem State.touchGran_parts (s : State) (k : Nat) (p : Option PartNo) (g : Nat) : (s.touchGran k p g).parts = s.parts := by
  unfold State.touchGran
  split
  · rfl
  · extract_lets f ev ev1 u hbm s0 s1 s2 s3
    have hdraw : s0.parts = s.parts := by
      unfold s0
      split <;> rfl
    have hcount : s3.parts = s.parts := (State.countDie_parts ..).trans ((State.report_parts ..).trans hdraw)
    split
    · exact (State.listRetire_parts ..).trans hcount
    · exact hcount

theorem State.setHomeGran_parts (s : State) (g : Nat) (x : Gran) : (s.setHomeGran g x).parts = s.parts := by
  have hdisarm : (s.disarmAt (64 * g)).parts = s.parts := by
    unfold State.disarmAt
    split <;> rfl
  rw [← hdisarm]
  unfold State.setHomeGran
  exact State.modMem_parts _ _

theorem State.plainWrite_parts (s : State) (w : Writer) (ps : List Piece) : (s.plainWrite w ps).parts = s.parts := by
  refine foldl_keeps State.parts _ (fun t p => ?_) ps s
  split
  · rfl
  · unfold State.writeHome
    dsimp only
    split
    · exact State.setHomeGran_parts ..
    · exact (State.setHomeGran_parts ..).trans (State.touchGran_parts ..)

theorem State.dvWrite_parts (s : State) (p : PartNo) (m a : Nat) (bs : List Byte) : (s.dvWrite p m a bs).parts = s.parts := by
  unfold State.dvWrite
  split
  · next f _ =>
    have hrecord : (s.pfRecord p f).parts = s.parts := by
      unfold State.pfRecord
      split
      · exact State.report_parts ..
      · rfl
    exact (State.report_parts ..).trans hrecord
  · exact State.plainWrite_parts ..

theorem State.endJob_parts (s : State) (j : Job) (d : Done) : (s.endJob j d).parts = s.parts := by
  unfold State.endJob
  split
  · exact State.endOrder_parts ..
  · rfl

theorem State.endRecord_parts (s : State) (j : Job) (a : Nat) (d : Done) : (s.endRecord j a d).parts = s.parts := by
  unfold State.endRecord
  refine (State.endJob_parts ..).trans ?_
  split
  · rfl
  · exact State.dvWrite_parts ..

/-! A MEMORY order, by what stops it (R400) -/

theorem State.memoryOrder_of_ready {s : State} {k op : Nat} {o : Order} (h : s.readyOrder k 5 (BitVec.ofNat 8 op) = some o) :
    s.memoryOrder k op = ((s.beginOrder o.id).runOrWait 5 ⟨o.part, o.block, .order { o with started := true }⟩ false).retryFreed s := by
  unfold State.memoryOrder
  rw [h]

/-- The charges that wait are tried again only where there are some (R278). -/
theorem State.retryFreed_of_no_waits (t u : State) (h : t.mem.waits = []) : t.retryFreed u = t := by
  have hpart (p : PartNo) : [0, 1].foldl (fun (v : State) tier =>
      if v.mem.waits ≠ [] ∧ v.usage p tier true < u.usage p tier true then v.retryTier p tier else v) t = t := by
    simp only [List.foldl_cons, List.foldl_nil, h, ne_eq, not_true_eq_false, false_and, if_false]
  unfold State.retryFreed
  induction allParts with
  | nil => rfl
  | cons p ps ih => rw [List.foldl_cons, hpart p, ih]

/-- R245: writes joined to a DOOMED folio are dropped, and the order ends whole. -/
theorem State.runOrWait_of_doomed {s : State} {j : Job} (h : s.joinsDoomed j.part (bitOf (j.fld 3 1) 0) (BitVec.ofNat 64 (j.fld 8 8)) = true) :
    s.runOrWait 5 j false = s.endRecord j (j.fld 16 8) { Done.of 0 with payload := memRecord 0 (j.fld 2 1) ⟨0, 0⟩ 0 0 } := by
  simp only [State.runOrWait, State.runOrder, h, if_true]

section
variable {s : State} {j : Job} (h : s.joinsDoomed j.part (bitOf (j.fld 3 1) 0) (BitVec.ofNat 64 (j.fld 8 8)) = false)
include h

theorem State.runOrWait_of_ok {x : FX} {r : MemRes} (hbody : s.memoryBody j = .ok (x, r)) : s.runOrWait 5 j false = s.finishMemory j x r := by
  simp only [State.runOrWait, State.runOrder, h, hbody, if_true, Bool.false_eq_true, if_false]

theorem State.runOrWait_of_code {n v : Nat} (hbody : s.memoryBody j = .error (.code n v)) : s.runOrWait 5 j false = s.refuseMemory j (.code n v) := by
  simp only [State.runOrWait, State.runOrder, h, hbody, if_true, Bool.false_eq_true, if_false]

theorem State.runOrWait_of_fault {f : PFault} (hbody : s.memoryBody j = .error (.fault f)) : s.runOrWait 5 j false = s.refuseMemory j (.fault f) := by
  simp only [State.runOrWait, State.runOrder, h, hbody, if_true, Bool.false_eq_true, if_false]

theorem State.runOrWait_of_spill {t : Nat} (hbody : s.memoryBody j = .error (.spill t)) :
    s.runOrWait 5 j false = if (s.batchOf j.part t).isSome then s.addWait (j.waitAs 5 (some t)) else match s.startSpill j.part t with
      | none => s.refuseWait 5 j
      | some s1 => (s1.addWait (j.waitAs 5 (some t))).pump := by
  simp only [State.runOrWait, State.runOrder, h, hbody, if_true, Bool.false_eq_true, if_false, Bool.false_and] <;> rfl

theorem State.runOrWait_of_uninit (hbody : s.memoryBody j = .error .uninit) : s.runOrWait 5 j false = s.addWait (j.waitAs 5 none) := by
  simp only [State.runOrWait, State.runOrder, h, hbody, if_true, Bool.false_eq_true, if_false]

end

theorem State.refuseMemory_code (s : State) (j : Job) (n v : Nat) : s.refuseMemory j (.code n v) =
    s.endRecord j (j.fld 16 8) { Done.of n with payload := memRecord (n % 2 ^ 16) (j.fld 2 1) ⟨0, 0⟩ 0 v } := by
  unfold State.refuseMemory State.failOrder
  simp only [Done.of, OrdErr.page, BitVec.toNat_ofNat]

/-- An order that joins no folio ends with its own folio's seal. -/
theorem State.finishMemory_own {s : State} {j : Job} {x : FX} (hjoin : bitOf (j.fld 3 1) 0 = false) (hseal : (x.finish true).2.1 = 0) (r : MemRes) :
    s.finishMemory j x r = (x.finish true).1.endRecord j (j.fld 16 8)
      { Done.of 0 with payload := memRecord 0 (j.fld 2 1) r (x.finish true).2.2.toNat 0, info := BitVec.ofNat 32 r.done } := by
  simp only [State.finishMemory, hjoin, hseal, if_true, Bool.false_eq_true, if_false]
  rfl

/-- An order that joins an OPEN folio ends with its writes in it. -/
theorem State.finishMemory_joined {s : State} {j : Job} {x : FX} (hjoin : bitOf (j.fld 3 1) 0 = true) (hopen : x.f.mode = .opened) (r : MemRes) :
    s.finishMemory j x r = x.done.endRecord j (j.fld 16 8)
      { Done.of 0 with payload := memRecord 0 (j.fld 2 1) r 0 0, info := BitVec.ofNat 32 r.done } := by
  have hcode : (if x.f.mode = .doomed then x.f.cause else (0 : W16)) = 0 := if_neg (by rw [hopen]; decide)
  simp only [State.finishMemory, hjoin, if_true, hcode]
  rfl

/-! A COPY order (R397, R402) -/

theorem State.orders_of_readyOrder {s : State} {k : Nat} {c op : Byte} {o : Order} (h : s.readyOrder k c op = some o) :
    s.host.orders[k]? = some o ∧ o.started = false := by
  unfold State.readyOrder at h
  split at h
  · cases h
  · next x hx =>
    split at h
    · next hcond =>
      obtain ⟨-, -, hstarted, -⟩ := hcond
      cases h
      exact ⟨hx, by simpa using hstarted⟩
    · cases h

theorem exec_copy_of_ready {s : State} {k : Nat} {o : Order} (hready : s.readyOrder k 6 o.op = some o) (hcls : o.cls = 6) :
    exec (.copy k) s = .next ((s.beginOrder o.id).runCopy ⟨o.part, o.block, .order o⟩ o.id) := by
  obtain ⟨horder, hstarted⟩ := State.orders_of_readyOrder hready
  simp only [exec, execCopy, horder, hcls, hready, hstarted]
  rfl

theorem exec_copy_of_started {s : State} {k : Nat} {o : Order} (horder : s.host.orders[k]? = some o) (hcls : o.cls = 6) (hstarted : o.started = true) :
    exec (.copy k) s = .next (if s.mem.held.any (fun w => decide (w.who = .copy o.id)) then s
      else s.endOrder o { Done.of 0 with info := BitVec.ofNat 32 (leField o.block 24 4) }) := by
  simp only [exec, execCopy, horder, hcls, hstarted]
  rfl

/-- The start of a copy that writes to no folio. -/
def CopyRun.begin (s : State) : CopyRun := ⟨s, none, 0, none, none⟩

/-- A copy of one piece that moved all its bytes, none of its writes held, ends with their number. -/
theorem State.runCopy_of_piece {s t : State} {j : Job} {o n : Nat} (hjoin : bitOf (j.fld 3 1) 1 = false) (hpieces : copyPieces (j.fld 16 8) (j.fld 24 4) = [(0, n)])
    (hrun : (if decide (j.fld 2 1 = 1) then (CopyRun.begin s).up j (0, n) else (CopyRun.begin s).down j o (0, n)) = ⟨t, none, n, none, none⟩)
    (hheld : t.mem.held = []) : s.runCopy j o = t.endJob j { Done.of 0 with info := BitVec.ofNat 32 n } := by
  unfold CopyRun.begin at hrun
  unfold State.runCopy
  simp only [hjoin, Bool.false_and, Bool.false_eq_true, false_and, if_false, hpieces, List.foldl_cons, List.foldl_nil]
  rw [hrun]
  simp only [hheld, List.any_nil, Bool.false_eq_true, if_false]
  rfl

/-- With no granule latent, no read notices anything. -/
theorem State.foldl_touch_of_no_latent {s : State} (h : s.mem.latent = []) (f : Nat) (p : Option PartNo) (ts : List (Trans × Nat)) :
    ts.foldl (fun (t : State) x => t.touch f p x.1.ua x.2) s = s := by
  induction ts with
  | nil => rfl
  | cons x xs ih => rw [List.foldl_cons, State.touch_of_no_latent h, ih]

/-- Downward, a piece whose bytes the host has whole is written with its poison. -/
theorem CopyRun.down_whole {s : State} {j : Job} {n : Nat} {ts : List (Trans × Nat)} (o : Nat)
    (htrans : s.translateAll (s.copyReq j 0 1) (pagePieces (j.fld 16 8) n) = .ok ts) (hn : n % 64 = 0)
    (hgood : ∀ i < n / 64, hostMarked s.host.hostBad (j.fld 8 8 + 64 * i) 64 = false) :
    (CopyRun.begin s).down j o (0, n) = ⟨s.plainWrite (.copy o) (transPieces ts (s.hostRead (j.fld 8 8) n)
      (fun i => hostMarked s.host.hostPoison (j.fld 8 8 + 64 * i) 64)), none, n, none, none⟩ := by
  have hall : ((List.range (n / 64)).takeWhile (fun i => !hostMarked s.host.hostBad (j.fld 8 8 + 0 + 64 * i) 64)).length * 64 = n := by
    rw [List.takeWhile_eq_self_iff.2 (fun i hi => by rw [Nat.add_zero, hgood i (List.mem_range.1 hi)]; rfl), List.length_range]
    omega
  unfold CopyRun.down CopyRun.state CopyRun.begin
  simp only [Option.isSome_none, Bool.false_eq_true, if_false, hall]
  rw [show s.translateAll (s.copyReq j 0 1) (pagePieces (j.fld 16 8 + 0) n) = .ok ts from htrans]
  simp only [Nat.lt_irrefl, if_false, Nat.zero_add, Nat.add_zero]

/-- Upward, a piece none of whose granules is poisoned is written to the host as it is. -/
theorem CopyRun.up_whole {s : State} {j : Job} {n : Nat} {ts : List (Trans × Nat)} (hlatent : s.mem.latent = [])
    (htrans : s.translateAll (s.copyReq j 0 0) (pagePieces (j.fld 16 8) n) = .ok ts)
    (hgood : ∀ x ∈ ts, ∀ g ∈ gransOf x.1.ua x.2, (s.gran .plain g).poison = false) :
    (CopyRun.begin s).up j (0, n) = ⟨s.hostWrite (j.fld 8 8) (s.readTrans .plain ts).1 (fun _ => false), none, n, none, none⟩ := by
  have hclean (i : Nat) : ((ts.flatMap (fun x => gransOf x.1.ua x.2)).map (fun g => (s.gran .plain g).poison)).getD i false = false := by
    rw [List.getD_eq_getElem?_getD]
    cases hget : ((ts.flatMap (fun x => gransOf x.1.ua x.2)).map (fun g => (s.gran .plain g).poison))[i]? with
    | none => rfl
    | some b =>
      obtain ⟨g, hg, rfl⟩ := List.mem_map.1 (List.mem_of_getElem? hget)
      obtain ⟨x, hx, hgx⟩ := List.mem_flatMap.1 hg
      exact hgood x hx g hgx
  have hnone : (List.range (n / 64)).find? (fun _ => false) = none := List.find?_eq_none.2 (by simp)
  unfold CopyRun.up CopyRun.begin
  simp only [Option.isSome_none, Bool.false_eq_true, if_false]
  rw [show s.translateAll (s.copyReq j 0 0) (pagePieces (j.fld 16 8 + 0) n) = .ok ts from htrans]
  dsimp only
  rw [State.foldl_touch_of_no_latent hlatent]
  simp only [hclean, hnone, Nat.zero_add, Nat.add_zero, Option.map_none, Option.orElse_none]

/-- Settles O40: a MEMORY order by what its body finds, then a COPY. -/
theorem memoryOrders : Obligations.MemoryOrders := by
  intro s k o
  refine ⟨fun c op hc => ?_, State.retryFreed_of_no_waits, fun hready hcls => exec_copy_of_ready hready hcls, fun hready hcls hlatent hheld => ?_,
    fun horder hcls hstarted => ⟨fun hwait => ?_, fun hdone => ?_⟩⟩
  · have hexec : exec c s = .next (s.memoryOrder k op) := by
      simp only [List.mem_cons, Prod.mk.injEq, List.not_mem_nil, or_false] at hc
      rcases hc with ⟨rfl, rfl⟩ | ⟨rfl, rfl⟩ | ⟨rfl, rfl⟩ | ⟨rfl, rfl⟩ | ⟨rfl, rfl⟩ | ⟨rfl, rfl⟩ <;> rfl
    rw [hexec]
    refine ⟨fun hnone => ?_, fun hready => ?_⟩
    · unfold State.memoryOrder
      rw [hnone]
    · intro s1 j join record doomed hop
      have hrecord : ∀ c e r, record c e r = memRecord c (j.fld 2 1) r e 0 := by
        intro c e r
        rw [hop]
        rfl
      rw [State.memoryOrder_of_ready hready]
      have hcong {t : State} (h : s1.runOrWait 5 j false = t) : (.next ((s1.runOrWait 5 j false).retryFreed s) : Host.Outcome State Fault Refusal) = .next (t.retryFreed s) := by rw [h]
      refine ⟨fun hdoomed => hcong ?_, fun hdoomed => ⟨fun x r hbody hjoin hseal => hcong ?_, fun x r hbody hjoin hopen => hcong ?_,
        fun x r hbody => hcong (State.runOrWait_of_ok hdoomed hbody), fun n v hbody => ⟨_, hcong (State.runOrWait_of_code hdoomed hbody), ?_⟩,
        fun f hbody => hcong (State.runOrWait_of_fault hdoomed hbody), fun t hbody hbatch => hcong ?_, fun t s2 hbody hbatch hspill => hcong ?_,
        fun hbody => hcong (State.runOrWait_of_uninit hdoomed hbody)⟩⟩
      · rw [State.runOrWait_of_doomed hdoomed, hrecord]
      · rw [State.runOrWait_of_ok hdoomed hbody, State.finishMemory_own hjoin hseal, hrecord]
      · rw [State.runOrWait_of_ok hdoomed hbody, State.finishMemory_joined hjoin hopen, hrecord]
      · rw [State.refuseMemory_code]
        exact ⟨rfl, State.endRecord_fol .., State.endRecord_parts ..⟩
      · rw [State.runOrWait_of_spill hdoomed hbody, if_pos hbatch]
      · rw [State.runOrWait_of_spill hdoomed hbody, if_neg (by rw [hbatch]; decide), hspill]
  · intro s1 j n ts hpieces hjoin
    rw [exec_copy_of_ready hready hcls]
    refine ⟨fun hdown htrans hn hgood => ?_, fun hup htrans hgood => ?_⟩
    · intro t hlast
      refine congrArg Host.Outcome.next (State.runCopy_of_piece hjoin hpieces ?_ hlast)
      rw [hdown]
      exact CopyRun.down_whole o.id htrans hn hgood
    · refine congrArg Host.Outcome.next (State.runCopy_of_piece hjoin hpieces ?_ hheld)
      rw [hup]
      exact CopyRun.up_whole hlatent htrans hgood
  · rw [exec_copy_of_started horder hcls hstarted, if_pos hwait]
  · rw [exec_copy_of_started horder hcls hstarted, if_neg (by simp [hdone])]

end Sys2Proof.Machine
end

section
/-! SUPPORT. The ruling, migrations, failed programs, returned frames, write-back and patrol reads (R220, R224, R278, R281 to R287, R463). -/

namespace Sys2Proof.Machine

/-! The ruling (R281 to R283) -/

theorem State.preg_modPreg (s : State) (p : PartNo) (f : PartRegs → PartRegs) : (s.modPreg p f).preg p = f (s.preg p) := by
  unfold State.modPreg State.preg
  simp only [Vector.getElem_set_self]

theorem State.ruling_modRuling (s : State) (p : PartNo) (f : Ruling → Ruling) : (s.modRuling p f).ruling p = f (s.ruling p) := by
  unfold State.modRuling State.ruling
  simp only [Vector.getElem_set_self]

theorem State.touchVa_of_no_latent {s : State} (h : s.mem.latent = []) (f : Nat) (q : WalkReq) (n : Nat) : s.touchVa f q n = s := if_pos (by rw [h]; rfl)

theorem exec_rulingPoll_of_read {s : State} {p : PartNo} {b : List Byte} {bad : Bool} (hon : (s.preg p).ruleEnable = true) (hlatent : s.mem.latent = [])
    (hread : s.dvRead p (masterMig (s.home p)) (s.preg p).ruleCur.toNat 8 = .ok (b, bad)) :
    exec (.rulingPoll p) s = .next (if bad then s else s.pollLayer p (BitVec.ofNat 32 (leField b 0 4))) := by
  simp only [exec, execRulingPoll, hon, hread, State.touchVa_of_no_latent hlatent]
  rfl

/-- What the note of a missed layer changes: the partition's flag and the list of its layers missed, each once. -/
structure State.MissNoted (s : State) (p : PartNo) (l : W32) (t : State) : Prop where
  preg : (t.preg p).ruleMiss = true
  started : (t.ruling p).started = (s.ruling p).started
  missed : (t.ruling p).missed = if l ∈ (s.ruling p).missed then (s.ruling p).missed else (s.ruling p).missed ++ [l]
  cells : t.mem.cells = s.mem.cells
  fol : t.fol = s.fol
  cores : t.cores = s.cores

theorem State.preg_of_mem {s t : State} (h : s.mem = t.mem) (p : PartNo) : s.preg p = t.preg p := by
  unfold State.preg
  rw [h]

theorem State.ruling_of_mem {s t : State} (h : s.mem = t.mem) (p : PartNo) : s.ruling p = t.ruling p := by
  unfold State.ruling
  rw [h]

theorem State.noteMiss_missNoted (s : State) (p : PartNo) (idx : Nat) (l : W32) : s.MissNoted p l (s.noteMiss p idx l.toNat) := by
  unfold State.noteMiss
  simp only [BitVec.ofNat_toNat, BitVec.setWidth_eq]
  split
  · next hold => exact ⟨by rw [State.preg_modPreg], rfl, (if_pos hold).symm, rfl, rfl, rfl⟩
  · next hnew =>
    obtain ⟨pmc, hcount⟩ := State.countDie_spec (s.modPreg p (fun r => { r with ruleMiss := true })) (s.home p).val ⟨0x11, 1, 0, 2, 2, some p, none, none⟩
    rw [hcount]
    generalize hmiss : (({ s.modPreg p (fun r => { r with ruleMiss := true }) with pmc := pmc } : State).modRuling p (fun r => { r with
      missed := r.missed ++ [l] })) = t
    have hnoted : s.MissNoted p l t := by
      rw [← hmiss]
      have hpreg := State.preg_modPreg s p (fun r => { r with ruleMiss := true })
      refine ⟨(congrArg PartRegs.ruleMiss hpreg :), ?_, ?_, rfl, rfl, rfl⟩
      · exact (congrArg Ruling.started (State.ruling_modRuling _ p _) :)
      · rw [if_neg hnew]
        exact (congrArg Ruling.missed (State.ruling_modRuling _ p _) :)
    unfold State.recordRuling
    obtain ⟨hpreg, hstarted, hmissed, hcells, hfol, hcores⟩ := hnoted
    refine ⟨?_, ?_, ?_, ?_, ?_, ?_⟩
    · rwa [State.preg_of_mem (State.report_mem _ _)]
    · rwa [State.ruling_of_mem (State.report_mem _ _)]
    · rwa [State.ruling_of_mem (State.report_mem _ _)]
    · rwa [State.report_mem]
    · rwa [State.report_fol]
    · rwa [State.report_cores]

theorem exec_rulingDeadline_of_entry {s : State} {p : PartNo} {i : Nat} {e : RuleEntry} (h : (s.ruling p).started[i]? = some e) :
    exec (.rulingDeadline p i) s = .next (if s.clock.time.toNat ≤ e.deadline.toNat then s
      else if e.hasFallback then ((s.noteFallback p).endEntry p e.idx 2).pump
      else if e.missed then s
      else (s.noteMiss p e.idx e.layer.toNat).modRuling p (fun r => { r with started := r.started.set i { e with missed := true } })) := by
  simp only [exec, execRulingDeadline, h]
  rfl

/-! Frames that return (R286, R287) -/

theorem exec_frameReturn_of_frame {s : State} {f : W32} {tier : Nat} {ep : W32} (htier : tierOfFrame f.toNat = some tier)
    (hat : Tab.get none s.mem.retireAt f.toNat = some ep) :
    exec (.frameReturn f) s = .next (if (s.frame f.toNat).state ≠ 2 ∨ s.fol.snaps.any (fun x => match x.2 with
        | some q => serialAfter ep q.epoch
        | none => false) then s
      else if decide (f.toNat ∈ Tab.get [] s.mem.retireList (mdieOf (dieOfFrame f.toNat)).val) then
        (s.retireFrame f.toNat).quotaCheck (partOf (s.frame f.toNat).part) tier
      else if (s.frame f.toNat).classB then (s.freeFrame f.toNat).retryTier (partOf (s.frame f.toNat).part) tier else (s.freeFrame f.toNat).pump) := by
  simp only [exec, execFrameReturn, htier, hat] <;> rfl

/-- No open snapshot is of an epoch before the one in which the frame was given up. -/
theorem not_any_snaps_of_reached {l : Tab (Option Snap)} {ep : W32} (h : ∀ sid q, (sid, some q) ∈ l → serialAfter ep q.epoch = false) :
    ¬ l.any (fun x => match x.2 with
      | some q => serialAfter ep q.epoch
      | none => false) = true := by
  intro hany
  obtain ⟨⟨sid, q⟩, hq, hafter⟩ := List.any_eq_true.1 hany
  cases q with
  | none => cases hafter
  | some q =>
    have hbefore := h sid q hq
    rw [show serialAfter ep q.epoch = true from hafter] at hbefore
    cases hbefore

/-! Patrol reads (R220, R463) -/

theorem State.countScrub_keeps (s : State) (ev a : Nat) : (s.countScrub ev a).mem = s.mem ∧ (s.countScrub ev a).fol = s.fol ∧ (s.countScrub ev a).log = s.log := by
  obtain ⟨pmc, h⟩ := State.countDie_spec s ((s.unitOf a).1 - 8) ⟨ev, 1, 0, 2, 3, none, some a, none⟩
  unfold State.countScrub
  rw [h]
  exact ⟨rfl, rfl, rfl⟩

theorem State.listRetire_cells (s : State) (f : Nat) : (s.listRetire f).mem.cells = s.mem.cells ∧ (s.listRetire f).mem.poison = s.mem.poison := by
  unfold State.listRetire
  dsimp only
  split
  · exact ⟨rfl, rfl⟩
  · split
    · exact ⟨rfl, rfl⟩
    · rw [State.report_mem]
      exact ⟨rfl, rfl⟩

/-- The bytes of the state, its folios, and the poison marks with a granule's set. -/
structure State.Poisoned (s : State) (g : Nat) (t : State) : Prop where
  cells : t.mem.cells = s.mem.cells
  poison : t.mem.poison = s.mem.poison.set g 1
  fol : t.fol = s.fol

/-- R463: a granule of HBM lost to a patrol read is poisoned, its bytes as they were. -/
theorem State.scrubLost_poisoned {s : State} {a : Nat} (h : tierOfFrame (a / 65536) = some 0) (n : Nat) : s.Poisoned (a / 64) (s.scrubLost a n) := by
  unfold State.scrubLost
  extract_lets f flash gs s1 ev ev1 s2 u s3 s4
  have hflash : flash = false := decide_eq_false (by rw [h]; decide)
  have hgs : gs = [a / 64] := if_neg (by rw [hflash]; decide)
  have hs1 : s1 = s.poisonGran (a / 64) := by
    unfold s1
    rw [hgs]
    rfl
  have hpoison : s.Poisoned (a / 64) s1 := by
    rw [hs1]
    exact ⟨rfl, rfl, rfl⟩
  have hs4 : s4 = s3.countScrub 0x1C a := if_neg (by rintro ⟨htier, -⟩; rw [show tierOfFrame f = some 0 from h] at htier; cases htier)
  have hlast : s.Poisoned (a / 64) s4 := by
    obtain ⟨hmem, hfol, -⟩ := State.countScrub_keeps s3 0x1C a
    rw [hs4]
    refine ⟨?_, ?_, ?_⟩
    · rw [hmem, State.report_mem]
      exact hpoison.cells
    · rw [hmem, State.report_mem]
      exact hpoison.poison
    · rw [hfol, State.report_fol]
      exact hpoison.fol
  split
  · exact hpoison
  · split
    · obtain ⟨hcells, hmarks⟩ := State.listRetire_cells s4 f
      exact ⟨hcells.trans hlast.cells, hmarks.trans hlast.poison, (State.listRetire_fol s4 f).trans hlast.fol⟩
    · exact hlast

theorem State.Poisoned.homeGran {s t : State} {g : Nat} (h : s.Poisoned g t) (hwf : s.mem.poison.wf = true) : (t.homeGran g).poison = true := by
  unfold State.homeGran
  dsimp only
  rw [h.poison, Cells.get_set hwf, if_pos rfl]
  rfl

/-- Settles O41: the ruling's poll and deadlines, then migrations, the write-back area, frames and patrol reads. -/
theorem memoryEvents : Obligations.MemoryEvents := by
  intro s p i
  refine ⟨fun hoff => congrArg Host.Outcome.next (if_pos (by simp [hoff])), fun b hon hlatent hread => exec_rulingPoll_of_read hon hlatent hread,
    fun b hon hlatent hread => exec_rulingPoll_of_read hon hlatent hread,
    fun e hentry => ⟨fun hearly => ?_, fun hlate hnofall => ⟨fun hmissed => ?_, fun hmissed => ?_⟩, fun hlate hfall => ?_⟩,
    fun g x hmig howner => ?_, fun g bad x nf hmig hbad htries halloc => ?_, fun w hw => ⟨?_, fun hold => ?_, fun hyoung hroom => ?_⟩,
    fun f tier ep htier hat => ⟨fun hstate => ?_, fun sid q hsnap hafter => ?_, fun hstate hreached => ?_⟩,
    fun a hon himpl hinv => ⟨?_, fun n htier => ?_⟩⟩
  · rw [exec_rulingDeadline_of_entry hentry, if_pos hearly]
  · rw [exec_rulingDeadline_of_entry hentry, if_neg (Nat.not_le.2 hlate), if_neg (by simp [hnofall]), if_pos hmissed]
  · refine ⟨_, (exec_rulingDeadline_of_entry hentry).trans (congrArg Host.Outcome.next ((if_neg (Nat.not_le.2 hlate)).trans
      ((if_neg (by simp [hnofall])).trans (if_neg (by simp [hmissed]))))), ?_⟩
    have hnoted := s.noteMiss_missNoted p e.idx e.layer
    generalize s.noteMiss p e.idx e.layer.toNat = t at hnoted ⊢
    refine ⟨hnoted.preg, ?_, ?_, hnoted.cells, hnoted.fol, hnoted.cores⟩
    · rw [State.ruling_modRuling, hnoted.started]
    · rw [State.ruling_modRuling, hnoted.missed]
  · rw [exec_rulingDeadline_of_entry hentry, if_neg (Nat.not_le.2 hlate), if_pos hfall]
    rfl
  · intro s0 hfolio hdone
    simp only [exec, execMigration, State.completeMigration, hmig]
    rw [show (s.modMem (fun m => { m with migrations := m.migrations.eraseIdx i })).migrationFolio g = .ok (x, false) from hfolio]
    simp only [hdone, howner, decide_true, if_true, State.moveEnded, Bool.false_eq_true, and_false, if_false]
  · intro g1
    simp only [exec, execFlashProgramFail, State.failProgram, hmig, hbad, if_neg (Nat.not_le.2 htries), halloc]
    rfl
  · simp only [exec, execFlashProgramFail, hw]
  · simp only [exec, execWritebackProgram, hw]
    refine ⟨_, congrArg Host.Outcome.next (if_pos (.inl (decide_eq_true hold))), ?_⟩
    obtain ⟨pmc, hcount⟩ := State.countDie_spec (s.modMem (fun m => { m with wb := m.wb.eraseIdx i })) (mdieOf (dieOfFrame w.frame)).val
      ⟨0x06, 1, 0, 2, 2, some w.part, some (65536 * w.frame), none⟩
    rw [hcount]
    rfl
  · simp only [exec, execWritebackProgram, hw]
    refine congrArg Host.Outcome.next (if_neg ?_)
    rintro (hold | ⟨hfull, -⟩)
    · exact absurd (of_decide_eq_true hold) (Nat.not_le.2 hyoung)
    · exact absurd (of_decide_eq_true hfull) (Nat.not_lt.2 hroom)
  · rw [exec_frameReturn_of_frame htier hat, if_pos (.inl hstate)]
  · rw [exec_frameReturn_of_frame htier hat, if_pos (.inr (List.any_eq_true.2 ⟨_, hsnap, hafter⟩))]
  · have hreturns : ¬ ((s.frame f.toNat).state ≠ 2 ∨ s.fol.snaps.any (fun x => match x.2 with
        | some q => serialAfter ep q.epoch
        | none => false) = true) := not_or.2 ⟨not_not.2 hstate, not_any_snaps_of_reached hreached⟩
    refine ⟨fun hunlisted => ?_, fun hlisted => ?_⟩
    · rw [exec_frameReturn_of_frame htier hat, if_neg hreturns, if_neg (by simp [hunlisted])]
    · rw [exec_frameReturn_of_frame htier hat, if_neg hreturns, if_pos (decide_eq_true hlisted)]
  · obtain ⟨hmem, -, hlog⟩ := State.countScrub_keeps s 0x1D a.toNat
    exact ⟨_, congrArg Host.Outcome.next (if_neg (by simp [State.mainOn, hon, himpl])), hmem, hlog⟩
  · obtain ⟨hmem, hfol, -⟩ := State.countScrub_keeps s 0x1D a.toNat
    refine ⟨_, congrArg Host.Outcome.next (if_neg (by simp [State.mainOn, hon, himpl])), ?_⟩
    have hlost := State.scrubLost_poisoned (s := s.countScrub 0x1D a.toNat) htier n
    have hwf : (s.countScrub 0x1D a.toNat).mem.poison.wf = true := by
      rw [hmem]
      exact ((Memory.wf_iff _).1 hinv.1).2.1
    exact ⟨hlost.homeGran hwf, hlost.cells.trans (congrArg MemState.cells hmem), hlost.fol.trans hfol⟩

end Sys2Proof.Machine
end

section
/-! SUPPORT. Local folios: open, extend, seal, scrape, inspect, resolve, snapshots and bound writes (R246 to R249, R254 to R258). -/

namespace Sys2Proof.Machine

/-! The job of a folio command, and the end that waits for it -/

theorem State.takeFolio_fol {s s1 : State} {src : CmdSrc} {op : Nat} {j : Job} (h : s.takeFolio src op = (s1, some j)) : s1.fol = s.fol := by
  unfold State.takeFolio State.takeJob at h
  split at h
  · split at h
    · cases h
    · cases h
      rfl
  · dsimp only at h
    split at h
    · cases h
    · split at h
      · cases h
      · split at h
        · cases h
        · cases h
          rfl

/-- A command that awaits the folio's end is noted in its slot; the slot's state, its span and the epoch stay. -/
theorem State.awaitEnd_keeps {s : State} (h : Tab.wf Folio.reset s.fol.slots = true) (id : Nat) (j : Job) :
    Tab.wf Folio.reset (s.awaitEnd id j).fol.slots = true ∧ (s.awaitEnd id j).fol.epoch = s.fol.epoch ∧
    ((s.awaitEnd id j).slot id).span = (s.slot id).span := by
  unfold State.awaitEnd
  dsimp only
  refine ⟨Tab.wf_set h _ _, rfl, ?_⟩
  rw [State.slot_setSlot h, if_pos rfl]

theorem State.endFolio_parts (s : State) (j : Job) (r : FolioRecord) : (s.endFolio j r).parts = s.parts := State.endRecord_parts ..

/-- R248: a scrape frees the slot of a folio of this module alone and leaves the epoch. -/
theorem State.scrapeSlot_awaited {s : State} (h : Tab.wf Folio.reset s.fol.slots = true) (id : Nat) (j : Job) (code : W16) :
    (((s.awaitEnd id j).scrapeSlot id code none).slot id).mode = .free ∧ ((s.awaitEnd id j).scrapeSlot id code none).fol.epoch = s.fol.epoch := by
  obtain ⟨hwf, hepoch, -⟩ := State.awaitEnd_keeps h id j
  obtain ⟨hfree, hkept⟩ := State.scrapeSlot_facts hwf id code none
  exact ⟨hfree, hkept.trans hepoch⟩

/-- The change of one state is that of another whose folios are the same. -/
theorem State.slot_of_fol {s t : State} (h : s.fol = t.fol) (id : Nat) : s.slot id = t.slot id := by
  unfold State.slot
  rw [h]

/-! Each command, once its job is taken -/

section
variable {s s1 : State} {src : CmdSrc} {j : Job}

theorem exec_folioOpen_local (h : s.takeFolio src 1 = (s1, some j)) (hlocal : bitOf (j.fld 3 1) 0 = false) :
    exec (.folioOpen src) s = .next (s1.openFolio j []) := by
  simp only [exec, execFolioOpen, h, hlocal, Bool.false_eq_true, if_false]

theorem State.openFolio_of_full {members : List Member}
    (h : s.freeSlot = none ∨ s.dictVal (0x4300 + j.part.val) 1 ≤ s.openCount j.part) : s.openFolio j members = s.endFolio j (.plain 0x0308 0) := by
  unfold State.openFolio
  rcases h with h | h
  · rw [h]
  · split
    · rfl
    · rw [if_pos h]

theorem State.openFolio_fol {id : Nat} (hlocal : bitOf (j.fld 3 1) 0 = false) (hfree : s.freeSlot = some id)
    (hroom : s.openCount j.part < s.dictVal (0x4300 + j.part.val) 1) :
    (s.openFolio j []).fol = { s.fol with slots := Tab.set Folio.reset s.fol.slots id { Folio.reset with
      gen := (s.slot id).gen + 1, mode := .opened, part := j.part, tolerant := bitOf (j.fld 3 1) 1,
      deadline := BitVec.ofNat 64 (j.fld 12 8), resultAddr := BitVec.ofNat 64 (j.fld 44 8) } } := by
  unfold State.openFolio
  rw [hfree]
  dsimp only
  rw [if_neg (Nat.not_le.2 hroom), State.endFolio_fol, hlocal]
  rfl

theorem exec_folioExtend_of_job (h : s.takeFolio src 2 = (s1, some j)) :
    exec (.folioExtend src) s = if !s1.named j.part j.handle ∨ (s1.slot (handleSlot j.handle)).mode ≠ .opened then .next (s1.endClosed j)
      else if j.fld 12 8 < (s1.slot (handleSlot j.handle)).deadline.toNat then .next (s1.rejectJob j PartRegs.folioRejected)
      else .next ((s1.setSlot (handleSlot j.handle) { s1.slot (handleSlot j.handle) with deadline := BitVec.ofNat 64 (j.fld 12 8) }).endFolio j
        (({ s1.slot (handleSlot j.handle) with deadline := BitVec.ofNat 64 (j.fld 12 8) } : Folio).record (handleSlot j.handle) 0 0 none s.now)) := by
  simp only [exec, execFolioExtend, h]

theorem exec_folioSeal_of_named (h : s.takeFolio src 3 = (s1, some j)) (hnamed : s1.named j.part j.handle = true)
    (hmode : (s1.slot (handleSlot j.handle)).mode = .opened ∨ (s1.slot (handleSlot j.handle)).mode = .doomed) :
    exec (.folioSeal src) s = .next ((if (s1.slot (handleSlot j.handle)).mode = .doomed then
        (s1.awaitEnd (handleSlot j.handle) j).scrapePart (handleSlot j.handle) (s1.slot (handleSlot j.handle)).cause
      else match (s1.slot (handleSlot j.handle)).span with
        | none => (s1.awaitEnd (handleSlot j.handle) j).sealLocal (handleSlot j.handle)
        | some _ => (s1.awaitEnd (handleSlot j.handle) j).completePart (handleSlot j.handle)).retryFreed s) := by
  have htakes : ¬ ((!s1.named j.part j.handle) = true ∨
      ((s1.slot (handleSlot j.handle)).mode ≠ .opened ∧ (s1.slot (handleSlot j.handle)).mode ≠ .doomed)) := by
    rintro (hno | ⟨hopen, hdoomed⟩)
    · simp [hnamed] at hno
    · exact hmode.elim hopen hdoomed
  simp only [exec, execFolioSeal, h, if_neg htakes] <;> rfl

/-- R247: a folio none of whose pages is poisoned, or that tolerates it, is sealed at the next epoch; another is scraped. -/
theorem State.sealLocal_of_clean {id : Nat} (h : (FX.ofSlot s id).judge.f.poisoned = 0 ∨ (FX.ofSlot s id).judge.f.tolerant = true) :
    ((s.sealLocal id).slot id).mode = .sealed ∧ ((s.sealLocal id).slot id).sealEpoch = s.fol.epoch + 1 ∧ (s.sealLocal id).fol.epoch = s.fol.epoch + 1 := by
  have hclean : ¬ ((FX.ofSlot s id).judge.f.poisoned ≠ 0 ∧ (!(FX.ofSlot s id).judge.f.tolerant) = true) := by
    rintro ⟨hpoison, htolerant⟩
    rcases h with h | h
    · exact hpoison h
    · simp [h] at htolerant
  unfold State.sealLocal
  dsimp only
  rw [if_neg hclean]
  exact FX.sealBack_facts s id (FX.ofSlot s id).judge rfl rfl

theorem State.sealLocal_of_poisoned (hwf : Tab.wf Folio.reset s.fol.slots = true) {id : Nat} (hpoison : (FX.ofSlot s id).judge.f.poisoned ≠ 0)
    (htolerant : (FX.ofSlot s id).judge.f.tolerant = false) :
    ((s.sealLocal id).slot id).mode = .free ∧ (s.sealLocal id).fol.epoch = s.fol.epoch := by
  unfold State.sealLocal
  dsimp only
  rw [if_pos ⟨hpoison, by simp [htolerant]⟩]
  exact State.scrapeSlot_facts (s := (FX.ofSlot s id).judge.back) (Tab.wf_set hwf _ _) id 0x0303 none

theorem exec_snapOpen_of_room (h : s.takeFolio src 6 = (s1, some j)) {sid : Nat} (hroom : (s1.snapsOf j.part).length < s1.dictVal (0x4300 + j.part.val) 4)
    (hfree : (List.range 1024).find? (fun i => decide (Tab.get none s1.fol.snaps i = none)) = some sid) {e : W32}
    (he : e = if j.fld 40 4 = 0xFFFFFFFF then s1.fol.epoch else BitVec.ofNat 32 (j.fld 40 4)) :
    exec (.snapOpen src) s = if !s1.inReach e ∨ serialAfter (s1.floor j.part) e then .next (s1.endFolio j (.plain 0x0304 0))
      else .next ((({ s1 with fol := { s1.fol with snaps := Tab.set none s1.fol.snaps sid (some ⟨j.part, e⟩) } } : State)).endFolio j
        { FolioRecord.plain 0 sid with outcome := 3, epoch := e.toNat, time := s.now }) := by
  subst he
  simp only [exec, execSnapOpen, h, if_neg (Nat.not_le.2 hroom), hfree]

theorem exec_snapClose_of_own (h : s.takeFolio src 7 = (s1, some j)) {sn : Snap} (hopen : Tab.get none s1.fol.snaps (bits (j.fld 4 8) 0 10) = some sn)
    (hown : sn.part = j.part) : exec (.snapClose src) s = .next ((s1.closeSnap (bits (j.fld 4 8) 0 10) false).endFolio j
      { FolioRecord.plain 0 (bits (j.fld 4 8) 0 10) with outcome := 4, epoch := sn.epoch.toNat, time := s.now }) := by
  simp only [exec, execSnapClose, h, hopen, hown, ne_eq, not_true_eq_false, if_false]

/-- R255: a snapshot that closes leaves the folios and the epoch. -/
theorem State.closeSnap_spec (hwf : Tab.wf none s.fol.snaps = true) {sid : Nat} {sn : Snap} (hopen : Tab.get none s.fol.snaps sid = some sn) :
    Tab.get none (s.closeSnap sid false).fol.snaps sid = none ∧ (s.closeSnap sid false).fol.slots = s.fol.slots ∧
    (s.closeSnap sid false).fol.epoch = s.fol.epoch := by
  unfold State.closeSnap
  rw [hopen]
  exact ⟨(Tab.get_set hwf sid sid none).trans (if_pos rfl), rfl, rfl⟩

theorem exec_folioResolve_of_doubt (h : s.takeFolio src 8 = (s1, some j)) (hnamed : s1.named j.part j.handle = true)
    (hdoubt : (s1.slot (handleSlot j.handle)).mode = .inDoubt) :
    exec (.folioResolve src) s = if bitOf (j.fld 3 1) 2 then .next ((s1.awaitEnd (handleSlot j.handle) j).sealSlot (handleSlot j.handle))
      else .next (((s1.awaitEnd (handleSlot j.handle) j).scrapeSlot (handleSlot j.handle) 0x0309 none).retryFreed s) := by
  have htakes : ¬ ((!s1.named j.part j.handle) = true ∨ (s1.slot (handleSlot j.handle)).mode ≠ .inDoubt) := by simp [hnamed, hdoubt]
  simp only [exec, execFolioResolve, h, if_neg htakes]

end

/-! The end of an applied folio, and the decrement of a replaced subtree -/

theorem State.tellMember_fol (s : State) (sp : Span) (d : Nat) (m : FolioMsg) : (s.tellMember sp d m).fol = s.fol := by
  unfold State.tellMember
  split
  · split <;> rfl
  · rfl

theorem State.lostRecords_fol (s : State) (f : Folio) (lost : List Nat) : (s.lostRecords f lost).fol = s.fol :=
  foldl_keeps State.fol _ State.poisonGran_fol _ _

theorem exec_folioApplyComplete_of_sealed {s : State} {id : BitVec 14} {lost : List Nat} (h : (s.slot id.toNat).mode = .sealed) :
    ∃ t, exec (.folioApplyComplete ⟨id, lost⟩) s = .next t ∧ t.fol = ((s.lostRecords (s.slot id.toNat) lost).endSlot id.toNat 0 1 none).fol := by
  simp only [exec, execFolioApplyComplete, if_neg (not_not.2 h)]
  split
  · exact ⟨_, rfl, rfl⟩
  · refine ⟨_, rfl, ?_⟩
    split
    · rfl
    · exact State.tellMember_fol ..

/-- R246 step 6: an applied folio frees its slot and keeps its generation. -/
theorem State.slot_of_applied {s t : State} (hwf : FolioState.wf s.fol = true) {id : Nat} {lost : List Nat}
    (h : t.fol = ((s.lostRecords (s.slot id) lost).endSlot id 0 1 none).fol) :
    (t.slot id).mode = .free ∧ (t.slot id).gen = (s.slot id).gen ∧ t.fol.epoch = s.fol.epoch := by
  have hlost := State.lostRecords_fol s (s.slot id) lost
  have hslot := State.slot_of_fol hlost id
  generalize s.lostRecords (s.slot id) lost = v at h hlost hslot
  obtain ⟨hend, -, hkept, -⟩ := State.endSlot_facts (s := v) (by rw [hlost]; exact ((FolioState.wf_iff _).1 hwf).1) id 0 1 none
  rw [State.slot_of_fol h, hend, h, hkept, hslot, hlost]
  exact ⟨rfl, rfl, rfl⟩

theorem State.setFrame_subtrees (s : State) (f : Nat) (e : FrameEnt) : (s.setFrame f e).mem.subtrees = s.mem.subtrees := by
  unfold State.setFrame
  dsimp only
  split <;> rfl

theorem State.refFrame_subtrees (s : State) (f : Nat) (up : Bool) : (s.refFrame f up).mem.subtrees = s.mem.subtrees := by
  unfold State.refFrame
  dsimp only
  split
  · exact State.setFrame_subtrees ..
  · split
    · exact State.setFrame_subtrees ..
    · exact State.setFrame_subtrees ..

theorem State.dropRef_keeps (s : State) (f : Nat) (e : W32) : (s.dropRef f e).mem.subtrees = s.mem.subtrees ∧ (s.dropRef f e).fol = s.fol := by
  unfold State.dropRef
  dsimp only
  split
  · exact ⟨State.refFrame_subtrees .., State.refFrame_fol ..⟩
  · exact ⟨State.refFrame_subtrees .., State.refFrame_fol ..⟩

theorem State.retireTable_keeps (s : State) (f : Nat) (e : W32) : (s.retireTable f e).mem.subtrees = s.mem.subtrees ∧ (s.retireTable f e).fol = s.fol := by
  unfold State.retireTable
  dsimp only
  split
  · exact ⟨State.setFrame_subtrees .., State.setFrame_fol ..⟩
  · exact ⟨rfl, rfl⟩

/-- Settles O42: each folio command by what its job names, then the end of an applied folio, bound writes and the decrement of a subtree. -/
theorem folios : Obligations.Folios := by
  intro s src s1 j hwf
  have hslots {op : Nat} (h : s.takeFolio src op = (s1, some j)) : Tab.wf Folio.reset s1.fol.slots = true := by
    rw [State.takeFolio_fol h]
    exact ((FolioState.wf_iff _).1 hwf).1
  refine ⟨fun htake hlocal => ⟨fun hfull => ?_, fun id hfree hroom => ?_⟩, ?_, ?_, fun id lost => ⟨fun hmode => if_pos hmode, fun hmode => ?_⟩,
    fun htake hnamed hopen hspan => ?_, fun htake => ?_, ?_, fun sn htake hopen hown => ?_, fun htake hnamed hdoubt => ⟨fun hseal => ?_, fun hscrape => ?_⟩,
    fun p handle addr data poisoned => ⟨fun hunnamed => ?_, fun ts hnamed hopen htrans => ?_⟩, fun table level e rest hsub => ?_⟩
  · rw [exec_folioOpen_local htake hlocal, State.openFolio_of_full hfull]
  · exact ⟨_, exec_folioOpen_local htake hlocal, State.openFolio_fol hlocal hfree hroom⟩
  · intro htake id
    refine ⟨fun hunnamed => ?_, fun hnamed hopen hlater => ?_⟩
    · rw [exec_folioExtend_of_job htake, if_pos (.inl (by simp [hunnamed]))]
    · refine ⟨_, (exec_folioExtend_of_job htake).trans ((if_neg ?_).trans (if_neg (Nat.not_lt.2 hlater))), ?_⟩
      · rw [hnamed]
        simpa using hopen
      · rw [State.endFolio_fol]
        rfl
  · intro htake hnamed id x
    obtain ⟨hawait, hepoch, -⟩ := State.awaitEnd_keeps (hslots htake) id j
    refine ⟨fun hopen hspan => ?_, fun hdoomed => ?_, fun hopen hspan => ?_⟩
    · have hexec := exec_folioSeal_of_named htake hnamed (.inl hopen)
      rw [if_neg (by rw [hopen]; decide), show (s1.slot (handleSlot j.handle)).span = none from hspan] at hexec
      refine ⟨fun hclean => ⟨_, hexec, ?_⟩, fun hpoison htolerant => ⟨_, hexec, ?_⟩⟩
      · rw [← hepoch]
        exact State.sealLocal_of_clean hclean
      · rw [← hepoch]
        exact State.sealLocal_of_poisoned hawait hpoison htolerant
    · rw [exec_folioSeal_of_named htake hnamed (.inr hdoomed), if_pos hdoomed]
    · obtain ⟨sp, hsp⟩ := Option.isSome_iff_exists.1 hspan
      rw [exec_folioSeal_of_named htake hnamed (.inl hopen), if_neg (by rw [hopen]; decide), show (s1.slot (handleSlot j.handle)).span = some sp from hsp]
  · obtain ⟨t, hexec, hfol⟩ := exec_folioApplyComplete_of_sealed hmode
    exact ⟨t, hexec, State.slot_of_applied hwf hfol⟩
  · obtain ⟨-, -, hkept⟩ := State.awaitEnd_keeps (hslots htake) (handleSlot j.handle) j
    have htakes : ¬ ((!s1.named j.part j.handle) = true ∨ ((s1.slot (handleSlot j.handle)).mode ≠ .opened ∧
        (s1.slot (handleSlot j.handle)).mode ≠ .doomed ∧ (s1.slot (handleSlot j.handle)).mode ≠ .complete)) := by simp [hnamed, hopen]
    have hpart : (s1.awaitEnd (handleSlot j.handle) j).scrapePart (handleSlot j.handle) 0x0309 =
        (s1.awaitEnd (handleSlot j.handle) j).scrapeSlot (handleSlot j.handle) 0x0309 none := by
      unfold State.scrapePart
      dsimp only
      rw [hkept, hspan]
    simp only [exec, execFolioScrape, htake, if_neg htakes]
    rw [if_neg (by rw [hopen]; decide), hpart]
    exact ⟨_, rfl, State.scrapeSlot_awaited (hslots htake) _ _ _⟩
  · simp only [exec, execFolioInspect, htake]
    split
    · exact ⟨_, rfl, State.endFolio_fol .., State.endFolio_parts ..⟩
    · exact ⟨_, rfl, State.endFolio_fol .., State.endFolio_parts ..⟩
  · intro htake e sid hroom hfree
    have hexec := exec_snapOpen_of_room htake hroom hfree (e := e) rfl
    refine ⟨fun hreach hfloor => ?_, fun hold => ?_⟩
    · refine ⟨_, hexec.trans (if_neg (by simp [hreach, hfloor])), ?_⟩
      rw [State.endFolio_fol]
    · exact hexec.trans (if_pos (hold.imp_left (fun h => by simp [h])))
  · refine ⟨_, exec_snapClose_of_own htake hopen hown, ?_⟩
    rw [State.endFolio_fol]
    refine State.closeSnap_spec ?_ hopen
    rw [State.takeFolio_fol htake]
    exact ((FolioState.wf_iff _).1 hwf).2
  · obtain ⟨hsealed, -, hepoch⟩ := FX.sealBack_facts (s1.awaitEnd (handleSlot j.handle) j) (handleSlot j.handle)
      (FX.ofSlot (s1.awaitEnd (handleSlot j.handle) j) (handleSlot j.handle)) rfl rfl
    exact ⟨_, (exec_folioResolve_of_doubt htake hnamed hdoubt).trans (if_pos hseal), hsealed, hepoch⟩
  · exact ⟨_, (exec_folioResolve_of_doubt htake hnamed hdoubt).trans (if_neg (by simp [hscrape])), State.scrapeSlot_awaited (hslots htake) _ _ _⟩
  · simp only [exec, execFolioWrite, hunnamed]
    rfl
  · have htakes : ¬ ((!s.named p handle) = true ∨ ((s.slot (handleSlot handle)).mode ≠ .opened ∧ (s.slot (handleSlot handle)).mode ≠ .doomed)) := by
      simp [hnamed, hopen]
    simp only [exec, execFolioWrite, if_neg htakes, htrans]
  · simp only [exec, execSubtreeDecrement, hsub]
    refine ⟨_, rfl, ?_⟩
    rw [(State.retireTable_keeps ..).1, (State.retireTable_keeps ..).2]
    split
    · rw [foldl_keeps State.fol _ (fun t v => (State.dropRef_keeps t _ _).2),
        foldl_keeps (fun t : State => t.mem.subtrees) _ (fun t v => (State.dropRef_keeps t _ _).1)]
      exact ⟨rfl, by simp⟩
    · exact ⟨rfl, rfl⟩

end Sys2Proof.Machine
end

section
/-! SUPPORT. Spanning folios: prepare and vote, decision, acknowledgement and deadlines (R251 to R253, R257, R258, R351, R358). -/

namespace Sys2Proof.Machine

/-! Messages of a spanning folio -/

theorem State.hear_of_addressed {s : State} {via : Option FolioVia} (h : ∀ v, via = some v → s.addressed v.dst v.part.toNat = true) (act : State → State) :
    s.hear via act = act s := by
  cases via with
  | none => rfl
  | some v => exact if_pos (h v rfl)

theorem State.hear_of_misaddressed {s : State} {v : FolioVia} (h : s.addressed v.dst v.part.toNat = false) (act : State → State) :
    s.hear (some v) act = s.countPort v.port 0x11 1 0 := if_neg (by simp [h])

/-- What is sent out for a message to a member: the message, or PORT_HELD toward a module whose ports are all held (R358). -/
def State.tellOut (s : State) (sp : Span) (k : Nat) (m : FolioMsg) : Out :=
  match sp.members[k]?, sp.members[sp.myIndex]? with
  | some x, some me => if x.module ≠ s.address ∧ s.heldToward x.module = true then .engineCode (partOf me.part.toNat) 0x040C
      else .folio sp.globalId k sp.myIndex (some x) m
  | x, _ => .folio sp.globalId k sp.myIndex x m

theorem State.tellMember_eq (s : State) (sp : Span) (k : Nat) (m : FolioMsg) : s.tellMember sp k m = s.emit (s.tellOut sp k m) := by
  unfold State.tellMember State.tellOut
  cases hto : sp.members[k]? with
  | none => rfl
  | some x =>
    cases hme : sp.members[sp.myIndex]? with
    | none => rfl
    | some me =>
      dsimp only
      split <;> rfl

theorem State.tellMember_out (s : State) (sp : Span) (k : Nat) (m : FolioMsg) : (s.tellMember sp k m).out = s.out ++ [s.tellOut sp k m] := by
  rw [State.tellMember_eq]
  rfl

theorem State.tellOut_of_open {s : State} {sp : Span} (h : ∀ x ∈ sp.members, x.module = s.address ∨ s.heldToward x.module = false) (k : Nat) (m : FolioMsg) :
    s.tellOut sp k m = .folio sp.globalId k sp.myIndex sp.members[k]? m := by
  unfold State.tellOut
  split
  · next x me hx hme =>
    rw [if_neg, hx]
    rintro ⟨hother, hheld⟩
    rcases h x (List.mem_of_getElem? hx) with hself | hopen
    · exact hother hself
    · rw [hopen] at hheld
      cases hheld
  · rfl

/-- Messages to members none of whose modules is held all go out, and nothing but what is sent changes. -/
theorem State.foldl_tellMember {s : State} {sp : Span} (h : ∀ x ∈ sp.members, x.module = s.address ∨ s.heldToward x.module = false) (m : FolioMsg) (l : List Nat) :
    (l.foldl (fun t i => t.tellMember sp i m) s).mem = s.mem ∧
    (l.foldl (fun t i => t.tellMember sp i m) s).out = s.out ++ l.map (fun k => .folio sp.globalId k sp.myIndex sp.members[k]? m) := by
  induction l generalizing s with
  | nil => exact ⟨rfl, (List.append_nil _).symm⟩
  | cons k l ih =>
    rw [List.foldl_cons, State.tellMember_eq, State.tellOut_of_open h]
    obtain ⟨hmem, hout⟩ := ih (s := s.emit (.folio sp.globalId k sp.myIndex sp.members[k]? m)) h
    refine ⟨hmem, hout.trans ?_⟩
    rw [List.map_cons, State.emit_out, List.append_assoc, List.singleton_append]

/-! The part of a spanning folio in its slot -/

/-- The slot that holds a part, and the spanning side of that part. -/
structure State.HoldsPart (s : State) (id : Nat) (f : Folio) (sp : Span) : Prop where
  wf : FolioState.wf s.fol = true
  slot : s.slot id = f
  span : f.span = some sp

theorem State.HoldsPart.modSpan {s : State} {id : Nat} {f : Folio} {sp : Span} (h : s.HoldsPart id f sp) (g : Span → Span) :
    (s.modSpan id g).HoldsPart id { f with span := some (g sp) } (g sp) := by
  refine ⟨State.modSpan_wf h.wf id g, ?_, rfl⟩
  rw [State.slot_modSpan h.wf, h.slot, h.span]
  rfl

theorem State.holdsPart_of_partSlot {s : State} (hwf : FolioState.wf s.fol = true) {gid : W64} {i id : Nat} {f : Folio} {sp : Span}
    (hpart : s.partSlot gid i = some (id, f)) (hspan : f.span = some sp) : s.HoldsPart id f sp :=
  ⟨hwf, (State.slot_of_part hwf hpart).1, hspan⟩

theorem State.retryFreed_self (s : State) : s.retryFreed s = s := by
  have hpart (p : PartNo) : [0, 1].foldl (fun (v : State) tier =>
      if v.mem.waits ≠ [] ∧ v.usage p tier true < s.usage p tier true then v.retryTier p tier else v) s = s := by
    simp only [List.foldl_cons, List.foldl_nil, Nat.lt_irrefl, and_false, if_false]
  unfold State.retryFreed
  induction allParts with
  | nil => rfl
  | cons p ps ih => rw [List.foldl_cons, hpart p, ih]

/-! PREPARE and the vote (R251) -/

section
variable {s : State} {id : Nat} {f : Folio} {sp : Span} (h : s.HoldsPart id f sp)
include h

/-- A member that has not voted sends its vote to the coordinator. -/
theorem State.HoldsPart.castVote (hvoted : sp.voted = false) (hmember : sp.myIndex ≠ 0) (yes : Bool) (code : W16) :
    s.castVote id yes code = (s.modSpan id (fun x => { x with voted := true })).tellMember sp 0 (.vote yes code s.clock.time) := by
  unfold State.castVote
  rw [h.slot]
  dsimp only
  rw [h.span]
  dsimp only
  rw [if_neg (by simp [hvoted]), if_neg hmember]

theorem State.HoldsPart.answerPart_doomed (hvoted : sp.voted = false) (hmode : f.mode = .doomed) : s.answerPart id = s.castVote id false f.cause := by
  unfold State.answerPart
  rw [h.slot]
  dsimp only
  rw [h.span, hmode]
  exact if_neg (by simp [hvoted])

/-- The slot of a part once it is prepared. -/
def State.prepared (s : State) (id : Nat) : State :=
  ({ (FX.ofSlot s id).judge with f := { (FX.ofSlot s id).judge.f with mode := .prepared } } : FX).back

theorem State.HoldsPart.answerPart_complete (hvoted : sp.voted = false) (hmode : f.mode = .complete) (hlate : sp.late = false)
    (hclean : (FX.ofSlot s id).judge.f.poisoned = 0) : s.answerPart id = (s.prepared id).castVote id true 0 := by
  unfold State.answerPart
  rw [h.slot]
  dsimp only
  rw [h.span, hmode]
  dsimp only
  rw [if_neg (by simp [hvoted]), if_neg (by simp [hlate]), if_neg (fun hpoison => hpoison.1 hclean)]
  rfl

theorem State.HoldsPart.prepared : (s.prepared id).HoldsPart id { (FX.ofSlot s id).judge.f with mode := .prepared } sp := by
  obtain ⟨hslots, hsnaps⟩ := (FolioState.wf_iff _).1 h.wf
  refine ⟨(FolioState.wf_iff _).2 ⟨Tab.wf_set hslots _ _, hsnaps⟩, State.slot_setSlot_used _ _ _ (by simp), ?_⟩
  show (s.slot id).span = some sp
  rw [h.slot, h.span]

end

/-! The coordinator's count (R252) -/

theorem List.findSome?_range_first {α : Type} {p : Nat → Option α} {n q : Nat} {v : α} (hq : q < n) (hv : p q = some v) (hlow : ∀ r < q, p r = none) :
    (List.range n).findSome? p = some v := by
  obtain ⟨k, rfl⟩ := Nat.exists_eq_add_of_le (Nat.succ_le_of_lt hq)
  rw [List.range_add, List.range_succ, List.append_assoc, List.findSome?_append,
    List.findSome?_eq_none_iff.2 (fun r hr => hlow r (List.mem_range.1 hr)), Option.none_or, List.singleton_append, List.findSome?_cons, hv]

section
variable {s : State} {id : Nat} {f : Folio} {sp : Span} (h : s.HoldsPart id f sp) (hnone : sp.decision = none) (hmany : 1 < sp.members.length)
include h hnone hmany

theorem State.HoldsPart.tally : s.tally id =
    if !(List.range sp.members.length).all (fun i => sp.votes.any (fun v => decide (v.member = i))) then s
    else if decide (f.deadline < s.clock.time) || sp.votes.any (fun v => decide (f.deadline < v.time)) then s.decideSpan id false 0x0305 0
    else match (List.range sp.members.length).findSome? (fun i => sp.votes.find? (fun v => decide (v.member = i) && !v.yes)) with
      | some v => s.decideSpan id false v.code v.member
      | none => s.decideSpan id true 0 0 := by
  unfold State.tally
  rw [h.slot]
  dsimp only
  rw [h.span]
  dsimp only
  rw [if_neg (Nat.not_le.2 hmany)]
  simp only [hnone, Option.isSome_none, Bool.false_eq_true, false_or] <;> rfl

theorem State.HoldsPart.tally_waiting {q : Nat} (hq : q < sp.members.length) (hmissing : sp.votes.any (fun v => decide (v.member = q)) = false) :
    s.tally id = s := by
  rw [h.tally hnone hmany, if_pos]
  rw [Bool.not_eq_true', List.all_eq_false]
  exact ⟨q, List.mem_range.2 hq, by rw [hmissing]; decide⟩

variable (hall : ∀ q < sp.members.length, sp.votes.any (fun v => decide (v.member = q)) = true)
include hall

theorem State.HoldsPart.tally_all : s.tally id =
    if decide (f.deadline < s.clock.time) || sp.votes.any (fun v => decide (f.deadline < v.time)) then s.decideSpan id false 0x0305 0
    else match (List.range sp.members.length).findSome? (fun i => sp.votes.find? (fun v => decide (v.member = i) && !v.yes)) with
      | some v => s.decideSpan id false v.code v.member
      | none => s.decideSpan id true 0 0 := by
  rw [h.tally hnone hmany, if_neg]
  rw [Bool.not_eq_true', Bool.not_eq_false, List.all_eq_true]
  exact fun q hq => hall q (List.mem_range.1 hq)

theorem State.HoldsPart.tally_late (hlate : f.deadline < s.clock.time) : s.tally id = s.decideSpan id false 0x0305 0 := by
  rw [h.tally_all hnone hmany hall, if_pos (by simp [hlate])]

variable (hearly : s.clock.time ≤ f.deadline) (hvotes : ∀ v ∈ sp.votes, v.time ≤ f.deadline)
include hearly hvotes

theorem State.HoldsPart.tally_in_time : s.tally id =
    match (List.range sp.members.length).findSome? (fun i => sp.votes.find? (fun v => decide (v.member = i) && !v.yes)) with
    | some v => s.decideSpan id false v.code v.member
    | none => s.decideSpan id true 0 0 := by
  rw [h.tally_all hnone hmany hall, if_neg]
  rw [Bool.or_eq_true, decide_eq_true_iff, List.any_eq_true, not_or]
  refine ⟨BitVec.not_lt.2 hearly, ?_⟩
  rintro ⟨v, hv, hlt⟩
  exact BitVec.not_lt.2 (hvotes v hv) (of_decide_eq_true hlt)

theorem State.HoldsPart.tally_yes (hyes : ∀ v ∈ sp.votes, v.yes = true) : s.tally id = s.decideSpan id true 0 0 := by
  have hno : (List.range sp.members.length).findSome? (fun i => sp.votes.find? (fun v => decide (v.member = i) && !v.yes)) = none := by
    rw [List.findSome?_eq_none_iff]
    intro i _
    rw [List.find?_eq_none]
    intro v hv
    simp [hyes v hv]
  rw [h.tally_in_time hnone hmany hall hearly hvotes, hno]

/-- R252: the lowest member that voted NO gives the code. -/
theorem State.HoldsPart.tally_no {q : Nat} {v : Vote} (hq : q < sp.members.length) (hv : sp.votes.find? (fun v => decide (v.member = q) && !v.yes) = some v)
    (hlow : ∀ r < q, sp.votes.find? (fun v => decide (v.member = r) && !v.yes) = none) : s.tally id = s.decideSpan id false v.code v.member := by
  rw [h.tally_in_time hnone hmany hall hearly hvotes, List.findSome?_range_first hq hv hlow]

end

/-! The decision (R252, R253) -/

section
variable {s : State} {id : Nat} {f : Folio} {sp : Span} (h : s.HoldsPart id f sp)
include h

theorem State.HoldsPart.followDecision_sealed (code : W16) (no : Nat) :
    ((s.followDecision id true code no).slot id).mode = .sealed ∧ (s.followDecision id true code no).fol.epoch = s.fol.epoch + 1 := by
  unfold State.followDecision
  rw [h.slot]
  dsimp only
  rw [h.span]
  dsimp only
  rw [if_pos rfl]
  generalize ht : ((s.keepDecision ⟨sp.globalId, sp.myIndex, true, code, no, f.deadline⟩).modSpan id
    (fun x => { x with decision := some true, decisionCode := code, noIndex := no })) = t
  obtain ⟨hsealed, -, hepoch⟩ := FX.sealBack_facts t id (FX.ofSlot t id) rfl rfl
  refine ⟨hsealed, hepoch.trans ?_⟩
  rw [← ht]
  rfl

theorem State.HoldsPart.followDecision_scraped (code : W16) (no : Nat) :
    ((s.followDecision id false code no).slot id).mode = .free ∧ (s.followDecision id false code no).fol.epoch = s.fol.epoch := by
  unfold State.followDecision
  rw [h.slot]
  dsimp only
  rw [h.span]
  dsimp only
  rw [if_neg (by decide), State.slot_tell, State.tellMember_fol]
  exact State.scrapeSlot_facts ((FolioState.wf_iff _).1 (State.modSpan_wf (s := s.keepDecision ⟨sp.globalId, sp.myIndex, false, code, no, f.deadline⟩) h.wf id _)).1 id
    code (some no)

end

/-- Settles O43: a message that is misaddressed, then each message in the states that take it, a spanning OPEN, and the deadlines. -/
theorem spanning : Obligations.Spanning := by
  intro s hwf m i
  refine ⟨?_, fun hto => ⟨fun hnopart => ⟨fun hscraped => ⟨?_, fun sealed code no => ?_⟩, fun e hscraped => ⟨?_, fun hkept sealed code no => ?_⟩⟩,
      fun id f sp hpart hspan hmember hvoted => ?_, fun id f sp k code time hpart hspan hnone hk hnew hmany => ?_,
      fun id f sp hpart hspan hnone hmember hmode code no => ?_, fun id f sp k hpart hspan => ⟨fun hnone => ?_, fun d hdecided hack => ?_⟩,
      fun k asker hkept => ?_, fun id f asker hkept hpart hlate => ?_⟩,
    fun src s1 j bs id htake hspans hread hzero hfree hroom => ?_, fun id sp hspan => ⟨fun hearly => ?_, fun hlate hnone hcoord hmany => ?_,
      fun hlate hnone hmember hopen => ?_, fun hcoord hdecided hdue => ?_, fun hprepared hnone hmember => ⟨fun hqueried hdue hheld => ?_, fun hdue => ?_⟩⟩, ?_⟩
  · intro v hv hmis t
    have hhear (act : State → State) : s.hear m.via act = t := by
      rw [hv]
      exact State.hear_of_misaddressed hmis act
    refine ⟨?_, ?_, fun sealed code no => ?_, fun k yes code time => ?_, fun k => ?_⟩
    · simp only [exec, execPrepare, hhear]
    · simp only [exec, execDecisionQuery, hhear]
    · simp only [exec, execDecision, hhear]
    · simp only [exec, execVote, hhear]
    · simp only [exec, execDecisionAck, hhear]
  · simp only [exec, execPrepare, State.hear_of_addressed hto, hnopart, hscraped]
  · simp only [exec, execDecision, State.hear_of_addressed hto, hnopart, hscraped]
  · simp only [exec, execPrepare, State.hear_of_addressed hto, hnopart, hscraped]
  · simp only [exec, execDecision, State.hear_of_addressed hto, hnopart, hscraped, hkept, Option.isSome_none, Bool.false_eq_true, if_false]
  · intro tell
    have hexec : exec (.prepare m i) s = .next (((s.modSpan id (fun x => { x with prepareSeen := true })).answerPart id).retryFreed s) := by
      simp only [exec, execPrepare, State.hear_of_addressed hto, hpart]
    have hseen := (State.holdsPart_of_partSlot hwf hpart hspan).modSpan (fun x => { x with prepareSeen := true })
    refine ⟨fun hmode hlate hclean => ⟨_, hexec, ?_⟩, fun hmode => ⟨_, hexec, ?_⟩⟩
    · have hprepared := hseen.prepared
      rw [hseen.answerPart_complete hvoted hmode hlate hclean, hprepared.castVote hvoted hmember]
      have hvote := hprepared.modSpan (fun x => { x with voted := true })
      refine ⟨?_, ?_, State.tellMember_out ..⟩
      · rw [State.slot_tell, hvote.slot]
      · rw [State.slot_tell, hvote.slot]
        exact (congrArg Folio.pages hseen.slot :)
    · rw [hseen.answerPart_doomed hvoted hmode, hseen.castVote hvoted hmember]
      exact State.tellMember_out ..
  · intro vs s1 all
    have hexec (yes : Bool) : exec (.vote m k yes code time) s = .next (((s1 yes).tally id).retryFreed s) := by
      simp only [exec, execVote, State.hear_of_addressed hto, hpart, hspan]
      rw [if_neg (by simp [hnone, hnew, hk])]
    have hheld (yes : Bool) := (State.holdsPart_of_partSlot hwf hpart hspan).modSpan (fun x => { x with votes := x.votes ++ [⟨k, yes, code, time⟩] })
    refine ⟨fun yes q hq hmissing => ?_, fun hall hyes hearly => ?_, fun yes hall hlate => ?_, fun yes v q hall hearly hvotes hq hv hlow => ?_⟩
    · rw [hexec, (hheld yes).tally_waiting hnone hmany hq hmissing]
    · rw [hexec, (hheld true).tally_yes hnone hmany hall hearly (fun v hv => (hyes v hv).2) (fun v hv => (hyes v hv).1)]
    · rw [hexec, (hheld yes).tally_late hnone hmany hall hlate]
    · rw [hexec, (hheld yes).tally_no hnone hmany hall hearly hvotes hq hv hlow]
  · have hheld := State.holdsPart_of_partSlot hwf hpart hspan
    have hexec (sealed : Bool) : exec (.decision m i sealed code no) s = .next ((s.followDecision id sealed code no).retryFreed s) := by
      simp only [exec, execDecision, State.hear_of_addressed hto, hpart, hspan]
      rw [if_neg (by simp [hnone, hmode, hmember])]
    exact ⟨⟨_, hexec true, hheld.followDecision_sealed code no⟩, _, hexec false, hheld.followDecision_scraped code no⟩
  · simp only [exec, execDecisionAck, State.hear_of_addressed hto, hpart, hspan, hnone, Option.isNone_none, if_true, State.retryFreed_self]
  · intro s1
    simp only [exec, execDecisionAck, State.hear_of_addressed hto, hpart, hspan]
    rw [if_neg (by simp [hdecided]), if_neg hack]
  · simp only [exec, execDecisionQuery, State.hear_of_addressed hto, hkept]
  · simp only [exec, execDecisionQuery, State.hear_of_addressed hto, hkept, hpart, true_and, hlate, if_true]
  · have hok : membersOk bs (j.fld 28 2) = true := List.all_eq_true.2 (fun q hq => hzero q (List.mem_range.1 hq))
    have hexec : exec (.folioOpen src) s = .next (s1.openFolio j (membersOf bs (j.fld 28 2))) := by
      simp only [exec, execFolioOpen, htake, hspans, if_true, hread, hok, Bool.not_true, Bool.false_eq_true, if_false]
    refine ⟨_, { globalId := BitVec.ofNat 64 (j.fld 20 8), members := membersOf bs (j.fld 28 2), myIndex := j.fld 30 2, votes := [], decision := none,
                 decisionCode := 0, noIndex := 0, decidedAt := 0, acks := [], prepareSeen := false, voted := false, late := false, queried := false },
      hexec, ?_, rfl, rfl, rfl, rfl, rfl, rfl⟩
    unfold State.openFolio
    rw [hfree]
    dsimp only
    rw [if_neg (Nat.not_le.2 hroom), hspans, State.slot_of_fol (State.endFolio_fol _ _ _)]
    exact State.slot_setSlot_used _ _ _ (by simp)
  · simp only [exec, execSpanDeadline, hspan, if_pos (show s.clock.time ≤ (s.slot id.toNat).deadline ∨ sp.decision.isSome = true from .inl hearly)]
  · simp only [exec, execSpanDeadline, hspan]
    rw [if_neg (by rw [hnone]; simpa using hlate), if_pos hcoord, if_neg (Nat.not_le.2 hmany)]
  · simp only [exec, execSpanDeadline, hspan]
    rw [if_neg (by rw [hnone]; simpa using hlate), if_neg hmember, if_pos hopen]
  · simp only [exec, execCoordAckTimeout, hspan]
    rw [if_pos ⟨hcoord, hdecided, hdue⟩]
  · simp only [exec, execInDoubtQuery, hspan]
    rw [if_pos ⟨hprepared, by rw [hnone]; rfl, hmember, by rw [hqueried]; rfl, hdue⟩]
    exact ⟨_, rfl, State.foldl_tellMember (s := s.modSpan id.toNat (fun x => { x with queried := true })) hheld _ _⟩
  · simp only [exec, execFolioInDoubt, hspan]
    rw [if_pos ⟨hprepared, by rw [hnone]; rfl, hmember, hdue⟩]
    refine ⟨_, rfl, ?_, State.report_mem _ _⟩
    rw [State.slot_of_fol (State.report_fol _ _)]
    exact State.slot_setSlot_used _ _ _ (by simp)
  · refine ⟨_, rfl, rfl, fun k => ?_⟩
    rw [List.mem_filter]
    refine and_congr_right (fun _ => ?_)
    rw [Bool.not_eq_true', ← Bool.not_eq_true]
    simp only [Bool.and_eq_true, decide_eq_true_eq, and_assoc]
    rfl

end Sys2Proof.Machine
end

section
/-! SUPPORT. Cache orders, the queue of their submissions and the spill batches they wait for (R257, R267, R268, R278). -/

namespace Sys2Proof.Machine

/-! A cache order, by what its body finds -/

theorem State.cacheEntry_of_job {s t : State} {src : CmdSrc} {op : Nat} {j : Job} (hroom : ∀ p a, src = .submit p a → s.cacheQueued p < 256)
    (hjob : s.takeJob src 3 op 64 cacheFormOk (fun g => { g with inkErr := true }) = (t, some j)) :
    s.cacheEntry src op = (t.runOrWait 3 j false).retryFreed s := by
  have hcommand : s.cacheEntry src op = s.cacheCommand src op := by
    unfold State.cacheEntry
    split
    · rfl
    · next p a => exact if_neg (Nat.not_le.2 (hroom p a rfl))
  rw [hcommand]
  unfold State.cacheCommand
  rw [hjob]

/-- R267: a submission past the 256th of its partition is dropped and noted. -/
theorem State.cacheEntry_of_full {s : State} {p : PartNo} (h : 256 ≤ s.cacheQueued p) (a : W64) (op : Nat) :
    s.cacheEntry (.submit p a) op = s.modPreg p (fun g => { g with inkOrdDrop := true }) := if_pos h

section
variable {s : State} {j : Job}

theorem State.runOrWait_cache_ok {x : FX} {r : CacheRes} (h : s.cacheBody j = .ok (x, r)) : s.runOrWait 3 j false = s.finishCache j x r := by
  simp only [State.runOrWait, State.runOrder, h, if_neg (show ¬ (3 = 5) by decide)]

theorem State.runOrWait_cache_code {n v : Nat} (h : s.cacheBody j = .error (.code n v)) : s.runOrWait 3 j false = s.refuseCache j (.code n v) := by
  simp only [State.runOrWait, State.runOrder, h, if_neg (show ¬ (3 = 5) by decide)]

theorem State.runOrWait_cache_at {st pg n v : Nat} (h : s.cacheBody j = .error (.at_ st pg (.code n v))) :
    s.runOrWait 3 j false = s.refuseCache j (.at_ st pg (.code n v)) := by
  simp only [State.runOrWait, State.runOrder, h, if_neg (show ¬ (3 = 5) by decide)]

theorem State.runOrWait_cache_spill {k : Nat} (h : s.cacheBody j = .error (.spill k)) (hbatch : (s.batchOf j.part k).isSome = true) :
    s.runOrWait 3 j false = s.addWait (j.waitAs 3 (some k)) := by
  simp only [State.runOrWait, State.runOrder, h, if_neg (show ¬ (3 = 5) by decide), hbatch, if_true]

/-- An order that joins no folio ends with its own folio's seal. -/
theorem State.finishCache_own {x : FX} (hjoin : bitOf (j.fld 3 1) 0 = false) (hseal : (x.finish true).2.1 = 0) (r : CacheRes) :
    s.finishCache j x r = (x.finish true).1.endRecord j (j.fld 16 8)
      { Done.of 0 with payload := cacheRecord 0 (j.fld 2 1) (j.fld 4 2) r (x.finish true).2.2.toNat } := by
  simp only [State.finishCache, hjoin, hseal, Bool.false_eq_true, if_false]
  rfl

/-- An order that joins a folio that is not DOOMED ends with its writes in it. -/
theorem State.finishCache_joined {x : FX} (hjoin : bitOf (j.fld 3 1) 0 = true) (hopen : x.f.mode ≠ .doomed) (r : CacheRes) :
    s.finishCache j x r = x.done.endRecord j (j.fld 16 8) { Done.of 0 with payload := cacheRecord 0 (j.fld 2 1) (j.fld 4 2) r 0 } := by
  have hcode : (if x.f.mode = .doomed then x.f.cause else (0 : W16)) = 0 := if_neg hopen
  simp only [State.finishCache, hjoin, if_true, hcode]
  rfl

theorem State.refuseCache_fol (n v : Nat) : (s.refuseCache j (.code n v)).fol = s.fol := by
  unfold State.refuseCache State.failOrder
  dsimp only
  rw [State.endRecord_fol]
  split <;> rfl

/-- A code is written in the record as it is, when it is one of 16 bits. -/
theorem doneCode_of_lt {n : Nat} (h : n < 2 ^ 16) : (Done.of n).code.toNat = n := by
  unfold Done.of
  rw [BitVec.toNat_ofNat, Nat.mod_eq_of_lt h]

theorem doneCode_ne_form {n : Nat} (hform : n ≠ 0x0503) (hlt : n < 2 ^ 16) : (Done.of n).code ≠ 0x0503 := fun h =>
  hform ((doneCode_of_lt hlt).symm.trans (congrArg BitVec.toNat h))

/-- R268: an order refused for another cause than its form ends with the code and where it stopped. -/
theorem State.refuseCache_of_code {n : Nat} (hform : n ≠ 0x0503) (hlt : n < 2 ^ 16) (v : Nat) : s.refuseCache j (.code n v) =
    s.endRecord j (j.fld 16 8) { Done.of n with payload := cacheRecord n (j.fld 2 1) (j.fld 4 2) CacheRes.none 0 } := by
  have hfail : s.failOrder j.part (.code n v) = (s, Done.of n) := by simp only [State.failOrder]
  unfold State.refuseCache
  rw [hfail]
  dsimp only
  rw [if_neg (doneCode_ne_form hform hlt), doneCode_of_lt hlt]
  rfl

theorem State.refuseCache_of_at {n : Nat} (hform : n ≠ 0x0503) (hlt : n < 2 ^ 16) (st pg v : Nat) : s.refuseCache j (.at_ st pg (.code n v)) =
    s.endRecord j (j.fld 16 8)
      { Done.of n with payload := cacheRecord n (j.fld 2 1) (j.fld 4 2) { CacheRes.none with stream := st, page := pg } 0 } := by
  have hfail : s.failOrder j.part (.at_ st pg (.code n v)) = (s, Done.of n) := by simp only [State.failOrder]
  unfold State.refuseCache
  rw [hfail]
  dsimp only
  rw [if_neg (doneCode_ne_form hform hlt), doneCode_of_lt hlt]
  rfl

end

/-- Settles O44: a cache order by what its body finds, a queue that is full, the end of a spill batch and the waits that last too long. -/
theorem caches : Obligations.Caches := by
  intro s
  refine ⟨fun src c op t j hc hroom hjob => ?_, fun p a c hc hfull => ?_, fun p tier hnone => ?_, fun p tier b hbatch => ⟨fun hleft => ?_, fun hleft => ?_⟩,
    fun i x k hwait htier => ⟨fun hover => ?_, fun hover => ?_⟩, fun i x hmove => ⟨fun hearly => ?_, fun hwaited hover => ?_⟩⟩
  · have hexec : exec c s = .next ((t.runOrWait 3 j false).retryFreed s) := by
      rw [← State.cacheEntry_of_job hroom hjob]
      simp only [List.mem_cons, Prod.mk.injEq, List.not_mem_nil, or_false] at hc
      rcases hc with ⟨rfl, rfl⟩ | ⟨rfl, rfl⟩ | ⟨rfl, rfl⟩ | ⟨rfl, rfl⟩ | ⟨rfl, rfl⟩ | ⟨rfl, rfl⟩ <;> rfl
    intro join record
    have hrecord : ∀ c e r, record c e r = cacheRecord c (j.fld 2 1) (j.fld 4 2) r e := fun _ _ _ => rfl
    clear_value record
    refine ⟨fun x r hbody hjoin hseal => ?_, fun x r hbody hjoin hopen => ?_, fun x r hbody => ?_, fun n v hbody => ⟨t.refuseCache j (.code n v), ?_, rfl, ?_, fun hform hlt => ?_⟩, fun st pg n v hbody hform hlt => ?_, fun k hbody hbatch => ?_⟩
    · rw [hexec, State.runOrWait_cache_ok hbody, State.finishCache_own hjoin hseal, hrecord]
    · rw [hexec, State.runOrWait_cache_ok hbody, State.finishCache_joined hjoin hopen, hrecord]
    · rw [hexec, State.runOrWait_cache_ok hbody]
    · rw [hexec, State.runOrWait_cache_code hbody]
    · exact State.refuseCache_fol n v
    · rw [State.refuseCache_of_code hform hlt, hrecord]
    · rw [hexec, State.runOrWait_cache_at hbody, State.refuseCache_of_at hform hlt, hrecord]
    · rw [hexec, State.runOrWait_cache_spill hbody hbatch]
  · have hexec : exec c s = .next (s.modPreg p (fun g => { g with inkOrdDrop := true })) := by
      simp only [List.mem_cons, List.not_mem_nil, or_false] at hc
      rcases hc with rfl | rfl | rfl | rfl | rfl | rfl <;> exact congrArg Host.Outcome.next (State.cacheEntry_of_full hfull _ _)
    exact ⟨_, hexec, by rw [State.preg_modPreg], rfl, rfl⟩
  · simp only [exec, execSpillBatchEnd, hnone]
  · simp only [exec, execSpillBatchEnd, hbatch, if_pos hleft]
  · simp only [exec, execSpillBatchEnd, hbatch, if_neg (not_not.2 hleft)]
  · simp only [exec, execSpillWaitTimeout, hwait, htier, hover]
    rfl
  · simp only [exec, execSpillWaitTimeout, hwait, htier, hover]
    rfl
  · have hstays : (!x.waited) = true ∨ (!s.waitOver x.part x.tier) = true := hearly.imp (fun h => by simp [h]) (fun h => by simp [h])
    simp only [exec, execSpillWaitTimeout, hmove, if_pos hstays]
  · have hends : ¬ ((!x.waited) = true ∨ (!s.waitOver x.part x.tier) = true) := by simp [hwaited, hover]
    simp only [exec, execSpillWaitTimeout, hmove, if_neg hends]

end Sys2Proof.Machine
end

section
/-! SUPPORT. Edits and queries of the codex, walks, deadlines, repairs, splices and sweeps (R297 to R316, R245). -/

namespace Sys2Proof.Machine

/-! Edits (R298 to R302) -/

section
variable {s : State} {j : Job} {body : FX → Except OrdErr (FX × CodexRes)}

theorem State.runEdit_of_doomed (h : s.joinsDoomed j.part (bitOf (j.fld 3 1) 0) (BitVec.ofNat 64 (j.fld 8 8)) = true) :
    s.runEdit j body = s.endCodex j (Done.of 0) CodexRes.none := if_pos h

variable (h : s.joinsDoomed j.part (bitOf (j.fld 3 1) 0) (BitVec.ofNat 64 (j.fld 8 8)) = false)
include h

theorem State.runEdit_of_no_folio {e : OrdErr} (hfolio : s.orderFolio j.part (bitOf (j.fld 3 1) 0) (BitVec.ofNat 64 (j.fld 8 8)) true = .error e) :
    s.runEdit j body = s.refuseCodex j CodexRes.none e := by
  unfold State.runEdit
  dsimp only
  rw [if_neg (by simp [h]), hfolio]

variable {x0 : FX} (hfolio : s.orderFolio j.part (bitOf (j.fld 3 1) 0) (BitVec.ofNat 64 (j.fld 8 8)) true = .ok x0)
include hfolio

theorem State.runEdit_of_error {e : OrdErr} (hbody : body x0 = .error e) : s.runEdit j body = s.refuseCodex j CodexRes.none e := by
  unfold State.runEdit
  dsimp only
  rw [if_neg (by simp [h]), hfolio]
  dsimp only
  rw [hbody]

/-- An edit that joins no folio ends with its own folio's seal. -/
theorem State.runEdit_own {x : FX} {r : CodexRes} (hbody : body x0 = .ok (x, r)) (hjoin : bitOf (j.fld 3 1) 0 = false) :
    s.runEdit j body = (x.finish false).1.endCodex j (Done.of (x.finish false).2.1.toNat)
      (if (x.finish false).2.1 = 0 then { r with epoch := (x.finish false).2.2.toNat } else CodexRes.none) := by
  unfold State.runEdit
  dsimp only
  rw [if_neg (by simp [h]), hfolio]
  dsimp only
  rw [hbody, hjoin]
  rfl

/-- An edit that joins an OPEN folio ends with its writes in it. -/
theorem State.runEdit_joined {x : FX} {r : CodexRes} (hbody : body x0 = .ok (x, r)) (hjoin : bitOf (j.fld 3 1) 0 = true) (hopen : x.f.mode = .opened) :
    s.runEdit j body = x.done.endCodex j (Done.of 0) r := by
  have hcode : (if x.f.mode = .doomed then x.f.cause else (0 : W16)) = 0 := if_neg (by rw [hopen]; decide)
  unfold State.runEdit
  dsimp only
  rw [if_neg (by simp [h]), hfolio]
  dsimp only
  rw [hbody, hjoin]
  dsimp only
  rw [hcode, if_pos rfl, if_pos rfl]
  rfl

end

theorem State.codexJob_of_full {s : State} {p : PartNo} (h : 256 ≤ s.codexQueued p) (a : W64) (op : Nat) :
    s.codexJob (.submit p a) op = (s.modPreg p (fun g => { g with codexOrdDrop := true }), none) := if_pos h

/-! Queries and the rounds of their walks (R304 to R309) -/

section
variable {s : State} {i : Nat} {w : Walk}

theorem exec_walkRoundReturn_fallBack (h : s.mem.walks[i]? = some w) (hphase : w.phase = .walking) (hover : s.overdue w = true)
    (hfall : s.queryFallback w = true) : exec (.walkRoundReturn i) s = .next ((s.fallBack i w).pumpWalks) := by
  simp only [exec, execWalkRoundReturn, h]
  rw [if_neg (not_not.2 hphase), hover, hfall]
  rfl

variable (h : s.mem.walks[i]? = some w) (hphase : w.phase = .walking) (hgoes : s.overdue w = false ∨ s.queryFallback w = false)
include h hphase hgoes

theorem exec_walkRoundReturn_old (hreach : s.inReach w.epoch = false) :
    exec (.walkRoundReturn i) s = .next ((s.failWalk i w (.code 0x0304 0)).pumpWalks) := by
  simp only [exec, execWalkRoundReturn, h]
  rw [if_neg (not_not.2 hphase), if_neg (by rcases hgoes with hg | hg <;> simp [hg]), hreach]
  rfl

theorem exec_walkRoundReturn_merged {a : Nat} {st : WalkSt} (hreach : s.inReach w.epoch = true) (haddr : s.ixAddr w.part (leField w.block 4 1) = some a)
    (hmerge : (FX.fresh s w.part true).walkMerge w.part ⟨leField w.block 4 1, a, (FX.fresh s w.part true).read a 256⟩ w.req w.st = .ok st) :
    exec (.walkRoundReturn i) s = .next ((s.setWalk i (({ w with st := st } : Walk).advance
      ((⟨leField w.block 4 1, a, (FX.fresh s w.part true).read a 256⟩ : Ix).f 7 1))).countDie (s.home w.part).val ⟨0x13, 1, 0, 2, 2, some w.part, none, none⟩) := by
  simp only [exec, execWalkRoundReturn, h]
  rw [if_neg (not_not.2 hphase), if_neg (by rcases hgoes with hg | hg <;> simp [hg]), hreach, haddr]
  simp only [Bool.not_true, Bool.false_eq_true, if_false]
  rw [hmerge]
  rfl

end

theorem exec_rerankComplete_of_rerank {s : State} {i : Nat} {w : Walk} (h : s.mem.walks[i]? = some w) (hphase : w.phase = .rerank) :
    exec (.rerankComplete i) s = .next ((s.finishQuery i w).pumpWalks) := by
  simp only [exec, execRerankComplete, h]
  rw [if_neg (not_not.2 hphase)]

/-- R309: a query past its deadline that allows it falls back. -/
theorem State.finishQuery_fallBack {s : State} {i : Nat} {w : Walk} (hover : s.overdue w = true) (hfall : s.queryFallback w = true) :
    s.finishQuery i w = s.fallBack i w := by
  unfold State.finishQuery
  dsimp only
  rw [hover, hfall]
  rfl

/-- R308: a query whose candidates are scored ends with the best of them. -/
theorem State.finishQuery_done {s : State} {i a : Nat} {w : Walk} {rows : List (List Val)} {sc : List (Option Scored)} (hover : s.overdue w = false)
    (hreach : s.inReach w.epoch = true) (haddr : s.ixAddr w.part (leField w.block 4 1) = some a)
    (hrows : (FX.fresh s w.part true).queryRows w.part ⟨leField w.block 4 1, a, (FX.fresh s w.part true).read a 256⟩ w.block = .ok (rows, false))
    (hscores : w.st.allowed.mapM (fun c => (FX.fresh s w.part true).scoreItem w.part ⟨leField w.block 4 1, a, (FX.fresh s w.part true).read a 256⟩ rows c) = .ok sc)
    (hlong : w.req.k ≤ w.st.allowed.length) (hrecall : leField w.block 104 8 = 0) (hnarrow : w.st.widened = false) :
    s.finishQuery i w = ((((s.dropWalk i).countLate w).endCodex (s.walkJob w) (Done.of 0)
      { w.res false with flags := 0, poisoned := w.st.poisoned + (sc.length - (sc.filterMap id).length),
                         entries := ((sortBy Scored.before (sc.filterMap id)).take w.req.k).map (fun q =>
                           resultEntry ⟨leField w.block 4 1, a, (FX.fresh s w.part true).read a 256⟩ q.n q.dist q.score) }).queryStatus (s.walkJob w) 1) := by
  have hflags : (w.res false).flags = 0 := by
    unfold Walk.res flagAt
    rw [hnarrow]
    rfl
  unfold State.finishQuery
  dsimp only
  rw [hover]
  simp only [Bool.false_and, Bool.false_eq_true, if_false]
  rw [hreach, haddr]
  simp only [bind, Except.bind, pure, Except.pure, Bool.not_true, Bool.false_eq_true, if_false]
  rw [hrows]
  simp only [Bool.false_eq_true, if_false]
  rw [hscores]
  simp only []
  rw [decide_eq_false (Nat.not_lt.2 hlong), hnarrow, hrecall]
  simp only [if_true, Bool.false_eq_true, if_false]
  rw [hflags]
  rfl

theorem exec_queryDeadline_of_walk {s : State} {i : Nat} {w : Walk} (h : s.mem.walks[i]? = some w) :
    exec (.queryDeadline i) s = .next (if s.clock.time.toNat ≤ leField w.block 112 8 then s else if s.queryFallback w then (s.fallBack i w).pumpWalks
      else s.setWalk i { w with late := true }) := by
  simp only [exec, execQueryDeadline, h]
  rfl

/-! Splices, freed indexes and the sweep of old epochs (R310 to R316) -/

theorem exec_subgraphSplice_of_walked {s : State} {i : W16} {g : W32} {a : Nat} (haddr : s.ixAddr 0 i.toNat = some a)
    (hwalks : s.mem.walks.any (fun w => decide (leField w.block 4 1 = i.toNat) && decide (leField w.block 32 4 = g.toNat)) = true) :
    exec (.subgraphSplice i g) s = .next s := by
  simp only [exec, execSubgraphSplice, haddr]
  rw [if_pos hwalks]

theorem exec_indexFree_of_index {s : State} {i : W16} {a : Nat} (haddr : s.ixAddr 0 i.toNat = some a) :
    exec (.indexFree i) s = .next (if leField ((FX.fresh s (partOf (leField ((FX.fresh s 0 true).read a 256) 5 1)) true).read a 256) 2 1 ≠ 2 ∨
        s.walksIndex i.toNat = true then s
      else (((FX.fresh s (partOf (leField ((FX.fresh s 0 true).read a 256) 5 1)) true).writeOwn (a + 2) [0]).finish false).1) := by
  simp only [exec, execIndexFree, haddr]

/-- Marking an item old sets a bit that was not set. -/
theorem or_four_ne {n : Nat} (h : bitOf n 2 = false) : n ||| 4 ≠ n := by
  intro heq
  have hbit := congrArg (fun v => v.testBit 2) heq
  simp only [Nat.testBit_or, show n.testBit 2 = false from h, Bool.false_or] at hbit
  exact absurd hbit (by decide)

theorem exec_nodeRepair_of_repair {s : State} {i : Nat} {q : Repair} (h : s.mem.repairs[i]? = some q) :
    exec (.nodeRepair i) s = .next (if q.retryAt.isSome then s else s.runRepair i) := by
  simp only [exec, execNodeRepair, h]

theorem exec_repairRetry_of_repair {s : State} {i : Nat} {q : Repair} (h : s.mem.repairs[i]? = some q) :
    exec (.repairRetry i) s = .next (match q.retryAt with
      | none => s
      | some t => if s.clock.time.toNat < t.toNat then s else s.runRepair i) := by
  simp only [exec, execRepairRetry, h]
  rfl

/-- Settles O45: edits, queries and their walks, then splices, freed indexes, sweeps and repairs. -/
theorem codex : Obligations.Codex := by
  intro s
  refine ⟨fun src c op body t j hc hjob => ?_, fun p a c hc hfull => ?_, fun src t j hjob => ⟨fun e hadmit => ?_, fun w y u hadmit hwhole => ?_, fun w y u hadmit huser => ?_⟩,
    fun i w hwalk => ⟨fun hphase => ?_, fun hphase hover hfall => exec_walkRoundReturn_fallBack hwalk hphase hover hfall,
      fun hphase hgoes hreach => exec_walkRoundReturn_old hwalk hphase hgoes hreach, fun a st hphase hgoes hreach haddr => ?_,
      fun hphase => exec_rerankComplete_of_rerank hwalk hphase, fun hphase hover hfall => ?_, fun a rows sc hphase hover hreach haddr => ?_, fun hphase => ?_,
      fun hearly => ?_, fun hlate => ⟨fun hfall => ?_, fun hfall => ?_⟩⟩,
    fun i a haddr => ?_, fun i q hrepair => ⟨fun hfresh => ⟨?_, ?_⟩, fun t hretry => ⟨?_, fun hearly => ?_, fun hdue => ?_⟩⟩⟩
  · have hexec : exec c s = .next (t.runEdit j (body j)) := by
      simp only [List.mem_cons, Prod.mk.injEq, List.not_mem_nil, or_false] at hc
      rcases hc with ⟨rfl, rfl, rfl⟩ | ⟨rfl, rfl, rfl⟩ | ⟨rfl, rfl, rfl⟩ | ⟨rfl, rfl, rfl⟩ | ⟨rfl, rfl, rfl⟩ <;>
        simp only [exec, execCodexCreateIndex, execCodexDropIndex, execCodexInsert, execCodexDelete, execCodexDropSubgraph, State.codexEdit, hjob]
    rw [hexec]
    refine ⟨fun hdoomed => congrArg Host.Outcome.next (State.runEdit_of_doomed hdoomed), fun hdoomed =>
      ⟨fun e hfolio => congrArg Host.Outcome.next (State.runEdit_of_no_folio hdoomed hfolio), fun x0 hfolio =>
        ⟨fun e hbody => congrArg Host.Outcome.next (State.runEdit_of_error hdoomed hfolio hbody),
          fun x r hbody hjoin => congrArg Host.Outcome.next (State.runEdit_own hdoomed hfolio hbody hjoin), fun x r hbody hjoin hseal => ?_,
          fun x r hbody hjoin hopen => congrArg Host.Outcome.next (State.runEdit_joined hdoomed hfolio hbody hjoin hopen)⟩⟩⟩
    rw [State.runEdit_own hdoomed hfolio hbody hjoin, if_pos hseal, hseal]
    rfl
  · have hexec : exec c s = .next (s.modPreg p (fun g => { g with codexOrdDrop := true })) := by
      simp only [List.mem_cons, List.not_mem_nil, or_false] at hc
      rcases hc with rfl | rfl | rfl | rfl | rfl | rfl <;>
        simp only [exec, execCodexCreateIndex, execCodexDropIndex, execCodexInsert, execCodexDelete, execCodexQuery, execCodexDropSubgraph, State.codexEdit,
          State.codexJob_of_full hfull]
    exact ⟨_, hexec, by rw [State.preg_modPreg], rfl, rfl⟩
  · simp only [exec, execCodexQuery, hjob, State.runQuery, hadmit]
  · simp only [exec, execCodexQuery, hjob, State.runQuery, hadmit]
    rw [if_pos hwhole]
  · simp only [exec, execCodexQuery, hjob, State.runQuery, hadmit]
    rw [if_neg huser]
  · simp only [exec, execWalkRoundReturn, hwalk]
    rw [if_pos hphase]
  · intro y hmerge
    obtain ⟨pmc, hcount⟩ := State.countDie_spec (s.setWalk i (({ w with st := st } : Walk).advance (y.f 7 1))) (s.home w.part).val
      ⟨0x13, 1, 0, 2, 2, some w.part, none, none⟩
    refine ⟨_, (exec_walkRoundReturn_merged hwalk hphase hgoes hreach haddr hmerge).trans (congrArg Host.Outcome.next hcount), rfl, rfl⟩
  · rw [exec_rerankComplete_of_rerank hwalk hphase, State.finishQuery_fallBack hover hfall]
  · intro x y m hrows hscores hlong hrecall hnarrow top
    rw [exec_rerankComplete_of_rerank hwalk hphase, State.finishQuery_done hover hreach haddr hrows hscores hlong hrecall hnarrow]
  · simp only [exec, execRerankComplete, hwalk]
    rw [if_pos hphase]
  · rw [exec_queryDeadline_of_walk hwalk, if_pos hearly]
  · rw [exec_queryDeadline_of_walk hwalk, if_neg (Nat.not_le.2 hlate), if_pos hfall]
  · rw [exec_queryDeadline_of_walk hwalk, if_neg (Nat.not_le.2 hlate), if_neg (by simp [hfall])]
  · intro p x
    refine ⟨fun g hwalks => exec_subgraphSplice_of_walked haddr hwalks, fun g y sub x1 x2 hwalks hix hin harea hdropped hhead hclear => ?_, fun hdropped hidle => ?_,
      fun hkept => ?_, fun node y sb ua hix hin hstate hset hmarked hother hold hua => ?_⟩
    · simp only [exec, execSubgraphSplice, haddr]
      rw [if_neg (by rw [hwalks]; decide)]
      rw [show (FX.fresh s _ true).ix _ i.toNat = .ok y from hix]
      simp only [bind, Except.bind, pure, Except.pure]
      rw [if_neg (Nat.not_le.2 hin)]
      rw [show (FX.fresh s _ true).area _ _ _ = .ok sub from harea]
      simp only [hdropped, Bool.not_true, Bool.false_eq_true, if_false]
      rw [show (FX.fresh s _ true).areaWrite _ _ _ _ = .ok x1 from hhead]
      simp only []
      rw [show x1.areaWrite _ _ _ _ = .ok x2 from hclear]
    · rw [exec_indexFree_of_index haddr, if_neg (not_or.2 ⟨not_not.2 hdropped, by rw [hidle]; decide⟩)]
    · rw [exec_indexFree_of_index haddr, if_pos hkept]
    · simp only [exec, execSettleSweep, haddr]
      rw [show (FX.fresh s _ true).ix _ i.toNat = .ok y from hix]
      simp only [bind, Except.bind, pure, Except.pure]
      rw [if_neg (Nat.not_le.2 hin)]
      rw [show (FX.fresh s _ true).itemState _ _ _ = .ok (sb, false) from hstate]
      simp only [hset, hother, decide_eq_true hold, true_and, if_true, Bool.false_eq_true, false_and, if_false, false_or, if_neg (or_four_ne hmarked)]
      rw [show (FX.fresh s _ true).areaUa _ _ = .ok ua from hua]
  · rw [exec_nodeRepair_of_repair hrepair, hfresh]
    rfl
  · rw [exec_repairRetry_of_repair hrepair, hfresh]
  · rw [exec_nodeRepair_of_repair hrepair, hretry]
    rfl
  · rw [exec_repairRetry_of_repair hrepair, hretry]
    exact congrArg Host.Outcome.next (if_pos hearly)
  · rw [exec_repairRetry_of_repair hrepair, hretry]
    exact congrArg Host.Outcome.next (if_neg (Nat.not_lt.2 hdue))

end Sys2Proof.Machine
end

section
/-! SUPPORT. The rings: states, epochs, send lists, credits, releases and the arrival of quires (R190 to R195, R201 to R204). -/

namespace Sys2Proof.Machine

/-! A ring's state, its epoch and its releases -/

theorem State.ring_modRing_self (s : State) (n : Fin 16) (f : Ring → Ring) : (s.modRing n f).ring n = f (s.ring n) :=
  (State.ring_modRing ..).trans (if_pos rfl)

/-- R192: a ring that is not RUNNING sends nothing. -/
theorem State.ringSend_of_not_running {s : State} {n : Fin 16} (h : (s.ring n).mode ≠ .running) : s.ringSend n = s := by
  have hstep : s.ringStep n = none := if_pos h
  show s.ringSendN n (66047 + 1) = s
  unfold State.ringSendN
  rw [hstep]

theorem State.writeLand_fol (s : State) (n : Fin 16) (k : Nat) : (s.writeLand n k).fol = s.fol := by
  unfold State.writeLand
  dsimp only
  split
  · rfl
  · rw [State.dvWrite_fol, State.dvWrite_fol]

theorem State.stopSending_fol (s : State) (n : Fin 16) : (s.stopSending n).fol = s.fol := by
  unfold State.stopSending
  split
  · rfl
  · dsimp only
    split <;> rfl

theorem State.stopRing_fol (s : State) (n : Fin 16) : (s.stopRing n).fol = s.fol := by
  refine (foldl_keeps State.fol _ (fun t k => ?_) _ _).trans (State.stopSending_fol s n)
  split
  · split
    · rw [State.writeLand_fol]
      rfl
    · rfl
  · rfl

theorem State.newEpoch_ports (s : State) (r : Fin 16) (v : W32) : (s.newEpoch r v).link.ports = s.link.ports := by
  unfold State.newEpoch
  extract_lets ks drop t
  have hdrop : drop.link.ports = s.link.ports := foldl_keeps (fun t : State => t.link.ports) _ (fun _ _ => by rfl) ks s
  rw [State.ports_of_wires (foldl_keeps State.wires _ (fun t k => State.writeLand_wires t r k) ks t)]
  exact hdrop

/-- R193 step 4: a READY slot is freed once its release word says so. -/
theorem State.releaseSlot_of_ready {s : State} {r : Fin 16} {k : Nat} {x : LandSlot} {rec b : List Byte} {bad : Bool}
    (hslot : (s.ring r).slots[k]? = some x) (hrec : s.landRec (s.ring r) k = .ok rec) (hready : x.mode = .ready)
    (hword : s.readVa (s.ringReq (s.ring r) (leField rec 32 8) 0) 8 = .ok (b, bad)) :
    s.releaseSlot r k = if ofLeBytes b = x.seq.toNat + 1 then
      ((((s.disarmLanding rec).setLandSlot r k (LandSlot.granted (x.seq + BitVec.ofNat 32 (s.ring r).count))).writeLand r k)).sendCredit r k else s := by
  unfold State.releaseSlot
  dsimp only
  rw [hslot, hrec]
  dsimp only
  rw [if_neg (not_not.2 hready), hword]

/-- R204: the port that is lost is the first of those the ring names that is not UP. -/
theorem exec_ringBroken_of_lost {s : State} {r : Fin 16} {p : PortNo}
    (h : (((namedPorts (s.ring r).succ) ++ (namedPorts (s.ring r).pred)).map s.physOf).find? (fun p => decide ((s.port p).mode ≠ .up)) = some p) :
    exec (.ringBroken r) s = .next (s.breakRing r p) := by
  have hhead : ((((namedPorts (s.ring r).succ) ++ (namedPorts (s.ring r).pred)).map s.physOf).filter (fun p => decide ((s.port p).mode ≠ .up)) ++
      ((namedPorts (s.ring r).succ) ++ (namedPorts (s.ring r).pred)).map s.physOf).head? = some p := by
    rw [List.head?_append, List.head?_filter, h]
    rfl
  simp only [exec, execRingBroken]
  rw [hhead]

/-! The header of a quire (R195) -/

/-- The message under way that a header begins. -/
def State.addRx (s : State) (body : List Byte) (g : RxTarget) : State :=
  s.modLink (fun l => { l with
    rx := l.rx.filter (fun y => decide (y.src ≠ BitVec.ofNat 32 (leField body 8 4)) || decide (y.id ≠ BitVec.ofNat 32 (leField body 4 4))) ++
      [⟨BitVec.ofNat 32 (leField body 8 4), BitVec.ofNat 32 (leField body 4 4), 1, bitOf (leField body 3 1) 1, leField body 16 1, leField body 17 1,
        leField body 18 2, leField body 24 4, [], [], g⟩] })

/-- The quire header in the message header. -/
def leadOf (body : List Byte) : List Byte := (body.drop 64).take (leField body 20 2)

theorem exec_quireHeaderArrival_refused {s : State} {p : PortNo} {body : List Byte} (hquire : leField body 2 1 = 1)
    (hbad : headerOk body = false ∨ (s.port p).admits 1 = false) : exec (.quireHeaderArrival p body) s = .next s := by
  simp only [exec, execQuireHeaderArrival]
  rw [if_pos hquire]
  unfold State.acceptHeader
  dsimp only
  rw [hquire, if_pos]
  rcases hbad with h | h <;> simp [h]

section
variable {s : State} {r : Fin 16} {p : PortNo} {body : List Byte}

/-- A quire's header names its ring in its 13th byte. -/
theorem ringOf_lead {lead : List Byte} (h : leField lead 12 1 = r.val) : (⟨leField lead 12 1 % 16, Nat.mod_lt _ (by decide)⟩ : Fin 16) = r :=
  Fin.ext ((congrArg (· % 16) h).trans (Nat.mod_eq_of_lt r.isLt))

variable (hring : leField (leadOf body) 12 1 = r.val) (hrelay : s.relaySide r p (leadOf body) = none)
include hring hrelay

theorem exec_quireHeaderArrival_new (hquire : leField body 2 1 = 1) (hok : headerOk body = true) (hadmits : (s.port p).admits 1 = true)
    (hnew : s.rxMsg (BitVec.ofNat 32 (leField body 8 4)) (BitVec.ofNat 32 (leField body 4 4)) = none) :
    exec (.quireHeaderArrival p body) s = .next (if !s.forUs body then s.countPort p 0x11 1 1
      else (s.quireTarget p (leadOf body) (leField body 40 2)).1.addRx body (s.quireTarget p (leadOf body) (leField body 40 2)).2) := by
  simp only [exec, execQuireHeaderArrival]
  rw [if_pos hquire]
  unfold State.acceptHeader
  extract_lets mt src id lead total add known n
  have hunknown : known = false := by
    unfold known
    rw [hnew]
    rfl
  have hn : n = r := ringOf_lead hring
  have hadd : ∀ g, add g = g.1.addRx body g.2 := by
    intro g
    show State.modLink _ _ = State.modLink _ _
    rw [show mt = 1 from hquire]
  rw [if_neg (by rw [show mt = 1 from hquire, hok, hadmits, hunknown]; decide), if_pos hquire, hn, show s.relaySide r p lead = none from hrelay]
  dsimp only
  rw [hadd]
  rfl

variable {dest : Nat}

/-- R195: a header whose own form or check is wrong, or of a ring that takes none here, is dropped. -/
theorem State.quireTarget_refused (h : (leadOf body).length ≠ 256 ∨ leField (leadOf body) 252 4 ≠ crcOf ((leadOf body).take 252) ∨
    (s.ring r).mode ≠ .running ∨ s.logicalOf p ∉ (s.ring r).fromPred) : s.quireTarget p (leadOf body) dest = (s.dropQuire r false, .dropped) := by
  unfold State.quireTarget
  dsimp only
  rw [ringOf_lead hring, hrelay]
  dsimp only
  rw [if_pos]
  rcases h with h | h | h | h
  · exact .inl h
  · exact .inr (.inl h)
  · exact .inr (.inr (.inr (.inr (.inr (.inl h)))))
  · exact .inr (.inr (.inr (.inr (.inr (.inr h)))))

variable (hlen : (leadOf body).length = 256) (hcrc : leField (leadOf body) 252 4 = crcOf ((leadOf body).take 252))
  (hkind : leField (leadOf body) 0 1 = 1 ∨ leField (leadOf body) 0 1 = 2) (hversion : leField (leadOf body) 1 1 = 1) (hrunning : (s.ring r).mode = .running)
  (hpred : s.logicalOf p ∈ (s.ring r).fromPred)
include hlen hcrc hkind hversion hrunning hpred

theorem State.quireTarget_of_whole : s.quireTarget p (leadOf body) dest =
    if leField (leadOf body) 8 4 ≠ (s.ring r).epoch.toNat then (s.dropQuire r true, .dropped)
    else match (s.ring r).slots[leField (leadOf body) 44 4 % (s.ring r).count]?, s.landRec (s.ring r) (leField (leadOf body) 44 4 % (s.ring r).count) with
      | some x, .ok rec =>
        if x.mode = .ready ∨ x.seq.toNat ≠ leField (leadOf body) 44 4 ∨ leField rec 4 2 < dest + leField (leadOf body) 6 2 then (s.dropQuire r false, .dropped)
        else (s.setLandSlot r (leField (leadOf body) 44 4 % (s.ring r).count) { x with headers := x.headers ++ [(dest, leadOf body)] },
          .ring r (leField (leadOf body) 44 4 % (s.ring r).count) x.seq dest)
      | _, _ => (s.dropQuire r false, .dropped) := by
  have hgood : ¬ ((leadOf body).length ≠ 256 ∨ leField (leadOf body) 252 4 ≠ crcOf ((leadOf body).take 252) ∨
      leField (leadOf body) 0 1 ≠ 1 ∧ leField (leadOf body) 0 1 ≠ 2 ∨ leField (leadOf body) 1 1 ≠ 1 ∨ 16 ≤ leField (leadOf body) 12 1 ∨
      (s.ring r).mode ≠ .running ∨ s.logicalOf p ∉ (s.ring r).fromPred) := by
    rintro (h | h | ⟨h1, h2⟩ | h | h | h | h)
    · exact h hlen
    · exact h hcrc
    · exact hkind.elim h1 h2
    · exact h hversion
    · exact absurd h (Nat.not_le.2 (hring ▸ r.isLt))
    · exact h hrunning
    · exact h hpred
  unfold State.quireTarget
  dsimp only
  rw [ringOf_lead hring, hrelay]
  dsimp only
  rw [if_neg hgood] <;> rfl

theorem State.quireTarget_old (hepoch : leField (leadOf body) 8 4 ≠ (s.ring r).epoch.toNat) :
    s.quireTarget p (leadOf body) dest = (s.dropQuire r true, .dropped) := by
  rw [State.quireTarget_of_whole hring hrelay hlen hcrc hkind hversion hrunning hpred, if_pos hepoch]

variable (hepoch : leField (leadOf body) 8 4 = (s.ring r).epoch.toNat) {x : LandSlot} {rec : List Byte}
  (hslot : (s.ring r).slots[leField (leadOf body) 44 4 % (s.ring r).count]? = some x)
  (hrec : s.landRec (s.ring r) (leField (leadOf body) 44 4 % (s.ring r).count) = .ok rec)
include hepoch hslot hrec

theorem State.quireTarget_of_slot : s.quireTarget p (leadOf body) dest =
    if x.mode = .ready ∨ x.seq.toNat ≠ leField (leadOf body) 44 4 ∨ leField rec 4 2 < dest + leField (leadOf body) 6 2 then (s.dropQuire r false, .dropped)
    else (s.setLandSlot r (leField (leadOf body) 44 4 % (s.ring r).count) { x with headers := x.headers ++ [(dest, leadOf body)] },
      .ring r (leField (leadOf body) 44 4 % (s.ring r).count) x.seq dest) := by
  rw [State.quireTarget_of_whole hring hrelay hlen hcrc hkind hversion hrunning hpred, if_neg (not_not.2 hepoch), hslot, hrec]

end

/-! The chunks of a quire (R188, R192, R201) -/

section
variable {s : State} {p : PortNo} {body : List Byte} {m : RxMsg}

theorem exec_quireChunkArrival_of_msg (hmsg : s.rxMsg (BitVec.ofNat 32 (leField body 8 4)) (BitVec.ofNat 32 (leField body 4 4)) = some m) (hquire : m.mtype = 1)
    (hadmits : (s.port p).admits 1 = true) (hindex : leField body 2 2 < m.total) :
    exec (.quireChunkArrival p body) s = .next (match m.target with
      | .relay _ _ => s.acceptChunk p body
      | _ => s.goodChunk p m (chunkOf (s.openChunk m body))) := by
  have htakes : ¬ (m.mtype ≠ 1 ∨ (!(s.port p).admits 1) = true ∨ m.total ≤ leField body 2 2) := by
    rintro (h | h | h)
    · exact h hquire
    · simp [hadmits] at h
    · exact absurd h (Nat.not_le.2 hindex)
  simp only [exec, execQuireChunkArrival, hmsg]
  rw [if_neg htakes] <;> rfl

theorem State.acceptChunk_relayed {n : Fin 16} {ps : List PortNo}
    (hmsg : s.rxMsg (BitVec.ofNat 32 (leField body 8 4)) (BitVec.ofNat 32 (leField body 4 4)) = some m) (hquire : m.mtype = 1)
    (hadmits : (s.port p).admits 1 = true) (hindex : leField body 2 2 < m.total) (htarget : m.target = .relay n ps) :
    s.acceptChunk p body = s.relayChunk ps (leField body 2 2) body := by
  unfold State.acceptChunk
  rw [hmsg]
  dsimp only
  rw [hquire, if_neg (by simp [hadmits, hindex]), htarget]

theorem State.goodChunk_known {c : RxChunk} (h : c.index ∈ m.got) : s.goodChunk p m c = s.emit (.chunkReport p m.src m.id c.index true) := if_pos h

variable {n : Fin 16} {k dest : Nat} {seq : W32} (htarget : m.target = .ring n k seq dest) {c : RxChunk} (hnew : c.index ∉ m.got) {u : State} {landed : Bool}
  (hland : (s.emit (.chunkReport p m.src m.id c.index true)).landQuire n k seq dest c = (u, landed))
include htarget hnew hland

theorem State.goodChunk_new : s.goodChunk p m c = if !landed then u.setRx { m with target := .dropped, got := m.got ++ [c.index] }
    else if m.got.length + 1 = m.total then ((u.dropRx m.src m.id).quireLanded n k).ringSend n else (u.setRx { m with got := m.got ++ [c.index] }).ringSend n := by
  have hdeliver : (s.emit (.chunkReport p m.src m.id c.index true)).deliverChunk m c = (u, landed) := by
    unfold State.deliverChunk
    rw [htarget]
    exact hland
  unfold State.goodChunk
  dsimp only
  rw [if_neg hnew, hdeliver]
  dsimp only
  congr 1
  rw [List.length_append, List.length_singleton, htarget]
  dsimp only
  split
  · unfold State.finishRx
    dsimp only
  · rfl

end

/-- Settles O46: a ring's commands in each of its states, credits and releases, a port lost, then headers and chunks that arrive. -/
theorem rings : Obligations.Rings := by
  intro s r
  refine ⟨fun hidle => ⟨congrArg Host.Outcome.next (if_pos hidle), fun v => ?_⟩, fun hdisabled hstopped => ?_, fun hstopped => congrArg Host.Outcome.next (if_pos hstopped),
    fun hstopped => congrArg Host.Outcome.next (if_neg hstopped), fun hruns => ?_, fun hstopping => congrArg Host.Outcome.next (if_pos hstopping),
    fun hstopping => congrArg Host.Outcome.next (if_neg hstopping), fun v hrunning => ?_, fun v hrunning => rfl,
    fun e k j => ⟨fun hepoch => congrArg Host.Outcome.next (if_neg hepoch), fun hepoch hrunning => ?_, fun hepoch hrunning => congrArg Host.Outcome.next (if_pos hepoch)⟩,
    rfl, fun k x rec b bad hslot hrec hready hword => ⟨fun hheld => ?_, fun hfreed => ?_⟩, fun p hlost => ⟨exec_ringBroken_of_lost hlost, fun hrunning => ?_⟩,
    fun p body => ⟨fun hother => congrArg Host.Outcome.next (if_neg hother), fun hquire hbad => exec_quireHeaderArrival_refused hquire hbad, ?_, fun hnone => ?_,
      fun m hmsg hquire hadmits hindex => ⟨fun n ps htarget => ?_, fun n k seq dest htarget => ?_⟩⟩⟩
  · refine ⟨_, congrArg Host.Outcome.next (if_pos hidle), ?_⟩
    rw [State.newEpoch_ring]
    exact ⟨rfl, rfl, rfl, rfl, rfl, State.newEpoch_ports s r v⟩
  · have hno : ¬ ((s.ring r).mode = .disabled ∨ (s.ring r).mode = .stopped) := not_or.2 ⟨hdisabled, hstopped⟩
    exact ⟨congrArg Host.Outcome.next (if_neg hno), fun v => congrArg Host.Outcome.next (if_neg hno)⟩
  · refine ⟨_, congrArg Host.Outcome.next (if_pos hruns), ?_, State.stopRing_fol s r⟩
    rw [State.ring_modRing_self]
  · exact congrArg Host.Outcome.next (State.ringSend_of_not_running (by rw [State.ring_modRing_self]; exact hrunning))
  · refine ⟨_, congrArg Host.Outcome.next ((if_pos hepoch).trans (State.ringSend_of_not_running (by rw [State.ring_modRing_self]; exact hrunning))), ?_⟩
    rw [State.ring_modRing_self]
  · rw [State.releaseSlot_of_ready hslot hrec hready hword, if_neg hheld]
  · rw [State.releaseSlot_of_ready hslot hrec hready hword, if_pos hfreed]
  · rw [exec_ringBroken_of_lost hlost]
    exact congrArg Host.Outcome.next (if_pos hrunning)
  · intro src id lead dest add hquire hok hadmits hnew hring hrelay
    have hexec := exec_quireHeaderArrival_new hring hrelay hquire hok hadmits hnew
    refine ⟨fun hother => hexec.trans (congrArg Host.Outcome.next (if_pos (by simp [hother]))), fun hus => ?_⟩
    rw [if_neg (by simp [hus])] at hexec
    refine ⟨fun hbad => ?_, fun hlen hcrc hkind hversion hrunning hpred => ⟨fun hepoch => ?_, fun hepoch x rec hslot hrec => ⟨fun hfull => ?_, fun hfree hseq hfits => ?_⟩⟩⟩
    · rw [State.quireTarget_refused hring hrelay hbad] at hexec
      exact hexec
    · rw [State.quireTarget_old hring hrelay hlen hcrc hkind hversion hrunning hpred hepoch] at hexec
      exact hexec
    · rw [State.quireTarget_of_slot hring hrelay hlen hcrc hkind hversion hrunning hpred hepoch hslot hrec, if_pos (by exact hfull)] at hexec
      exact hexec
    · have htakes : ¬ (x.mode = .ready ∨ x.seq.toNat ≠ leField (leadOf body) 44 4 ∨ leField rec 4 2 < leField body 40 2 + leField (leadOf body) 6 2) :=
        not_or.2 ⟨hfree, not_or.2 ⟨not_not.2 hseq, Nat.not_lt.2 hfits⟩⟩
      rw [State.quireTarget_of_slot hring hrelay hlen hcrc hkind hversion hrunning hpred hepoch hslot hrec, if_neg htakes] at hexec
      exact hexec
  · simp only [exec, execQuireChunkArrival, hnone]
  · rw [exec_quireChunkArrival_of_msg hmsg hquire hadmits hindex, htarget]
    exact congrArg Host.Outcome.next (State.acceptChunk_relayed hmsg hquire hadmits hindex htarget)
  · intro c s1
    have hexec : exec (.quireChunkArrival p body) s = .next (s.goodChunk p m c) := by
      rw [exec_quireChunkArrival_of_msg hmsg hquire hadmits hindex, htarget]
    refine ⟨fun hknown => hexec.trans (congrArg Host.Outcome.next (State.goodChunk_known hknown)), fun hnew u => ⟨fun hland => ?_, fun hland => ⟨fun hmore => ?_, fun hlast => ?_⟩⟩⟩
    · rw [hexec, State.goodChunk_new htarget hnew hland]
      rfl
    · rw [hexec, State.goodChunk_new htarget hnew hland, if_neg (by decide), if_neg (Nat.ne_of_lt hmore)]
    · rw [hexec, State.goodChunk_new htarget hnew hland, if_neg (by decide), if_pos hlast]

end Sys2Proof.Machine
end

section
/-! SUPPORT. Multicast sets: what one line read by a member does, and the reads that wait (R199). -/

namespace Sys2Proof.Machine

/-! What a read of one line does to its set -/

theorem McastSet.read_ordinary {x : McastSet} {i : Fin 32} (h : x.attached.getLsbD i.val = false) (a : Nat) : x.read i a = (x, .ordinary) :=
  if_pos (by rw [h]; decide)

theorem McastSet.read_of_attached {x : McastSet} {i : Fin 32} (h : x.attached.getLsbD i.val = true) (a : Nat) :
    x.read i a =
      if x.counts[i.val] = x.lead then
        if x.slowest + 4096 < x.lead + 1 then (x, .hold)
        else ({ x.advance i with lines := x.lines ++ [a], lead := x.lead + 1 }, .fetched)
      else if x.lines[x.counts[i.val]]? = some a then (x.advance i, .buffered)
      else ({ x with attached := x.attached &&& ~~~(BitVec.ofNat 32 (2 ^ i.val)) }, .detached) :=
  if_neg (by rw [h]; decide)

/-- The leading member fetches the next line. -/
theorem McastSet.read_fetched {x : McastSet} {i : Fin 32} {a : Nat} (h : x.attached.getLsbD i.val = true) (hlead : x.counts[i.val] = x.lead)
    (hroom : x.lead < x.slowest + 4096) :
    x.read i a = ({ x with counts := x.counts.set i.val (x.lead + 1), lines := x.lines ++ [a], lead := x.lead + 1 }, .fetched) := by
  rw [McastSet.read_of_attached h, if_pos hlead, if_neg (by omega)]
  unfold McastSet.advance
  rw [hlead]

/-- A member behind reads the line the buffer holds for it. -/
theorem McastSet.read_buffered {x : McastSet} {i : Fin 32} {a : Nat} (h : x.attached.getLsbD i.val = true) (hbehind : x.counts[i.val] ≠ x.lead)
    (hline : x.lines[x.counts[i.val]]? = some a) :
    x.read i a = ({ x with counts := x.counts.set i.val (x.counts[i.val] + 1) }, .buffered) := by
  rw [McastSet.read_of_attached h, if_neg hbehind, if_pos hline]
  rfl

/-- A member that reads another line than the buffer holds for it is detached. -/
theorem McastSet.read_detached {x : McastSet} {i : Fin 32} {a : Nat} (h : x.attached.getLsbD i.val = true) (hbehind : x.counts[i.val] ≠ x.lead)
    (hline : x.lines[x.counts[i.val]]? ≠ some a) :
    x.read i a = ({ x with attached := x.attached &&& ~~~(BitVec.ofNat 32 (2 ^ i.val)) }, .detached) := by
  rw [McastSet.read_of_attached h, if_neg hbehind, if_neg hline]

/-- The leading member waits when the slowest is 4096 lines behind. -/
theorem McastSet.read_hold {x : McastSet} {i : Fin 32} (h : x.attached.getLsbD i.val = true) (hlead : x.counts[i.val] = x.lead)
    (hfull : x.slowest + 4096 ≤ x.lead) (a : Nat) : x.read i a = (x, .hold) := by
  rw [McastSet.read_of_attached h, if_pos hlead, if_pos (Nat.lt_succ_of_le hfull)]

theorem McastSet.waits_of_no_held {x : McastSet} (h : x.held = []) (i : Fin 32) : x.waits i = false := by
  simp [McastSet.waits, h]

theorem McastSet.ready_of_no_held {x : McastSet} (h : x.held = []) : x.ready = none := by
  simp [McastSet.ready, h]

/-- The only read that waits stays when it would be held again. -/
theorem McastSet.ready_of_one_held {x : McastSet} {h : McastHold} (hheld : x.held = [h]) (hhold : (x.read h.member h.addr).2 = .hold) :
    x.ready = none := by
  simp [McastSet.ready, hheld, List.range_succ, hhold]

/-! The sets in the state -/

/-- An armed set that was set reads as it was set. -/
theorem State.mcastSet_setMcast {x : McastSet} (h : x.window ≠ none) (s : State) (m : MDie) (k : Nat) : (s.setMcast m k x).mcastSet m k = x :=
  Tab.get_set_listed (fun hx => h (by rw [hx]; rfl)) _ _

theorem State.mcastSet_countDie (s : State) (d : Nat) (e : DieEvent) (m : MDie) (k : Nat) : (s.countDie d e).mcastSet m k = s.mcastSet m k := by
  unfold State.mcastSet
  rw [State.countDie_link]

theorem State.countDie_mem (s : State) (d : Nat) (e : DieEvent) : (s.countDie d e).mem = s.mem := by
  obtain ⟨pmc, h⟩ := State.countDie_spec s d e
  rw [h]

theorem State.mcastResume_of_not_ready {s : State} {m : MDie} {k : Nat} (h : (s.mcastSet m k).ready = none) (n : Nat) : s.mcastResume m k n = s := by
  cases n with
  | zero => rfl
  | succ n => unfold State.mcastResume; dsimp only; rw [h]

/-- A read of one line that is not held leaves its set as the read says, and memory as it was. -/
theorem State.mcastRead_one {s : State} {m : MDie} {k : Nat} {i : Fin 32} {a : Nat} {y : McastSet} {act : McastAct}
    (hread : (s.mcastSet m k).read i a = (y, act)) (hact : act ≠ .hold) (hwindow : y.window ≠ none) (back : Bool) :
    (s.mcastRead m k i a back 1).mcastSet m k = y ∧ (s.mcastRead m k i a back 1).mem = s.mem := by
  unfold State.mcastRead State.mcastRead
  dsimp only
  rw [hread]
  have hset := State.mcastSet_setMcast hwindow s m k
  cases act with
  | hold => exact absurd rfl hact
  | ordinary => exact ⟨hset, rfl⟩
  | fetched => exact ⟨hset, rfl⟩
  | buffered => exact ⟨(State.mcastSet_countDie ..).trans hset, State.countDie_mem ..⟩
  | detached => exact ⟨(State.mcastSet_countDie ..).trans hset, State.countDie_mem ..⟩

theorem State.mcastRead_one_hold {s : State} {m : MDie} {k : Nat} {i : Fin 32} {a : Nat} {y : McastSet}
    (hread : (s.mcastSet m k).read i a = (y, .hold)) :
    s.mcastRead m k i a false 1 = s.setMcast m k { y with held := y.held ++ [⟨i, a, 1, s.clock.time⟩] } := by
  unfold State.mcastRead
  dsimp only
  rw [hread]
  rfl

/-! The commands -/

theorem exec_multicastRead_of_window {s : State} {m : MDie} {set : Fin 16} {w : Nat × Nat} (h : (s.mcastSet m set.val).window = some w)
    (i : Fin 32) (addr : W64) (n : Nat) : exec (.multicastRead m set i addr n) s = .next (
      if addr.toNat / 64 * 64 < w.1 ∨ w.1 + 65536 * w.2 < addr.toNat / 64 * 64 + 64 * n then s
      else s.mcastLoad m set.val i (addr.toNat / 64 * 64) n) := by
  simp only [exec, execMulticastRead, h]

/-- A read in the window of a set where no read waits. -/
theorem exec_multicastRead_one {s : State} {m : MDie} {set : Fin 16} {w : Nat × Nat} {i : Fin 32} {addr : W64}
    (hwindow : (s.mcastSet m set.val).window = some w) (hheld : (s.mcastSet m set.val).held = [])
    (hlow : w.1 ≤ addr.toNat / 64 * 64) (hhigh : addr.toNat / 64 * 64 + 64 ≤ w.1 + 65536 * w.2) :
    exec (.multicastRead m set i addr 1) s = .next ((s.mcastRead m set.val i (addr.toNat / 64 * 64) false 1).mcastResume m set.val
      (((s.mcastRead m set.val i (addr.toNat / 64 * 64) false 1).mcastSet m set.val).heldLines + 1)) := by
  rw [exec_multicastRead_of_window hwindow, if_neg (by omega)]
  unfold State.mcastLoad
  dsimp only
  rw [McastSet.waits_of_no_held hheld]
  rfl

/-- A read of one line that is not held: its set is as the read says. -/
theorem exec_multicastRead_act {s : State} {m : MDie} {set : Fin 16} {w : Nat × Nat} {i : Fin 32} {addr : W64} {y : McastSet} {act : McastAct}
    (hwindow : (s.mcastSet m set.val).window = some w) (hheld : (s.mcastSet m set.val).held = [])
    (hlow : w.1 ≤ addr.toNat / 64 * 64) (hhigh : addr.toNat / 64 * 64 + 64 ≤ w.1 + 65536 * w.2)
    (hread : (s.mcastSet m set.val).read i (addr.toNat / 64 * 64) = (y, act)) (hact : act ≠ .hold)
    (hywindow : y.window = (s.mcastSet m set.val).window) (hyheld : y.held = (s.mcastSet m set.val).held) :
    ∃ t, exec (.multicastRead m set i addr 1) s = .next t ∧ t.mcastSet m set.val = y ∧ t.mem = s.mem := by
  obtain ⟨hset, hmem⟩ := State.mcastRead_one hread hact (by rw [hywindow, hwindow]; exact Option.some_ne_none w) false
  have hidle := State.mcastResume_of_not_ready (s := s.mcastRead m set.val i (addr.toNat / 64 * 64) false 1) (m := m) (k := set.val)
    (by rw [hset]; exact McastSet.ready_of_no_held (hyheld.trans hheld))
  exact ⟨_, (exec_multicastRead_one hwindow hheld hlow hhigh).trans (congrArg Host.Outcome.next (hidle _)), hset, hmem⟩

/-- The leading member waits, and nothing else of the state changes. -/
theorem exec_multicastRead_hold {s : State} {m : MDie} {set : Fin 16} {w : Nat × Nat} {i : Fin 32} {addr : W64}
    (hwindow : (s.mcastSet m set.val).window = some w) (hheld : (s.mcastSet m set.val).held = [])
    (hlow : w.1 ≤ addr.toNat / 64 * 64) (hhigh : addr.toNat / 64 * 64 + 64 ≤ w.1 + 65536 * w.2)
    (hattached : (s.mcastSet m set.val).attached.getLsbD i.val = true)
    (hlead : (s.mcastSet m set.val).counts[i.val] = (s.mcastSet m set.val).lead)
    (hfull : (s.mcastSet m set.val).slowest + 4096 ≤ (s.mcastSet m set.val).lead) :
    exec (.multicastRead m set i addr 1) s = .next (s.setMcast m set.val
      { s.mcastSet m set.val with held := [⟨i, addr.toNat / 64 * 64, 1, s.clock.time⟩] }) := by
  rw [exec_multicastRead_one hwindow hheld hlow hhigh, State.mcastRead_one_hold (McastSet.read_hold hattached hlead hfull _), hheld]
  generalize (s.mcastSet m set.val) = x at *
  refine congrArg Host.Outcome.next (State.mcastResume_of_not_ready ?_ _)
  rw [State.mcastSet_setMcast (by rw [hwindow]; exact Option.some_ne_none w)]
  have hagain := McastSet.read_hold (x := { x with held := [] ++ [⟨i, addr.toNat / 64 * 64, 1, s.clock.time⟩] }) hattached hlead hfull
  exact McastSet.ready_of_one_held rfl (congrArg Prod.snd (hagain _))

/-- Settles O47: each clause by its branch of R199; a read that is not held by what it does to its set, the reads that wait then
staying as they are because none is held. -/
theorem multicast : Obligations.Multicast := by
  unfold Obligations.Multicast
  intro s m set i addr
  refine ⟨fun hnone n => ?_, fun w hwindow n => ⟨fun hout => ?_, fun hlow hhigh hwaits => ?_⟩, fun w hwindow hheld hlow hhigh => ?_,
    fun hheld => ?_, fun h r hheld => ⟨fun hearly => ?_, fun hlate => ?_⟩⟩
  · simp only [exec, execMulticastRead, hnone]
  · exact (exec_multicastRead_of_window hwindow ..).trans (congrArg Host.Outcome.next (if_pos hout))
  · intro x
    have hx : x.window ≠ none := by
      show (s.mcastSet m set.val).window ≠ none
      rw [hwindow]
      exact Option.some_ne_none w
    rw [exec_multicastRead_of_window hwindow, if_neg (by omega)]
    unfold State.mcastLoad
    dsimp only
    rw [if_pos hwaits]
    exact congrArg Host.Outcome.next (congrArg (fun z : McastSet => (s.setMcast m set.val x).mcastResume m set.val (z.heldLines + 1))
      (State.mcastSet_setMcast hx ..))
  · refine ⟨fun hfree => ?_, fun hattached hlead hroom => ?_, fun hattached hbehind hline => ?_, fun hattached hbehind hline => ?_,
      fun hattached hlead hfull => exec_multicastRead_hold hwindow hheld hlow hhigh hattached hlead hfull⟩
    · exact exec_multicastRead_act hwindow hheld hlow hhigh (McastSet.read_ordinary hfree _) (by decide) rfl rfl
    · exact exec_multicastRead_act hwindow hheld hlow hhigh (McastSet.read_fetched hattached hlead hroom) (by decide) rfl rfl
    · exact exec_multicastRead_act hwindow hheld hlow hhigh (McastSet.read_buffered hattached hbehind hline) (by decide) rfl rfl
    · exact exec_multicastRead_act hwindow hheld hlow hhigh (McastSet.read_detached hattached hbehind hline) (by decide) rfl rfl
  · simp only [exec, execDetachWaitExpiry, hheld, List.head?_nil]
  · simp only [exec, execDetachWaitExpiry, hheld, List.head?_cons]
    exact congrArg Host.Outcome.next (if_pos hearly)
  · simp only [exec, execDetachWaitExpiry, hheld, List.head?_cons]
    exact congrArg Host.Outcome.next (if_neg (Nat.not_lt.2 hlate))

end Sys2Proof.Machine
end

section
/-! SUPPORT. The link layer: flits that arrive and are accepted, discarded or answered, and what a port sends at a group boundary
(R320 to R334). -/

namespace Sys2Proof.Machine

/-! What counters and reports leave of a port -/

theorem State.countDie_port (s : State) (d : Nat) (e : DieEvent) (q : PortNo) : (s.countDie d e).port q = s.port q := by
  unfold State.port
  rw [State.countDie_link]

theorem State.countPort_port (s : State) (p q : PortNo) (ev inc lane : Nat) : (s.countPort p ev inc lane).port q = s.port q :=
  State.countDie_port ..

theorem State.countPort_mem (s : State) (p : PortNo) (ev inc lane : Nat) : (s.countPort p ev inc lane).mem = s.mem :=
  State.countDie_mem ..

theorem State.countPort_out (s : State) (p : PortNo) (ev inc lane : Nat) : (s.countPort p ev inc lane).out = s.out := by
  obtain ⟨pmc, h⟩ := State.countDie_spec s (portCounterDie p) ⟨ev, inc, 0, 3, lane, none, none, some p.val⟩
  exact (congrArg State.out h :)

theorem State.reportPort_port (s : State) (p q : PortNo) (code : Nat) (lvl : Level) (detail : List Nat) :
    (s.reportPort p code lvl detail).port q = s.port q := by
  unfold State.reportPort State.port
  rw [State.report_link]

theorem State.port_setPort_self (s : State) (p : PortNo) (x : Port) : (s.setPort p x).port p = x :=
  (State.port_setPort ..).trans (if_pos rfl)

theorem State.port_modPort_self (s : State) (p : PortNo) (f : Port → Port) : (s.modPort p f).port p = f (s.port p) :=
  State.port_setPort_self ..

/-! Quarantine -/

/-- A port that is not UP enters quarantine, with nothing else to end. -/
theorem State.quarantine_mode {s : State} {p : PortNo} (h : (s.port p).mode ≠ .up) : ((s.quarantine p).port p).mode = .quarantine := by
  unfold State.quarantine State.leavePort
  dsimp only
  rw [if_pos h, State.port_setPort_self]

/-- R334: a tag that fails is noted, and a port that is not UP is quarantined. -/
theorem State.authFail_port (s : State) (p : PortNo) :
    ((s.authFail p).port p).authFail = true ∧ ((s.port p).mode ≠ .up → ((s.authFail p).port p).mode = .quarantine) := by
  unfold State.authFail
  rw [State.port_modPort_self]
  exact ⟨rfl, fun h => State.quarantine_mode (by rw [State.reportPort_port]; exact h)⟩

/-! Groups that arrive (R320, R326, R334) -/

theorem Port.fecTick_keeps (x : Port) (a b : Nat) : ∃ corr uncorr, x.fecTick a b = { x with fecCorr := corr, fecUncorr := uncorr } := by
  unfold Port.fecTick
  split
  all_goals exact ⟨_, _, rfl⟩

/-- A burst is counted first: of its port its error counters change alone. -/
theorem State.countBurst_port (s : State) (p : PortNo) (g : FlitBurst) : ∃ corr uncorr odd,
    ((s.countFec p g).modPort p (fun x => { x with badTypes := x.badTypes + oddFlits g })).port p =
      { s.port p with fecCorr := corr, fecUncorr := uncorr, badTypes := odd } := by
  rw [State.port_modPort_self]
  unfold State.countFec
  dsimp only
  rw [State.countPort_port, State.countPort_port, State.port_modPort_self]
  obtain ⟨corr, uncorr, h⟩ := Port.fecTick_keeps (s.port p) (g.symErrs.filter (fun e => decide (0 < e) && correctable e)).length
    (g.symErrs.filter (fun e => !correctable e)).length
  rw [h]
  exact ⟨_, _, _, rfl⟩

theorem State.countFec_mem (s : State) (p : PortNo) (g : FlitBurst) : (s.countFec p g).mem = s.mem := by
  unfold State.countFec
  dsimp only
  rw [State.countPort_mem, State.countPort_mem]
  rfl

theorem Port.expects_iff (x : Port) (fs : List (List Byte × Bool)) : x.expects fs = true ↔
    fs.all (fun f => f.2) = true ∧ groupInOrder (fs.map (fun f => f.1)) = true ∧ flitSeq ((fs.map (fun f => f.1)).headD []) = x.rxNext := by
  simp only [Port.expects, Bool.and_eq_true, decide_eq_true_eq, and_assoc]

/-- What a burst does once it is counted, in terms of the port before it. -/
theorem exec_dataGroup (s : State) (p : PortNo) (g : FlitBurst) :
    exec (.dataGroup p g) s = .next (
      let s1 := (s.countFec p g).modPort p (fun x => { x with badTypes := x.badTypes + oddFlits g })
      if dataFlits g = [] ∨ !(s.port p).takesData (burstLane g) then s1
      else if (s.port p).expects (dataFlits g) then
        if (s.port p).groupAuthentic ((dataFlits g).map (fun f => f.1)) then s1.takeGroup p ((dataFlits g).map (fun f => f.1)) else s1.authFail p
      else s1.discardGroup p (burstLane g) (dataFlits g)) := by
  obtain ⟨corr, uncorr, odd, hport⟩ := State.countBurst_port s p g
  simp only [exec, execDataGroup]
  rw [hport]
  rfl

/-- R326: a discarded group asks for a NAK, its buffer is free again, and nothing of it is received. -/
theorem State.discardGroup_port (s : State) (p : PortNo) (lane : Fin 4) (fs : List (List Byte × Bool)) :
    (s.discardGroup p lane fs).port p = { s.port p with
      wantNak := true, freed := (s.port p).freed.set lane.val ((s.port p).freed[lane.val] + BitVec.ofNat 32 fs.length) } := by
  unfold State.discardGroup
  rw [State.countPort_port, State.port_modPort_self]

theorem State.discardGroup_mem (s : State) (p : PortNo) (lane : Fin 4) (fs : List (List Byte × Bool)) : (s.discardGroup p lane fs).mem = s.mem :=
  State.countPort_mem ..

/-! LCTL and HELLO flits (R327, R331 to R334) -/

theorem State.flitPass_of_bad {s : State} {p : PortNo} {f : List Byte} (h : (s.port p).linked = false ∨ flitOk f = false)
    (t : FlitType) (k : State → State) : s.flitPass p t f k = s :=
  if_pos (by rcases h with h | h <;> simp [h])

theorem State.flitPass_of_odd {s : State} {p : PortNo} {f : List Byte} (hl : (s.port p).linked = true) (ho : flitOk f = true)
    (ht : flitType f = none) (t : FlitType) (k : State → State) :
    s.flitPass p t f k = s.modPort p (fun x => { x with badTypes := x.badTypes + 1 }) := by
  simp [State.flitPass, hl, ho, ht]

theorem State.flitPass_of_other {s : State} {p : PortNo} {f : List Byte} {t u : FlitType} (hl : (s.port p).linked = true)
    (ho : flitOk f = true) (ht : flitType f = some u) (hne : u ≠ t) (k : State → State) : s.flitPass p t f k = s := by
  simp [State.flitPass, hl, ho, ht, hne]

theorem State.authPass_of_bad_tag {s : State} {p : PortNo} {f : List Byte} (he : (s.port p).encOn = true)
    (ht : bodyTagOk f ((s.port p).rxKey (flitPhase f)) = false) (k : State → State) : s.authPass p f k = s.authFail p :=
  if_pos ⟨he, by rw [ht]; rfl⟩

theorem State.authPass_of_stale {s : State} {p : PortNo} {f : List Byte} {v : W64} (he : (s.port p).encOn = true)
    (ht : bodyTagOk f ((s.port p).rxKey (flitPhase f)) = true) (hv : (s.port p).uctrRx = some v)
    (hold : (bodyUctr (flitBody f)).toNat ≤ v.toNat) (k : State → State) : s.authPass p f k = s := by
  have hstale : (s.port p).fresher (bodyUctr (flitBody f)) = false := by
    simp [Port.fresher, he, hv, hold]
  unfold State.authPass
  dsimp only
  rw [if_neg (by rw [ht]; simp), hstale]
  rfl

theorem Port.fresher_of_newer {x : Port} {u : W64} (h : ∀ v, x.uctrRx = some v → v.toNat < u.toNat) : x.fresher u = true := by
  unfold Port.fresher
  cases hv : x.uctrRx with
  | none => simp
  | some v => simp [h v hv]

theorem exec_lctl_of_type {s : State} {p : PortNo} {f : List Byte} (hl : (s.port p).linked = true) (ho : flitOk f = true)
    (ht : flitType f = some .lctl) : exec (.lctl p f) s = .next (s.authPass p f (fun s => s.takeLctl p (lctlOf (flitBody f)))) :=
  congrArg Host.Outcome.next (State.flitPass_of_type hl ho ht _)

theorem exec_hello_of_type {s : State} {p : PortNo} {f : List Byte} (hl : (s.port p).linked = true) (ho : flitOk f = true)
    (ht : flitType f = some .hello) : exec (.hello p f) s = .next (
      if (s.port p).mode = .handshake then (s.modPort p (fun x => { x with peer := some (beaconOf (flitBody f)) })).handshake p (beaconOf (flitBody f))
      else s.modPort p (fun x => { x with peer := some (beaconOf (flitBody f)) })) :=
  congrArg Host.Outcome.next (State.flitPass_of_type hl ho ht _)

/-! What an LCTL flit tells the sender (R325, R327) -/

/-- Without a NAK: the credit is kept, and an acknowledgement drops the groups it covers. -/
theorem State.takeLctl_of_no_nak {s : State} {p : PortNo} {b : LctlBody} (h : b.nak = none) :
    ((s.takeLctl p b).port p).credit = b.credit ∧ (b.ack = none → ((s.takeLctl p b).port p).replay = (s.port p).replay) ∧
    (∀ a k, b.ack = some a → (s.port p).replay.findIdx? (fun g => decide (g.gseq = a)) = some k →
      ((s.takeLctl p b).port p).replay = (s.port p).replay.drop (k + 1) ∧ ((s.takeLctl p b).port p).tries = 0) := by
  unfold State.takeLctl
  dsimp only
  rw [h]
  dsimp only
  rw [State.port_setPort_self]
  refine ⟨rfl, fun hack => ?_, fun a k hack hfound => ?_⟩
  · rw [hack]
  · rw [hack]
    dsimp only
    unfold Port.acked
    rw [hfound]
    exact ⟨rfl, rfl⟩

theorem State.takeLctl_of_nak {s : State} {p : PortNo} {b : LctlBody} {n : BitVec 12} (hack : b.ack = none) (hnak : b.nak = some n) :
    s.takeLctl p b = match (s.port p).replay.findIdx? (fun g => decide (g.gseq = n)) with
      | none => (s.setPort p { s.port p with credit := b.credit }).modPort p (fun x => { x with badNaks := x.badNaks + 1 })
      | some k => (s.setPort p { s.port p with credit := b.credit }).replayOrDown p k := by
  unfold State.takeLctl
  dsimp only
  rw [hack, hnak] <;> rfl

theorem State.replayFrom_port (s : State) (p : PortNo) (k : Nat) : (s.replayFrom p k).port p = { s.port p with
    resend := (s.port p).replay.length - k, replayEvent := true,
    replays := if (s.port p).replays = 0xFFFF then (s.port p).replays else (s.port p).replays + 1 } :=
  State.port_modPort_self ..

/-! The end of the handshake (R332) -/

/-- R332: versions compare, and no end requires a key: the port is UP and counts from 0. -/
theorem State.enterUp_plain_port (s : State) (p : PortNo) :
    ((s.enterUp p false).port p).mode = .up ∧ ((s.enterUp p false).port p).txNext = 0 ∧ ((s.enterUp p false).port p).rxNext = 0 := by
  unfold State.enterUp
  dsimp only
  rw [if_neg (by decide), State.port_setPort_self]
  exact ⟨rfl, rfl, rfl⟩

theorem State.handshake_keying {s : State} {p : PortNo} {b : Beacon} (hmajor : b.major = 1) (henc : (s.port p).encReq = true ∨ b.encReq = true) :
    ((s.handshake p b).port p).mode = .keying := by
  unfold State.handshake
  dsimp only
  rw [if_neg (not_not.2 hmajor), if_pos henc, State.port_modPort_self]

theorem State.handshake_up {s : State} {p : PortNo} {b : Beacon} (hmajor : b.major = 1) (henc : (s.port p).encReq = false) (hpeer : b.encReq = false) :
    ((s.handshake p b).port p).mode = .up ∧ ((s.handshake p b).port p).txNext = 0 ∧ ((s.handshake p b).port p).rxNext = 0 := by
  unfold State.handshake
  dsimp only
  rw [if_neg (not_not.2 hmajor), if_neg (by rw [henc, hpeer]; decide)]
  exact State.enterUp_plain_port ..

theorem State.handshake_mismatch {s : State} {p : PortNo} {b : Beacon} (hmajor : b.major ≠ 1) (hmode : (s.port p).mode ≠ .up) :
    ((s.handshake p b).port p).mode = .quarantine ∧ ((s.handshake p b).port p).verMismatch = true := by
  unfold State.handshake
  dsimp only
  rw [if_pos hmajor, State.port_modPort_self]
  exact ⟨State.quarantine_mode (by rw [State.reportPort_port]; exact hmode), rfl⟩

/-- A beacon says major version 1 exactly when its byte does. -/
theorem beaconOf_major_iff (b : List Byte) : (beaconOf b).major = 1 ↔ leField b 0 1 = 1 := by
  have hlt : leField b 0 1 < 256 := leField_lt b 0 1
  have hmajor : (beaconOf b).major.toNat = leField b 0 1 := (BitVec.toNat_ofNat ..).trans (Nat.mod_eq_of_lt hlt)
  rw [← hmajor]
  exact ⟨fun h => by rw [h]; rfl, fun h => BitVec.eq_of_toNat_eq h⟩

/-! What is sent (R323, R325, R327 to R329, R331) -/

theorem State.sendOrDue_of_no_resend {s : State} {p : PortNo} (h : (s.port p).resend = 0) (d : DueFlit) : s.sendOrDue p d = s.sendDue p d :=
  if_pos h

theorem State.sendOrDue_of_resend {s : State} {p : PortNo} (h : (s.port p).resend ≠ 0) (d : DueFlit) :
    s.sendOrDue p d = s.modPort p (fun x => if d ∈ x.due then x else { x with due := x.due ++ [d] }) :=
  if_neg h

theorem length_flatMap_leBytes (l : List W32) : (l.flatMap (fun v => leBytes 4 v.toNat)).length = 4 * l.length := by
  induction l with
  | nil => rfl
  | cons a r ih => rw [List.flatMap_cons, List.length_append, leBytes_length, ih, List.length_cons]; omega

theorem Port.lctlFields_length (x : Port) : x.lctlFields.length = 24 := by
  unfold Port.lctlFields
  simp only [List.length_append, leBytes_length, length_flatMap_leBytes, Vector.length_toList]

theorem Port.lctlFields_eq (x : Port) : x.lctlFields = leBytes 2 (if x.rxAny then (x.rxNext - 1).toNat + 2 ^ 15 else 0) ++
    leBytes 2 (if x.wantNak then x.rxNext.toNat + 2 ^ 15 else 0) ++ leBytes 4 0 ++ x.freed.toList.flatMap (fun v => leBytes 4 v.toNat) := by
  unfold Port.lctlFields gseqField
  cases x.rxAny <;> cases x.wantNak <;> rfl

/-- R327: an LCTL flit says what was received and is asked for again, and the credit; the count towards the next one starts again. -/
theorem State.lctlOut_spec (s : State) (p : PortNo) : ∃ f, Out.flits p [f] ∈ (s.lctlOut p).out ∧ flitType f = some .lctl ∧
    (flitBody f).take 24 = (s.port p).lctlFields ∧ ((s.lctlOut p).port p).accepted = 0 ∧ (s.lctlOut p).mem = s.mem := by
  obtain ⟨u, line, out, f, hsent, hout, htype, hbody⟩ :=
    State.sendSealed_spec (s.modPort p (fun x => { x with accepted := 0 })) p .lctl (s.port p).lctlFields
  have hlctl : s.lctlOut p = _ := hsent
  have hlength := Port.lctlFields_length (s.port p)
  refine ⟨f, ?_, htype, ?_, ?_, ?_⟩
  · rw [hlctl]
    exact List.mem_append_right _ hout
  · rw [hbody 24 (Nat.le_of_eq hlength.symm) (by decide), List.take_of_length_le (Nat.le_of_eq hlength)]
  · rw [hlctl]
    refine (congrArg Port.accepted (State.port_setPort_self ..)).trans ?_
    exact congrArg Port.accepted (State.port_modPort_self ..)
  · rw [hlctl]
    rfl

/-- R323: with nothing due, an IDLE flit goes out and of the port its line alone changes. -/
theorem State.dueOrIdle_idles {s u : State} {p : PortNo} (hport : u.port p = s.port p) (hmem : u.mem = s.mem) (hdue : (s.port p).due = []) :
    ∃ t, (Host.Outcome.next (u.dueOrIdle p) : Host.Outcome State Fault Refusal) = .next t ∧
      Out.flits p [flitOf (flitHead .idle 0 0 0 false (s.port p).keyPhase) (List.replicate 244 0)] ∈ t.out ∧ t.mem = s.mem ∧
      ∃ line, t.port p = { s.port p with line := line } := by
  have hidle : u.dueOrIdle p = u.sendFlits p [flitOf (flitHead .idle 0 0 0 false (s.port p).keyPhase) (List.replicate 244 0)] := by
    unfold State.dueOrIdle State.idleOut
    rw [hport, hdue]
  obtain ⟨line, out, hsent, hout⟩ :=
    State.sendFlits_spec u p [flitOf (flitHead .idle 0 0 0 false (s.port p).keyPhase) (List.replicate 244 0)]
  rw [hidle, hsent, hport]
  exact ⟨_, rfl, List.mem_append_right _ hout, hmem, line, State.port_setPort_self ..⟩

/-- A group to be replayed goes out when its lane has room; else the boundary serves what is due. -/
theorem State.groupBoundary_replay {s : State} {p : PortNo} {g : TxGroup} (hl : (s.port p).linked = true) (hresend : 0 < (s.port p).resend)
    (hg : (s.port p).replay[(s.port p).replay.length - (s.port p).resend]? = some g) :
    s.groupBoundary p = if (s.port p).room g.lane < g.flits.length then (s.countPort p 0x0C 1 g.lane.val).dueOrIdle p else s.replayGroup p g := by
  have hnext : (s.port p).nextReplay = some g := (if_neg (Nat.ne_of_gt hresend)).trans hg
  unfold State.groupBoundary
  dsimp only
  rw [if_neg (by rw [hl]; decide), hnext]

theorem State.groupBoundary_new {s : State} {p : PortNo} (hl : (s.port p).linked = true) (hresend : (s.port p).resend = 0) :
    s.groupBoundary p =
      if (s.port p).due ≠ [] ∨ (s.port p).mode = .handshake ∨ (s.port p).stopped then s.dueOrIdle p
      else if 0 < (s.port p).groupSize 0 then s.sendGroup p 0
      else if (s.port p).mode ≠ .up ∨ (s.port p).held then s.dueOrIdle p
      else match (s.port p).pickLane 64 with
        | (y, some l) => (s.setPort p y).sendGroup p l
        | (_, none) =>
          (match (s.port p).heldLane with
            | some l => s.countPort p 0x0C 1 l
            | none => s).dueOrIdle p := by
  have hnext : (s.port p).nextReplay = none := if_pos hresend
  unfold State.groupBoundary
  dsimp only
  rw [if_neg (by rw [hl]; decide), hnext] <;> rfl

/-- R325: a replayed group goes out and stays in the replay buffer. -/
theorem State.replayGroup_spec (s : State) (p : PortNo) (g : TxGroup) : Out.flits p g.flits ∈ (s.replayGroup p g).out ∧
    ((s.replayGroup p g).port p).resend = (s.port p).resend - 1 ∧ ((s.replayGroup p g).port p).replay = (s.port p).replay ∧
    (s.replayGroup p g).mem = s.mem := by
  unfold State.replayGroup
  dsimp only
  obtain ⟨line, out, hsent, hout⟩ := State.sendFlits_spec (s.setPort p { s.port p with
    resend := (s.port p).resend - 1, sent := (s.port p).sent.set g.lane.val ((s.port p).sent[g.lane.val] + BitVec.ofNat 32 g.flits.length) }) p g.flits
  rw [State.countPort_out, State.countPort_out, State.countPort_mem, State.countPort_mem, State.countPort_port, State.countPort_port, hsent]
  refine ⟨List.mem_append_right _ hout, ?_⟩
  have hport : ∀ (u : State) (x : Port) (o : List Out), State.port { u.setPort p x with out := o } p = x :=
    fun u x _ => State.port_setPort_self u p x
  rw [hport, State.port_setPort_self]
  exact ⟨rfl, rfl, rfl⟩

theorem Port.flip_keeps (x : Port) : x.flip.queue = x.queue ∧ x.flip.txNext = x.txNext ∧ x.flip.replay = x.replay ∧
    x.flip.groupSize 0 = x.groupSize 0 := by
  unfold Port.flip
  split <;> exact ⟨rfl, rfl, rfl, rfl⟩

/-- A new group of lane 0 takes its bytes from the queue, the next number, and a place in the replay buffer. -/
theorem State.sendGroup_zero_spec (s : State) (p : PortNo) : ((s.sendGroup p 0).port p).txNext = (s.port p).txNext + 1 ∧
    ((s.sendGroup p 0).port p).queue = (s.port p).queue.set 0 ((s.port p).queue[0].drop (244 * (s.port p).groupSize 0 - 16)) ∧
    ∃ fs, Out.flits p fs ∈ (s.sendGroup p 0).out ∧ ((s.sendGroup p 0).port p).replay = (s.port p).replay ++ [⟨(s.port p).txNext, 0, fs⟩] := by
  obtain ⟨hqueue, hnext, hreplay, hsize⟩ := Port.flip_keeps (s.port p)
  unfold State.sendGroup
  extract_lets x n cap d fs y t
  obtain ⟨line, out, hsent, hout⟩ := State.sendFlits_spec (s.setPort p y) p fs
  have ht : t = _ := congrArg (fun u : State => (u.countPort p 0x01 n (0 : Fin 4).val).countPort p 0x03 (cap / 64) (0 : Fin 4).val) hsent
  have hport : t.port p = { y with line := line } := by
    rw [ht]
    dsimp only
    rw [State.countPort_port, State.countPort_port]
    refine (State.port_setPort_self ..).trans ?_
    rw [State.port_setPort_self]
  have htout : t.out = s.out ++ out := by
    rw [ht]
    dsimp only
    rw [State.countPort_out, State.countPort_out]
    rfl
  rw [if_neg (fun h => absurd h.1 (by decide)), hport, htout]
  refine ⟨congrArg (· + 1) hnext, ?_, fs, List.mem_append_right _ hout, ?_⟩
  · show x.queue.set 0 (x.queue[0].drop (244 * x.groupSize 0 - 16)) = _
    simp only [x, hqueue, hsize]
  · show x.replay ++ [⟨x.txNext, 0, fs⟩] = _
    rw [hreplay, hnext]

/-- Settles O48: arriving flits by what the link layer checks of them, in its order, and what is sent by what a port has to send at a
group boundary. -/
theorem linkLayer : Obligations.LinkLayer := by
  unfold Obligations.LinkLayer
  intro s p
  refine ⟨fun g => ?_, fun f => ⟨fun hbad => ?_, fun hl ho => ?_⟩, fun hl houtstanding => ⟨fun htries => ?_, fun htries => ?_⟩, fun hnone => ?_,
    fun hl => ⟨?_, ?_, ?_⟩, fun hnone => ?_, fun hl => ?_, fun hl => ?_⟩
  · intro fs s1
    obtain ⟨corr, uncorr, odd, hport⟩ := State.countBurst_port s p g
    have hexec := exec_dataGroup s p g
    refine ⟨fun hdrop => ?_, fun hsome htakes => ⟨fun hbad => ?_, fun hall horder hseq => ⟨fun hauth => ?_, fun hauth => ?_⟩⟩⟩
    · exact hexec.trans (congrArg Host.Outcome.next (if_pos (hdrop.imp_right fun h => by rw [h]; rfl)))
    all_goals
      have htaken : ¬ (dataFlits g = [] ∨ (!(s.port p).takesData (burstLane g)) = true) := by
        rw [htakes]
        exact not_or.2 ⟨hsome, by decide⟩
    · have hexpects : ¬ (s.port p).expects fs = true := by
        rw [Port.expects_iff]
        rintro ⟨hall, horder, hseq⟩
        rcases hbad with h | h | h
        · rw [hall] at h; exact Bool.noConfusion h
        · rw [horder] at h; exact Bool.noConfusion h
        · exact h hseq
      refine ⟨_, hexec.trans (congrArg Host.Outcome.next ((if_neg htaken).trans (if_neg hexpects))), ?_⟩
      rw [State.discardGroup_port, State.discardGroup_mem, hport]
      exact ⟨rfl, rfl, rfl, rfl, State.countFec_mem s p g⟩
    all_goals have hexpects : (s.port p).expects fs = true := (Port.expects_iff ..).2 ⟨hall, horder, hseq⟩
    · exact hexec.trans (congrArg Host.Outcome.next ((if_neg htaken).trans ((if_pos hexpects).trans (if_pos hauth))))
    · obtain ⟨hflag, hquarantine⟩ := State.authFail_port s1 p
      refine ⟨_, hexec.trans (congrArg Host.Outcome.next ((if_neg htaken).trans ((if_pos hexpects).trans (if_neg (by rw [hauth]; decide))))), hflag,
        fun hmode => hquarantine ?_⟩
      rw [hport]
      exact hmode
  · exact ⟨congrArg Host.Outcome.next (State.flitPass_of_bad hbad ..), congrArg Host.Outcome.next (State.flitPass_of_bad hbad ..)⟩
  · refine ⟨fun htype => ⟨congrArg Host.Outcome.next (State.flitPass_of_odd hl ho htype ..), congrArg Host.Outcome.next (State.flitPass_of_odd hl ho htype ..)⟩,
      fun u htype => ⟨fun hne => congrArg Host.Outcome.next (State.flitPass_of_other hl ho htype hne _),
        fun hne => congrArg Host.Outcome.next (State.flitPass_of_other hl ho htype hne _)⟩, fun htype henc => ?_, fun htype hplain => ?_, fun htype => ?_⟩
    · have hexec := exec_lctl_of_type hl ho htype
      refine ⟨fun htag => ⟨_, hexec.trans (congrArg Host.Outcome.next (State.authPass_of_bad_tag henc htag _)), State.authFail_port s p⟩, fun htag =>
        ⟨fun v hv hold => hexec.trans (congrArg Host.Outcome.next (State.authPass_of_stale henc htag hv hold _)), fun hnew => ?_⟩⟩
      have haccepts : (s.port p).accepts f := Or.inr ⟨htag, Port.fresher_of_newer hnew⟩
      rw [hexec, State.authPass_of_accepts haccepts]
      unfold State.noteUctr
      rw [if_pos henc]
    · intro b
      have hexec : exec (.lctl p f) s = .next (s.takeLctl p b) := by
        rw [exec_lctl_of_type hl ho htype, State.authPass_of_accepts (Or.inl hplain)]
        unfold State.noteUctr
        rw [if_neg (by rw [hplain]; decide)]
      refine ⟨hexec, fun hnak => ⟨_, hexec, State.takeLctl_of_no_nak hnak⟩,
        fun n hack hnak => ⟨fun hmissing => ⟨_, hexec, ?_⟩, fun k hfound => ⟨_, hexec, ?_⟩⟩⟩
      · rw [State.takeLctl_of_nak hack hnak, hmissing]
        dsimp only
        rw [State.port_modPort_self, State.port_setPort_self]
        exact ⟨rfl, rfl, rfl⟩
      · rw [State.takeLctl_of_nak hack hnak, hfound]
        dsimp only
        unfold State.replayOrDown
        rw [if_neg (Nat.succ_ne_zero k), State.replayFrom_port, State.port_setPort_self]
        exact ⟨rfl, rfl, rfl⟩
    · have hexec := exec_hello_of_type hl ho htype
      have hpeer := State.port_modPort_self s p (fun x => { x with peer := some (beaconOf (flitBody f)) })
      refine ⟨fun hmode => hexec.trans (congrArg Host.Outcome.next (if_neg hmode)), fun hmode => ?_⟩
      rw [if_pos hmode] at hexec
      refine ⟨fun hmajor henc => ⟨_, hexec, State.handshake_keying ((beaconOf_major_iff _).2 hmajor) ?_⟩,
        fun hmajor henc hother => ⟨_, hexec, State.handshake_up ((beaconOf_major_iff _).2 hmajor) ?_ hother⟩,
        fun hmajor => ⟨_, hexec, State.handshake_mismatch (fun h => hmajor ((beaconOf_major_iff _).1 h)) ?_⟩⟩
      · rw [hpeer]
        exact henc
      · rw [hpeer]
        exact henc
      · rw [hpeer]
        show (s.port p).mode ≠ .up
        rw [hmode]
        decide
  · refine ⟨_, congrArg Host.Outcome.next ((if_neg (by rw [hl]; simp [houtstanding])).trans ((if_pos rfl).trans (if_neg (Nat.not_le.2 htries)))), ?_⟩
    rw [State.replayFrom_port, State.port_modPort_self]
    exact ⟨rfl, rfl, rfl⟩
  · exact congrArg Host.Outcome.next ((if_neg (by rw [hl]; simp [houtstanding])).trans ((if_pos rfl).trans (if_pos htries)))
  · exact congrArg Host.Outcome.next (if_pos (hnone.imp_left fun h => by rw [h]; rfl))
  · exact congrArg Host.Outcome.next (if_neg (by rw [hl]; decide))
  · exact congrArg Host.Outcome.next (if_neg (by rw [hl]; decide))
  · exact congrArg Host.Outcome.next (if_pos (by rw [hl]; rfl))
  · exact congrArg Host.Outcome.next (if_neg (by rintro ⟨h1, h2⟩; rcases hnone with h | h <;> simp [h] at h1 h2))
  · refine ⟨fun hresend => ⟨?_, ?_⟩, fun hresend => ⟨congrArg Host.Outcome.next ((if_pos hl).trans (State.sendOrDue_of_resend hresend _)),
      congrArg Host.Outcome.next ((if_pos hl).trans (State.sendOrDue_of_resend hresend _)),
      fun hnak => congrArg Host.Outcome.next ((if_pos ⟨hl, hnak⟩).trans (State.sendOrDue_of_resend hresend _))⟩⟩
    · obtain ⟨f, hout, htype, hbody, haccepted, hmem⟩ := State.lctlOut_spec s p
      exact ⟨_, f, congrArg Host.Outcome.next ((if_pos hl).trans (State.sendOrDue_of_no_resend hresend .lctl)), hout, htype,
        hbody.trans (Port.lctlFields_eq _), haccepted, hmem,
        fun hnak => congrArg Host.Outcome.next ((if_pos ⟨hl, hnak⟩).trans (State.sendOrDue_of_no_resend hresend .lctl))⟩
    · obtain ⟨line, out, hsent, hout⟩ := State.sendFlits_spec s p [flitOf (flitHead .hello 0 0 0 false (s.port p).keyPhase) (s.helloBody p)]
      exact ⟨line, out, congrArg Host.Outcome.next ((if_pos hl).trans ((State.sendOrDue_of_no_resend hresend .hello).trans hsent)), hout⟩
  · intro x idles
    have hexec : exec (.groupSend p) s = .next (s.groupBoundary p) := rfl
    refine ⟨fun g hresend hg => ?_, fun hresend => ?_⟩
    · rw [State.groupBoundary_replay hl hresend hg] at hexec
      refine ⟨fun hroom => ⟨_, hexec.trans (congrArg Host.Outcome.next (if_neg (Nat.not_lt.2 hroom))), State.replayGroup_spec s p g⟩, fun hroom hdue => ?_⟩
      rw [if_pos hroom] at hexec
      rw [hexec]
      exact State.dueOrIdle_idles (State.countPort_port ..) (State.countPort_mem ..) hdue
    · rw [State.groupBoundary_new hl hresend] at hexec
      refine ⟨fun d r hdue => ?_, fun hdue hstop => ?_, fun hdue hmode hrun => ?_⟩
      · rw [if_pos (Or.inl (by rw [show (s.port p).due = d :: r from hdue]; exact List.cons_ne_nil d r))] at hexec
        rw [hexec]
        unfold State.dueOrIdle
        rw [show (s.port p).due = d :: r from hdue]
      · rw [if_pos (Or.inr hstop)] at hexec
        rw [hexec]
        exact State.dueOrIdle_idles rfl rfl hdue
      · rw [if_neg (not_or.2 ⟨not_not.2 hdue, not_or.2 ⟨hmode, by rw [show (s.port p).stopped = false from hrun]; decide⟩⟩)] at hexec
        refine ⟨fun hgroup _ => ⟨_, hexec.trans (congrArg Host.Outcome.next (if_pos hgroup)), State.sendGroup_zero_spec s p⟩,
          fun hgroup => hexec.trans (congrArg Host.Outcome.next (if_pos hgroup)), fun hgroup hheld => ?_, fun hgroup hup hfree => ?_⟩
        · rw [if_neg (by rw [show (s.port p).groupSize 0 = 0 from hgroup]; decide), if_pos hheld] at hexec
          rw [hexec]
          exact State.dueOrIdle_idles rfl rfl hdue
        · rw [if_neg (by rw [show (s.port p).groupSize 0 = 0 from hgroup]; decide),
            if_neg (not_or.2 ⟨not_not.2 hup, by rw [show (s.port p).held = false from hfree]; decide⟩)] at hexec
          refine ⟨fun y l hlane => ?_, fun y hlane => ?_⟩
          · rw [hexec, show (s.port p).pickLane 64 = (y, some l) from hlane]
          · rw [hexec, show (s.port p).pickLane 64 = (y, none) from hlane]
            dsimp only
            cases (s.port p).heldLane with
            | none => exact State.dueOrIdle_idles rfl rfl hdue
            | some l => exact State.dueOrIdle_idles (State.countPort_port ..) (State.countPort_mem ..) hdue

end Sys2Proof.Machine
end

section
/-! SUPPORT. Ports: their states, chunks and their reports, Ethernet frames and queue pairs, and the class of a port (R330, R332, R337,
R340, R345, R346, R357). -/

namespace Sys2Proof.Machine

/-! The states of a port (R330) -/

/-- A port that is not UP leaves its state with nothing else to end. -/
theorem State.leavePort_of_not_up {s : State} {p : PortNo} (h : (s.port p).mode ≠ .up) (m : PortMode) :
    ((s.leavePort p m).port p).mode = m ∧ ((s.leavePort p m).port p).replay = [] ∧ (s.leavePort p m).mem = s.mem ∧
    ((s.leavePort p m).port p).enable = (s.port p).enable := by
  unfold State.leavePort
  dsimp only
  rw [if_pos h, State.port_setPort_self]
  exact ⟨rfl, rfl, rfl, rfl⟩

/-- R340, R477: a keyed port is UP and encrypts, counts from 0, and its session is finished. -/
theorem State.enterUp_keyed (s : State) (p : PortNo) :
    (((s.enterUp p true).openLinkSession p).port p).mode = .up ∧ (((s.enterUp p true).openLinkSession p).port p).encOn = true ∧
    (((s.enterUp p true).openLinkSession p).port p).txNext = 0 ∧
    ∃ x ∈ ((s.enterUp p true).openLinkSession p).sec.sessions, x.path = .link p ∧ x.finished = true := by
  have hport : ((s.enterUp p true).openLinkSession p).port p = { (s.port p).cleared with
      mode := .up, encOn := true, txBlock := Config.linkBlock s.draws (s.port p).cleared.sendsHigh,
      rxBlock := Config.linkBlock s.draws !(s.port p).cleared.sendsHigh } :=
    State.port_setPort_self ..
  rw [hport]
  exact ⟨rfl, rfl, rfl, _, List.mem_append_right _ (List.mem_singleton.2 rfl), rfl, rfl⟩

theorem State.countPort_link (s : State) (p : PortNo) (ev inc lane : Nat) : (s.countPort p ev inc lane).link = s.link :=
  State.countDie_link ..

/-- What PORT_CTRL takes of a value without its commands: the enable moves the port between DISABLED and DOWN. -/
theorem exec_portEnable_plain {s : State} {p : PortNo} {v : W32} (hretrain : bitOf v.toNat 2 = false) (hclear : bitOf v.toNat 5 = false) :
    exec (.portEnable p v) s = .next (
      let s1 := s.modPort p (fun x => { x with enable := bitOf v.toNat 0, encReq := bitOf v.toNat 1, loopback := bitOf v.toNat 3 })
      if !bitOf v.toNat 0 then (if (s.port p).mode = .disabled then s1 else s1.leavePort p .disabled)
      else if (s.port p).mode = .disabled then s1.modPort p (fun x => { x with mode := .down }) else s1) := by
  simp only [exec, execPortEnable, hretrain, hclear, Bool.false_eq_true, if_false, State.port_modPort_self]

/-! Chunks and their reports (R337) -/

section
variable {s : State} {p : PortNo} {body : List Byte} {m : RxMsg}

theorem State.acceptChunk_of_msg (hmsg : s.rxMsg (BitVec.ofNat 32 (leField body 8 4)) (BitVec.ofNat 32 (leField body 4 4)) = some m) :
    s.acceptChunk p body =
      if !(s.port p).admits m.mtype || decide (m.total ≤ leField body 2 2) then s
      else match m.target with
        | .relay _ ps => s.relayChunk ps (leField body 2 2) body
        | _ => if chunkOk (s.openChunk m body) then s.goodChunk p m (chunkOf (s.openChunk m body)) else s.badChunk p m (leField body 2 2) := by
  unfold State.acceptChunk
  rw [hmsg] <;> rfl

theorem State.goodChunk_other {c : RxChunk} (htarget : m.target = .other) (hnew : c.index ∉ m.got) :
    s.goodChunk p m c = if m.got.length + 1 = m.total then (s.emit (.chunkReport p m.src m.id c.index true)).dropRx m.src m.id
      else (s.emit (.chunkReport p m.src m.id c.index true)).setRx { m with got := m.got ++ [c.index] } := by
  have hdeliver : (s.emit (.chunkReport p m.src m.id c.index true)).deliverChunk m c = (s.emit (.chunkReport p m.src m.id c.index true), true) := by
    unfold State.deliverChunk
    rw [htarget]
  unfold State.goodChunk
  dsimp only
  rw [if_neg hnew, hdeliver]
  dsimp only
  rw [if_neg (by decide), List.length_append, List.length_singleton, htarget]
  dsimp only
  split
  · unfold State.finishRx
    dsimp only
  · rfl

theorem State.badChunk_of_chunked (hminor : (s.port p).minor ≠ 0) (c : Nat) :
    s.badChunk p m c =
      let s1 := (s.countPort p 0x07 1 (if m.mtype = 1 then 1 else if m.mtype = 2 then 2 else 0)).emit (.chunkReport p m.src m.id c false)
      if 3 < ((m.bad ++ [c]).filter (fun i => decide (i = c))).length then (s1.dropRx m.src m.id).reportPort p 0x0401 .operation []
      else s1.setRx { m with bad := m.bad ++ [c] } := by
  unfold State.badChunk
  dsimp only
  rw [if_neg hminor]

/-- R337: a bad chunk is reported, and its message waits for it again. -/
theorem State.badChunk_again (hminor : (s.port p).minor ≠ 0) {c : Nat} (hfew : ((m.bad ++ [c]).filter (fun i => decide (i = c))).length ≤ 3) :
    (s.badChunk p m c).out = s.out ++ [.chunkReport p m.src m.id c false] ∧ (s.badChunk p m c).mem = s.mem ∧
    (s.badChunk p m c).link = { s.link with rx := s.link.rx.map (fun x => if x.src = m.src ∧ x.id = m.id then { m with bad := m.bad ++ [c] } else x) } := by
  rw [State.badChunk_of_chunked hminor]
  dsimp only
  rw [if_neg (Nat.not_lt.2 hfew)]
  unfold State.setRx
  rw [State.modLink_out, State.modLink_mem, State.modLink_link, State.emit_out, State.emit_mem, State.emit_link, State.countPort_out,
    State.countPort_mem, State.countPort_link]
  exact ⟨rfl, rfl, rfl⟩

/-- R337: at the fourth failure of one chunk its message is dropped. -/
theorem State.badChunk_last (hminor : (s.port p).minor ≠ 0) {c : Nat} (hmany : 3 < ((m.bad ++ [c]).filter (fun i => decide (i = c))).length) :
    (s.badChunk p m c).link = { s.link with rx := s.link.rx.filter (fun x => decide (x.src ≠ m.src) || decide (x.id ≠ m.id)) } := by
  rw [State.badChunk_of_chunked hminor]
  dsimp only
  rw [if_pos hmany, State.reportPort_link]
  unfold State.dropRx
  rw [State.modLink_link, State.emit_link, State.countPort_link]

end

/-- A report that a chunk failed, of a message without a held port and by chunks: the message is sent again, or fails. -/
theorem State.chunkReported_bad {s : State} {p : PortNo} {id : W32} {c : Nat} {m : TxMsg} {k : TxChunk} (hmsg : s.txMsg id = some m)
    (hchunk : m.chunks[c]? = some k) (hfree : m.ports.any (fun q => (s.port q).held) = false) (hminor : (s.port p).minor ≠ 0) :
    s.chunkReported p id c false = if 3 ≤ k.tries then s.failCheck p id
      else match ((s.noteResend p).modTx id (fun m => { m with chunks := m.chunks.set c { k with tries := k.tries + 1 } })).sendChunk m c with
        | .ok t => t
        | .error _ => ((s.noteResend p).modTx id (fun m => { m with chunks := m.chunks.set c { k with tries := k.tries + 1 } })).failMessage id 0x0401 := by
  unfold State.chunkReported
  rw [hmsg]
  dsimp only
  rw [hchunk]
  dsimp only
  rw [if_neg (by decide), if_neg (by rw [hfree]; decide), if_neg hminor] <;> rfl

/-! Ethernet (R345, R346) -/

theorem exec_ethFrameReceive_up {s : State} {p : PortNo} (heth : 30 ≤ p.val) (hup : (s.port p).mode = .ethUp) (frame : List Byte) :
    exec (.ethFrameReceive p frame) s = .next (
      if !ethOk frame then s.countEth 0x14 none
      else if isPfc (ethParse frame).data then (s.countEth 0x13 none).takePfc p (ethParse frame).data
      else if s.ethSteer p (ethParse frame) = [] then (s.countEth 0x13 none).countEth 0x14 none
      else (s.ethSteer p (ethParse frame)).foldl (fun t q => t.ethDeliver p q (ethParse frame)) (s.countEth 0x13 none)) :=
  congrArg Host.Outcome.next (if_neg (not_or.2 ⟨Nat.not_lt.2 heth, not_not.2 hup⟩))

/-- A pause frame is steered to no queue pair. -/
theorem State.not_pfc_of_steered {s : State} {p : PortNo} {f : EthRx} {q : Fin 64} (h : s.ethSteer p f = [q]) : ¬ isPfc f.data = true := by
  intro hpfc
  have hnone : s.ethSteer p f = [] := if_pos hpfc
  rw [hnone] at h
  exact List.noConfusion rfl (heq_of_eq h)

theorem exec_ethFrameSent_up {s : State} {p : PortNo} {q : Fin 64} (heth : 30 ≤ p.val) (hup : (s.port p).mode = .ethUp)
    (henable : (s.eth p q).enable = true) (hposted : (s.eth p q).txHead ≠ (s.eth p q).txTail) : exec (.ethFrameSent p q) s = .next (s.ethSend p q) :=
  congrArg Host.Outcome.next (if_neg (by
    rintro (h | h | h | h)
    · omega
    · exact h hup
    · rw [henable] at h; exact Bool.noConfusion h
    · exact hposted h))

section
variable {s : State} {p : PortNo} {q : Fin 64} {b : List Byte} {bad : Bool}
  (hread : s.dvRead (s.eth p q).owner (masterTransport 1) ((s.eth p q).txBase.toNat + 32 * (s.eth p q).txHead.toNat) 32 = .ok (b, bad))
include hread

/-- R346: a descriptor off its format is reported and passed over. -/
theorem State.ethSend_bad_desc (hdesc : txDescOk b = false) :
    s.ethSend p q = (s.report ⟨0x0503, dieX1, (s.eth p q).owner.val, unitPort p, .operation, []⟩).setEth p q
      { s.eth p q with txHead := BitVec.ofNat 16 (((s.eth p q).txHead.toNat + 1) % (s.eth p q).size) } := by
  unfold State.ethSend
  dsimp only
  rw [hread]
  dsimp only
  rw [if_pos (by rw [hdesc]; rfl)]

theorem State.ethSend_bad_length (hdesc : txDescOk b = true) (hlen : leField b 8 2 < 60 ∨ 9212 < leField b 8 2) :
    s.ethSend p q = s.setEth p q { s.eth p q with txHead := BitVec.ofNat 16 (((s.eth p q).txHead.toNat + 1) % (s.eth p q).size) } := by
  unfold State.ethSend
  dsimp only
  rw [hread]
  dsimp only
  rw [if_neg (by rw [hdesc]; decide), if_pos hlen]

variable (hdesc : txDescOk b = true) (hlow : 60 ≤ leField b 8 2) (hhigh : leField b 8 2 ≤ 9212)
include hdesc hlow hhigh

/-- R345: a paused class sends nothing. -/
theorem State.ethSend_paused (hpaused : s.clock.time.toNat < ((s.port p).paused.toList.getD (leField b 13 1) 0).toNat) : s.ethSend p q = s := by
  unfold State.ethSend
  dsimp only
  rw [hread]
  dsimp only
  rw [if_neg (by rw [hdesc]; decide), if_neg (not_or.2 ⟨Nat.not_lt.2 hlow, Nat.not_lt.2 hhigh⟩), if_pos (by exact hpaused)]

theorem State.ethSend_sent (hrun : ((s.port p).paused.toList.getD (leField b 13 1) 0).toNat ≤ s.clock.time.toNat) {data : List Byte}
    (hdata : s.dvRead (s.eth p q).owner (masterTransport 1) (leField b 0 8) (leField b 8 2) = .ok (data, false))
    (hstamp : bitOf (leField b 12 1) 0 = false) :
    s.ethSend p q = (((s.countEth 0x12 (some (s.eth p q).owner)).emit (.ethFrame p (ethFrame data
      (if bitOf (leField b 12 1) 1 then some (leField b 14 2) else none) false) false)).dvWrite (s.eth p q).owner (masterTransport 1)
      ((s.eth p q).txBase.toNat + 32 * (s.eth p q).txHead.toNat + 12) (leBytes 1 (leField b 12 1 % 4 + 4))).setEth p q
      { s.eth p q with txHead := BitVec.ofNat 16 (((s.eth p q).txHead.toNat + 1) % (s.eth p q).size) } := by
  unfold State.ethSend
  dsimp only
  rw [hread]
  dsimp only
  rw [if_neg (by rw [hdesc]; decide), if_neg (not_or.2 ⟨Nat.not_lt.2 hlow, Nat.not_lt.2 hhigh⟩), if_neg (Nat.not_lt.2 (by exact hrun)), hdata]
  dsimp only
  rw [hstamp, if_neg (by decide), if_neg (by decide)]
  rfl

end

theorem State.countEth_clock (s : State) (ev : Nat) (p : Option PartNo) : (s.countEth ev p).clock = s.clock := by
  obtain ⟨pmc, h⟩ := State.countDie_spec s 5 ⟨ev, 1, 0, 3, 3, p, none, none⟩
  exact (congrArg State.clock h :)

/-! The class of a port (R357) -/

theorem State.chooseRoot_keeps (s : State) : s.chooseRoot.link.ports = s.link.ports ∧ s.chooseRoot.mem = s.mem := by
  unfold State.chooseRoot
  extract_lets own hs best t s1 cand
  split
  · exact ⟨rfl, rfl⟩
  · split
    · exact ⟨rfl, rfl⟩
    · extract_lets
      split <;> exact ⟨rfl, rfl⟩

theorem State.afterWiring_keeps (old s : State) : (old.afterWiring s).link.ports = s.link.ports ∧ (old.afterWiring s).mem = s.mem := by
  unfold State.afterWiring
  extract_lets s1
  have hroot : s1.link.ports = s.link.ports ∧ s1.mem = s.mem := by
    by_cases h : (harosPorts.any (fun p => decide ((old.port p).held ≠ (s.port p).held))) = true
    · rw [show s1 = s.chooseRoot from if_pos h]
      exact State.chooseRoot_keeps s
    · rw [show s1 = s from if_neg h]
      exact ⟨rfl, rfl⟩
  split
  · exact hroot
  · have hnote := State.notify_core0 s1 0x3120 0x1F (leBytes 4 s1.wireSummary)
    exact ⟨(congrArg (fun t : State => t.link.ports) hnote :).trans hroot.1, (congrArg (fun t : State => t.mem) hnote :).trans hroot.2⟩

/-- R357: with no plan loaded a port has no class and is not held. -/
theorem State.classify_noPlan {s : State} (hslot : s.slotTooHigh = false) (hplan : s.planLoaded = false) (p : PortNo) :
    s.classify p = s.setWire p .noPlan none := by
  have hclass : s.wireClass p = (.noPlan, none) := by
    unfold State.wireClass
    dsimp only
    rw [if_neg (by rw [hslot]; simp), hplan]
    rfl
  unfold State.classify
  rw [hclass]
  rfl

/-- Settles O49: a port's commands by its mode, a chunk and its report by what the port and the message are, Ethernet by the
descriptor and the frame, and the class of a port with no plan. -/
theorem ports : Obligations.Ports := by
  unfold Obligations.Ports
  intro s p
  refine ⟨fun hport hdown henable hfresh => ⟨_, congrArg Host.Outcome.next (if_pos ⟨hport, hdown, henable, by rw [hfresh]; rfl⟩),
      congrArg Port.mode (State.port_modPort_self ..)⟩, fun htraining => ⟨?_, ?_⟩, fun hdown hretry => ?_, fun hshake => ?_, fun hkeying => ⟨?_, ?_⟩,
    fun hoff => congrArg Host.Outcome.next (if_pos hoff), fun hdisabled hdown => congrArg Host.Outcome.next (if_neg (not_or.2 ⟨hdisabled, hdown⟩)),
    fun hup hdisabled => ⟨?_, fun v henable hretrain hclear => ?_⟩, fun hdisabled => ⟨congrArg Host.Outcome.next (if_pos hdisabled),
      fun v henable hretrain hclear => ?_⟩, ⟨_, rfl, State.port_modPort_self ..⟩, fun hup => congrArg Host.Outcome.next (if_pos hup),
    fun hup => congrArg Host.Outcome.next (if_neg hup), fun body => ⟨fun hnone => ?_, fun m hmsg => ⟨fun hdrop => ?_, fun hadmits hindex =>
      ⟨fun n ps htarget => ?_, fun htarget => ?_⟩⟩, fun hversion htype => congrArg Host.Outcome.next (if_pos ⟨hversion, htype⟩),
      fun hversion htype => congrArg Host.Outcome.next (if_pos ⟨hversion, htype⟩), fun hversion =>
      ⟨congrArg Host.Outcome.next (if_neg (fun h => hversion h.1)), congrArg Host.Outcome.next (if_neg (fun h => hversion h.1))⟩⟩,
    fun id c good hnone => ?_, fun id c m k hmsg hchunk => ?_, fun id c m k hmsg hchunk => ⟨fun hheld => ?_, fun hfree hminor =>
      ⟨fun htries => ?_, fun htries t hsent => ?_⟩⟩, fun heth henable hdown => ⟨_, congrArg Host.Outcome.next (if_pos ⟨heth, henable, hdown⟩),
      congrArg Port.mode (State.port_modPort_self ..)⟩, fun heth hup frame => ?_, fun heth q v => ⟨congrArg Host.Outcome.next (if_neg (Nat.not_lt.2 heth)),
      congrArg Host.Outcome.next (if_neg (Nat.not_lt.2 heth))⟩, fun heth hup q henable hposted => ?_, fun hport => ?_, fun hport hslot hplan => ?_,
    fun heth => congrArg Host.Outcome.next (if_neg (Nat.not_lt.2 heth))⟩
  · exact ⟨_, congrArg Host.Outcome.next (if_pos htraining), congrArg Port.mode (State.port_modPort_self ..)⟩
  · obtain ⟨hmode, -, hmem, -⟩ := State.leavePort_of_not_up (s := s) (p := p) (by rw [htraining]; decide) .down
    refine ⟨_, congrArg Host.Outcome.next (if_pos htraining), ?_, ?_, hmem⟩
    · rw [State.port_modPort_self]
      exact hmode
    · rw [State.port_modPort_self]
  · refine ⟨_, congrArg Host.Outcome.next (if_pos ⟨hdown, hretry⟩), ?_⟩
    rw [State.port_modPort_self]
    exact ⟨rfl, rfl⟩
  · obtain ⟨hmode, -, hmem, -⟩ := State.leavePort_of_not_up (s := s) (p := p) (by rw [hshake]; decide) .down
    exact ⟨_, congrArg Host.Outcome.next (if_pos hshake), hmode, hmem⟩
  · exact ⟨_, congrArg Host.Outcome.next (if_pos hkeying), State.enterUp_keyed s p⟩
  · obtain ⟨hmode, -, hmem, -⟩ := State.leavePort_of_not_up (s := s.reportPort p 0x0408 .operation []) (p := p)
      (by rw [State.reportPort_port, hkeying]; decide) .quarantine
    exact ⟨_, congrArg Host.Outcome.next (if_pos hkeying), hmode, hmem.trans (State.report_mem ..)⟩
  · obtain ⟨hmode, hreplay, hmem, -⟩ := State.leavePort_of_not_up hup .down
    exact ⟨_, congrArg Host.Outcome.next (if_neg hdisabled), hmode, hreplay, hmem⟩
  · have hexec := exec_portEnable_plain (s := s) (p := p) hretrain hclear
    dsimp only at hexec
    rw [henable, if_pos (by decide), if_neg hdisabled] at hexec
    obtain ⟨hmode, -, hmem, henabled⟩ := State.leavePort_of_not_up (p := p)
      (s := s.modPort p (fun x => { x with enable := false, encReq := bitOf v.toNat 1, loopback := bitOf v.toNat 3 }))
      (by rw [State.port_modPort_self]; exact hup) .disabled
    refine ⟨_, hexec, hmode, henabled.trans ?_, hmem⟩
    rw [State.port_modPort_self]
  · have hexec := exec_portEnable_plain (s := s) (p := p) hretrain hclear
    dsimp only at hexec
    rw [henable, if_neg (by decide), if_pos hdisabled] at hexec
    refine ⟨_, hexec, ?_⟩
    rw [State.port_modPort_self, State.port_modPort_self]
    exact ⟨rfl, rfl, rfl⟩
  · simp only [exec, execChunkReceive, State.acceptChunk, hnone]
  · exact congrArg Host.Outcome.next ((State.acceptChunk_of_msg hmsg).trans (if_pos (by rcases hdrop with h | h <;> simp [h])))
  · refine congrArg Host.Outcome.next ((State.acceptChunk_of_msg hmsg).trans ?_)
    rw [if_neg (by simp [hadmits, hindex]), htarget]
  · intro c s1
    have hexec : exec (.chunkReceive p body) s = .next (if chunkOk (s.openChunk m body) then s.goodChunk p m c else s.badChunk p m (leField body 2 2)) := by
      refine congrArg Host.Outcome.next ((State.acceptChunk_of_msg hmsg).trans ?_)
      rw [if_neg (by simp [hadmits, hindex]), htarget]
    refine ⟨fun hgood => ?_, fun hbad hminor => ?_⟩
    · rw [if_pos hgood] at hexec
      refine ⟨fun hknown => hexec.trans (congrArg Host.Outcome.next (State.goodChunk_known hknown)), fun hnew hmore => ?_, fun hnew hlast => ?_⟩
      · rw [hexec, State.goodChunk_other htarget hnew, if_neg hmore]
      · rw [hexec, State.goodChunk_other htarget hnew, if_pos hlast]
    · rw [if_neg (by rw [hbad]; decide)] at hexec
      exact ⟨fun hfew => ⟨_, hexec, State.badChunk_again hminor hfew⟩, fun hmany => ⟨_, hexec, State.badChunk_last hminor hmany⟩⟩
  · simp only [exec, execChunkReport, State.chunkReported, hnone]
  · simp only [exec, execChunkReport, State.chunkReported, hmsg, hchunk, if_true]
  · simp only [exec, execChunkReport, State.chunkReported, hmsg, hchunk, hheld, Bool.false_eq_true, if_false, if_true]
  · exact congrArg Host.Outcome.next ((State.chunkReported_bad hmsg hchunk hfree hminor).trans (if_pos htries))
  · refine congrArg Host.Outcome.next ((State.chunkReported_bad hmsg hchunk hfree hminor).trans ?_)
    rw [if_neg (Nat.not_le.2 htries), hsent]
  · have hexec := exec_ethFrameReceive_up heth hup frame
    refine ⟨fun hbad => ?_, fun hgood hpfc => ?_, fun q hgood hsteer => ?_⟩
    · rw [if_pos (by rw [hbad]; rfl)] at hexec
      exact ⟨_, hexec, State.countDie_mem .., State.countDie_link ..⟩
    · rw [if_neg (by rw [hgood]; decide), if_pos hpfc] at hexec
      rw [hexec]
      unfold State.takePfc State.now
      rw [State.countEth_clock] <;> rfl
    · rw [if_neg (by rw [hgood]; decide), if_neg (State.not_pfc_of_steered hsteer), hsteer, if_neg (List.cons_ne_nil q [])] at hexec
      exact hexec
  · intro m x d next b bad hread
    have hexec := exec_ethFrameSent_up heth hup henable hposted
    refine ⟨fun hdesc => ?_, fun hdesc hlen => ?_, fun hdesc hlow hhigh => ⟨fun hpaused => ?_, fun hrun data hdata hstamp => ?_⟩⟩
    · exact hexec.trans (congrArg Host.Outcome.next (State.ethSend_bad_desc hread hdesc))
    · exact hexec.trans (congrArg Host.Outcome.next (State.ethSend_bad_length hread hdesc hlen))
    · exact hexec.trans (congrArg Host.Outcome.next (State.ethSend_paused hread hdesc hlow hhigh hpaused))
    · exact hexec.trans (congrArg Host.Outcome.next (State.ethSend_sent hread hdesc hlow hhigh hrun hdata hstamp))
  · exact ⟨congrArg Host.Outcome.next (if_neg (fun h => absurd hport (Nat.not_lt.2 h.1))), fun f => congrArg Host.Outcome.next (if_pos (Or.inl hport)),
      fun q v => ⟨congrArg Host.Outcome.next (if_pos hport), congrArg Host.Outcome.next (if_pos hport), congrArg Host.Outcome.next (if_pos (Or.inl hport))⟩⟩
  · obtain ⟨hports, hmem⟩ := State.afterWiring_keeps s (s.classify p)
    have hport' : (s.afterWiring (s.classify p)).port p = (s.classify p).port p := by
      unfold State.port
      rw [hports]
    refine ⟨_, congrArg Host.Outcome.next (if_pos hport), ?_⟩
    rw [hport', hmem, State.classify_noPlan hslot hplan]
    unfold State.setWire
    rw [State.port_modPort_self]
    exact ⟨rfl, rfl, rfl⟩

end Sys2Proof.Machine
end

section
/-! SUPPORT. Management: WMP requests, the mailboxes, the store's commits and the warden's buses (R411 to R431). -/

namespace Sys2Proof.Machine

/-! A WMP request and its kind -/

theorem exec_wmp {path : WmpPath} {m : List Byte} {c : Instr} (h : c ∈ [Instr.wmpRead path m, .wmpWrite path m, .wmpNext path m]) (s : State) :
    exec c s = .next (s.wmpRequest path m) := by
  simp only [List.mem_cons, List.not_mem_nil, or_false] at h
  rcases h with rfl | rfl | rfl <;> rfl

theorem State.wmpRequest_of_down {s : State} {path : WmpPath} (h : s.wmpUp path = false) (m : List Byte) : s.wmpRequest path m = s :=
  if_pos (by rw [h]; rfl)

theorem State.wmpRequest_of_unreadable {s : State} {path : WmpPath} {m : List Byte} (hup : s.wmpUp path = true) (h : WmpReq.parse path m = none) :
    s.wmpRequest path m = s.wmpDiscard := by
  unfold State.wmpRequest
  rw [if_neg (by rw [hup]; decide), h]

section
variable {s : State} {path : WmpPath} {m : List Byte} {q : WmpReq} (hup : s.wmpUp path = true) (hparse : WmpReq.parse path m = some q)
  (hrecovery : s.ward.recovery = false) (hversion : q.version = 1) (hop : q.op = 1 ∨ q.op = 2 ∨ q.op = 3)
include hup hparse hrecovery hversion hop

theorem State.wmpRequest_of_request : s.wmpRequest path m = match s.keptFor path q.seq with
    | some k => s.sendWmp path k.resp
    | none => if s.inService path q.seq then s else if q.op = 1 then s.wmpReadOp q else if q.op = 2 then s.wmpWriteOp q else s.wmpNextOp q := by
  unfold State.wmpRequest
  rw [if_neg (by rw [hup]; decide), hparse]
  dsimp only
  rw [if_neg (by rw [hrecovery]; simp), if_neg (not_not.2 hversion), if_neg (by omega)] <;> rfl

/-- R423: a request not seen yet is carried out by its op. -/
theorem State.wmpRequest_of_new (hkept : s.keptFor path q.seq = none) (hservice : s.inService path q.seq = false) :
    s.wmpRequest path m = if q.op = 1 then s.wmpReadOp q else if q.op = 2 then s.wmpWriteOp q else s.wmpNextOp q := by
  rw [State.wmpRequest_of_request hup hparse hrecovery hversion hop, hkept]
  dsimp only
  rw [if_neg (by rw [hservice]; decide)]

end

/-! Reads and writes of entries -/

theorem State.wmpReadOp_of_error {q : WmpReq} {e : Nat} (h : q.entry false = .error e) (s : State) :
    s.wmpReadOp q = s.answerWmp q.path q.seq ((WmpResp.plain q.index q.sub e).bytes q.op q.seq) := by
  unfold State.wmpReadOp
  dsimp only
  rw [h]

theorem State.wmpReadOp_of_entry {q : WmpReq} {r : DictRow} (h : q.entry false = .ok r) (s : State) :
    s.wmpReadOp q =
      if q.ty ≠ 0 ∧ q.ty ≠ r.ty.code then s.answerWmp q.path q.seq ((WmpResp.plain q.index q.sub wmpType).bytes q.op q.seq)
      else if ((s.beforeRead q.index q.sub).entryBytes q.index q.sub r).length ≤ q.offset then
        s.answerWmp q.path q.seq ((WmpResp.plain q.index q.sub wmpRange).bytes q.op q.seq)
      else if s.mainDown q.index r then s.answerWmp q.path q.seq ((WmpResp.plain q.index q.sub wmpState).bytes q.op q.seq)
      else if s.queueFull then s.sendWmp q.path ((WmpResp.plain q.index q.sub wmpBusy).bytes q.op q.seq)
      else (s.beforeRead q.index q.sub).answerWmp q.path q.seq
        ((WmpResp.mk wmpOk q.index q.sub r.ty.code q.offset ((s.beforeRead q.index q.sub).entryBytes q.index q.sub r).length
          ((((s.beforeRead q.index q.sub).entryBytes q.index q.sub r).drop q.offset).take 1024)).bytes q.op q.seq) := by
  unfold State.wmpReadOp
  dsimp only
  rw [h]

theorem State.wmpWriteOp_of_error {q : WmpReq} {e : Nat} (h : q.entry true = .error e) (s : State) :
    s.wmpWriteOp q = s.answerWmp q.path q.seq ((WmpResp.plain q.index q.sub e).bytes q.op q.seq) := by
  unfold State.wmpWriteOp
  dsimp only
  rw [h]

/-- A write of one fragment, of an entry staged nowhere else, is the whole write. -/
theorem State.wmpWriteOp_of_whole {s : State} {q : WmpReq} {r : DictRow} (h : q.entry true = .ok r) (hoffset : q.offset = 0) (hlast : q.last = true)
    (hstaged : s.stagedElsewhere q = false) : s.wmpWriteOp q = s.writeWhole q r q.value := by
  unfold State.wmpWriteOp
  dsimp only
  rw [h]
  dsimp only
  rw [if_pos (by rw [hoffset, hlast]; rfl), if_neg (by rw [hstaged]; simp)]

/-! Answers and the store (R418, R423) -/

/-- What of the warden an answer to a request leaves: the store, its older copy and the commit under way. -/
structure Shelf where
  store : Tab (Option Nat)
  commitNow : List CommitWrite
  oldGood : Bool
  older : Tab (Option Nat)

def WardenState.shelf (w : WardenState) : Shelf := ⟨w.store, w.commitNow, w.oldGood, w.older⟩

theorem State.sendWmp_keeps (s : State) (path : WmpPath) (m : List Byte) :
    (s.sendWmp path m).dict = s.dict ∧ (s.sendWmp path m).ward.shelf = s.ward.shelf := by
  unfold State.sendWmp
  split
  · unfold State.mailboxAnswer
    extract_lets c s1 k
    split
    · exact ⟨rfl, rfl⟩
    split
    · exact ⟨rfl, rfl⟩
    split
    · exact ⟨(congrArg (fun t : State => t.dict) (State.raiseVector_core0 s1 0 c.vector.toNat) :), by rw [State.raiseVector_ward]; rfl⟩
    · split <;> exact ⟨rfl, rfl⟩
  · exact ⟨rfl, rfl⟩

theorem State.answerWmp_keeps (s : State) (path : WmpPath) (seq : Nat) (m : List Byte) :
    (s.answerWmp path seq m).dict = s.dict ∧ (s.answerWmp path seq m).ward.shelf = s.ward.shelf :=
  State.sendWmp_keeps (s.modWard (fun w => { w with kept := keepResp w.kept ⟨sessionOf path, seq, m, s.now⟩ })) path m

theorem State.answerCommits_keeps (s : State) (l : List (CommitWrite × Nat)) :
    (s.answerCommits l).dict = s.dict ∧ (s.answerCommits l).ward.shelf = s.ward.shelf := by
  have hstep (t : State) (e : CommitWrite × Nat) : (fun u : State => (u.dict, u.ward.shelf)) (match e.1.path with
      | some p => t.answerWmp p e.1.seq ((WmpResp.plain e.1.index e.1.sub e.2).bytes 2 e.1.seq)
      | none => t) = (t.dict, t.ward.shelf) := by
    split
    · exact Prod.ext (State.answerWmp_keeps ..).1 (State.answerWmp_keeps ..).2
    · rfl
  exact Prod.mk.inj (foldl_keeps (fun u : State => (u.dict, u.ward.shelf)) _ hstep l s)

theorem State.notifyTarget_shelf (s : State) (t i j : Nat) (v : List Byte) : (s.notifyTarget t i j v).ward.shelf = s.ward.shelf := by
  unfold State.notifyTarget
  split
  · rfl
  · extract_lets sec r0 r
    split <;> rfl

theorem State.notify_shelf (s : State) (i j : Nat) (v : List Byte) : (s.notify i j v).ward.shelf = s.ward.shelf :=
  (State.notifyTarget_shelf _ 1 i j v).trans (State.notifyTarget_shelf s 0 i j v)

theorem State.report_shelf (s : State) (r : Report) : (s.report r).ward.shelf = s.ward.shelf := by
  unfold State.report
  extract_lets key sec u0 u
  split
  · rfl
  · unfold State.logRecord
    extract_lets seq pers rec0 k unread lg z1 z2 z3 z4 z5
    have hnote : z3.ward.shelf = s.ward.shelf := State.notify_shelf z2 _ _ _
    have hvector : z5.ward.shelf = s.ward.shelf := by
      by_cases h : s.host.irq.faultEn = true
      · rw [show z5 = z4.raiseVector 0 s.host.irq.faultVec.toNat from if_pos h, State.raiseVector_ward]
        exact hnote
      · rw [show z5 = z4 from if_neg h]
        exact hnote
    split
    · rw [State.partitionEvent_ward]
      exact hvector
    · exact hvector

/-- A write whose value the entry does not take is answered with the status of what is wrong with it. -/
theorem State.writeWhole_refused {s : State} {q : WmpReq} {r : DictRow} {bytes : List Byte} (h : s.writeStatus q r bytes ≠ wmpOk) :
    s.writeWhole q r bytes = s.answerWmp q.path q.seq ((WmpResp.plain q.index q.sub (s.writeStatus q r bytes)).bytes q.op q.seq) :=
  if_pos h

/-- R418: a write of a persistent entry joins a commit of the store. -/
theorem State.writeWhole_persistent {s : State} {q : WmpReq} {r : DictRow} {bytes : List Byte} (hok : s.writeStatus q r bytes = wmpOk)
    (hfree : s.queueFull = false) (hacc : r.acc.of (domainOf q.path) = .rwp) :
    s.writeWhole q r bytes = s.joinCommit ⟨some q.path, q.seq, q.index, q.sub, ofLeBytes bytes, false⟩ := by
  unfold State.writeWhole
  dsimp only
  rw [if_neg (not_not.2 hok), if_neg (by rw [hfree]; decide), hacc]

/-! The mailboxes (R426) -/

theorem exec_mailboxGo_of_idle {s : State} {ch : Fin 2} (hidle : s.ward.mailboxes[ch.val].busy = false)
    (hlen : s.ward.mailboxes[ch.val].req.getLE 10 2 ≤ 1024) (hup : s.wmpUp (.mailbox ch) = true) :
    exec (.mailboxGo ch) s = .next (
      let c := s.ward.mailboxes[ch.val]
      let m := c.req.getList 0 (24 + c.req.getLE 10 2)
      let t := (s.modWard (fun w => { w with mailboxes := w.mailboxes.set ch.val { c with busy := true } })).wmpRequest (.mailbox ch) m
      match WmpReq.parse (.mailbox ch) m with
      | none => (s.modWard (fun w => { w with mailboxes := w.mailboxes.set ch.val { c with err := true } })).wmpDiscard
      | some _ => if t.inService (.mailbox ch) (leField m 4 2) then t
        else t.modWard (fun w => { w with mailboxes := w.mailboxes.set ch.val { w.mailboxes[ch.val] with busy := false } })) := by
  refine congrArg Host.Outcome.next ?_
  dsimp only
  rw [if_neg (by rw [hidle]; decide), if_neg (Nat.not_lt.2 hlen), if_neg (by rw [hup]; decide)] <;> rfl

/-! The store's commits (R418, R431) -/

theorem exec_storeCommitComplete_of_commit {s : State} (hcommit : s.ward.commitNow ≠ []) (hup : s.ward.up = true) (good : Bool) :
    exec (.storeCommitComplete good) s = .next (
      if good then
        (((s.ward.commitNow.foldl State.applyCommit (s, [])).1.modWard (fun w => { w.nextCommit with
          older := s.ward.store, oldGood := true,
          storeCommits := if s.ward.storeCommits = 0xFFFFFFFF then s.ward.storeCommits else s.ward.storeCommits + 1 })).measureEntries).answerCommits
          (s.ward.commitNow.foldl State.applyCommit (s, [])).2
      else ((s.modWard (fun w => { w.nextCommit with oldGood := false })).report ⟨0x0901, dieX0, 0xFF, unitStore, .operation, []⟩).answerCommits
        (s.ward.commitNow.map (fun c => (c, wmpPersist)))) :=
  congrArg Host.Outcome.next (if_neg (not_or.2 ⟨hcommit, by rw [hup]; decide⟩))

/-- Settles O50: a request by its kind and what the warden has of it, then the mailboxes, the store's commits, the warden's restarts and
the buses by their guards. -/
theorem management : Obligations.Management := by
  unfold Obligations.Management
  intro s
  refine ⟨fun path m c hc => ?_, fun ch => ⟨fun hbusy => congrArg Host.Outcome.next (if_pos hbusy), fun hidle hlen => ?_, fun hidle hlen hup => ?_⟩,
    fun good hnone => congrArg Host.Outcome.next (if_pos (Or.inl hnone)), fun hcommit hup => ⟨?_, ?_⟩, fun i => rfl,
    fun hup => ⟨_, congrArg Host.Outcome.next (if_pos hup), rfl, rfl, rfl, rfl, rfl, rfl, rfl, rfl, rfl⟩,
    fun hdown => congrArg Host.Outcome.next (if_neg (by rw [hdown]; decide)),
    fun a b hnot => congrArg Host.Outcome.next (if_pos (hnot.imp_right fun h => by rw [h]; rfl)), fun a b hdown hplug hquiet hrecovery => ?_,
    fun hrails => ⟨_, congrArg Host.Outcome.next (if_pos hrails), rfl, rfl⟩, fun x y hup haddr => congrArg Host.Outcome.next (if_pos ⟨hup, haddr⟩),
    fun x y haddr => congrArg Host.Outcome.next (if_neg (fun h => haddr h.2)), fun y hup => ⟨fun hnone => congrArg Host.Outcome.next (if_pos ⟨hup, hnone⟩),
      fun hsome => congrArg Host.Outcome.next (if_neg (fun h => hsome h.2))⟩, fun hup e => ?_, fun hup => ?_,
    fun v => ⟨fun hvalue => congrArg Host.Outcome.next (if_pos hvalue), fun hvalue hstate => ?_, fun hvalue hstate => ?_⟩⟩
  · have hexec := exec_wmp hc s
    refine ⟨fun hdown => hexec.trans (congrArg Host.Outcome.next (State.wmpRequest_of_down hdown m)), fun hup hparse => ?_,
      fun q hup hparse hrecovery hversion hop => ?_⟩
    · rw [State.wmpRequest_of_unreadable hup hparse] at hexec
      exact ⟨_, hexec, rfl, rfl, rfl⟩
    · have hrequest := State.wmpRequest_of_request hup hparse hrecovery hversion hop
      refine ⟨fun k hkept => ?_, fun hkept hservice => ?_, fun hkept hservice => ?_⟩
      · rw [hexec, hrequest, hkept]
      · rw [hexec, hrequest, hkept]
        exact congrArg Host.Outcome.next (if_pos hservice)
      · rw [State.wmpRequest_of_new hup hparse hrecovery hversion hop hkept hservice] at hexec
        refine ⟨fun e hread hentry => ?_, fun r hread hentry hty hother => ?_, fun r hread hentry hty hmain hfree hoffset => ?_,
          fun e hwrite hentry => ?_, fun r hwrite hentry hoffset hlast hstaged => ?_, fun hnext => ?_⟩
        · rw [hexec, if_pos hread, State.wmpReadOp_of_error hentry, hread]
        · rw [hexec, if_pos hread, State.wmpReadOp_of_entry hentry, if_pos ⟨hty, hother⟩, hread]
        · rw [hexec, if_pos hread, State.wmpReadOp_of_entry hentry, if_neg (fun h => hty.elim h.1 h.2), if_neg (Nat.not_le.2 hoffset),
            if_neg (by rw [hmain]; decide), if_neg (by rw [hfree]; decide), hread]
        · rw [hexec, if_neg (by rw [hwrite]; decide), if_pos hwrite, State.wmpWriteOp_of_error hentry, hwrite]
        · rw [if_neg (by rw [hwrite]; decide), if_pos hwrite, State.wmpWriteOp_of_whole hentry hoffset hlast hstaged] at hexec
          refine ⟨fun hbad => ?_, fun hok hfree hacc => ?_⟩
          · rw [hexec, State.writeWhole_refused hbad, hwrite]
          · rw [hexec, State.writeWhole_persistent hok hfree hacc]
        · rw [hexec, if_neg (by rw [hnext]; decide), if_neg (by rw [hnext]; decide)]
  · exact congrArg Host.Outcome.next ((if_neg (by rw [hidle]; decide)).trans (if_pos hlen))
  · intro m t
    have hexec := exec_mailboxGo_of_idle hidle hlen hup
    dsimp only at hexec
    refine ⟨fun hparse => ?_, fun hparse hservice => ?_, fun hparse hservice => ?_⟩
    · rw [show WmpReq.parse (.mailbox ch) (s.ward.mailboxes[ch.val].req.getList 0 (24 + s.ward.mailboxes[ch.val].req.getLE 10 2)) = none from hparse] at hexec
      exact ⟨_, hexec, congrArg Mailbox.err (Vector.getElem_set_self ..), rfl⟩
    all_goals
      obtain ⟨q, hq⟩ := Option.isSome_iff_exists.1 hparse
      rw [show WmpReq.parse (.mailbox ch) (s.ward.mailboxes[ch.val].req.getList 0 (24 + s.ward.mailboxes[ch.val].req.getLE 10 2)) = some q from hq] at hexec
    · exact hexec.trans (congrArg Host.Outcome.next (if_pos hservice))
    · exact hexec.trans (congrArg Host.Outcome.next (if_neg (by rw [hservice]; decide)))
  · have hexec := exec_storeCommitComplete_of_commit hcommit hup false
    rw [if_neg (by decide)] at hexec
    obtain ⟨hdict, hshelf⟩ := State.answerCommits_keeps ((s.modWard (fun w => { w.nextCommit with oldGood := false })).report
      ⟨0x0901, dieX0, 0xFF, unitStore, .operation, []⟩) (s.ward.commitNow.map (fun c => (c, wmpPersist)))
    rw [State.report_shelf] at hshelf
    rw [State.report_dict] at hdict
    exact ⟨_, hexec, hdict, congrArg Shelf.store hshelf, congrArg Shelf.commitNow hshelf, congrArg Shelf.oldGood hshelf⟩
  · have hexec := exec_storeCommitComplete_of_commit hcommit hup true
    rw [if_pos rfl] at hexec
    have hshelf := (State.answerCommits_keeps (((s.ward.commitNow.foldl State.applyCommit (s, [])).1.modWard (fun w => { w.nextCommit with
      older := s.ward.store, oldGood := true,
      storeCommits := if s.ward.storeCommits = 0xFFFFFFFF then s.ward.storeCommits else s.ward.storeCommits + 1 })).measureEntries)
      (s.ward.commitNow.foldl State.applyCommit (s, [])).2).2
    exact ⟨_, hexec, congrArg Shelf.older hshelf, congrArg Shelf.oldGood hshelf⟩
  · refine ⟨_, congrArg Host.Outcome.next (if_neg (by rw [hdown, hplug]; decide)), ?_⟩
    have hkept : (s.modWard (fun w => { w with kept := [] })).ward.recovery = false := hrecovery
    simp only [hquiet, Bool.false_eq_true, if_false, hkept, State.report_up]
    rfl
  · refine ⟨_, congrArg Host.Outcome.next (if_neg (by rw [hup]; exact Bool.false_ne_true)), rfl, ?_⟩
    exact Tab.get_set_listed (Option.some_ne_none e) _ _
  · exact congrArg Host.Outcome.next (if_neg (by rw [hup]; exact Bool.false_ne_true))
  · exact congrArg Host.Outcome.next ((if_neg (not_not.2 hvalue)).trans (if_pos hstate))
  · exact congrArg Host.Outcome.next ((if_neg (not_not.2 hvalue)).trans (if_neg (by rw [hstate]; decide)))

end Sys2Proof.Machine
end

section
/-! SUPPORT. The SPDM responder: requests in their place and out of it, and sessions (R333, R474, R476 to R478, R485). -/

namespace Sys2Proof.Machine

/-! A request and the stage its connection is at (R476) -/

theorem State.spdmAt_of_stage {s : State} {path : SpdmPath} {n : Nat} (hup : s.spdmUp path = true) (h : n ≤ (s.conn path).stage)
    (f : State → State) : s.spdmAt path n f = f s := by
  unfold State.spdmAt
  rw [if_neg (by rw [hup]; decide), if_neg (Nat.not_lt.2 h)]

theorem State.spdmAt_of_early {s : State} {path : SpdmPath} {n : Nat} (hup : s.spdmUp path = true) (h : (s.conn path).stage < n)
    (f : State → State) : s.spdmAt path n f = s.spdmReply path (.error .unexpectedRequest) := by
  unfold State.spdmAt
  rw [if_neg (by rw [hup]; decide), if_pos h]

theorem State.inSession_of_finished {s : State} {path : SpdmPath} {id : Nat} {x : SpdmSession} (hup : s.spdmUp path = true)
    (h : s.session path id = some x) (hfinished : x.finished = true) (f : State → SpdmSession → State) : s.inSession path id f = f s x := by
  unfold State.inSession
  rw [State.spdmAt_of_stage hup (Nat.zero_le _), h]
  exact if_pos hfinished

theorem State.inSession_of_none {s : State} {path : SpdmPath} {id : Nat} (hup : s.spdmUp path = true) (h : s.session path id = none)
    (f : State → SpdmSession → State) : s.inSession path id f = s.spdmReply path (.error .unexpectedRequest) := by
  unfold State.inSession
  rw [State.spdmAt_of_stage hup (Nat.zero_le _), h]

/-! Sessions (R333, R476 to R478, R485) -/

/-- A session that was touched reads as it was changed, with the time. -/
theorem State.session_touchSession {s : State} {path : SpdmPath} {id : Nat} {x : SpdmSession} {f : SpdmSession → SpdmSession}
    (hf : ∀ y : SpdmSession, (f y).path = y.path ∧ (f y).id = y.id) (h : s.session path id = some x) :
    (s.touchSession path id f).session path id = some { f x with time := s.clock.time.toNat } := by
  have hkeys : ((fun x : SpdmSession => decide (x.path = path) && decide (x.id = id)) ∘
      (fun y : SpdmSession => if y.path = path ∧ y.id = id then { f y with time := s.now } else y)) =
      (fun x : SpdmSession => decide (x.path = path) && decide (x.id = id)) := by
    funext y
    rw [Function.comp]
    split
    · show (decide ((f y).path = path) && decide ((f y).id = id)) = _
      rw [(hf y).1, (hf y).2]
    · rfl
  have hx := List.find?_some h
  simp only [Bool.and_eq_true, decide_eq_true_eq] at hx
  have hfound : s.sec.sessions.find? (fun x => decide (x.path = path) && decide (x.id = id)) = some x := h
  unfold State.touchSession State.session
  show List.find? _ (s.sec.sessions.map _) = _
  rw [List.find?_map, hkeys, hfound]
  exact congrArg some (if_pos hx)

/-- R476: no session of that number is left on its path. -/
theorem State.not_mem_dropSession {s : State} {path : SpdmPath} {id : Nat} {y : SpdmSession} (h : y ∈ (s.dropSession path id).sec.sessions)
    (hpath : y.path = path) : y.id ≠ id := by
  intro hid
  have hkept : y ∈ s.sec.sessions.filter (fun y => !(decide (y.path = path) && decide (y.id = id))) := h
  have hother := (List.mem_filter.1 hkept).2
  simp [hpath, hid] at hother

theorem State.installKeys_keeps (s : State) (p : PortNo) :
    (s.installKeys p).out = s.out ∧ (s.installKeys p).mem = s.mem ∧ (s.installKeys p).sec = s.sec := by
  unfold State.installKeys
  split <;> exact ⟨rfl, rfl, rfl⟩

/-- R333: a port that encrypts holds the block of the next key phase. -/
theorem State.installKeys_txSpare {s : State} {p : PortNo} (h : (s.port p).encOn = true) :
    ((s.installKeys p).port p).txSpare = some (Config.linkBlock s.draws (s.port p).sendsHigh) := by
  unfold State.installKeys
  rw [if_pos h]
  exact congrArg Port.txSpare (State.port_modPort_self s p (fun x => { x with
    txSpare := some (Config.linkBlock s.draws x.sendsHigh), rxSpare := some (Config.linkBlock s.draws !x.sendsHigh) }))

/-- R478: keys are updated on the path of the session: a port installs its blocks. -/
def State.rekey (s : State) (path : SpdmPath) : State :=
  match path with
  | .link p => s.installKeys p
  | _ => s

theorem State.rekey_keeps (s : State) (path : SpdmPath) : (s.rekey path).out = s.out ∧ (s.rekey path).mem = s.mem ∧ (s.rekey path).sec = s.sec := by
  unfold State.rekey
  split
  · exact State.installKeys_keeps ..
  · exact ⟨rfl, rfl, rfl⟩

theorem exec_keyUpdate_of_finished {s : State} {path : SpdmPath} {id : Nat} {x : SpdmSession} (hup : s.spdmUp path = true)
    (h : s.session path id = some x) (hfinished : x.finished = true) :
    exec (.keyUpdate path id) s = .next (((s.touchSession path id (fun y => { y with keyGen := y.keyGen + 1 })).rekey path).spdmReply path
      (.keyUpdateAck id (x.keyGen + 1))) :=
  congrArg Host.Outcome.next (State.inSession_of_finished hup h hfinished _)

theorem State.keyUpdate_spec {s : State} {path : SpdmPath} {id : Nat} {x : SpdmSession} (h : s.session path id = some x) :
    let t := ((s.touchSession path id (fun y => { y with keyGen := y.keyGen + 1 })).rekey path).spdmReply path (.keyUpdateAck id (x.keyGen + 1))
    t.out = s.out ++ [.spdm path (.keyUpdateAck id (x.keyGen + 1))] ∧ t.mem = s.mem ∧
    t.session path id = some { x with keyGen := x.keyGen + 1, time := s.clock.time.toNat } ∧
    ∀ p, path = .link p → (s.port p).encOn = true → (t.port p).txSpare = some (Config.linkBlock s.draws (s.port p).sendsHigh) := by
  intro t
  obtain ⟨hout, hmem, hsec⟩ := State.rekey_keeps (s.touchSession path id (fun y => { y with keyGen := y.keyGen + 1 })) path
  have htouched := State.session_touchSession (f := fun y => { y with keyGen := y.keyGen + 1 }) (fun _ => ⟨rfl, rfl⟩) h
  refine ⟨congrArg (· ++ [_]) hout, hmem, ?_, ?_⟩
  · have hsame : t.session path id = (s.touchSession path id (fun y => { y with keyGen := y.keyGen + 1 })).session path id :=
      congrArg (fun c : SecState => c.sessions.find? (fun x : SpdmSession => decide (x.path = path) && decide (x.id = id))) hsec
    exact hsame.trans htouched
  · rintro p rfl henc
    exact State.installKeys_txSpare (s := s.touchSession (.link p) id (fun y => { y with keyGen := y.keyGen + 1 })) henc

/-- R485: the loss of a session is reported where its path is a port or another module. -/
def State.reportSessionLoss (s : State) (path : SpdmPath) : State :=
  match path with
  | .link p => s.reportPort p 0x0805 .operation []
  | .endToEnd _ => s.report ⟨0x0805, dieX0, 0xFF, unitWarden, .operation, []⟩
  | _ => s

theorem State.reportSessionLoss_keeps (s : State) (path : SpdmPath) : (s.reportSessionLoss path).mem = s.mem ∧ (s.reportSessionLoss path).sec = s.sec := by
  unfold State.reportSessionLoss
  split
  · exact ⟨State.report_mem .., State.report_sec ..⟩
  · exact ⟨State.report_mem .., State.report_sec ..⟩
  · exact ⟨rfl, rfl⟩

/-- A session whose time has passed is dropped. -/
theorem exec_sessionLost_of_late {s : State} {path : SpdmPath} {id : Nat} {x : SpdmSession} (h : s.session path id = some x)
    (hlate : x.time + 3 * secTicks ≤ s.clock.time.toNat) :
    exec (.sessionLost path id) s = .next ((s.dropSession path id).reportSessionLoss path) := by
  have hpassed : ¬ s.now < x.time + 3 * secTicks := Nat.not_lt.2 hlate
  simp only [exec, execSessionLost, h, if_neg hpassed]
  rfl

/-! Certificates and measurements (R474, R476) -/

theorem State.certChain_none {i : Nat} (h : 2 ≤ i) (s : State) : s.certChain i = none := by
  obtain ⟨k, rfl⟩ := Nat.exists_eq_add_of_le' h
  rfl

/-- The places of the measurements a request may name one of. -/
theorem measuredIndices_filter (i : Fin 9) :
    ((((List.range 9).map (· + 1)) ++ ((List.range 8).map (· + 0x10))).filter (fun k => decide (k = (BitVec.ofNat 8 (i.val + 1)).toNat))) = [i.val + 1] := by
  revert i
  decide

theorem State.measured_filter (s : State) (i : Fin 9) :
    s.measured.filter (fun b => decide (b.1 = (BitVec.ofNat 8 (i.val + 1)).toNat)) = [(i.val + 1, Tab.get 0 s.sec.measure (i.val + 1))] := by
  unfold State.measured
  rw [List.filter_map]
  exact congrArg (List.map (fun k => (k, Tab.get 0 s.sec.measure k))) (measuredIndices_filter i)

/-- The numbers of single measurements are neither 0 nor that of all. -/
theorem measuredIndex_single (i : Fin 9) : (BitVec.ofNat 8 (i.val + 1) : Byte) ≠ 0 ∧ (BitVec.ofNat 8 (i.val + 1) : Byte) ≠ 0xFF := by
  revert i
  decide

theorem exec_getMeasurements_single {s : State} {path : SpdmPath} (hup : s.spdmUp path = true) (hstage : 3 ≤ (s.conn path).stage) (i : Fin 9) :
    exec (.getMeasurements path (BitVec.ofNat 8 (i.val + 1))) s =
      .next (s.spdmReply path (.measurements 1 [(i.val + 1, Tab.get 0 s.sec.measure (i.val + 1))])) := by
  obtain ⟨hzero, hall⟩ := measuredIndex_single i
  simp only [exec, execGetMeasurements, State.spdmAt_of_stage hup hstage, if_neg hzero, if_neg hall, State.measured_filter, List.cons_ne_nil, if_false]

theorem State.measured_length (s : State) : s.measured.length = 17 := by
  simp [State.measured]

/-- Settles O51: a request at its stage by what it answers, one before its stage by the refusal, and the sessions by what is kept of
them. -/
theorem spdm : Obligations.Spdm := by
  unfold Obligations.Spdm
  intro s path hup
  refine ⟨?_, fun c n hc hearly => ?_, fun hstage => ?_, fun hstage => ⟨?_, ?_, fun data => ?_, fun n hreply => ?_⟩, fun hstage =>
    ⟨?_, fun i b hchain => ⟨?_, ?_⟩, fun i hslot => ⟨?_, ?_⟩, ?_, ?_, exec_getMeasurements_single hup hstage, fun hfull => ?_, fun hroom => ?_,
      fun id x hsession hopen => ⟨?_, ?_⟩⟩,
    fun id x hsession hfinished => ⟨⟨_, exec_keyUpdate_of_finished hup hsession hfinished, State.keyUpdate_spec hsession⟩, ?_, ?_⟩,
    fun id hnone => ⟨?_, ?_⟩, fun id x hsession => ⟨fun hyoung => ?_, fun hlate => ?_⟩⟩
  · simp only [exec, execGetVersion, State.spdmAt_of_stage hup (Nat.zero_le _)]
  · simp only [List.mem_cons, Prod.mk.injEq, List.not_mem_nil, or_false] at hc
    rcases hc with ⟨rfl, rfl⟩ | ⟨rfl, rfl⟩ | ⟨rfl, rfl⟩ | ⟨rfl, rfl⟩ | ⟨rfl, rfl⟩ | ⟨rfl, rfl⟩ | ⟨rfl, rfl⟩ | ⟨rfl, rfl⟩ | ⟨rfl, rfl⟩ |
      ⟨rfl, rfl⟩
    all_goals exact congrArg Host.Outcome.next (State.spdmAt_of_early hup hearly _)
  · simp only [exec, execGetCapabilities, State.spdmAt_of_stage hup hstage]
  · simp only [exec, execNegotiateAlgorithms, State.spdmAt_of_stage hup hstage, if_true]
  · simp only [exec, execNegotiateAlgorithms, State.spdmAt_of_stage hup hstage, Bool.false_eq_true, if_false]
  · simp only [exec, execChunkSend, State.spdmAt_of_stage hup hstage, Bool.false_eq_true, if_false]
  · simp only [exec, execChunkGet, State.spdmAt_of_stage hup hstage, if_neg hreply]
  · simp only [exec, execGetDigests, State.spdmAt_of_stage hup hstage]
  · simp only [exec, execGetCertificate, State.spdmAt_of_stage hup hstage, hchain]
  · simp only [exec, execChallenge, State.spdmAt_of_stage hup hstage, hchain, Option.isSome_some, if_true]
  · simp only [exec, execGetCertificate, State.spdmAt_of_stage hup hstage, State.certChain_none hslot]
  · simp only [exec, execChallenge, State.spdmAt_of_stage hup hstage, State.certChain_none hslot, Option.isSome_none, Bool.false_eq_true, if_false]
  · simp only [exec, execGetMeasurements, State.spdmAt_of_stage hup hstage, State.measured_length, if_true]
  · simp only [exec, execGetMeasurements, State.spdmAt_of_stage hup hstage, State.measured_length]
    exact congrArg Host.Outcome.next ((if_neg (by decide)).trans (if_pos trivial))
  · simp only [exec, execKeyExchange, State.spdmAt_of_stage hup hstage, hfull, Bool.false_eq_true, if_false]
  · simp only [exec, execKeyExchange, State.spdmAt_of_stage hup hstage, hroom, if_true]
    exact ⟨_, rfl, rfl, rfl⟩
  · simp only [exec, execFinish, State.spdmAt_of_stage hup hstage, hsession, hopen, Bool.false_eq_true, if_false, if_true]
  · simp only [exec, execFinish, State.spdmAt_of_stage hup hstage, hsession, hopen, Bool.false_eq_true, if_false]
  · simp only [exec, execHeartbeat, State.inSession_of_finished hup hsession hfinished]
  · simp only [exec, execEndSession, State.inSession_of_finished hup hsession hfinished]
  · simp only [exec, execSessionLost, hnone]
  · simp only [exec, execHeartbeat, State.inSession_of_none hup hnone]
  · have hwaits : s.now < x.time + 3 * secTicks := hyoung
    simp only [exec, execSessionLost, hsession, if_pos hwaits]
  · obtain ⟨hmem, hsec⟩ := State.reportSessionLoss_keeps (s.dropSession path id) path
    refine ⟨_, exec_sessionLost_of_late hsession hlate, hmem, fun y hy hpath => State.not_mem_dropSession (s := s) ?_ hpath⟩
    rw [← hsec]
    exact hy

end Sys2Proof.Machine
end

section
/-! SUPPORT. Debug tokens, the life cycle, minimum versions and key slots; the freeze, the snapshot and the writes of counters
(R473, R482 to R493, R508). -/

namespace Sys2Proof.Machine

/-! What writes of memory leave of the counters' control registers -/

/-- The registers that control a snapshot. -/
structure SnapRegs where
  frozen : Bool
  snapSeq : W32
  snapErr : Bool
  resume : Bool

def State.snapRegs (s : State) : SnapRegs := ⟨s.pmc.frozen, s.pmc.snapSeq, s.pmc.snapErr, s.pmc.resume⟩

theorem State.report_snapRegs (s : State) (r : Report) : (s.report r).snapRegs = s.snapRegs := by
  unfold State.snapRegs
  rw [State.report_pmc]

theorem State.countDie_snapRegs (s : State) (d : Nat) (e : DieEvent) : (s.countDie d e).snapRegs = s.snapRegs := by
  unfold State.countDie
  split
  · rfl
  · split <;> rfl

theorem State.listRetire_snapRegs (s : State) (f : Nat) : (s.listRetire f).snapRegs = s.snapRegs := by
  unfold State.listRetire
  dsimp only
  split
  · rfl
  · split
    · rfl
    · exact State.report_snapRegs ..

theorem State.touchGran_snapRegs (s : State) (k : Nat) (p : Option PartNo) (g : Nat) : (s.touchGran k p g).snapRegs = s.snapRegs := by
  unfold State.touchGran
  split
  · rfl
  · extract_lets f ev ev1 u hbm s0 s1 s2 s3
    have hdraw : s0.snapRegs = s.snapRegs := by
      unfold s0
      split <;> rfl
    have hcount : s3.snapRegs = s.snapRegs := (State.countDie_snapRegs ..).trans ((State.report_snapRegs ..).trans hdraw)
    split
    · exact (State.listRetire_snapRegs ..).trans hcount
    · exact hcount

theorem State.setHomeGran_snapRegs (s : State) (g : Nat) (x : Gran) : (s.setHomeGran g x).snapRegs = s.snapRegs := by
  have hdisarm : (s.disarmAt (64 * g)).snapRegs = s.snapRegs := by
    unfold State.disarmAt
    split <;> rfl
  rw [← hdisarm]
  unfold State.setHomeGran State.snapRegs
  rw [State.modMem_pmc]
  rfl

theorem State.plainWrite_snapRegs (s : State) (w : Writer) (ps : List Piece) : (s.plainWrite w ps).snapRegs = s.snapRegs := by
  refine foldl_keeps State.snapRegs _ (fun t p => ?_) ps s
  split
  · rfl
  · unfold State.writeHome
    dsimp only
    split
    · exact State.setHomeGran_snapRegs ..
    · exact (State.setHomeGran_snapRegs ..).trans (State.touchGran_snapRegs ..)

/-! The freeze and the snapshot (R491, R493) -/

/-- R491: a freeze freezes the counters; the other registers, the snapshot's address and memory stay. -/
theorem State.freeze_spec (s : State) : s.freeze.snapRegs = { s.snapRegs with frozen := true } ∧ s.freeze.pmc.snapAddr = s.pmc.snapAddr ∧
    s.freeze.mem = s.mem ∧ ∀ a n, s.freeze.snapFault a n = s.snapFault a n := by
  unfold State.freeze
  split
  · next h => exact ⟨by unfold State.snapRegs; rw [h], rfl, rfl, fun _ _ => rfl⟩
  · exact ⟨rfl, rfl, rfl, fun _ _ => rfl⟩

/-- R493: a snapshot is counted, and the counters go on after it only where they ran before it and were to resume. -/
theorem State.snapshot_snapRegs {s : State} (h : s.snapFault s.pmc.snapAddr.toNat 17216 = none) :
    s.snapshot.snapRegs = { s.snapRegs with frozen := s.pmc.frozen || !s.pmc.resume, snapSeq := s.pmc.snapSeq + 1 } := by
  obtain ⟨hregs, haddr, -, hfault⟩ := State.freeze_spec s
  have hwritten := (State.plainWrite_snapRegs s.freeze (.engine masterSnap)
    (piecesOf s.pmc.snapAddr.toNat (s.freeze.snapRecord s.pmc.frozen) (fun _ => false))).trans hregs
  have hresume : s.freeze.pmc.resume = s.pmc.resume := congrArg SnapRegs.resume hregs
  unfold State.snapshot State.snapWrite
  dsimp only
  rw [haddr, hfault, h]
  dsimp only
  generalize State.plainWrite _ _ _ = t at hwritten ⊢
  have hcounted : (t.modPmc (fun c => { c with snapSeq := c.snapSeq + 1 })).snapRegs =
      { s.snapRegs with frozen := true, snapSeq := s.pmc.snapSeq + 1 } :=
    congrArg (fun r : SnapRegs => { r with snapSeq := r.snapSeq + 1 }) hwritten
  rw [hresume]
  split
  · next hgo =>
    obtain ⟨hgoes, hran⟩ := hgo
    have hrunning : (s.pmc.frozen || !s.pmc.resume) = false := by simpa [hgoes] using hran
    rw [hrunning]
    exact congrArg (fun r : SnapRegs => { r with frozen := false }) hcounted
  · next hstay =>
    have hfrozen : (s.pmc.frozen || !s.pmc.resume) = true := by
      cases hf : s.pmc.frozen with
      | true => rfl
      | false =>
        cases hr : s.pmc.resume with
        | false => rfl
        | true => exact absurd ⟨hr, by rw [hf]; rfl⟩ hstay
    rw [hfrozen]
    exact hcounted

/-- R493: a snapshot that cannot be written is an error, with the counters frozen and memory as it was. -/
theorem State.snapshot_of_fault {s : State} {f : PFault} (h : s.snapFault s.pmc.snapAddr.toNat 17216 = some f) :
    s.snapshot.snapRegs = { s.snapRegs with frozen := true, snapErr := true } ∧ s.snapshot.mem = s.mem := by
  obtain ⟨hregs, haddr, hmem, hfault⟩ := State.freeze_spec s
  unfold State.snapshot State.snapWrite
  dsimp only
  rw [haddr, hfault, h]
  dsimp only
  rw [State.report_snapRegs, State.report_mem]
  exact ⟨congrArg (fun r : SnapRegs => { r with snapErr := true }) hregs, hmem⟩

/-! Minimum versions and key slots (R473, R484) -/

/-- R473: a commit raises each minimum version to that of the image that runs, and lowers none. -/
theorem State.askCommit_svnMin (s : State) (i : Fin 5) : s.sec.svnMin[i.val] ≤ (s.askCommit 1).1.sec.svnMin[i.val] ∧
    (Tab.get Image.absent s.sec.running (i.val + 1)).security ≤ (s.askCommit 1).1.sec.svnMin[i.val] := by
  have hraised : (s.askCommit 1).1.sec.svnMin[i.val] =
      if s.sec.svnMin[i.val].toNat < (Tab.get Image.absent s.sec.running (i.val + 1)).security.toNat
        then (Tab.get Image.absent s.sec.running (i.val + 1)).security else s.sec.svnMin[i.val] :=
    Vector.getElem_ofFn ..
  rw [hraised]
  split
  · next h => exact ⟨BitVec.le_def.2 (Nat.le_of_lt h), BitVec.le_refl _⟩
  · next h => exact ⟨BitVec.le_refl _, BitVec.le_def.2 (Nat.not_lt.1 h)⟩

theorem exec_revokeSlot_of_free {s : State} {i : Byte} (hslot : i.toNat ≤ 3)
    (hfree : s.sec.running.any (fun e => decide (e.2.slot.toNat = i.toNat)) = false) :
    exec (.revokeSlot i) s =
      .next ((s.modSec (fun x => { x with revoked := x.revoked ||| BitVec.ofNat 4 (2 ^ i.toNat) })).emit (.status wmpOk)) :=
  congrArg (fun x : State × Nat => Host.Outcome.next (State.answer x)) (if_neg (not_or.2 ⟨Nat.not_lt.2 hslot, by rw [hfree]; exact Bool.false_ne_true⟩))

theorem getLsbD_bit_of_slot {k : Nat} (h : k ≤ 3) : (BitVec.ofNat 4 (2 ^ k)).getLsbD k = true := by
  rw [BitVec.getLsbD_ofNat, Nat.testBit_two_pow_self]
  simp only [Bool.and_true, decide_eq_true_eq]
  omega

/-! Writes of counters (R492) -/

theorem exec_pmcCounterWrite_of_main {s : State} (hon : s.plug.mainOn = true) (c : CounterId) (v : W64) :
    exec (.pmcCounterWrite c v) s = .next (match c with
      | .core n k => s.modCoreCounter n k.val (fun x => x.write v)
      | .die d k => s.modDieCounter d k.val (fun x => x.write v)) := by
  simp only [exec, execPmcCounterWrite, State.mainOn, hon, Bool.not_true, Bool.false_eq_true, if_false] <;> rfl

theorem State.core_modCoreCounter {s : State} {n : CoreNo} (h : (s.core n).mode ≠ .off) (k : Nat) (f : Counter → Counter) :
    ((s.modCoreCounter n k f).core n).counters = Tab.set Counter.reset (s.core n).counters k (f ((s.core n).counter k)) := by
  unfold State.modCoreCounter State.modCore
  rw [State.core_setCore, if_pos rfl]
  exact congrArg Core.counters (if_neg h)

theorem State.dies_modDieCounter (s : State) (d : Fin 6) (k : Nat) (f : Counter → Counter) :
    (s.modDieCounter d k f).pmc.dies[d.val].counters =
      Tab.set Counter.dieReset s.pmc.dies[d.val].counters k (f (s.pmc.dies[d.val].counter k)) :=
  congrArg DieCounters.counters (Vector.getElem_set_self ..)

/-- Settles O52: each request of the security state by what it refuses and what it does, then the counters' commands with the main
domain up. -/
theorem securityCounters : Obligations.SecurityCounters := by
  unfold Obligations.SecurityCounters
  intro s
  refine ⟨fun hup => ⟨congrArg Host.Outcome.next (if_pos hup), rfl, rfl⟩, fun token => ⟨fun hstate => ?_, fun hstate htoken => ?_, fun hstate htoken => ?_⟩,
    fun v => ⟨fun hvalue hstate => ?_, fun hvalue => ?_, fun hvalue hstate => ?_⟩, ⟨_, rfl, State.askCommit_svnMin s⟩, fun i hbad => ?_,
    fun i hslot hfree => ⟨_, exec_revokeSlot_of_free hslot hfree, ?_, fun k hk => ?_⟩, fun v => ⟨fun hvalue => ?_, fun hvalue hstate => ?_,
      fun hvalue hstate => ?_⟩, fun hon => ?_⟩
  · exact congrArg (fun x : State × Nat => Host.Outcome.next (State.answer x)) (if_pos hstate)
  · have hexec : exec (.debugTokenWrite token) s = .next (State.answer _) :=
      congrArg (fun x : State × Nat => Host.Outcome.next (State.answer x)) ((if_neg (not_not.2 hstate)).trans (if_pos htoken))
    exact ⟨_, hexec, rfl, rfl, rfl⟩
  · have hexec : exec (.debugTokenWrite token) s = .next (State.answer _) :=
      congrArg (fun x : State × Nat => Host.Outcome.next (State.answer x)) ((if_neg (not_not.2 hstate)).trans (if_neg (by rw [htoken]; exact Bool.false_ne_true)))
    exact ⟨_, hexec, State.report_sec ..⟩
  · subst hvalue
    have hexec : exec (.lifecycleEnd 0xA5) s = .next (State.answer _) :=
      congrArg (fun x : State × Nat => Host.Outcome.next (State.answer x)) ((if_neg (by decide)).trans (if_neg (not_not.2 hstate)))
    exact ⟨_, hexec, rfl, rfl, rfl, rfl, rfl⟩
  · exact congrArg (fun x : State × Nat => Host.Outcome.next (State.answer x)) (if_pos (fun h => hvalue (BitVec.eq_of_toNat_eq h)))
  · subst hvalue
    exact congrArg (fun x : State × Nat => Host.Outcome.next (State.answer x)) ((if_neg (by decide)).trans (if_pos hstate))
  · exact congrArg (fun x : State × Nat => Host.Outcome.next (State.answer x)) (if_pos hbad)
  · show (s.sec.revoked ||| BitVec.ofNat 4 (2 ^ i.toNat)).getLsbD i.toNat = true
    rw [BitVec.getLsbD_or, getLsbD_bit_of_slot hslot, Bool.or_true]
  · show (s.sec.revoked ||| BitVec.ofNat 4 (2 ^ i.toNat)).getLsbD k = true
    rw [BitVec.getLsbD_or, hk, Bool.true_or]
  · exact congrArg (fun x : State × Nat => Host.Outcome.next (State.answer x)) (if_pos (fun h => hvalue (BitVec.eq_of_toNat_eq h)))
  · subst hvalue
    exact congrArg (fun x : State × Nat => Host.Outcome.next (State.answer x)) ((if_neg (by decide)).trans (if_pos hstate))
  · subst hvalue
    have hexec : exec (.restartWarden 0x5A) s = .next (State.answer _) :=
      congrArg (fun x : State × Nat => Host.Outcome.next (State.answer x)) ((if_neg (by decide)).trans (if_neg hstate))
    exact ⟨_, hexec, rfl, rfl, rfl, rfl⟩
  · have hsnap : exec .pmcSnapshot s = .next s.snapshot := congrArg Host.Outcome.next (if_pos hon)
    refine ⟨fun hrun => congrArg Host.Outcome.next ((if_pos hon).trans (if_neg (by rw [hrun]; exact Bool.false_ne_true))),
      fun hfrozen => congrArg Host.Outcome.next ((if_pos hon).trans (if_pos hfrozen)), congrArg Host.Outcome.next (if_pos hon), fun hok => ?_,
      fun f hfault => ?_, fun n k v hmode => ⟨_, exec_pmcCounterWrite_of_main hon .., rfl, State.core_modCoreCounter hmode ..⟩,
      fun d k v => ⟨_, exec_pmcCounterWrite_of_main hon .., rfl, State.dies_modDieCounter ..⟩, fun hrun n hoff hcut => ?_, State.countTick_frozen s⟩
    · have hregs := State.snapshot_snapRegs hok
      exact ⟨_, hsnap, congrArg SnapRegs.snapSeq hregs, congrArg SnapRegs.snapErr hregs, congrArg SnapRegs.frozen hregs⟩
    · obtain ⟨hregs, hmem⟩ := State.snapshot_of_fault hfault
      exact ⟨_, hsnap, congrArg SnapRegs.snapErr hregs, congrArg SnapRegs.frozen hregs, congrArg SnapRegs.snapSeq hregs, hmem⟩
    · rw [State.countTick_core s n hon hrun]
      refine ⟨Core.countTick_cycles _ _ _ _ hoff hcut, ?_⟩
      rw [Core.countTick_frame]

end Sys2Proof.Machine
end

section
/-! SUPPORT. The firmware update: the PLDM commands of the agent in their states (R506, R507). -/

namespace Sys2Proof.Machine

section
variable {s : State} {path : PldmPath} (hup : s.pldmUp path = true)
include hup

/-- A command of an unsecured path is refused. -/
theorem State.pldmIn_of_unsecured (h : s.pldmSecured path = false) (ok : Nat → Bool) (f : State → UpdateState → State) :
    s.pldmIn path ok f = s.pldmDone path .unsecured := by
  unfold State.pldmIn
  dsimp only
  rw [if_neg (by rw [hup]; decide), if_pos (by rw [h]; rfl)]

/-- A command of the agent, in a state that takes it, acts. -/
theorem State.pldmIn_of_agent (hsecured : s.pldmSecured path = true) (hagent : s.sec.update.agent = some path) {ok : Nat → Bool}
    (hok : ok s.sec.update.state.toNat = true) (f : State → UpdateState → State) : s.pldmIn path ok f = f s s.sec.update := by
  unfold State.pldmIn
  dsimp only
  rw [if_neg (by rw [hup]; decide), if_neg (by rw [hsecured]; decide), if_neg (not_not.2 hagent), if_neg (by rw [hok]; decide)]

theorem exec_requestUpdate_of_secured (hsecured : s.pldmSecured path = true) : exec (.requestUpdate path) s = .next (
    if s.sec.update.agent.isSome then s.pldmDone path .alreadyInUpdateMode
    else (s.modUpdate (fun u => { u with agent := some path, state := 1, table := [], applied := [], scratch := [] })).pldmDone path .success) :=
  congrArg Host.Outcome.next ((if_neg (by rw [hup]; decide)).trans (if_neg (by rw [hsecured]; decide)))

end

/-- Settles O53: each command by the guard that decides it, given that the agent may send it in the update's state. -/
theorem pldm : Obligations.Pldm := by
  unfold Obligations.Pldm
  intro s path hup
  refine ⟨congrArg Host.Outcome.next (if_pos hup), congrArg Host.Outcome.next (if_pos hup), congrArg Host.Outcome.next (if_pos hup),
    fun hsecured hnone => ?_, fun hsecured hsome => ?_, fun c hc hplain => ?_, fun hsecured hagent => ?_⟩
  · have hexec := exec_requestUpdate_of_secured hup hsecured
    rw [hnone, if_neg (by decide)] at hexec
    exact ⟨_, hexec, rfl, rfl⟩
  · rw [exec_requestUpdate_of_secured hup hsecured, if_pos (Option.isSome_iff_ne_none.2 hsome)]
  · simp only [List.mem_cons, List.not_mem_nil, or_false] at hc
    rcases hc with rfl | rfl | rfl | rfl | rfl | rfl | rfl | rfl | rfl
    · exact congrArg Host.Outcome.next ((if_neg (by rw [hup]; decide)).trans (if_pos (by rw [hplain]; rfl)))
    all_goals exact congrArg Host.Outcome.next (State.pldmIn_of_unsecured hup hplain _ _)
  · have hin {n : BitVec 8} (hstate : s.sec.update.state = n) {ok : Nat → Bool} (hok : ok n.toNat = true) (f : State → UpdateState → State) :
        s.pldmIn path ok f = f s s.sec.update :=
      State.pldmIn_of_agent hup hsecured hagent (by rw [hstate]; exact hok) f
    refine ⟨fun hstate => ⟨fun comp last hlow hhigh => ?_, fun comp size htable => ?_, fun happlied => ?_, fun happlied => ?_⟩,
      fun hstate => ⟨fun data hdata hlimit hfits => ?_, fun hwhole => ?_, fun hshort => ?_⟩, fun hstate => ⟨fun hgood => ?_, fun hbad => ?_⟩,
      fun hstate => ?_, fun hstate => ?_, ?_⟩
    · simp only [exec, execPassComponentTable]
      rw [hin hstate (by decide), if_neg (by omega)]
    · simp only [exec, execUpdateComponent]
      rw [hin hstate (by decide), htable]
      rfl
    · simp only [exec, execActivateFirmware]
      rw [hin hstate (by decide), if_neg happlied]
      refine ⟨_, rfl, rfl, if_neg (fun h => happlied (List.append_eq_nil_iff.1 h).2), rfl, fun c hc => List.mem_append_right _ hc⟩
    · simp only [exec, execActivateFirmware]
      rw [hin hstate (by decide), if_pos happlied]
    · simp only [exec, execRequestFirmwareData]
      rw [hin hstate (by decide), if_neg (not_or.2 ⟨hdata, not_or.2 ⟨Nat.not_lt.2 hlimit, Nat.not_lt.2 hfits⟩⟩)]
    · simp only [exec, execTransferComplete]
      rw [hin hstate (by decide), if_neg (not_not.2 hwhole)]
    · simp only [exec, execTransferComplete]
      rw [hin hstate (by decide), if_pos hshort]
    · simp only [exec, execVerifyComplete]
      rw [hin hstate (by decide), if_pos hgood]
    · simp only [exec, execVerifyComplete]
      rw [hin hstate (by decide), if_neg (by rw [hbad]; exact Bool.false_ne_true)]
    · simp only [exec, execApplyComplete]
      rw [hin hstate (by decide)]
      exact ⟨_, rfl, rfl, rfl, rfl⟩
    · simp only [exec, execCancelUpdateComponent]
      rcases hstate with hstate | hstate | hstate <;> rw [hin hstate (by decide)]
    · simp only [exec, execCancelUpdate]
      rw [hin rfl rfl]
      exact ⟨_, rfl, rfl, rfl, rfl⟩

end Sys2Proof.Machine
end
